-- ==== Sys2Proof/Word.lean ====
section
/-!
DEFINITION. The word types of the model. Registers, addresses and messages that the manual treats as bits are
bit vectors where software sees them as words; quantities are natural numbers.
-/

-- One elaboration thread, for this file and for the files after it in the one text.
set_option Elab.async false

namespace Sys2Proof

/-- One byte of memory or of a message (R8). -/
abbrev Byte := BitVec 8

/-- One 64-byte line: the unit of CXL.mem, of the landing buffer and of the DRAM controllers (R72, R305, R343). -/
abbrev Line := BitVec 512

/-- A 32-bit register word. -/
abbrev Word := BitVec 32

/-- A 64-bit register word or address. -/
abbrev Dword := BitVec 64

end Sys2Proof
end

