-- ==== Sys2Proof/Syntax.lean ====
section
/-!
DEFINITION. The commands of the block: one constructor per row of the operation table, with the row's operands.
An operand is what the world supplies with the command: a value written, bytes read from host memory, a sensor
reading, the outcome of a physical access. What the block itself determines is no operand.
-/

namespace Sys2Proof

/-- The two kinds of mailbox (R88, R90): the admin mailbox and the 64 pairs. -/
inductive Mailbox where
  | admin
  | pair (n : Fin 64)
  deriving DecidableEq, Repr

/-- What a command's read of host memory delivers (R107, R291): the bytes, or the stop with its error code and detail (R295). -/
inductive Transfer where
  | bytes (b : List Byte)
  | stopped (code : BitVec 16) (detail : Byte)
  deriving DecidableEq, Repr

/-- Whether a flash access that a command makes succeeded (R413), or the first 8 bytes of the completion of the access
that failed (R107). -/
inductive FlashResult where
  | ok
  | failed (completion : Dword)
  deriving DecidableEq, Repr

/-- Which copies of a chain record verify when read back (R360): both, one (copy 1 for `true`), or neither, with the
first 8 bytes of the completion of the last failed read-back (R341). -/
inductive CopyResult where
  | both
  | one (copy : Bool)
  | neither (completion : Dword)
  deriving DecidableEq, Repr

/-- A DIMM as its SPD describes it (R301, R302): whether its kind is supported, 32 Gb devices, ranks, and its speed
rating encoded as CHCFG.SPEED. -/
structure DimmReport where
  supported : Bool
  dense : Bool
  ranks : BitVec 3
  speed : BitVec 2
  deriving DecidableEq, Repr

/-- What the bring-up of a channel finds (R323): its DIMMs, and how many training attempts fail. -/
structure ChannelReport where
  ch : Fin 12
  dimms : List DimmReport
  failures : BitVec 2
  deriving DecidableEq, Repr

/-- What a bring-up of the HOLD blocks finds (R370, R403, R412, R433, R523): the strap, how many of the newest records
of each chain-record copy and option copy do not verify, which journal copy fails, and the known-answer tests. -/
structure HoldReport where
  tref : Bool
  badRecords0 : Nat
  badRecords1 : Nat
  badOptions0 : Nat
  badOptions1 : Nat
  journal0Bad : Bool
  journal1Bad : Bool
  testsPass : Bool
  deriving DecidableEq, Repr

/-- What a die reports at the end of an operation (R390, R392 to R395): loops or retry steps used, uncorrectable
sectors, sectors that needed retry, most bits corrected, soft decoding used, the planes that reached the loop limit,
and the die's status byte. -/
structure FlashOutcome where
  loops : Byte
  sectorErr : BitVec 16
  retried : BitVec 16
  maxFlips : BitVec 16
  soft : Bool
  failed : BitVec 4
  dieStatus : Byte
  deriving DecidableEq, Repr

/-- A requester of FT_NOW that may hold a latch (R45): a host requester ID or a Clatos core. -/
inductive Requester where
  | host (id : BitVec 16)
  | clatos (core : BitVec 2)
  deriving DecidableEq, Repr


/-- What a check of a line finds (R313, R316): right, corrected in one device, or uncorrectable. -/
inductive EccOutcome where
  | clean
  | corrected (device : BitVec 5)
  | uncorrectable
  deriving DecidableEq, Repr

/-- A bank of the DRAM: channel, subchannel, rank, bank group and bank (R302, R305). -/
structure BankId where
  ch : Fin 12
  sub : Bool
  rank : BitVec 2
  bg : BitVec 3
  bank : BitVec 2
  deriving DecidableEq, Repr

/-- One finding of a DRAM scrub slice (R338, R339): channel, line address within the channel, outcome. -/
structure LineFinding where
  ch : Fin 12
  line : Nat
  outcome : EccOutcome
  deriving DecidableEq, Repr

/-- What an SRAM scrub slice finds (R34, R438). -/
inductive SramFinding where
  | clean
  | poolCorrected (die : BitVec 2)
  | poolUncorrectable (buffer : BitVec 15)
  | landingCopy (line : Nat)
  | landingBoth (line : Nat)
  | dirtyMapCorrected
  | dirtyMapLost (block : BitVec 13)
  | scratchCorrected (tiller : BitVec 7)
  | scratchUncorrectable (tiller : BitVec 7)
  | datapathParity (tiller : BitVec 7)
  deriving DecidableEq, Repr

/-- The two copies of a landing-buffer line at its drain (R438). -/
inductive CopyCheck where
  | both
  | oneBad
  | bothBad
  deriving DecidableEq, Repr

/-- The check of key slot 0 at a use (R425): it passes; it fails and the slot is rebuilt from the fuses; or the fuse
read fails its own check twice in succession. -/
inductive SlotCheck where
  | passes
  | rebuilt
  | fusesFail
  deriving DecidableEq, Repr

/-- A unit of a vault segment, by segment sequence number and unit index (R356, R358). -/
structure SegUnit where
  seq : Nat
  unit : Nat
  deriving DecidableEq, Repr

/-- What the host delivers of an INGEST's data: the SEQ of the command, and the transfer (R530). -/
structure IngestData where
  seq : BitVec 16
  transfer : Transfer
  deriving DecidableEq, Repr

/-- The link errors of the AER table (R81). -/
inductive LinkErrorKind where
  | correctable
  | advisory
  | poisonedTlp
  | completionError
  | protocolFatal
  deriving DecidableEq, Repr

/-- A link error as it is detected: its kind, and the header of the packet that AER logs (R64, R81). -/
structure LinkErrorReport where
  kind : LinkErrorKind
  header : BitVec 128
  deriving DecidableEq, Repr

/-- A unit that reads host memory (R291): a tiller or a mailbox. -/
inductive DmaRequester where
  | tiller (t : BitVec 7)
  | mailbox (m : Mailbox)
  deriving DecidableEq, Repr

/-- How a read completion arrives (R291): data in the order of the request, poison, or UR or CA (`true`). -/
inductive CplStatus where
  | data (line : List Byte)
  | poisoned
  | aborted (ca : Bool)
  deriving DecidableEq, Repr

/-- The answer to an ATS translation request (R285, R286, R295): page frame, size and rights; denial; or a completion
with UR or CA. -/
inductive TransAnswer where
  | granted (frame : BitVec 52) (pagesLog : BitVec 6) (read write : Bool) (untranslatedOnly : Bool)
  | denied
  | aborted
  deriving DecidableEq, Repr

/-- The body of a Set Endpoint ID message: operation byte and endpoint ID (R484). -/
structure MctpControl where
  operation : Byte
  eid : Byte
  deriving DecidableEq, Repr

/-- A vendor message as it arrives (R484, R486): destination and source endpoints, message tag, the Brynrax header, and
the payload. -/
structure VendorMsg where
  dest : Byte
  source : Byte
  tag : BitVec 4
  version : Byte
  command : Byte
  cc : Byte
  rsvd : Byte
  len : BitVec 16
  payload : List Byte
  deriving DecidableEq, Repr

/-- Who makes a register access (R501, R505). -/
inductive RegWriter where
  | host
  | firmware
  deriving DecidableEq, Repr

/-- The access sizes of R502. -/
inductive AccessSize where
  | four
  | eight
  deriving DecidableEq, Repr

/-- What FW_COMMIT finds (R111), whose image layout the manual does not give: a valid image of a release, written to both
copies; another total length in its header; the first check that fails; or copies that could not be written. -/
inductive ImageVerdict where
  | valid (release : Word)
  | length (expected : Word)
  | invalid (check : Word)
  | unwritten
  deriving DecidableEq, Repr

/-- Which firmware copy verifies at a load (R462): copy 1, else copy 2, else neither. -/
inductive FirmwareCheck where
  | first
  | second
  | neither
  deriving DecidableEq, Repr

/-- The 32-byte calendar entry as staged (R62): CAL_STAGE0 to CAL_STAGE3. -/
structure CalImage where
  w0 : Dword
  w1 : Dword
  w2 : Dword
  w3 : Dword
  deriving DecidableEq, Repr

/-- Who commits a calendar entry (R62, R63): the firmware from the stage registers, or the management core. -/
inductive CalWriter where
  | firmware
  | management (entry : CalImage)
  deriving DecidableEq, Repr

/-- The commands, one constructor per row of the operation table. -/
inductive Instr where
  /-- ADM_DOORBELL_GO (R88). -/
  | admDoorbellGo
  /-- SQ_TAIL_WRITE (R92). -/
  | sqTailWrite (n : Fin 64) (v : Word)
  /-- CQ_HEAD_WRITE (R92). -/
  | cqHeadWrite (n : Fin 64) (v : Word)
  /-- COMMAND_ACCEPT (R93). -/
  | commandAccept (n : Fin 64) (fetched : Option Line)
  /-- INVALID_OPCODE (R98). -/
  | invalidOpcode (m : Mailbox)
  /-- HELD_COMPLETION_WRITE (R94). -/
  | heldCompletionWrite (n : Fin 64) (written : Bool)
  /-- COALESCE_TIMER_EXPIRY (R95). -/
  | coalesceTimerExpiry (n : Fin 64)
  /-- MSIX_UNMASK (R80). -/
  | msixUnmask (v : BitVec 8)
  /-- IDENTIFY (R110). -/
  | identify (m : Mailbox)
  /-- FW_DOWNLOAD (R111). -/
  | fwDownload (m : Mailbox) (data : Transfer)
  /-- FW_COMMIT (R111). -/
  | fwCommit (m : Mailbox) (found : ImageVerdict)
  /-- DEVICE_RESET (R112). -/
  | deviceReset (m : Mailbox)
  /-- DEVICE_RESET_LOAD_COMMITTED (R462). -/
  | deviceResetLoadCommitted (m : Mailbox)
  /-- OPTION_READ (R108). -/
  | optionRead (m : Mailbox) (flash : FlashResult)
  /-- OPTION_WRITE (R413). -/
  | optionWrite (m : Mailbox) (record : Transfer) (flash : FlashResult)
  /-- CREATE_PAIR (R109). -/
  | createPair (m : Mailbox)
  /-- DELETE_PAIR (R113). -/
  | deletePair (m : Mailbox)
  /-- BIND_VECTOR (R174). -/
  | bindVector (m : Mailbox)
  /-- UNBIND_VECTOR (R174). -/
  | unbindVector (m : Mailbox)
  /-- FT_LOAD (R55). -/
  | ftLoad (m : Mailbox)
  /-- SET_PACING (R470). -/
  | setPacing (m : Mailbox)
  /-- PLAN_LOAD (R151). -/
  | planLoad (m : Mailbox) (image : Transfer) (heads : List Transfer)
  /-- PLAN_LOAD_VALIDATE (R155). -/
  | planLoadValidate (m : Mailbox) (image : Transfer) (heads : List Transfer)
  /-- PLAN_START (R170). -/
  | planStart (m : Mailbox) (params : Transfer)
  /-- PLAN_CANCEL (R176). -/
  | planCancel (m : Mailbox)
  /-- TEARDOWN_COMPLETE (R177). -/
  | teardownComplete (slot : BitVec 8)
  /-- PLAN_UNLOAD (R178). -/
  | planUnload (m : Mailbox)
  /-- PLAN_STATUS (R182). -/
  | planStatus (m : Mailbox)
  /-- FLOW_RELEASE (R265). -/
  | flowRelease (m : Mailbox)
  /-- FLOW_CANCEL (R175). -/
  | flowCancel (m : Mailbox)
  /-- INGEST (R530): the command of a mailbox with a SEQ, and what the host delivers of its data. -/
  | ingest (m : Mailbox) (data : IngestData)
  /-- APPEND_BLOCK (R133). -/
  | appendBlock (m : Mailbox) (data : Transfer)
  /-- GRANARY_CREATE (R341). -/
  | granaryCreate (m : Mailbox) (config : Transfer) (written : CopyResult)
  /-- GRANARY_TUNE (R341). -/
  | granaryTune (m : Mailbox) (config : Transfer) (written : CopyResult)
  /-- GRANARY_FORMAT (R341). -/
  | granaryFormat (m : Mailbox) (config : Transfer) (written : CopyResult)
  /-- GRANARY_RESUME (R341). -/
  | granaryResume (m : Mailbox) (config : Transfer)
  /-- GRANARY_DUMP (R368). -/
  | granaryDump (m : Mailbox)
  /-- FLASH_SUBMIT (R397). -/
  | flashSubmit (m : Mailbox) (descriptor : Transfer)
  /-- KEY_LOAD (R422). -/
  | keyLoad (m : Mailbox) (key : Transfer)
  /-- KEY_DISCARD (R423). -/
  | keyDiscard (m : Mailbox)
  /-- DIGEST_PLAIN (R427). -/
  | digestPlain (m : Mailbox) (msg : Transfer)
  /-- DIGEST_HMAC (R427). -/
  | digestHmac (m : Mailbox) (msg : Transfer) (slotOk : Bool)
  /-- MR_READ (R431). -/
  | mrRead (m : Mailbox)
  /-- MR_EXTEND (R431). -/
  | mrExtend (m : Mailbox) (data : Transfer)
  /-- FAULT_CONFIG (R440). -/
  | faultConfig (m : Mailbox)
  /-- FAULT_INJECT (R455). -/
  | faultInject (m : Mailbox)
  /-- SPILL_CONFIG (R108). -/
  | spillConfig (m : Mailbox)
  /-- TIME_REF_EDGE (R44). -/
  | timeRefEdge
  /-- REF_WINDOW_END (R50); `part` is how much more of TIME_REF the window holds than its edges count, in thousandths of a period. -/
  | refWindowEnd (part : Int)
  /-- TIME_REF_LOSS (R51). -/
  | timeRefLoss
  /-- PPS_EDGE (R46). -/
  | ppsEdge (rising : Bool)
  /-- PPS_MISSING_TIMEOUT (R46). -/
  | ppsMissingTimeout
  /-- ARM (R53). -/
  | arm
  /-- DISARM (R52). -/
  | disarm
  /-- ARM_EXPIRY (R54). -/
  | armExpiry
  /-- REF_SEL_CHANGE (R52). -/
  | refSelChange (v : Word)
  /-- FT_NOW_LOW_READ (R45). -/
  | ftNowLowRead (r : Requester)
  /-- FT_NOW_HIGH_READ (R45). -/
  | ftNowHighRead (r : Requester)
  /-- CALENDAR_EVALUATION (R56). -/
  | calendarEvaluation
  /-- COMMIT_ENTRY (R62). -/
  | commitEntry (w : CalWriter) (index : BitVec 10)
  /-- CLEAR_ENTRY (R62). -/
  | clearEntry (index : BitVec 10)
  /-- READ_ENTRY (R62). -/
  | readEntry (index : BitVec 10)
  /-- WINDOW_CLOSE_ACCEPT (R228). -/
  | windowCloseAccept
  /-- DRAM_SCRUB_SLICE (R338). -/
  | dramScrubSlice (found : List LineFinding)
  /-- SRAM_SCRUB_SLICE (R34). -/
  | sramScrubSlice (found : SramFinding)
  /-- VAULT_SCRUB_SLICE (R356). -/
  | vaultScrubSlice (failed : List SegUnit)
  /-- RETRAINING_SLOT (R324). -/
  | retrainingSlot
  /-- CAPACITANCE_MEASUREMENT (R349). -/
  | capacitanceMeasurement (v0 : BitVec 16)
  /-- MEASUREMENT_V1_SAMPLE (R349). -/
  | measurementV1Sample (v1 : BitVec 16)
  /-- MEASUREMENT_T2 (R349). -/
  | measurementT2
  /-- MEASUREMENT_TIMEOUT (R349). -/
  | measurementTimeout
  /-- WINNOWER_LOW_PASS (R353). -/
  | winnowerLowPass
  /-- TELEMETRY_SAMPLE (R492). -/
  | telemetrySample
  /-- FIRMWARE_INTERRUPT (R61). -/
  | firmwareInterrupt
  /-- LINK_TRAINING (R67). -/
  | linkTraining (width : BitVec 3) (speed : BitVec 3) (alternate : Bool)
  /-- CXL_MEM_WRITE (R72). -/
  | cxlMemWrite (hpa : Dword) (data : Line) (poison : Bool)
  /-- CXL_MEM_READ (R73). -/
  | cxlMemRead (hpa : Dword) (tag : BitVec 16)
  /-- GLOBAL_PERSISTENT_FLUSH (R78). -/
  | globalPersistentFlush (second : Bool)
  /-- HDM_DECODER_COMMIT (R71). -/
  | hdmDecoderCommit (decoder : Bool) (base : Dword) (size : Dword) (ways : BitVec 8) (granularity : BitVec 32)
  /-- GET_EVENT_RECORDS (R83). -/
  | getEventRecords (log : BitVec 8)
  /-- CLEAR_EVENT_RECORDS (R83). -/
  | clearEventRecords (log : BitVec 8) (all : Bool) (handles : List (BitVec 16))
  /-- GET_EVENT_INTERRUPT_POLICY (R83). -/
  | getEventInterruptPolicy
  /-- SET_EVENT_INTERRUPT_POLICY (R83). -/
  | setEventInterruptPolicy (policy : Word)
  /-- GET_FW_INFO (R83). -/
  | getFwInfo
  /-- GET_TIMESTAMP (R83). -/
  | getTimestamp
  /-- SET_TIMESTAMP (R83). -/
  | setTimestamp (v : Dword)
  /-- GET_SUPPORTED_LOGS (R83). -/
  | getSupportedLogs
  /-- GET_LOG (R83). -/
  | getLog (log : BitVec 128) (offset : Word) (length : Word)
  /-- IDENTIFY_MEMORY_DEVICE (R83). -/
  | identifyMemoryDevice
  /-- GET_PARTITION_INFO (R83). -/
  | getPartitionInfo
  /-- GET_LSA (R83). -/
  | getLsa (offset : Word) (length : Word)
  /-- SET_LSA (R83). -/
  | setLsa (offset : Word) (data : List Byte)
  /-- GET_HEALTH_INFO (R83). -/
  | getHealthInfo
  /-- GET_ALERT_CONFIGURATION (R83). -/
  | getAlertConfiguration
  /-- SET_ALERT_CONFIGURATION (R83). -/
  | setAlertConfiguration (config : BitVec 96)
  /-- GET_SHUTDOWN_STATE (R83). -/
  | getShutdownState
  /-- SET_SHUTDOWN_STATE (R83). -/
  | setShutdownState (v : Byte)
  /-- GET_POISON_LIST (R83). -/
  | getPoisonList (start : Dword) (length : Dword)
  /-- INJECT_POISON (R83). -/
  | injectPoison (dpa : Dword)
  /-- CLEAR_POISON (R83). -/
  | clearPoison (dpa : Dword) (data : Line)
  /-- SCAN_MEDIA_CAPABILITIES (R83). -/
  | scanMediaCapabilities (start : Dword) (length : Dword)
  /-- SCAN_MEDIA (R83). -/
  | scanMedia (start : Dword) (length : Dword)
  /-- SCAN_MEDIA_RESULTS (R83). -/
  | scanMediaResults
  /-- CXL_UNSUPPORTED_OPCODE (R83). -/
  | cxlUnsupportedOpcode (opcode : BitVec 16)
  /-- LINK_ERROR (R64, R81). -/
  | linkError (error : LinkErrorReport)
  /-- SURPRISE_LINK_DOWN (R81). -/
  | surpriseLinkDown
  /-- HOST_READ_COMPLETION (R291). -/
  | hostReadCompletion (r : DmaRequester) (status : CplStatus)
  /-- COMPLETION_TIMEOUT (R291). -/
  | completionTimeout (r : DmaRequester)
  /-- TRANSLATION_COMPLETION (R285). -/
  | translationCompletion (id : Nat) (answer : TransAnswer)
  /-- PRG_RESPONSE (R287). -/
  | prgResponse (ctx : BitVec 8) (page : BitVec 52) (code : BitVec 4)
  /-- PAGE_RESPONSE_TIMEOUT (R287). -/
  | pageResponseTimeout (ctx : BitVec 8) (page : BitVec 52)
  /-- ATS_INVALIDATION_REQUEST (R288). -/
  | atsInvalidationRequest (ctx : BitVec 8) (first : BitVec 52) (pagesLog : BitVec 6) (tag : BitVec 5)
  /-- ATS_INVALIDATION_COMPLETE (R288). -/
  | atsInvalidationComplete (tag : BitVec 5)
  /-- TLU_INVAL (R284). -/
  | tluInval (v : Dword)
  /-- CTX_CFG_WRITE (R275). -/
  | ctxCfgWrite (n : BitVec 8) (v : Dword)
  /-- TASK_DISPATCH (R254). -/
  | taskDispatch (t : BitVec 7)
  /-- YIELD_POINT (R198). -/
  | yieldPoint (t : BitVec 7)
  /-- TASK_END (R252). -/
  | taskEnd (t : BitVec 7)
  /-- STARVATION_PROMOTION (R257). -/
  | starvationPromotion (slot : BitVec 13)
  /-- HELD_FLOW_SEARCH (R267). -/
  | heldFlowSearch (v : Word)
  /-- TRACE_ENABLE (R268). -/
  | traceEnable (v : Word)
  /-- SCAN_FOLLOW_POLL (R209). -/
  | scanFollowPoll (slot : BitVec 8) (op : BitVec 10) (head : Transfer)
  /-- SCAN_STRIPE_TASK (R210). -/
  | scanStripeTask (t : BitVec 7)
  /-- FILTER_BATCH (R215). -/
  | filterBatch (t : BitVec 7)
  /-- COMPUTE_BATCH (R213). -/
  | computeBatch (t : BitVec 7)
  /-- HASH_JOIN_BUILD (R217). -/
  | hashJoinBuild (t : BitVec 7)
  /-- HASH_JOIN_PROBE (R218). -/
  | hashJoinProbe (t : BitVec 7)
  /-- SORT_RUN (R219). -/
  | sortRun (t : BitVec 7)
  /-- MERGE_TASK (R220). -/
  | mergeTask (t : BitVec 7)
  /-- HASH_AGG_TASK (R223). -/
  | hashAggTask (t : BitVec 7)
  /-- SORTED_AGG_TASK (R224). -/
  | sortedAggTask (t : BitVec 7)
  /-- WINDOW_AGG_DATA_TASK (R226). -/
  | windowAggDataTask (t : BitVec 7)
  /-- CLOSE_TASK (R228). -/
  | closeTask (t : BitVec 7)
  /-- END_OF_STREAM_WORK (R200). -/
  | endOfStreamWork (t : BitVec 7)
  /-- TOPK_TASK (R232). -/
  | topkTask (t : BitVec 7)
  /-- EXCHANGE_TASK (R233). -/
  | exchangeTask (t : BitVec 7)
  /-- MATERIALIZE_STRIPE_WRITE (R235). -/
  | materializeStripeWrite (t : BitVec 7)
  /-- DRAM_REQUEST (R308). -/
  | dramRequest (bank : BankId) (ecc : EccOutcome)
  /-- AGE_PROMOTION (R308). -/
  | agePromotion (bank : BankId)
  /-- REFRESH (R318). -/
  | refresh (ch : Fin 12) (rank : BitVec 2)
  /-- DIMM_SENSOR_READ (R318). -/
  | dimmSensorRead (ch : Fin 12) (reading : List (Option (BitVec 16)))
  /-- DQS_OSCILLATOR_READ (R325). -/
  | dqsOscillatorRead (ch : Fin 12) (rank : BitVec 2) (drift : Bool)
  /-- RETRAINING_END (R327). -/
  | retrainingEnd (ch : Fin 12) (pass : Bool)
  /-- POWER_DOWN_ENTRY (R329). -/
  | powerDownEntry (ch : Fin 12) (rank : BitVec 2)
  /-- SELF_REFRESH_ENTRY (R329). -/
  | selfRefreshEntry (ch : Fin 12) (rank : BitVec 2)
  /-- CA_PARITY_ERROR (R317). -/
  | caParityError (ch : Fin 12) (rank : BitVec 2) (again : Bool)
  /-- RETIRE (R333). -/
  | retire (ch : Fin 12) (rank : BitVec 2)
  /-- RETRAIN (R326). -/
  | retrain (ch : Fin 12) (rank : BitVec 2)
  /-- MIGRATION_UNIT_COPY (R334). -/
  | migrationUnitCopy (ch : Fin 12)
  /-- IVS_CFG_WRITE (R305). -/
  | ivsCfgWrite (n : BitVec 3) (v : Dword)
  /-- LANDING_BUFFER_DRAIN (R343). -/
  | landingBufferDrain (check : CopyCheck)
  /-- BANK_SENSE_SAMPLE (R348). -/
  | bankSenseSample (mv : Int)
  /-- GOVERNOR_RECOMPUTE (R350). -/
  | governorRecompute
  /-- RESERVATION_GRANT (R351). -/
  | reservationGrant
  /-- WINNOWER_PAGE_COPY (R354). -/
  | winnowerPageCopy
  /-- WINNOWER_SEAL_TIMER (R353). -/
  | winnowerSealTimer
  /-- TRAILER_READ_BACK (R354). -/
  | trailerReadBack (ok : Bool) (slot : SlotCheck)
  /-- REBASE_DONE (R355). -/
  | rebaseDone (written : CopyResult)
  /-- POWER_FAIL_DETECTION (R362). -/
  | powerFailDetection (vinMv : Nat) (vinNs : Nat) (pwrfailNs : Nat)
  /-- DUMP_DRAIN_DONE (R363). -/
  | dumpDrainDone (written : CopyResult)
  /-- DUMP_SEGMENT_SEALED (R363). -/
  | dumpSegmentSealed
  /-- DUMP_SEALED (R377). -/
  | dumpSealed (written : CopyResult)
  /-- PARK_DONE (R363). -/
  | parkDone
  /-- VHOLD_COLLAPSE (R365). -/
  | vholdCollapse
  /-- POWER_RETURNED (R521). -/
  | powerReturned
  /-- LOCATING_DONE (R371). -/
  | locatingDone (bad : List Nat)
  /-- BACKGROUND_RESTORE_FETCH (R373). -/
  | backgroundRestoreFetch
  /-- FETCH_COMPLETE (R374). -/
  | fetchComplete (page : BitVec 28) (ok : Bool) (written : CopyResult)
  /-- FLQ_DOORBELL (R384). -/
  | flqDoorbell (q : BitVec 5) (tail : BitVec 10)
  /-- FLASH_READ (R392). -/
  | flashRead (die : BitVec 6)
  /-- FLASH_PROGRAM (R394). -/
  | flashProgram (die : BitVec 6)
  /-- FLASH_ERASE (R395). -/
  | flashErase (die : BitVec 6)
  /-- READ_PARAM (R388). -/
  | readParam (die : BitVec 6)
  /-- FLASH_COMPLETION (R390). -/
  | flashCompletion (die : BitVec 6) (outcome : FlashOutcome)
  /-- DIE_TIMEOUT (R391). -/
  | dieTimeout (die : BitVec 6)
  /-- ERASE_DONE_JOURNAL (R402). -/
  | eraseDoneJournal
  /-- VCCQ_LOW_CHANGE (R408). -/
  | vccqLowChange (low : Bool)
  /-- CONTEXT_GRANT (R417). -/
  | contextGrant
  /-- HISTORY_ENTRY (R446). -/
  | historyEntry
  /-- STICKY_CLEAR (R441). -/
  | stickyClear (k : BitVec 2) (v : Dword)
  /-- FIRST_CAPTURE_REARM (R445). -/
  | firstCaptureRearm
  /-- MASK_WRITE (R440). -/
  | maskWrite (n : BitVec 8) (v : Word)
  /-- FLT_INJ_GO (R455). -/
  | fltInjGo (v : Word)
  /-- CLATOS_WATCHDOG_EXPIRY (R448). -/
  | clatosWatchdogExpiry (core : BitVec 2)
  /-- NMI_ACK_TIMEOUT (R448). -/
  | nmiAckTimeout (core : BitVec 2)
  /-- CORE_RESTART_COMPLETE (R448). -/
  | coreRestartComplete (core : BitVec 2) (interrupted : Option Nat)
  /-- MANAGEMENT_CORE_WATCHDOG (R448). -/
  | managementCoreWatchdog
  /-- DEFERRED_CHIP_RESET (R451). -/
  | deferredChipReset
  /-- AUX_POWER_UP (R481). -/
  | auxPowerUp
  /-- HOLD_POWER_GOOD (R461). -/
  | holdPowerGood (found : HoldReport) (channels : List ChannelReport)
  /-- MAIN_POWER_GOOD (R461). -/
  | mainPowerGood (channels : List ChannelReport)
  /-- FIRMWARE_LOADED (R462). -/
  | firmwareLoaded (found : FirmwareCheck)
  /-- PERST_N_DEASSERT (R464). -/
  | perstNDeassert
  /-- FUNCTION_LEVEL_RESET (R468). -/
  | functionLevelReset
  /-- HOT_RESET (R468). -/
  | hotReset
  /-- WARM_RESET (R468). -/
  | warmReset
  /-- CHIP_RESET (R472). -/
  | chipReset
  /-- CHIP_RESET_RELEASE (R472). -/
  | chipResetRelease (found : HoldReport) (channels : List ChannelReport)
  /-- INGRESS_REOPEN (R473). -/
  | ingressReopen
  /-- HOLD_POWER_ON_RESET (R518). -/
  | holdPowerOnReset
  /-- AUX_REMOVAL (R468). -/
  | auxRemoval
  /-- CALENDAR_REBUILD (R470). -/
  | calendarRebuild
  /-- TELEMETRY_RECOMMIT (R495). -/
  | telemetryRecommit
  /-- D3HOT_ENTRY (R478). -/
  | d3hotEntry
  /-- D0_RETURN (R478). -/
  | d0Return
  /-- GATE_GROUP_GATING (R476). -/
  | gateGroupGating (g : Fin 12)
  /-- THERMAL_TRIP (R527). -/
  | thermalTrip
  /-- SET_ENDPOINT_ID (R484). -/
  | setEndpointId (msg : MctpControl)
  /-- GET_ENDPOINT_ID (R484). -/
  | getEndpointId
  /-- GET_ENDPOINT_UUID (R484). -/
  | getEndpointUuid
  /-- GET_MCTP_VERSION_SUPPORT (R484). -/
  | getMctpVersionSupport (msgType : Byte)
  /-- GET_MESSAGE_TYPE_SUPPORT (R484). -/
  | getMessageTypeSupport
  /-- GET_VENDOR_DEFINED_MESSAGE_SUPPORT (R484). -/
  | getVendorDefinedMessageSupport (selector : Byte)
  /-- GET_IDENTITY (R488). -/
  | getIdentity (msg : VendorMsg)
  /-- GET_STATUS (R488). -/
  | getStatus (msg : VendorMsg)
  /-- GET_FAULTS (R488). -/
  | getFaults (msg : VendorMsg)
  /-- GET_HISTORY (R488). -/
  | getHistory (msg : VendorMsg)
  /-- CLEAR_FAULTS (R488). -/
  | clearFaults (msg : VendorMsg)
  /-- GET_SENSORS (R488). -/
  | getSensors (msg : VendorMsg)
  /-- GET_TELEMETRY (R488). -/
  | getTelemetry (msg : VendorMsg)
  /-- SET_TELEMETRY (R495). -/
  | setTelemetry (msg : VendorMsg)
  /-- FORCE_DUMP (R496). -/
  | forceDump (msg : VendorMsg)
  /-- FORCE_RESET (R497). -/
  | forceReset (msg : VendorMsg)
  /-- UNDEFINED_VENDOR_COMMAND (R487). -/
  | undefinedVendorCommand (msg : VendorMsg)
  /-- ALERT_RESPONSE_ADDRESS_READ (R489). -/
  | alertResponseAddressRead (won : Bool)
  /-- SENSOR_REFRESH (R490). -/
  | sensorRefresh (n : BitVec 6) (value : Option (BitVec 16))
  /-- SMBUS_TIMEOUT (R525). -/
  | smbusTimeout
  /-- TEL_IDX_FETCH (R494). -/
  | telIdxFetch (v : Word)
  /-- TELEMETRY_ENABLE (R493). -/
  | telemetryEnable (v : Word)
  /-- REGISTER_WRITE (R15). -/
  | registerWrite (w : RegWriter) (offset : BitVec 24) (size : AccessSize) (value : Dword)
  /-- CLOCK_LOCK_LOST (R437). -/
  | clockLockLost
  /-- DIGEST_UNIT_BOUNDARY (R418). -/
  | digestUnitBoundary
  /-- PRI_ENABLE_TOGGLE (R287). -/
  | priEnableToggle (ats : Bool)
  /-- MANAGEMENT_CORE_RESTART (R448). -/
  | managementCoreRestart
  /-- POWER_FAIL_DETECTION_ARMED (R520). -/
  | powerFailDetectionArmed
  deriving DecidableEq, Repr

end Sys2Proof
end

