-- ==== Sys2Proof/Decode.lean ====
section
/-!
DEFINITION. The decoder of table words. Every row of the operation table has an empty list of fields: no row gives
bits, so no word of any length spells a command.
-/

namespace Sys2Proof

/-- The command that a word spells by the table's bits: none, for the table gives no row any bits. -/
def decodeTableWord (_nbits _w : Nat) : Option Instr := none

end Sys2Proof
end

