-- ==== Sys2Proof/Config.lean ====
section
/-!
DEFINITION. What an implementation fixes and the manual leaves open: opaque constants, so no proof can lean on a
value of one. `freeNat` is the source of the free values: applied to the state's counter it gives a fresh one.
-/

namespace Sys2Proof

/-- The n-th free value of a run: a value the manual leaves open. -/
opaque Config.freeNat : Nat → Nat

/-- The serial number of the part, 16 ASCII bytes (R110, R529). -/
opaque Config.serial : BitVec 128

/-- The orderable code: true for SPV-S96-0E, whose limits are 5 degrees higher (R529). -/
opaque Config.extendedCode : Bool

/-- The endpoint UUID (R484). -/
opaque Config.uuid : BitVec 128

/-- The PCI vendor ID that function 0 reports (R486). -/
opaque Config.pciVendorId : BitVec 16

/-- The device secret in fuses from which key slot 0 is made: 48 bytes (R421). -/
opaque Config.fuseSecret : BitVec 384

/-- Whether a VIN dip within the open bands of R520 fires: depth in mV and time in ns. -/
opaque Config.dipFires : Nat → Nat → Bool

/-- Whether a PWRFAIL_N pulse within the open band of R520 fires: its time in ns. -/
opaque Config.pulseFires : Nat → Bool

/-- Sign and payload of a NaN that an operation on two float patterns gives (R205): IEEE 754 leaves them open. -/
opaque Config.nanBits : Nat → Nat → Nat

/-- Which of two values that compare equal but differ in pattern stands for both (R203, R213): the manual does not say. -/
opaque Config.tieFirst : Nat → Nat → Bool

/-- The set of the IOTLB that an entry's tag selects (R282). -/
opaque Config.iotlbSet : Nat → Nat

end Sys2Proof
end

