-- ==== Sys2Proof/Machine/Bits.lean ====
section
/-!
DEFINITION. Bit fields and byte order (R8): bit 0 is the least significant, multi-byte fields are little-endian.
-/

namespace Sys2Proof.Machine

/-- Bits hi..lo of a number (R7, R8). -/
def bitsOf (v hi lo : Nat) : Nat := v / 2 ^ lo % 2 ^ (hi + 1 - lo)

/-- Bit i of a number. -/
def bitOf (v i : Nat) : Bool := v / 2 ^ i % 2 == 1

/-- Replaces `w` bits from `lo` on by the low `w` bits of `x`. -/
def putBits (v lo w x : Nat) : Nat :=
  v - (v / 2 ^ lo % 2 ^ w) * 2 ^ lo + (x % 2 ^ w) * 2 ^ lo

/-- One as a flag bit. -/
def natOfBool (b : Bool) : Nat := if b then 1 else 0

/-- The `n` bytes of a number, the least significant first (R8). -/
def leBytes : Nat → Nat → List Byte
  | 0, _ => []
  | n + 1, v => BitVec.ofNat 8 v :: leBytes n (v / 256)

/-- The number that bytes spell, the first the least significant (R8). -/
def ofLeBytes : List Byte → Nat
  | [] => 0
  | b :: bs => b.toNat + 256 * ofLeBytes bs

/-- The number that bytes spell, the first the most significant (network and FIPS order). -/
def ofBeBytes (bs : List Byte) : Nat := bs.foldl (fun a b => a * 256 + b.toNat) 0

/-- The `n` bytes of a number, the most significant first. -/
def beBytes (n v : Nat) : List Byte := (leBytes n v).reverse

/-- Bytes [off, off + n) of a byte string. -/
def sliceBytes (bs : List Byte) (off n : Nat) : List Byte := (bs.drop off).take n

/-- The little-endian field of `n` bytes at byte `off` of a byte string. -/
def leField (bs : List Byte) (off n : Nat) : Nat := ofLeBytes (sliceBytes bs off n)

/-- Splits a byte string into `n` lines of 64 bytes. -/
def linesOfBytes : Nat → List Byte → List Line
  | 0, _ => []
  | n + 1, bs => BitVec.ofNat 512 (ofLeBytes (bs.take 64)) :: linesOfBytes n (bs.drop 64)

/-- The 64 bytes of a line, the lowest address first. -/
def bytesOfLine (l : Line) : List Byte := leBytes 64 l.toNat

/-- The lowest `n` bits of a value read as a two's complement number. -/
def toSigned (n v : Nat) : Int := if v % 2 ^ n < 2 ^ (n - 1) then (v % 2 ^ n : Nat) else (v % 2 ^ n : Nat) - (2 ^ n : Nat)

/-- The two's complement pattern of `n` bits of an integer. -/
def ofSigned (n : Nat) (i : Int) : Nat := (i % (2 ^ n : Nat)).toNat

/-- Whether a number is a power of two. -/
def isPow2 (n : Nat) : Bool := decide (n ≠ 0) && decide (2 ^ n.log2 = n)

/-- Rounds up to a multiple of `m`. -/
def roundUp (n m : Nat) : Nat := (n + m - 1) / m * m

/-- Division rounded up. -/
def ceilDiv (n m : Nat) : Nat := (n + m - 1) / m

end Sys2Proof.Machine
end

