-- ==== Sys2Proof/Machine/Sources.lean ====
section
/-!
DEFINITION. The 256 fault sources (R434, R436, R437): class, kind, default reaction mask and injectable checkers.
-/

namespace Sys2Proof.Machine

/-- The class of a fault source (R436). -/
inductive FaultClass where
  | note
  | corrected
  | recoverable
  | fatalReset
  | fatalPersist
  deriving DecidableEq, Repr

/-- FLAGS bits 2..0 of a fault record: 000 NOTE to 100 FATAL-PERSIST (R444). -/
def FaultClass.code : FaultClass → Nat
  | .note => 0
  | .corrected => 1
  | .recoverable => 2
  | .fatalReset => 3
  | .fatalPersist => 4

/-- One row of the source table (R437). `live` is kind C: the live bit follows the condition (R434). -/
structure SourceInfo where
  cls : FaultClass
  live : Bool
  mask : Nat
  checkers : Nat
  deriving DecidableEq, Repr

/-- The reactions a class forces whatever the mask (R436, R439): ALERT bit 1, CHIP_RST bit 4, FAULT_N bit 5. -/
def FaultClass.forced : FaultClass → Nat
  | .fatalReset => 0x32
  | .fatalPersist => 0x22
  | _ => 0

/-- The source table of R437; a source not listed is reserved (R434). -/
def sourceInfo : Nat → Option SourceInfo
  | 0 => some ⟨.note, false, 0x00, 0⟩ -- Counter saturated
  | 1 => some ⟨.recoverable, false, 0x0F, 0⟩ -- Clatos watchdog
  | 2 => some ⟨.fatalReset, false, 0x33, 0⟩ -- Clatos unresponsive
  | 3 => some ⟨.recoverable, false, 0x09, 0⟩ -- Management-core watchdog
  | 4 => some ⟨.note, true, 0x03, 0⟩ -- Junction temperature high
  | 5 => some ⟨.fatalReset, false, 0x33, 0⟩ -- Clock lock lost
  | 8 => some ⟨.recoverable, true, 0x03, 0⟩ -- TIME_REF lost
  | 9 => some ⟨.note, true, 0x00, 0⟩ -- PPS lock lost
  | 10 => some ⟨.note, false, 0x00, 0⟩ -- Calendar late firing
  | 16 => some ⟨.corrected, false, 0x00, 1⟩ -- AER correctable
  | 17 => some ⟨.note, false, 0x00, 0⟩ -- AER advisory non-fatal
  | 18 => some ⟨.recoverable, false, 0x03, 0⟩ -- Poisoned TLP received
  | 19 => some ⟨.recoverable, false, 0x03, 0⟩ -- Completion error
  | 20 => some ⟨.fatalReset, false, 0x33, 0⟩ -- Link protocol fatal
  | 21 => some ⟨.fatalReset, false, 0x33, 0⟩ -- Surprise link down
  | 22 => some ⟨.note, true, 0x00, 0⟩ -- Link degraded
  | 24 => some ⟨.recoverable, false, 0x01, 0⟩ -- Mailbox protocol
  | 32 => some ⟨.note, false, 0x00, 0⟩ -- Column block rejected
  | 33 => some ⟨.note, false, 0x00, 0⟩ -- Table area full
  | 34 => some ⟨.note, false, 0x00, 0⟩ -- Operator stop
  | 35 => some ⟨.corrected, false, 0x00, 96⟩ -- Tiller scratch corrected
  | 36 => some ⟨.recoverable, false, 0x0B, 96⟩ -- Tiller scratch uncorrectable
  | 37 => some ⟨.recoverable, false, 0x0B, 96⟩ -- Tiller datapath parity
  | 38 => some ⟨.recoverable, false, 0x03, 0⟩ -- Tiller retired
  | 39 => some ⟨.corrected, false, 0x00, 4⟩ -- Pool corrected
  | 40 => some ⟨.recoverable, false, 0x03, 4⟩ -- Pool uncorrectable
  | 41 => some ⟨.note, false, 0x00, 0⟩ -- Node empty
  | 42 => some ⟨.note, true, 0x00, 0⟩ -- Spill quota exhausted
  | 43 => some ⟨.recoverable, false, 0x03, 0⟩ -- Spill record lost
  | 48 => some ⟨.corrected, false, 0x00, 1⟩ -- IOTLB parity
  | 49 => some ⟨.note, false, 0x00, 0⟩ -- DMA stop
  | 50 => some ⟨.recoverable, true, 0x03, 0⟩ -- PRI response failure
  | 64 => some ⟨.corrected, false, 0x00, 12⟩ -- DRAM corrected
  | 65 => some ⟨.recoverable, false, 0x23, 12⟩ -- DRAM uncorrectable
  | 66 => some ⟨.corrected, false, 0x00, 12⟩ -- C/A parity
  | 67 => some ⟨.recoverable, false, 0x03, 0⟩ -- Rank retired
  | 68 => some ⟨.recoverable, false, 0x03, 0⟩ -- Retirement refused
  | 69 => some ⟨.recoverable, true, 0x23, 0⟩ -- Channel failed
  | 70 => some ⟨.note, false, 0x00, 0⟩ -- Population error
  | 71 => some ⟨.note, true, 0x02, 0⟩ -- DIMM hot
  | 72 => some ⟨.note, true, 0x00, 0⟩ -- DIMM sensor unreadable
  | 96 => some ⟨.note, false, 0x02, 0⟩ -- Power-fail detected
  | 97 => some ⟨.note, true, 0x00, 0⟩ -- Budget short
  | 98 => some ⟨.recoverable, true, 0x23, 0⟩ -- Bank sense invalid
  | 99 => some ⟨.recoverable, true, 0x23, 0⟩ -- Bank degraded
  | 100 => some ⟨.note, false, 0x00, 0⟩ -- Bank measurement failed
  | 101 => some ⟨.recoverable, false, 0x03, 0⟩ -- Damaged segment
  | 102 => some ⟨.recoverable, false, 0x23, 0⟩ -- Restore loss
  | 103 => some ⟨.recoverable, true, 0x23, 0⟩ -- Restore held
  | 104 => some ⟨.fatalPersist, false, 0x23, 0⟩ -- Hold collapse before seal
  | 105 => some ⟨.fatalPersist, false, 0x23, 0⟩ -- Chain record failure in service
  | 106 => some ⟨.corrected, false, 0x00, 1⟩ -- Landing buffer copy corrected
  | 107 => some ⟨.corrected, false, 0x00, 1⟩ -- Dirty map corrected
  | 108 => some ⟨.recoverable, false, 0x03, 1⟩ -- Dirty map block lost
  | 109 => some ⟨.fatalPersist, false, 0x23, 0⟩ -- Landing buffer line lost
  | 128 => some ⟨.corrected, false, 0x00, 16⟩ -- Flash corrected
  | 129 => some ⟨.recoverable, false, 0x03, 16⟩ -- Flash uncorrectable
  | 130 => some ⟨.corrected, false, 0x00, 0⟩ -- Program fail
  | 131 => some ⟨.corrected, false, 0x00, 0⟩ -- Erase fail
  | 132 => some ⟨.recoverable, false, 0x03, 0⟩ -- Flash die timeout
  | 133 => some ⟨.recoverable, true, 0x03, 0⟩ -- Vault capacity
  | 134 => some ⟨.recoverable, false, 0x03, 0⟩ -- System block grown bad
  | 135 => some ⟨.recoverable, false, 0x03, 0⟩ -- Journal copy failed
  | 136 => some ⟨.note, false, 0x00, 0⟩ -- Option copy damaged
  | 137 => some ⟨.note, false, 0x00, 0⟩ -- Option area missing
  | 138 => some ⟨.note, true, 0x00, 0⟩ -- Read-disturb relocation waiting
  | 144 => some ⟨.corrected, false, 0x00, 1⟩ -- Key slot 0 rebuilt
  | 145 => some ⟨.recoverable, false, 0x03, 31⟩ -- Key slot 1–31 check
  | 146 => some ⟨.fatalReset, false, 0x33, 0⟩ -- Digest self-test
  | 147 => some ⟨.fatalPersist, false, 0x23, 0⟩ -- Seal key unavailable
  | _ => none

/-- Sources 1, 3, 36 and 37 have a block reset of their own unit (R437). -/
def sourceHasBlockReset (n : Nat) : Bool := n == 1 || n == 3 || n == 36 || n == 37

/-- The default mask of a source, zero for a reserved one (R437). -/
def sourceMask (n : Nat) : Nat := ((sourceInfo n).map (·.mask)).getD 0

/-- The class code of a source as FLT_SRC[n].CFG.CLASS reads (R437, R444). -/
def sourceClassCode (n : Nat) : Nat := ((sourceInfo n).map (·.cls.code)).getD 0

/-- The reactions forced on for a source (R436). -/
def sourceForced (n : Nat) : Nat := ((sourceInfo n).map (·.cls.forced)).getD 0

end Sys2Proof.Machine
end

