-- ==== Sys2Proof/Machine/Fields.lean ====
section
/-!
DEFINITION. Every register field of the manual's register tables, with its place in BAR0 (R498, R500, R508), its
access code (R15), reset value (R18), retention class (R19) and reset group (R469, R507). Reserved fields read zero
and hold nothing (R17), so none is listed. The write-only doorbells of BAR2 (R509) are commands of their own.
-/

namespace Sys2Proof.Machine

/-- The access codes of R15. -/
inductive Access where
  | rw
  | ro
  | w1c
  | w1s
  | wo
  | rwl
  deriving DecidableEq, Repr

/-- The retention classes of R19. -/
inductive Retain where
  | a
  | w
  | f
  | n
  deriving DecidableEq, Repr

/-- The reset groups of R469 and R507. -/
inductive Group where
  | fn
  | ln
  | m
  | h
  | g
  | x
  deriving DecidableEq, Repr

/-- One field of a register, or of every instance of an array of registers. `addr` is the BAR0 offset of instance 0,
`stride` the distance of the instances, `lo` and `width` the bits, `reset` the reset value of an instance, `opt` the
byte and bit of the option record that an OPT field takes (R18, R411). -/
structure Field where
  id : Nat
  addr : Nat
  stride : Nat
  count : Nat
  lo : Nat
  width : Nat
  access : Access
  retain : Retain
  group : Nat → Group
  priv : Bool
  reset : Nat → Nat
  opt : Nat → Option (Nat × Nat)

/-- The key under which instance `n` of a field is held. No array has more than 4,096 instances (R508). -/
def Field.key (f : Field) (n : Nat) : Nat := f.id * 8192 + n % 8192

def F.FT_CTL_PPS_REJ_LIM : Field := ⟨0, 0x2000, 0x8, 1, 8, 4, .rw, .w, fun _ => .m, true, fun _ => 4, fun _ => none⟩
def F.FT_CTL_PPS_POL : Field := ⟨1, 0x2000, 0x8, 1, 5, 1, .rw, .w, fun _ => .m, true, fun _ => 0, fun _ => some (0x40, 0)⟩
def F.FT_CTL_REF_SEL : Field := ⟨2, 0x2000, 0x8, 1, 4, 1, .rw, .w, fun _ => .m, true, fun _ => 0, fun _ => some (0x40, 1)⟩
def F.FT_CTL_ARM : Field := ⟨3, 0x2000, 0x8, 1, 1, 1, .wo, .n, fun _ => .m, true, fun _ => 0, fun _ => none⟩
def F.FT_CTL_DISARM : Field := ⟨4, 0x2000, 0x8, 1, 0, 1, .wo, .n, fun _ => .m, true, fun _ => 0, fun _ => none⟩
def F.FT_STATUS_PPS_REJ_RUN : Field := ⟨5, 0x2008, 0x8, 1, 16, 8, .ro, .w, fun _ => .m, false, fun _ => 0, fun _ => none⟩
def F.FT_STATUS_ARM_CAUSE : Field := ⟨6, 0x2008, 0x8, 1, 9, 3, .ro, .w, fun _ => .m, false, fun _ => 0, fun _ => none⟩
def F.FT_STATUS_ARM_PEND : Field := ⟨7, 0x2008, 0x8, 1, 8, 1, .ro, .w, fun _ => .m, false, fun _ => 0, fun _ => none⟩
def F.FT_STATUS_LOAD_DONE : Field := ⟨8, 0x2008, 0x8, 1, 7, 1, .w1c, .w, fun _ => .m, false, fun _ => 0, fun _ => none⟩
def F.FT_STATUS_ARM_FAIL : Field := ⟨9, 0x2008, 0x8, 1, 6, 1, .w1c, .w, fun _ => .m, false, fun _ => 0, fun _ => none⟩
def F.FT_STATUS_REF_LOST : Field := ⟨10, 0x2008, 0x8, 1, 5, 1, .w1c, .w, fun _ => .m, false, fun _ => 0, fun _ => none⟩
def F.FT_STATUS_PPS_LOST : Field := ⟨11, 0x2008, 0x8, 1, 4, 1, .w1c, .w, fun _ => .m, false, fun _ => 0, fun _ => none⟩
def F.FT_STATUS_PPS_LOCK : Field := ⟨12, 0x2008, 0x8, 1, 3, 1, .ro, .w, fun _ => .m, false, fun _ => 0, fun _ => none⟩
def F.FT_STATUS_REF_OK : Field := ⟨13, 0x2008, 0x8, 1, 2, 1, .ro, .w, fun _ => .m, false, fun _ => 0, fun _ => none⟩
def F.FT_STATUS_STATE : Field := ⟨14, 0x2008, 0x8, 1, 0, 2, .ro, .w, fun _ => .m, false, fun _ => 0, fun _ => none⟩
def F.FT_NOW_NOW : Field := ⟨15, 0x2010, 0x8, 1, 0, 64, .ro, .w, fun _ => .m, false, fun _ => 0, fun _ => none⟩
def F.FT_LOAD_VALUE : Field := ⟨16, 0x2018, 0x8, 1, 0, 64, .rw, .w, fun _ => .m, true, fun _ => 0, fun _ => none⟩
def F.FT_PPS_ERR_ERR : Field := ⟨17, 0x2020, 0x8, 1, 0, 32, .ro, .w, fun _ => .m, false, fun _ => 0, fun _ => none⟩
def F.CAL_CMD_BUSY : Field := ⟨18, 0x2800, 0x8, 1, 31, 1, .ro, .n, fun _ => .m, true, fun _ => 0, fun _ => none⟩
def F.CAL_CMD_RESULT : Field := ⟨19, 0x2800, 0x8, 1, 28, 2, .ro, .n, fun _ => .m, true, fun _ => 0, fun _ => none⟩
def F.CAL_CMD_OP : Field := ⟨20, 0x2800, 0x8, 1, 24, 2, .wo, .n, fun _ => .m, true, fun _ => 0, fun _ => none⟩
def F.CAL_CMD_INDEX : Field := ⟨21, 0x2800, 0x8, 1, 0, 10, .rw, .n, fun _ => .m, true, fun _ => 0, fun _ => none⟩
def F.CAL_STAGE_ENTRY : Field := ⟨22, 0x2808, 0x8, 4, 0, 64, .rw, .n, fun _ => .m, true, fun _ => 0, fun _ => none⟩
def F.CAL_FREE_FREE : Field := ⟨23, 0x2828, 0x8, 1, 0, 11, .ro, .w, fun _ => .m, false, fun _ => 1024, fun _ => none⟩
def F.CAL_FIRED_CNT_SAT : Field := ⟨24, 0x2830, 0x8, 1, 48, 1, .w1c, .w, fun _ => .m, false, fun _ => 0, fun _ => none⟩
def F.CAL_FIRED_CNT_COUNT : Field := ⟨25, 0x2830, 0x8, 1, 0, 48, .w1c, .w, fun _ => .m, false, fun _ => 0, fun _ => none⟩
def F.CAL_LATE_CNT_SAT : Field := ⟨26, 0x2838, 0x8, 1, 48, 1, .w1c, .w, fun _ => .m, false, fun _ => 0, fun _ => none⟩
def F.CAL_LATE_CNT_COUNT : Field := ⟨27, 0x2838, 0x8, 1, 0, 48, .w1c, .w, fun _ => .m, false, fun _ => 0, fun _ => none⟩
def F.HL_CTL_LOCK : Field := ⟨28, 0x3000, 0x8, 1, 11, 1, .w1s, .w, fun _ => .ln, true, fun _ => 0, fun _ => none⟩
def F.HL_CTL_VOL_EN : Field := ⟨29, 0x3000, 0x8, 1, 10, 1, .rwl, .w, fun _ => .ln, true, fun _ => 0, fun _ => some (0x41, 1)⟩
def F.HL_CTL_CXL_EN : Field := ⟨30, 0x3000, 0x8, 1, 9, 1, .rwl, .w, fun _ => .ln, true, fun _ => 1, fun _ => some (0x41, 0)⟩
def F.HL_CTL_MAX_SPEED : Field := ⟨31, 0x3000, 0x8, 1, 6, 3, .rwl, .w, fun _ => .ln, true, fun _ => 5, fun _ => some (0x42, 0)⟩
def F.HL_CTL_MAX_WIDTH : Field := ⟨32, 0x3000, 0x8, 1, 3, 3, .rwl, .w, fun _ => .ln, true, fun _ => 5, fun _ => some (0x43, 0)⟩
def F.HL_STATUS_HDM1_COMMIT : Field := ⟨33, 0x3008, 0x8, 1, 12, 1, .ro, .n, fun _ => .ln, false, fun _ => 0, fun _ => none⟩
def F.HL_STATUS_HDM0_COMMIT : Field := ⟨34, 0x3008, 0x8, 1, 11, 1, .ro, .n, fun _ => .ln, false, fun _ => 0, fun _ => none⟩
def F.HL_STATUS_CREDIT_HELD : Field := ⟨35, 0x3008, 0x8, 1, 10, 1, .ro, .n, fun _ => .ln, false, fun _ => 0, fun _ => none⟩
def F.HL_STATUS_INGRESS_CLOSED : Field := ⟨36, 0x3008, 0x8, 1, 9, 1, .ro, .n, fun _ => .ln, false, fun _ => 0, fun _ => none⟩
def F.HL_STATUS_MODE : Field := ⟨37, 0x3008, 0x8, 1, 7, 2, .ro, .n, fun _ => .ln, false, fun _ => 0, fun _ => none⟩
def F.HL_STATUS_SPEED : Field := ⟨38, 0x3008, 0x8, 1, 4, 3, .ro, .n, fun _ => .ln, false, fun _ => 0, fun _ => none⟩
def F.HL_STATUS_WIDTH : Field := ⟨39, 0x3008, 0x8, 1, 1, 3, .ro, .n, fun _ => .ln, false, fun _ => 0, fun _ => none⟩
def F.HL_STATUS_LINK_UP : Field := ⟨40, 0x3008, 0x8, 1, 0, 1, .ro, .n, fun _ => .ln, false, fun _ => 0, fun _ => none⟩
def F.HL_THROTTLE_CNT_SAT : Field := ⟨41, 0x3010, 0x8, 1, 48, 1, .w1c, .w, fun _ => .ln, false, fun _ => 0, fun _ => none⟩
def F.HL_THROTTLE_CNT_COUNT : Field := ⟨42, 0x3010, 0x8, 1, 0, 48, .w1c, .w, fun _ => .ln, false, fun _ => 0, fun _ => none⟩
def F.ADM_DOORBELL_GO : Field := ⟨43, 0x50, 0x8, 1, 0, 1, .wo, .n, fun _ => .fn, false, fun _ => 0, fun _ => none⟩
def F.ADM_STATUS_OVERRUN : Field := ⟨44, 0x54, 0x8, 1, 3, 1, .w1c, .n, fun _ => .fn, false, fun _ => 0, fun _ => none⟩
def F.ADM_STATUS_DONE : Field := ⟨45, 0x54, 0x8, 1, 2, 1, .w1c, .n, fun _ => .fn, false, fun _ => 0, fun _ => none⟩
def F.ADM_STATUS_BUSY : Field := ⟨46, 0x54, 0x8, 1, 1, 1, .ro, .n, fun _ => .fn, false, fun _ => 0, fun _ => none⟩
def F.ADM_STATUS_READY : Field := ⟨47, 0x54, 0x8, 1, 0, 1, .ro, .n, fun _ => .fn, false, fun _ => 0, fun _ => none⟩
def F.ADM_CMD_CMD : Field := ⟨48, 0x0, 0x8, 1, 0, 512, .rw, .n, fun _ => .fn, false, fun _ => 0, fun _ => none⟩
def F.ADM_CPL_CPL : Field := ⟨49, 0x40, 0x8, 1, 0, 128, .ro, .n, fun _ => .fn, false, fun _ => 0, fun _ => none⟩
def F.ADM_DATA_DATA : Field := ⟨50, 0x800, 0x8, 1, 0, 16384, .rw, .n, fun _ => .fn, false, fun _ => 0, fun _ => none⟩
def F.MBX_PTRS_TAIL : Field := ⟨51, 0x8000, 0x20, 64, 48, 12, .ro, .n, fun _ => .fn, false, fun _ => 0, fun _ => none⟩
def F.MBX_PTRS_LIMIT : Field := ⟨52, 0x8000, 0x20, 64, 32, 12, .ro, .n, fun _ => .fn, false, fun _ => 0, fun _ => none⟩
def F.MBX_PTRS_HEAD : Field := ⟨53, 0x8000, 0x20, 64, 16, 12, .ro, .n, fun _ => .fn, false, fun _ => 0, fun _ => none⟩
def F.MBX_PTRS_CQ_TAIL : Field := ⟨54, 0x8000, 0x20, 64, 0, 12, .ro, .n, fun _ => .fn, false, fun _ => 0, fun _ => none⟩
def F.MBX_STATE_EXP_SEQ : Field := ⟨55, 0x8008, 0x20, 64, 48, 16, .ro, .n, fun _ => .fn, false, fun _ => 0, fun _ => none⟩
def F.MBX_STATE_INFLIGHT : Field := ⟨56, 0x8008, 0x20, 64, 32, 12, .ro, .n, fun _ => .fn, false, fun _ => 0, fun _ => none⟩
def F.MBX_STATE_WINDOW : Field := ⟨57, 0x8008, 0x20, 64, 20, 12, .ro, .n, fun _ => .fn, false, fun _ => 0, fun _ => none⟩
def F.MBX_STATE_CLASS : Field := ⟨58, 0x8008, 0x20, 64, 16, 2, .ro, .n, fun _ => .fn, false, fun _ => 0, fun _ => none⟩
def F.MBX_STATE_CTX : Field := ⟨59, 0x8008, 0x20, 64, 8, 8, .ro, .n, fun _ => .fn, false, fun _ => 0, fun _ => none⟩
def F.MBX_STATE_ERR_CAUSE : Field := ⟨60, 0x8008, 0x20, 64, 6, 2, .ro, .n, fun _ => .fn, false, fun _ => 0, fun _ => none⟩
def F.MBX_STATE_STATE : Field := ⟨61, 0x8008, 0x20, 64, 0, 3, .ro, .n, fun _ => .fn, false, fun _ => 0, fun _ => none⟩
def F.MBX_HOLD_CNT_SAT : Field := ⟨62, 0x8010, 0x20, 64, 48, 1, .w1c, .w, fun _ => .fn, false, fun _ => 0, fun _ => none⟩
def F.MBX_HOLD_CNT_COUNT : Field := ⟨63, 0x8010, 0x20, 64, 0, 48, .w1c, .w, fun _ => .fn, false, fun _ => 0, fun _ => none⟩
def F.CBV_CTL_LOCK : Field := ⟨64, 0x9000, 0x8, 1, 1, 1, .w1s, .w, fun _ => .fn, true, fun _ => 0, fun _ => none⟩
def F.CBV_CTL_CRC_REQ : Field := ⟨65, 0x9000, 0x8, 1, 0, 1, .rwl, .w, fun _ => .fn, true, fun _ => 0, fun _ => some (0x44, 0)⟩
def F.CBV_LAST_ERR_OFFSET : Field := ⟨66, 0x9008, 0x8, 1, 32, 32, .ro, .w, fun _ => .fn, false, fun _ => 0, fun _ => none⟩
def F.CBV_LAST_ERR_ORIGIN : Field := ⟨67, 0x9008, 0x8, 1, 24, 8, .ro, .w, fun _ => .fn, false, fun _ => 0, fun _ => none⟩
def F.CBV_LAST_ERR_DETAIL : Field := ⟨68, 0x9008, 0x8, 1, 16, 8, .ro, .w, fun _ => .fn, false, fun _ => 0, fun _ => none⟩
def F.CBV_LAST_ERR_CODE : Field := ⟨69, 0x9008, 0x8, 1, 0, 16, .ro, .w, fun _ => .fn, false, fun _ => 0, fun _ => none⟩
def F.CBV_CHECKED_CNT_SAT : Field := ⟨70, 0x9010, 0x8, 1, 48, 1, .w1c, .w, fun _ => .fn, false, fun _ => 0, fun _ => none⟩
def F.CBV_CHECKED_CNT_COUNT : Field := ⟨71, 0x9010, 0x8, 1, 0, 48, .w1c, .w, fun _ => .fn, false, fun _ => 0, fun _ => none⟩
def F.CBV_REJECT_CNT_SAT : Field := ⟨72, 0x9018, 0x8, 1, 48, 1, .w1c, .w, fun _ => .fn, false, fun _ => 0, fun _ => none⟩
def F.CBV_REJECT_CNT_COUNT : Field := ⟨73, 0x9018, 0x8, 1, 0, 48, .w1c, .w, fun _ => .fn, false, fun _ => 0, fun _ => none⟩
def F.POOL_CTL_SYS_RESERVE : Field := ⟨74, 0xA000, 0x8, 1, 0, 13, .rw, .w, fun _ => .fn, true, fun _ => 1024, fun _ => some (0x48, 0)⟩
def F.POOL_STATUS_RESV_TOTAL : Field := ⟨75, 0xA008, 0x8, 1, 32, 16, .ro, .n, fun _ => .fn, false, fun _ => 0, fun _ => none⟩
def F.POOL_STATUS_BORROWED : Field := ⟨76, 0xA008, 0x8, 1, 16, 16, .ro, .n, fun _ => .fn, false, fun _ => 0, fun _ => none⟩
def F.POOL_STATUS_BORROW_FREE : Field := ⟨77, 0xA008, 0x8, 1, 0, 16, .ro, .n, fun _ => .fn, false, fun _ => 0, fun _ => none⟩
def F.POOL_WAIT_CNT_SAT : Field := ⟨78, 0xA010, 0x8, 1, 48, 1, .w1c, .w, fun _ => .fn, false, fun _ => 0, fun _ => none⟩
def F.POOL_WAIT_CNT_COUNT : Field := ⟨79, 0xA010, 0x8, 1, 0, 48, .w1c, .w, fun _ => .fn, false, fun _ => 0, fun _ => none⟩
def F.PLN_STATE_HANDLE : Field := ⟨80, 0x10000, 0x8, 256, 48, 16, .ro, .n, fun _ => .fn, false, fun _ => 0, fun _ => none⟩
def F.PLN_STATE_FLOW_BASE : Field := ⟨81, 0x10000, 0x8, 256, 32, 16, .ro, .n, fun _ => .fn, false, fun _ => 0, fun _ => none⟩
def F.PLN_STATE_RESV : Field := ⟨82, 0x10000, 0x8, 256, 16, 16, .ro, .n, fun _ => .fn, false, fun _ => 0, fun _ => none⟩
def F.PLN_STATE_HELD : Field := ⟨83, 0x10000, 0x8, 256, 8, 8, .ro, .n, fun _ => .fn, false, fun _ => 0, fun _ => none⟩
def F.PLN_STATE_CLASS : Field := ⟨84, 0x10000, 0x8, 256, 6, 2, .ro, .n, fun _ => .fn, false, fun _ => 0, fun _ => none⟩
def F.PLN_STATE_STATE : Field := ⟨85, 0x10000, 0x8, 256, 0, 3, .ro, .n, fun _ => .fn, false, fun _ => 0, fun _ => none⟩
def F.CUL_STATE_PLAN : Field := ⟨86, 0x20000, 0x8, 4096, 56, 8, .ro, .n, fun _ => .fn, false, fun _ => 0, fun _ => none⟩
def F.CUL_STATE_VALID : Field := ⟨87, 0x20000, 0x8, 4096, 55, 1, .ro, .n, fun _ => .fn, false, fun _ => 0, fun _ => none⟩
def F.CUL_STATE_QUEUED : Field := ⟨88, 0x20000, 0x8, 4096, 32, 12, .ro, .n, fun _ => .fn, false, fun _ => 0, fun _ => none⟩
def F.CUL_STATE_BORROWED : Field := ⟨89, 0x20000, 0x8, 4096, 16, 12, .ro, .n, fun _ => .fn, false, fun _ => 0, fun _ => none⟩
def F.CUL_STATE_HELD : Field := ⟨90, 0x20000, 0x8, 4096, 0, 12, .ro, .n, fun _ => .fn, false, fun _ => 0, fun _ => none⟩
def F.TIL_STATUS_FLOW : Field := ⟨91, 0x38000, 0x10, 96, 48, 16, .ro, .n, fun _ => .fn, false, fun _ => 0, fun _ => none⟩
def F.TIL_STATUS_PLAN : Field := ⟨92, 0x38000, 0x10, 96, 40, 8, .ro, .n, fun _ => .fn, false, fun _ => 0, fun _ => none⟩
def F.TIL_STATUS_OP : Field := ⟨93, 0x38000, 0x10, 96, 30, 10, .ro, .n, fun _ => .fn, false, fun _ => 0, fun _ => none⟩
def F.TIL_STATUS_STATE : Field := ⟨94, 0x38000, 0x10, 96, 0, 3, .ro, .n, fun _ => .fn, false, fun _ => 0, fun _ => none⟩
def F.OPR_LAST_ERR_ROW : Field := ⟨95, 0x39000, 0x8, 1, 32, 32, .ro, .w, fun _ => .fn, false, fun _ => 0, fun _ => none⟩
def F.OPR_LAST_ERR_TILLER : Field := ⟨96, 0x39000, 0x8, 1, 24, 8, .ro, .w, fun _ => .fn, false, fun _ => 0, fun _ => none⟩
def F.OPR_LAST_ERR_DETAIL : Field := ⟨97, 0x39000, 0x8, 1, 16, 8, .ro, .w, fun _ => .fn, false, fun _ => 0, fun _ => none⟩
def F.OPR_LAST_ERR_CODE : Field := ⟨98, 0x39000, 0x8, 1, 0, 16, .ro, .w, fun _ => .fn, false, fun _ => 0, fun _ => none⟩
def F.TIL_BUSY_CNT_SAT : Field := ⟨99, 0x38008, 0x10, 96, 48, 1, .w1c, .w, fun _ => .fn, false, fun _ => 0, fun _ => none⟩
def F.TIL_BUSY_CNT_COUNT : Field := ⟨100, 0x38008, 0x10, 96, 0, 48, .w1c, .w, fun _ => .fn, false, fun _ => 0, fun _ => none⟩
def F.OPR_LATE_CNT_SAT : Field := ⟨101, 0x39008, 0x8, 1, 48, 1, .w1c, .w, fun _ => .fn, false, fun _ => 0, fun _ => none⟩
def F.OPR_LATE_CNT_COUNT : Field := ⟨102, 0x39008, 0x8, 1, 0, 48, .w1c, .w, fun _ => .fn, false, fun _ => 0, fun _ => none⟩
def F.OPR_NULLED_CNT_SAT : Field := ⟨103, 0x39010, 0x8, 1, 48, 1, .w1c, .w, fun _ => .fn, false, fun _ => 0, fun _ => none⟩
def F.OPR_NULLED_CNT_COUNT : Field := ⟨104, 0x39010, 0x8, 1, 0, 48, .w1c, .w, fun _ => .fn, false, fun _ => 0, fun _ => none⟩
def F.OPR_SPILL_CNT_SAT : Field := ⟨105, 0x39018, 0x8, 1, 48, 1, .w1c, .w, fun _ => .fn, false, fun _ => 0, fun _ => none⟩
def F.OPR_SPILL_CNT_COUNT : Field := ⟨106, 0x39018, 0x8, 1, 0, 48, .w1c, .w, fun _ => .fn, false, fun _ => 0, fun _ => none⟩
def F.SCH_CTL_STARVE_MS : Field := ⟨107, 0x42000, 0x8, 1, 16, 8, .rw, .w, fun _ => .fn, true, fun _ => 100, fun _ => some (0x46, 0)⟩
def F.SCH_CTL_PREEMPT_EN : Field := ⟨108, 0x42000, 0x8, 1, 0, 1, .rw, .w, fun _ => .fn, true, fun _ => 1, fun _ => some (0x45, 0)⟩
def F.SCH_STATUS_QUOTA_WAIT : Field := ⟨109, 0x42008, 0x8, 1, 56, 1, .ro, .n, fun _ => .fn, false, fun _ => 0, fun _ => none⟩
def F.SCH_STATUS_SPILL_USED : Field := ⟨110, 0x42008, 0x8, 1, 32, 24, .ro, .n, fun _ => .fn, false, fun _ => 0, fun _ => none⟩
def F.SCH_STATUS_FREE_SLOTS : Field := ⟨111, 0x42008, 0x8, 1, 16, 14, .ro, .n, fun _ => .fn, false, fun _ => 0, fun _ => none⟩
def F.SCH_STATUS_RUNNING : Field := ⟨112, 0x42008, 0x8, 1, 0, 7, .ro, .n, fun _ => .fn, false, fun _ => 0, fun _ => none⟩
def F.SCH_SPILL_BASE_BASE : Field := ⟨113, 0x42010, 0x8, 1, 21, 43, .rw, .w, fun _ => .fn, true, fun _ => 0, fun _ => none⟩
def F.SCH_SPILL_SIZE_MIB : Field := ⟨114, 0x42018, 0x8, 1, 0, 11, .rw, .w, fun _ => .fn, true, fun _ => 64, fun _ => some (0x4A, 0)⟩
def F.SCH_TRACE_BASE_BASE : Field := ⟨115, 0x42020, 0x8, 1, 12, 52, .rw, .w, fun _ => .fn, false, fun _ => 0, fun _ => none⟩
def F.SCH_TRACE_CTL_EVENTS : Field := ⟨116, 0x42028, 0x8, 1, 8, 16, .rw, .w, fun _ => .fn, false, fun _ => 0, fun _ => none⟩
def F.SCH_TRACE_CTL_EN : Field := ⟨117, 0x42028, 0x8, 1, 7, 1, .rw, .w, fun _ => .fn, false, fun _ => 0, fun _ => none⟩
def F.SCH_TRACE_CTL_WRAP : Field := ⟨118, 0x42028, 0x8, 1, 6, 1, .rw, .w, fun _ => .fn, false, fun _ => 0, fun _ => none⟩
def F.SCH_TRACE_CTL_SIZE_LOG : Field := ⟨119, 0x42028, 0x8, 1, 0, 5, .rw, .w, fun _ => .fn, false, fun _ => 0, fun _ => none⟩
def F.SCH_TRACE_PTRS_RD : Field := ⟨120, 0x42030, 0x8, 1, 32, 25, .rw, .n, fun _ => .fn, false, fun _ => 0, fun _ => none⟩
def F.SCH_TRACE_PTRS_WR : Field := ⟨121, 0x42030, 0x8, 1, 0, 25, .ro, .n, fun _ => .fn, false, fun _ => 0, fun _ => none⟩
def F.SCH_HELD_FIND_PLAN : Field := ⟨122, 0x42038, 0x8, 1, 24, 8, .rw, .n, fun _ => .fn, false, fun _ => 0, fun _ => none⟩
def F.SCH_HELD_FIND_FROM : Field := ⟨123, 0x42038, 0x8, 1, 0, 16, .rw, .n, fun _ => .fn, false, fun _ => 0, fun _ => none⟩
def F.SCH_HELD_FLOW_BUSY : Field := ⟨124, 0x42040, 0x8, 1, 31, 1, .ro, .n, fun _ => .fn, false, fun _ => 0, fun _ => none⟩
def F.SCH_HELD_FLOW_FOUND : Field := ⟨125, 0x42040, 0x8, 1, 30, 1, .ro, .n, fun _ => .fn, false, fun _ => 0, fun _ => none⟩
def F.SCH_HELD_FLOW_FLOW : Field := ⟨126, 0x42040, 0x8, 1, 0, 16, .ro, .n, fun _ => .fn, false, fun _ => 0, fun _ => none⟩
def F.SCH_HELD_ERR_ERR : Field := ⟨127, 0x42048, 0x8, 1, 0, 64, .ro, .n, fun _ => .fn, false, fun _ => 0, fun _ => none⟩
def F.NODE_CFG_VALID : Field := ⟨128, 0x30000, 0x20, 512, 63, 1, .ro, .n, fun _ => .fn, false, fun _ => 0, fun _ => none⟩
def F.NODE_CFG_VIEW : Field := ⟨129, 0x30000, 0x20, 512, 62, 1, .ro, .n, fun _ => .fn, false, fun _ => 0, fun _ => none⟩
def F.NODE_CFG_LEVEL : Field := ⟨130, 0x30000, 0x20, 512, 59, 3, .ro, .n, fun _ => .fn, false, fun _ => 0, fun _ => none⟩
def F.NODE_CFG_PARENT : Field := ⟨131, 0x30000, 0x20, 512, 50, 9, .ro, .n, fun _ => .fn, false, fun _ => 0, fun _ => none⟩
def F.NODE_CFG_TILLERS : Field := ⟨132, 0x30000, 0x20, 512, 41, 7, .ro, .n, fun _ => .fn, false, fun _ => 0, fun _ => none⟩
def F.NODE_CFG_LIVE : Field := ⟨133, 0x30000, 0x20, 512, 34, 7, .ro, .n, fun _ => .fn, false, fun _ => 0, fun _ => none⟩
def F.NODE_CFG_FIRST_TILLER : Field := ⟨134, 0x30000, 0x20, 512, 27, 7, .ro, .n, fun _ => .fn, false, fun _ => 0, fun _ => none⟩
def F.NODE_CFG_PLANS : Field := ⟨135, 0x30000, 0x20, 512, 16, 8, .ro, .n, fun _ => .fn, false, fun _ => 0, fun _ => none⟩
def F.NODE_CAPS_CAPS : Field := ⟨136, 0x30008, 0x20, 512, 0, 64, .ro, .n, fun _ => .fn, false, fun _ => 0, fun _ => none⟩
def F.NODE_THRU_SCRATCH_MIB : Field := ⟨137, 0x30010, 0x20, 512, 45, 7, .ro, .n, fun _ => .fn, false, fun _ => 0, fun _ => none⟩
def F.NODE_THRU_MERGE_IN : Field := ⟨138, 0x30010, 0x20, 512, 34, 11, .ro, .n, fun _ => .fn, false, fun _ => 0, fun _ => none⟩
def F.NODE_THRU_HASH : Field := ⟨139, 0x30010, 0x20, 512, 24, 10, .ro, .n, fun _ => .fn, false, fun _ => 0, fun _ => none⟩
def F.NODE_THRU_LANES : Field := ⟨140, 0x30010, 0x20, 512, 13, 11, .ro, .n, fun _ => .fn, false, fun _ => 0, fun _ => none⟩
def F.NODE_THRU_DECODE : Field := ⟨141, 0x30010, 0x20, 512, 0, 13, .ro, .n, fun _ => .fn, false, fun _ => 0, fun _ => none⟩
def F.NODE_READY_URGENT : Field := ⟨142, 0x30018, 0x20, 512, 42, 14, .ro, .n, fun _ => .fn, false, fun _ => 0, fun _ => none⟩
def F.NODE_READY_INGEST : Field := ⟨143, 0x30018, 0x20, 512, 28, 14, .ro, .n, fun _ => .fn, false, fun _ => 0, fun _ => none⟩
def F.NODE_READY_QUERY : Field := ⟨144, 0x30018, 0x20, 512, 14, 14, .ro, .n, fun _ => .fn, false, fun _ => 0, fun _ => none⟩
def F.NODE_READY_BULK : Field := ⟨145, 0x30018, 0x20, 512, 0, 14, .ro, .n, fun _ => .fn, false, fun _ => 0, fun _ => none⟩
def F.SCH_DISPATCH_CNT_SAT : Field := ⟨146, 0x42050, 0x8, 1, 48, 1, .w1c, .w, fun _ => .fn, false, fun _ => 0, fun _ => none⟩
def F.SCH_DISPATCH_CNT_COUNT : Field := ⟨147, 0x42050, 0x8, 1, 0, 48, .w1c, .w, fun _ => .fn, false, fun _ => 0, fun _ => none⟩
def F.SCH_PREEMPT_CNT_SAT : Field := ⟨148, 0x42058, 0x8, 1, 48, 1, .w1c, .w, fun _ => .fn, false, fun _ => 0, fun _ => none⟩
def F.SCH_PREEMPT_CNT_COUNT : Field := ⟨149, 0x42058, 0x8, 1, 0, 48, .w1c, .w, fun _ => .fn, false, fun _ => 0, fun _ => none⟩
def F.SCH_PROMOTE_CNT_SAT : Field := ⟨150, 0x42060, 0x8, 1, 48, 1, .w1c, .w, fun _ => .fn, false, fun _ => 0, fun _ => none⟩
def F.SCH_PROMOTE_CNT_COUNT : Field := ⟨151, 0x42060, 0x8, 1, 0, 48, .w1c, .w, fun _ => .fn, false, fun _ => 0, fun _ => none⟩
def F.SCH_SPILL_CNT_SAT : Field := ⟨152, 0x42068, 0x8, 1, 48, 1, .w1c, .w, fun _ => .fn, false, fun _ => 0, fun _ => none⟩
def F.SCH_SPILL_CNT_COUNT : Field := ⟨153, 0x42068, 0x8, 1, 0, 48, .w1c, .w, fun _ => .fn, false, fun _ => 0, fun _ => none⟩
def F.SCH_QUOTA_WAIT_CNT_SAT : Field := ⟨154, 0x42070, 0x8, 1, 48, 1, .w1c, .w, fun _ => .fn, false, fun _ => 0, fun _ => none⟩
def F.SCH_QUOTA_WAIT_CNT_COUNT : Field := ⟨155, 0x42070, 0x8, 1, 0, 48, .w1c, .w, fun _ => .fn, false, fun _ => 0, fun _ => none⟩
def F.SCH_TRACE_DROP_CNT_SAT : Field := ⟨156, 0x42078, 0x8, 1, 48, 1, .w1c, .w, fun _ => .fn, false, fun _ => 0, fun _ => none⟩
def F.SCH_TRACE_DROP_CNT_COUNT : Field := ⟨157, 0x42078, 0x8, 1, 0, 48, .w1c, .w, fun _ => .fn, false, fun _ => 0, fun _ => none⟩
def F.CTX_CFG_EN : Field := ⟨158, 0x40000, 0x10, 256, 31, 1, .rw, .f, fun _ => .fn, false, fun _ => 0, fun _ => none⟩
def F.CTX_CFG_PASID_EN : Field := ⟨159, 0x40000, 0x10, 256, 30, 1, .rw, .f, fun _ => .fn, false, fun _ => 0, fun _ => none⟩
def F.CTX_CFG_PRI_EN : Field := ⟨160, 0x40000, 0x10, 256, 29, 1, .rw, .f, fun _ => .fn, false, fun _ => 0, fun _ => none⟩
def F.CTX_CFG_PASID : Field := ⟨161, 0x40000, 0x10, 256, 0, 20, .rw, .f, fun _ => .fn, false, fun _ => 0, fun _ => none⟩
def F.CTX_STATUS_PARKED : Field := ⟨162, 0x40008, 0x10, 256, 32, 16, .ro, .n, fun _ => .fn, false, fun _ => 0, fun _ => none⟩
def F.CTX_STATUS_PRG : Field := ⟨163, 0x40008, 0x10, 256, 16, 10, .ro, .n, fun _ => .fn, false, fun _ => 0, fun _ => none⟩
def F.CTX_STATUS_USERS : Field := ⟨164, 0x40008, 0x10, 256, 0, 9, .ro, .n, fun _ => .fn, false, fun _ => 0, fun _ => none⟩
def F.TLU_CTL_PRI_TO_MS : Field := ⟨165, 0x41000, 0x8, 1, 16, 12, .rw, .w, fun _ => .fn, true, fun _ => 500, fun _ => some (0x4C, 0)⟩
def F.TLU_CTL_ATS_USE : Field := ⟨166, 0x41000, 0x8, 1, 0, 1, .rw, .w, fun _ => .fn, true, fun _ => 1, fun _ => some (0x4E, 0)⟩
def F.TLU_STATUS_READS : Field := ⟨167, 0x41008, 0x8, 1, 32, 10, .ro, .n, fun _ => .fn, false, fun _ => 0, fun _ => none⟩
def F.TLU_STATUS_PRG : Field := ⟨168, 0x41008, 0x8, 1, 16, 10, .ro, .n, fun _ => .fn, false, fun _ => 0, fun _ => none⟩
def F.TLU_STATUS_TAG10 : Field := ⟨169, 0x41008, 0x8, 1, 3, 1, .ro, .n, fun _ => .fn, false, fun _ => 0, fun _ => none⟩
def F.TLU_STATUS_ATS_ON : Field := ⟨170, 0x41008, 0x8, 1, 2, 1, .ro, .n, fun _ => .fn, false, fun _ => 0, fun _ => none⟩
def F.TLU_STATUS_PRI_STOPPED : Field := ⟨171, 0x41008, 0x8, 1, 1, 1, .ro, .f, fun _ => .fn, false, fun _ => 0, fun _ => none⟩
def F.TLU_STATUS_RESTORING : Field := ⟨172, 0x41008, 0x8, 1, 0, 1, .ro, .n, fun _ => .fn, false, fun _ => 0, fun _ => none⟩
def F.TLU_DPT_ROOT_ROOT : Field := ⟨173, 0x41010, 0x8, 1, 12, 40, .rw, .w, fun _ => .fn, true, fun _ => 0, fun _ => none⟩
def F.TLU_ENGINE_SIZE_MIB : Field := ⟨174, 0x41018, 0x8, 1, 0, 32, .ro, .w, fun _ => .fn, false, fun _ => 0, fun _ => none⟩
def F.TLU_INVAL_START : Field := ⟨175, 0x41020, 0x8, 1, 12, 52, .wo, .n, fun _ => .fn, true, fun _ => 0, fun _ => none⟩
def F.TLU_INVAL_PAGES_LOG : Field := ⟨176, 0x41020, 0x8, 1, 4, 8, .wo, .n, fun _ => .fn, true, fun _ => 0, fun _ => none⟩
def F.TLU_INVAL_BUSY : Field := ⟨177, 0x41020, 0x8, 1, 2, 1, .ro, .n, fun _ => .fn, true, fun _ => 0, fun _ => none⟩
def F.TLU_INVAL_KIND : Field := ⟨178, 0x41020, 0x8, 1, 0, 2, .wo, .n, fun _ => .fn, true, fun _ => 0, fun _ => none⟩
def F.TLU_FAULT_ADDR_KIND : Field := ⟨179, 0x41028, 0x8, 1, 61, 3, .ro, .w, fun _ => .fn, false, fun _ => 0, fun _ => none⟩
def F.TLU_FAULT_ADDR_GRANARY : Field := ⟨180, 0x41028, 0x8, 1, 60, 1, .ro, .w, fun _ => .fn, false, fun _ => 0, fun _ => none⟩
def F.TLU_FAULT_ADDR_CTX : Field := ⟨181, 0x41028, 0x8, 1, 47, 8, .ro, .w, fun _ => .fn, false, fun _ => 0, fun _ => none⟩
def F.TLU_FAULT_ADDR_ADDR : Field := ⟨182, 0x41028, 0x8, 1, 0, 47, .ro, .w, fun _ => .fn, false, fun _ => 0, fun _ => none⟩
def F.TLU_MISS_CNT_SAT : Field := ⟨183, 0x41030, 0x8, 1, 48, 1, .w1c, .w, fun _ => .fn, false, fun _ => 0, fun _ => none⟩
def F.TLU_MISS_CNT_COUNT : Field := ⟨184, 0x41030, 0x8, 1, 0, 48, .w1c, .w, fun _ => .fn, false, fun _ => 0, fun _ => none⟩
def F.TLU_PRI_CNT_SAT : Field := ⟨185, 0x41038, 0x8, 1, 48, 1, .w1c, .w, fun _ => .fn, false, fun _ => 0, fun _ => none⟩
def F.TLU_PRI_CNT_COUNT : Field := ⟨186, 0x41038, 0x8, 1, 0, 48, .w1c, .w, fun _ => .fn, false, fun _ => 0, fun _ => none⟩
def F.TLU_UNRESTORED_CNT_SAT : Field := ⟨187, 0x41040, 0x8, 1, 48, 1, .w1c, .w, fun _ => .fn, false, fun _ => 0, fun _ => none⟩
def F.TLU_UNRESTORED_CNT_COUNT : Field := ⟨188, 0x41040, 0x8, 1, 0, 48, .w1c, .w, fun _ => .fn, false, fun _ => 0, fun _ => none⟩
def F.TLU_INVAL_CNT_SAT : Field := ⟨189, 0x41048, 0x8, 1, 48, 1, .w1c, .w, fun _ => .fn, false, fun _ => 0, fun _ => none⟩
def F.TLU_INVAL_CNT_COUNT : Field := ⟨190, 0x41048, 0x8, 1, 0, 48, .w1c, .w, fun _ => .fn, false, fun _ => 0, fun _ => none⟩
def F.DMC_CHCFG_SPEED : Field := ⟨191, 0x50000, 0x100, 12, 21, 3, .ro, .w, fun i => if i < 4 then .g else .m, false, fun _ => 0, fun _ => none⟩
def F.DMC_CHCFG_SPARE_EN : Field := ⟨192, 0x50000, 0x100, 12, 20, 1, .ro, .w, fun i => if i < 4 then .g else .m, false, fun _ => 0, fun i => some (0x5A, i)⟩
def F.DMC_CHCFG_DPC : Field := ⟨193, 0x50000, 0x100, 12, 18, 2, .ro, .w, fun i => if i < 4 then .g else .m, false, fun _ => 0, fun _ => none⟩
def F.DMC_CHCFG_RPD : Field := ⟨194, 0x50000, 0x100, 12, 16, 2, .ro, .w, fun i => if i < 4 then .g else .m, false, fun _ => 0, fun _ => none⟩
def F.DMC_CHCFG_DENSITY : Field := ⟨195, 0x50000, 0x100, 12, 15, 1, .ro, .w, fun i => if i < 4 then .g else .m, false, fun _ => 0, fun _ => none⟩
def F.DMC_CHCFG_ACTIVE_RANKS : Field := ⟨196, 0x50000, 0x100, 12, 8, 4, .ro, .w, fun i => if i < 4 then .g else .m, false, fun _ => 0, fun _ => none⟩
def F.DMC_CHCFG_PHYS_RANKS : Field := ⟨197, 0x50000, 0x100, 12, 4, 4, .ro, .w, fun i => if i < 4 then .g else .m, false, fun _ => 0, fun _ => none⟩
def F.DMC_CHCFG_STATE : Field := ⟨198, 0x50000, 0x100, 12, 0, 2, .ro, .w, fun i => if i < 4 then .g else .m, false, fun _ => 0, fun _ => none⟩
def F.DMC_RANKCFG_RANK3 : Field := ⟨199, 0x50008, 0x100, 12, 24, 8, .ro, .w, fun i => if i < 4 then .g else .m, false, fun _ => 0, fun _ => none⟩
def F.DMC_RANKCFG_RANK2 : Field := ⟨200, 0x50008, 0x100, 12, 16, 8, .ro, .w, fun i => if i < 4 then .g else .m, false, fun _ => 0, fun _ => none⟩
def F.DMC_RANKCFG_RANK1 : Field := ⟨201, 0x50008, 0x100, 12, 8, 8, .ro, .w, fun i => if i < 4 then .g else .m, false, fun _ => 0, fun _ => none⟩
def F.DMC_RANKCFG_RANK0 : Field := ⟨202, 0x50008, 0x100, 12, 0, 8, .ro, .w, fun i => if i < 4 then .g else .m, false, fun _ => 0, fun _ => none⟩
def F.DMC_ARBCFG_AGE_NS : Field := ⟨203, 0x50010, 0x100, 12, 16, 16, .rw, .w, fun i => if i < 4 then .g else .m, true, fun _ => 2000, fun _ => some (0x60, 0)⟩
def F.DMC_ARBCFG_OPEN_TO : Field := ⟨204, 0x50010, 0x100, 12, 8, 8, .rw, .w, fun i => if i < 4 then .g else .m, true, fun _ => 10, fun _ => some (0x62, 0)⟩
def F.DMC_ARBCFG_DEF_POLICY : Field := ⟨205, 0x50010, 0x100, 12, 0, 2, .rw, .w, fun i => if i < 4 then .g else .m, true, fun _ => 0, fun _ => some (0x63, 0)⟩
def F.DMC_REFCFG_NR_THRESH : Field := ⟨206, 0x50018, 0x100, 12, 16, 12, .rw, .w, fun i => if i < 4 then .g else .m, true, fun _ => 2048, fun _ => some (0x64, 0)⟩
def F.DMC_REFCFG_NR_K : Field := ⟨207, 0x50018, 0x100, 12, 8, 5, .rw, .w, fun i => if i < 4 then .g else .m, true, fun _ => 11, fun _ => some (0x66, 0)⟩
def F.DMC_REFCFG_POSTPONE_EN : Field := ⟨208, 0x50018, 0x100, 12, 1, 1, .rw, .w, fun i => if i < 4 then .g else .m, true, fun _ => 1, fun _ => some (0x67, 0)⟩
def F.DMC_REFCFG_HOT : Field := ⟨209, 0x50018, 0x100, 12, 0, 1, .ro, .n, fun i => if i < 4 then .g else .m, true, fun _ => 0, fun _ => none⟩
def F.DMC_PWRCFG_SR_US : Field := ⟨210, 0x50020, 0x100, 12, 16, 16, .rw, .w, fun i => if i < 4 then .g else .m, true, fun _ => 50, fun _ => some (0x68, 0)⟩
def F.DMC_PWRCFG_PD_NS : Field := ⟨211, 0x50020, 0x100, 12, 0, 16, .rw, .w, fun i => if i < 4 then .g else .m, true, fun _ => 200, fun _ => some (0x6A, 0)⟩
def F.DMC_STATUS_TEMP_MAX : Field := ⟨212, 0x50028, 0x100, 12, 16, 8, .ro, .n, fun i => if i < 4 then .g else .m, false, fun _ => 0, fun _ => none⟩
def F.DMC_STATUS_SR : Field := ⟨213, 0x50028, 0x100, 12, 8, 4, .ro, .n, fun i => if i < 4 then .g else .m, false, fun _ => 0, fun _ => none⟩
def F.DMC_STATUS_PD : Field := ⟨214, 0x50028, 0x100, 12, 4, 4, .ro, .n, fun i => if i < 4 then .g else .m, false, fun _ => 0, fun _ => none⟩
def F.DMC_STATUS_RETRAINING : Field := ⟨215, 0x50028, 0x100, 12, 3, 1, .ro, .n, fun i => if i < 4 then .g else .m, false, fun _ => 0, fun _ => none⟩
def F.DMC_STATUS_MIGRATING : Field := ⟨216, 0x50028, 0x100, 12, 2, 1, .ro, .n, fun i => if i < 4 then .g else .m, false, fun _ => 0, fun _ => none⟩
def F.DMC_STATUS_HOT : Field := ⟨217, 0x50028, 0x100, 12, 1, 1, .ro, .n, fun i => if i < 4 then .g else .m, false, fun _ => 0, fun _ => none⟩
def F.DMC_STATUS_GRANARY : Field := ⟨218, 0x50028, 0x100, 12, 0, 1, .ro, .n, fun i => if i < 4 then .g else .m, false, fun _ => 0, fun _ => none⟩
def F.DMC_TEMP_DIMM1 : Field := ⟨219, 0x50030, 0x100, 12, 16, 16, .ro, .n, fun i => if i < 4 then .g else .m, false, fun _ => 32768, fun _ => none⟩
def F.DMC_TEMP_DIMM0 : Field := ⟨220, 0x50030, 0x100, 12, 0, 16, .ro, .n, fun i => if i < 4 then .g else .m, false, fun _ => 32768, fun _ => none⟩
def F.DMC_CMD_RANK : Field := ⟨221, 0x50038, 0x100, 12, 4, 2, .wo, .n, fun i => if i < 4 then .g else .m, true, fun _ => 0, fun _ => none⟩
def F.DMC_CMD_RETIRE : Field := ⟨222, 0x50038, 0x100, 12, 1, 1, .wo, .n, fun i => if i < 4 then .g else .m, true, fun _ => 0, fun _ => none⟩
def F.DMC_CMD_RETRAIN : Field := ⟨223, 0x50038, 0x100, 12, 0, 1, .wo, .n, fun i => if i < 4 then .g else .m, true, fun _ => 0, fun _ => none⟩
def F.DMC_MIGRATE_ACTIVE : Field := ⟨224, 0x50040, 0x100, 12, 63, 1, .ro, .w, fun i => if i < 4 then .g else .m, false, fun _ => 0, fun _ => none⟩
def F.DMC_MIGRATE_PAUSED : Field := ⟨225, 0x50040, 0x100, 12, 62, 1, .ro, .w, fun i => if i < 4 then .g else .m, false, fun _ => 0, fun _ => none⟩
def F.DMC_MIGRATE_FROM : Field := ⟨226, 0x50040, 0x100, 12, 60, 2, .ro, .w, fun i => if i < 4 then .g else .m, false, fun _ => 0, fun _ => none⟩
def F.DMC_MIGRATE_TO : Field := ⟨227, 0x50040, 0x100, 12, 58, 2, .ro, .w, fun i => if i < 4 then .g else .m, false, fun _ => 0, fun _ => none⟩
def F.DMC_MIGRATE_UNIT : Field := ⟨228, 0x50040, 0x100, 12, 0, 24, .ro, .w, fun i => if i < 4 then .g else .m, false, fun _ => 0, fun _ => none⟩
def F.DMC_SCRUBCFG_LINES : Field := ⟨229, 0x50048, 0x100, 12, 0, 32, .rw, .w, fun i => if i < 4 then .g else .m, true, fun _ => 65536, fun _ => some (0x6C, 0)⟩
def F.DMC_SCRUBPOS_PASSES : Field := ⟨230, 0x50050, 0x100, 12, 48, 16, .ro, .w, fun i => if i < 4 then .g else .m, false, fun _ => 0, fun _ => none⟩
def F.DMC_SCRUBPOS_LINE : Field := ⟨231, 0x50050, 0x100, 12, 0, 32, .ro, .w, fun i => if i < 4 then .g else .m, false, fun _ => 0, fun _ => none⟩
def F.DMC_ERRLOG_TYPE : Field := ⟨232, 0x50058, 0x100, 12, 62, 2, .ro, .w, fun i => if i < 4 then .g else .m, false, fun _ => 0, fun _ => none⟩
def F.DMC_ERRLOG_RANK : Field := ⟨233, 0x50058, 0x100, 12, 60, 2, .ro, .w, fun i => if i < 4 then .g else .m, false, fun _ => 0, fun _ => none⟩
def F.DMC_ERRLOG_SUBCH : Field := ⟨234, 0x50058, 0x100, 12, 59, 1, .ro, .w, fun i => if i < 4 then .g else .m, false, fun _ => 0, fun _ => none⟩
def F.DMC_ERRLOG_DEVICE : Field := ⟨235, 0x50058, 0x100, 12, 54, 5, .ro, .w, fun i => if i < 4 then .g else .m, false, fun _ => 0, fun _ => none⟩
def F.DMC_ERRLOG_BG : Field := ⟨236, 0x50058, 0x100, 12, 51, 3, .ro, .w, fun i => if i < 4 then .g else .m, false, fun _ => 0, fun _ => none⟩
def F.DMC_ERRLOG_BANK : Field := ⟨237, 0x50058, 0x100, 12, 49, 2, .ro, .w, fun i => if i < 4 then .g else .m, false, fun _ => 0, fun _ => none⟩
def F.DMC_ERRLOG_ROW : Field := ⟨238, 0x50058, 0x100, 12, 32, 17, .ro, .w, fun i => if i < 4 then .g else .m, false, fun _ => 0, fun _ => none⟩
def F.DMC_ERRLOG_COL : Field := ⟨239, 0x50058, 0x100, 12, 25, 7, .ro, .w, fun i => if i < 4 then .g else .m, false, fun _ => 0, fun _ => none⟩
def F.DMC_ERRLOG_PATROL : Field := ⟨240, 0x50058, 0x100, 12, 24, 1, .ro, .w, fun i => if i < 4 then .g else .m, false, fun _ => 0, fun _ => none⟩
def F.DMC_ERRADDR_DPA : Field := ⟨241, 0x50060, 0x100, 12, 0, 48, .ro, .w, fun i => if i < 4 then .g else .m, false, fun _ => 0, fun _ => none⟩
def F.DMC_CE_CNT_SAT : Field := ⟨242, 0x50068, 0x100, 12, 48, 1, .w1c, .w, fun i => if i < 4 then .g else .m, false, fun _ => 0, fun _ => none⟩
def F.DMC_CE_CNT_COUNT : Field := ⟨243, 0x50068, 0x100, 12, 0, 48, .w1c, .w, fun i => if i < 4 then .g else .m, false, fun _ => 0, fun _ => none⟩
def F.DMC_UE_CNT_SAT : Field := ⟨244, 0x50070, 0x100, 12, 48, 1, .w1c, .w, fun i => if i < 4 then .g else .m, false, fun _ => 0, fun _ => none⟩
def F.DMC_UE_CNT_COUNT : Field := ⟨245, 0x50070, 0x100, 12, 0, 48, .w1c, .w, fun i => if i < 4 then .g else .m, false, fun _ => 0, fun _ => none⟩
def F.DMC_CAPAR_CNT_SAT : Field := ⟨246, 0x50078, 0x100, 12, 48, 1, .w1c, .w, fun i => if i < 4 then .g else .m, false, fun _ => 0, fun _ => none⟩
def F.DMC_CAPAR_CNT_COUNT : Field := ⟨247, 0x50078, 0x100, 12, 0, 48, .w1c, .w, fun i => if i < 4 then .g else .m, false, fun _ => 0, fun _ => none⟩
def F.DMC_NR_CNT_SAT : Field := ⟨248, 0x50080, 0x100, 12, 48, 1, .w1c, .w, fun i => if i < 4 then .g else .m, false, fun _ => 0, fun _ => none⟩
def F.DMC_NR_CNT_COUNT : Field := ⟨249, 0x50080, 0x100, 12, 0, 48, .w1c, .w, fun i => if i < 4 then .g else .m, false, fun _ => 0, fun _ => none⟩
def F.DMC_PROMOTE_CNT_SAT : Field := ⟨250, 0x50088, 0x100, 12, 48, 1, .w1c, .w, fun i => if i < 4 then .g else .m, false, fun _ => 0, fun _ => none⟩
def F.DMC_PROMOTE_CNT_COUNT : Field := ⟨251, 0x50088, 0x100, 12, 0, 48, .w1c, .w, fun i => if i < 4 then .g else .m, false, fun _ => 0, fun _ => none⟩
def F.DMC_RETRAIN_CNT_SAT : Field := ⟨252, 0x50090, 0x100, 12, 48, 1, .w1c, .w, fun i => if i < 4 then .g else .m, false, fun _ => 0, fun _ => none⟩
def F.DMC_RETRAIN_CNT_COUNT : Field := ⟨253, 0x50090, 0x100, 12, 0, 48, .w1c, .w, fun i => if i < 4 then .g else .m, false, fun _ => 0, fun _ => none⟩
def F.DMC_RMW_LOST_CNT_SAT : Field := ⟨254, 0x50098, 0x100, 12, 48, 1, .w1c, .w, fun i => if i < 4 then .g else .m, false, fun _ => 0, fun _ => none⟩
def F.DMC_RMW_LOST_CNT_COUNT : Field := ⟨255, 0x50098, 0x100, 12, 0, 48, .w1c, .w, fun i => if i < 4 then .g else .m, false, fun _ => 0, fun _ => none⟩
def F.IVS_BASE_GIB : Field := ⟨256, 0x51000, 0x20, 8, 30, 18, .rwl, .w, fun i => if i = 0 then .g else .m, true, fun _ => 0, fun _ => none⟩
def F.IVS_SIZE_GIB : Field := ⟨257, 0x51008, 0x20, 8, 30, 18, .rwl, .w, fun i => if i = 0 then .g else .m, true, fun _ => 0, fun _ => none⟩
def F.IVS_CFG_CHLIST : Field := ⟨258, 0x51010, 0x20, 8, 32, 32, .rwl, .w, fun i => if i = 0 then .g else .m, true, fun _ => 0, fun _ => none⟩
def F.IVS_CFG_CH_BASE : Field := ⟨259, 0x51010, 0x20, 8, 24, 8, .rwl, .w, fun i => if i = 0 then .g else .m, true, fun _ => 0, fun _ => none⟩
def F.IVS_CFG_GRAIN_LOG : Field := ⟨260, 0x51010, 0x20, 8, 19, 5, .rwl, .w, fun i => if i = 0 then .g else .m, true, fun _ => 0, fun _ => none⟩
def F.IVS_CFG_WAYS : Field := ⟨261, 0x51010, 0x20, 8, 15, 4, .rwl, .w, fun i => if i = 0 then .g else .m, true, fun _ => 0, fun _ => none⟩
def F.IVS_CFG_STATE : Field := ⟨262, 0x51010, 0x20, 8, 13, 2, .ro, .w, fun i => if i = 0 then .g else .m, true, fun _ => 0, fun _ => none⟩
def F.IVS_CFG_DEGRADED_OK : Field := ⟨263, 0x51010, 0x20, 8, 12, 1, .ro, .w, fun i => if i = 0 then .g else .m, true, fun _ => 0, fun i => some (0x5C, i)⟩
def F.IVS_CFG_VOL : Field := ⟨264, 0x51010, 0x20, 8, 11, 1, .rwl, .w, fun i => if i = 0 then .g else .m, true, fun _ => 0, fun _ => none⟩
def F.IVS_CFG_GRANARY : Field := ⟨265, 0x51010, 0x20, 8, 10, 1, .ro, .w, fun i => if i = 0 then .g else .m, true, fun _ => 0, fun _ => none⟩
def F.IVS_CFG_LOCK : Field := ⟨266, 0x51010, 0x20, 8, 9, 1, .w1s, .w, fun i => if i = 0 then .g else .m, true, fun _ => 0, fun _ => none⟩
def F.IVS_CFG_FAILED : Field := ⟨267, 0x51010, 0x20, 8, 1, 8, .ro, .w, fun i => if i = 0 then .g else .m, true, fun _ => 0, fun _ => none⟩
def F.IVS_CFG_VALID : Field := ⟨268, 0x51010, 0x20, 8, 0, 1, .rwl, .w, fun i => if i = 0 then .g else .m, true, fun _ => 0, fun _ => none⟩
def F.GRN_STATE_RESTORE_PCT : Field := ⟨269, 0x60000, 0x8, 1, 48, 8, .ro, .a, fun _ => .g, false, fun _ => 0, fun _ => none⟩
def F.GRN_STATE_DELTAS : Field := ⟨270, 0x60000, 0x8, 1, 32, 16, .ro, .a, fun _ => .g, false, fun _ => 0, fun _ => none⟩
def F.GRN_STATE_BASE_SLOT : Field := ⟨271, 0x60000, 0x8, 1, 30, 2, .ro, .a, fun _ => .g, false, fun _ => 0, fun _ => none⟩
def F.GRN_STATE_LOSS : Field := ⟨272, 0x60000, 0x8, 1, 29, 1, .ro, .a, fun _ => .g, false, fun _ => 0, fun _ => none⟩
def F.GRN_STATE_REFUSED : Field := ⟨273, 0x60000, 0x8, 1, 28, 1, .ro, .a, fun _ => .g, false, fun _ => 0, fun _ => none⟩
def F.GRN_STATE_THROTTLE : Field := ⟨274, 0x60000, 0x8, 1, 27, 1, .ro, .n, fun _ => .g, false, fun _ => 0, fun _ => none⟩
def F.GRN_STATE_HOLD_RETURN : Field := ⟨275, 0x60000, 0x8, 1, 26, 1, .ro, .a, fun _ => .g, false, fun _ => 0, fun _ => none⟩
def F.GRN_STATE_REQ_SRC : Field := ⟨276, 0x60000, 0x8, 1, 24, 2, .ro, .a, fun _ => .g, false, fun _ => 0, fun _ => none⟩
def F.GRN_STATE_CAUSE : Field := ⟨277, 0x60000, 0x8, 1, 20, 4, .ro, .a, fun _ => .g, false, fun _ => 0, fun _ => none⟩
def F.GRN_STATE_STATE : Field := ⟨278, 0x60000, 0x8, 1, 0, 4, .ro, .a, fun _ => .g, false, fun _ => 0, fun _ => none⟩
def F.GRN_WINDOW_MIB : Field := ⟨279, 0x60008, 0x8, 1, 0, 32, .ro, .a, fun _ => .g, false, fun _ => 0, fun _ => none⟩
def F.GRN_LOSS_UNSEALED : Field := ⟨280, 0x60010, 0x8, 1, 63, 1, .ro, .a, fun _ => .g, false, fun _ => 0, fun _ => none⟩
def F.GRN_LOSS_SEGMENT : Field := ⟨281, 0x60010, 0x8, 1, 62, 1, .ro, .a, fun _ => .g, false, fun _ => 0, fun _ => none⟩
def F.GRN_LOSS_PAGE : Field := ⟨282, 0x60010, 0x8, 1, 61, 1, .ro, .a, fun _ => .g, false, fun _ => 0, fun _ => none⟩
def F.GRN_LOSS_CHANNEL : Field := ⟨283, 0x60010, 0x8, 1, 60, 1, .ro, .a, fun _ => .g, false, fun _ => 0, fun _ => none⟩
def F.GRN_LOSS_PAGES : Field := ⟨284, 0x60010, 0x8, 1, 0, 48, .ro, .a, fun _ => .g, false, fun _ => 0, fun _ => none⟩
def F.GRN_LOSS_FIRST_PAGE : Field := ⟨285, 0x60018, 0x8, 1, 0, 28, .ro, .a, fun _ => .g, false, fun _ => 0, fun _ => none⟩
def F.GOV_STATUS_THROTTLE : Field := ⟨286, 0x60020, 0x8, 1, 63, 1, .ro, .n, fun _ => .g, false, fun _ => 0, fun _ => none⟩
def F.GOV_STATUS_HIGH : Field := ⟨287, 0x60020, 0x8, 1, 62, 1, .ro, .n, fun _ => .g, false, fun _ => 0, fun _ => none⟩
def F.GOV_STATUS_SENSE_BAD : Field := ⟨288, 0x60020, 0x8, 1, 61, 1, .ro, .n, fun _ => .g, false, fun _ => 0, fun _ => none⟩
def F.GOV_STATUS_BUDGET_MIB : Field := ⟨289, 0x60020, 0x8, 1, 21, 21, .ro, .n, fun _ => .g, false, fun _ => 0, fun _ => none⟩
def F.GOV_STATUS_DIRTY_MIB : Field := ⟨290, 0x60020, 0x8, 1, 0, 21, .ro, .n, fun _ => .g, false, fun _ => 0, fun _ => none⟩
def F.GOV_CFG_E_RESERVE_J : Field := ⟨291, 0x60028, 0x8, 1, 48, 16, .ro, .a, fun _ => .g, false, fun _ => 550, fun _ => none⟩
def F.GOV_CFG_DERATE : Field := ⟨292, 0x60028, 0x8, 1, 40, 8, .ro, .a, fun _ => .g, false, fun _ => 128, fun _ => none⟩
def F.GOV_CFG_WIN_HI_PCT : Field := ⟨293, 0x60028, 0x8, 1, 32, 8, .ro, .a, fun _ => .g, false, fun _ => 50, fun _ => none⟩
def F.GOV_CFG_WIN_RATE : Field := ⟨294, 0x60028, 0x8, 1, 24, 8, .ro, .a, fun _ => .g, false, fun _ => 80, fun _ => none⟩
def F.GOV_CFG_DELTA_LIMIT_GIB : Field := ⟨295, 0x60028, 0x8, 1, 11, 11, .ro, .a, fun _ => .g, false, fun _ => 256, fun _ => none⟩
def F.GOV_CFG_CEILING_GIB : Field := ⟨296, 0x60028, 0x8, 1, 0, 11, .ro, .a, fun _ => .g, false, fun _ => 256, fun _ => none⟩
def F.BANK_CFG_LOCK : Field := ⟨297, 0x60030, 0x8, 1, 63, 1, .w1s, .w, fun _ => .g, true, fun _ => 0, fun _ => none⟩
def F.BANK_CFG_ETA_PCT : Field := ⟨298, 0x60030, 0x8, 1, 48, 8, .rwl, .w, fun _ => .g, true, fun _ => 85, fun _ => some (0x74, 0)⟩
def F.BANK_CFG_SENSE_DIV : Field := ⟨299, 0x60030, 0x8, 1, 40, 8, .rwl, .w, fun _ => .g, true, fun _ => 50, fun _ => some (0x75, 0)⟩
def F.BANK_CFG_I_TEST : Field := ⟨300, 0x60030, 0x8, 1, 32, 8, .rwl, .w, fun _ => .g, true, fun _ => 20, fun _ => some (0x76, 0)⟩
def F.BANK_CFG_V_MIN : Field := ⟨301, 0x60030, 0x8, 1, 16, 16, .rwl, .w, fun _ => .g, true, fun _ => 1000, fun _ => some (0x72, 0)⟩
def F.BANK_CFG_C_NOM : Field := ⟨302, 0x60030, 0x8, 1, 0, 16, .rwl, .w, fun _ => .g, true, fun _ => 0, fun _ => some (0x70, 0)⟩
def F.BANK_STATUS_MEAS_VALID : Field := ⟨303, 0x60038, 0x8, 1, 63, 1, .ro, .a, fun _ => .g, false, fun _ => 0, fun _ => none⟩
def F.BANK_STATUS_MEAS_FAIL : Field := ⟨304, 0x60038, 0x8, 1, 62, 1, .w1c, .a, fun _ => .g, false, fun _ => 0, fun _ => none⟩
def F.BANK_STATUS_TESTING : Field := ⟨305, 0x60038, 0x8, 1, 61, 1, .ro, .n, fun _ => .g, false, fun _ => 0, fun _ => none⟩
def F.BANK_STATUS_ESR_MOHM : Field := ⟨306, 0x60038, 0x8, 1, 32, 16, .ro, .a, fun _ => .g, false, fun _ => 0, fun _ => none⟩
def F.BANK_STATUS_C_MEAS : Field := ⟨307, 0x60038, 0x8, 1, 16, 16, .ro, .a, fun _ => .g, false, fun _ => 0, fun _ => none⟩
def F.BANK_STATUS_V_BANK : Field := ⟨308, 0x60038, 0x8, 1, 0, 16, .ro, .n, fun _ => .g, false, fun _ => 0, fun _ => none⟩
def F.BANK_ENERGY_E_USABLE_J : Field := ⟨309, 0x60040, 0x8, 1, 0, 32, .ro, .n, fun _ => .g, false, fun _ => 0, fun _ => none⟩
def F.WIN_STATUS_REBASE : Field := ⟨310, 0x60048, 0x8, 1, 63, 1, .ro, .n, fun _ => .g, false, fun _ => 0, fun _ => none⟩
def F.WIN_STATUS_IN_FLIGHT : Field := ⟨311, 0x60048, 0x8, 1, 51, 12, .ro, .n, fun _ => .g, false, fun _ => 0, fun _ => none⟩
def F.WIN_STATUS_REBASE_SEG : Field := ⟨312, 0x60048, 0x8, 1, 28, 19, .ro, .n, fun _ => .g, false, fun _ => 0, fun _ => none⟩
def F.WIN_STATUS_POS : Field := ⟨313, 0x60048, 0x8, 1, 0, 28, .ro, .n, fun _ => .g, false, fun _ => 0, fun _ => none⟩
def F.VLT_CHAIN_GEN : Field := ⟨314, 0x60050, 0x8, 1, 24, 40, .ro, .a, fun _ => .g, false, fun _ => 0, fun _ => none⟩
def F.VLT_CHAIN_FREE_GIB : Field := ⟨315, 0x60050, 0x8, 1, 12, 12, .ro, .a, fun _ => .g, false, fun _ => 0, fun _ => none⟩
def F.VLT_CHAIN_DELTA_GIB : Field := ⟨316, 0x60050, 0x8, 1, 0, 12, .ro, .a, fun _ => .g, false, fun _ => 0, fun _ => none⟩
def F.RST_STATUS_UNRESTORED : Field := ⟨317, 0x60058, 0x8, 1, 32, 29, .ro, .n, fun _ => .g, false, fun _ => 0, fun _ => none⟩
def F.RST_STATUS_PENDING : Field := ⟨318, 0x60058, 0x8, 1, 0, 11, .ro, .n, fun _ => .g, false, fun _ => 0, fun _ => none⟩
def F.GRN_THROTTLE_CNT_SAT : Field := ⟨319, 0x60060, 0x8, 1, 48, 1, .w1c, .w, fun _ => .g, false, fun _ => 0, fun _ => none⟩
def F.GRN_THROTTLE_CNT_COUNT : Field := ⟨320, 0x60060, 0x8, 1, 0, 48, .w1c, .w, fun _ => .g, false, fun _ => 0, fun _ => none⟩
def F.WIN_COPY_CNT_SAT : Field := ⟨321, 0x60068, 0x8, 1, 48, 1, .w1c, .w, fun _ => .g, false, fun _ => 0, fun _ => none⟩
def F.WIN_COPY_CNT_COUNT : Field := ⟨322, 0x60068, 0x8, 1, 0, 48, .w1c, .w, fun _ => .g, false, fun _ => 0, fun _ => none⟩
def F.WIN_REDIRTY_CNT_SAT : Field := ⟨323, 0x60070, 0x8, 1, 48, 1, .w1c, .w, fun _ => .g, false, fun _ => 0, fun _ => none⟩
def F.WIN_REDIRTY_CNT_COUNT : Field := ⟨324, 0x60070, 0x8, 1, 0, 48, .w1c, .w, fun _ => .g, false, fun _ => 0, fun _ => none⟩
def F.RST_FETCH_CNT_SAT : Field := ⟨325, 0x60078, 0x8, 1, 48, 1, .w1c, .w, fun _ => .g, false, fun _ => 0, fun _ => none⟩
def F.RST_FETCH_CNT_COUNT : Field := ⟨326, 0x60078, 0x8, 1, 0, 48, .w1c, .w, fun _ => .g, false, fun _ => 0, fun _ => none⟩
def F.GRN_DUMP_CNT_SAT : Field := ⟨327, 0x60080, 0x8, 1, 48, 1, .w1c, .w, fun _ => .g, false, fun _ => 0, fun _ => none⟩
def F.GRN_DUMP_CNT_COUNT : Field := ⟨328, 0x60080, 0x8, 1, 0, 48, .w1c, .w, fun _ => .g, false, fun _ => 0, fun _ => none⟩
def F.FLC_TIMING_WAIT : Field := ⟨329, 0x71000, 0x20, 16, 10, 6, .rw, .w, fun _ => .h, true, fun _ => 8, fun _ => none⟩
def F.FLC_TIMING_MTS : Field := ⟨330, 0x71000, 0x20, 16, 0, 3, .rw, .w, fun _ => .h, true, fun _ => 5, fun _ => some (0x59, 0)⟩
def F.FLC_VERIFY_ERS_LOOPS : Field := ⟨331, 0x71008, 0x20, 16, 4, 4, .rw, .w, fun _ => .h, true, fun _ => 8, fun _ => none⟩
def F.FLC_VERIFY_PGM_LOOPS : Field := ⟨332, 0x71008, 0x20, 16, 0, 4, .rw, .w, fun _ => .h, true, fun _ => 12, fun _ => none⟩
def F.FLC_STATUS_SUSP : Field := ⟨333, 0x71010, 0x20, 16, 16, 4, .ro, .n, fun _ => .h, true, fun _ => 0, fun _ => none⟩
def F.FLC_STATUS_BUSY : Field := ⟨334, 0x71010, 0x20, 16, 12, 4, .ro, .n, fun _ => .h, true, fun _ => 0, fun _ => none⟩
def F.FLC_STATUS_TIMEOUT : Field := ⟨335, 0x71010, 0x20, 16, 8, 4, .w1c, .w, fun _ => .h, true, fun _ => 0, fun _ => none⟩
def F.FLC_STATUS_SPARES_MIN : Field := ⟨336, 0x71010, 0x20, 16, 0, 8, .ro, .w, fun _ => .h, true, fun _ => 0, fun _ => none⟩
def F.FLQ_CFG_EN : Field := ⟨337, 0x72000, 0x20, 32, 7, 1, .rw, .n, fun _ => .h, true, fun _ => 0, fun _ => none⟩
def F.FLQ_CFG_SIZE_LOG : Field := ⟨338, 0x72000, 0x20, 32, 0, 4, .rw, .n, fun _ => .h, true, fun _ => 0, fun _ => none⟩
def F.FLQ_SQ_BASE_BASE : Field := ⟨339, 0x72008, 0x20, 32, 12, 52, .rw, .n, fun _ => .h, true, fun _ => 0, fun _ => none⟩
def F.FLQ_CQ_BASE_BASE : Field := ⟨340, 0x72010, 0x20, 32, 12, 52, .rw, .n, fun _ => .h, true, fun _ => 0, fun _ => none⟩
def F.FLQ_PTRS_CQ_HEAD : Field := ⟨341, 0x72018, 0x20, 32, 48, 10, .rw, .n, fun _ => .h, true, fun _ => 0, fun _ => none⟩
def F.FLQ_PTRS_CQ_TAIL : Field := ⟨342, 0x72018, 0x20, 32, 32, 10, .ro, .n, fun _ => .h, true, fun _ => 0, fun _ => none⟩
def F.FLQ_PTRS_TAIL : Field := ⟨343, 0x72018, 0x20, 32, 16, 10, .rw, .n, fun _ => .h, true, fun _ => 0, fun _ => none⟩
def F.FLQ_PTRS_HEAD : Field := ⟨344, 0x72018, 0x20, 32, 0, 10, .ro, .n, fun _ => .h, true, fun _ => 0, fun _ => none⟩
def F.FLV_CTL_RD_LIMIT : Field := ⟨345, 0x70000, 0x8, 1, 44, 20, .rw, .w, fun _ => .h, true, fun _ => 400000, fun _ => none⟩
def F.FLV_CTL_WL_GAP : Field := ⟨346, 0x70000, 0x8, 1, 32, 12, .rw, .w, fun _ => .h, true, fun _ => 1000, fun _ => none⟩
def F.FLV_CTL_RELOC_BITS : Field := ⟨347, 0x70000, 0x8, 1, 22, 10, .rw, .w, fun _ => .h, true, fun _ => 256, fun _ => none⟩
def F.FLV_CTL_RETRY_MAX : Field := ⟨348, 0x70000, 0x8, 1, 19, 3, .rw, .w, fun _ => .h, true, fun _ => 7, fun _ => none⟩
def F.FLV_CTL_MIN_RUN_US : Field := ⟨349, 0x70000, 0x8, 1, 10, 9, .rw, .w, fun _ => .h, true, fun _ => 100, fun _ => none⟩
def F.FLV_STATUS_OPT_GEN : Field := ⟨350, 0x70008, 0x8, 1, 16, 48, .ro, .w, fun _ => .h, false, fun _ => 0, fun _ => none⟩
def F.FLV_STATUS_VCCQ_LOW : Field := ⟨351, 0x70008, 0x8, 1, 7, 1, .ro, .n, fun _ => .h, false, fun _ => 0, fun _ => none⟩
def F.FLV_STATUS_OPT_COPY : Field := ⟨352, 0x70008, 0x8, 1, 6, 1, .ro, .w, fun _ => .h, false, fun _ => 0, fun _ => none⟩
def F.FLV_STATUS_OPT_DAMAGED : Field := ⟨353, 0x70008, 0x8, 1, 5, 1, .w1c, .w, fun _ => .h, false, fun _ => 0, fun _ => none⟩
def F.FLV_STATUS_JRNL_DAMAGED : Field := ⟨354, 0x70008, 0x8, 1, 4, 1, .w1c, .w, fun _ => .h, false, fun _ => 0, fun _ => none⟩
def F.FLV_STATUS_INCOMPLETE : Field := ⟨355, 0x70008, 0x8, 1, 0, 4, .ro, .n, fun _ => .h, false, fun _ => 0, fun _ => none⟩
def F.FLV_UNCORR_CNT_SAT : Field := ⟨356, 0x70010, 0x8, 1, 48, 1, .w1c, .w, fun _ => .h, false, fun _ => 0, fun _ => none⟩
def F.FLV_UNCORR_CNT_COUNT : Field := ⟨357, 0x70010, 0x8, 1, 0, 48, .w1c, .w, fun _ => .h, false, fun _ => 0, fun _ => none⟩
def F.FLV_GROWN_CNT_SAT : Field := ⟨358, 0x70018, 0x8, 1, 48, 1, .w1c, .w, fun _ => .h, false, fun _ => 0, fun _ => none⟩
def F.FLV_GROWN_CNT_COUNT : Field := ⟨359, 0x70018, 0x8, 1, 0, 48, .w1c, .w, fun _ => .h, false, fun _ => 0, fun _ => none⟩
def F.FLV_RELOC_CNT_SAT : Field := ⟨360, 0x70020, 0x8, 1, 48, 1, .w1c, .w, fun _ => .h, false, fun _ => 0, fun _ => none⟩
def F.FLV_RELOC_CNT_COUNT : Field := ⟨361, 0x70020, 0x8, 1, 0, 48, .w1c, .w, fun _ => .h, false, fun _ => 0, fun _ => none⟩
def F.FLV_SUSPEND_CNT_SAT : Field := ⟨362, 0x70028, 0x8, 1, 48, 1, .w1c, .w, fun _ => .h, false, fun _ => 0, fun _ => none⟩
def F.FLV_SUSPEND_CNT_COUNT : Field := ⟨363, 0x70028, 0x8, 1, 0, 48, .w1c, .w, fun _ => .h, false, fun _ => 0, fun _ => none⟩
def F.DGE_STATUS_CTX_BUSY : Field := ⟨364, 0x80000, 0x8, 1, 40, 8, .ro, .n, fun _ => .h, false, fun _ => 0, fun _ => none⟩
def F.DGE_STATUS_WAITING : Field := ⟨365, 0x80000, 0x8, 1, 24, 16, .ro, .n, fun _ => .h, false, fun _ => 0, fun _ => none⟩
def F.DGE_STATUS_KAT_FAIL : Field := ⟨366, 0x80000, 0x8, 1, 3, 1, .w1c, .a, fun _ => .h, false, fun _ => 0, fun _ => none⟩
def F.DGE_STATUS_KAT_DONE : Field := ⟨367, 0x80000, 0x8, 1, 2, 1, .ro, .n, fun _ => .h, false, fun _ => 0, fun _ => none⟩
def F.DGE_STATUS_SEAL_KEY : Field := ⟨368, 0x80000, 0x8, 1, 1, 1, .ro, .n, fun _ => .h, false, fun _ => 0, fun _ => none⟩
def F.DGE_STATUS_READY : Field := ⟨369, 0x80000, 0x8, 1, 0, 1, .ro, .n, fun _ => .h, false, fun _ => 0, fun _ => none⟩
def F.DGE_KEY_ALG_SLOTS : Field := ⟨370, 0x80008, 0x8, 1, 2, 62, .ro, .w, fun _ => .h, false, fun _ => 4611686018427387903, fun _ => none⟩
def F.DGE_KEY_ALG_SLOT0 : Field := ⟨371, 0x80008, 0x8, 1, 0, 2, .ro, .n, fun _ => .h, false, fun _ => 3, fun _ => none⟩
def F.MR_VALUE : Field := ⟨372, 0x81000, 0x40, 16, 0, 512, .ro, .w, fun _ => .h, false, fun _ => 0, fun _ => none⟩
def F.MR_LOCK_LOCK : Field := ⟨373, 0x80010, 0x8, 1, 4, 12, .w1s, .w, fun _ => .h, false, fun _ => 0, fun _ => none⟩
def F.MR_LOCK_BOOT_LOCK : Field := ⟨374, 0x80010, 0x8, 1, 0, 4, .ro, .w, fun _ => .h, false, fun _ => 0, fun _ => none⟩
def F.DGE_UNIT_CNT_SAT : Field := ⟨375, 0x80018, 0x8, 1, 48, 1, .w1c, .w, fun _ => .h, false, fun _ => 0, fun _ => none⟩
def F.DGE_UNIT_CNT_COUNT : Field := ⟨376, 0x80018, 0x8, 1, 0, 48, .w1c, .w, fun _ => .h, false, fun _ => 0, fun _ => none⟩
def F.DGE_WAIT_CNT_SAT : Field := ⟨377, 0x80020, 0x8, 1, 48, 1, .w1c, .w, fun _ => .h, false, fun _ => 0, fun _ => none⟩
def F.DGE_WAIT_CNT_COUNT : Field := ⟨378, 0x80020, 0x8, 1, 0, 48, .w1c, .w, fun _ => .h, false, fun _ => 0, fun _ => none⟩
def F.FLT_CTL_LOCK : Field := ⟨379, 0x4000, 0x8, 1, 1, 1, .w1s, .w, fun _ => .g, true, fun _ => 0, fun _ => none⟩
def F.FLT_CTL_INJ_DIS : Field := ⟨380, 0x4000, 0x8, 1, 0, 1, .ro, .w, fun _ => .g, true, fun _ => 0, fun _ => some (0x47, 0)⟩
def F.FLT_STICKY_STICKY : Field := ⟨381, 0x4008, 0x8, 4, 0, 64, .w1c, .w, fun _ => .g, false, fun _ => 0, fun _ => none⟩
def F.FLT_LIVE_LIVE : Field := ⟨382, 0x4028, 0x8, 4, 0, 64, .ro, .n, fun _ => .g, false, fun _ => 0, fun _ => none⟩
def F.FLT_SRC_CFG_INJ_ARMED : Field := ⟨383, 0x5000, 0x10, 256, 31, 1, .ro, .n, fun _ => .g, false, fun _ => 0, fun _ => none⟩
def F.FLT_SRC_CFG_CLASS : Field := ⟨384, 0x5000, 0x10, 256, 28, 3, .ro, .n, fun _ => .g, false, sourceClassCode, fun _ => none⟩
def F.FLT_SRC_CFG_BLK : Field := ⟨385, 0x5000, 0x10, 256, 27, 1, .ro, .n, fun _ => .g, false, fun i => natOfBool (sourceHasBlockReset i), fun _ => none⟩
def F.FLT_SRC_CFG_MASK : Field := ⟨386, 0x5000, 0x10, 256, 0, 7, .rw, .w, fun _ => .g, false, fun i => sourceMask i, fun i => some (0x100 + 2 * i, 0)⟩
def F.FLT_SRC_COUNT_SAT : Field := ⟨387, 0x5008, 0x10, 256, 48, 1, .w1c, .w, fun _ => .g, false, fun _ => 0, fun _ => none⟩
def F.FLT_SRC_COUNT_COUNT : Field := ⟨388, 0x5008, 0x10, 256, 0, 48, .w1c, .w, fun _ => .g, false, fun _ => 0, fun _ => none⟩
def F.FLT_FIRST_RECORD : Field := ⟨389, 0x4048, 0x8, 3, 0, 64, .ro, .w, fun _ => .g, false, fun _ => 0, fun _ => none⟩
def F.FLT_FIRST3_RECORD_HI : Field := ⟨390, 0x4060, 0x8, 1, 40, 24, .ro, .w, fun _ => .g, false, fun _ => 0, fun _ => none⟩
def F.FLT_FIRST3_VALID : Field := ⟨391, 0x4060, 0x8, 1, 39, 1, .w1c, .w, fun _ => .g, false, fun _ => 0, fun _ => none⟩
def F.FLT_FIRST3_RECORD_LO : Field := ⟨392, 0x4060, 0x8, 1, 0, 39, .ro, .w, fun _ => .g, false, fun _ => 0, fun _ => none⟩
def F.FLT_HIST_W0_RECORD : Field := ⟨393, 0x6000, 0x20, 64, 0, 64, .ro, .w, fun _ => .g, false, fun _ => 0, fun _ => none⟩
def F.FLT_HIST_W1_RECORD : Field := ⟨394, 0x6008, 0x20, 64, 0, 64, .ro, .w, fun _ => .g, false, fun _ => 0, fun _ => none⟩
def F.FLT_HIST_W2_RECORD : Field := ⟨395, 0x6010, 0x20, 64, 0, 64, .ro, .w, fun _ => .g, false, fun _ => 0, fun _ => none⟩
def F.FLT_HIST_W3_RECORD : Field := ⟨396, 0x6018, 0x20, 64, 0, 64, .ro, .w, fun _ => .g, false, fun _ => 0, fun _ => none⟩
def F.FLT_HIST_PTRS_WR : Field := ⟨397, 0x4068, 0x8, 1, 16, 6, .ro, .w, fun _ => .g, false, fun _ => 0, fun _ => none⟩
def F.FLT_HIST_PTRS_SEQ : Field := ⟨398, 0x4068, 0x8, 1, 0, 16, .ro, .w, fun _ => .g, false, fun _ => 0, fun _ => none⟩
def F.FLT_HIST_SKIP_CNT_SAT : Field := ⟨399, 0x4070, 0x8, 1, 48, 1, .w1c, .w, fun _ => .g, false, fun _ => 0, fun _ => none⟩
def F.FLT_HIST_SKIP_CNT_COUNT : Field := ⟨400, 0x4070, 0x8, 1, 0, 48, .w1c, .w, fun _ => .g, false, fun _ => 0, fun _ => none⟩
def F.FLT_PERSIST_LATCHED : Field := ⟨401, 0x4078, 0x8, 1, 31, 1, .ro, .w, fun _ => .g, false, fun _ => 0, fun _ => none⟩
def F.FLT_PERSIST_SOURCE : Field := ⟨402, 0x4078, 0x8, 1, 0, 8, .ro, .w, fun _ => .g, false, fun _ => 0, fun _ => none⟩
def F.FLT_INJ_GO : Field := ⟨403, 0x4080, 0x8, 1, 16, 1, .wo, .n, fun _ => .g, true, fun _ => 0, fun _ => none⟩
def F.FLT_INJ_CHECKER : Field := ⟨404, 0x4080, 0x8, 1, 8, 8, .rw, .n, fun _ => .g, true, fun _ => 0, fun _ => none⟩
def F.FLT_INJ_SOURCE : Field := ⟨405, 0x4080, 0x8, 1, 0, 8, .rw, .n, fun _ => .g, true, fun _ => 0, fun _ => none⟩
def F.RDY_STATUS_RECOVERY : Field := ⟨406, 0x1000, 0x8, 1, 14, 1, .ro, .n, fun _ => .h, false, fun _ => 0, fun _ => none⟩
def F.RDY_STATUS_DEGRADED : Field := ⟨407, 0x1000, 0x8, 1, 13, 1, .ro, .n, fun _ => .h, false, fun _ => 0, fun _ => none⟩
def F.RDY_STATUS_LINK : Field := ⟨408, 0x1000, 0x8, 1, 12, 1, .ro, .n, fun _ => .h, false, fun _ => 0, fun _ => none⟩
def F.RDY_STATUS_CAL : Field := ⟨409, 0x1000, 0x8, 1, 11, 1, .ro, .n, fun _ => .h, false, fun _ => 0, fun _ => none⟩
def F.RDY_STATUS_FT_RUN : Field := ⟨410, 0x1000, 0x8, 1, 10, 1, .ro, .n, fun _ => .h, false, fun _ => 0, fun _ => none⟩
def F.RDY_STATUS_PAIRS : Field := ⟨411, 0x1000, 0x8, 1, 9, 1, .ro, .n, fun _ => .h, false, fun _ => 0, fun _ => none⟩
def F.RDY_STATUS_ENGINE : Field := ⟨412, 0x1000, 0x8, 1, 8, 1, .ro, .n, fun _ => .h, false, fun _ => 0, fun _ => none⟩
def F.RDY_STATUS_DRAM : Field := ⟨413, 0x1000, 0x8, 1, 7, 1, .ro, .n, fun _ => .h, false, fun _ => 0, fun _ => none⟩
def F.RDY_STATUS_FW : Field := ⟨414, 0x1000, 0x8, 1, 6, 1, .ro, .n, fun _ => .h, false, fun _ => 0, fun _ => none⟩
def F.RDY_STATUS_GRN_FULL : Field := ⟨415, 0x1000, 0x8, 1, 5, 1, .ro, .n, fun _ => .h, false, fun _ => 0, fun _ => none⟩
def F.RDY_STATUS_GRN_LAZY : Field := ⟨416, 0x1000, 0x8, 1, 4, 1, .ro, .n, fun _ => .h, false, fun _ => 0, fun _ => none⟩
def F.RDY_STATUS_DIGEST : Field := ⟨417, 0x1000, 0x8, 1, 3, 1, .ro, .n, fun _ => .h, false, fun _ => 0, fun _ => none⟩
def F.RDY_STATUS_VAULT : Field := ⟨418, 0x1000, 0x8, 1, 2, 1, .ro, .n, fun _ => .h, false, fun _ => 0, fun _ => none⟩
def F.RDY_STATUS_FAULT : Field := ⟨419, 0x1000, 0x8, 1, 1, 1, .ro, .n, fun _ => .h, false, fun _ => 0, fun _ => none⟩
def F.RDY_STATUS_MGMT : Field := ⟨420, 0x1000, 0x8, 1, 0, 1, .ro, .n, fun _ => .h, false, fun _ => 0, fun _ => none⟩
def F.RST_CAUSE_SOURCE : Field := ⟨421, 0x1008, 0x8, 1, 24, 8, .ro, .a, fun _ => .x, false, fun _ => 0, fun _ => none⟩
def F.RST_CAUSE_REQ : Field := ⟨422, 0x1008, 0x8, 1, 16, 2, .ro, .a, fun _ => .x, false, fun _ => 0, fun _ => none⟩
def F.RST_CAUSE_COUNT : Field := ⟨423, 0x1008, 0x8, 1, 8, 8, .ro, .a, fun _ => .x, false, fun _ => 0, fun _ => none⟩
def F.RST_CAUSE_KIND : Field := ⟨424, 0x1008, 0x8, 1, 0, 4, .ro, .a, fun _ => .x, false, fun _ => 0, fun _ => none⟩
def F.PWR_GATE_EN : Field := ⟨425, 0x1010, 0x8, 1, 31, 1, .rw, .w, fun _ => .fn, true, fun _ => 1, fun _ => none⟩
def F.PWR_GATE_GATED : Field := ⟨426, 0x1010, 0x8, 1, 16, 12, .ro, .n, fun _ => .fn, true, fun _ => 0, fun _ => none⟩
def F.PWR_GATE_IDLE_US : Field := ⟨427, 0x1010, 0x8, 1, 0, 10, .rw, .w, fun _ => .fn, true, fun _ => 50, fun _ => none⟩
def F.MGT_STATUS_EID : Field := ⟨428, 0x90000, 0x8, 1, 16, 8, .ro, .a, fun _ => .x, false, fun _ => 0, fun _ => none⟩
def F.MGT_STATUS_ADDR : Field := ⟨429, 0x90000, 0x8, 1, 8, 7, .ro, .a, fun _ => .x, false, fun _ => 49, fun _ => some (0x5D, 0)⟩
def F.MGT_STATUS_SPEED : Field := ⟨430, 0x90000, 0x8, 1, 1, 2, .ro, .a, fun _ => .x, false, fun _ => 0, fun _ => none⟩
def F.MGT_STATUS_ANSWERING : Field := ⟨431, 0x90000, 0x8, 1, 0, 1, .ro, .a, fun _ => .x, false, fun _ => 0, fun _ => none⟩
def F.MGT_ALERT_TEMP : Field := ⟨432, 0x90008, 0x8, 1, 3, 1, .ro, .a, fun _ => .x, false, fun _ => 0, fun _ => none⟩
def F.MGT_ALERT_READY : Field := ⟨433, 0x90008, 0x8, 1, 2, 1, .ro, .a, fun _ => .x, false, fun _ => 0, fun _ => none⟩
def F.MGT_ALERT_GRANARY : Field := ⟨434, 0x90008, 0x8, 1, 1, 1, .ro, .a, fun _ => .x, false, fun _ => 0, fun _ => none⟩
def F.MGT_ALERT_FAULT : Field := ⟨435, 0x90008, 0x8, 1, 0, 1, .ro, .a, fun _ => .x, false, fun _ => 0, fun _ => none⟩
def F.SNS_STATUS : Field := ⟨436, 0x91000, 0x8, 64, 16, 8, .ro, .n, fun _ => .x, false, fun _ => 2, fun _ => none⟩
def F.SNS_VALUE : Field := ⟨437, 0x91000, 0x8, 64, 0, 16, .ro, .n, fun _ => .x, false, fun _ => 32768, fun _ => none⟩
def F.TEL_CTL_EN : Field := ⟨438, 0x92000, 0x8, 1, 5, 1, .rw, .w, fun _ => .m, true, fun _ => 0, fun _ => none⟩
def F.TEL_CTL_SIZE_LOG : Field := ⟨439, 0x92000, 0x8, 1, 0, 5, .rw, .w, fun _ => .m, true, fun _ => 14, fun _ => none⟩
def F.TEL_RING_BASE_BASE : Field := ⟨440, 0x92008, 0x8, 1, 12, 36, .rw, .w, fun _ => .m, true, fun _ => 0, fun _ => none⟩
def F.TEL_IDX_BUSY : Field := ⟨441, 0x92010, 0x8, 1, 63, 1, .ro, .n, fun _ => .m, false, fun _ => 0, fun _ => none⟩
def F.TEL_IDX_SEQ : Field := ⟨442, 0x92010, 0x8, 1, 0, 32, .rw, .n, fun _ => .m, false, fun _ => 0, fun _ => none⟩
def F.TEL_REC_DATA : Field := ⟨443, 0x92018, 0x8, 16, 0, 64, .ro, .n, fun _ => .m, false, fun _ => 0, fun _ => none⟩
def F.TEL_SAMPLE_CNT_SAT : Field := ⟨444, 0x92098, 0x8, 1, 48, 1, .w1c, .w, fun _ => .m, false, fun _ => 0, fun _ => none⟩
def F.TEL_SAMPLE_CNT_COUNT : Field := ⟨445, 0x92098, 0x8, 1, 0, 48, .w1c, .w, fun _ => .m, false, fun _ => 0, fun _ => none⟩
def F.TEL_SKIP_CNT_SAT : Field := ⟨446, 0x920A0, 0x8, 1, 48, 1, .w1c, .w, fun _ => .m, false, fun _ => 0, fun _ => none⟩
def F.TEL_SKIP_CNT_COUNT : Field := ⟨447, 0x920A0, 0x8, 1, 0, 48, .w1c, .w, fun _ => .m, false, fun _ => 0, fun _ => none⟩

/-- Fields 0 to 29, in the order of their `id`. -/
def allFields0 : List Field :=
  [F.FT_CTL_PPS_REJ_LIM, F.FT_CTL_PPS_POL, F.FT_CTL_REF_SEL, F.FT_CTL_ARM,
   F.FT_CTL_DISARM, F.FT_STATUS_PPS_REJ_RUN, F.FT_STATUS_ARM_CAUSE, F.FT_STATUS_ARM_PEND,
   F.FT_STATUS_LOAD_DONE, F.FT_STATUS_ARM_FAIL, F.FT_STATUS_REF_LOST, F.FT_STATUS_PPS_LOST,
   F.FT_STATUS_PPS_LOCK, F.FT_STATUS_REF_OK, F.FT_STATUS_STATE, F.FT_NOW_NOW,
   F.FT_LOAD_VALUE, F.FT_PPS_ERR_ERR, F.CAL_CMD_BUSY, F.CAL_CMD_RESULT,
   F.CAL_CMD_OP, F.CAL_CMD_INDEX, F.CAL_STAGE_ENTRY, F.CAL_FREE_FREE,
   F.CAL_FIRED_CNT_SAT, F.CAL_FIRED_CNT_COUNT, F.CAL_LATE_CNT_SAT, F.CAL_LATE_CNT_COUNT,
   F.HL_CTL_LOCK, F.HL_CTL_VOL_EN]

/-- Fields 30 to 59, in the order of their `id`. -/
def allFields1 : List Field :=
  [F.HL_CTL_CXL_EN, F.HL_CTL_MAX_SPEED, F.HL_CTL_MAX_WIDTH, F.HL_STATUS_HDM1_COMMIT,
   F.HL_STATUS_HDM0_COMMIT, F.HL_STATUS_CREDIT_HELD, F.HL_STATUS_INGRESS_CLOSED, F.HL_STATUS_MODE,
   F.HL_STATUS_SPEED, F.HL_STATUS_WIDTH, F.HL_STATUS_LINK_UP, F.HL_THROTTLE_CNT_SAT,
   F.HL_THROTTLE_CNT_COUNT, F.ADM_DOORBELL_GO, F.ADM_STATUS_OVERRUN, F.ADM_STATUS_DONE,
   F.ADM_STATUS_BUSY, F.ADM_STATUS_READY, F.ADM_CMD_CMD, F.ADM_CPL_CPL,
   F.ADM_DATA_DATA, F.MBX_PTRS_TAIL, F.MBX_PTRS_LIMIT, F.MBX_PTRS_HEAD,
   F.MBX_PTRS_CQ_TAIL, F.MBX_STATE_EXP_SEQ, F.MBX_STATE_INFLIGHT, F.MBX_STATE_WINDOW,
   F.MBX_STATE_CLASS, F.MBX_STATE_CTX]

/-- Fields 60 to 89, in the order of their `id`. -/
def allFields2 : List Field :=
  [F.MBX_STATE_ERR_CAUSE, F.MBX_STATE_STATE, F.MBX_HOLD_CNT_SAT, F.MBX_HOLD_CNT_COUNT,
   F.CBV_CTL_LOCK, F.CBV_CTL_CRC_REQ, F.CBV_LAST_ERR_OFFSET, F.CBV_LAST_ERR_ORIGIN,
   F.CBV_LAST_ERR_DETAIL, F.CBV_LAST_ERR_CODE, F.CBV_CHECKED_CNT_SAT, F.CBV_CHECKED_CNT_COUNT,
   F.CBV_REJECT_CNT_SAT, F.CBV_REJECT_CNT_COUNT, F.POOL_CTL_SYS_RESERVE, F.POOL_STATUS_RESV_TOTAL,
   F.POOL_STATUS_BORROWED, F.POOL_STATUS_BORROW_FREE, F.POOL_WAIT_CNT_SAT, F.POOL_WAIT_CNT_COUNT,
   F.PLN_STATE_HANDLE, F.PLN_STATE_FLOW_BASE, F.PLN_STATE_RESV, F.PLN_STATE_HELD,
   F.PLN_STATE_CLASS, F.PLN_STATE_STATE, F.CUL_STATE_PLAN, F.CUL_STATE_VALID,
   F.CUL_STATE_QUEUED, F.CUL_STATE_BORROWED]

/-- Fields 90 to 119, in the order of their `id`. -/
def allFields3 : List Field :=
  [F.CUL_STATE_HELD, F.TIL_STATUS_FLOW, F.TIL_STATUS_PLAN, F.TIL_STATUS_OP,
   F.TIL_STATUS_STATE, F.OPR_LAST_ERR_ROW, F.OPR_LAST_ERR_TILLER, F.OPR_LAST_ERR_DETAIL,
   F.OPR_LAST_ERR_CODE, F.TIL_BUSY_CNT_SAT, F.TIL_BUSY_CNT_COUNT, F.OPR_LATE_CNT_SAT,
   F.OPR_LATE_CNT_COUNT, F.OPR_NULLED_CNT_SAT, F.OPR_NULLED_CNT_COUNT, F.OPR_SPILL_CNT_SAT,
   F.OPR_SPILL_CNT_COUNT, F.SCH_CTL_STARVE_MS, F.SCH_CTL_PREEMPT_EN, F.SCH_STATUS_QUOTA_WAIT,
   F.SCH_STATUS_SPILL_USED, F.SCH_STATUS_FREE_SLOTS, F.SCH_STATUS_RUNNING, F.SCH_SPILL_BASE_BASE,
   F.SCH_SPILL_SIZE_MIB, F.SCH_TRACE_BASE_BASE, F.SCH_TRACE_CTL_EVENTS, F.SCH_TRACE_CTL_EN,
   F.SCH_TRACE_CTL_WRAP, F.SCH_TRACE_CTL_SIZE_LOG]

/-- Fields 120 to 149, in the order of their `id`. -/
def allFields4 : List Field :=
  [F.SCH_TRACE_PTRS_RD, F.SCH_TRACE_PTRS_WR, F.SCH_HELD_FIND_PLAN, F.SCH_HELD_FIND_FROM,
   F.SCH_HELD_FLOW_BUSY, F.SCH_HELD_FLOW_FOUND, F.SCH_HELD_FLOW_FLOW, F.SCH_HELD_ERR_ERR,
   F.NODE_CFG_VALID, F.NODE_CFG_VIEW, F.NODE_CFG_LEVEL, F.NODE_CFG_PARENT,
   F.NODE_CFG_TILLERS, F.NODE_CFG_LIVE, F.NODE_CFG_FIRST_TILLER, F.NODE_CFG_PLANS,
   F.NODE_CAPS_CAPS, F.NODE_THRU_SCRATCH_MIB, F.NODE_THRU_MERGE_IN, F.NODE_THRU_HASH,
   F.NODE_THRU_LANES, F.NODE_THRU_DECODE, F.NODE_READY_URGENT, F.NODE_READY_INGEST,
   F.NODE_READY_QUERY, F.NODE_READY_BULK, F.SCH_DISPATCH_CNT_SAT, F.SCH_DISPATCH_CNT_COUNT,
   F.SCH_PREEMPT_CNT_SAT, F.SCH_PREEMPT_CNT_COUNT]

/-- Fields 150 to 179, in the order of their `id`. -/
def allFields5 : List Field :=
  [F.SCH_PROMOTE_CNT_SAT, F.SCH_PROMOTE_CNT_COUNT, F.SCH_SPILL_CNT_SAT, F.SCH_SPILL_CNT_COUNT,
   F.SCH_QUOTA_WAIT_CNT_SAT, F.SCH_QUOTA_WAIT_CNT_COUNT, F.SCH_TRACE_DROP_CNT_SAT, F.SCH_TRACE_DROP_CNT_COUNT,
   F.CTX_CFG_EN, F.CTX_CFG_PASID_EN, F.CTX_CFG_PRI_EN, F.CTX_CFG_PASID,
   F.CTX_STATUS_PARKED, F.CTX_STATUS_PRG, F.CTX_STATUS_USERS, F.TLU_CTL_PRI_TO_MS,
   F.TLU_CTL_ATS_USE, F.TLU_STATUS_READS, F.TLU_STATUS_PRG, F.TLU_STATUS_TAG10,
   F.TLU_STATUS_ATS_ON, F.TLU_STATUS_PRI_STOPPED, F.TLU_STATUS_RESTORING, F.TLU_DPT_ROOT_ROOT,
   F.TLU_ENGINE_SIZE_MIB, F.TLU_INVAL_START, F.TLU_INVAL_PAGES_LOG, F.TLU_INVAL_BUSY,
   F.TLU_INVAL_KIND, F.TLU_FAULT_ADDR_KIND]

/-- Fields 180 to 209, in the order of their `id`. -/
def allFields6 : List Field :=
  [F.TLU_FAULT_ADDR_GRANARY, F.TLU_FAULT_ADDR_CTX, F.TLU_FAULT_ADDR_ADDR, F.TLU_MISS_CNT_SAT,
   F.TLU_MISS_CNT_COUNT, F.TLU_PRI_CNT_SAT, F.TLU_PRI_CNT_COUNT, F.TLU_UNRESTORED_CNT_SAT,
   F.TLU_UNRESTORED_CNT_COUNT, F.TLU_INVAL_CNT_SAT, F.TLU_INVAL_CNT_COUNT, F.DMC_CHCFG_SPEED,
   F.DMC_CHCFG_SPARE_EN, F.DMC_CHCFG_DPC, F.DMC_CHCFG_RPD, F.DMC_CHCFG_DENSITY,
   F.DMC_CHCFG_ACTIVE_RANKS, F.DMC_CHCFG_PHYS_RANKS, F.DMC_CHCFG_STATE, F.DMC_RANKCFG_RANK3,
   F.DMC_RANKCFG_RANK2, F.DMC_RANKCFG_RANK1, F.DMC_RANKCFG_RANK0, F.DMC_ARBCFG_AGE_NS,
   F.DMC_ARBCFG_OPEN_TO, F.DMC_ARBCFG_DEF_POLICY, F.DMC_REFCFG_NR_THRESH, F.DMC_REFCFG_NR_K,
   F.DMC_REFCFG_POSTPONE_EN, F.DMC_REFCFG_HOT]

/-- Fields 210 to 239, in the order of their `id`. -/
def allFields7 : List Field :=
  [F.DMC_PWRCFG_SR_US, F.DMC_PWRCFG_PD_NS, F.DMC_STATUS_TEMP_MAX, F.DMC_STATUS_SR,
   F.DMC_STATUS_PD, F.DMC_STATUS_RETRAINING, F.DMC_STATUS_MIGRATING, F.DMC_STATUS_HOT,
   F.DMC_STATUS_GRANARY, F.DMC_TEMP_DIMM1, F.DMC_TEMP_DIMM0, F.DMC_CMD_RANK,
   F.DMC_CMD_RETIRE, F.DMC_CMD_RETRAIN, F.DMC_MIGRATE_ACTIVE, F.DMC_MIGRATE_PAUSED,
   F.DMC_MIGRATE_FROM, F.DMC_MIGRATE_TO, F.DMC_MIGRATE_UNIT, F.DMC_SCRUBCFG_LINES,
   F.DMC_SCRUBPOS_PASSES, F.DMC_SCRUBPOS_LINE, F.DMC_ERRLOG_TYPE, F.DMC_ERRLOG_RANK,
   F.DMC_ERRLOG_SUBCH, F.DMC_ERRLOG_DEVICE, F.DMC_ERRLOG_BG, F.DMC_ERRLOG_BANK,
   F.DMC_ERRLOG_ROW, F.DMC_ERRLOG_COL]

/-- Fields 240 to 269, in the order of their `id`. -/
def allFields8 : List Field :=
  [F.DMC_ERRLOG_PATROL, F.DMC_ERRADDR_DPA, F.DMC_CE_CNT_SAT, F.DMC_CE_CNT_COUNT,
   F.DMC_UE_CNT_SAT, F.DMC_UE_CNT_COUNT, F.DMC_CAPAR_CNT_SAT, F.DMC_CAPAR_CNT_COUNT,
   F.DMC_NR_CNT_SAT, F.DMC_NR_CNT_COUNT, F.DMC_PROMOTE_CNT_SAT, F.DMC_PROMOTE_CNT_COUNT,
   F.DMC_RETRAIN_CNT_SAT, F.DMC_RETRAIN_CNT_COUNT, F.DMC_RMW_LOST_CNT_SAT, F.DMC_RMW_LOST_CNT_COUNT,
   F.IVS_BASE_GIB, F.IVS_SIZE_GIB, F.IVS_CFG_CHLIST, F.IVS_CFG_CH_BASE,
   F.IVS_CFG_GRAIN_LOG, F.IVS_CFG_WAYS, F.IVS_CFG_STATE, F.IVS_CFG_DEGRADED_OK,
   F.IVS_CFG_VOL, F.IVS_CFG_GRANARY, F.IVS_CFG_LOCK, F.IVS_CFG_FAILED,
   F.IVS_CFG_VALID, F.GRN_STATE_RESTORE_PCT]

/-- Fields 270 to 299, in the order of their `id`. -/
def allFields9 : List Field :=
  [F.GRN_STATE_DELTAS, F.GRN_STATE_BASE_SLOT, F.GRN_STATE_LOSS, F.GRN_STATE_REFUSED,
   F.GRN_STATE_THROTTLE, F.GRN_STATE_HOLD_RETURN, F.GRN_STATE_REQ_SRC, F.GRN_STATE_CAUSE,
   F.GRN_STATE_STATE, F.GRN_WINDOW_MIB, F.GRN_LOSS_UNSEALED, F.GRN_LOSS_SEGMENT,
   F.GRN_LOSS_PAGE, F.GRN_LOSS_CHANNEL, F.GRN_LOSS_PAGES, F.GRN_LOSS_FIRST_PAGE,
   F.GOV_STATUS_THROTTLE, F.GOV_STATUS_HIGH, F.GOV_STATUS_SENSE_BAD, F.GOV_STATUS_BUDGET_MIB,
   F.GOV_STATUS_DIRTY_MIB, F.GOV_CFG_E_RESERVE_J, F.GOV_CFG_DERATE, F.GOV_CFG_WIN_HI_PCT,
   F.GOV_CFG_WIN_RATE, F.GOV_CFG_DELTA_LIMIT_GIB, F.GOV_CFG_CEILING_GIB, F.BANK_CFG_LOCK,
   F.BANK_CFG_ETA_PCT, F.BANK_CFG_SENSE_DIV]

/-- Fields 300 to 329, in the order of their `id`. -/
def allFields10 : List Field :=
  [F.BANK_CFG_I_TEST, F.BANK_CFG_V_MIN, F.BANK_CFG_C_NOM, F.BANK_STATUS_MEAS_VALID,
   F.BANK_STATUS_MEAS_FAIL, F.BANK_STATUS_TESTING, F.BANK_STATUS_ESR_MOHM, F.BANK_STATUS_C_MEAS,
   F.BANK_STATUS_V_BANK, F.BANK_ENERGY_E_USABLE_J, F.WIN_STATUS_REBASE, F.WIN_STATUS_IN_FLIGHT,
   F.WIN_STATUS_REBASE_SEG, F.WIN_STATUS_POS, F.VLT_CHAIN_GEN, F.VLT_CHAIN_FREE_GIB,
   F.VLT_CHAIN_DELTA_GIB, F.RST_STATUS_UNRESTORED, F.RST_STATUS_PENDING, F.GRN_THROTTLE_CNT_SAT,
   F.GRN_THROTTLE_CNT_COUNT, F.WIN_COPY_CNT_SAT, F.WIN_COPY_CNT_COUNT, F.WIN_REDIRTY_CNT_SAT,
   F.WIN_REDIRTY_CNT_COUNT, F.RST_FETCH_CNT_SAT, F.RST_FETCH_CNT_COUNT, F.GRN_DUMP_CNT_SAT,
   F.GRN_DUMP_CNT_COUNT, F.FLC_TIMING_WAIT]

/-- Fields 330 to 359, in the order of their `id`. -/
def allFields11 : List Field :=
  [F.FLC_TIMING_MTS, F.FLC_VERIFY_ERS_LOOPS, F.FLC_VERIFY_PGM_LOOPS, F.FLC_STATUS_SUSP,
   F.FLC_STATUS_BUSY, F.FLC_STATUS_TIMEOUT, F.FLC_STATUS_SPARES_MIN, F.FLQ_CFG_EN,
   F.FLQ_CFG_SIZE_LOG, F.FLQ_SQ_BASE_BASE, F.FLQ_CQ_BASE_BASE, F.FLQ_PTRS_CQ_HEAD,
   F.FLQ_PTRS_CQ_TAIL, F.FLQ_PTRS_TAIL, F.FLQ_PTRS_HEAD, F.FLV_CTL_RD_LIMIT,
   F.FLV_CTL_WL_GAP, F.FLV_CTL_RELOC_BITS, F.FLV_CTL_RETRY_MAX, F.FLV_CTL_MIN_RUN_US,
   F.FLV_STATUS_OPT_GEN, F.FLV_STATUS_VCCQ_LOW, F.FLV_STATUS_OPT_COPY, F.FLV_STATUS_OPT_DAMAGED,
   F.FLV_STATUS_JRNL_DAMAGED, F.FLV_STATUS_INCOMPLETE, F.FLV_UNCORR_CNT_SAT, F.FLV_UNCORR_CNT_COUNT,
   F.FLV_GROWN_CNT_SAT, F.FLV_GROWN_CNT_COUNT]

/-- Fields 360 to 389, in the order of their `id`. -/
def allFields12 : List Field :=
  [F.FLV_RELOC_CNT_SAT, F.FLV_RELOC_CNT_COUNT, F.FLV_SUSPEND_CNT_SAT, F.FLV_SUSPEND_CNT_COUNT,
   F.DGE_STATUS_CTX_BUSY, F.DGE_STATUS_WAITING, F.DGE_STATUS_KAT_FAIL, F.DGE_STATUS_KAT_DONE,
   F.DGE_STATUS_SEAL_KEY, F.DGE_STATUS_READY, F.DGE_KEY_ALG_SLOTS, F.DGE_KEY_ALG_SLOT0,
   F.MR_VALUE, F.MR_LOCK_LOCK, F.MR_LOCK_BOOT_LOCK, F.DGE_UNIT_CNT_SAT,
   F.DGE_UNIT_CNT_COUNT, F.DGE_WAIT_CNT_SAT, F.DGE_WAIT_CNT_COUNT, F.FLT_CTL_LOCK,
   F.FLT_CTL_INJ_DIS, F.FLT_STICKY_STICKY, F.FLT_LIVE_LIVE, F.FLT_SRC_CFG_INJ_ARMED,
   F.FLT_SRC_CFG_CLASS, F.FLT_SRC_CFG_BLK, F.FLT_SRC_CFG_MASK, F.FLT_SRC_COUNT_SAT,
   F.FLT_SRC_COUNT_COUNT, F.FLT_FIRST_RECORD]

/-- Fields 390 to 419, in the order of their `id`. -/
def allFields13 : List Field :=
  [F.FLT_FIRST3_RECORD_HI, F.FLT_FIRST3_VALID, F.FLT_FIRST3_RECORD_LO, F.FLT_HIST_W0_RECORD,
   F.FLT_HIST_W1_RECORD, F.FLT_HIST_W2_RECORD, F.FLT_HIST_W3_RECORD, F.FLT_HIST_PTRS_WR,
   F.FLT_HIST_PTRS_SEQ, F.FLT_HIST_SKIP_CNT_SAT, F.FLT_HIST_SKIP_CNT_COUNT, F.FLT_PERSIST_LATCHED,
   F.FLT_PERSIST_SOURCE, F.FLT_INJ_GO, F.FLT_INJ_CHECKER, F.FLT_INJ_SOURCE,
   F.RDY_STATUS_RECOVERY, F.RDY_STATUS_DEGRADED, F.RDY_STATUS_LINK, F.RDY_STATUS_CAL,
   F.RDY_STATUS_FT_RUN, F.RDY_STATUS_PAIRS, F.RDY_STATUS_ENGINE, F.RDY_STATUS_DRAM,
   F.RDY_STATUS_FW, F.RDY_STATUS_GRN_FULL, F.RDY_STATUS_GRN_LAZY, F.RDY_STATUS_DIGEST,
   F.RDY_STATUS_VAULT, F.RDY_STATUS_FAULT]

/-- Fields 420 to 447, in the order of their `id`. -/
def allFields14 : List Field :=
  [F.RDY_STATUS_MGMT, F.RST_CAUSE_SOURCE, F.RST_CAUSE_REQ, F.RST_CAUSE_COUNT,
   F.RST_CAUSE_KIND, F.PWR_GATE_EN, F.PWR_GATE_GATED, F.PWR_GATE_IDLE_US,
   F.MGT_STATUS_EID, F.MGT_STATUS_ADDR, F.MGT_STATUS_SPEED, F.MGT_STATUS_ANSWERING,
   F.MGT_ALERT_TEMP, F.MGT_ALERT_READY, F.MGT_ALERT_GRANARY, F.MGT_ALERT_FAULT,
   F.SNS_STATUS, F.SNS_VALUE, F.TEL_CTL_EN, F.TEL_CTL_SIZE_LOG,
   F.TEL_RING_BASE_BASE, F.TEL_IDX_BUSY, F.TEL_IDX_SEQ, F.TEL_REC_DATA,
   F.TEL_SAMPLE_CNT_SAT, F.TEL_SAMPLE_CNT_COUNT, F.TEL_SKIP_CNT_SAT, F.TEL_SKIP_CNT_COUNT]

/-- Every field, in the order of its `id`. -/
def allFields : List Field :=
  allFields0 ++ allFields1 ++ allFields2 ++ allFields3 ++ allFields4 ++ allFields5 ++ allFields6 ++ allFields7 ++ allFields8 ++ allFields9 ++ allFields10 ++ allFields11 ++ allFields12 ++ allFields13 ++ allFields14

end Sys2Proof.Machine
end

