-- ==== Sys2Proof/Machine/PageSet.lean ====
section
/-!
DEFINITION. Sets of natural numbers as rising, disjoint half-open intervals: the dirty map and the restore map hold
one bit per window page (R346, R371), up to 268,435,456 of them.
-/

namespace Sys2Proof.Machine

/-- A set of pages: intervals [lo, hi), rising, disjoint and not adjacent. -/
abbrev PageSet := List (Nat × Nat)

/-- Whether a page is in the set. -/
def PageSet.mem (s : PageSet) (p : Nat) : Bool := s.any (fun i => decide (i.1 ≤ p) && decide (p < i.2))

/-- Adds every page of [lo, hi), joining what it meets. -/
def PageSet.insertRange : PageSet → Nat → Nat → PageSet
  | [], lo, hi => [(lo, hi)]
  | (a, b) :: rest, lo, hi =>
    if b < lo then (a, b) :: PageSet.insertRange rest lo hi
    else if hi < a then (lo, hi) :: (a, b) :: rest
    else PageSet.insertRange rest (min a lo) (max b hi)

/-- Adds one page. -/
def PageSet.insert (s : PageSet) (p : Nat) : PageSet := s.insertRange p (p + 1)

/-- The pieces of one interval outside [lo, hi). -/
def PageSet.cut (i : Nat × Nat) (lo hi : Nat) : PageSet :=
  (if i.1 < lo then [(i.1, min i.2 lo)] else []) ++ (if hi < i.2 then [(max i.1 hi, i.2)] else [])

/-- Removes every page of [lo, hi). -/
def PageSet.eraseRange (s : PageSet) (lo hi : Nat) : PageSet := s.flatMap (fun i => PageSet.cut i lo hi)

/-- Removes one page. -/
def PageSet.erase (s : PageSet) (p : Nat) : PageSet := s.eraseRange p (p + 1)

/-- How many pages the set holds. -/
def PageSet.count (s : PageSet) : Nat := s.foldl (fun n i => n + (i.2 - i.1)) 0

/-- The least page of the set at or above `from`. -/
def PageSet.firstFrom : PageSet → Nat → Option Nat
  | [], _ => none
  | (a, b) :: rest, p => if p < b then some (max a p) else PageSet.firstFrom rest p

/-- Every page below `n`. -/
def PageSet.full (n : Nat) : PageSet := if n = 0 then [] else [(0, n)]

end Sys2Proof.Machine
end

