-- ==== Sys2Proof/Machine/Floats.lean ====
section
/-!
DEFINITION. IEEE 754 binary32 and binary64 arithmetic with round-to-nearest-even (R205, R214): operands are decoded to
exact numbers, the result is computed exactly and rounded once. A pattern is a natural number of the format's width.
-/

namespace Sys2Proof.Machine

/-- A binary format: exponent bits and fraction bits. -/
structure FloatFmt where
  eb : Nat
  mb : Nat
  deriving DecidableEq, Repr

/-- binary32. -/
def f32 : FloatFmt := ⟨8, 23⟩
/-- binary64. -/
def f64 : FloatFmt := ⟨11, 52⟩

/-- The exponent bias. -/
def FloatFmt.bias (f : FloatFmt) : Nat := 2 ^ (f.eb - 1) - 1

/-- A decoded float: not a number, an infinity, or sign, integer significand and power of two. -/
inductive FloatVal where
  | nan
  | inf (neg : Bool)
  | fin (neg : Bool) (mant : Nat) (exp : Int)
  deriving DecidableEq, Repr

/-- The sign bit of a pattern. -/
def FloatFmt.neg (f : FloatFmt) (p : Nat) : Bool := bitOf p (f.eb + f.mb)

/-- The pattern without its sign. -/
def FloatFmt.mag (f : FloatFmt) (p : Nat) : Nat := p % 2 ^ (f.eb + f.mb)

/-- The magnitude of the infinities. -/
def FloatFmt.infMag (f : FloatFmt) : Nat := (2 ^ f.eb - 1) * 2 ^ f.mb

/-- Whether a pattern is a NaN. -/
def FloatFmt.isNan (f : FloatFmt) (p : Nat) : Bool := decide (f.infMag < f.mag p)

/-- Decodes a pattern. -/
def FloatFmt.decode (f : FloatFmt) (p : Nat) : FloatVal :=
  let e := f.mag p / 2 ^ f.mb
  let m := p % 2 ^ f.mb
  if e = 2 ^ f.eb - 1 then (if m = 0 then .inf (f.neg p) else .nan)
  else if e = 0 then .fin (f.neg p) m (1 - f.bias - f.mb)
  else .fin (f.neg p) (2 ^ f.mb + m) (e - f.bias - f.mb)

/-- A magnitude with a sign. -/
def FloatFmt.sign (f : FloatFmt) (neg : Bool) (mag : Nat) : Nat := mag + if neg then 2 ^ (f.eb + f.mb) else 0

/-- Rounds a quotient to the nearest integer, ties to even. -/
def roundEven (num den : Nat) : Nat :=
  let q := num / den
  let r := num % den
  if 2 * r < den then q else if den < 2 * r then q + 1 else q + q % 2

/-- A power of two as a fraction: numerator and denominator. -/
def pow2Frac (e : Int) : Nat × Nat := (2 ^ e.toNat, 2 ^ (-e).toNat)

/-- The exponent E with 2^E ≤ num / den < 2^(E + 1), for a positive quotient. -/
def floorLog2 (num den : Nat) : Int :=
  let k : Int := (num.log2 : Int) - den.log2
  let p := pow2Frac k
  if den * p.1 ≤ num * p.2 then k else k - 1

/-- The pattern nearest to the quotient num / den, ties to even; overflow gives an infinity. -/
def FloatFmt.round (f : FloatFmt) (neg : Bool) (num den : Nat) : Nat :=
  if num = 0 then f.sign neg 0
  else
    let e := floorLog2 num den
    let emin : Int := 1 - f.bias
    let p := pow2Frac (max e emin - f.mb)
    let q := roundEven (num * p.2) (den * p.1)
    let mag := if emin ≤ e then (e - emin).toNat * 2 ^ f.mb + q else q
    f.sign neg (min mag f.infMag)

/-- Rounds mant * 2^exp. -/
def FloatFmt.roundScaled (f : FloatFmt) (neg : Bool) (mant : Nat) (exp : Int) : Nat :=
  let p := pow2Frac exp
  f.round neg (mant * p.1) p.2

/-- Rounds an integer (R214, R222). -/
def FloatFmt.ofInt (f : FloatFmt) (i : Int) : Nat := f.round (decide (i < 0)) i.natAbs 1

/-- A NaN result: IEEE 754 fixes that it is quiet, and leaves its sign and payload open. -/
def FloatFmt.nanOf (f : FloatFmt) (a b : Nat) : Nat :=
  let x := Config.nanBits a b
  f.sign (bitOf x 0) (f.infMag + 2 ^ (f.mb - 1) + x / 2 % 2 ^ (f.mb - 1))

/-- The exact sum of two finite values as sign, magnitude and exponent. -/
def addExact (n1 : Bool) (m1 : Nat) (e1 : Int) (n2 : Bool) (m2 : Nat) (e2 : Int) : Bool × Nat × Int :=
  let e := min e1 e2
  let term := fun (n : Bool) (m : Nat) (x : Int) =>
    let v : Int := ((m * 2 ^ (x - e).toNat : Nat) : Int)
    if n then -v else v
  let t := term n1 m1 e1 + term n2 m2 e2
  if t = 0 then (n1 && n2, 0, e) else (decide (t < 0), t.natAbs, e)

/-- Addition. -/
def FloatFmt.add (f : FloatFmt) (a b : Nat) : Nat :=
  match f.decode a, f.decode b with
  | .nan, _ => f.nanOf a b
  | _, .nan => f.nanOf a b
  | .inf x, .inf y => if x = y then a else f.nanOf a b
  | .inf _, _ => a
  | _, .inf _ => b
  | .fin n1 m1 e1, .fin n2 m2 e2 =>
    let t := addExact n1 m1 e1 n2 m2 e2
    f.roundScaled t.1 t.2.1 t.2.2

/-- The pattern with its sign turned. -/
def FloatFmt.negate (f : FloatFmt) (a : Nat) : Nat := f.sign (!f.neg a) (f.mag a)

/-- Subtraction. -/
def FloatFmt.sub (f : FloatFmt) (a b : Nat) : Nat := if f.isNan b then f.nanOf a b else f.add a (f.negate b)

/-- Multiplication. -/
def FloatFmt.mul (f : FloatFmt) (a b : Nat) : Nat :=
  let neg := f.neg a != f.neg b
  match f.decode a, f.decode b with
  | .nan, _ => f.nanOf a b
  | _, .nan => f.nanOf a b
  | .inf _, .fin _ 0 _ => f.nanOf a b
  | .fin _ 0 _, .inf _ => f.nanOf a b
  | .inf _, _ => f.sign neg f.infMag
  | _, .inf _ => f.sign neg f.infMag
  | .fin _ m1 e1, .fin _ m2 e2 => f.roundScaled neg (m1 * m2) (e1 + e2)

/-- Division: a finite value other than zero by zero gives an infinity. -/
def FloatFmt.div (f : FloatFmt) (a b : Nat) : Nat :=
  let neg := f.neg a != f.neg b
  match f.decode a, f.decode b with
  | .nan, _ => f.nanOf a b
  | _, .nan => f.nanOf a b
  | .inf _, .inf _ => f.nanOf a b
  | .inf _, _ => f.sign neg f.infMag
  | _, .inf _ => f.sign neg 0
  | .fin _ m1 e1, .fin _ m2 e2 =>
    if m2 = 0 then (if m1 = 0 then f.nanOf a b else f.sign neg f.infMag)
    else
      let p := pow2Frac (e1 - e2)
      f.round neg (m1 * p.1) (m2 * p.2)

/-- Conversion between the formats. -/
def FloatFmt.convert (f g : FloatFmt) (a : Nat) : Nat :=
  match f.decode a with
  | .nan => g.nanOf a a
  | .inf n => g.sign n g.infMag
  | .fin n m e => g.roundScaled n m e

/-- The order of R203 as an integer: the zeros are equal, every NaN is equal to every other and above all else. -/
def FloatFmt.key (f : FloatFmt) (p : Nat) : Int :=
  if f.isNan p then (f.infMag + 1 : Nat)
  else if f.neg p then -(f.mag p : Int) else (f.mag p : Int)

/-- A finite value as a fraction with sign; none for an infinity or a NaN. -/
def FloatFmt.frac (f : FloatFmt) (p : Nat) : Option (Bool × Nat × Nat) :=
  match f.decode p with
  | .fin n m e =>
    let q := pow2Frac e
    some (n, m * q.1, q.2)
  | _ => none

/-- Rounds a quotient half away from zero (R214). -/
def roundHalfAway (num den : Nat) : Nat := (2 * num + den) / (2 * den)

end Sys2Proof.Machine
end

