-- ==== Sys2Proof/Machine/Sha.lean ====
section
/-!
DEFINITION. The digest algorithms of R414: SHA-256, SHA-384 and SHA-512 (FIPS 180-4) and HMAC over each (FIPS 198-1),
on byte strings, with the chaining value kept between blocks so that a message can be hashed unit by unit (R416);
and the CRC-32C of R129. FIPS constants are PRESUMED (log entry 6): the manual names the standard.
-/

namespace Sys2Proof.Machine

/-- The algorithms of R414, by their codes: 0 SHA-256, 1 SHA-384, 2 SHA-512. -/
inductive ShaAlg where
  | sha256
  | sha384
  | sha512
  deriving DecidableEq, Repr

/-- The algorithm of a code. -/
def ShaAlg.ofCode : Nat → Option ShaAlg
  | 0 => some .sha256
  | 1 => some .sha384
  | 2 => some .sha512
  | _ => none

/-- The code of an algorithm. -/
def ShaAlg.code : ShaAlg → Nat
  | .sha256 => 0
  | .sha384 => 1
  | .sha512 => 2

/-- Bits of a word. -/
def ShaAlg.width : ShaAlg → Nat
  | .sha256 => 32
  | _ => 64

/-- Bytes of a block: 16 words. -/
def ShaAlg.block (a : ShaAlg) : Nat := 2 * a.width

/-- Bytes of the value (R415). -/
def ShaAlg.outLen : ShaAlg → Nat
  | .sha256 => 32
  | .sha384 => 48
  | .sha512 => 64

/-- Round constants, part 1 of 4. -/
def shaK0 : List Nat :=
  [0x428A2F98D728AE22, 0x7137449123EF65CD, 0xB5C0FBCFEC4D3B2F, 0xE9B5DBA58189DBBC,
   0x3956C25BF348B538, 0x59F111F1B605D019, 0x923F82A4AF194F9B, 0xAB1C5ED5DA6D8118,
   0xD807AA98A3030242, 0x12835B0145706FBE, 0x243185BE4EE4B28C, 0x550C7DC3D5FFB4E2,
   0x72BE5D74F27B896F, 0x80DEB1FE3B1696B1, 0x9BDC06A725C71235, 0xC19BF174CF692694,
   0xE49B69C19EF14AD2, 0xEFBE4786384F25E3, 0x0FC19DC68B8CD5B5, 0x240CA1CC77AC9C65]

/-- Round constants, part 2 of 4. -/
def shaK1 : List Nat :=
  [0x2DE92C6F592B0275, 0x4A7484AA6EA6E483, 0x5CB0A9DCBD41FBD4, 0x76F988DA831153B5,
   0x983E5152EE66DFAB, 0xA831C66D2DB43210, 0xB00327C898FB213F, 0xBF597FC7BEEF0EE4,
   0xC6E00BF33DA88FC2, 0xD5A79147930AA725, 0x06CA6351E003826F, 0x142929670A0E6E70,
   0x27B70A8546D22FFC, 0x2E1B21385C26C926, 0x4D2C6DFC5AC42AED, 0x53380D139D95B3DF,
   0x650A73548BAF63DE, 0x766A0ABB3C77B2A8, 0x81C2C92E47EDAEE6, 0x92722C851482353B]

/-- Round constants, part 3 of 4. -/
def shaK2 : List Nat :=
  [0xA2BFE8A14CF10364, 0xA81A664BBC423001, 0xC24B8B70D0F89791, 0xC76C51A30654BE30,
   0xD192E819D6EF5218, 0xD69906245565A910, 0xF40E35855771202A, 0x106AA07032BBD1B8,
   0x19A4C116B8D2D0C8, 0x1E376C085141AB53, 0x2748774CDF8EEB99, 0x34B0BCB5E19B48A8,
   0x391C0CB3C5C95A63, 0x4ED8AA4AE3418ACB, 0x5B9CCA4F7763E373, 0x682E6FF3D6B2B8A3,
   0x748F82EE5DEFB2FC, 0x78A5636F43172F60, 0x84C87814A1F0AB72, 0x8CC702081A6439EC]

/-- Round constants, part 4 of 4. -/
def shaK3 : List Nat :=
  [0x90BEFFFA23631E28, 0xA4506CEBDE82BDE9, 0xBEF9A3F7B2C67915, 0xC67178F2E372532B,
   0xCA273ECEEA26619C, 0xD186B8C721C0C207, 0xEADA7DD6CDE0EB1E, 0xF57D4F7FEE6ED178,
   0x06F067AA72176FBA, 0x0A637DC5A2C898A6, 0x113F9804BEF90DAE, 0x1B710B35131C471B,
   0x28DB77F523047D84, 0x32CAAB7B40C72493, 0x3C9EBE0A15C9BEBC, 0x431D67C49C100D4C,
   0x4CC5D4BECB3E42B6, 0x597F299CFC657E2A, 0x5FCB6FAB3AD6FAEC, 0x6C44198C4A475817]

/-- The 80 round constants of 64 bits; SHA-256 takes the high halves of the first 64. -/
def shaK : List Nat := shaK0 ++ shaK1 ++ shaK2 ++ shaK3

/-- Initial value of SHA-512; the high halves are that of SHA-256. -/
def shaH512 : List Nat :=
  [0x6A09E667F3BCC908, 0xBB67AE8584CAA73B, 0x3C6EF372FE94F82B, 0xA54FF53A5F1D36F1,
   0x510E527FADE682D1, 0x9B05688C2B3E6C1F, 0x1F83D9ABFB41BD6B, 0x5BE0CD19137E2179]

/-- Initial value of SHA-384. -/
def shaH384 : List Nat :=
  [0xCBBB9D5DC1059ED8, 0x629A292A367CD507, 0x9159015A3070DD17, 0x152FECD8F70E5939,
   0x67332667FFC00B31, 0x8EB44A8768581511, 0xDB0C2E0D64F98FA7, 0x47B5481DBEFA4FA4]

/-- The round constants of an algorithm. -/
def ShaAlg.constants : ShaAlg → List Nat
  | .sha256 => (shaK.take 64).map (· / 2 ^ 32)
  | _ => shaK

/-- The initial chaining value. -/
def ShaAlg.init : ShaAlg → List Nat
  | .sha256 => shaH512.map (· / 2 ^ 32)
  | .sha384 => shaH384
  | .sha512 => shaH512

/-- Rotation to the right of a word of `w` bits. -/
def shaRotr (w x n : Nat) : Nat := x / 2 ^ n + x % 2 ^ n * 2 ^ (w - n)

/-- Two rotations and a third, or a shift where `shift` is set. -/
def shaSigma (w x a b c : Nat) (shift : Bool) : Nat :=
  (shaRotr w x a ^^^ shaRotr w x b) ^^^ (if shift then x / 2 ^ c else shaRotr w x c)

/-- The four sigma functions: upper case 0 and 1, lower case 0 and 1. -/
def ShaAlg.bigSigma0 (a : ShaAlg) (x : Nat) : Nat :=
  if a = .sha256 then shaSigma 32 x 2 13 22 false else shaSigma 64 x 28 34 39 false
def ShaAlg.bigSigma1 (a : ShaAlg) (x : Nat) : Nat :=
  if a = .sha256 then shaSigma 32 x 6 11 25 false else shaSigma 64 x 14 18 41 false
def ShaAlg.smallSigma0 (a : ShaAlg) (x : Nat) : Nat :=
  if a = .sha256 then shaSigma 32 x 7 18 3 true else shaSigma 64 x 1 8 7 true
def ShaAlg.smallSigma1 (a : ShaAlg) (x : Nat) : Nat :=
  if a = .sha256 then shaSigma 32 x 17 19 10 true else shaSigma 64 x 19 61 6 true

/-- Extends the message schedule, newest word first. -/
def ShaAlg.extend (a : ShaAlg) : Nat → List Nat → List Nat
  | 0, w => w
  | n + 1, w =>
    let x := (a.smallSigma1 (w.getD 1 0) + w.getD 6 0 + a.smallSigma0 (w.getD 14 0) + w.getD 15 0) % 2 ^ a.width
    a.extend n (x :: w)

/-- The eight working variables. -/
structure ShaVars where
  a : Nat
  b : Nat
  c : Nat
  d : Nat
  e : Nat
  f : Nat
  g : Nat
  h : Nat

/-- One round. -/
def ShaAlg.round (al : ShaAlg) (v : ShaVars) (kw : Nat × Nat) : ShaVars :=
  let m := 2 ^ al.width
  let ch := (v.e &&& v.f) ^^^ ((m - 1 - v.e) &&& v.g)
  let maj := ((v.a &&& v.b) ^^^ (v.a &&& v.c)) ^^^ (v.b &&& v.c)
  let t1 := v.h + al.bigSigma1 v.e + ch + kw.1 + kw.2
  let t2 := al.bigSigma0 v.a + maj
  ⟨(t1 + t2) % m, v.a, v.b, v.c, (v.d + t1) % m, v.e, v.f, v.g⟩

/-- The words of a block, each the most significant byte first. -/
def shaWords (bytes : Nat) : Nat → List Byte → List Nat
  | 0, _ => []
  | n + 1, bs => ofBeBytes (bs.take bytes) :: shaWords bytes n (bs.drop bytes)

/-- The compression function: a chaining value and one block. -/
def ShaAlg.compress (al : ShaAlg) (h : List Nat) (blk : List Byte) : List Nat :=
  let k := al.constants
  let w := (al.extend (k.length - 16) (shaWords (al.width / 8) 16 blk).reverse).reverse
  let at_ := fun (i : Nat) => h.getD i 0
  let v := (k.zip w).foldl al.round ⟨at_ 0, at_ 1, at_ 2, at_ 3, at_ 4, at_ 5, at_ 6, at_ 7⟩
  let add := fun (x y : Nat) => (x + y) % 2 ^ al.width
  [add (at_ 0) v.a, add (at_ 1) v.b, add (at_ 2) v.c, add (at_ 3) v.d, add (at_ 4) v.e, add (at_ 5) v.f,
   add (at_ 6) v.g, add (at_ 7) v.h]

/-- Compresses `n` whole blocks. -/
def ShaAlg.blocks (al : ShaAlg) : Nat → List Nat → List Byte → List Nat
  | 0, h, _ => h
  | n + 1, h, bs => al.blocks n (al.compress h (bs.take al.block)) (bs.drop al.block)

/-- The padding after a message of `len` bytes in all. -/
def ShaAlg.pad (al : ShaAlg) (len : Nat) : List Byte :=
  let lenBytes := al.block / 8
  let zeros := (2 * al.block - 1 - lenBytes - len % al.block) % al.block
  0x80#8 :: List.replicate zeros 0#8 ++ beBytes lenBytes (8 * len)

/-- The value: the last bytes of a message of `len` bytes in all are absorbed with their padding (R415). -/
def ShaAlg.finish (al : ShaAlg) (h : List Nat) (rest : List Byte) (len : Nat) : List Byte :=
  let tail := rest ++ al.pad len
  let out := al.blocks (tail.length / al.block) h tail
  (out.flatMap (beBytes (al.width / 8))).take al.outLen

/-- The digest of a message (R414). -/
def ShaAlg.hash (al : ShaAlg) (msg : List Byte) : List Byte := al.finish al.init msg msg.length

/-- The key prepared as FIPS 198-1 requires: padded to a block, or its digest padded (R420). -/
def ShaAlg.prepare (al : ShaAlg) (key : List Byte) : List Byte :=
  let k := if al.block < key.length then al.hash key else key
  k ++ List.replicate (al.block - k.length) 0#8

/-- The chaining value after the prepared key combined with a pad byte (R420). -/
def ShaAlg.keyState (al : ShaAlg) (key : List Byte) (pad : Byte) : List Nat :=
  al.compress al.init ((al.prepare key).map (· ^^^ pad))

/-- The HMAC from the two states of a key slot (R420): inner value, then the outer message of one block and it. -/
def ShaAlg.hmacStates (al : ShaAlg) (inner outer : List Nat) (msg : List Byte) : List Byte :=
  let v := al.finish inner msg (al.block + msg.length)
  al.finish outer v (al.block + v.length)

/-- HMAC of a message under a key (R414). -/
def ShaAlg.hmac (al : ShaAlg) (key msg : List Byte) : List Byte :=
  al.hmacStates (al.keyState key 0x36#8) (al.keyState key 0x5C#8) msg

/-- A digest value in a 64-byte field: from the first byte onward, the rest zero (R415). -/
def field64 (v : List Byte) : List Byte := v ++ List.replicate (64 - v.length) 0#8

/-- One bit of the CRC-32C register, reflected polynomial 0x82F63B78 (R129). -/
def crcBit (c : Nat) : Nat := if c % 2 = 1 then (c / 2) ^^^ 0x82F63B78 else c / 2

/-- One byte of the CRC-32C. -/
def crcByte (c : Nat) (b : Byte) : Nat :=
  crcBit (crcBit (crcBit (crcBit (crcBit (crcBit (crcBit (crcBit (c ^^^ b.toNat))))))))

/-- CRC-32C over bytes: initial value and final inversion all ones (R129). -/
def crc32c (bs : List Byte) : Nat := (bs.foldl crcByte 0xFFFFFFFF) ^^^ 0xFFFFFFFF

end Sys2Proof.Machine
end

