-- ==== Sys2Proof/Machine/Column.lean ====
section
/-!
DEFINITION. Column data (R115 to R140): value types, values and their orders, the row hash, and the checking and
decoding of a column block.
-/

namespace Sys2Proof.Machine

/-! ### Value types (R118) -/

def Ty.float32 : Nat := 0x09
def Ty.float64 : Nat := 0x0A
def Ty.decimal64 : Nat := 0x0B
def Ty.decimal128 : Nat := 0x0C
def Ty.bool : Nat := 0x0D
def Ty.timestamp : Nat := 0x0E
def Ty.string : Nat := 0x0F
def Ty.uint8 : Nat := 0x05
def Ty.uint64 : Nat := 0x08
def Ty.int64 : Nat := 0x04

/-- Whether a type code is defined. -/
def tyKnown (t : Nat) : Bool := decide (1 ≤ t) && decide (t ≤ 0x0F)

/-- Natural width in bytes; a string value in a batch is an 8-byte reference (R118, R189). -/
def tyWidth (t : Nat) : Nat :=
  match t with
  | 0x01 | 0x05 | 0x0D => 1
  | 0x02 | 0x06 => 2
  | 0x03 | 0x07 | 0x09 => 4
  | 0x0C => 16
  | _ => 8

/-- The integer types. -/
def tyInt (t : Nat) : Bool := decide (1 ≤ t) && decide (t ≤ 8)
/-- The signed types, the decimals among them (R122). -/
def tySigned (t : Nat) : Bool := (decide (1 ≤ t) && decide (t ≤ 4)) || t == 0x0B || t == 0x0C
/-- The float types. -/
def tyFloat (t : Nat) : Bool := t == 0x09 || t == 0x0A
/-- The decimal types. -/
def tyDecimal (t : Nat) : Bool := t == 0x0B || t == 0x0C
/-- The format of a float type. -/
def tyFmt (t : Nat) : FloatFmt := if t = 0x09 then f32 else f64

/-- The greatest scale of a type (R118). -/
def tyMaxScale (t : Nat) : Nat := if t = 0x0B then 18 else if t = 0x0C then 38 else 0

/-- A pattern of a type that is not a float read as a number. -/
def tyNumber (t p : Nat) : Int := if tySigned t then toSigned (8 * tyWidth t) p else (p : Int)

/-- Whether a number lies in the range of a type that is not a float. -/
def tyInRange (t : Nat) (v : Int) : Bool :=
  let n := 8 * tyWidth t
  if t = 0x0D then decide (v = 0) || decide (v = 1)
  else if tySigned t then decide (-(2 ^ (n - 1) : Nat) ≤ v) && decide (v < (2 ^ (n - 1) : Nat))
  else decide (0 ≤ v) && decide (v < (2 ^ n : Nat))

/-- The pattern of a number of a type. -/
def tyPattern (t : Nat) (v : Int) : Nat := ofSigned (8 * tyWidth t) v

/-! ### Values (R119, R120, R189) -/

/-- A value of a row: null, a pattern at natural width, or a string with its reference (R189) and its bytes. -/
inductive Value where
  | null
  | num (p : Nat)
  | str (ref : Nat) (bytes : List Byte)
  deriving DecidableEq, Repr

/-- Whether a value is null. -/
def Value.isNull : Value → Bool
  | .null => true
  | _ => false

/-- The pattern of a value; 0 for a null. -/
def Value.pat : Value → Nat
  | .null => 0
  | .num p => p
  | .str r _ => r

/-- The bytes of a string. -/
def Value.text : Value → List Byte
  | .str _ b => b
  | _ => []

/-- The order of R203 on the patterns of a type that is not string. -/
def tyKey (t p : Nat) : Int := if tyFloat t then (tyFmt t).key p else tyNumber t p

/-- Strings as unsigned bytes, a prefix being the lesser (R119). -/
def compareBytes : List Byte → List Byte → Ordering
  | [], [] => .eq
  | [], _ => .lt
  | _, [] => .gt
  | a :: as, b :: bs => if a.toNat < b.toNat then .lt else if b.toNat < a.toNat then .gt else compareBytes as bs

/-- Compares integers. -/
def compareInt (a b : Int) : Ordering := if a < b then .lt else if b < a then .gt else .eq

/-- Compares two values of a type that are not null (R203). -/
def compareVal (t : Nat) (a b : Value) : Ordering :=
  if t = 0x0F then compareBytes a.text b.text else compareInt (tyKey t a.pat) (tyKey t b.pat)

/-- Compares two values with nulls first or last (R203). -/
def compareNull (t : Nat) (nullsFirst : Bool) (a b : Value) : Ordering :=
  match a.isNull, b.isNull with
  | true, true => .eq
  | true, false => if nullsFirst then .lt else .gt
  | false, true => if nullsFirst then .gt else .lt
  | false, false => compareVal t a b

/-! ### The row hash (R191) -/

/-- fmix of R191. -/
def fmix (x : Nat) : Nat :=
  let x := x ^^^ (x / 2 ^ 33)
  let x := x * 0xFF51AFD7ED558CCD % 2 ^ 64
  let x := x ^^^ (x / 2 ^ 33)
  let x := x * 0xC4CEB9FE1A85EC53 % 2 ^ 64
  x ^^^ (x / 2 ^ 33)

/-- The bytes of a string in 8-byte chunks, the last padded with zeros. -/
def stringChunks : Nat → List Byte → List Nat
  | 0, _ => []
  | n + 1, b => if b.isEmpty then [] else ofLeBytes (b.take 8) :: stringChunks n (b.drop 8)

/-- canon of a value (R191). -/
def canon (t : Nat) : Value → Nat
  | .null => 0x4E554C4C4E554C4C
  | .str _ b => (stringChunks b.length b).foldl (fun s c => fmix (s ^^^ c)) b.length
  | .num p =>
    if t = 0x0C then (p % 2 ^ 64) ^^^ fmix (p / 2 ^ 64 % 2 ^ 64)
    else if tyFloat t then
      let f := tyFmt t
      if f.isNan p then 0x7FF8000000000000
      else if f.mag p = 0 then 0
      else f.convert f64 p
    else ofSigned 64 (tyNumber t p)

/-- row_hash over the key values and their types (R191). -/
def rowHash (keys : List (Nat × Value)) : Nat :=
  keys.foldl (fun h k => fmix (h ^^^ canon k.1 k.2)) 0x9E3779B97F4A7C15

/-! ### The block header (R115, R116) -/

/-- The error of a block check (R137): code, detail, and byte offset or row. -/
structure BlockErr where
  code : Nat
  detail : Nat
  offset : Nat
  deriving DecidableEq, Repr

def Blk.truncated : Nat := 0x0101
def Blk.overrun : Nat := 0x0102
def Blk.format : Nat := 0x0103
def Blk.checksum : Nat := 0x0104
def Blk.value : Nat := 0x0105

/-- The word of R137. -/
def BlockErr.word (e : BlockErr) (origin : Nat) : Nat :=
  e.code + e.detail * 2 ^ 16 + origin * 2 ^ 24 + e.offset % 2 ^ 32 * 2 ^ 32

/-- The fields of a block header. -/
structure BlockHead where
  ty : Nat
  enc : Nat
  scale : Nat
  flags : Nat
  rows : Nat
  nulls : Nat
  len : Nat
  dataOff : Nat
  dictOff : Nat
  crc : Nat
  firstRow : Nat
  p0 : Nat
  p1 : Nat
  least : Nat
  greatest : Nat
  deriving DecidableEq, Repr

/-- Reads a header from a block's bytes. -/
def blockHead (b : List Byte) : BlockHead :=
  { ty := leField b 5 1, enc := leField b 6 1, scale := leField b 7 1, flags := leField b 8 2, rows := leField b 10 2,
    nulls := leField b 12 2, len := leField b 16 4, dataOff := leField b 20 4, dictOff := leField b 24 4,
    crc := leField b 28 4, firstRow := leField b 32 8, p0 := leField b 40 8, p1 := leField b 48 8,
    least := leField b 56 16, greatest := leField b 72 16 }

/-- FLAGS (R116). -/
def BlockHead.hasNulls (h : BlockHead) : Bool := bitOf h.flags 0
def BlockHead.hasMinMax (h : BlockHead) : Bool := bitOf h.flags 1
def BlockHead.sortedAsc (h : BlockHead) : Bool := bitOf h.flags 2
def BlockHead.dictSorted (h : BlockHead) : Bool := bitOf h.flags 3
def BlockHead.hasCrc (h : BlockHead) : Bool := bitOf h.flags 4

/-- W, ORDER, LAYOUT, RUNS and ENTRIES of the parameters (R122 to R126). -/
def BlockHead.w (h : BlockHead) : Nat := h.p0 % 256
def BlockHead.order (h : BlockHead) : Nat := h.p0 / 256 % 256
def BlockHead.layout (h : BlockHead) : Bool := bitOf h.p0 8
def BlockHead.runs (h : BlockHead) : Nat := if h.enc = 5 then h.p0 / 2 ^ 16 % 2 ^ 16 else h.p0 % 2 ^ 16
def BlockHead.entries (h : BlockHead) : Nat := h.p1 % 2 ^ 17

/-- The encodings permitted for a type (R121). -/
def encPermitted (t enc : Nat) : Bool :=
  match enc with
  | 0 => t != 0x0F
  | 1 => tyInt t || tyDecimal t || t == 0x0D || t == 0x0E
  | 2 => tyInt t || tyDecimal t || t == 0x0E
  | 3 => tyInt t || t == 0x0B || t == 0x0E
  | 4 => t != 0x0F
  | 5 => t != 0x0D
  | _ => false

/-- Whether PARAM0 is in range (R122 to R126). -/
def BlockHead.p0Ok (h : BlockHead) : Bool :=
  match h.enc with
  | 0 => h.p0 == 0
  | 1 => decide (h.p0 < 256) && decide (1 ≤ h.w) &&
      (if h.ty = 0x0D then h.w == 1 else decide (h.w ≤ min 64 (8 * tyWidth h.ty)))
  | 2 => decide (h.p0 ≤ 64)
  | 3 => decide (h.p0 < 2 ^ 16) && decide (h.w ≤ 64) && (h.order == 1 || (h.order == 2 && h.ty == 0x0E))
  | 4 => decide (1 ≤ h.p0) && decide (h.p0 ≤ 16384)
  | _ => decide (h.p0 < 2 ^ 32) && decide (1 ≤ h.w) && decide (h.w ≤ 16) && decide (h.p0 / 2 ^ 9 % 2 ^ 7 = 0) &&
      (if h.layout then decide (1 ≤ h.runs) && decide (h.runs ≤ 16384) else h.runs == 0)

/-- Whether PARAM1 is in range (R122 to R126). -/
def BlockHead.p1Ok (h : BlockHead) : Bool :=
  match h.enc with
  | 0 | 1 | 4 => h.p1 == 0
  | 2 => true
  | 3 => tyInRange h.ty (if tySigned h.ty then toSigned 64 h.p1 else h.p1)
  | _ => decide (h.p1 < 2 ^ 17) && decide (1 ≤ h.entries) && decide (h.entries ≤ 65536) && decide (h.entries ≤ 2 ^ h.w)

/-- Rounds up to a multiple of 8 (R117). -/
def pad8 (n : Nat) : Nat := roundUp n 8

/-- The required length of the data section (R127). -/
def BlockHead.dataLen (h : BlockHead) : Nat :=
  let n := h.rows
  match h.enc with
  | 0 => n * tyWidth h.ty
  | 1 | 2 => ceilDiv (n * h.w) 8
  | 3 => if h.order = 1 then ceilDiv ((n - 1) * h.w) 8 else if n = 1 then 0 else 8 + ceilDiv ((n - 2) * h.w) 8
  | 4 => pad8 (2 * h.runs) + h.runs * tyWidth h.ty
  | _ => if h.layout then pad8 (2 * h.runs) + 2 * h.runs else ceilDiv (n * h.w) 8

/-- Padded length of the validity bitmap (R117). -/
def BlockHead.bitmapLen (h : BlockHead) : Nat := if h.hasNulls then pad8 (ceilDiv h.rows 8) else 0

/-- Where R117 puts the data section, the section after it, and the least end of the block. -/
def BlockHead.dataAt (h : BlockHead) : Nat := 96 + h.bitmapLen
def BlockHead.afterData (h : BlockHead) : Nat := h.dataAt + pad8 h.dataLen
def BlockHead.endAt (h : BlockHead) : Nat :=
  if h.enc ≠ 5 then h.afterData
  else if h.ty = 0x0F then h.afterData + pad8 (4 * (h.entries + 1))
  else h.afterData + pad8 (h.entries * tyWidth h.ty)

/-- The first of a list of checks that fails: its offset. -/
def firstFail (l : List (Bool × Nat)) : Option Nat := (l.find? (fun p => !p.1)).map (·.2)

/-- Step 6 of R136. -/
def BlockHead.paramFail (h : BlockHead) (b : List Byte) (crcReq : Bool) : Option Nat :=
  firstFail [(decide (h.scale ≤ tyMaxScale h.ty), 7), (decide (h.flags < 32) && (!crcReq || h.hasCrc), 8),
    (leField b 14 2 == 0, 14), (h.p0Ok, 0x28), (h.p1Ok, 0x30), (leField b 0x58 8 == 0, 0x58)]

/-- Step 7 of R136. -/
def BlockHead.countFail (h : BlockHead) : Option Nat :=
  firstFail [(decide (1 ≤ h.rows) && decide (h.rows ≤ 16384), 10),
    (decide (h.nulls ≤ h.rows) && (h.hasNulls || h.nulls == 0), 12)]

/-- Step 12 of R136. A string dictionary's own length is left to step 15. -/
def BlockHead.sectionFail (h : BlockHead) : Option Nat :=
  firstFail [(if h.ty = 0x0F then decide (h.endAt ≤ h.len) else h.len == h.endAt, 0x10), (h.dataOff == h.dataAt, 0x14),
    (h.dictOff == (if h.enc = 5 then h.afterData else 0), 0x18)]

/-- The CRC-32C of a block, its CRC field taken as zero (R129). -/
def blockCrc (b : List Byte) : Nat := crc32c (b.take 28 ++ [0#8, 0#8, 0#8, 0#8] ++ b.drop 32)

/-! ### Streams (R120 to R126) -/

/-- Value i of a packed stream (R121). -/
def unpack (stream w i : Nat) : Nat := stream / 2 ^ (i * w) % 2 ^ w

/-- A section of the block as one number. -/
def sectionNat (b : List Byte) (off n : Nat) : Nat := ofLeBytes (sliceBytes b off n)

/-- Zigzag decoding (R124). -/
def unzigzag (p : Nat) : Int := if p % 2 = 0 then (p / 2 : Nat) else -((p + 1) / 2 : Nat)

/-- Whether a difference fits 64 signed bits. -/
def inS64 (d : Int) : Bool := decide (-(2 ^ 63 : Nat) ≤ d) && decide (d < (2 ^ 63 : Nat))

/-- Expands runs (R125). -/
def expandRuns {α : Type} : List Nat → List α → List α
  | n :: ns, v :: vs => List.replicate n v ++ expandRuns ns vs
  | _, _ => []

/-- The rows that differences of a DELTA stream give from a value on: none where a value or difference is out of range
(R124). -/
def deltaRows (t : Nat) (second : Bool) : Int → Int → List Int → List (Option Nat)
  | _, _, [] => []
  | v, d, x :: xs =>
    let d' := if second then d + x else x
    let v' := v + d'
    (if inS64 d' && tyInRange t v' then some (tyPattern t v') else none) :: deltaRows t second v' d' xs

/-- The run lengths of a block. -/
def BlockHead.runLens (h : BlockHead) (b : List Byte) : List Nat :=
  let s := sectionNat b h.dataAt (2 * h.runs)
  (List.range h.runs).map (unpack s 16)

/-- The entries of a dictionary that is not of strings. -/
def BlockHead.dictNums (h : BlockHead) (b : List Byte) : List Nat :=
  let s := sectionNat b h.afterData (h.entries * tyWidth h.ty)
  (List.range h.entries).map (unpack s (8 * tyWidth h.ty))

/-- The offsets of a string dictionary. -/
def BlockHead.dictOffs (h : BlockHead) (b : List Byte) : List Nat :=
  let s := sectionNat b h.afterData (4 * (h.entries + 1))
  (List.range (h.entries + 1)).map (unpack s 32)

/-- Where the byte area of a string dictionary begins. -/
def BlockHead.textAt (h : BlockHead) : Nat := h.afterData + pad8 (4 * (h.entries + 1))

/-- Whether the offsets of a string dictionary are as R126 requires. -/
def BlockHead.offsetsOk (h : BlockHead) (offs : List Nat) : Bool :=
  offs.head? == some 0 &&
  ((offs.zip offs.tail).all (fun p => decide (p.1 ≤ p.2) && decide (p.2 - p.1 ≤ 65535))) &&
  h.textAt + pad8 (offs.getLastD 0) == h.len

/-- The entries of a string dictionary: their place in the block and their bytes. -/
def BlockHead.dictStrs (h : BlockHead) (b : List Byte) : List Value :=
  let offs := h.dictOffs b
  (offs.zip offs.tail).map (fun p => .str (h.textAt + p.1) (sliceBytes b (h.textAt + p.1) (p.2 - p.1)))

/-- The dictionary of a block. -/
def BlockHead.dict (h : BlockHead) (b : List Byte) : List Value :=
  if h.ty = 0x0F then h.dictStrs b else (h.dictNums b).map .num

/-- Whether a list is strictly ascending. -/
def strictlyAscending (t : Nat) (l : List Value) : Bool := (l.zip l.tail).all (fun p => compareVal t p.1 p.2 == .lt)

/-- Step 15 of R136: run sums, string offsets, dictionary order. -/
def BlockHead.structFail (h : BlockHead) (b : List Byte) : Option BlockErr :=
  let runs := h.enc = 4 || (h.enc = 5 && h.layout)
  let lens := h.runLens b
  if runs && !(lens.all (fun n => decide (1 ≤ n) && decide (n ≤ 16384)) && lens.foldl (· + ·) 0 == h.rows) then
    some ⟨Blk.format, 0x0D, h.dataAt⟩
  else if h.ty = 0x0F && !h.offsetsOk (h.dictOffs b) then some ⟨Blk.format, 0x0E, h.afterData⟩
  else if h.enc = 5 && h.dictSorted && !strictlyAscending h.ty (h.dict b) then some ⟨Blk.format, 0x0F, h.afterData⟩
  else none

/-- An entry of the stream: its value, or the detail of the VALUE error (R136 step 16). -/
abbrev Entry := Except Nat Value

/-- A pattern as an entry: a bool other than 0 and 1 fails (R136). -/
def numEntry (t p : Nat) : Entry := if t = 0x0D && decide (1 < p) then .error 3 else .ok (.num p)

/-- A code as an entry. -/
def codeEntry (dict : List Value) (c : Nat) : Entry :=
  match dict[c]? with
  | some v => .ok v
  | none => .error 2

/-- The entries of a block's stream, one per row, nulls included. -/
def BlockHead.stream (h : BlockHead) (b : List Byte) : List Entry :=
  let n := h.rows
  let w := h.w
  let data := sectionNat b h.dataAt h.dataLen
  let range := fun (o : Option Nat) => match o with
    | some p => numEntry h.ty p
    | none => .error 1
  match h.enc with
  | 0 => (List.range n).map (fun i => numEntry h.ty (unpack data (8 * tyWidth h.ty) i))
  | 1 => (List.range n).map (fun i =>
      let p := unpack data w i
      numEntry h.ty (if tySigned h.ty then tyPattern h.ty (toSigned w p) else p))
  | 2 =>
    let ref : Int := if tySigned h.ty then toSigned 64 h.p1 else h.p1
    (List.range n).map (fun i =>
      let v := ref + unpack data w i
      range (if tyInRange h.ty v then some (tyPattern h.ty v) else none))
  | 3 =>
    let v0 : Int := if tySigned h.ty then toSigned 64 h.p1 else h.p1
    let first := some (tyPattern h.ty v0)
    if h.order = 1 then
      (first :: deltaRows h.ty false v0 0 ((List.range (n - 1)).map (fun i => unzigzag (unpack data w i)))).map range
    else if n = 1 then [range first]
    else
      let d1 := toSigned 64 (data % 2 ^ 64)
      let xs := (List.range (n - 2)).map (fun i => unzigzag (unpack (data / 2 ^ 64) w i))
      (first :: deltaRows h.ty true v0 0 (d1 :: xs)).map range
  | 4 =>
    let vals := sectionNat b (h.dataAt + pad8 (2 * h.runs)) (h.runs * tyWidth h.ty)
    expandRuns (h.runLens b) ((List.range h.runs).map (fun i => numEntry h.ty (unpack vals (8 * tyWidth h.ty) i)))
  | _ =>
    let dict := h.dict b
    if h.layout then
      let codes := sectionNat b (h.dataAt + pad8 (2 * h.runs)) (2 * h.runs)
      expandRuns (h.runLens b) ((List.range h.runs).map (fun i => codeEntry dict (unpack codes 16 i)))
    else (List.range n).map (fun i => codeEntry dict (unpack data w i))

/-- Whether row i is valid (R120). -/
def BlockHead.valid (h : BlockHead) (b : List Byte) : List Bool :=
  let bits := sectionNat b 96 (ceilDiv h.rows 8)
  (List.range h.rows).map (fun i => !h.hasNulls || bitOf bits i)

/-- Step 14 of R136: bits at and beyond ROW_COUNT are 0, and the null rows are NULL_COUNT. -/
def BlockHead.bitmapOk (h : BlockHead) (b : List Byte) : Bool :=
  !h.hasNulls ||
  (decide (sectionNat b 96 (ceilDiv h.rows 8) < 2 ^ h.rows) &&
   (h.valid b).foldl (fun k v => if v then k else k + 1) 0 == h.nulls)

/-- The first entry of a stream that fails, as a VALUE error. -/
def streamFail : Nat → List Entry → Option BlockErr
  | _, [] => none
  | i, .ok _ :: es => streamFail (i + 1) es
  | i, .error d :: _ => some ⟨Blk.value, d, i⟩

/-- The values of a block, nulls in place. -/
def blockValues (valid : List Bool) (es : List Entry) : List Value :=
  (valid.zip es).map (fun p => if p.1 then (match p.2 with
    | .ok v => v
    | .error _ => .null) else .null)

/-- The first row that is less than the last row before it that is not null (step 17). -/
def sortFail (t : Nat) : Nat → Option Value → List Value → Option Nat
  | _, _, [] => none
  | i, last, v :: vs =>
    if v.isNull then sortFail t (i + 1) last vs
    else
      match last with
      | some l => if compareVal t v l = .lt then some i else sortFail t (i + 1) (some v) vs
      | none => sortFail t (i + 1) (some v) vs

/-- The values that MIN and MAX range over: not null, NaN left out (R128). -/
def extremes (t : Nat) (vs : List Value) : List Nat :=
  (vs.filter (fun v => !v.isNull && !(tyFloat t && (tyFmt t).isNan v.pat))).map Value.pat

/-- The least and the greatest of a list of patterns by R203. -/
def leastOf (t : Nat) (l : List Nat) : Nat := l.foldl (fun m p => if tyKey t p < tyKey t m then p else m) (l.headD 0)
def greatestOf (t : Nat) (l : List Nat) : Nat := l.foldl (fun m p => if tyKey t m < tyKey t p then p else m) (l.headD 0)

/-- A pattern extended to 128 bits (R128). -/
def extend128 (t p : Nat) : Nat := if tySigned t then ofSigned 128 (tyNumber t p) else p

/-- Whether a 128-bit extreme is a claim that holds of a value: either zero may stand for a zero extreme (R128). -/
def claimHolds (t claim p : Nat) : Bool :=
  if tyFloat t then decide (claim < 2 ^ (8 * tyWidth t)) && tyKey t claim == tyKey t p else claim == extend128 t p

/-- Step 18 of R136. -/
def BlockHead.minMaxFail (h : BlockHead) (vs : List Value) : Option Nat :=
  if !h.hasMinMax then none
  else
    let l := extremes h.ty vs
    if h.ty = 0x0F || l.isEmpty then some 0x38
    else firstFail [(claimHolds h.ty h.least (leastOf h.ty l), 0x38), (claimHolds h.ty h.greatest (greatestOf h.ty l), 0x48)]

/-- The check of a block's place in its table (step 11): the detail and offset where it fails. -/
abbrev PlaceCheck := BlockHead → Option (Nat × Nat)

/-- A block that passed every check: its header and its values; the reference of a string is its offset in the block. -/
structure Block where
  head : BlockHead
  values : List Value
  deriving DecidableEq, Repr

/-- The checks of R136 in order. `colType` is the column's type, `place` the check of step 11, `crcReq` that HAS_CRC is
required (R129). -/
def checkBlock (b : List Byte) (colType : Nat) (place : PlaceCheck) (crcReq : Bool) : Except BlockErr Block :=
  let h := blockHead b
  let fmt := fun (d off : Nat) => (.error ⟨Blk.format, d, off⟩ : Except BlockErr Block)
  if b.length < 96 then .error ⟨Blk.truncated, 0, 0⟩
  else if leField b 0 4 ≠ 0x42435053 then fmt 1 0
  else if leField b 4 1 ≠ 1 then fmt 2 4
  else if !tyKnown h.ty then fmt 3 5
  else if !encPermitted h.ty h.enc then fmt 4 6
  else
    match h.paramFail b crcReq, h.countFail with
    | some off, _ => fmt 5 off
    | none, some off => fmt 6 off
    | none, none =>
      if h.len % 8 ≠ 0 ∨ h.len < 96 ∨ 4194304 < h.len then fmt 7 0x10
      else if b.length < h.len then .error ⟨Blk.truncated, 0, 0⟩
      else if h.len < b.length then .error ⟨Blk.overrun, 0, 0⟩
      else if h.ty ≠ colType then fmt 8 5
      else
        match place h, h.sectionFail with
        | some (d, off), _ => fmt d off
        | none, some off => fmt 0x0B off
        | none, none =>
          if h.hasCrc && blockCrc b != h.crc then .error ⟨Blk.checksum, 0, 0x1C⟩
          else if !h.bitmapOk b then fmt 0x0C 0x60
          else
            match h.structFail b with
            | some e => .error e
            | none =>
              let es := h.stream b
              match streamFail 0 es with
              | some e => .error e
              | none =>
                let vs := blockValues (h.valid b) es
                match (if h.sortedAsc then sortFail h.ty 0 none vs else none), h.minMaxFail vs with
                | some i, _ => .error ⟨Blk.value, 4, i⟩
                | none, some off => fmt 0x10 off
                | none, none => .ok { head := h, values := vs }

end Sys2Proof.Machine
end

