-- ==== Sys2Proof/Machine/Image.lean ====
section
/-!
DEFINITION. The plan image (R143 to R150): its records, the operators' parameter blocks (R193, R207 to R234), and
checks 1 to 12 of R151 as far as they concern the image alone.
-/

namespace Sys2Proof.Machine

/-- An operator record (R145) with its parameter block. -/
structure OpRec where
  kind : Nat
  node : Nat
  caps : Nat
  par : List Byte
  parallel : Bool
  flows : Nat
  work : Nat
  ins : List Nat
  outs : List Nat
  table : Nat
  deriving DecidableEq, Repr

/-- A culm record (R147). -/
structure CulmRec where
  producer : Nat
  prodPort : Nat
  consPort : Nat
  consumer : Nat
  least : Nat
  most : Nat
  late : Bool
  consumerDie : Bool
  deriving DecidableEq, Repr

/-- A table declaration (R148). -/
structure TableDecl where
  id : Nat
  role : Nat
  loc : Nat
  timeCol : Nat
  head : Nat
  area : Nat
  areaLen : Nat
  dir : Nat
  dirLen : Nat
  types : List Nat
  deriving DecidableEq, Repr

/-- A start-parameter declaration (R149). -/
structure ParamDecl where
  op : Nat
  ty : Nat
  size : Nat
  offset : Nat
  deriving DecidableEq, Repr

/-- A plan image. -/
structure Image where
  windows : Bool
  granary : Bool
  viewNode : Nat
  viewDepth : Nat
  viewCaps : Nat
  ops : List OpRec
  culms : List CulmRec
  tables : List TableDecl
  params : List ParamDecl
  shape : List Nat
  deriving DecidableEq, Repr

/-- The roles of a table (R148). -/
def Role.source : Nat := 0
def Role.ingest : Nat := 1
def Role.result : Nat := 2

/-- Unused index (R145, R193). -/
def noIndex : Nat := 0xFFFF

/-- The operator kinds of R206. -/
def Kind.scan : Nat := 0x01
def Kind.filter : Nat := 0x02
def Kind.compute : Nat := 0x03
def Kind.hashJoin : Nat := 0x10
def Kind.sort : Nat := 0x20
def Kind.merge : Nat := 0x21
def Kind.hashAgg : Nat := 0x30
def Kind.sortedAgg : Nat := 0x31
def Kind.windowAgg : Nat := 0x32
def Kind.topk : Nat := 0x40
def Kind.exchange : Nat := 0x50
def Kind.materialize : Nat := 0x60

/-- The defined kinds (R206). -/
def knownKinds : List Nat := [0x01, 0x02, 0x03, 0x10, 0x20, 0x21, 0x30, 0x31, 0x32, 0x40, 0x50, 0x60]

/-- Kinds that keep state between tasks of a flow (R200). -/
def kindStateful (k : Nat) : Bool := [0x10, 0x20, 0x21, 0x30, 0x31, 0x32, 0x40].contains k

/-! ### Fields of a parameter block (R193 to R234) -/

/-- A little-endian field of an operator's parameters. -/
def OpRec.f (o : OpRec) (off n : Nat) : Nat := leField o.par off n

def OpRec.partLog (o : OpRec) : Nat := o.f 1 1
def OpRec.partKeys (o : OpRec) : Nat := o.f 2 1
def OpRec.batchRows (o : OpRec) : Nat := o.f 4 2
def OpRec.typesOff (o : OpRec) : Nat := o.f 6 2
def OpRec.partCols (o : OpRec) : List Nat := (List.range 4).map (fun i => o.f (8 + 2 * i) 2)
def OpRec.outCols (o : OpRec) (p : Nat) : Nat := o.f (0x10 + 2 * p) 2
def OpRec.workBase (o : OpRec) : Nat := o.f 0x18 8
def OpRec.workLen (o : OpRec) : Nat := o.f 0x20 8

/-- The schema of an output port: types and scales (R194). -/
def OpRec.schema (o : OpRec) (p : Nat) : List (Nat × Nat) :=
  let off := o.typesOff + ((List.range p).map (fun q => pad8 (2 * o.outCols q))).foldl (· + ·) 0
  (List.range (o.outCols p)).map (fun i => (o.f (off + 2 * i) 1, o.f (off + 2 * i + 1) 1))

/-- The end of the type lists. -/
def OpRec.schemaEnd (o : OpRec) : Nat :=
  o.typesOff + ((List.range 4).map (fun q => pad8 (2 * o.outCols q))).foldl (· + ·) 0

/-- A list of u16 in the parameters. -/
def OpRec.u16s (o : OpRec) (off n : Nat) : List Nat := (List.range n).map (fun i => o.f (off + 2 * i) 2)

/-- A skip predicate of SCAN (R207). -/
structure SkipPred where
  col : Nat
  lo : Nat
  hi : Nat
  deriving DecidableEq, Repr

/-! SCAN (R207). -/
def OpRec.scanCols (o : OpRec) : List Nat := o.u16s 0x60 (o.f 0x30 2)
def OpRec.scanFollow (o : OpRec) : Bool := bitOf (o.f 0x32 2) 0
def OpRec.scanRowTs (o : OpRec) : Bool := bitOf (o.f 0x32 2) 1
def OpRec.scanSkip (o : OpRec) : Bool := bitOf (o.f 0x32 2) 2
def OpRec.pollUs (o : OpRec) : Nat := o.f 0x34 4
def OpRec.tsLo (o : OpRec) : Nat := o.f 0x38 8
def OpRec.tsHi (o : OpRec) : Nat := o.f 0x40 8
def OpRec.stripeFirst (o : OpRec) : Nat := o.f 0x48 8
def OpRec.stripeEnd (o : OpRec) : Nat := o.f 0x50 8
def OpRec.predAt (o : OpRec) : Nat := 0x60 + pad8 (2 * o.f 0x30 2)
def OpRec.scanPreds (o : OpRec) : List SkipPred :=
  (List.range (o.f 0x58 1)).map (fun i =>
    let p := o.predAt + 40 * i
    { col := o.f p 2, lo := o.f (p + 8) 16, hi := o.f (p + 24) 16 })

/-- An instruction of FILTER or COMPUTE (R212). -/
structure ProgInstr where
  op : Nat
  ty : Nat
  scale : Nat
  dst : Nat
  a : Nat
  b : Nat
  nullOnErr : Bool
  rsvd : Bool
  imm : Nat
  deriving DecidableEq, Repr

/-! FILTER and COMPUTE (R211, R212). -/
def OpRec.ninstr (o : OpRec) : Nat := o.f 0x30 2
def OpRec.keep (o : OpRec) : Nat := o.f 0x32 1
def OpRec.markMode (o : OpRec) : Bool := o.f 0x33 1 == 1
def OpRec.nconst (o : OpRec) : Nat := o.f 0x34 1
def OpRec.program (o : OpRec) : List ProgInstr :=
  (List.range o.ninstr).map (fun i =>
    let p := 0x38 + 8 * i
    { op := o.f p 1, ty := o.f (p + 1) 1, scale := o.f (p + 2) 1, dst := o.f (p + 3) 1, a := o.f (p + 4) 1,
      b := o.f (p + 5) 1, nullOnErr := bitOf (o.f (p + 6) 1) 0, rsvd := decide (1 < o.f (p + 6) 1), imm := o.f (p + 7) 1 })
def OpRec.constant (o : OpRec) (k : Nat) : Nat := o.f (0x38 + 8 * o.ninstr + 16 * k) 16

/-! HASH_JOIN (R216). -/
def OpRec.jtype (o : OpRec) : Nat := o.f 0x30 1
def OpRec.nkeys (o : OpRec) : Nat := o.f 0x31 1
def OpRec.unique (o : OpRec) : Bool := bitOf (o.f 0x32 1) 0
def OpRec.buildKeys (o : OpRec) : List Nat := o.u16s 0x34 o.nkeys
def OpRec.probeKeys (o : OpRec) : List Nat := o.u16s 0x3C o.nkeys
def OpRec.probeOut (o : OpRec) : List Nat := o.u16s 0x48 (o.f 0x44 2)
def OpRec.buildOut (o : OpRec) : List Nat := o.u16s (0x48 + 2 * o.f 0x44 2) (o.f 0x46 2)

/-- A sort key (R219). -/
structure SortKey where
  col : Nat
  desc : Bool
  nullsFirst : Bool
  deriving DecidableEq, Repr

/-- Key records of 4 bytes from 0x34 (R219, R232). -/
def OpRec.keyRecords (o : OpRec) (n : Nat) : List SortKey :=
  (List.range n).map (fun i =>
    { col := o.f (0x34 + 4 * i) 2, desc := o.f (0x36 + 4 * i) 1 == 1, nullsFirst := o.f (0x37 + 4 * i) 1 == 1 })

/-- The keys of SORT and MERGE, and of TOPK. -/
def OpRec.sortKeys (o : OpRec) : List SortKey := o.keyRecords (o.f 0x30 1)
def OpRec.topKeys (o : OpRec) : List SortKey := o.keyRecords (o.f 0x33 1)

/-- An aggregate (R221). -/
structure AggRec where
  func : Nat
  arg : Nat
  order : Nat
  deriving DecidableEq, Repr

/-! The aggregations (R221). -/
def OpRec.ngroup (o : OpRec) : Nat := o.f 0x30 1
def OpRec.nagg (o : OpRec) : Nat := o.f 0x31 1
def OpRec.sortOut (o : OpRec) : Bool := bitOf (o.f 0x32 1) 0
def OpRec.closeAtEnd (o : OpRec) : Bool := bitOf (o.f 0x32 1) 1
def OpRec.timeData (o : OpRec) : Bool := o.f 0x33 1 == 1
def OpRec.timeCol (o : OpRec) : Nat := o.f 0x34 2
def OpRec.lenNs (o : OpRec) : Nat := o.f 0x38 8
def OpRec.originNs (o : OpRec) : Nat := o.f 0x40 8
def OpRec.lateNs (o : OpRec) : Nat := o.f 0x48 8
def OpRec.groupCols (o : OpRec) : List Nat := o.u16s 0x50 o.ngroup
def OpRec.aggAt (o : OpRec) : Nat := 0x50 + pad8 (2 * o.ngroup)
def OpRec.aggs (o : OpRec) : List AggRec :=
  (List.range o.nagg).map (fun i =>
    { func := o.f (o.aggAt + 8 * i) 1, arg := o.f (o.aggAt + 8 * i + 2) 2, order := o.f (o.aggAt + 8 * i + 4) 2 })

/-! TOPK, EXCHANGE, MATERIALIZE (R232 to R234). -/
def OpRec.topK (o : OpRec) : Nat := o.f 0x30 2
def OpRec.perWindow (o : OpRec) : Bool := bitOf (o.f 0x32 1) 0
def OpRec.broadcast (o : OpRec) : Bool := o.f 0x30 1 == 1
def OpRec.blockRows (o : OpRec) : Nat := o.f 0x30 2
def OpRec.flushOnMark (o : OpRec) : Bool := bitOf (o.f 0x32 1) 0
def OpRec.fixedEnc (o : OpRec) : Bool := bitOf (o.f 0x32 1) 1
def OpRec.table2 (o : OpRec) : Nat := o.f 0x34 2

/-! ### Parsing (R143 to R149) -/

/-- A directory entry (R144): offset and length; sections in the order OPS, CULMS, TABLES, PARAMS, OPPARAM, SHAPE. -/
def dirEntry (b : List Byte) (k : Nat) : Nat × Nat := (leField b (0x50 + 8 * k) 4, leField b (0x54 + 8 * k) 4)

/-- Operator record i. -/
def parseOp (b : List Byte) (i : Nat) : OpRec :=
  let r := (dirEntry b 0).1 + 64 * i
  let u16 := fun (off : Nat) => (List.range 4).map (fun k => leField b (r + off + 2 * k) 2)
  { kind := leField b (r + 2) 2, node := leField b (r + 4) 4, caps := leField b (r + 8) 8,
    par := sliceBytes b ((dirEntry b 4).1 + leField b (r + 0x24) 4) (leField b (r + 0x28) 4),
    parallel := leField b (r + 0x10) 1 == 1, flows := leField b (r + 0x11) 1, work := leField b (r + 0x12) 2,
    ins := u16 0x14, outs := u16 0x1C, table := leField b (r + 0x2C) 2 }

/-- Culm record i. -/
def parseCulm (b : List Byte) (i : Nat) : CulmRec :=
  let r := (dirEntry b 1).1 + 32 * i
  { producer := leField b r 2, prodPort := leField b (r + 2) 1, consPort := leField b (r + 3) 1,
    consumer := leField b (r + 4) 2, least := leField b (r + 6) 2, most := leField b (r + 8) 2,
    late := leField b (r + 10) 1 == 1, consumerDie := bitOf (leField b (r + 11) 1) 0 }

/-- Bytes of a table declaration with its padded type bytes (R148). -/
def tableLen (columns : Nat) : Nat := 64 + pad8 columns

/-- The table declarations from an offset on. -/
def parseTables (b : List Byte) : Nat → Nat → List TableDecl
  | 0, _ => []
  | n + 1, r =>
    let c := leField b (r + 4) 2
    { id := leField b r 2, role := leField b (r + 2) 1, loc := leField b (r + 3) 1, timeCol := leField b (r + 6) 2,
      head := leField b (r + 8) 8, area := leField b (r + 0x10) 8, areaLen := leField b (r + 0x18) 8,
      dir := leField b (r + 0x20) 8, dirLen := leField b (r + 0x28) 8,
      types := (sliceBytes b (r + 64) c).map BitVec.toNat } :: parseTables b n (r + tableLen c)

/-- Start-parameter declaration i. -/
def parseParam (b : List Byte) (i : Nat) : ParamDecl :=
  let r := (dirEntry b 3).1 + 16 * i
  { op := leField b r 2, ty := leField b (r + 2) 1, size := leField b (r + 3) 1, offset := leField b (r + 4) 4 }

/-- Counts of the header. -/
def imgOps (b : List Byte) : Nat := leField b 0x0C 2
def imgCulms (b : List Byte) : Nat := leField b 0x0E 2
def imgTables (b : List Byte) : Nat := leField b 0x10 2
def imgParams (b : List Byte) : Nat := leField b 0x12 2
def imgLen (b : List Byte) : Nat := leField b 8 4

/-- The image that bytes spell. -/
def parseImage (b : List Byte) : Image :=
  let sh := dirEntry b 5
  let flags := leField b 6 2
  { windows := bitOf flags 0, granary := bitOf flags 1, viewNode := leField b 0x18 4, viewDepth := leField b 0x1C 1,
    viewCaps := leField b 0x20 8, ops := (List.range (imgOps b)).map (parseOp b),
    culms := (List.range (imgCulms b)).map (parseCulm b), tables := parseTables b (imgTables b) (dirEntry b 2).1,
    params := (List.range (imgParams b)).map (parseParam b), shape := (sliceBytes b sh.1 sh.2).map BitVec.toNat }

/-! ### Checks 1 to 9 (R151) -/

/-- Whether bytes [off, off + n) are zero. -/
def zeroAt (b : List Byte) (off n : Nat) : Bool := leField b off n == 0

/-- Check 4: counts, FLAGS, reserved fields, VIEW_DEPTH. -/
def headerOk (b : List Byte) : Bool :=
  decide (1 ≤ imgOps b) && decide (imgOps b ≤ 1024) && decide (imgCulms b ≤ 4096) && decide (imgTables b ≤ 64) &&
  decide (imgParams b ≤ 32) && decide (leField b 6 2 < 4) && zeroAt b 0x1D 3 && zeroAt b 0x28 8 &&
  decide (leField b 0x1C 1 ≤ 5)

/-- Two ranges (offset, length) do not overlap. -/
def disjoint (a b : Nat × Nat) : Bool := decide (a.1 + a.2 ≤ b.1) || decide (b.1 + b.2 ≤ a.1)

/-- No two of a list of ranges overlap. -/
def allDisjoint : List (Nat × Nat) → Bool
  | [] => true
  | a :: l => l.all (disjoint a) && allDisjoint l

/-- Check 5: the directory (R144). -/
def directoryOk (b : List Byte) : Bool :=
  let ds := (List.range 6).map (dirEntry b)
  let present := ds.filter (fun d => d.1 != 0 || d.2 != 0)
  let has := fun (k n : Nat) => ((dirEntry b k).1 == 0 && (dirEntry b k).2 == 0) == (n == 0)
  present.all (fun d => decide (0x80 ≤ d.1) && decide (d.1 % 8 = 0) && decide (1 ≤ d.2) && decide (d.1 + d.2 ≤ imgLen b)) &&
  allDisjoint present && has 0 (imgOps b) && has 1 (imgCulms b) && has 2 (imgTables b) && has 3 (imgParams b) &&
  (dirEntry b 0).2 == 64 * imgOps b && (dirEntry b 1).2 == 32 * imgCulms b && (dirEntry b 3).2 == 16 * imgParams b

/-- Check 6: the SHA-256 of the image, its own field taken as zero (R143). -/
def digestOk (b : List Byte) : Bool :=
  ShaAlg.sha256.hash (b.take 0x30 ++ List.replicate 32 0#8 ++ b.drop 0x50) == sliceBytes b 0x30 32

/-- Check 7: an operator record. -/
def opRecordOk (b : List Byte) (i : Nat) : Bool :=
  let r := (dirEntry b 0).1 + 64 * i
  let o := parseOp b i
  leField b r 2 == i && knownKinds.contains o.kind && decide (leField b (r + 0x10) 1 ≤ 1) && decide (1 ≤ o.flows) &&
  decide (o.work ≤ 64) && zeroAt b (r + 0x2E) 18

/-- Check 8: a culm record, and that the operator records name it back (R147). -/
def culmRecordOk (b : List Byte) (ops : List OpRec) (i : Nat) : Bool :=
  let r := (dirEntry b 1).1 + 32 * i
  let c := parseCulm b i
  match ops[c.producer]?, ops[c.consumer]? with
  | some p, some q =>
    decide (c.prodPort ≤ 3) && decide (c.consPort ≤ 3) && decide (1 ≤ c.least) && decide (c.least ≤ 64) &&
    decide (c.least ≤ c.most) && decide (c.most ≤ 1024) && decide (leField b (r + 10) 1 ≤ 1) &&
    decide (leField b (r + 11) 1 ≤ 1) && zeroAt b (r + 12) 20 && p.outs[c.prodPort]? == some i &&
    q.ins[c.consPort]? == some i && c.late == (p.kind == Kind.windowAgg && c.prodPort == 3)
  | _, _ => false

/-- Check 8: every port of an operator names a culm that names it. -/
def portsOk (culms : List CulmRec) (ops : List OpRec) : Bool :=
  (ops.zipIdx).all (fun p =>
    (p.1.outs.zipIdx).all (fun q => q.1 == noIndex ||
      ((culms[q.1]?).map (fun c => c.producer == p.2 && c.prodPort == q.2)).getD false) &&
    (p.1.ins.zipIdx).all (fun q => q.1 == noIndex ||
      ((culms[q.1]?).map (fun c => c.consumer == p.2 && c.consPort == q.2)).getD false))

/-- Removes, round by round, the operators that no remaining operator feeds. -/
def peel (culms : List CulmRec) : Nat → List Nat → List Nat
  | 0, l => l
  | n + 1, l => peel culms n (l.filter (fun i => culms.any (fun c => c.consumer == i && l.contains c.producer)))

/-- Check 9: the operator graph has no cycle. -/
def acyclic (m : Image) : Bool := (peel m.culms m.ops.length (List.range m.ops.length)).isEmpty

/-! ### Check 10: parameter blocks (R193 to R234) -/

/-- The schema of input port `p` of an operator: that of the producer's port (R194). -/
def Image.inSchema (m : Image) (o : OpRec) (p : Nat) : List (Nat × Nat) :=
  match o.ins[p]? with
  | some k =>
    match m.culms[k]? with
    | some c => ((m.ops[c.producer]?).map (fun q => q.schema c.prodPort)).getD []
    | none => []
  | none => []

/-- Bytes of a batch of n rows (R188). -/
def batchBytes (schema : List (Nat × Nat)) (n : Nat) : Nat :=
  32 + pad8 (4 * schema.length) +
  (schema.map (fun c => pad8 (ceilDiv n 8) + pad8 (n * tyWidth c.1))).foldl (· + ·) 0

/-- Whether an input or output port is connected. -/
def OpRec.hasIn (o : OpRec) (p : Nat) : Bool := o.ins.getD p noIndex != noIndex
def OpRec.hasOut (o : OpRec) (p : Nat) : Bool := o.outs.getD p noIndex != noIndex

/-- The connections R206 gives: required and permitted input ports, then output ports. -/
def kindPorts (k : Nat) : List Nat × List Nat × List Nat × List Nat :=
  if k = 0x01 then ([], [], [0], [0])
  else if k = 0x10 then ([0, 1], [0, 1], [0], [0])
  else if k = 0x21 then ([], [0, 1, 2, 3], [0], [0])
  else if k = 0x32 then ([0], [0], [0, 3], [0, 3])
  else if k = 0x50 then ([0], [0], [], [0, 1, 2, 3])
  else if k = 0x60 then ([0], [0, 1], [], [])
  else ([0], [0], [0], [0])

/-- The port connections of an operator (R206): MERGE and EXCHANGE have at least one of their free ports. -/
def OpRec.portsOk (o : OpRec) : Bool :=
  let k := kindPorts o.kind
  let ports := List.range 4
  k.1.all o.hasIn && ports.all (fun p => !o.hasIn p || k.2.1.contains p) && k.2.2.1.all o.hasOut &&
  ports.all (fun p => !o.hasOut p || k.2.2.2.contains p) && (o.kind != 0x21 || ports.any o.hasIn) &&
  (o.kind != 0x50 || ports.any o.hasOut)

/-- FLOW_MODE and FLOWS as R206 permits. -/
def OpRec.modeOk (o : OpRec) : Bool :=
  match o.kind with
  | 0x01 | 0x02 | 0x03 | 0x50 => true
  | 0x10 => o.parallel && o.flows == 1
  | 0x21 | 0x60 => !o.parallel && o.flows == 1
  | _ => !o.parallel

/-- A type and scale of a schema. -/
def typeOk (c : Nat × Nat) : Bool := tyKnown c.1 && decide (c.2 ≤ tyMaxScale c.1)

/-- The kinds that use a work area (R206): of any other its fields are ignored (R195). -/
def kindSpills (k : Nat) : Bool := [0x10, 0x20, 0x30, 0x32].contains k

/-- The common header (R193 to R195, R188). -/
def OpRec.commonOk (o : OpRec) : Bool :=
  let ports := List.range 4
  decide (0x30 ≤ o.par.length) && o.f 0 1 == 1 && decide (o.partLog ≤ 8) && decide (o.partKeys ≤ 4) &&
  (o.partLog == 0) == (o.partKeys == 0) && o.f 3 1 == 0 && o.f 0x28 8 == 0 && decide (8 ≤ o.batchRows) &&
  decide (o.batchRows ≤ 4096) && o.batchRows % 8 == 0 && o.typesOff % 8 == 0 &&
  decide (o.schemaEnd ≤ o.par.length) && (!kindSpills o.kind || (o.workBase % 4096 == 0 && o.workLen % 4096 == 0)) &&
  ports.all (fun p => (o.outCols p == 0) == !o.hasOut p && decide (o.outCols p ≤ 64) && (o.schema p).all typeOk &&
    (o.outCols p == 0 || decide (batchBytes (o.schema p) o.batchRows ≤ 4096))) &&
  (o.partCols.zipIdx).all (fun c => if c.2 < o.partKeys then ports.all (fun p =>
      o.outCols p == 0 || (o.kind == 0x32 && p == 3) || decide (c.1 < o.outCols p)) else c.1 == noIndex)

/-- The result type of an aggregate for an argument type and scale; none where the function does not take it (R222). -/
def aggType (func : Nat) (arg : Option (Nat × Nat)) : Option (Nat × Nat) :=
  match func, arg with
  | 0x01, _ => some (0x08, 0)
  | 0x02, some (t, s) =>
    if tyDecimal t then some (0x0C, s) else if tyFloat t then some (0x0A, 0)
    else if tyInt t then some (if tySigned t then 0x04 else 0x08, 0) else none
  | 0x05, some (t, _) => if tyInt t || tyDecimal t || tyFloat t then some (0x0A, 0) else none
  | 0x03, some c | 0x04, some c | 0x06, some c | 0x07, some c => some c
  | _, _ => none

/-- The result type of an aggregate record over a schema; none where the record is not valid. -/
def AggRec.result (a : AggRec) (schema : List (Nat × Nat)) : Option (Nat × Nat) :=
  let arg := schema[a.arg]?
  let ord := schema[a.order]?
  if a.func = 1 then (if a.arg = noIndex || arg.isSome then aggType 1 arg else none)
  else if a.func = 6 || a.func = 7 then
    (match ord with
     | some o => if o.1 = 0x0F then none else aggType a.func arg
     | none => none)
  else aggType a.func arg

/-- Whether a value type converts to another (R214). -/
def castOk (a t : Nat) : Bool :=
  (tyInt a && tyInt t) || ((tyInt a || tyDecimal a) && tyFloat t) || (tyFloat a && tyInt t) ||
  (tyDecimal a && tyDecimal t) || (tyFloat a && tyDecimal t) || (a == 0x0D && tyInt t) || (tyInt a && t == 0x0D) ||
  (a == 0x0E && (t == 0x08 || t == 0x04)) || ((a == 0x08 || a == 0x04) && t == 0x0E) || (tyFloat a && tyFloat t)

/-- What the check of a program knows: the type of each register written, and the output columns written. -/
structure ProgTypes where
  regs : List (Option (Nat × Nat))
  outs : List Nat

/-- The type check of one instruction (R212 to R214); none where check 10 fails. -/
def ProgTypes.step (p : ProgTypes) (o : OpRec) (ins outs : List (Nat × Nat)) (i : ProgInstr) : Option ProgTypes :=
  let own := (i.ty, i.scale)
  let reg := fun (k : Nat) => (p.regs[k]?).getD none
  let a := reg i.a
  let b := reg i.b
  let put := fun (c : Bool) => if c && decide (i.dst < 32) then some { p with regs := p.regs.set i.dst (some own) } else none
  let arith := tyInt i.ty || tyFloat i.ty || tyDecimal i.ty
  let binary := a == some own && b == some own
  if i.rsvd || !typeOk own then none
  else
    match i.op with
    | 0x01 => put (ins[i.imm]? == some own)
    | 0x02 => put (decide (i.imm < o.nconst) && i.ty != 0x0F && decide (o.constant i.imm < 2 ^ (8 * tyWidth i.ty)) &&
        (i.ty != 0x0D || decide (o.constant i.imm ≤ 1)))
    | 0x03 => if a == some own && outs[i.imm]? == some own && !p.outs.contains i.imm then
        some { p with outs := i.imm :: p.outs } else none
    | 0x10 | 0x11 => put (arith && binary)
    | 0x12 | 0x13 => put ((tyInt i.ty || tyFloat i.ty) && binary)
    | 0x14 => put (tyInt i.ty && binary)
    | 0x15 | 0x16 => put (arith && a == some own)
    | 0x17 | 0x18 | 0x2C => put binary
    | 0x20 | 0x21 | 0x22 | 0x23 | 0x24 | 0x25 => put (i.ty == 0x0D && a.isSome && a == b)
    | 0x28 | 0x29 => put (i.ty == 0x0D && binary)
    | 0x2A => put (i.ty == 0x0D && a == some own)
    | 0x2B => put (i.ty == 0x0D && a.isSome)
    | 0x2D => put (a == some (0x0D, 0) && b == some own && reg i.dst == some own)
    | 0x30 => put ((a.map (fun c => castOk c.1 i.ty)).getD false)
    | 0x31 => put (i.ty == 0x0E && a == some own && decide (i.imm < o.nconst) && o.constant i.imm != 0 && decide (o.constant i.imm < 2 ^ 64))
    | _ => none

/-- The type check of a program. -/
def ProgTypes.run (p : ProgTypes) (o : OpRec) (ins outs : List (Nat × Nat)) : List ProgInstr → Option ProgTypes
  | [] => some p
  | i :: is => (p.step o ins outs i).bind (fun q => q.run o ins outs is)

/-- The parameters of FILTER and COMPUTE (R211 to R215). -/
def Image.progOk (m : Image) (o : OpRec) : Bool :=
  let ins := m.inSchema o 0
  let outs := if o.kind = 0x02 && o.markMode then (o.schema 0).dropLast else o.schema 0
  decide (0x38 + 8 * o.ninstr + 16 * o.nconst ≤ o.par.length) && decide (1 ≤ o.ninstr) && decide (o.ninstr ≤ 256) &&
  decide (o.nconst ≤ 64) && o.f 0x35 3 == 0 && decide (o.f 0x33 1 ≤ 1) &&
  (o.kind == 0x02 || (o.keep == 0xFF && o.f 0x33 1 == 0)) &&
  (!(o.kind == 0x02 && o.markMode) || (o.schema 0).getLast? == some (0x0D, 0)) &&
  match (ProgTypes.mk (List.replicate 32 none) []).run o ins outs o.program with
  | some p => p.outs.length == outs.length && (o.kind != 0x02 || (p.regs[o.keep]?).getD none == some (0x0D, 0))
  | none => false

/-- The columns of a schema that a list names; none where an index is out of range. -/
def pickCols (schema : List (Nat × Nat)) (l : List Nat) : Option (List (Nat × Nat)) := l.mapM (fun c => schema[c]?)

/-- Key records over a schema (R219). -/
def OpRec.keysOk (o : OpRec) (n : Nat) (schema : List (Nat × Nat)) : Bool :=
  decide (1 ≤ n) && decide (n ≤ 4) && (o.keyRecords n).all (fun k => decide (k.col < schema.length)) &&
  (List.range n).all (fun i => decide (o.f (0x36 + 4 * i) 1 ≤ 1) && decide (o.f (0x37 + 4 * i) 1 ≤ 1))

/-- The parameters of an aggregation (R221, R222, R229). -/
def Image.aggOk (m : Image) (o : OpRec) : Bool :=
  let ins := m.inSchema o 0
  let win := o.kind == 0x32
  let res := o.aggs.mapM (fun a => a.result ins)
  decide (o.aggAt + 8 * o.nagg ≤ o.par.length) && decide (o.ngroup ≤ 8) && decide (1 ≤ o.nagg) && decide (o.nagg ≤ 16) &&
  decide (o.f 0x32 1 < (if win then 4 else 2)) && decide (o.f 0x33 1 ≤ (if win then 1 else 0)) && o.f 0x36 2 == 0 &&
  (List.range o.nagg).all (fun i => o.f (o.aggAt + 8 * i + 1) 1 == 0 && o.f (o.aggAt + 8 * i + 6) 2 == 0) &&
  (if win then
    ins[o.timeCol]? == some (0x0E, 0) && o.lenNs % 1000000000 == 0 && decide (1000000000 ≤ o.lenNs) &&
    decide (o.lenNs ≤ 604800000000000) && o.originNs % 1000 == 0 && decide (o.originNs < o.lenNs) &&
    o.lateNs % 1000 == 0 && decide (o.lateNs ≤ 604800000000000) && o.schema 3 == ins ++ [(0x05, 0)]
   else o.timeCol == noIndex && o.f 0x38 24 == 0) &&
  match pickCols ins o.groupCols, res with
  | some g, some r => o.schema 0 == (if win then [(0x0E, 0)] else []) ++ g ++ r
  | _, _ => false

/-- The parameters of HASH_JOIN (R216). -/
def Image.joinOk (m : Image) (o : OpRec) : Bool :=
  let build := m.inSchema o 0
  let probe := m.inSchema o 1
  decide (0x48 + 2 * (o.f 0x44 2 + o.f 0x46 2) ≤ o.par.length) && decide (o.jtype ≤ 3) && decide (1 ≤ o.nkeys) &&
  decide (o.nkeys ≤ 4) && decide (o.f 0x32 1 < 2) && o.f 0x33 1 == 0 &&
  (decide (o.jtype < 2) || o.f 0x46 2 == 0) &&
  match pickCols build o.buildKeys, pickCols probe o.probeKeys, pickCols probe o.probeOut, pickCols build o.buildOut with
  | some bk, some pk, some po, some bo => bk == pk && o.schema 0 == po ++ bo
  | _, _, _, _ => false

/-- The parameters of SCAN (R207). -/
def Image.scanOk (m : Image) (o : OpRec) : Bool :=
  match m.tables[o.table]? with
  | some t =>
    let n := o.f 0x30 2
    decide (0x60 ≤ o.par.length) && decide (1 ≤ n) && decide (n ≤ 64) && decide (o.f 0x32 2 < 8) &&
    (!o.scanFollow || (decide (1 ≤ o.pollUs) && decide (o.pollUs ≤ 1000000))) && decide (o.f 0x58 1 ≤ 4) &&
    o.f 0x59 7 == 0 && decide (o.predAt + 40 * o.f 0x58 1 ≤ o.par.length) &&
    (o.scanPreds.zipIdx).all (fun p => decide (p.1.col < t.types.length) && o.f (o.predAt + 40 * p.2 + 2) 6 == 0) &&
    o.scanCols.mapM (fun c => t.types[c]?) == some ((o.schema 0).map (·.1))
  | none => false

/-- The parameters of MATERIALIZE (R234, R236). -/
def Image.materializeOk (m : Image) (o : OpRec) : Bool :=
  let cols := fun (p : Nat) => (m.inSchema o p).map (·.1)
  let target := fun (t p : Nat) => ((m.tables[t]?).map (fun d => d.role == Role.result && d.types == cols p)).getD false
  let encs := (cols 0 ++ if o.hasIn 1 then cols 1 else [])
  decide (0x38 ≤ o.par.length) && decide (1 ≤ o.blockRows) && decide (o.blockRows ≤ 16384) && decide (o.f 0x32 1 < 4) &&
  o.f 0x33 1 == 0 && o.f 0x36 2 == 0 && target o.table 0 &&
  (if o.hasIn 1 then target o.table2 1 && o.table2 != o.table else o.table2 == noIndex) &&
  (!o.fixedEnc || (decide (0x38 + pad8 encs.length ≤ o.par.length) &&
    (encs.zipIdx).all (fun p => encPermitted p.1 (o.f (0x38 + p.2) 1))))

/-- The runs that a MERGE can be presented with: port and producer flow (R220). -/
def Image.mergeRuns (m : Image) (o : OpRec) : Nat :=
  ((List.range 4).map (fun p =>
    match (m.culms[o.ins.getD p noIndex]?).bind (fun c => m.ops[c.producer]?) with
    | some q => q.flows
    | none => 0)).foldl (· + ·) 0

/-- Check 10 for one operator (R196). -/
def Image.opOk (m : Image) (o : OpRec) : Bool :=
  o.commonOk && o.portsOk && o.modeOk &&
  match o.kind with
  | 0x01 => m.scanOk o
  | 0x02 | 0x03 => m.progOk o
  | 0x10 => m.joinOk o
  | 0x20 => decide (0x44 ≤ o.par.length) && o.f 0x31 3 == 0 && o.keysOk (o.f 0x30 1) (m.inSchema o 0) &&
      o.schema 0 == m.inSchema o 0
  | 0x21 => decide (0x44 ≤ o.par.length) && o.f 0x31 3 == 0 && o.keysOk (o.f 0x30 1) (o.schema 0) &&
      (List.range 4).all (fun p => !o.hasIn p || m.inSchema o p == o.schema 0) && decide (m.mergeRuns o ≤ 16)
  | 0x30 | 0x31 | 0x32 => m.aggOk o
  | 0x40 => decide (0x44 ≤ o.par.length) && decide (1 ≤ o.topK) && decide (o.topK ≤ 4096) && decide (o.f 0x32 1 < 2) &&
      o.keysOk (o.f 0x33 1) (m.inSchema o 0) && zeroAt o.par (0x34 + 4 * o.f 0x33 1) (16 - 4 * o.f 0x33 1) &&
      o.schema 0 == m.inSchema o 0
  | 0x50 => decide (0x31 ≤ o.par.length) && decide (o.f 0x30 1 ≤ 1) &&
      (List.range 4).all (fun p => !o.hasOut p || o.schema p == m.inSchema o 0)
  | _ => m.materializeOk o

/-- Check 10: PARAM_OFF and PARAM_LEN lie within OPPARAM (R151). -/
def paramPlaceOk (b : List Byte) (i : Nat) : Bool :=
  let r := (dirEntry b 0).1 + 64 * i
  leField b (r + 0x24) 4 % 8 == 0 && decide (leField b (r + 0x24) 4 + leField b (r + 0x28) 4 ≤ (dirEntry b 4).2)

/-! ### Checks 11 and 12 -/

/-- Bytes of a table head with its column-state entries (R152). -/
def headLen (columns : Nat) : Nat := 64 + 8 * columns

/-- Whether an address lies in the region of a LOCATION (R273). -/
def regionOk (loc a : Nat) : Bool :=
  match loc with
  | 0 => decide (a < 2 ^ 47)
  | 1 => bitOf a 46 && decide (a < 2 ^ 47)
  | _ => decide (a < 2 ^ 46)

/-- Check 11: a table declaration (R148, R132, R273). -/
def TableDecl.ok (t : TableDecl) : Bool :=
  decide (1 ≤ t.id) && decide (t.id ≤ 4095) && decide (t.role ≤ 2) && decide (t.loc ≤ 2) &&
  (t.role != Role.ingest || t.loc == 0) && decide (1 ≤ t.types.length) && decide (t.types.length ≤ 1024) &&
  t.types.all tyKnown && (t.timeCol == noIndex || t.types[t.timeCol]? == some 0x0E) && t.head % 64 == 0 &&
  t.area % 64 == 0 && t.areaLen % 64 == 0 && t.dir % 8 == 0 && t.dirLen % 8 == 0 &&
  allDisjoint [(t.head, headLen t.types.length), (t.area, t.areaLen), (t.dir, t.dirLen)] &&
  [t.head, t.area, t.dir].all (regionOk t.loc)

/-- The reserved bytes of the declarations from an offset on, and the section's length. -/
def tableRsvdOk (b : List Byte) : Nat → Nat → Bool
  | 0, r => r == (dirEntry b 2).1 + (dirEntry b 2).2
  | n + 1, r => zeroAt b (r + 0x30) 16 && tableRsvdOk b n (r + tableLen (leField b (r + 4) 2))

/-- Check 12: a start-parameter declaration (R149). -/
def paramDeclOk (b : List Byte) (m : Image) (i : Nat) : Bool :=
  let p := parseParam b i
  match m.ops[p.op]? with
  | some o => tyKnown p.ty && p.ty != 0x0F && decide (1 ≤ p.size) && decide (p.size ≤ 16) &&
      decide (p.offset + p.size ≤ o.par.length) && zeroAt b ((dirEntry b 3).1 + 16 * i + 8) 8
  | none => false

/-- Checks 1 to 12 but for the attachment of R153: the number of the first that fails. -/
def imageFail (b : List Byte) : Option Nat :=
  let m := parseImage b
  let len := imgLen b
  let checks : List (Nat × Bool) := [(1, decide (leField b 0 4 = 0x4E4C5053)), (2, decide (leField b 4 2 = 1)),
    (3, decide (len % 64 = 0) && decide (192 ≤ len) && decide (len ≤ 16777216)),
    (4, headerOk b), (5, directoryOk b), (6, digestOk b), (7, (List.range (imgOps b)).all (opRecordOk b)),
    (8, (List.range (imgCulms b)).all (culmRecordOk b m.ops) && portsOk m.culms m.ops), (9, acyclic m),
    (10, (List.range (imgOps b)).all (paramPlaceOk b) && m.ops.all m.opOk),
    (11, m.tables.all TableDecl.ok && tableRsvdOk b (imgTables b) (dirEntry b 2).1 &&
      m.granary == m.tables.any (fun t => t.loc == 0)),
    (12, (List.range (imgParams b)).all (paramDeclOk b m))]
  checks.findSome? (fun c => if c.2 then none else some c.1)

end Sys2Proof.Machine
end

