-- ==== Sys2Proof/Machine/Rows.lean ====
section
/-!
DEFINITION. What operators compute on rows: programs (R211 to R215), sort orders (R203, R219), aggregates (R222) and
joins (R218). Nothing here reads or writes the state.
-/

namespace Sys2Proof.Machine

/-- A row of a stream. -/
abbrev Row := List Value

/-- The operator error codes of R239, and those of R263, R295 and R449. -/
def Stop.overflow : Nat := 0x0201
def Stop.divZero : Nat := 0x0202
def Stop.workFull : Nat := 0x0203
def Stop.dupKey : Nat := 0x0204
def Stop.headInvalid : Nat := 0x0205
def Stop.stripeInvalid : Nat := 0x0206
def Stop.areaFull : Nat := 0x0207
def Stop.notSorted : Nat := 0x0208
def Stop.spillLost : Nat := 0x0301
def Stop.hwFault : Nat := 0x0501

/-! ### Programs -/

/-- A register of a program in one row: type, scale and value. -/
structure Cell where
  ty : Nat
  scale : Nat
  val : Value
  deriving DecidableEq, Repr

/-- A result in one row: a value, or a stop with its code. -/
abbrev CellResult := Except Nat Value

/-- A number as a value of a type, checked (R205). -/
def checked (t : Nat) (v : Int) : CellResult :=
  if tyInRange t v then .ok (.num (tyPattern t v)) else .error Stop.overflow

/-- Which of two equal values stands for both. -/
def tiePick (a b : Value) : Value := if Config.tieFirst a.pat b.pat then a else b

/-- The lesser or greater of two values (R203). -/
def lesser (t : Nat) (a b : Value) : Value :=
  match compareVal t a b with
  | .lt => a
  | .gt => b
  | .eq => tiePick a b
def greater (t : Nat) (a b : Value) : Value :=
  match compareVal t a b with
  | .gt => a
  | .lt => b
  | .eq => tiePick a b

/-- Arithmetic on two patterns (R205): float operations never trap. -/
def arith (op t : Nat) (a b : Nat) : CellResult :=
  if tyFloat t then
    let f := tyFmt t
    .ok (.num (match op with
      | 0x10 => f.add a b
      | 0x11 => f.sub a b
      | 0x12 => f.mul a b
      | _ => f.div a b))
  else
    let x := tyNumber t a
    let y := tyNumber t b
    match op with
    | 0x10 => checked t (x + y)
    | 0x11 => checked t (x - y)
    | 0x12 => checked t (x * y)
    | 0x13 => if y = 0 then .error Stop.divZero else checked t (x.tdiv y)
    | _ => if y = 0 then .error Stop.divZero else checked t (x.tmod y)

/-- NEG and ABS. -/
def negAbs (op t a : Nat) : CellResult :=
  if tyFloat t then .ok (.num (if op = 0x15 then (tyFmt t).negate a else (tyFmt t).mag a))
  else
    let x := tyNumber t a
    checked t (if op = 0x15 then -x else (x.natAbs : Nat))

/-- A truth value as a value. -/
def boolVal (b : Bool) : Value := .num (natOfBool b)

/-- The comparisons EQ to GE: a NaN makes every one false but NE (R204). -/
def comparison (op t : Nat) (a b : Value) : Value :=
  let nan := tyFloat t && ((tyFmt t).isNan a.pat || (tyFmt t).isNan b.pat)
  let c := compareVal t a b
  boolVal (if nan then op == 0x21
    else match op with
      | 0x20 => c == .eq
      | 0x21 => c != .eq
      | 0x22 => c == .lt
      | 0x23 => c != .gt
      | 0x24 => c == .gt
      | _ => c != .lt)

/-- AND, OR in three-valued logic (R204): the deciding value wins over null. -/
def threeValued (decider : Nat) (a b : Value) : Value :=
  if a = .num decider ∨ b = .num decider then .num decider
  else if a.isNull || b.isNull then .null
  else .num (1 - decider)

/-- CAST (R214) of a value that is not null. -/
def cast (a : Cell) (t scale : Nat) : CellResult :=
  let p := a.val.pat
  let x := tyNumber a.ty p
  if tyFloat a.ty && tyFloat t then .ok (.num ((tyFmt a.ty).convert (tyFmt t) p))
  else if tyFloat a.ty then
    match (tyFmt a.ty).frac p with
    | none => .error Stop.overflow
    | some (neg, num, den) =>
      let m := if tyDecimal t then roundHalfAway (num * 10 ^ scale) den else num / den
      checked t (if neg then -(m : Int) else (m : Int))
  else if tyFloat t then .ok (.num ((tyFmt t).round (decide (x < 0)) x.natAbs (10 ^ a.scale)))
  else if tyDecimal a.ty && tyDecimal t then
    if a.scale ≤ scale then checked t (x * (10 ^ (scale - a.scale) : Nat))
    else
      let m := roundHalfAway x.natAbs (10 ^ (a.scale - scale))
      checked t (if x < 0 then -(m : Int) else (m : Int))
  else if t = 0x0D then .ok (boolVal (x != 0))
  else checked t x

/-- The result of an instruction in one row, before NULL_ON_ERR (R213). `dst` is the destination's present value. -/
def instrResult (o : OpRec) (row : Row) (i : ProgInstr) (a b : Cell) (dst : Value) : CellResult :=
  let anyNull := a.val.isNull || b.val.isNull
  match i.op with
  | 0x01 => .ok (row.getD i.imm .null)
  | 0x02 => .ok (.num (o.constant i.imm))
  | 0x10 | 0x11 | 0x12 | 0x13 | 0x14 => if anyNull then .ok .null else arith i.op i.ty a.val.pat b.val.pat
  | 0x15 | 0x16 => if a.val.isNull then .ok .null else negAbs i.op i.ty a.val.pat
  | 0x17 => .ok (if anyNull then .null else lesser i.ty a.val b.val)
  | 0x18 => .ok (if anyNull then .null else greater i.ty a.val b.val)
  | 0x20 | 0x21 | 0x22 | 0x23 | 0x24 | 0x25 => .ok (if anyNull then .null else comparison i.op a.ty a.val b.val)
  | 0x28 => .ok (threeValued 0 a.val b.val)
  | 0x29 => .ok (threeValued 1 a.val b.val)
  | 0x2A => .ok (if a.val.isNull then .null else .num (1 - a.val.pat))
  | 0x2B => .ok (boolVal a.val.isNull)
  | 0x2C => .ok (if a.val.isNull then b.val else a.val)
  | 0x2D => .ok (if a.val = .num 1 then b.val else dst)
  | 0x30 => if a.val.isNull then .ok .null else cast a i.ty i.scale
  | _ =>
    let p := o.constant i.imm % 2 ^ 64
    .ok (if a.val.isNull then .null else .num (a.val.pat - a.val.pat % p))

/-- A program's work on one row: the registers, the output columns, and results made null by NULL_ON_ERR. -/
structure ProgRow where
  regs : List Cell
  outs : List (Nat × Value)
  nulled : Nat

/-- One instruction on one row; a stop carries the code and the instruction's index as detail (R239). -/
def ProgRow.step (p : ProgRow) (o : OpRec) (row : Row) (k : Nat) (i : ProgInstr) : Except (Nat × Nat) ProgRow :=
  let cell := fun (r : Nat) => p.regs.getD r ⟨0, 0, .null⟩
  if i.op = 0x03 then .ok { p with outs := (i.imm, (cell i.a).val) :: p.outs }
  else
    match instrResult o row i (cell i.a) (cell i.b) (cell i.dst).val with
    | .ok v => .ok { p with regs := p.regs.set i.dst ⟨i.ty, i.scale, v⟩ }
    | .error c =>
      if i.nullOnErr then .ok { p with regs := p.regs.set i.dst ⟨i.ty, i.scale, .null⟩, nulled := p.nulled + 1 }
      else .error (c, k)

/-- Runs a program on one row. -/
def ProgRow.run (p : ProgRow) (o : OpRec) (row : Row) : Nat → List ProgInstr → Except (Nat × Nat) ProgRow
  | _, [] => .ok p
  | k, i :: is => (p.step o row k i).bind (fun q => q.run o row (k + 1) is)

/-- What FILTER or COMPUTE makes of one row: the row it outputs, if any, and the results made null (R215). -/
def runProgram (o : OpRec) (row : Row) : Except (Nat × Nat) (Option Row × Nat) :=
  match (ProgRow.mk (List.replicate 32 ⟨0, 0, .null⟩) [] 0).run o row 0 o.program with
  | .error e => .error e
  | .ok p =>
    let n := o.outCols 0 - natOfBool (o.kind == Kind.filter && o.markMode)
    let out : Row := (List.range n).map (fun c => ((p.outs.find? (fun q => q.1 == c)).map (·.2)).getD .null)
    let keep := (p.regs.getD o.keep ⟨0, 0, .null⟩).val
    if o.kind = Kind.compute then .ok (some out, p.nulled)
    else if o.markMode then .ok (some (out ++ [keep]), p.nulled)
    else .ok (if keep = .num 1 then some out else none, p.nulled)

/-! ### Orders -/

/-- A list of columns of a row. -/
def rowCols (row : Row) (cols : List Nat) : Row := cols.map (fun c => row.getD c .null)

/-- Compares two rows by sort keys; `schema` gives the columns' types (R203, R219). DESC turns the order of values,
and leaves the place of nulls to NULLS_FIRST. -/
def compareRows (schema : List (Nat × Nat)) : List SortKey → Row → Row → Ordering
  | [], _, _ => .eq
  | k :: ks, a, b =>
    let t := (schema.getD k.col (0, 0)).1
    let x := a.getD k.col .null
    let y := b.getD k.col .null
    let c := if x.isNull || y.isNull then compareNull t k.nullsFirst x y
      else if k.desc then compareVal t y x else compareVal t x y
    match c with
    | .eq => compareRows schema ks a b
    | c => c

/-- Inserts a row after every row that does not sort after it: the order of arrival is kept among equals. -/
def insertRow (schema : List (Nat × Nat)) (ks : List SortKey) (r : Row) : List Row → List Row
  | [] => [r]
  | x :: xs => if compareRows schema ks r x = .lt then r :: x :: xs else x :: insertRow schema ks r xs

/-- A stable sort (R219). -/
def sortRows (schema : List (Nat × Nat)) (ks : List SortKey) (rows : List Row) : List Row :=
  rows.foldl (fun l r => insertRow schema ks r l) []

/-- Keeps the first K rows in key order, ties by earliest arrival (R232). -/
def topInsert (schema : List (Nat × Nat)) (ks : List SortKey) (k : Nat) (r : Row) (l : List Row) : List Row :=
  (insertRow schema ks r l).take k

/-- Compares group keys in ascending order, nulls first (R221, R224). -/
def compareKeys : List Nat → Row → Row → Ordering
  | t :: ts, a :: as, b :: bs =>
    match compareNull t true a b with
    | .eq => compareKeys ts as bs
    | c => c
  | _, _, _ => .eq

/-! ### Aggregates -/

/-- An accumulator: non-null rows (every row for COUNT of all), the exact sum, the float sum, and the value and ORDER
kept by MIN, MAX, FIRST_BY and LAST_BY. -/
structure Acc where
  count : Nat
  sum : Int
  fsum : Nat
  best : Value
  ord : Value
  deriving DecidableEq, Repr

/-- An accumulator of no row. -/
def Acc.empty : Acc := { count := 0, sum := 0, fsum := 0, best := .null, ord := .null }

/-- A float value as float64. -/
def asF64 (t p : Nat) : Nat := (tyFmt t).convert f64 p

/-- Adds a row's value to an accumulator (R222). -/
def Acc.add (x : Acc) (a : AggRec) (schema : List (Nat × Nat)) (row : Row) : Acc :=
  let t := (schema.getD a.arg (0, 0)).1
  let v := row.getD a.arg .null
  if a.func = 1 then (if a.arg = noIndex || !v.isNull then { x with count := x.count + 1 } else x)
  else if v.isNull then x
  else
    let n := { x with count := x.count + 1 }
    match a.func with
    | 2 | 5 =>
      if tyFloat t then { n with fsum := if x.count = 0 then asF64 t v.pat else f64.add x.fsum (asF64 t v.pat) }
      else { n with sum := x.sum + tyNumber t v.pat }
    | 3 => { n with best := if x.count = 0 then v else lesser t x.best v }
    | 4 => { n with best := if x.count = 0 then v else greater t x.best v }
    | f =>
      let ot := (schema.getD a.order (0, 0)).1
      let ov := row.getD a.order .null
      if ov.isNull then x
      else if x.count = 0 then { n with best := v, ord := ov }
      else
        let c := compareVal ot ov x.ord
        if (f = 6 && c == .lt) || (f == 7 && c != .lt) then { n with best := v, ord := ov } else n

/-- The result of an accumulator; none for OVERFLOW (R222). -/
def Acc.result (x : Acc) (a : AggRec) (schema : List (Nat × Nat)) : Option Value :=
  let c := schema.getD a.arg (0, 0)
  let out := ((a.result schema).getD (0, 0)).1
  if a.func = 1 then some (.num x.count)
  else if x.count = 0 then some .null
  else
    match a.func with
    | 2 =>
      if tyFloat c.1 then some (.num x.fsum)
      else if tyInRange out x.sum then some (.num (tyPattern out x.sum)) else none
    | 5 =>
      let s := if tyFloat c.1 then x.fsum else f64.round (decide (x.sum < 0)) x.sum.natAbs (10 ^ c.2)
      some (.num (f64.div s (f64.ofInt x.count)))
    | _ => some x.best

/-- A group (R222, R225): window start, key, accumulators. -/
structure AggGroup where
  ws : Nat
  key : Row
  accs : List Acc
  deriving DecidableEq, Repr

/-- The types of the group columns. -/
def OpRec.groupTypes (o : OpRec) (schema : List (Nat × Nat)) : List Nat :=
  o.groupCols.map (fun c => (schema.getD c (0, 0)).1)

/-- Whether a group is that of a key: nulls form one group, and all NaNs (R203). -/
def AggGroup.is (g : AggGroup) (types : List Nat) (ws : Nat) (key : Row) : Bool :=
  g.ws == ws && compareKeys types g.key key == .eq

/-- Adds a row to its group, which is made where there is none; groups stand in the order of their first rows. -/
def addToGroups (o : OpRec) (schema : List (Nat × Nat)) (ws : Nat) (row : Row) (gs : List AggGroup) : List AggGroup :=
  let types := o.groupTypes schema
  let key := rowCols row o.groupCols
  let add := fun (g : AggGroup) =>
    { g with key := (g.key.zip key).map (fun p => if p.1 = p.2 then p.1 else tiePick p.1 p.2),
             accs := (g.accs.zip o.aggs).map (fun p => p.1.add p.2 schema row) }
  if gs.any (fun g => g.is types ws key) then gs.map (fun g => if g.is types ws key then add g else g)
  else gs ++ [add { ws := ws, key := key, accs := o.aggs.map (fun _ => Acc.empty) }]

/-- The index of the first result that is none. -/
def firstNone : Nat → List (Option Value) → Option Nat
  | _, [] => none
  | i, none :: _ => some i
  | i, some _ :: l => firstNone (i + 1) l

/-- A group as an output row; an OVERFLOW gives the aggregate's index (R222, R239). -/
def groupRow (o : OpRec) (schema : List (Nat × Nat)) (g : AggGroup) : Except Nat Row :=
  let rs := (g.accs.zip o.aggs).map (fun p => p.1.result p.2 schema)
  match firstNone 0 rs with
  | some i => .error i
  | none => .ok ((if o.kind = Kind.windowAgg then [.num g.ws] else []) ++ g.key ++ rs.filterMap id)

/-- Inserts a group in ascending key order, nulls first. -/
def insertGroup (types : List Nat) (g : AggGroup) : List AggGroup → List AggGroup
  | [] => [g]
  | x :: xs => if compareKeys types g.key x.key = .lt then g :: x :: xs else x :: insertGroup types g xs

/-- Groups in ascending key order (SORT_OUT, R221). -/
def sortGroups (types : List Nat) (gs : List AggGroup) : List AggGroup := gs.foldl (fun l g => insertGroup types g l) []

/-- The start of the window of a time value (R225); none before ORIGIN_NS. -/
def OpRec.windowOf (o : OpRec) (t : Nat) : Option Nat :=
  if t < o.originNs then none else some (o.originNs + (t - o.originNs) / o.lenNs * o.lenNs)

/-- The due instant of a window (R225). -/
def OpRec.dueAt (o : OpRec) (ws : Nat) : Nat := ws + o.lenNs + o.lateNs

/-! ### Joins -/

/-- The key of a row with its types. -/
def keyOf (schema : List (Nat × Nat)) (cols : List Nat) (row : Row) : List (Nat × Value) :=
  cols.map (fun c => ((schema.getD c (0, 0)).1, row.getD c .null))

/-- Whether two keys match: a null matches nothing (R203). -/
def keysMatch (a b : List (Nat × Value)) : Bool :=
  (a.zip b).all (fun p => !p.1.2.isNull && !p.2.2.isNull && compareVal p.1.1 p.1.2 p.2.2 == .eq)

/-- The output rows of one probe row given its matches in some order (R218). -/
def joinRows (o : OpRec) (probe : Row) (found : List Row) : List Row :=
  let left := rowCols probe o.probeOut
  match o.jtype with
  | 0 => found.map (fun b => left ++ rowCols b o.buildOut)
  | 1 => if found.isEmpty then [left ++ o.buildOut.map (fun _ => .null)] else found.map (fun b => left ++ rowCols b o.buildOut)
  | 2 => if found.isEmpty then [] else [left]
  | _ => if found.isEmpty then [left] else []

/-- Bytes of a row of the join table: keys, build output columns, and 8 more (R217). -/
def OpRec.joinRowBytes (o : OpRec) (build : List (Nat × Nat)) : Nat :=
  ((o.buildKeys ++ o.buildOut).map (fun c => tyWidth (build.getD c (0, 0)).1)).foldl (· + ·) 0 + 8

/-- Bits 47 to 32 of the hash of a row's key (R217, R223). -/
def splitHash (key : List (Nat × Value)) : Nat := rowHash key / 2 ^ 32 % 2 ^ 16

/-- The partition of a key in LARGE mode: the low k bits of bits 47 to 32 of the row hash (R217). -/
def joinPartition (k : Nat) (key : List (Nat × Value)) : Nat := splitHash key % 2 ^ k

/-- 768 KiB. -/
def scratchTable : Nat := 786432

/-- The least k that brings every partition to 768 KiB or less, at most 12 (R217). -/
def largeLog (rowBytes : Nat) (hashes : List Nat) : Nat :=
  let fits := fun (k : Nat) => hashes.all (fun x =>
    decide ((hashes.filter (fun y => y % 2 ^ k == x % 2 ^ k)).length * rowBytes ≤ scratchTable))
  ((List.range 13).find? fits).getD 12

end Sys2Proof.Machine
end

