-- ==== Sys2Proof/Machine/Store.lean ====
section
/-!
DEFINITION. Sparse data by key in one canonical form: a list of (key, value) pairs. `Store.set` keeps the keys
rising, so equal contents are equal lists; registers, slots, tables and maps are held this way.
Its lemmas stand beside it because every later law rests on them.
-/

namespace Sys2Proof.Machine

/-- Sparse data by a natural-number key, keys strictly rising. -/
abbrev Store (α : Type) := List (Nat × α)

/-- The value stored under a key. -/
def Store.get? {α : Type} : Store α → Nat → Option α
  | [], _ => none
  | (k, v) :: m, q => if k = q then some v else Store.get? m q

/-- Stores a value under a key, at its place in the rising order. -/
def Store.set {α : Type} : Store α → Nat → α → Store α
  | [], q, w => [(q, w)]
  | (k, v) :: m, q, w =>
    if q < k then (q, w) :: (k, v) :: m
    else if k = q then (q, w) :: m
    else (k, v) :: Store.set m q w

/-- Removes a key. -/
def Store.erase {α : Type} (m : Store α) (q : Nat) : Store α := m.filter (fun p => p.1 ≠ q)

/-- Whether a key is present. -/
def Store.has {α : Type} (m : Store α) (q : Nat) : Bool := (m.get? q).isSome

/-- The value under a key, with what an absent key reads as. -/
def Store.getD {α : Type} (m : Store α) (q : Nat) (d : α) : α := (m.get? q).getD d

/-- Stores a value, where a value equal to the default is not listed. -/
def Store.put {α : Type} [DecidableEq α] (m : Store α) (q : Nat) (d v : α) : Store α :=
  if v = d then m.erase q else m.set q v

/-- The least key from `lo` on below `hi` that is absent; `none` when all are present. -/
def Store.firstFree {α : Type} (m : Store α) : Nat → Nat → Option Nat
  | _, 0 => none
  | k, fuel + 1 => if m.has k then Store.firstFree m (k + 1) fuel else some k

/-- The canonical form: keys strictly rising. -/
def Store.wf {α : Type} : Store α → Bool
  | [] => true
  | [_] => true
  | (k, _) :: (q, w) :: m => decide (k < q) && Store.wf ((q, w) :: m)

@[simp] theorem Store.get?_nil {α : Type} (q : Nat) : Store.get? ([] : Store α) q = none := rfl

@[simp] theorem Store.get?_set_self {α : Type} (m : Store α) (q : Nat) (w : α) :
    (Store.set m q w).get? q = some w := by
  induction m with
  | nil => simp [Store.set, Store.get?]
  | cons p m ih =>
    obtain ⟨k, v⟩ := p
    simp only [Store.set]
    split
    · simp [Store.get?]
    · split
      · simp [Store.get?]
      · simp [Store.get?, *]

theorem Store.get?_set_ne {α : Type} (m : Store α) {q r : Nat} (h : q ≠ r) (w : α) :
    (Store.set m q w).get? r = m.get? r := by
  induction m with
  | nil => simp [Store.set, Store.get?, h]
  | cons p m ih =>
    obtain ⟨k, v⟩ := p
    simp only [Store.set]
    split
    · simp [Store.get?, h]
    · split
      · subst_vars; simp [Store.get?, h]
      · simp [Store.get?, ih]

@[simp] theorem Store.get?_erase_self {α : Type} (m : Store α) (q : Nat) :
    (Store.erase m q).get? q = none := by
  induction m with
  | nil => rfl
  | cons p m ih =>
    obtain ⟨k, v⟩ := p
    by_cases hk : k = q
    · simpa [Store.erase, List.filter, hk] using ih
    · simpa [Store.erase, List.filter, hk, Store.get?] using ih

theorem Store.get?_erase_ne {α : Type} (m : Store α) {q r : Nat} (h : q ≠ r) :
    (Store.erase m q).get? r = m.get? r := by
  induction m with
  | nil => rfl
  | cons p m ih =>
    obtain ⟨k, v⟩ := p
    by_cases hk : k = q
    · subst hk
      simpa [Store.erase, List.filter, Store.get?, h] using ih
    · by_cases hr : k = r
      · subst hr; simp [Store.erase, List.filter, hk, Store.get?]
      · simpa [Store.erase, List.filter, hk, Store.get?, hr] using ih

@[simp] theorem Store.getD_put_self {α : Type} [DecidableEq α] (m : Store α) (q : Nat) (d v : α) :
    (Store.put m q d v).getD q d = v := by
  unfold Store.put Store.getD
  split <;> simp_all

theorem Store.getD_put_ne {α : Type} [DecidableEq α] (m : Store α) {q r : Nat} (h : q ≠ r) (d e v : α) :
    (Store.put m q d v).getD r e = m.getD r e := by
  unfold Store.put Store.getD
  split
  · rw [Store.get?_erase_ne m h]
  · rw [Store.get?_set_ne m h]

end Sys2Proof.Machine
end

