-- ==== Sys2Proof/Machine/State.lean ====
section
/-!
DEFINITION. The state of the block as plain data, and the state right after reset. Register fields live in the
sparse map `regs`; every other piece of state that the manual names or implies has a field of its own.
-/

namespace Sys2Proof.Machine

/-- Why the model stops. -/
inductive Fault where
  /-- A command whose operands no sender can form (`Sys2Proof.Instr.wellFormed` is false). Safe: the model stops. -/
  | illFormed
  deriving DecidableEq, Repr

/-- Why the model refuses a command. -/
inductive Refusal where
  /-- No meaning yet for the command of this mnemonic. Safe: the model stops. -/
  | notModelled (mnemonic : String)
  deriving DecidableEq, Repr

/-- The PASID prefix of a request: its value; Execute Requested and Privileged Mode Requested (R276). -/
structure Pasid where
  value : Nat
  execute : Bool
  privileged : Bool
  deriving DecidableEq, Repr

/-- How a request goes to the host (R276, R285, R290): its address context, its PASID, whether it is a translated request
(AT = 10b) or an untranslated one, and its ordering attributes. -/
structure HostVia where
  ctx : Nat
  pasid : Option Pasid
  translated : Bool
  attributes : Nat
  deriving DecidableEq, Repr

/-- Everything the block sends: register reads' values, messages and pin-level answers leave the block here. -/
inductive Output where
  /-- The MSI-X message of a vector (R79). -/
  | msix (vector : Nat)
  /-- A completion entry written to a pair's completion ring: pair, ring index, the host address on the link, 16 bytes (R94). -/
  | cqEntry (pair index : Nat) (via : HostVia) (addr : Nat) (entry : BitVec 128)
  /-- A write request to host memory: address, bytes (R290). -/
  | hostWrite (via : HostVia) (addr : Nat) (bytes : List Byte)
  /-- A read request for host memory: address, length (R290). -/
  | hostRead (via : HostVia) (addr len : Nat)
  /-- The value of a register read by a requester (R45). -/
  | regRead (r : Requester) (value : Nat)
  /-- S2M NDR Cmp of a CXL.mem write to a host address (R72). -/
  | cxlCmp (hpa : Nat)
  /-- S2M DRS of a CXL.mem read: tag, line, poison (R73). -/
  | cxlData (tag : Nat) (line : Line) (poison : Bool)
  /-- The answer to a Global Persistent Flush phase (R78). -/
  | gpfAck (second : Bool)
  /-- A completion of the CXL memory-device mailbox: opcode, return code, payload (R83). -/
  | cxlReply (opcode code : Nat) (payload : List Byte)
  /-- An error reported through AER (R81). -/
  | aer (kind : LinkErrorKind)
  /-- A surprise link down reported through AER (R81). -/
  | aerLinkDown
  /-- The link goes to electrical idle (R472, R363). -/
  | linkIdle
  /-- An ATS translation request: identifier, page, and whether it asks for write permission (R285). -/
  | transReq (id : Nat) (via : HostVia) (page : Nat) (write : Bool)
  /-- A PRI page request: page, write, and the mark of the last of its group (R286). -/
  | pageReq (via : HostVia) (page : Nat) (write last : Bool)
  /-- An ATS invalidation completion: tag (R288). -/
  | invalDone (tag : Nat)
  /-- An interrupt to the Clatos firmware with the calendar argument (R61). -/
  | fwInterrupt (arg : Nat)
  /-- The non-maskable trap to a Clatos core (R439). -/
  | nmi (core : Nat)
  /-- An MCTP message sent on SMBus: destination endpoint, tag, message type and body (R484, R486). -/
  | mctp (dest tag : Nat) (bytes : List Byte)
  /-- A message start that the SMBus port does not take (R485). -/
  | smbusNack
  /-- The S96's answer to the Alert Response Address (R489). -/
  | alertResponse (addr : Nat)
  /-- An SMBus transaction aborted by the bus timeout (R525). -/
  | smbusAbort
  deriving DecidableEq, Repr

/-- A chip reset asked for and not begun: RST_CAUSE.REQ, the source of a reaction, whether it is a Darsum device
reset and whether it loads the newest committed release (R112, R462, R468). -/
structure ResetReq where
  req : Nat
  source : Nat
  device : Bool
  loadCommitted : Bool
  deriving DecidableEq, Repr

/-- Power, pins and resets in progress (R23, R459, R472, R516, R517, R520, R521). -/
structure Power where
  /-- AUX is within limits and the management core has started (R481). -/
  aux : Bool
  /-- HOLD_PWRGD is asserted and the HOLD domain runs (R461). -/
  hold : Bool
  /-- MAIN_PWRGD is asserted, taken, and MAIN not isolated (R460, R517). -/
  main : Bool
  /-- PERST_N is asserted. -/
  perst : Bool
  /-- The function, link, other MAIN and HOLD groups are held in reset (R472 step 4, R506). -/
  held : Bool
  /-- A chip reset has begun and ingress has not reopened (R472, R473). -/
  chipReset : Bool
  /-- A chip reset requested and not yet begun (R447, R497). -/
  request : Option ResetReq
  /-- A chip reset deferred while the state word is DUMPING (R451). -/
  deferred : Option ResetReq
  /-- Power-fail detection is armed (R520). -/
  armed : Bool
  /-- A detection has fired and power has not returned since (R521). -/
  failed : Bool
  /-- A detection has fired during the present dump or park (R364). -/
  failedInDump : Bool
  /-- HOLD_SEL drives high (R516). -/
  holdSel : Bool
  /-- MAIN_EN drives high (R517). -/
  mainEn : Bool
  /-- BANK_TEST is asserted (R349). -/
  bankTest : Bool
  /-- THERMTRIP_N is asserted (R527). -/
  thermtrip : Bool
  /-- PowerState is D3hot (R478). -/
  d3hot : Bool
  /-- Device time of the HOLD_PWRGD assertion (R444). -/
  holdBase : Nat
  /-- The TREF_VIO strap as read at HOLD power-up: true selects 3.3 V (R523). -/
  trefVio : Bool
  /-- The next bring-up loads the newest committed release, else the running one (R462). -/
  loadCommitted : Bool
  /-- MAIN has dropped since HOLD power-good: its next power-good ends a MAIN power cycle (R468). -/
  mainDue : Bool
  /-- HOLD has been powered since AUX came up: its next power-good ends a HOLD power cycle (R468). -/
  holdSeen : Bool
  deriving DecidableEq, Repr

/-- A load of field time captured at arming (R53, R54). -/
structure PendingLoad where
  value : Nat
  at_ : Nat
  refSeen : Bool
  deriving DecidableEq, Repr

/-- The time block's own state beside its registers (R44 to R54). -/
structure TimeBlock where
  /-- The count in ns (R44). -/
  count : Nat
  /-- Parts of 1e-9 ns left over by slewed increments (R46). -/
  frac : Nat
  /-- The phase error being removed, in ns; 0 when no slew is in force (R46). -/
  slew : Int
  /-- The count at which the slew ends (R46). -/
  slewEnd : Nat
  /-- Device time of the last TIME_REF edge (R50), and of the edge from which the interpolation grows (R45). -/
  edgeAt : Nat
  interpAt : Nat
  /-- The greatest value that a read of FT_NOW has returned: no later read returns less (R45). -/
  floor : Nat
  /-- Whether qualification windows run (R50). -/
  windows : Bool
  /-- Device time at which the running window started, the TIME_REF edges in it, and those after its end (R50). -/
  windowAt : Nat
  windowEdges : Nat
  nextEdges : Nat
  /-- Consecutive windows in and out of tolerance. -/
  good : Nat
  bad : Nat
  /-- The armed load (R53). -/
  pending : Option PendingLoad
  /-- The count at the last PPS edge or counted gap (R46). -/
  ppsMark : Nat
  /-- The latches of R45 by requester. -/
  latches : List (Requester × Nat)
  deriving DecidableEq, Repr

/-- A calendar entry (R56, R62). `past` marks one written with its instant already passed (R58). -/
structure CalEntry where
  instant : Nat
  period : Nat
  target : Nat
  action : Nat
  arg : Nat
  late : Bool
  missed : Nat
  past : Bool
  deriving DecidableEq, Repr

/-- A firing pending at its target (R57, R59). -/
structure Firing where
  index : Nat
  target : Nat
  action : Nat
  arg : Nat
  late : Bool
  at_ : Nat
  deriving DecidableEq, Repr

/-- The event calendar (R56): valid entries by index, and firings pending at their targets in firing order. -/
structure Calendar where
  /-- Valid entries by index (R56). -/
  entries : Store CalEntry
  /-- What the entries that turned invalid by firing hold: VALID is 0, LATE and MISSED as the firing left them (R57 to R59). -/
  spent : Store CalEntry
  /-- Firings pending at their targets, in firing order (R57). -/
  firings : List Firing
  /-- The whole µs of field time last evaluated, since the count last took a loaded value (R56). -/
  evaluated : Option Nat
  deriving DecidableEq, Repr

/-- An HDM decoder (R70, R71). -/
structure Hdm where
  committed : Bool
  err : Bool
  base : Nat
  size : Nat
  ways : Nat
  gran : Nat
  deriving DecidableEq, Repr

/-- An MSI-X table entry (R80, R498). -/
structure MsixEntry where
  addr : Nat
  data : Nat
  masked : Bool
  deriving DecidableEq, Repr

/-- An event record of the CXL event logs (R83): the log, the record's handle, its timestamp, the source and its instance. -/
structure CxlEvent where
  log : Nat
  handle : Nat
  time : Nat
  source : Nat
  instance_ : Nat
  deriving DecidableEq, Repr

/-- The media scan of the CXL mailbox (R83). -/
structure MediaScan where
  start : Nat
  length : Nat
  done : Bool
  found : List Nat
  deriving DecidableEq, Repr

/-- What a write of the window that waits at the link answers when it is accepted (R72, R83): the Cmp of a CXL.mem write to a
host address, or the completion of a memory-device command. -/
inductive CxlAnswer where
  | cmp (hpa : Nat)
  | reply (opcode : Nat)
  deriving DecidableEq, Repr

/-- A write of the window that waits for a reservation at the link (R31, R76): its answer, window line, data, poison. -/
structure CxlWait where
  answer : CxlAnswer
  line : Nat
  data : Line
  poison : Bool
  deriving DecidableEq, Repr

/-- A base address register of function 0 (R68): the address the host set, its size, 64-bit or not, prefetchable or not. -/
structure Bar where
  addr : Nat
  size : Nat
  wide : Bool
  prefetch : Bool
  deriving DecidableEq, Repr

/-- The host link and the CXL memory device (R64 to R87). -/
structure Link where
  /-- HDM decoders 0 and 1 (R70, R71). -/
  hdm0 : Hdm
  hdm1 : Hdm
  /-- The BARs of function 0 (R68). -/
  bar0 : Bar
  bar2 : Bar
  /-- What the GPF DVSEC reports: Phase 2 duration in µs and power in mW (R78). -/
  gpfUs : Nat
  gpfMw : Nat
  /-- The first error that AER logged, with its packet's header (R64). -/
  aerFirst : Option (LinkErrorKind × BitVec 128)
  /-- A rung doorbell of the memory-device mailbox that no core has answered (R83). -/
  doorbell : Bool
  /-- The MSI-X table entries that the host has written (R80, R498). -/
  msix : Store MsixEntry
  /-- Vectors with a pending bit set (R80). -/
  pba : List Nat
  /-- Host-set PCIe controls that a rule reads: Max_Read_Request_Size in bytes, 10-bit tags, ATS enable, PRI enable. -/
  maxRead : Nat
  tenBitTags : Bool
  atsEnable : Bool
  priEnable : Bool
  /-- The Response Failure status of the PRI capability (R287). -/
  priFailure : Bool
  /-- CXL event records, oldest first; the next handle; the interrupt policy. -/
  events : List CxlEvent
  /-- The handle of the next event record (R83). -/
  nextHandle : Nat
  /-- The event interrupt policy (R83). -/
  policy : Nat
  /-- The CXL timestamp: value set and device time of the setting. -/
  stampSet : Nat
  stampAt : Nat
  /-- The label storage area in the vault: bytes that are not zero. -/
  lsa : Store Byte
  /-- The alert configuration (R83). -/
  alertConfig : Nat
  /-- The shutdown state (R83). -/
  shutdownState : Nat
  /-- The media scan started last (R83). -/
  scan : Option MediaScan
  /-- Writes of the window that wait at the link for a reservation, oldest first (R344). -/
  waiting : List CxlWait
  /-- CXL.mem reads waiting for a fetch, oldest first: tag and window offset (R73, R373). -/
  reads : List (Nat × Nat)
  deriving DecidableEq, Repr

/-- A fault record (R444). -/
structure FaultRecord where
  devNs : Nat
  ft : Nat
  info : Nat
  seq : Nat
  source : Nat
  inst : Nat
  flags : Nat
  reactions : Nat
  deriving DecidableEq, Repr

/-- A Clatos core as the hub and its watchdog see it (R448). -/
inductive CoreState where
  | running
  | trapped (since : Nat)
  | blockReset (since : Nat)
  deriving DecidableEq, Repr

/-- The fault hub beside its registers (R434 to R458). -/
structure Hub where
  /-- Events since HOLD power-good, the last SEQ given (R444). -/
  seq : Nat
  /-- Records waiting to enter the history queue, oldest first (R446). -/
  intake : List FaultRecord
  /-- Events were skipped since the last record written (R446). -/
  skipped : Bool
  /-- Armed checkers: source and checker (R455). -/
  armed : List (Nat × Nat)
  /-- AUX copies of the first-error capture and of the state word (R29). -/
  auxFirst : List Nat
  auxGrn : Nat
  /-- The four Clatos cores. -/
  core0 : CoreState
  core1 : CoreState
  core2 : CoreState
  core3 : CoreState
  /-- Device time of the last Clatos core block reset (R448). -/
  lastCoreReset : Option Nat
  /-- The management core is in block reset (R448). -/
  mgmtReset : Bool
  /-- Retired tillers (R449), kept in the Granary core. -/
  retiredTillers : List Nat
  /-- Device time of each tiller's last block reset (R449). -/
  tillerResets : Store Nat
  /-- The pacing store: the last SET_PACING of each target 0x02 to 0x07 (R470). -/
  pacing : Store CalEntry
  deriving DecidableEq, Repr

/-- A vendor message waiting at the management core (R485). -/
structure Mgmt where
  /-- Vendor messages taken and not answered, oldest first. -/
  queue : List VendorMsg
  /-- Bytes 0x000 to 0x07F of IDENTIFY as captured at the last firmware load (R488). -/
  identity : List Byte
  /-- Telemetry entries last committed, kept in AUX (R495): index and entry. -/
  committed : Store CalEntry
  /-- The SEQ of the next telemetry record (R493). -/
  telSeq : Nat
  /-- Junction readings at or above T_TRIP since this device time, by sensor (R527). -/
  hotSince : Store Nat
  deriving DecidableEq, Repr

/-- A 4 KiB unit of a vault segment (R358): window page or manifest block, PATCH, line mask, 64 lines. `bad` marks
lines of a patch whose landing-buffer line was poisoned, which the tag has no place for. -/
structure VaultUnit where
  page : Nat
  patch : Bool
  mask : Nat
  lines : List Line
  bad : Nat
  deriving DecidableEq, Repr

/-- The kinds of segment (R359). -/
inductive SegKind where
  | base
  | winnow
  | dump
  | manifest
  deriving DecidableEq, Repr

/-- The seal of a segment (R359): trailer erased, seal verifies, or written and not verifying. -/
inductive SealState where
  | erased
  | verified
  | damaged
  deriving DecidableEq, Repr

/-- A vault segment (R358, R359). -/
structure Segment where
  seq : Nat
  kind : SegKind
  gen : Nat
  windowLen : Nat
  ft : Nat
  units : List VaultUnit
  verdict : SealState
  deriving DecidableEq, Repr

/-- The GRANARY_CONFIG block in force (R340), defaults filled in. -/
structure GrnConfig where
  op : Nat
  windowLen : Nat
  ceiling : Nat
  eReserve : Nat
  derate : Nat
  winHiPct : Nat
  winRate : Nat
  deltaLimit : Nat
  deriving DecidableEq, Repr

/-- A chain record (R360). -/
structure ChainRecord where
  event : Nat
  baseSlot : Nat
  gen : Nat
  chainFirst : Nat
  dumpFirst : Nat
  dumpLast : Nat
  dirtyShutdowns : Nat
  ft : Nat
  config : GrnConfig
  dumps : Nat
  deriving DecidableEq, Repr

/-- A line the landing buffer holds (R343): window offset of the line, data, poison. -/
structure LandLine where
  line : Nat
  data : Line
  poison : Bool
  deriving DecidableEq, Repr

/-- Who waits for a reservation or for a page (R351, R372): the link, a command of a mailbox by its acceptance number, a task. -/
inductive Waiter where
  | cxl
  | mailbox (n id : Nat)
  | task (slot : Nat)
  deriving DecidableEq, Repr

/-- A fetch of an unrestored page (R373). -/
structure Fetch where
  page : Nat
  onDemand : Bool
  deriving DecidableEq, Repr

/-- The dump in progress (R363, R368, R369). -/
structure Dump where
  /-- The landing buffer has drained and DUMP_OPEN is written. -/
  opened : Bool
  /-- SEQ of the dump's first segment. -/
  first : Nat
  /-- The next page the dump considers. -/
  nextPage : Nat
  /-- The dump runs with the state word FAILED (R377). -/
  inFailed : Bool
  deriving DecidableEq, Repr

/-- The bank measurement in progress (R349): its step, the voltages and times. -/
structure Measure where
  v0 : Nat
  at_ : Nat
  v1 : Option Nat
  deriving DecidableEq, Repr

/-- A rebase in progress (R355): the slot being written, the next page, S. -/
structure Rebase where
  slot : Nat
  nextPage : Nat
  seqS : Nat
  /-- The open base segment. -/
  seg : Segment
  /-- Base segments written so far, by slot index. -/
  done : Store Segment
  deriving DecidableEq, Repr

/-- The Granary beside its registers (R340 to R377). -/
structure Granary where
  /-- The configuration in force (R340). -/
  config : GrnConfig
  /-- Ingress to the Granary is closed (R85, R363, R472). -/
  closed : Bool
  /-- The lines that the landing buffer holds (R343). -/
  landing : List LandLine
  /-- Dirty pages (R346). -/
  dirty : PageSet
  /-- Pages not yet restored (R371). -/
  unrestored : PageSet
  /-- Reservations outstanding, in pages (R351). -/
  reserved : Nat
  /-- The writes waiting for a reservation, oldest first (R351). -/
  waiters : List Waiter
  /-- Reservations granted to waiters that have not used them. -/
  granted : List Waiter
  /-- BUDGET in bytes (R350). -/
  budget : Nat
  /-- The samples of V_bank in the averaging window, mV, newest first (R348). -/
  samples : List Nat
  /-- The bank measurement in progress (R349). -/
  measure : Option Measure
  /-- The in-flight table: page, and whether a write reached it during its copy (R354). -/
  inflight : List (Nat × Bool)
  /-- The open winnower segment and the device time of its first unit (R353). -/
  openSeg : Option (Segment × Nat)
  /-- Segments written and waiting for the trailer's read-back, oldest first, with their in-flight pages. -/
  sealing : List Segment
  /-- Pages left in the running low-level pass; none when no pass runs (R353). -/
  pass : Option Nat
  /-- The rebase in progress (R355). -/
  rebase : Option Rebase
  /-- Sealed and damaged delta segments in SEQ order (R361). -/
  deltas : List Segment
  /-- The next segment sequence number (R361). -/
  nextSeq : Nat
  /-- The image slots A and B: base segments by index (R357). -/
  slotA : Store Segment
  slotB : Store Segment
  /-- The valid records of each copy of the chain record, newest first (R360). -/
  rec0 : List ChainRecord
  rec1 : List ChainRecord
  /-- Fetches in progress or waiting, oldest first (R373). -/
  fetches : List Fetch
  /-- The dump in progress (R363, R368, R369). -/
  dump : Option Dump
  /-- A channel service dump led to this state (R364, R367). -/
  channelDump : Bool
  /-- The chain record in force at the last power-up of HOLD (R430). -/
  bootRecord : Option ChainRecord
  /-- The pages a restore found lost (R361, R375). -/
  lost : PageSet
  /-- Those of the lost pages whose newest copy lay in an unsealed delta (R300, R375). -/
  unsealed : PageSet
  /-- The dirty shutdowns counted (R84, R375). -/
  dirtyShutdowns : Nat
  /-- The CXL poison list of the window: line numbers, and pages of an unsealed delta (R83, R375). -/
  poisonPages : PageSet
  /-- Segments whose damage the gleaner has reported, by area and sequence number (R356). -/
  reported : List (Nat × Nat)
  /-- Background activities have stopped at a power-fail detection, and the restore has not reached lazily-ready since (R33). -/
  quiet : Bool
  deriving DecidableEq, Repr
/-- What a parked requester waits on (R292): a translation request, a page request group, a page of the window. -/
inductive PageWait where
  | trans (id : Nat)
  | group (ctx page : Nat)
  | window (page : Nat)
  deriving DecidableEq, Repr

/-- A completion held while its CQ was full, or about to be written (R94): SEQ, code, RESULT, NO_IRQ. -/
structure Cpl where
  seq : Nat
  status : Nat
  result : Nat
  noIrq : Bool
  deriving DecidableEq, Repr

/-- A mailbox pair beside its registers (R90, R94, R95, R109). -/
structure Pair where
  sqBase : Nat
  cqBase : Nat
  sqLog : Nat
  cqLog : Nat
  coalCount : Nat
  coalTime : Nat
  cqHead : Nat
  phase : Bool
  /-- Unsignalled completions and the device time of the first of them (R95). -/
  unsignalled : Nat
  firstAt : Option Nat
  held : List Cpl
  /-- The command at HEAD is being held by the spill quota or the governor (R93). -/
  holding : Bool
  /-- It is the governor that holds it (R93, R351). -/
  governed : Bool
  /-- What a completion waits on before it can be written to the CQ, and the fetch of a command from the SQ (R292). -/
  waits : List PageWait
  sqWaits : List PageWait
  deriving DecidableEq, Repr

/-- The last writes of a command that is otherwise done, each with its address, and the completion that follows them. -/
structure Owed where
  writes : List (Nat × List Byte)
  code : Nat
  result : Nat
  deriving DecidableEq, Repr

/-- An accepted command (R93): acceptance number, mailbox, the 64 bytes, whether it has begun (R100), and how much
of it is done: lines of an INGEST accepted. -/
structure Accepted where
  id : Nat
  mb : Mailbox
  cmd : Line
  begun : Bool
  progress : Nat
  /-- Its transfer is parked, and what it waits on (R292). -/
  parked : Bool
  waits : List PageWait
  /-- What it has still to write to the host before it completes. -/
  owed : Option Owed
  /-- The spill record that keeps it while it has no place in the on-chip queue (R262). -/
  record : Option Nat
  deriving DecidableEq, Repr

/-- A command that has just been accepted. -/
def Accepted.new (id : Nat) (mb : Mailbox) (c : Line) : Accepted :=
  { id := id, mb := mb, cmd := c, begun := false, progress := 0, parked := false, waits := [], owed := none, record := none }

/-- The mailboxes and the Darsum firmware (R88 to R114). -/
structure Mailboxes where
  pairs : Store Pair
  accepted : List Accepted
  nextId : Nat
  /-- EXP_SEQ of the admin mailbox (R96). -/
  admSeq : Nat
  /-- The pair served last (R102). -/
  lastPair : Nat
  /-- The release the Clatos cores run (0 none) (R462), and the one committed for the next load (0 none) (R110). -/
  running : Nat
  committed : Nat
  deriving DecidableEq, Repr

/-- The service classes of the DRAM controllers (R307), most urgent first. -/
inductive DramClass where
  | guard
  | host
  | engine
  | background
  deriving DecidableEq, Repr

/-- What a queued DRAM request does when it is served (R308, R309): a write was performed when it was accepted. -/
inductive DramKind where
  /-- A CXL.mem read of decoder 0 or 1: its tag. -/
  | cxlRead (tag : Nat)
  /-- A write already performed. -/
  | write
  /-- A write of part of a line, already performed as read-modify-write (R316). -/
  | masked
  /-- A read whose data its requester has, and the task that made it. -/
  | read (task : Option Nat)
  deriving DecidableEq, Repr

/-- A request in a bank's queue (R308): bank, row, burst, DPA of the line, class, arrival, promotion, page-policy hint. -/
structure DramReq where
  bank : BankId
  row : Nat
  col : Nat
  dpa : Nat
  cls : DramClass
  kind : DramKind
  at_ : Nat
  promoted : Bool
  hint : Nat
  deriving DecidableEq, Repr

/-- A retraining in progress (R325 to R327): physical rank, attempts made, ZQ calibration only. -/
structure Retraining where
  rank : Nat
  attempts : Nat
  zqOnly : Bool
  deriving DecidableEq, Repr

/-- The DRAM beside the controllers' registers (R301 to R339). -/
structure Dram where
  /-- Bytes by device physical address (R306); an unlisted byte reads zero. -/
  cells : List Host.Cell
  /-- DPAs of lines stored as poisoned (R316). -/
  poison : List Nat
  /-- Requests in the bank queues, oldest first (R308). -/
  queue : List DramReq
  /-- Open rows by bank, and the time at which the adaptive policy closes each (R311). -/
  openRows : List (BankId × Nat × Option Nat)
  /-- The 32-entry tables of activated rows by bank: row and count (R321). -/
  tables : List (BankId × List (Nat × Nat))
  /-- Refreshes of the window and the nominal time of the next one, by 4 * channel + rank (R318, R319, R321). -/
  refCount : Store Nat
  refNext : Store Nat
  /-- Times of C/A parity errors by 4 * channel + rank (R317). -/
  parity : Store (List Nat)
  /-- Retrainings in progress by channel. -/
  retraining : Store Retraining
  /-- Attempts of the bring-up training by channel (R323). -/
  trainTries : Store Nat
  /-- Device time of the last request by 4 * channel + rank (R329). -/
  lastUse : Store Nat
  /-- The last rank visited by the rotation of R324, as 4 * channel + rank. -/
  rotation : Option Nat
  /-- Ranks retired on the record, by 4 * channel + rank (R336). -/
  retired : List Nat
  /-- Ranks of CH4 to CH11 whose migration a MAIN drop ended, and which starts again at the next bring-up (R337). -/
  restart : List Nat
  deriving DecidableEq, Repr


/-- The states of a flash block (R399). `unread` is a block in no recorded state after a reset: it counts as FULL, and
its NP is found on its first PROGRAM (R403). -/
inductive BlockState where
  | free
  | open_ (np : Nat)
  | full
  | unread
  | erasing
  | incomplete
  | bad
  | system
  deriving DecidableEq, Repr

/-- A programmed flash page: its data bytes and its four sector tags (R378). -/
structure FlashPage where
  data : List Byte
  tags : List (BitVec 128)
  deriving DecidableEq, Repr

/-- An entry of the block-state journal (R401). -/
structure JournalEntry where
  op : Nat
  ch : Nat
  die : Nat
  block : Nat
  arg : Nat
  erases : Nat
  deriving DecidableEq, Repr

/-- What a record of the journal holds: entries, or a checkpoint of every group's erase count and the group map, which may span
several pages (R401). -/
inductive JournalBody where
  | entries (es : List JournalEntry)
  | checkpoint (span : Nat) (erases groups : List (Nat × Nat))
  deriving DecidableEq, Repr

/-- A record of the journal ring (R401): its SEQ and its page of the ring. -/
structure JournalPage where
  seq : Nat
  place : Nat
  body : JournalBody
  deriving DecidableEq, Repr

/-- An entry of a bad-block table (R405). -/
structure BadEntry where
  ch : Nat
  die : Nat
  block : Nat
  spare : Nat
  cause : Nat
  deriving DecidableEq, Repr

/-- A page of a bad-block table (R405): KIND grown or factory, PAGE_IDX, PAGES, GEN, its entries and CRC. -/
structure BadPage where
  grown : Bool
  idx : Nat
  pages : Nat
  gen : Nat
  entries : List BadEntry
  crc : Nat
  deriving DecidableEq, Repr

/-- A descriptor that a die executes (R385, R386): its queue, the descriptor, when it started, when it last started or
resumed, whether it has been suspended, and the pages a PROGRAM writes, plane by plane. -/
structure DieOp where
  queue : Nat
  desc : Line
  start : Nat
  since : Nat
  suspended : Bool
  pages : List FlashPage
  deriving DecidableEq, Repr

/-- A firmware copy in the vault (R111, R462): the release it carries, and the bytes of its image that are not zero. -/
structure FirmwareCopy where
  release : Nat
  bytes : Store Byte
  deriving DecidableEq, Repr

/-- The flash vault and its controller beside their registers (R378 to R413). Contents are not volatile. -/
structure Flash where
  /-- Controller states of physical blocks that are not `unread`, by 4096 * stripe die + block. -/
  blocks : Store BlockState
  /-- Pages programmed from page 0 on in a physical block, as the cells hold it. -/
  np : Store Nat
  /-- Programmed pages by (4096 * stripe die + block) * 1536 + page. -/
  pages : Store FlashPage
  /-- Erase counts of physical groups by 1024 * die + group. -/
  erases : Store Nat
  /-- Reads of physical groups since the last erase (R410). -/
  reads : Store Nat
  /-- Groups whose relocation is due and waits (R410), by 1024 * die + group. -/
  relocate : List Nat
  /-- The spare map and the group map where they differ from identity (R380). -/
  spares : Store Nat
  groups : Store Nat
  /-- Uncorrectable reads per block in this upkeep pass (R406). -/
  uncorrectable : Store Nat
  /-- The journal ring of both copies, oldest first (R401), and the ERASE_DONE entries not yet written, with their times
  (R402). -/
  journal : List JournalPage
  waitingDone : List (JournalEntry × Nat)
  /-- The factory bad-block table, block 14 of both copies, and the grown tables of copy 0 and copy 1, block 15, oldest first
  (R405). -/
  factory : List BadPage
  grown0 : List BadPage
  grown1 : List BadPage
  /-- Groups that the vault has lost for want of relief groups (R404), by 1024 * die + group. -/
  lostGroups : List Nat
  /-- What each die executes, and the program or erase it has suspended (R386). -/
  running : Store DieOp
  held : Store DieOp
  /-- The queue served last within each class (R385). -/
  lastQueue : Store Nat
  /-- Descriptors whose fetched copies wait, by queue: fetched from HEAD on, oldest first (R384). -/
  fetched : List (Nat × Line)
  /-- The queues whose next completion carries PHASE 0 (R390). -/
  phase0 : List Nat
  /-- The option record that the last reset of the controller took (R412); empty for none. -/
  option : List Byte
  /-- Firmware copies 1 and 2 (R111). -/
  firmware1 : FirmwareCopy
  firmware2 : FirmwareCopy
  /-- The flash is powered down (R363). -/
  off : Bool
  deriving DecidableEq, Repr

/-- A key slot (R420): its algorithm and the two chaining values. -/
structure KeySlot where
  alg : ShaAlg
  inner : List Nat
  outer : List Nat
  deriving DecidableEq, Repr

/-- A digest context, or a request waiting for one (R416, R417): the accepted command it serves, the algorithm, the
chaining value, the message's whole length (with the key block of an HMAC), the outer state of an HMAC, the bytes
not yet hashed, and whether the message has been read and its value is not yet out. -/
structure DigestCtx where
  id : Nat
  alg : ShaAlg
  chain : List Nat
  length : Nat
  outer : Option (List Nat)
  data : List Byte
  loaded : Bool
  deriving DecidableEq, Repr

/-- The digest engine beside its registers (R416 to R433). -/
structure Digest where
  /-- Contexts 0 to 7 that hold a message. -/
  contexts : Store DigestCtx
  /-- Requests waiting for a context, oldest first. -/
  waiting : List DigestCtx
  /-- The key slots that hold a key. -/
  slots : Store KeySlot
  /-- The context of 0 to 5, and of 6 and 7, served last (R418). -/
  last : Nat
  lastGranary : Nat
  /-- The last run of the known-answer tests failed (R433). -/
  katFailed : Bool
  deriving DecidableEq, Repr
/-! ### The query engine (chapters 5 to 9) -/

/-- The kinds of reference (R159, R190). -/
inductive RefKind where
  | data
  | blockEnd
  | mark
  | endOfStream
  deriving DecidableEq, Repr

/-- A batch in a pool buffer (R186): partition, ROW_ID, TAG, rows, the buffer. -/
structure Batch where
  part : Nat
  rowId : Nat
  tag : Nat
  rows : List Row
  buf : Nat
  deriving DecidableEq, Repr

/-- A consumer flow that has not taken a reference yet, and the task it was issued to (R250). -/
structure Target where
  flow : Nat
  task : Option Nat
  deriving DecidableEq, Repr

/-- A reference waiting on a culm (R159): KIND, FLOW, ROWS, LEN, its batch, and the consumer flows it still has to reach. -/
structure Ref where
  kind : RefKind
  flow : Nat
  count : Nat
  len : Nat
  batch : Option Batch
  targets : List Target
  deriving DecidableEq, Repr

/-- A culm slot (R155, R159 to R162): its plan and record, what waits, the buffers it holds, and whether end of stream
has been delivered to the consumer (R161). -/
structure Culm where
  plan : Nat
  index : Nat
  decl : CulmRec
  queue : List Ref
  held : List Nat
  ended : Bool
  deriving DecidableEq, Repr

/-- The states of a task slot other than FREE (R252). -/
inductive TaskState where
  | ready
  | running
  | stopped
  | waitPage
  | waitCredit
  | waitInput
  deriving DecidableEq, Repr

/-- What a task has still to push: a row on a port with its row number and TAG, a whole batch (EXCHANGE in BROADCAST
mode), a block end, a window mark; and the place after the last reference of windows that no firing closes, where WINDOW_CLOSED
is signalled (R174). -/
inductive OutItem where
  | row (port rowId tag : Nat) (row : Row)
  | batch (port tag : Nat) (rows : List Row)
  | blockEnd (port : Nat)
  | mark (port : Nat)
  | closed
  deriving DecidableEq, Repr

/-- A partly filled output batch and its buffer (R188, R198), and the row numbers of its rows. -/
structure Fill where
  port : Nat
  batch : Batch
  ids : List Nat
  deriving DecidableEq, Repr

/-- Bytes of host memory that a task has read for its present block: context, address, bytes. -/
structure HostData where
  ctx : Nat
  addr : Nat
  bytes : List Byte
  deriving DecidableEq, Repr

/-- Where a stripe task of SCAN stands (R201): the stripe record's address and bytes, the columns decoded, each value as a batch
carries it, and the value of the next column at which it stopped or parked. -/
structure ScanCursor where
  at_ : Nat
  record : List Byte
  cols : List (List Value)
  value : Nat
  deriving DecidableEq, Repr

/-- A task (R248, R249, R252): its descriptor, its place in a slot or in the spill area, and its cursor. -/
structure Task where
  /-- The order of issue across the device. -/
  id : Nat
  /-- The task slot, or none for a spill record, and then the record's number. -/
  slot : Option Nat
  record : Nat
  /-- FLOW, PLAN, OP, the flow's index within its operator, TKIND, CLASS, PORT, NODE, ARG, FLOW_SEQ. -/
  flow : Nat
  plan : Nat
  op : Nat
  index : Nat
  tkind : Nat
  cls : Nat
  port : Nat
  node : Nat
  arg : Nat
  seq : Nat
  state : TaskState
  /-- Its ready time, whether it has ever been dispatched, whether it was promoted, whether it was asked to yield. -/
  readyAt : Nat
  began : Bool
  promoted : Bool
  asked : Bool
  tiller : Option Nat
  dispatchedAt : Nat
  /-- The tiller of its last dispatch. -/
  last : Nat
  /-- Working buffers (R164), and buffers given to it while it waited (R167): culm slot and buffer. -/
  work : List Nat
  gifts : List (Nat × Nat)
  /-- What it has still to push, and its partly filled batches. -/
  todo : List OutItem
  fills : List Fill
  /-- Rows consumed of its input block, rows done of the present batch, a partition or phase, and whether its input is
  all consumed. -/
  row : Nat
  inBatch : Nat
  part : Nat
  done : Bool
  /-- Rows pushed by port for the block, and in all. -/
  pushed : List Nat
  /-- The error word of its stop, the pages it waits on, the host data it has read. -/
  err : Nat
  waits : List PageWait
  data : List HostData
  /-- The cursor of a stripe task, and the join table that the task has loaded into its tiller's scratch (R185, R217). -/
  scan : Option ScanCursor
  scratch : Option (List Row)
  /-- A line that it had read was found uncorrectable when its bank served the read (R314, R315): the detail of DMA_POISON. -/
  spoilt : Option Nat
  deriving DecidableEq, Repr

/-- A batch that MERGE holds while it merges (R220): culm slot, buffer, rows left. -/
structure MergeBatch where
  culm : Nat
  buf : Nat
  rows : List Row
  deriving DecidableEq, Repr

/-- A run of MERGE (R220): port and producer flow, what waits, the last row taken. -/
structure MergeRun where
  port : Nat
  flow : Nat
  waiting : List MergeBatch
  last : Option Row
  deriving DecidableEq, Repr

/-- A write of memory in the address form of a LOCATION (R148): address, bytes. -/
structure MemWrite where
  loc : Nat
  addr : Nat
  bytes : List Byte
  deriving DecidableEq, Repr

/-- A block written for the open row range of a table (R156): column, rows, area offset, length, and MIN and MAX. -/
structure OpenBlock where
  col : Nat
  firstRow : Nat
  rows : Nat
  offset : Nat
  len : Nat
  least : Nat
  greatest : Nat
  deriving DecidableEq, Repr

/-- An attached table (R152, R153): its declaration, the head as recorded, NEXT_ROW by column, the blocks of the open
row range, the plans that declare it, and whether its first area-full wait has been reported (R157). -/
structure Attached where
  decl : TableDecl
  stripes : Nat
  rows : Nat
  fill : Nat
  pending : Option Nat
  next : List Nat
  opened : List OpenBlock
  users : List Nat
  raised : Bool
  deriving DecidableEq, Repr

/-- Writes of a table in progress (R156): the table before them, the writes left, the rows they make visible, and MATERIALIZE's
port. -/
structure WriteJob where
  saved : Attached
  writes : List MemWrite
  rows : Nat
  port : Nat
  deriving DecidableEq, Repr

/-- Rows written to a work area (R195): what they are (0 rows of a run or of a join's table, 1 the table's partitions, 2 other rows
by partition), their run or partition, their place in the area, the lengths of their columns' blocks, and how many they are. -/
structure Chunk where
  tag : Nat
  part : Nat
  off : Nat
  lens : List Nat
  rows : Nat
  deriving DecidableEq, Repr

/-- The state of a flow of a stateful operator, or of MATERIALIZE (R200). -/
structure FlowState where
  /-- The rows of a top K; rows of a sort's run or of a join's table that no block of the work area holds yet. -/
  rows : List Row
  /-- Rows that belong to a partition, which no block of the work area holds yet, with their partitions. -/
  parts : List (Nat × Row)
  /-- What the work area holds of the flow. -/
  chunks : List Chunk
  /-- Bits 47 to 32 of the hashes of the rows in a join's table (R217). -/
  hashes : List Nat
  /-- A join's mode (0 none, 1 SMALL, 2 LARGE) and k; a sort's merge pass and the run that it comes to next (R201). -/
  mode : Nat
  klog : Nat
  /-- The table of a LARGE join has been split. -/
  split : Bool
  /-- The windows of rows that left the group table (R223). -/
  wins : List Nat
  /-- Groups; CLOSED; the greatest time value; the last key of SORTED_AGG; merge runs; open row ranges; marks seen; writes in
  progress. -/
  groups : List AggGroup
  closed : Nat
  seen : Option Nat
  lastKey : Option Row
  runs : List MergeRun
  ranges : List (List Row)
  marks : List Nat
  job : Option WriteJob
  deriving DecidableEq, Repr

/-- A flow of a running plan (R251, R264): held and its first error word, the next FLOW_SEQ, the tasks that still wait
for a block end by port, rows pushed by port, working buffers of a stateful flow, and its state. -/
structure FlowRun where
  held : Bool
  err : Nat
  nextSeq : Nat
  opened : List (Nat × Nat)
  pushed : List Nat
  work : List Nat
  live : Bool
  st : FlowState
  deriving DecidableEq, Repr

/-- A firing accepted by a window operator (R228): H, and the flows that have not pushed their mark for it. -/
structure Closing where
  h : Nat
  left : List Nat
  deriving DecidableEq, Repr

/-- An operator of a running plan: ended, end-of-stream work issued, SCAN's next stripe and its end, the time of the
last poll, its flows, firings in progress, window starts counted as closed, whether a late row is to be signalled, and
whether its node without live tillers has been reported (R244). -/
structure OpRun where
  ended : Bool
  draining : Bool
  next : Nat
  stop : Option Nat
  polled : Nat
  flows : List FlowRun
  closing : List Closing
  counted : List Nat
  lateDue : Bool
  emptyTold : Bool
  deriving DecidableEq, Repr

/-- PLN[n].STATE.STATE of a plan that holds a slot (R180); the slots that are LOADING stand in `Engine.loading`. -/
inductive PlanState where
  | loaded
  | running
  | cancelling
  deriving DecidableEq, Repr

/-- A loaded plan (R142, R154, R155, R170, R174, R182). -/
structure Plan where
  state : PlanState
  cls : Nat
  image : Image
  ctx : Nat
  pair : Nat
  root : Nat
  virtuals : List Nat
  nodes : List Nat
  flowBase : Nat
  culms : List Nat
  resv : Nat
  /-- The accepted PLAN_START, and the PLAN_CANCELs that wait for teardown. -/
  cmd : Option Nat
  cancels : List Nat
  /-- The status and RESULT with which teardown ends. -/
  ending : Option (Nat × Nat)
  /-- Vectors by plan event, and the device time of the last POOL_WAIT signal. -/
  binds : Store Nat
  /-- The calendar entries reserved for window operators (R155), by operator. -/
  cals : Store Nat
  waitSignal : Option Nat
  firstHeld : Nat
  firstErr : Nat
  tasksDone : Nat
  rowsOut : Nat
  windowsClosed : Nat
  lateRows : Nat
  poolWaits : Nat
  startFt : Nat
  /-- Working buffers of discarded tasks, which return at step 3 of R177. -/
  left : List Nat
  ops : List OpRun
  deriving DecidableEq, Repr

/-- A parked producer that waits for a buffer of a culm (R160, R167): task, culm slot, class, arrival, and whether it
stands in the borrow queue. -/
structure CreditWait where
  task : Nat
  culm : Nat
  cls : Nat
  at_ : Nat
  borrow : Bool
  deriving DecidableEq, Repr

/-- A node of the tree (R240 to R246): virtual, level, parent, first tiller, tillers beneath, and for a virtual node
the view root and the shape it belongs to. -/
structure Node where
  view : Bool
  level : Nat
  parent : Nat
  first : Nat
  count : Nat
  root : Nat
  shape : List Nat
  deriving DecidableEq, Repr

/-- A host read outstanding (R290): the task it serves unless that was discarded, its plan, context, address, length,
the requests still without a tag, the ends of those outstanding, and the bytes that have come. -/
structure HostRead where
  task : Option Nat
  plan : Nat
  ctx : Nat
  addr : Nat
  len : Nat
  unsent : List (Nat × Nat)
  ends : List Nat
  got : List Byte
  deriving DecidableEq, Repr

/-- A tiller (R183, R252): the task in service, since when it is idle, whether it has just become idle and not pulled
yet (R256), and its host read. Gating is PWR_GATE.GATED (R476). -/
structure Tiller where
  task : Option Nat
  idleAt : Nat
  fresh : Bool
  read : Option HostRead
  deriving DecidableEq, Repr

/-- An APPEND_BLOCK in progress or waiting (R134, R157): the accepted command, its block, and its writes. -/
structure Append where
  id : Nat
  data : List Byte
  job : Option WriteJob
  /-- It has found no room in its table, and waits for more (R157). -/
  full : Bool
  deriving DecidableEq, Repr

/-- The kinds of IOTLB entry (R282). -/
inductive TlbKind where
  | host (ctx : Nat)
  | device
  | granary
  deriving DecidableEq, Repr

/-- An IOTLB entry (R282): kind, first 4 KiB page, size as a power of two of 4 KiB pages, first page frame, rights. -/
structure TlbEntry where
  kind : TlbKind
  page : Nat
  log : Nat
  frame : Nat
  read : Bool
  write : Bool
  deriving DecidableEq, Repr

/-- A translation request outstanding (R285, R287, R288): write permission asked for, sent after a Success response,
and the ranges invalidated since it was sent, first page and size. -/
structure TransReq where
  id : Nat
  ctx : Nat
  page : Nat
  write : Bool
  second : Bool
  stale : List (Nat × Nat)
  deriving DecidableEq, Repr

/-- A page request group (R286, R287): context, page, write, when it was sent; none while 512 others are outstanding. -/
structure PageGroup where
  ctx : Nat
  page : Nat
  write : Bool
  sentAt : Option Nat
  deriving DecidableEq, Repr

/-- An ATS invalidation not yet completed (R288): tag, context, first page, size. -/
structure Inval where
  tag : Nat
  ctx : Nat
  page : Nat
  log : Nat
  deriving DecidableEq, Repr

/-- The translation unit beside its registers (R271 to R300): the IOTLB, most recently used first. -/
structure Tlu where
  tlb : List TlbEntry
  reqs : List TransReq
  groups : List PageGroup
  invals : List Inval
  nextId : Nat
  deriving DecidableEq, Repr

/-- The plans, the pool, the scheduler and the tillers beside their registers (R142 to R270). -/
structure Engine where
  /-- The pool, the node table and the task slots are initialised (R461). -/
  up : Bool
  /-- Generations of plan slots, and the plans loaded. -/
  gens : Store Nat
  plans : Store Plan
  /-- Slots that are LOADING, each with the acceptance number of its PLAN_LOAD (R180). -/
  loading : Store Nat
  culms : Store Culm
  /-- Tasks in order of issue, and the number of the next. -/
  tasks : List Task
  nextTask : Nat
  /-- Pool buffers taken, and those poisoned (R450). -/
  used : PageSet
  poisoned : List Nat
  /-- Producers that wait for a buffer, oldest first, and those that wait for the spill quota. -/
  waits : List CreditWait
  quotaWaits : List Nat
  /-- The spill quota is exhausted (R261). -/
  quota : Bool
  nodes : Store Node
  tillers : Store Tiller
  tables : List Attached
  appends : List Append
  /-- SEQ of the next trace record, and the device time of MAIN power-good (R269). -/
  traceSeq : Nat
  mainAt : Nat
  /-- Trace records on chip, oldest first, and what the oldest waits on (R268). -/
  traceQueue : List (List Byte)
  traceWaits : List PageWait
  tlu : Tlu
  deriving DecidableEq, Repr

/-- The engine with no plan, no task and nothing initialised. -/
def Engine.blank : Engine :=
  { up := false, gens := [], plans := [], loading := [], culms := [], tasks := [], nextTask := 0, used := [], poisoned := [], waits := [],
    quotaWaits := [], quota := false, nodes := [], tillers := [], tables := [], appends := [], traceSeq := 0, mainAt := 0, traceQueue := [], traceWaits := [],
    tlu := { tlb := [], reqs := [], groups := [], invals := [], nextId := 0 } }

/-- The whole block. -/
structure State where
  /-- The commands waiting, first in, first out. -/
  pending : List Instr
  /-- Device time in ns (R10). -/
  now : Nat
  /-- How many free values have been taken: the MODEL's own field, not the manual's. -/
  freeCtr : Nat
  /-- What the block has sent, newest first: the MODEL's own record. -/
  out : List Output
  /-- Register fields that differ from their reset value, by `Field.key` (R508). -/
  regs : Store Nat
  pwr : Power
  ft : TimeBlock
  cal : Calendar
  link : Link
  hub : Hub
  mgt : Mgmt
  mbx : Mailboxes
  grn : Granary
  dram : Dram
  flash : Flash
  dge : Digest
  eng : Engine
  deriving DecidableEq, Repr

/-- The HDM decoder at reset: not committed. -/
def Hdm.reset : Hdm := ⟨false, false, 0, 0, 1, 256⟩

/-- The release that this manual describes, F-3.2 (R1, R110): a part is delivered with it in both firmware copies. -/
def factoryRelease : Nat := 0x00030002

/-- BAR0 and BAR2 as function 0 presents them (R68); no address is set. -/
def Bar.reset0 : Bar := ⟨0, 0x1000000, true, false⟩
def Bar.reset2 : Bar := ⟨0, 0x100000, true, false⟩

/-- The machine right after reset: AUX just applied, every supply group not yet good, every register at its reset
value (none is listed in `regs`), nothing stored, nothing waiting. -/
def State.reset : State where
  pending := []
  now := 0
  freeCtr := 0
  out := []
  regs := []
  pwr := { aux := false, hold := false, main := false, perst := true, held := false, chipReset := false,
           request := none, deferred := none, armed := false, failed := false, failedInDump := false,
           holdSel := false, mainEn := false, bankTest := false, thermtrip := false, d3hot := false,
           holdBase := 0, trefVio := false, loadCommitted := true, mainDue := false, holdSeen := false }
  ft := { count := 0, frac := 0, slew := 0, slewEnd := 0, edgeAt := 0, interpAt := 0, floor := 0, windows := false,
          windowAt := 0, windowEdges := 0, nextEdges := 0, good := 0, bad := 0, pending := none, ppsMark := 0, latches := [] }
  cal := { entries := [], spent := [], firings := [], evaluated := none }
  link := { hdm0 := Hdm.reset, hdm1 := Hdm.reset, bar0 := Bar.reset0, bar2 := Bar.reset2, gpfUs := 2, gpfMw := 0,
            aerFirst := none, doorbell := false, msix := [], pba := [], maxRead := 512, tenBitTags := false,
            atsEnable := false, priEnable := false, priFailure := false,
            events := [], nextHandle := 1, policy := 0, stampSet := 0, stampAt := 0, lsa := [], alertConfig := 0,
            shutdownState := 0, scan := none, waiting := [], reads := [] }
  hub := { seq := 0, intake := [], skipped := false, armed := [], auxFirst := [0, 0, 0, 0], auxGrn := 0,
           core0 := .running, core1 := .running, core2 := .running, core3 := .running, lastCoreReset := none,
           mgmtReset := false, retiredTillers := [], tillerResets := [], pacing := [] }
  mgt := { queue := [], identity := [], committed := [], telSeq := 0, hotSince := [] }
  mbx := { pairs := [], accepted := [], nextId := 0, admSeq := 0, lastPair := 63, running := 0,
           committed := 0 }
  grn := { config := ⟨0, 0, 256, 550, 128, 50, 80, 256⟩, closed := false, landing := [], dirty := [], unrestored := [],
           reserved := 0, waiters := [], granted := [], budget := 0, samples := [], measure := none, inflight := [],
           openSeg := none, sealing := [], pass := none, rebase := none, deltas := [],
           nextSeq := 0, slotA := [], slotB := [], rec0 := [], rec1 := [], fetches := [], dump := none,
           channelDump := false, bootRecord := none, lost := [], unsealed := [], dirtyShutdowns := 0, poisonPages := [], reported := [],
           quiet := false }
  dram := { cells := [], poison := [], queue := [], openRows := [], tables := [], refCount := [], refNext := [],
            parity := [], retraining := [], trainTries := [], lastUse := [], rotation := none, retired := [], restart := [] }
  flash := { blocks := [], np := [], pages := [], erases := [], reads := [], relocate := [], spares := [], groups := [],
             uncorrectable := [], journal := [], waitingDone := [],
             factory := [⟨false, 0, 1, 0, [], 0x7142e30b⟩], grown0 := [], grown1 := [], lostGroups := [], running := [], held := [],
             lastQueue := [], fetched := [], phase0 := [], option := [],
             firmware1 := ⟨factoryRelease, []⟩, firmware2 := ⟨factoryRelease, []⟩, off := false }
  dge := { contexts := [], waiting := [], slots := [], last := 5, lastGranary := 7, katFailed := false }
  eng := Engine.blank

end Sys2Proof.Machine
end

