-- ==== Sys2Proof/Machine/Ops.lean ====
section
/-!
DEFINITION. The named operations over registers, outputs and memory. Every read and write of a register field goes
through `State.get` and `State.set` (single registers) or `State.getN` and `State.setN` (arrays).
-/

namespace Sys2Proof.Machine

/-- The value of instance `n` of a field: what is stored, else its reset value. -/
def State.getN (s : State) (f : Field) (n : Nat) : Nat := s.regs.getD (f.key n) (f.reset n)

/-- Writes instance `n` of a field, cut to its width. -/
def State.setN (s : State) (f : Field) (n v : Nat) : State :=
  { s with regs := s.regs.put (f.key n) (f.reset n) (v % 2 ^ f.width) }

/-- The value of a field of a single register. -/
def State.get (s : State) (f : Field) : Nat := s.getN f 0

/-- Writes a field of a single register. -/
def State.set (s : State) (f : Field) (v : Nat) : State := s.setN f 0 v

/-- A one-bit field as a truth value. -/
def State.flag (s : State) (f : Field) : Bool := s.get f == 1

/-- Writes a one-bit field. -/
def State.setFlag (s : State) (f : Field) (b : Bool) : State := s.set f (natOfBool b)

/-- Writes several fields of single registers. -/
def State.setAll (s : State) (l : List (Field × Nat)) : State := l.foldl (fun s p => s.set p.1 p.2) s

/-- Sends one output. -/
def State.emit (s : State) (o : Output) : State := { s with out := o :: s.out }

/-- The next free value, and the state with the counter advanced. -/
def State.fresh (s : State) : Nat × State := (Config.freeNat s.freeCtr, { s with freeCtr := s.freeCtr + 1 })

/-- Whether a reset group is powered and not held in reset (R23, R472, R506). -/
def State.groupUp (s : State) : Group → Bool
  | .fn | .ln | .m => s.pwr.hold && s.pwr.main && !s.pwr.held
  | .h => s.pwr.hold && !s.pwr.held
  | .g => s.pwr.hold
  | .x => s.pwr.aux

/-- Whether the MAIN domain runs and is not held in reset. -/
def State.mainUp (s : State) : Bool := s.groupUp .m

/-- The state codes of GRN_STATE.STATE (R376). -/
def Grn.off : Nat := 0
def Grn.locating : Nat := 1
def Grn.lazy : Nat := 2
def Grn.ready : Nat := 3
def Grn.dumping : Nat := 4
def Grn.sealed : Nat := 5
def Grn.parked : Nat := 6
def Grn.heldState : Nat := 7
def Grn.failed : Nat := 8

/-- GRN_STATE.STATE. -/
def State.grnState (s : State) : Nat := s.get F.GRN_STATE_STATE

/-- Lazily-ready or later: LAZY or READY (R376). -/
def State.grnServes (s : State) : Bool := s.grnState == Grn.lazy || s.grnState == Grn.ready

/-- The pages of the window (R342). -/
def State.windowPages (s : State) : Nat := s.grn.config.windowLen / 4096

/-- FLT_PERSIST.LATCHED (R452). -/
def State.latched (s : State) : Bool := s.flag F.FLT_PERSIST_LATCHED

/-- The MSI-X table entry of a vector; every vector is masked at reset (R80, R499). -/
def State.msixEntry (s : State) (v : Nat) : MsixEntry := s.link.msix.getD v ⟨0, 0, true⟩

/-- Signals a vector: vectors 5 to 7 are never signalled (R79); a masked vector's event sets its pending bit (R80);
a link block that is down or held in reset sends nothing. -/
def State.signal (s : State) (v : Nat) : State :=
  if 5 ≤ v ∧ v ≤ 7 ∨ 256 ≤ v then s
  else if !s.groupUp .ln then s
  else if (s.msixEntry v).masked then
    { s with link := { s.link with pba := if v ∈ s.link.pba then s.link.pba else v :: s.link.pba } }
  else s.emit (.msix v)

/-- FT_STATUS.STATE codes. -/
def Ft.unset : Nat := 0
def Ft.running : Nat := 1
def Ft.stopped : Nat := 2

/-- One second of field time in ns. -/
def second : Nat := 1000000000

/-- The nominal increment per TIME_REF edge (R44). -/
def State.ftIncrement (s : State) : Nat := if s.flag F.FT_CTL_REF_SEL then 40 else 100

/-- The factor of R46 in units of 1e-9: (1 - e / 1 s) while a slew is in force. -/
def State.slewFactor (s : State) : Nat := ((second : Int) - s.ft.slew).toNat

/-- What FT_NOW reads (R45): the count and the interpolation, which is 0 at an edge, grows with device time at the slewed
rate, stays below the next increment, and is 0 while not RUNNING; never less than an earlier read. -/
def State.ftRead (s : State) : Nat :=
  if s.get F.FT_STATUS_STATE ≠ Ft.running then max s.ft.floor s.ft.count
  else
    let grown := s.ft.frac + (s.now - s.ft.interpAt) * s.slewFactor
    let bound := s.ft.frac + s.ftIncrement * s.slewFactor - 1
    max s.ft.floor (s.ft.count + min grown bound / second)

/-- Background activities run: not from a power-fail detection until the restore has reached lazily-ready (R33). -/
def State.backgroundRuns (s : State) : Bool := !s.pwr.failed && !s.grn.quiet

/-- The device takes no request: ingress closed by power failure or by a chip reset (R85, R472). -/
def State.linkClosed (s : State) : Bool := s.grn.closed && (s.pwr.failed || s.pwr.chipReset)

/-- An answer to the host over the link: none leaves once the device takes no request (R85). -/
def State.toLink (s : State) (o : Output) : State := if s.linkClosed then s else s.emit o

/-- The CXL timestamp: a counter on device clocks that the host sets (R83). -/
def State.cxlStamp (s : State) : Nat := (s.link.stampSet + (s.now - s.link.stampAt)) % 2 ^ 64

/-- The AUX and meeting-point view of field time: the HOLD-domain copy of the count (R48). -/
def State.ftCopy (s : State) : Nat := if s.get F.FT_STATUS_STATE = 1 && s.mainUp then s.ft.count else 0

/-- Device time since HOLD power-good (R444). -/
def State.devNs (s : State) : Nat := s.now - s.pwr.holdBase

/-! Memory: bytes by device physical address, an unlisted byte reads zero (log entry 4). -/

/-- What a byte that nothing has written reads as. -/
def Memory.unlisted : Byte := 0#8

/-- Reads one byte. -/
def Memory.read (m : List Host.Cell) (a : Nat) : Byte := Store.getD m a Memory.unlisted

/-- Writes one byte, keeping the canonical form. -/
def Memory.write (m : List Host.Cell) (a : Nat) (b : Byte) : List Host.Cell := Store.put m a Memory.unlisted b

/-- The canonical form: addresses strictly rising, no entry equal to what an unlisted address reads as. -/
def Memory.wf (m : List Host.Cell) : Bool := Store.wf m && m.all (fun p => p.2 != Memory.unlisted)

/-- Reads `n` bytes from an address upward. -/
def Memory.readBytes (m : List Host.Cell) : Nat → Nat → List Byte
  | _, 0 => []
  | a, n + 1 => Memory.read m a :: Memory.readBytes m (a + 1) n

/-- Writes bytes from an address upward. -/
def Memory.writeBytes (m : List Host.Cell) : Nat → List Byte → List Host.Cell
  | _, [] => m
  | a, b :: bs => Memory.writeBytes (Memory.write m a b) (a + 1) bs

/-- The line at a DPA: its data and whether it is stored as poisoned (R316). -/
def State.readLine (s : State) (dpa : Nat) : Line × Bool :=
  (BitVec.ofNat 512 (ofLeBytes (Memory.readBytes s.dram.cells dpa 64)), s.dram.poison.contains dpa)

/-- A full 64-byte write: clears poison, or stores the line as poisoned (R310, R316). -/
def State.writeLine (s : State) (dpa : Nat) (data : Line) (poison : Bool) : State :=
  let rest := s.dram.poison.filter (· ≠ dpa)
  { s with dram := { s.dram with cells := Memory.writeBytes s.dram.cells dpa (bytesOfLine data),
                                 poison := if poison then dpa :: rest else rest } }

/-- Stores a line as poisoned, its data kept (R314, R316). -/
def State.poisonLine (s : State) (dpa : Nat) : State :=
  { s with dram := { s.dram with poison := if s.dram.poison.contains dpa then s.dram.poison else dpa :: s.dram.poison } }

/-- The window's first device physical address (R342). -/
def grnBase : Nat := 0x800000000000

end Sys2Proof.Machine
end

