-- ==== Sys2Proof/Machine/Flags.lean ====
section
/-!
DEFINITION. Every flag computation that commands share: fault events and their reactions (R441 to R453), statistics
counters (R458), requests on the Granary state word (R28, R368), chip-reset requests (R451, R453), and the live
status bits that follow the state (R465, R489, R29).
-/

namespace Sys2Proof.Machine

/-! ### The Granary state word and chip-reset requests -/

/-- Segments that are abandoned with units written stay in the ring unsealed (R361). -/
def State.abandonSegments (s : State) : State :=
  let opened := match s.grn.openSeg with
    | some (g, _) => [g]
    | none => []
  let unsealed := (s.grn.sealing ++ opened).map (fun g => { g with verdict := SealState.erased })
  { s with grn := { s.grn with
      deltas := s.grn.deltas ++ unsealed, openSeg := none, sealing := [], inflight := [], pass := none, rebase := none } }

/-- A migration on CH0 to CH3 finishes its unit and pauses (R337). -/
def State.pauseMigrations (s : State) : State :=
  [0, 1, 2, 3].foldl
    (fun s ch => if s.getN F.DMC_MIGRATE_ACTIVE ch = 1 then s.setN F.DMC_MIGRATE_PAUSED ch 1 else s) s

/-- Ingress to the Granary closes (R85): a reservation that no write has used yet waits again, ahead of those that wait. -/
def State.closeIngress (s : State) : State :=
  { s with grn := { s.grn with
      closed := true, waiters := s.grn.granted ++ s.grn.waiters, granted := [], reserved := 0 } }

/-- The dump record at a dump's start: background fetches end, and every fetch where power failed. -/
def State.openDump (s : State) (inFailed powerFail : Bool) : State :=
  { s with grn := { s.grn with
      fetches := if powerFail then [] else s.grn.fetches.filter (·.onDemand),
      dump := some { opened := false, first := 0, nextPage := 0, inFailed := inFailed } } }

/-- What every start of a dump does (R363 steps 1 and 2, R367, R368): ingress closes, the winnower's copies, the open
segment and a rebase are abandoned, background fetches end, and every fetch where power failed. Cause 0 is a dump that
runs in FAILED (R377). -/
def State.beginDump (s : State) (cause : Nat) (powerFail : Bool) : State :=
  if cause = 0 then (s.closeIngress.abandonSegments.openDump true powerFail).pauseMigrations
  else (((s.closeIngress.abandonSegments.openDump false powerFail).pauseMigrations).set F.GRN_STATE_STATE Grn.dumping).set
    F.GRN_STATE_CAUSE cause

/-- A requested dump (R28, R41, R368): accepted only in LAZY or READY, not once power-fail detection has fired nor while
LATCHED; else REFUSED sets. `src` is REQ_SRC. -/
def State.requestDump (s : State) (src : Nat) : Bool × State :=
  if s.grnServes && !s.pwr.failed && !s.latched then
    (true, (((s.beginDump 2 false).set F.GRN_STATE_REQ_SRC src).set F.GRN_STATE_REFUSED 0))
  else (false, s.set F.GRN_STATE_REFUSED 1)

/-- A requested chip reset (R451, R453): refused while LATCHED, deferred while DUMPING. -/
def State.requestChipReset (s : State) (r : ResetReq) : State :=
  if s.latched then s
  else if s.grnState = Grn.dumping then
    { s with pwr := { s.pwr with deferred := some (s.pwr.deferred.getD r) } }
  else { s with pwr := { s.pwr with request := some (s.pwr.request.getD r) } }

/-! ### Fault events -/

/-- The sticky bit of a source (R441). -/
def State.sticky (s : State) (n : Nat) : Bool := bitOf (s.getN F.FLT_STICKY_STICKY (n / 64)) (n % 64)

/-- The live bit of a source (R441). -/
def State.live (s : State) (n : Nat) : Bool := bitOf (s.getN F.FLT_LIVE_LIVE (n / 64)) (n % 64)

/-- Sets or clears one bit of an array of 64-bit registers. -/
def State.setBit64 (s : State) (f : Field) (n : Nat) (b : Bool) : State :=
  s.setN f (n / 64) (putBits (s.getN f (n / 64)) (n % 64) 1 (natOfBool b))

/-- Clears a source's live bit: its condition has ended (R434). -/
def State.clearLive (s : State) (n : Nat) : State := s.setBit64 F.FLT_LIVE_LIVE n false

/-- The reaction mask in force: the mask written and the bits its class forces (R436, R439, R440). -/
def State.maskOf (s : State) (n : Nat) : Nat := s.getN F.FLT_SRC_CFG_MASK n ||| sourceForced n

/-- FAULT_N is driven low while a source whose mask includes it has its sticky bit set, or LATCHED is set (R443). -/
def State.faultN (s : State) : Bool :=
  s.latched || (List.range 256).any (fun n => s.sticky n && bitOf (s.maskOf n) 5)

/-- ALERT_N is driven low while any bit of MGT_ALERT is set (R489). -/
def State.alertN (s : State) : Bool :=
  s.flag F.MGT_ALERT_FAULT || s.flag F.MGT_ALERT_GRANARY || s.flag F.MGT_ALERT_READY || s.flag F.MGT_ALERT_TEMP

/-- The fourth 64-bit word of a fault record (R444). -/
def FaultRecord.word3 (r : FaultRecord) : Nat :=
  r.seq + r.source * 2 ^ 16 + r.inst * 2 ^ 24 + r.flags * 2 ^ 32 + r.reactions * 2 ^ 40

/-- The words of the first-error capture as they stand. -/
def State.firstWords (s : State) : List Nat :=
  [s.getN F.FLT_FIRST_RECORD 0, s.getN F.FLT_FIRST_RECORD 1, s.getN F.FLT_FIRST_RECORD 2,
   s.get F.FLT_FIRST3_RECORD_LO + s.get F.FLT_FIRST3_VALID * 2 ^ 39 + s.get F.FLT_FIRST3_RECORD_HI * 2 ^ 40]

/-- Writes a record to FLT_FIRST and sets VALID (R445). -/
def State.captureFirst (s : State) (r : FaultRecord) : State :=
  let w3 := r.word3
  (((((s.setN F.FLT_FIRST_RECORD 0 r.devNs).setN F.FLT_FIRST_RECORD 1 r.ft).setN F.FLT_FIRST_RECORD 2 r.info).set
    F.FLT_FIRST3_RECORD_LO w3).set F.FLT_FIRST3_RECORD_HI (w3 / 2 ^ 40)).set F.FLT_FIRST3_VALID 1

/-- Writes a record at place `i` of the history queue (R446). -/
def State.writeHistory (s : State) (i : Nat) (r : FaultRecord) : State :=
  (((((s.setN F.FLT_HIST_W0_RECORD i r.devNs).setN F.FLT_HIST_W1_RECORD i r.ft).setN F.FLT_HIST_W2_RECORD i r.info).setN
    F.FLT_HIST_W3_RECORD i r.word3).set F.FLT_HIST_PTRS_WR ((i + 1) % 64)).set F.FLT_HIST_PTRS_SEQ r.seq

/-- Leaves the given records in the intake. -/
def State.setIntake (s : State) (l : List FaultRecord) : State := { s with hub := { s.hub with intake := l } }

/-- Enters the oldest waiting record of the intake into the history queue (R446). -/
def State.enterHistory (s : State) : State :=
  match s.hub.intake with
  | [] => s
  | r :: rest => (s.writeHistory (s.get F.FLT_HIST_PTRS_WR) r).setIntake rest

/-- A statistics counter: its COUNT and SAT fields (R458). -/
structure Counter where
  count : Field
  sat : Field

/-- One increment of a counter that raises nothing; whether it saturated on this increment (R458). -/
def State.bumpQuiet (s : State) (c : Counter) (n : Nat) : Bool × State :=
  if s.getN c.count n = 2 ^ 48 - 1 then
    if s.getN c.sat n = 1 then (false, s) else (true, s.setN c.sat n 1)
  else (false, s.setN c.count n (s.getN c.count n + 1))

/-- The counters of FLT_SRC and of the skipped history records. -/
def C.faultCount : Counter := ⟨F.FLT_SRC_COUNT_COUNT, F.FLT_SRC_COUNT_SAT⟩
def C.skipped : Counter := ⟨F.FLT_HIST_SKIP_CNT_COUNT, F.FLT_HIST_SKIP_CNT_SAT⟩

/-- Room in the intake for one more record: a full one lets its oldest be entered (R446). -/
def State.makeRoom (s : State) : State := if s.hub.intake.length < 16 then s else s.enterHistory

/-- A record that follows skipped ones says so (R446). -/
def FaultRecord.afterSkip (r : FaultRecord) (skipped : Bool) : FaultRecord :=
  if skipped then { r with flags := r.flags ||| 16 } else r

/-- Puts a record at the end of the intake. -/
def State.pushRecord (s : State) (r : FaultRecord) : State :=
  { s with hub := { s.hub with intake := s.hub.intake ++ [r.afterSkip s.hub.skipped], skipped := false } }

/-- Counts a record that is skipped (R446). -/
def State.skipRecord (s : State) : State :=
  let t := (s.bumpQuiet C.skipped 0).2
  { t with hub := { t.hub with skipped := true } }

/-- Takes a record into the intake, or skips it (R446): at most 16 wait, the last 4 places are kept for RECOVERABLE
and above. A RECOVERABLE record that finds all 16 taken lets the oldest be entered first: none is ever skipped. -/
def State.takeRecord (s : State) (r : FaultRecord) (severe : Bool) : State :=
  if severe || s.hub.intake.length < 12 then s.makeRoom.pushRecord r else s.skipRecord

/-- A captured event sets its source's sticky bit, and the live bit of a kind C source (R441). -/
def State.markSource (s : State) (info : SourceInfo) (n : Nat) : State :=
  if info.live then (s.setBit64 F.FLT_STICKY_STICKY n true).setBit64 F.FLT_LIVE_LIVE n true
  else s.setBit64 F.FLT_STICKY_STICKY n true

/-- The next event number: 16 bits, never 0 (R444). -/
def State.nextEvent (s : State) : Nat := if s.hub.seq ≥ 0xFFFF then 1 else s.hub.seq + 1

/-- The event number advances. -/
def State.countEvent (s : State) : State := { s with hub := { s.hub with seq := s.nextEvent } }

/-- The record of an event that has just been numbered (R444). -/
def State.recordOf (s : State) (info : SourceInfo) (n inst word : Nat) (injected : Bool) : FaultRecord :=
  { devNs := s.devNs % 2 ^ 64, ft := s.ftCopy % 2 ^ 64, info := word % 2 ^ 64, seq := s.hub.seq,
    source := n, inst := inst % 256, flags := info.cls.code + (if injected then 8 else 0),
    reactions := s.maskOf n % 128 }

/-- RECOVERABLE and above (R436). -/
def SourceInfo.severe (info : SourceInfo) : Bool := decide (info.cls.code ≥ 2)

/-- A severe event is the first-error capture unless one stands (R445). -/
def State.captureSevere (s : State) (severe : Bool) (r : FaultRecord) : State :=
  if severe && !s.flag F.FLT_FIRST3_VALID then s.captureFirst r else s

/-- Captures one event (R441, R444 to R446): live and sticky bits, count, event number, first capture, history. -/
def State.captureEvent (s : State) (info : SourceInfo) (n inst word : Nat) (injected : Bool) : State :=
  let s := (s.markSource info n).countEvent
  (s.captureSevere info.severe (s.recordOf info n inst word injected)).takeRecord
    (s.recordOf info n inst word injected) info.severe

/-- The state of a Clatos core. -/
def State.core (s : State) (c : Nat) : CoreState :=
  match c with
  | 0 => s.hub.core0
  | 1 => s.hub.core1
  | 2 => s.hub.core2
  | _ => s.hub.core3

/-- Writes the state of a Clatos core. -/
def State.setCore (s : State) (c : Nat) (x : CoreState) : State :=
  match c with
  | 0 => { s with hub := { s.hub with core0 := x } }
  | 1 => { s with hub := { s.hub with core1 := x } }
  | 2 => { s with hub := { s.hub with core2 := x } }
  | _ => { s with hub := { s.hub with core3 := x } }

/-- The non-maskable trap (R439): to the core INSTANCE names for source 1, to core 0 for any other source. -/
def State.trap (s : State) (n inst : Nat) : State :=
  if !s.mainUp then s
  else
    let c := if n = 1 then inst % 4 else 0
    match s.core c with
    | .blockReset _ => s
    | _ => (s.setCore c (.trapped s.now)).emit (.nmi c)

/-- Reaction bit 0: vector 1 (R439). -/
def State.reactVector (s : State) (b : Bool) : State := if b then s.signal 1 else s
/-- Reaction bit 1: the FAULT alert (R439). -/
def State.reactAlert (s : State) (b : Bool) : State := if b then s.set F.MGT_ALERT_FAULT 1 else s
/-- Reaction bit 2: the trap (R439). -/
def State.reactTrap (s : State) (b : Bool) (n inst : Nat) : State := if b then s.trap n inst else s
/-- Reaction bit 6: a dump request (R439). -/
def State.reactDump (s : State) (b : Bool) : State := if b then (s.requestDump 3).2 else s
/-- Reaction bit 4: a chip reset (R439). -/
def State.reactReset (s : State) (b : Bool) (n : Nat) : State :=
  if b then s.requestChipReset { req := 3, source := n, device := false, loadCommitted := true } else s

/-- The reactions of a captured event, in the order of R447. `first` says that the sticky bit went from 0 to 1
(R442). Block resets belong to the units of sources 1, 3, 36 and 37 and are taken where those are raised. -/
def State.react (s : State) (n inst : Nat) (first : Bool) : State :=
  ((((s.reactVector (first && bitOf (s.maskOf n) 0)).reactAlert (first && bitOf (s.maskOf n) 1)).reactTrap
    (bitOf (s.maskOf n) 2) n inst).reactDump (bitOf (s.maskOf n) 6)).reactReset (bitOf (s.maskOf n) 4) n

/-- A dump that finds the state word FAILED: one on which power failed goes on there, any other ends (R362, R377). -/
def State.failDump (s : State) : State :=
  { s with grn := { s.grn with
      dump := if s.pwr.failedInDump then s.grn.dump.map (fun d => { d with inFailed := true }) else none } }

/-- The FATAL-PERSIST latch (R452): LATCHED and SOURCE, ingress closed, the state word FAILED with its CAUSE, which no dump
in progress takes back. A further event leaves SOURCE and CAUSE as they are. -/
def State.latchPersist (s : State) (n : Nat) : State :=
  if s.latched then s
  else
    ((((((s.set F.FLT_PERSIST_LATCHED 1).set F.FLT_PERSIST_SOURCE n).set F.GRN_STATE_STATE Grn.failed).set
      F.GRN_STATE_CAUSE (if n = 104 then 6 else 5)).clearLive 103).closeIngress).failDump

/-- Appends a record to a CXL event log: handles are 16 bits, never 0. Its timestamp is the settable CXL timestamp: DESIGN
CHOICE, log entry 30. -/
def State.addCxlEvent (s : State) (log n inst : Nat) : State :=
  { s with link := { s.link with
      events := s.link.events ++ [{ log := log, handle := s.link.nextHandle, time := s.cxlStamp, source := n, instance_ := inst }],
      nextHandle := if s.link.nextHandle ≥ 0xFFFF then 1 else s.link.nextHandle + 1 } }

/-- A new record of a log signals vector 4 where the event interrupt policy asks for a message: mode 01 in the log's byte
(R79, R83). The modes are those of the CXL 2.0 specification: PRESUMED, log entry 211. -/
def State.signalEvent (s : State) (log : Nat) : State :=
  if bitsOf s.link.policy (8 * log + 1) (8 * log) = 1 then s.signal 4 else s

/-- The mapping of a fault event into the CXL event logs (R83): RECOVERABLE in the Warning log 1, the FATAL classes
in the Failure log 2. -/
def State.logCxlEvent (s : State) (info : SourceInfo) (n inst : Nat) : State :=
  if info.cls.code < 2 then s
  else
    let log := if info.cls.code = 2 then 1 else 2
    (s.addCxlEvent log n inst).signalEvent log

/-- A FATAL-PERSIST event that was not injected latches (R452, R456). -/
def State.latchIf (s : State) (b : Bool) (n : Nat) : State := if b then s.latchPersist n else s

/-- Raises a source without counter saturation: capture, latch, reactions. -/
def State.raiseCore (s : State) (n inst word : Nat) (injected : Bool) : State :=
  match sourceInfo n with
  | none => s
  | some info =>
    ((((s.captureEvent info n inst word injected).logCxlEvent info n inst).latchIf
      (info.cls == .fatalPersist && !injected) n)).react n inst (!s.sticky n)

/-- Raises source 0 for a saturated counter, INFO its BAR0 offset (R435, R458). Its own count raises nothing. -/
def State.raiseSaturated (s : State) (c : Counter) (n : Nat) : State :=
  if !s.pwr.hold then s
  else ((s.bumpQuiet C.faultCount 0).2).raiseCore 0 0 (c.count.addr + n * c.count.stride) false

/-- One increment of instance `n` of a statistics counter (R458). -/
def State.bumpN (s : State) (c : Counter) (n : Nat) : State :=
  let r := s.bumpQuiet c n
  if r.1 then r.2.raiseSaturated c n else r.2

/-- One increment of a single statistics counter (R458). -/
def State.bump (s : State) (c : Counter) : State := s.bumpN c 0

/-- `k` increments of a counter. -/
def State.bumpTimes (s : State) (c : Counter) : Nat → State
  | 0 => s
  | k + 1 => (s.bump c).bumpTimes c k

/-- One event of a source (R435, R441): counted, captured and reacted to, while the HOLD domain runs. A reserved
source is never raised (R434). -/
def State.raiseWith (s : State) (n inst word : Nat) (injected : Bool) : State :=
  if !s.pwr.hold || (sourceInfo n).isNone then s
  else
    (if n = 0 then (s.bumpQuiet C.faultCount 0).2 else s.bumpN C.faultCount n).raiseCore n inst word injected

/-- One event of a source, not injected. -/
def State.raise (s : State) (n inst word : Nat) : State := s.raiseWith n inst word false

/-- A condition of a kind C source begins: raised once on entry (R434). -/
def State.raiseLive (s : State) (n inst word : Nat) : State := if s.live n then s else s.raise n inst word

/-- Background activities may resume: the restore has reached lazily-ready, LAZY or READY (R33). -/
def State.resumeBackground (s : State) (st : Nat) : State :=
  if st = Grn.lazy ∨ st = Grn.ready then { s with grn := { s.grn with quiet := false } } else s

/-- The Granary state word becomes `st`; source 103's condition is HELD (R377). -/
def State.setGrn (s : State) (st : Nat) : State :=
  if st = Grn.heldState then (s.set F.GRN_STATE_STATE st).raiseLive 103 0 0
  else ((s.set F.GRN_STATE_STATE st).clearLive 103).resumeBackground st

/-! ### Live status -/

/-- A status field that follows the state. -/
structure LiveField where
  field : Field
  index : Nat
  value : State → Nat

/-- A write waits for budget, acceptance held among them (R93, R351), or writes wait as in SEALED (R368). -/
def State.throttling (s : State) : Bool :=
  !s.grn.waiters.isEmpty || !s.link.waiting.isEmpty || s.mbx.pairs.any (fun p => p.2.governed) || s.grnState == Grn.sealed

/-- Pages restored, percent, 100 in READY (GRN_STATE.RESTORE_PCT). -/
def State.restorePct (s : State) : Nat :=
  if s.grnState = Grn.ready then 100
  else if s.windowPages = 0 then 0
  else (s.windowPages - s.grn.unrestored.count) * 100 / s.windowPages

/-- A tiller is retired, a channel is FAILED, a set is DEGRADED or OFFLINE, or the link runs below x16 at 32 GT/s
(RDY_STATUS.DEGRADED). -/
def State.degraded (s : State) : Bool :=
  !s.hub.retiredTillers.isEmpty ||
  (List.range 12).any (fun n => s.getN F.DMC_CHCFG_STATE n == 2) ||
  (List.range 8).any (fun k => s.getN F.IVS_CFG_STATE k ≥ 2) ||
  (s.flag F.HL_STATUS_LINK_UP && (s.get F.HL_STATUS_WIDTH != 5 || s.get F.HL_STATUS_SPEED != 5))

/-- The hardware bits of RDY_STATUS that follow the state (R465, R466). -/
def readyLive : List LiveField :=
  [⟨F.RDY_STATUS_GRN_FULL, 0, fun s => natOfBool (s.grnState == Grn.ready)⟩,
   ⟨F.RDY_STATUS_GRN_LAZY, 0, fun s => natOfBool (s.grnServes && !s.grn.closed)⟩,
   ⟨F.RDY_STATUS_FT_RUN, 0, fun s => natOfBool (s.get F.FT_STATUS_STATE == 1)⟩,
   ⟨F.RDY_STATUS_LINK, 0, fun s => s.get F.HL_STATUS_LINK_UP⟩,
   ⟨F.RDY_STATUS_DEGRADED, 0, fun s => natOfBool s.degraded⟩,
   ⟨F.RDY_STATUS_MGMT, 0, fun s => natOfBool (s.pwr.aux && !s.hub.mgmtReset)⟩]

/-- A Darsum device reset has stopped acceptance on every mailbox (R112), or a chip reset has (R472). -/
def State.acceptStopped (s : State) : Bool :=
  s.pwr.held || s.pwr.request.any (·.device) || s.pwr.deferred.any (·.device)

/-- Status fields of the other blocks that follow the state. -/
def statusLive : List LiveField :=
  [⟨F.ADM_STATUS_READY, 0, fun s => natOfBool ((s.flag F.RDY_STATUS_FW || s.flag F.RDY_STATUS_RECOVERY) && !s.acceptStopped)⟩,
   ⟨F.MGT_STATUS_ANSWERING, 0, fun s => natOfBool (s.pwr.aux && !s.hub.mgmtReset)⟩,
   ⟨F.FT_STATUS_ARM_PEND, 0, fun s => natOfBool s.ft.pending.isSome⟩,
   ⟨F.CAL_FREE_FREE, 0, fun s => 1024 - s.cal.entries.length⟩,
   ⟨F.HL_STATUS_HDM0_COMMIT, 0, fun s => natOfBool s.link.hdm0.committed⟩,
   ⟨F.HL_STATUS_HDM1_COMMIT, 0, fun s => natOfBool s.link.hdm1.committed⟩,
   ⟨F.HL_STATUS_CREDIT_HELD, 0,
     fun s => natOfBool (s.throttling || s.grnState == Grn.heldState || s.grnState == Grn.failed)⟩,
   ⟨F.HL_STATUS_INGRESS_CLOSED, 0, fun s => natOfBool (s.grn.closed && s.pwr.failed)⟩,
   ⟨F.GOV_STATUS_THROTTLE, 0, fun s => natOfBool s.throttling⟩,
   ⟨F.GRN_STATE_THROTTLE, 0, fun s => natOfBool s.throttling⟩,
   ⟨F.GRN_STATE_RESTORE_PCT, 0, State.restorePct⟩,
   ⟨F.GOV_STATUS_DIRTY_MIB, 0, fun s => ceilDiv (s.grn.dirty.count * 4096) (2 ^ 20)⟩,
   ⟨F.GOV_STATUS_BUDGET_MIB, 0, fun s => s.grn.budget / 2 ^ 20⟩,
   ⟨F.WIN_STATUS_REBASE, 0, fun s => natOfBool s.grn.rebase.isSome⟩,
   ⟨F.WIN_STATUS_IN_FLIGHT, 0, fun s => s.grn.inflight.length⟩,
   ⟨F.RST_STATUS_UNRESTORED, 0, fun s => s.grn.unrestored.count⟩,
   ⟨F.RST_STATUS_PENDING, 0, fun s => min 2047 (s.grn.fetches.filter (·.onDemand)).length⟩,
   ⟨F.BANK_STATUS_TESTING, 0, fun s => natOfBool s.pwr.bankTest⟩]

/-- Brings one live field up to date; in a group that is down or held in reset it reads its reset value (R506). -/
def LiveField.follow (new : State) (s : State) (l : LiveField) : State :=
  let v := if new.groupUp (l.field.group l.index) then l.value new % 2 ^ l.field.width else l.field.reset l.index
  if s.getN l.field l.index = v then s else s.setN l.field l.index v

/-- The fields of RDY_STATUS. -/
def readyFields : List Field :=
  [F.RDY_STATUS_RECOVERY, F.RDY_STATUS_DEGRADED, F.RDY_STATUS_LINK, F.RDY_STATUS_CAL, F.RDY_STATUS_FT_RUN,
   F.RDY_STATUS_PAIRS, F.RDY_STATUS_ENGINE, F.RDY_STATUS_DRAM, F.RDY_STATUS_FW, F.RDY_STATUS_GRN_FULL,
   F.RDY_STATUS_GRN_LAZY, F.RDY_STATUS_DIGEST, F.RDY_STATUS_VAULT, F.RDY_STATUS_FAULT, F.RDY_STATUS_MGMT]

/-- The fields of GRN_STATE other than RESTORE_PCT and THROTTLE (R79). -/
def grnStateFields : List Field :=
  [F.GRN_STATE_DELTAS, F.GRN_STATE_BASE_SLOT, F.GRN_STATE_LOSS, F.GRN_STATE_REFUSED, F.GRN_STATE_HOLD_RETURN,
   F.GRN_STATE_REQ_SRC, F.GRN_STATE_CAUSE, F.GRN_STATE_STATE]

/-- A register word put together from its fields of a single register. -/
def State.word (s : State) (fs : List Field) : Nat := fs.foldl (fun a f => a + s.get f * 2 ^ f.lo) 0

/-- RDY_STATUS as a word. -/
def State.rdyWord (s : State) : Nat := s.word readyFields

/-- GRN_STATE as a word. -/
def State.grnWord (s : State) : Nat := s.word (F.GRN_STATE_RESTORE_PCT :: F.GRN_STATE_THROTTLE :: grnStateFields)

/-- The live bits follow the state (R465). -/
def State.settleLive (new : State) : State := (readyLive ++ statusLive).foldl (LiveField.follow new) new

/-- CAL clears when FT_RUN clears (R466). -/
def State.settleCal (old s : State) : State :=
  if old.flag F.RDY_STATUS_FT_RUN && !s.flag F.RDY_STATUS_FT_RUN then s.set F.RDY_STATUS_CAL 0 else s

/-- A change of RDY_STATUS sets the READY alert and signals vector 3 (R465, R489). -/
def State.settleReady (old s : State) : State :=
  if old.rdyWord = s.rdyWord then s
  else (if s.pwr.aux then s.set F.MGT_ALERT_READY 1 else s).signal 3

/-- A change of GRN_STATE updates its AUX copy while HOLD is powered: neither its loss nor its power-up touches the copy
(R29, R471). -/
def State.copyGrn (old s : State) : State :=
  if old.grnWord ≠ s.grnWord ∧ old.pwr.hold ∧ s.pwr.hold then { s with hub := { s.hub with auxGrn := s.grnWord } } else s

/-- A change of GRN_STATE.STATE sets the GRANARY alert (R489). -/
def State.alertGrn (old s : State) : State :=
  if old.grnState = s.grnState || !s.pwr.aux then s else s.set F.MGT_ALERT_GRANARY 1

/-- A change of GRN_STATE in a field other than RESTORE_PCT and THROTTLE signals vector 2 (R79). -/
def State.signalGrn (old s : State) : State :=
  if old.word grnStateFields = s.word grnStateFields then s else s.signal 2

/-- A change of GRN_STATE takes its effects (R29, R79, R489). -/
def State.settleGrn (old s : State) : State := State.signalGrn old (State.alertGrn old (State.copyGrn old s))

/-- A change of the first-error capture updates its AUX copy (R29, R445): a loss of HOLD does not touch the copy (R471). -/
def State.settleFirst (old s : State) : State :=
  if old.firstWords = s.firstWords || !s.pwr.hold then s
  else { s with hub := { s.hub with auxFirst := s.firstWords } }

/-- What every command does last. -/
def State.settle (old new : State) : State :=
  State.settleFirst old (State.settleGrn old (State.settleReady old (State.settleCal old new.settleLive)))

/-- The outcome of a command whose effect turns `old` into `new`. -/
def done (old new : State) : Host.Outcome State Fault Refusal := .next (State.settle old new)

end Sys2Proof.Machine
end

