-- ==== Sys2Proof/WellFormed.lean ====
section
/-!
DEFINITION. Which commands a sender can form at all: bounds on operands that their types do not carry. A command that
fails here stops the model with `Fault.illFormed`; what the manual itself rejects is no matter of this file.
-/

namespace Sys2Proof

/-- Tillers are numbered 0 to 95 (R183). -/
def tillerOk (t : BitVec 7) : Bool := decide (t.toNat < 96)

/-- Whether a transfer delivers whole 64-byte lines. -/
def Transfer.wholeLines : Transfer → Bool
  | .bytes b => decide (b.length % 64 = 0)
  | .stopped _ _ => true

/-- A finding names a tiller, a buffer and a die that exist (R163, R183). -/
def SramFinding.ok : SramFinding → Bool
  | .poolUncorrectable b => decide (b.toNat < 24576)
  | .scratchCorrected t => tillerOk t
  | .scratchUncorrectable t => tillerOk t
  | .datapathParity t => tillerOk t
  | _ => true

/-- A tiller or a mailbox that exists. -/
def DmaRequester.ok : DmaRequester → Bool
  | .tiller t => tillerOk t
  | .mailbox _ => true

/-- Between the whole edges in a window and what it holds of TIME_REF lies less than a period (R50). -/
def windowPartOk (part : Int) : Bool := decide (part.natAbs < 1000)

/-- The bounds on a command's operands. -/
def Instr.wellFormed : Instr → Bool
  | .ingest _ d => d.transfer.wholeLines
  | .refWindowEnd p => windowPartOk p
  | .dimmSensorRead _ r => decide (r.length = 2)
  | .clearEventRecords _ _ h => decide (h.length ≤ 255)
  | .sramScrubSlice f => f.ok
  | .hostReadCompletion r _ => r.ok
  | .completionTimeout r => r.ok
  | .taskDispatch t => tillerOk t
  | .yieldPoint t => tillerOk t
  | .taskEnd t => tillerOk t
  | .scanStripeTask t => tillerOk t
  | .filterBatch t => tillerOk t
  | .computeBatch t => tillerOk t
  | .hashJoinBuild t => tillerOk t
  | .hashJoinProbe t => tillerOk t
  | .sortRun t => tillerOk t
  | .mergeTask t => tillerOk t
  | .hashAggTask t => tillerOk t
  | .sortedAggTask t => tillerOk t
  | .windowAggDataTask t => tillerOk t
  | .closeTask t => tillerOk t
  | .endOfStreamWork t => tillerOk t
  | .topkTask t => tillerOk t
  | .exchangeTask t => tillerOk t
  | .materializeStripeWrite t => tillerOk t
  | _ => true

end Sys2Proof
end

