-- ==== Sys2Proof/Machine/Operands.lean ====
section
/-!
DEFINITION. Operand forms: the fields of the 64-byte Darsum command (R97), plan handles, the data a command reads and
writes (R88, R105), and the host addresses that name a translation target (R272).
-/

namespace Sys2Proof.Machine

/-- Bytes [off, off + n) of a command as a little-endian number (R97). -/
def cmdField (c : Line) (off n : Nat) : Nat := c.toNat / 2 ^ (8 * off) % 2 ^ (8 * n)

/-- OPCODE. -/
def cmdOpcode (c : Line) : Nat := cmdField c 0 1
/-- FLAGS. -/
def cmdFlags (c : Line) : Nat := cmdField c 1 1
/-- FLAGS bit 0: FENCE. -/
def cmdFence (c : Line) : Bool := bitOf (cmdFlags c) 0
/-- FLAGS bit 1: NO_IRQ. -/
def cmdNoIrq (c : Line) : Bool := bitOf (cmdFlags c) 1
/-- SEQ. -/
def cmdSeq (c : Line) : Nat := cmdField c 2 2
/-- DATA_LEN. -/
def cmdLen (c : Line) : Nat := cmdField c 4 4
/-- DATA_ADDR. -/
def cmdAddr (c : Line) : Nat := cmdField c 8 8
/-- ARG0 to ARG5. -/
def cmdArg (c : Line) (k : Nat) : Nat := cmdField c (16 + 8 * k) 8

/-- The INSTANCE byte of a mailbox that stops a DMA (R105): 0x80 + n for pair n, 0xC0 for the admin mailbox. -/
def Mailbox.instance8 : Mailbox → Nat
  | .admin => 0xC0
  | .pair n => 0x80 + n.val

/-- The address context of a mailbox's data (R105). -/
def State.mailboxCtx (s : State) : Mailbox → Nat
  | .admin => 0
  | .pair n => s.getN F.MBX_STATE_CTX n.val

/-- The completion codes of R107. -/
def CC.ok : Nat := 0x00
def CC.badSequence : Nat := 0x01
def CC.invalidOpcode : Nat := 0x02
def CC.notPermitted : Nat := 0x03
def CC.invalidField : Nat := 0x04
def CC.lengthMismatch : Nat := 0x05
def CC.notReady : Nat := 0x06
def CC.noSuchObject : Nat := 0x07
def CC.stateConflict : Nat := 0x08
def CC.resourceLimit : Nat := 0x09
def CC.dmaError : Nat := 0x0A
def CC.aborted : Nat := 0x0B
def CC.imageInvalid : Nat := 0x0C
def CC.planFailed : Nat := 0x0D
def CC.blockInvalid : Nat := 0x0E
def CC.flashError : Nat := 0x0F
def CC.timeNotAligned : Nat := 0x10
def CC.timeNotMonotonic : Nat := 0x11
def CC.timeArmExpired : Nat := 0x12
def CC.timeRefAbsent : Nat := 0x13
def CC.internalError : Nat := 0xFF

/-- The opcodes of R108. -/
def Op.identify : Nat := 0x01
def Op.fwDownload : Nat := 0x02
def Op.fwCommit : Nat := 0x03
def Op.deviceReset : Nat := 0x04
def Op.optionRead : Nat := 0x05
def Op.optionWrite : Nat := 0x06
def Op.createPair : Nat := 0x08
def Op.deletePair : Nat := 0x09
def Op.bindVector : Nat := 0x0A
def Op.ftLoad : Nat := 0x10
def Op.setPacing : Nat := 0x11
def Op.planLoad : Nat := 0x20
def Op.planStart : Nat := 0x21
def Op.planCancel : Nat := 0x22
def Op.planUnload : Nat := 0x23
def Op.planStatus : Nat := 0x24
def Op.flowRelease : Nat := 0x25
def Op.ingest : Nat := 0x28
def Op.appendBlock : Nat := 0x29
def Op.granaryConfig : Nat := 0x30
def Op.granaryDump : Nat := 0x31
def Op.flashSubmit : Nat := 0x32
def Op.keyLoad : Nat := 0x40
def Op.keyDiscard : Nat := 0x41
def Op.digest : Nat := 0x42
def Op.mrRead : Nat := 0x43
def Op.mrExtend : Nat := 0x44
def Op.faultConfig : Nat := 0x48
def Op.faultInject : Nat := 0x49
def Op.spillConfig : Nat := 0x50

/-- The opcodes that command set 3.2 defines (R108). -/
def knownOpcodes : List Nat :=
  [0x01, 0x02, 0x03, 0x04, 0x05, 0x06, 0x08, 0x09, 0x0A, 0x10, 0x11, 0x20, 0x21, 0x22, 0x23, 0x24, 0x25, 0x28, 0x29,
   0x30, 0x31, 0x32, 0x40, 0x41, 0x42, 0x43, 0x44, 0x48, 0x49, 0x50]

end Sys2Proof.Machine
end

