-- ==== Sys2Proof/Machine/Iotlb.lean ====
section
/-!
DEFINITION. Armed checkers (R456), the IOTLB and requests to host memory (R272, R276, R282 to R290): lookups, translation
requests, the pages of a host access, and how an access is cut into requests.
-/

namespace Sys2Proof.Machine

/-! ### Injection (R456) -/

/-- An armed checker injects on its next check and is disarmed; the event is recorded as INJECTED (R456). The result
says whether this check was injected: the access then proceeds with its true data. -/
def State.injected (s : State) (n inst word : Nat) (checker : Nat) : Bool × State :=
  if s.hub.armed.contains (n, checker) then
    let rest := s.hub.armed.filter (fun p => p != (n, checker))
    let s := { s with hub := { s.hub with armed := rest } }
    let s := s.setN F.FLT_SRC_CFG_INJ_ARMED n (natOfBool (rest.any (fun p => p.1 == n)))
    (true, s.raiseWith n inst word true)
  else (false, s)

/-- The first of several sources whose checker is armed injects (R456). -/
def State.injectAny (s : State) (inst word checker : Nat) : List Nat → Bool × State
  | [] => (false, s)
  | n :: ns =>
    let r := s.injected n inst word checker
    if r.1 then r else s.injectAny inst word checker ns

/-! ### The engine's parts -/

/-- Changes the engine. -/
def State.mapEng (s : State) (f : Engine → Engine) : State := { s with eng := f s.eng }

/-- Changes the translation unit. -/
def State.mapTlu (s : State) (f : Tlu → Tlu) : State := s.mapEng (fun e => { e with tlu := f e.tlu })

/-- The statistics counters of the translation unit. -/
def C.tluMiss : Counter := ⟨F.TLU_MISS_CNT_COUNT, F.TLU_MISS_CNT_SAT⟩
def C.tluPri : Counter := ⟨F.TLU_PRI_CNT_COUNT, F.TLU_PRI_CNT_SAT⟩
def C.tluUnrestored : Counter := ⟨F.TLU_UNRESTORED_CNT_COUNT, F.TLU_UNRESTORED_CNT_SAT⟩
def C.tluInval : Counter := ⟨F.TLU_INVAL_CNT_COUNT, F.TLU_INVAL_CNT_SAT⟩

/-- Context 0 is always enabled (R274). -/
def State.ctxEnabled (s : State) (n : Nat) : Bool := n == 0 || s.getN F.CTX_CFG_EN n == 1

/-- ATS is in use (R285). -/
def State.atsOn (s : State) : Bool := s.link.atsEnable && s.flag F.TLU_CTL_ATS_USE

/-- Page requests may be sent for a context (R286). -/
def State.priOn (s : State) (ctx : Nat) : Bool :=
  s.link.priEnable && s.getN F.CTX_CFG_PRI_EN ctx == 1 && !s.flag F.TLU_STATUS_PRI_STOPPED

/-! ### The IOTLB (R282 to R284) -/

/-- The number from which an entry's tag selects its set. -/
def TlbEntry.tag (e : TlbEntry) : Nat :=
  (match e.kind with
    | .host c => c * 4
    | .device => 1
    | .granary => 2) + 1024 * (e.page * 32 + e.log)

/-- Whether an entry translates a page. -/
def TlbEntry.covers (e : TlbEntry) (k : TlbKind) (page : Nat) : Bool :=
  e.kind == k && decide (e.page ≤ page) && decide (page < e.page + 2 ^ e.log)

/-- Keeps the most recently used entries of a set, `n` of its 16 places being taken (R282). -/
def tlbTrim (set_ : Nat) : Nat → List TlbEntry → List TlbEntry
  | _, [] => []
  | n, e :: es =>
    if Config.iotlbSet e.tag % 1024 = set_ then (if n < 16 then e :: tlbTrim set_ (n + 1) es else tlbTrim set_ n es)
    else e :: tlbTrim set_ n es

/-- Makes an entry the most recently used one, in place of one that covers the same page. -/
def State.tlbFill (s : State) (e : TlbEntry) : State :=
  s.mapTlu (fun t => { t with tlb := e :: tlbTrim (Config.iotlbSet e.tag % 1024) 1 (t.tlb.filter (fun x => !x.covers e.kind e.page)) })

/-- Drops entries. -/
def State.tlbDrop (s : State) (p : TlbEntry → Bool) : State :=
  s.mapTlu (fun t => { t with tlb := t.tlb.filter (fun e => !p e) })

/-- A lookup: the entry, now the most recently used. One whose check fails is dropped, source 48 is raised, and the access
is translated again as a miss (R283); a check armed for injection is taken as failing (R456). -/
def State.tlbLookup (s : State) (k : TlbKind) (page : Nat) : Option TlbEntry × State :=
  match s.eng.tlu.tlb.find? (fun e => e.covers k page) with
  | some e =>
    let r := s.injected 48 0 0 0
    if r.1 then (none, (r.2.tlbDrop (fun x => x.covers k page)).bump C.tluMiss) else (some e, s.tlbFill e)
  | none => (none, s.bump C.tluMiss)

/-- Whether an entry meets a range of pages. -/
def TlbEntry.meets (e : TlbEntry) (page log : Nat) : Bool :=
  decide (e.page < page + 2 ^ log) && decide (page < e.page + 2 ^ e.log)

/-! ### Outcomes of an access (R292) -/

/-- The outcome of an access: its value, a park on a page, a stop with code and detail, or host data still to come. -/
inductive Dma (α : Type) where
  | ok (v : α)
  | park (w : PageWait)
  | stop (code detail : Nat)
  | pending

/-- The codes of R295. -/
def DmaErr.addrInvalid : Nat := 0x0401
def DmaErr.devUnmapped : Nat := 0x0402
def DmaErr.devPerm : Nat := 0x0403
def DmaErr.pteInvalid : Nat := 0x0404
def DmaErr.hostFault : Nat := 0x0405
def DmaErr.poison : Nat := 0x0406
def DmaErr.timeout : Nat := 0x0407
def DmaErr.abort : Nat := 0x0408
def DmaErr.granaryRange : Nat := 0x0409

/-- Carries an outcome that is not a value over to another type. -/
def Dma.bind {α β : Type} (d : Dma α) (f : α → Dma β) : Dma β :=
  match d with
  | .ok v => f v
  | .park w => .park w
  | .stop c d => .stop c d
  | .pending => .pending

/-- TLU_FAULT_ADDR.KIND of a code. -/
def dmaKind (code : Nat) : Nat :=
  if 0x0402 ≤ code ∧ code ≤ 0x0404 then 1
  else if code = 0x0401 ∨ code = 0x0409 then 2
  else if code = 0x0405 then 4
  else 3

/-- Captures the address, context and kind of a stopping fault (R295). -/
def State.captureFault (s : State) (code ctx addr : Nat) (granary : Bool) : State :=
  s.setAll [(F.TLU_FAULT_ADDR_KIND, dmaKind code), (F.TLU_FAULT_ADDR_GRANARY, natOfBool granary),
    (F.TLU_FAULT_ADDR_CTX, ctx), (F.TLU_FAULT_ADDR_ADDR, addr)]

/-! ### Requests on the link (R276, R290) -/

/-- How a request of a context goes out: its PASID where the context has one, translated while ATS is in use, no ordering
attribute set (R276, R285, R290). -/
def State.via (s : State) (ctx : Nat) : HostVia :=
  { ctx := ctx, translated := s.atsOn, attributes := 0,
    pasid := if s.getN F.CTX_CFG_PASID_EN ctx = 1 then some ⟨s.getN F.CTX_CFG_PASID ctx, false, false⟩ else none }

/-- A translation request and a page request go out untranslated themselves. -/
def State.viaAsk (s : State) (ctx : Nat) : HostVia := { s.via ctx with translated := false }

/-- A range cut into requests of at most `limit` bytes, none across a 4 KiB boundary (R290). -/
def hostPieces (limit : Nat) : Nat → Nat → Nat → List (Nat × Nat)
  | 0, _, _ => []
  | fuel + 1, addr, len =>
    let n := min len (min (4096 - addr % 4096) limit)
    if len = 0 then [] else (addr, n) :: hostPieces limit fuel (addr + n) (len - n)

/-- Enough pieces for a length, as none but those at a boundary is shorter than 128 bytes. -/
def pieceFuel (len : Nat) : Nat := len / 128 + len / 4096 + 2

/-- Where a byte of an access lies on the link: its page's frame, and the place within the page. -/
def framed (frames : List Nat) (first addr : Nat) : Nat := frames.getD (addr / 4096 - first / 4096) (addr / 4096) * 4096 + addr % 4096

/-! ### Host pages (R285, R286) -/

/-- Sends the translation request that comes into the 64 outstanding ones when one of them has gone (R285). -/
def State.sendNextTrans (s : State) : State :=
  match s.eng.tlu.reqs[63]? with
  | some r => s.emit (.transReq r.id (s.viaAsk r.ctx) r.page r.write)
  | none => s

/-- A translation request for a page: a new one, or one outstanding for the same page (R285). -/
def State.requestTrans (s : State) (ctx page : Nat) (write second : Bool) : State × Nat :=
  match s.eng.tlu.reqs.find? (fun r => r.ctx == ctx && r.page == page && r.write == write && r.second == second) with
  | some r => (s, r.id)
  | none =>
    let id := s.eng.tlu.nextId
    let r : TransReq := { id := id, ctx := ctx, page := page, write := write, second := second, stale := [] }
    let n := s.eng.tlu.reqs.length
    let s := s.mapTlu (fun t => { t with reqs := t.reqs ++ [r], nextId := id + 1 })
    (if n < 64 then s.emit (.transReq id (s.viaAsk ctx) page write) else s, id)

/-- Access to a host page: the frame it goes out at, untranslated without ATS, else through the IOTLB (R285). -/
def State.hostPage (s : State) (ctx page : Nat) (write : Bool) : State × Dma Nat :=
  if !s.atsOn then (s, .ok page)
  else
    match s.tlbLookup (.host ctx) page with
    | (some e, s) =>
      if if write then e.write else e.read then (s, .ok (e.frame + (page - e.page)))
      else
        let r := s.requestTrans ctx page write false
        (r.1, .park (.trans r.2))
    | (none, s) =>
      let r := s.requestTrans ctx page write false
      (r.1, .park (.trans r.2))

/-! ### Addresses -/

/-- A context address checked (R272, R295): ADDR_INVALID for bits 63 to 47, or for a context that is not enabled. -/
def State.ctxCheck (s : State) (ctx addr : Nat) : Option (Nat × Nat) :=
  if 2 ^ 47 ≤ addr then some (DmaErr.addrInvalid, 1)
  else if !s.ctxEnabled ctx then some (DmaErr.addrInvalid, 2)
  else none

/-- The device region of a context address (R272). -/
def inDevice (addr : Nat) : Bool := bitOf addr 46

/-- The pages of 4 KiB that a range meets. -/
def pagesOf (addr len : Nat) : List Nat := (List.range (ceilDiv (addr % 4096 + max 1 len) 4096)).map (· + addr / 4096)

/-- Runs an access check over pages until one does not pass; the frames of those that pass. -/
def State.overPages (s : State) (f : State → Nat → State × Dma Nat) : List Nat → State × Dma (List Nat)
  | [] => (s, .ok [])
  | p :: ps =>
    match f s p with
    | (s, .ok v) =>
      let r := s.overPages f ps
      (r.1, r.2.bind (fun vs => .ok (v :: vs)))
    | (s, d) => (s, d.bind (fun _ => .ok []))

/-- Whether every page of a host access can go out now, and at which frames (R272, R285, R286). In D3hot an access to host memory
waits for D0 (R478). -/
def State.hostReach (s : State) (ctx addr len : Nat) (write : Bool) : State × Dma (List Nat) :=
  if s.pwr.d3hot then (s, .pending) else s.overPages (fun s pg => s.hostPage ctx pg write) (pagesOf addr len)

/-- A write of host memory as the requests that carry it: of at most 512 bytes (R290). -/
def State.hostSend (s : State) (ctx addr : Nat) (frames : List Nat) (b : List Byte) : State :=
  (hostPieces 512 (pieceFuel b.length) addr b.length).foldl (fun s p =>
    s.emit (.hostWrite (s.via ctx) (framed frames addr p.1) (sliceBytes b (p.1 - addr) p.2))) s

/-- The requests of a host read: of at most the Max Read Request Size that the host has set (R290); where each lies on the
link, and its length. -/
def State.readPieces (s : State) (addr len : Nat) (frames : List Nat) : List (Nat × Nat) :=
  (hostPieces (max 128 s.link.maxRead) (pieceFuel len) addr len).map (fun p => (framed frames addr p.1, p.2))

end Sys2Proof.Machine
end

