-- ==== Sys2Proof/Machine/Mailbox.lean ====
section
/-!
DEFINITION. Mailboxes (R88 to R105, R113): credits, completions and their interrupts, and which accepted command may
begin.
-/

namespace Sys2Proof.Machine

/-- MBX[n].STATE.STATE (R113). -/
def Mbx.disabled : Nat := 0
def Mbx.active : Nat := 1
def Mbx.draining : Nat := 2
def Mbx.error : Nat := 3

/-- The hidden part of a pair; a DISABLED pair has none. -/
def Pair.blank : Pair :=
  { sqBase := 0, cqBase := 0, sqLog := 4, cqLog := 4, coalCount := 0, coalTime := 0, cqHead := 0, phase := true,
    unsignalled := 0, firstAt := none, held := [], holding := false, governed := false, waits := [], sqWaits := [] }

/-- The hidden part of pair `n`. -/
def State.pair (s : State) (n : Nat) : Pair := s.mbx.pairs.getD n Pair.blank

/-- Writes the hidden part of pair `n`. -/
def State.setPair (s : State) (n : Nat) (p : Pair) : State :=
  { s with mbx := { s.mbx with pairs := s.mbx.pairs.set n p } }

/-- MBX[n].STATE as a 64-bit word, the INFO of a mailbox event (R435). -/
def State.mbxStateWord (s : State) (n : Nat) : Nat :=
  s.getN F.MBX_STATE_STATE n + s.getN F.MBX_STATE_ERR_CAUSE n * 2 ^ 6 + s.getN F.MBX_STATE_CTX n * 2 ^ 8 +
  s.getN F.MBX_STATE_CLASS n * 2 ^ 16 + s.getN F.MBX_STATE_WINDOW n * 2 ^ 20 +
  s.getN F.MBX_STATE_INFLIGHT n * 2 ^ 32 + s.getN F.MBX_STATE_EXP_SEQ n * 2 ^ 48

/-- The credit limit of R91. -/
def State.creditLimit (s : State) (n : Nat) : Nat :=
  let size := 2 ^ (s.pair n).sqLog
  (s.getN F.MBX_PTRS_HEAD n + min (size - 1) (s.getN F.MBX_STATE_WINDOW n - s.getN F.MBX_STATE_INFLIGHT n)) % size

/-- Brings MBX[n].PTRS.LIMIT up to date (R91). -/
def State.advanceLimit (s : State) (n : Nat) : State := s.setN F.MBX_PTRS_LIMIT n (s.creditLimit n)

/-- Acceptance of a pair is no longer held: it stops, or its next command is accepted (R93, R113). -/
def State.endHold (s : State) (n : Nat) : State := s.setPair n { s.pair n with holding := false, governed := false }

/-- A pair in ERROR with a cause (R113). -/
def State.enterError (s : State) (n cause : Nat) : State :=
  ((s.endHold n).setN F.MBX_STATE_ERR_CAUSE n cause).setN F.MBX_STATE_STATE n Mbx.error

/-- Puts an ACTIVE pair into ERROR with a cause and raises the mailbox-protocol source (R113). -/
def State.pairError (s : State) (n cause : Nat) : State :=
  if s.getN F.MBX_STATE_STATE n = Mbx.active then
    (s.enterError n cause).raise 24 n ((s.enterError n cause).mbxStateWord n)
  else s

/-- Fires the pair's vector and starts a new gathering (R95). -/
def State.firePair (s : State) (n : Nat) : State :=
  (s.setPair n { s.pair n with unsignalled := 0, firstAt := none }).signal (8 + n)

/-- Counts a completion toward the coalescing figures of R95; a NO_IRQ command counts toward neither. -/
def State.coalesce (s : State) (n : Nat) (noIrq : Bool) : State :=
  if noIrq then s
  else
    let p := s.pair n
    if p.coalCount = 0 || p.coalCount ≤ p.unsignalled + 1 then s.firePair n
    else s.setPair n { p with unsignalled := p.unsignalled + 1, firstAt := some (p.firstAt.getD s.now) }

/-- The 16-byte completion of R94. -/
def cplEntry (seq status flags sqHead limit result : Nat) : BitVec 128 :=
  BitVec.ofNat 128 (seq % 2 ^ 16 + status % 2 ^ 8 * 2 ^ 16 + flags % 2 ^ 8 * 2 ^ 24 + sqHead % 2 ^ 16 * 2 ^ 32 +
    limit % 2 ^ 16 * 2 ^ 48 + result % 2 ^ 64 * 2 ^ 64)

/-- A CQ is full when advancing its tail would make the tail equal CQ_HEAD (R94). -/
def State.cqFull (s : State) (n : Nat) : Bool :=
  (s.getN F.MBX_PTRS_CQ_TAIL n + 1) % 2 ^ (s.pair n).cqLog == (s.pair n).cqHead

/-- One command fewer in flight. -/
def State.dropInflight (s : State) (n : Nat) : State :=
  (s.setN F.MBX_STATE_INFLIGHT n (s.getN F.MBX_STATE_INFLIGHT n - 1)).advanceLimit n

/-- The entry of a completion as the pair's ring takes it (R94). -/
def State.entryOf (s : State) (n : Nat) (c : Cpl) : BitVec 128 :=
  cplEntry c.seq c.status (natOfBool (s.pair n).phase) (s.getN F.MBX_PTRS_HEAD n) (s.getN F.MBX_PTRS_LIMIT n) c.result

/-- The CQ index after the present one (R94). -/
def State.nextTail (s : State) (n : Nat) : Nat := (s.getN F.MBX_PTRS_CQ_TAIL n + 1) % 2 ^ (s.pair n).cqLog

/-- The host address of the next completion entry. -/
def State.cqAddr (s : State) (n : Nat) : Nat := (s.pair n).cqBase + 16 * s.getN F.MBX_PTRS_CQ_TAIL n

/-- The translation of that entry's page, while ATS is in use (R285). -/
def State.cqPage (s : State) (n : Nat) : Option TlbEntry :=
  s.eng.tlu.tlb.find? (fun e => e.covers (.host (s.getN F.MBX_STATE_CTX n)) (s.cqAddr n / 4096) && e.write)

/-- Where the next completion entry lies on the link. -/
def State.cqLink (s : State) (n : Nat) : Nat :=
  match s.atsOn, s.cqPage n with
  | true, some e => (e.frame + (s.cqAddr n / 4096 - e.page)) * 4096 + s.cqAddr n % 4096
  | _, _ => s.cqAddr n

/-- Sends a completion entry and advances the ring; PHASE inverts at each wrap (R94). -/
def State.takeEntry (s : State) (n : Nat) (c : Cpl) : State :=
  ((s.emit (.cqEntry n (s.getN F.MBX_PTRS_CQ_TAIL n) (s.via (s.getN F.MBX_STATE_CTX n)) (s.cqLink n) (s.entryOf n c))).setN F.MBX_PTRS_CQ_TAIL n (s.nextTail n)).setPair n
    { s.pair n with phase := if s.nextTail n = 0 then !(s.pair n).phase else (s.pair n).phase }

/-- Writes one completion to the pair's CQ (R94, R95): INFLIGHT falls, LIMIT follows, PHASE inverts at each wrap. -/
def State.writeCpl (s : State) (n : Nat) (c : Cpl) : State := ((s.dropInflight n).takeEntry n c).coalesce n c.noIrq

/-- A completion of an admin command (R88, R95): ADM_CPL, BUSY, DONE, vector 0. -/
def State.admComplete (s : State) (seq status result : Nat) (noIrq : Bool) : State :=
  if noIrq then s.setAll [(F.ADM_CPL_CPL, (cplEntry seq status 0 0 0 result).toNat), (F.ADM_STATUS_BUSY, 0), (F.ADM_STATUS_DONE, 1)]
  else (s.setAll [(F.ADM_CPL_CPL, (cplEntry seq status 0 0 0 result).toNat), (F.ADM_STATUS_BUSY, 0),
    (F.ADM_STATUS_DONE, 1)]).signal 0

/-- Drops an accepted command from the list. -/
def State.forget (s : State) (id : Nat) : State :=
  { s with mbx := { s.mbx with accepted := s.mbx.accepted.filter (·.id ≠ id) } }

/-- A pair's hidden part and its registers are cleared (R113). The manual does not say what MBX[n].PTRS and MBX[n].STATE show
of a pair that has become DISABLED; they show zeros: DESIGN CHOICE, log entry 175. -/
def State.clearPair (s : State) (n : Nat) : State :=
  [F.MBX_PTRS_TAIL, F.MBX_PTRS_LIMIT, F.MBX_PTRS_HEAD, F.MBX_PTRS_CQ_TAIL, F.MBX_STATE_EXP_SEQ,
    F.MBX_STATE_INFLIGHT, F.MBX_STATE_WINDOW, F.MBX_STATE_CLASS, F.MBX_STATE_CTX, F.MBX_STATE_ERR_CAUSE,
    F.MBX_STATE_STATE].foldl (fun s f => s.setN f n 0)
    { s with mbx := { s.mbx with pairs := s.mbx.pairs.erase n } }

/-- The begun DELETE_PAIR of a pair completes (R113). -/
def State.endDelete (s : State) (n : Nat) : State :=
  match s.mbx.accepted.find? (fun a => a.begun && cmdOpcode a.cmd == Op.deletePair && cmdArg a.cmd 0 % 64 == n) with
  | some a => (s.forget a.id).admComplete (cmdSeq a.cmd) CC.ok 0 (cmdNoIrq a.cmd)
  | none => s

/-- Completions still unsignalled are signalled. -/
def State.flushFire (s : State) (n : Nat) : State := if (s.pair n).unsignalled = 0 then s else s.firePair n

/-- A pair that is DRAINING with nothing in flight becomes DISABLED, its registers cleared, and the DELETE_PAIR that
drained it completes (R113). Completions still unsignalled are signalled. -/
def State.finishDrain (s : State) (n : Nat) : State :=
  if s.getN F.MBX_STATE_STATE n = Mbx.draining ∧ s.getN F.MBX_STATE_INFLIGHT n = 0 then
    ((s.flushFire n).clearPair n).endDelete n
  else s

/-- A pair in ERROR by a failed CQ write, or draining after it, writes no completion (R113). -/
def State.cqStopped (s : State) (n : Nat) : Bool := s.getN F.MBX_STATE_ERR_CAUSE n == 3

/-- A ring base outside the host region cannot be reached (R272, R273). -/
def ringUnreachable (base : Nat) : Bool := decide (2 ^ 46 ≤ base)

/-- `k` commands fewer in flight. -/
def State.dropAll (s : State) (n k : Nat) : State := (List.range k).foldl (fun s _ => s.dropInflight n) s

/-- Nothing waits for the pair's CQ, and acceptance is not held. -/
def State.emptyHeld (s : State) (n : Nat) : State :=
  s.setPair n { s.pair n with held := [], holding := false, governed := false }

/-- A CQ write fails (R113): an ACTIVE pair enters ERROR with cause 11, and the completions that waited for the ring are
internal. That they are internal too where the pair was DRAINING or in ERROR already, which the table has no row for, is a
DESIGN CHOICE, log entry 176. -/
def State.cqFails (s : State) (n : Nat) : State :=
  ((((s.pairError n 3).emptyHeld n).dropAll n (s.pair n).held.length)).finishDrain n

/-- A completion waits for its CQ (R94). -/
def State.holdCpl (s : State) (n : Nat) (c : Cpl) : State := s.setPair n { s.pair n with held := (s.pair n).held ++ [c] }

/-- A pair's ring can never be written: it lies outside the host region, or its context is not enabled (R272, R273). -/
def State.cqUnreachable (s : State) (n : Nat) : Bool :=
  ringUnreachable (s.pair n).cqBase || !s.ctxEnabled (s.getN F.MBX_STATE_CTX n)

/-- A completion can go out at once: the link takes requests (R85), the function is in D0 (R478), and no translation of its page
is missing (R285). -/
def State.cqOpen (s : State) (n : Nat) : Bool := !s.linkClosed && !s.pwr.d3hot && (!s.atsOn || (s.cqPage n).isSome)

/-- The completion of a pair command: written, held while the CQ is full or its page awaits translation (R94, R292), or
internal under cause 11 or where the ring cannot be reached. -/
def State.pairComplete (s : State) (n : Nat) (c : Cpl) : State :=
  if s.cqStopped n then (s.dropInflight n).finishDrain n
  else if s.cqUnreachable n then (s.holdCpl n c).cqFails n
  else if s.cqFull n || !(s.pair n).held.isEmpty || !s.cqOpen n then s.holdCpl n c
  else (s.writeCpl n c).finishDrain n

/-- Completes an accepted command with a code and RESULT (R94, R107). For FENCE and for its objects it has then completed, though
a full CQ may still hold its completion: DESIGN CHOICE, log entry 177. -/
def State.complete (s : State) (a : Accepted) (status result : Nat) : State :=
  match a.mb with
  | .admin => (s.forget a.id).admComplete (cmdSeq a.cmd) status result (cmdNoIrq a.cmd)
  | .pair n => (s.forget a.id).pairComplete n.val ⟨cmdSeq a.cmd, status, result, cmdNoIrq a.cmd⟩

/-- Replaces an accepted command that has begun or progressed. -/
def State.update (s : State) (a : Accepted) : State :=
  { s with mbx := { s.mbx with accepted := s.mbx.accepted.map (fun b => if b.id = a.id then a else b) } }

/-- Marks an accepted command as begun, and its transfer as over (R100). -/
def State.begin (s : State) (a : Accepted) : State := s.update { a with begun := true, parked := false, waits := [] }

/-- A command's transfer parks (R292): the command has begun, and goes on once nothing is left that it waits on. -/
def State.parkCmd (s : State) (a : Accepted) (ws : List PageWait) : State :=
  s.update { a with begun := true, parked := true, waits := ws }

/-- The slots that are LOADING: those of PLAN_LOADs accepted and not completed (R180). -/
def State.loadingSlots (s : State) : Store Nat := s.eng.loading.filter (fun p => s.mbx.accepted.any (fun a => a.id == p.2))

/-- The slot that a PLAN_LOAD was accepted for (R180). -/
def State.slotOf (s : State) (a : Accepted) : Option Nat := (s.loadingSlots.find? (fun p => p.2 == a.id)).map (·.1)

/-- The lowest slot that is EMPTY (R155, R180). -/
def State.emptySlot (s : State) : Option Nat :=
  (List.range 256).find? (fun k => !s.eng.plans.has k && !s.loadingSlots.has k)

/-- A PLAN_LOAD is accepted: the lowest EMPTY slot becomes LOADING for it (R180); with none EMPTY it has no slot yet. -/
def State.claimSlot (s : State) (a : Accepted) : State :=
  match s.emptySlot with
  | some k => { s with eng := { s.eng with loading := s.loadingSlots.set k a.id } }
  | none => s

/-- The objects of R103 that a command names: a kind and a number. -/
def cmdObjects (c : Line) : List (Nat × Nat) :=
  match cmdOpcode c with
  | 0x0A => [(0, cmdArg c 1 % 2 ^ 16)]
  | 0x21 | 0x22 | 0x23 | 0x24 | 0x25 => [(0, cmdArg c 0 % 2 ^ 16)]
  | 0x40 | 0x41 => [(1, cmdArg c 0)]
  | 0x08 => [(2, cmdArg c 2 % 64)]
  | 0x09 => [(2, cmdArg c 0 % 64)]
  | 0x43 | 0x44 => [(3, cmdArg c 0)]
  | _ => []

/-- The commands of R104 that change device-wide state and run one at a time. -/
def cmdDeviceWide (c : Line) : Bool :=
  [0x30, 0x31, 0x50, 0x11, 0x48, 0x40, 0x41, 0x03, 0x06].contains (cmdOpcode c)

/-- The key slot that a DIGEST reads: its states are copied at the start, so several may use one slot at once (R425). -/
def cmdReadsSlot (c : Line) : Option Nat := if cmdOpcode c = Op.digest && cmdArg c 1 != 0xFF then some (cmdArg c 1) else none

/-- A command that changes a key slot. -/
def cmdWritesSlot (c : Line) : Option Nat :=
  if cmdOpcode c = Op.keyLoad || cmdOpcode c = Op.keyDiscard then some (cmdArg c 0) else none

/-- A DIGEST and a change of the slot that it reads keep their order (R103). -/
def slotBlocks (e a : Line) : Bool :=
  (cmdWritesSlot e).any (fun k => cmdReadsSlot a == some k) || (cmdReadsSlot e).any (fun k => cmdWritesSlot a == some k)

/-- Appends to one column begin in acceptance order (R134). -/
def appendBlocks (e a : Accepted) : Bool :=
  !e.begun && cmdOpcode e.cmd == Op.appendBlock && cmdOpcode a.cmd == Op.appendBlock &&
  cmdArg e.cmd 0 == cmdArg a.cmd 0 && cmdArg e.cmd 1 % 65536 == cmdArg a.cmd 1 % 65536

/-- The objects of an accepted command: those it names, and for a PLAN_LOAD the handle of the slot that it loads (R103). -/
def State.objectsOf (s : State) (a : Accepted) : List (Nat × Nat) :=
  match s.slotOf a with
  | some k => (0, s.eng.gens.getD k 0 * 256 + k) :: cmdObjects a.cmd
  | none => cmdObjects a.cmd

/-- Whether an earlier command keeps a later one waiting: a shared object (R103; a begun PLAN_START whose parameters have come
and a begun DELETE_PAIR keep nothing waiting), an append to the same column, or the serial commands of R104. -/
def State.cmdBlocks (s : State) (e a : Accepted) : Bool :=
  let shared := (s.objectsOf e).any (fun o => (s.objectsOf a).contains o) || slotBlocks e.cmd a.cmd || appendBlocks e a
  let free := e.begun && !e.parked && (cmdOpcode e.cmd == Op.planStart || cmdOpcode e.cmd == Op.deletePair)
  (shared && !free) || (cmdDeviceWide e.cmd && cmdDeviceWide a.cmd) ||
  (cmdOpcode e.cmd == Op.ftLoad && cmdOpcode a.cmd == Op.ftLoad)

/-- Whether an accepted command may begin (R100, R103, R104). -/
def State.mayBegin (s : State) (a : Accepted) : Bool :=
  let earlier := s.mbx.accepted.takeWhile (fun b => b.id != a.id)
  earlier.all (fun e => !s.cmdBlocks e a && (e.mb != a.mb || (e.begun && !cmdFence a.cmd)))

/-- The accepted commands that have not begun, in acceptance order. -/
def State.unbegun (s : State) : List Accepted := s.mbx.accepted.filter (fun a => !a.begun)

/-- A command has its place in the on-chip queue of 1,024 entries, or has come back to it from the spill area (R262). -/
def State.onChip (s : State) (a : Accepted) : Bool := (s.unbegun.take 1024).any (fun b => b.id == a.id)

/-- The accepted command of a mailbox whose transfer was parked and can go on (R292), or else the one that has not begun, comes
first in its mailbox and may begin; it has one of the opcodes given. A command in execution on a core in block reset waits
for the core's restart. -/
def State.nextCmd (s : State) (m : Mailbox) (p : Line → Bool) : Option Accepted :=
  match s.mbx.accepted.find? (fun a => a.mb == m && a.parked && a.waits.isEmpty && a.owed.isNone && p a.cmd) with
  | some a => some a
  | none =>
    match s.mbx.accepted.find? (fun a => a.mb == m && !a.begun) with
    | some a => if p a.cmd && s.onChip a && s.mayBegin a then some a else none
    | none => none

/-- Ends a mailbox command by a DMA stop (R105, R295): source 49 with the mailbox's INSTANCE and the error word, and
DMA_ERROR. -/
def State.dmaEnd (s : State) (a : Accepted) (code detail : Nat) : State :=
  let inst := Mailbox.instance8 a.mb
  (s.raise 49 inst (code + detail * 2 ^ 16 + inst * 2 ^ 24)).complete a CC.dmaError 49

/-- Stops a mailbox command's transfer that the host fails (R105, R295); the address captured is the transfer's. -/
def State.dmaStop (s : State) (a : Accepted) (code detail : Nat) : State :=
  (s.captureFault code (s.mailboxCtx a.mb) (cmdAddr a.cmd) false).dmaEnd a code detail

/-- Whether the data of a command is the admin mailbox's inline buffer (R88). -/
def Accepted.inline (a : Accepted) : Bool := a.mb == .admin && cmdAddr a.cmd == 0

/-- The number of a command's mailbox: the admin mailbox counts as 64. -/
def mailboxNumber : Mailbox → Nat
  | .pair n => n.val
  | .admin => 64

/-- A command as one that waits for a reservation or for a page. -/
def Accepted.waiter (a : Accepted) : Waiter := .mailbox (mailboxNumber a.mb) a.id

/-! ### Check 6 (R98, R467) -/

/-- The bits of RDY_STATUS that a command needs beyond FW (R467). -/
def readyNeeds (op : Nat) : List Field :=
  if op = Op.fwDownload then [F.RDY_STATUS_DRAM]
  else if [Op.fwCommit, Op.optionRead, Op.optionWrite, Op.flashSubmit, Op.granaryConfig, Op.granaryDump].contains op then
    [F.RDY_STATUS_VAULT]
  else if [Op.createPair, Op.deletePair].contains op then [F.RDY_STATUS_PAIRS]
  else if [Op.planLoad, Op.planStart, Op.planCancel, Op.planUnload, Op.planStatus, Op.flowRelease, Op.bindVector,
      Op.spillConfig].contains op then [F.RDY_STATUS_ENGINE]
  else if [Op.ingest, Op.appendBlock].contains op then [F.RDY_STATUS_GRN_LAZY]
  else if [Op.keyLoad, Op.keyDiscard, Op.digest, Op.mrRead, Op.mrExtend].contains op then [F.RDY_STATUS_DIGEST]
  else if [Op.faultConfig, Op.faultInject].contains op then [F.RDY_STATUS_FAULT]
  else []

/-- Check 6 (R98, R452, R467): a needed bit is clear; LATCHED counts as one for all but IDENTIFY. -/
def State.notReady (s : State) (c : Line) : Bool :=
  (s.latched && cmdOpcode c != Op.identify) || (readyNeeds (cmdOpcode c)).any (fun f => !s.flag f)

end Sys2Proof.Machine
end

