-- ==== Sys2Proof/Machine/FieldTime.lean ====
section
/-!
DEFINITION. Field time and the event calendar (R44 to R63): the count, its reference and PPS, loads, and the firing of
calendar entries.
-/

namespace Sys2Proof.Machine


/-- Writes the time block. -/
def State.setFt (s : State) (t : TimeBlock) : State := { s with ft := t }

/-! ### Darsum loads -/

/-- The FT_LOAD command in progress, if any (R55, R104). -/
def State.ftCommand (s : State) : Option Accepted :=
  s.mbx.accepted.find? (fun a => a.begun && cmdOpcode a.cmd == Op.ftLoad)

/-- The FT_LOAD command in progress completes with a code (R55). -/
def State.ftCommandDone (s : State) (code : Nat) : State :=
  match s.ftCommand with
  | some a => s.complete a code 0
  | none => s

/-- An arm fails: ARM_FAIL with its cause (R54). -/
def State.armFails (s : State) (cause : Nat) : State :=
  (s.set F.FT_STATUS_ARM_FAIL 1).set F.FT_STATUS_ARM_CAUSE cause

/-- The load of the FT_LOAD command in progress fails: ARM_FAIL with its cause, and the command's code (R54, R55). -/
def State.armFail (s : State) (cause code : Nat) : State := (s.armFails cause).ftCommandDone code

/-- FT_LOAD holds no whole second: arming fails as NOT_ALIGNED (R54). -/
def State.misaligned (s : State) : Bool := decide (s.get F.FT_LOAD_VALUE % second ≠ 0)

/-- Arming captures FT_LOAD as the pending load, in place of one that was pending, and its 2 s begin (R53, R54). -/
def State.captureLoad (s : State) : State :=
  s.setFt { s.ft with pending := some ⟨s.get F.FT_LOAD_VALUE, s.now, s.flag F.FT_STATUS_REF_OK⟩ }

/-- The pending load fails for want of a qualifying edge: REF_ABSENT when REF_OK never set, EXPIRED otherwise (R54). -/
def State.failArmed (s : State) (p : PendingLoad) : State :=
  let s := s.setFt { s.ft with pending := none }
  if p.refSeen then s.armFail 1 CC.timeArmExpired else s.armFail 4 CC.timeRefAbsent

/-- Two seconds after arming the load fails (R54). -/
def State.expireLoad (s : State) : State :=
  match s.ft.pending with
  | some p => if s.now < p.at_ + 2 * second then s else s.failArmed p
  | none => s

/-- More than two seconds after arming the load has failed: an edge at the end of the two seconds is within them, and the
load's own row governs it (R5, R22, R54). -/
def State.expireLate (s : State) : State :=
  match s.ft.pending with
  | some p => if s.now ≤ p.at_ + 2 * second then s else s.failArmed p
  | none => s

/-! ### The reference -/

/-- A loss of TIME_REF (R50, R51): qualification restarts at the next edge; a qualified reference lost sets REF_LOST,
clears REF_OK and raises source 8; in RUNNING the count stops, and holds the value that FT_NOW last reached (R45, R51). -/
def State.loseRef (s : State) : State :=
  let s := s.setFt { s.ft with windows := false, good := 0, bad := 0 }
  if !s.flag F.FT_STATUS_REF_OK then s
  else
    let s := (s.set F.FT_STATUS_REF_LOST 1).set F.FT_STATUS_REF_OK 0
    let s := if s.get F.FT_STATUS_STATE = Ft.running then
        (s.setFt { s.ft with count := s.ftRead }).set F.FT_STATUS_STATE Ft.stopped
      else s
    s.raise 8 0 0

/-- TIME_REF qualifies (R50): REF_OK sets, source 8's condition ends, and a pending load has seen REF_OK. -/
def State.qualifyRef (s : State) : State :=
  let s := (s.set F.FT_STATUS_REF_OK 1).clearLive 8
  s.setFt { s.ft with pending := s.ft.pending.map (fun p => { p with refSeen := true }) }

/-- The count after one TIME_REF edge (R44, R46). -/
def State.advanceCount (s : State) : State :=
  let total := s.ft.frac + s.ftIncrement * s.slewFactor
  let count := s.ft.count + total / second
  let ended := decide (s.ft.slewEnd ≤ count)
  s.setFt { s.ft with count := count % 2 ^ 64, frac := total % second, slew := if ended then 0 else s.ft.slew }

/-- TIME_REF_EDGE (R44, R50). -/
def execTimeRefEdge (s : State) : Host.Outcome State Fault Refusal :=
  if !s.mainUp then done s s
  else
    let t := if s.get F.FT_STATUS_STATE = Ft.running then s.advanceCount else s
    let t := if !t.ft.windows then
        t.setFt { t.ft with windows := true, windowAt := t.now, windowEdges := 1, nextEdges := 0, good := 0, bad := 0 }
      else if t.now < t.ft.windowAt + 1000000 then t.setFt { t.ft with windowEdges := t.ft.windowEdges + 1 }
      else t.setFt { t.ft with nextEdges := t.ft.nextEdges + 1 }
    done s (t.setFt { t.ft with edgeAt := t.now, interpAt := t.now })

/-- The TIME_REF edges of 1 ms at the selected nominal frequency (R44, R50). -/
def State.nominalEdges (s : State) : Nat := 1000000 / s.ftIncrement

/-- The window is in tolerance: the frequency measured in it lies within 100 ppm of the nominal (R50). It is measured by the edges
counted in the window, and by the part of a period that lies beyond them: DEDUCED, log entry 190. -/
def State.inTolerance (s : State) (part : Int) : Bool :=
  decide (10 * (1000 * ((s.ft.windowEdges : Int) - (s.nominalEdges : Int)) + part).natAbs ≤ s.nominalEdges)

/-- REF_WINDOW_END (R50): one qualification window of 1 ms is judged by the frequency measured in it. -/
def execRefWindowEnd (part : Int) (s : State) : Host.Outcome State Fault Refusal :=
  if !windowPartOk part then .fault .illFormed
  else if !s.mainUp || !s.ft.windows || s.now < s.ft.windowAt + 1000000 then done s s
  else
    let t := s.setFt { s.ft with
      windowAt := s.ft.windowAt + 1000000, windowEdges := s.ft.nextEdges, nextEdges := 0 }
    if s.inTolerance part then
      let t := t.setFt { t.ft with good := t.ft.good + 1, bad := 0 }
      done s (if t.ft.good ≥ 100 && !t.flag F.FT_STATUS_REF_OK then t.qualifyRef else t)
    else
      let t := t.setFt { t.ft with good := 0, bad := t.ft.bad + 1 }
      done s (if t.ft.bad ≥ 2 then t.loseRef else t)

/-- TIME_REF_LOSS (R51): no edge for 1 µs. -/
def execTimeRefLoss (s : State) : Host.Outcome State Fault Refusal :=
  if s.mainUp && s.ft.windows && decide (s.ft.edgeAt + 1000 ≤ s.now) then done s s.loseRef else done s s

/-- REF_SEL_CHANGE (R52): a write of FT_CTL that changes REF_SEL. The other fields of the written word take their
values as for any write of FT_CTL; ARM and DISARM have rows of their own. -/
def execRefSelChange (v : Word) (s : State) : Host.Outcome State Fault Refusal :=
  let sel := natOfBool (bitOf v.toNat 4)
  if !s.mainUp || s.get F.FT_CTL_REF_SEL == sel then done s s
  else
    let t := s.loseRef
    let t := t.set F.FT_CTL_REF_SEL sel
    done s ((t.set F.FT_CTL_PPS_POL (bitsOf v.toNat 5 5)).set F.FT_CTL_PPS_REJ_LIM (bitsOf v.toNat 11 8))

/-! ### PPS -/

/-- The whole second of field time nearest to a count. -/
def nearestSecond (c : Nat) : Nat := (c + second / 2) / second * second

/-- The limit of R49: 0 is treated as 1. -/
def State.rejLimit (s : State) : Nat := max 1 (s.get F.FT_CTL_PPS_REJ_LIM)

/-- One rejected edge (R46, R49): the run grows, and at the limit PPS lock is lost. -/
def State.ppsReject (s : State) : State :=
  let run := min 255 (s.get F.FT_STATUS_PPS_REJ_RUN + 1)
  let s := s.set F.FT_STATUS_PPS_REJ_RUN run
  if s.rejLimit ≤ run && s.flag F.FT_STATUS_PPS_LOCK then
    ((s.set F.FT_STATUS_PPS_LOCK 0).set F.FT_STATUS_PPS_LOST 1).raise 9 0 0
  else s

/-- An accepted edge (R46, R49): the run ends, lock is set, and e is slewed out over the following second. -/
def State.ppsAccept (s : State) (e : Int) : State :=
  let s := ((s.set F.FT_STATUS_PPS_REJ_RUN 0).set F.FT_STATUS_PPS_LOCK 1).clearLive 9
  s.setFt { s.ft with slew := e, slewEnd := nearestSecond s.ft.count + second }

/-- A PPS edge in RUNNING: the phase error is measured and the edge judged (R46). -/
def State.ppsJudge (s : State) : State :=
  if s.get F.FT_STATUS_STATE ≠ Ft.running then s
  else
    let e : Int := (s.ft.count : Int) - (nearestSecond s.ft.count : Int)
    let s := s.set F.FT_PPS_ERR_ERR (ofSigned 32 e)
    let s := s.setFt { s.ft with ppsMark := s.ft.count }
    if -100000 ≤ e ∧ e ≤ 100000 then s.ppsAccept e else s.ppsReject

/-- An armed load at a qualifying edge (R53, R54): it sets the count, which has then reached a µs that the calendar has not
evaluated (R56), or fails as BACKWARD. -/
def State.loadAtEdge (s : State) : State :=
  match s.ft.pending with
  | some p =>
    if !s.flag F.FT_STATUS_REF_OK then s
    else
      let s := s.setFt { s.ft with pending := none }
      if p.value < s.ft.count then s.armFail 3 CC.timeNotMonotonic
      else
        let s := s.setFt { s.ft with count := p.value, frac := 0, slew := 0, interpAt := s.now }
        let s := { s with cal := { s.cal with evaluated := none } }
        let s := ((s.set F.FT_STATUS_STATE Ft.running).set F.FT_STATUS_LOAD_DONE 1).set F.FT_STATUS_PPS_LOCK 1
        s.ftCommandDone CC.ok
  | none => s

/-- PPS_EDGE (R46, R53): an edge of the polarity of PPS_POL. -/
def execPpsEdge (rising : Bool) (s : State) : Host.Outcome State Fault Refusal :=
  if !s.mainUp || rising == s.flag F.FT_CTL_PPS_POL then done s s
  else done s (s.expireLate.loadAtEdge.expireLoad.ppsJudge)

/-- PPS_MISSING_TIMEOUT (R46): each 1.1 s of field time without an edge counts as one rejected edge. -/
def execPpsMissingTimeout (s : State) : Host.Outcome State Fault Refusal :=
  if s.mainUp && s.get F.FT_STATUS_STATE == Ft.running && decide (s.ft.ppsMark + 1100000000 ≤ s.ft.count) then
    done s ((s.setFt { s.ft with ppsMark := s.ft.ppsMark + 1100000000 }).ppsReject)
  else done s s

/-- ARM (R53, R54): FT_CTL.ARM written as 1 by the firmware. An arming that fails as NOT_ALIGNED fails alone: a load
already pending, and its command, go on. -/
def execArm (s : State) : Host.Outcome State Fault Refusal :=
  if !s.mainUp then done s s
  else
    let t := s.expireLoad
    done s (if t.misaligned then t.armFails 2 else t.captureLoad)

/-- DISARM (R52): FT_CTL.DISARM cancels a pending load without an ARM_FAIL. An FT_LOAD command whose load it cancels has
neither taken effect nor failed, and stays in progress until a later load does: DESIGN CHOICE, log entry 170. -/
def execDisarm (s : State) : Host.Outcome State Fault Refusal :=
  if s.mainUp then done s (s.setFt { s.ft with pending := none }) else done s s

/-- ARM_EXPIRY (R54). -/
def execArmExpiry (s : State) : Host.Outcome State Fault Refusal :=
  if s.mainUp then done s s.expireLoad else done s s

/-! ### Reads of FT_NOW -/

/-- The latch a requester holds (R45). -/
def State.ftLatch (s : State) (r : Requester) : Option Nat := (s.ft.latches.find? (fun p => p.1 = r)).map (·.2)

/-- Drops a requester's latch. -/
def State.dropLatch (s : State) (r : Requester) : State :=
  s.setFt { s.ft with latches := s.ft.latches.filter (fun p => p.1 ≠ r) }

/-- A read has returned a value of FT_NOW: no later read returns less (R45). -/
def State.noteRead (s : State) (v : Nat) : State := s.setFt { s.ft with floor := max s.ft.floor v }

/-- FT_NOW_LOW_READ (R45): returns the low half and latches the high half for the requester. -/
def execFtNowLowRead (r : Requester) (s : State) : Host.Outcome State Fault Refusal :=
  if !s.mainUp then done s (s.emit (.regRead r 0))
  else
    let v := s.ftRead
    let t := ((s.noteRead v).dropLatch r).emit (.regRead r (v % 2 ^ 32))
    done s (t.setFt { t.ft with latches := (r, v / 2 ^ 32 % 2 ^ 32) :: t.ft.latches })

/-- FT_NOW_HIGH_READ (R45): returns and drops the requester's latch, or the current high half. -/
def execFtNowHighRead (r : Requester) (s : State) : Host.Outcome State Fault Refusal :=
  if !s.mainUp then done s (s.emit (.regRead r 0))
  else
    match s.ftLatch r with
    | some h => done s ((s.dropLatch r).emit (.regRead r h))
    | none => done s ((s.noteRead s.ftRead).emit (.regRead r (s.ftRead / 2 ^ 32 % 2 ^ 32)))

/-! ### The calendar -/

/-- The counters of the calendar. -/
def C.calFired : Counter := ⟨F.CAL_FIRED_CNT_COUNT, F.CAL_FIRED_CNT_SAT⟩
def C.calLate : Counter := ⟨F.CAL_LATE_CNT_COUNT, F.CAL_LATE_CNT_SAT⟩

/-- Writes an entry, or makes it invalid with nothing in it. -/
def State.setEntry (s : State) (i : Nat) (e : Option CalEntry) : State :=
  { s with cal := { s.cal with spent := s.cal.spent.erase i, entries := match e with
      | some e => s.cal.entries.set i e
      | none => s.cal.entries.erase i } }

/-- An entry turns invalid by firing, and holds what the firing left in it (R57). -/
def State.spendEntry (s : State) (i : Nat) (e : CalEntry) : State :=
  { s with cal := { s.cal with entries := s.cal.entries.erase i, spent := s.cal.spent.set i e } }

/-- MISSED saturates at 0xFFFF (R57). -/
def addMissed (m k : Nat) : Nat := min 0xFFFF (m + k)

/-- A due periodic entry advances past the present and counts the periods it skips, and a dropped firing (R57, R59). -/
def CalEntry.next (e : CalEntry) (us : Nat) (drop : Nat) : CalEntry :=
  let k := (us - e.instant) / e.period + 1
  { e with instant := e.instant + k * e.period, missed := addMissed e.missed (k - 1 + drop), past := false }

/-- A due entry is over: a one-shot entry turns invalid, a periodic one advances (R57). A one-shot entry whose firing is
dropped turns invalid too: DESIGN CHOICE, log entry 171. -/
def State.passEntry (s : State) (i : Nat) (e : CalEntry) (us drop : Nat) : State :=
  if e.period = 0 then s.spendEntry i { e with missed := addMissed e.missed drop, past := false }
  else s.setEntry i (some (e.next us drop))

/-- One due entry fires (R57 to R59): a firing of it still pending at its target drops the new one as MISSED; a firing more
than 1 µs late, or of an entry written with its instant already passed, sets LATE and raises source 10. -/
def State.fireEntry (s : State) (i : Nat) (e : CalEntry) (us : Nat) : State :=
  if s.cal.firings.any (fun f => f.index == i && f.target == e.target) then s.passEntry i e us 1
  else
    let late := e.past || decide (e.instant + 1 < us)
    let f : Firing := ⟨i, e.target, e.action, e.arg, late, s.ft.count⟩
    let s := { s with cal := { s.cal with firings := s.cal.firings ++ [f] } }
    let s := (s.passEntry i { e with late := e.late || late } us 0).bump C.calFired
    if late then (s.bump C.calLate).raise 10 0 0 else s

/-- Inserts by ascending instant, then ascending index (R56). -/
def insertDue (x : Nat × CalEntry) : List (Nat × CalEntry) → List (Nat × CalEntry)
  | [] => [x]
  | y :: ys =>
    if x.2.instant < y.2.instant ∨ (x.2.instant = y.2.instant ∧ x.1 < y.1) then x :: y :: ys
    else y :: insertDue x ys

/-- The due entries in firing order, at most 16 (R56). One whose firing is then dropped takes one of the 16 places: DESIGN
CHOICE, log entry 172. -/
def State.dueEntries (s : State) (us : Nat) : List (Nat × CalEntry) :=
  ((s.cal.entries.filter (fun p => p.2.instant ≤ us)).foldl (fun l x => insertDue x l) []).take 16

/-- The calendar fires: field time runs and no power failure is in force (R60, R61). -/
def State.calendarFires (s : State) : Bool :=
  s.mainUp && s.get F.FT_STATUS_STATE == Ft.running && !s.pwr.failed

/-- The µs that the count has reached awaits its evaluation: it is later than the one last evaluated, or a load has set the
count since (R56). -/
def State.awaitsEvaluation (s : State) : Bool :=
  match s.cal.evaluated with
  | some us => decide (us < s.ft.count / 1000)
  | none => true

/-- CALENDAR_EVALUATION (R56): once per µs of field time reached, while RUNNING and no power failure is in force. -/
def execCalendarEvaluation (s : State) : Host.Outcome State Fault Refusal :=
  if !(s.calendarFires && s.awaitsEvaluation) then done s s
  else
    let us := s.ft.count / 1000
    let t := { s with cal := { s.cal with evaluated := some us } }
    done s ((t.dueEntries us).foldl (fun t p => t.fireEntry p.1 p.2 us) t)

/-- On a µs whose evaluation is still to come, an entry that is due fires before a commit to it takes effect (R62). -/
def State.fireBefore (s : State) (i : Nat) : State :=
  let us := s.ft.count / 1000
  if s.calendarFires && s.awaitsEvaluation then
    match (s.dueEntries us).find? (fun p => p.1 == i) with
    | some p => s.fireEntry p.1 p.2 us
    | none => s
  else s

/-- The staged 32 bytes as the stage registers hold them (R62). -/
def State.stage (s : State) : CalImage :=
  ⟨BitVec.ofNat 64 (s.getN F.CAL_STAGE_ENTRY 0), BitVec.ofNat 64 (s.getN F.CAL_STAGE_ENTRY 1),
   BitVec.ofNat 64 (s.getN F.CAL_STAGE_ENTRY 2), BitVec.ofNat 64 (s.getN F.CAL_STAGE_ENTRY 3)⟩

/-- The entry that a staged image spells; none when VALID is 0. LATE written as 0 clears it, MISSED restarts at 0. -/
def imageEntry (c : CalImage) (old : Option CalEntry) (count : Nat) : Option CalEntry :=
  let w1 := c.w1.toNat
  if !bitOf w1 0 then none
  else some {
    instant := c.w0.toNat, period := bitsOf w1 63 24, target := bitsOf w1 23 16, action := bitsOf w1 15 8,
    arg := bitsOf c.w2.toNat 63 32, late := bitOf w1 1 && ((old.map (·.late)).getD false), missed := 0,
    past := decide (c.w0.toNat * 1000 < count) }

/-- Whether a commit is permitted (R63): no reserved target, and the management core only telemetry entries. -/
def commitAllowed (w : CalWriter) (index target : Nat) : Bool :=
  (1 ≤ target && target ≤ 9) &&
  (match w with
   | .firmware => true
   | .management _ => target == 8 && 992 ≤ index)

/-- What an entry holds, valid or spent. -/
def State.heldEntry (s : State) (i : Nat) : Option CalEntry :=
  match s.cal.entries.get? i with
  | some e => some e
  | none => s.cal.spent.get? i

/-- Commits an image to an entry, whose old content fires first where it is due on this µs, or refuses it (R62, R63);
CAL_CMD.RESULT tells which. -/
def State.commitImage (s : State) (w : CalWriter) (index : Nat) (c : CalImage) : State :=
  if commitAllowed w index (bitsOf c.w1.toNat 23 16) then
    let s := s.fireBefore index
    (s.setEntry index (imageEntry c (s.heldEntry index) s.ft.count)).set F.CAL_CMD_RESULT 0
  else s.set F.CAL_CMD_RESULT 1

/-- COMMIT_ENTRY (R62, R63): CAL_CMD OP 01. -/
def execCommitEntry (w : CalWriter) (index : BitVec 10) (s : State) : Host.Outcome State Fault Refusal :=
  if !s.mainUp then done s s
  else
    match w with
    | .firmware => done s ((s.set F.CAL_CMD_INDEX index.toNat).commitImage w index.toNat s.stage)
    | .management c => done s (s.commitImage w index.toNat c)

/-- CLEAR_ENTRY (R62): CAL_CMD OP 10. -/
def execClearEntry (index : BitVec 10) (s : State) : Host.Outcome State Fault Refusal :=
  if !s.mainUp then done s s
  else done s (((s.set F.CAL_CMD_INDEX index.toNat).setEntry index.toNat none).set F.CAL_CMD_RESULT 0)

/-- The 32-byte image of an entry as it reads back (R62). -/
def CalEntry.image (e : CalEntry) (valid : Bool) : CalImage :=
  ⟨BitVec.ofNat 64 e.instant,
   BitVec.ofNat 64 (e.period * 2 ^ 24 + e.target * 2 ^ 16 + e.action * 2 ^ 8 + natOfBool e.late * 2 + natOfBool valid),
   BitVec.ofNat 64 (e.arg * 2 ^ 32 + e.missed * 2 ^ 16), 0⟩

/-- The image of an entry: one that fired once for all reads with VALID 0, any other invalid entry as zero. -/
def State.entryImage (s : State) (i : Nat) : CalImage :=
  match s.heldEntry i with
  | some e => e.image (s.cal.entries.has i)
  | none => ⟨0, 0, 0, 0⟩

/-- READ_ENTRY (R62): CAL_CMD OP 11. -/
def execReadEntry (index : BitVec 10) (s : State) : Host.Outcome State Fault Refusal :=
  if !s.mainUp then done s s
  else
    let c := s.entryImage index.toNat
    let t := (s.set F.CAL_CMD_INDEX index.toNat).set F.CAL_CMD_RESULT 0
    done s ((((t.setN F.CAL_STAGE_ENTRY 0 c.w0.toNat).setN F.CAL_STAGE_ENTRY 1 c.w1.toNat).setN
      F.CAL_STAGE_ENTRY 2 c.w2.toNat).setN F.CAL_STAGE_ENTRY 3 c.w3.toNat)

/-- The state without a firing: its target has taken it (R59). -/
def State.dropFiring (s : State) (f : Firing) : State :=
  { s with cal := { s.cal with firings := s.cal.firings.filter (fun g => g != f) } }

/-- The first firing pending at a target, and the state without it (R59). -/
def State.takeFiring (s : State) (target : Nat) : Option (Firing × State) :=
  match s.cal.firings.find? (fun f => f.target == target) with
  | some f => some (f, s.dropFiring f)
  | none => none

/-- The firing that a background activity takes: none while field time is not running, and none from a power-fail detection
until the restore has reached lazily-ready (R33, R34). -/
def State.takeSlot (s : State) (target : Nat) : Option (Firing × State) :=
  if s.get F.FT_STATUS_STATE = Ft.running && s.backgroundRuns then s.takeFiring target else none

/-- FIRMWARE_INTERRUPT (R61): a firing of target 0x09 interrupts the Clatos firmware with its argument. -/
def execFirmwareInterrupt (s : State) : Host.Outcome State Fault Refusal :=
  match s.takeFiring 9 with
  | some (f, t) => done s (t.emit (.fwInterrupt f.arg))
  | none => done s s

end Sys2Proof.Machine
end

