-- ==== Sys2Proof/Machine/ColumnWrite.lean ====
section
/-!
DEFINITION. The column blocks that the block itself writes (R130, R236): the candidates of an encoding, the choice
among them, and the bytes of the block.
-/

namespace Sys2Proof.Machine

/-- An encoded column: ENCODING, PARAM0, PARAM1, the data section before padding, the dictionary section before padding,
and whether its entries strictly ascend. -/
structure Encoded where
  enc : Nat
  p0 : Nat
  p1 : Nat
  data : List Byte
  dict : List Byte
  sorted : Bool

/-- The least width that holds a number. -/
def bitWidth (n : Nat) : Nat := if n = 0 then 0 else n.log2 + 1

/-- Packs values of W bits (R121). -/
def packStream (w : Nat) (vs : List Nat) : List Byte :=
  let n := vs.foldr (fun v acc => v + acc * 2 ^ w) 0
  leBytes (ceilDiv (vs.length * w) 8) n

/-- Pads bytes with zeros to a multiple of 8 (R117). -/
def padBytes8 (b : List Byte) : List Byte := b ++ List.replicate (pad8 b.length - b.length) 0#8

/-- The stream's entries (R236): a null row takes the value of the row before it. -/
def fillForward : Value → List Value → List Value
  | _, [] => []
  | last, v :: vs => let x := if v.isNull then last else v
                     x :: fillForward x vs

/-- The value that leading nulls take: the first that is not null, or 0, or the empty string (R236). -/
def leadValue (t : Nat) (vs : List Value) : Value :=
  match vs.find? (fun v => !v.isNull) with
  | some v => v
  | none => if t = 0x0F then .str 0 [] else .num 0

/-- PLAIN. -/
def encPlain (t : Nat) (ps : List Nat) : Encoded :=
  { enc := 0, p0 := 0, p1 := 0, data := ps.flatMap (leBytes (tyWidth t)), dict := [], sorted := false }

/-- BITPACK in the least width, where 64 bits hold every value. -/
def encBitpack (t : Nat) (ps : List Nat) : Option Encoded :=
  let fits := fun (w : Nat) => ps.all (fun p =>
    if tySigned t then tyPattern t (toSigned w (ofSigned w (tyNumber t p))) == p else decide (p < 2 ^ w))
  match ((List.range (min 64 (8 * tyWidth t))).map (· + 1)).find? fits with
  | some w =>
    if t = 0x0D && w != 1 then none
    else some { enc := 1, p0 := w, p1 := 0, data := packStream w (ps.map (· % 2 ^ w)), dict := [], sorted := false }
  | none => none

/-- FOR with the reference at MIN. -/
def encFor (t : Nat) (ps : List Nat) : Option Encoded :=
  let vs := ps.map (tyNumber t)
  let lo := vs.foldl min (vs.headD 0)
  let hi := vs.foldl max (vs.headD 0)
  let w := bitWidth (hi - lo).toNat
  if 64 < w || (tySigned t && !inS64 lo) then none
  else some { enc := 2, p0 := w, p1 := ofSigned 64 lo, data := packStream w (vs.map (fun v => (v - lo).toNat)),
              dict := [], sorted := false }

/-- Zigzag coding (R124). -/
def zigzag (d : Int) : Nat := if 0 ≤ d then 2 * d.toNat else 2 * (-d).toNat - 1

/-- The differences of a list of numbers. -/
def differences (l : List Int) : List Int := (l.zip l.tail).map (fun p => p.2 - p.1)

/-- DELTA of an order; none where a difference leaves the signed 64-bit range or W would exceed 64. -/
def encDelta (t order : Nat) (ps : List Nat) : Option Encoded :=
  let vs := ps.map (tyNumber t)
  let d1 := differences vs
  let d2 := differences d1
  let packed := (if order = 1 then d1 else d2).map zigzag
  let w := packed.foldl (fun m p => max m (bitWidth p)) 0
  let head := if order = 2 then (match d1 with
    | d :: _ => leBytes 8 (ofSigned 64 d)
    | [] => []) else []
  if 64 < w || !(d1.all inS64) || !(d2.all inS64 || order == 1) then none
  else some { enc := 3, p0 := w + order * 256, p1 := ofSigned 64 (vs.headD 0), data := head ++ packStream w packed,
              dict := [], sorted := false }

/-- Runs of equal neighbours: value and length. -/
def runsOf {α : Type} [DecidableEq α] : List α → List (α × Nat)
  | [] => []
  | v :: vs =>
    match runsOf vs with
    | (x, n) :: rest => if x = v then (x, n + 1) :: rest else (v, 1) :: (x, n) :: rest
    | [] => [(v, 1)]

/-- RLE. -/
def encRle (t : Nat) (ps : List Nat) : Encoded :=
  let rs := runsOf ps
  { enc := 4, p0 := rs.length, p1 := 0,
    data := padBytes8 (rs.flatMap (fun r => leBytes 2 r.2)) ++ rs.flatMap (fun r => leBytes (tyWidth t) r.1),
    dict := [], sorted := false }

/-- Inserts a value into a list of distinct values in ascending order; equal under the order but of another pattern
stands after. -/
def insertEntry (t : Nat) (v : Value) : List Value → List Value
  | [] => [v]
  | x :: xs => if compareVal t v x = .lt then v :: x :: xs else x :: insertEntry t v xs

/-- Whether two values are the same entry of a dictionary. -/
def sameEntry (t : Nat) (a b : Value) : Bool := if t = 0x0F then a.text == b.text else a.pat == b.pat

/-- The distinct values in ascending order. -/
def dictEntries (t : Nat) (vs : List Value) : List Value :=
  vs.foldl (fun d v => if d.any (sameEntry t v) then d else insertEntry t v d) []

/-- The dictionary section of strings: offsets and bytes (R126). -/
def stringSection (d : List Value) : List Byte :=
  let offs := d.foldl (fun (a : List Nat) v => a ++ [a.getLastD 0 + v.text.length]) [0]
  padBytes8 (offs.flatMap (leBytes 4)) ++ d.flatMap Value.text

/-- DICT with the smaller of the two layouts (R236). -/
def encDict (t : Nat) (vs : List Value) : Encoded :=
  let d := dictEntries t vs
  let codes := vs.map (fun v => d.findIdx (sameEntry t v))
  let w := max 1 (bitWidth (d.length - 1))
  let rs := runsOf codes
  let flat := packStream w codes
  let run := padBytes8 (rs.flatMap (fun r => leBytes 2 r.2)) ++ rs.flatMap (fun r => leBytes 2 r.1)
  let runs := decide (pad8 run.length < pad8 flat.length)
  { enc := 5, p0 := w + (if runs then 256 + rs.length * 2 ^ 16 else 0), p1 := d.length,
    data := if runs then run else flat,
    dict := if t = 0x0F then stringSection d else d.flatMap (fun v => leBytes (tyWidth t) v.pat),
    sorted := strictlyAscending t d }

/-- The candidates of R236 in order. -/
def candidates (t : Nat) (ps : List Nat) : List Encoded :=
  let ok := fun (e : Nat) (o : Option Encoded) => if encPermitted t e then o.toList else []
  [encPlain t ps] ++ ok 2 (encFor t ps) ++ ok 3 (encDelta t (if t = 0x0E then 2 else 1) ps) ++ [encRle t ps] ++
  (if t = 0x0D then (encBitpack t ps).toList else [])

/-- The first candidate of the smallest data section. -/
def smallest : Encoded → List Encoded → Encoded
  | e, [] => e
  | e, x :: xs => smallest (if pad8 x.data.length < pad8 e.data.length then x else e) xs

/-- The encoding of a column (R236): the one listed with FIXED_ENC, PLAIN where that cannot represent it, else the
choice among the candidates; strings are always DICT. -/
def encodeColumn (t : Nat) (vs : List Value) (fixed : Option Nat) : Encoded :=
  let full := fillForward (leadValue t vs) vs
  let ps := full.map Value.pat
  let plain := encPlain t ps
  if t = 0x0F then encDict t full
  else
    match fixed with
    | none => smallest plain (candidates t ps).tail
    | some 1 => (encBitpack t ps).getD plain
    | some 2 => (encFor t ps).getD plain
    | some 3 => (encDelta t (if t = 0x0E then 2 else 1) ps).getD plain
    | some 4 => encRle t ps
    | some 5 => encDict t full
    | some _ => plain

/-- The validity bitmap of a column (R120), its length rounded up to whole bytes. -/
def validityBytes (vs : List Value) : List Byte := packStream 1 (vs.map (fun v => natOfBool (!v.isNull)))

/-- The bytes of a block (R115, R117, R236). -/
def writeBlock (t scale : Nat) (vs : List Value) (firstRow : Nat) (fixed : Option Nat) : List Byte :=
  let e := encodeColumn t vs fixed
  let nulls := (vs.filter Value.isNull).length
  let ext := extremes t vs
  let mm := t != 0x0F && !ext.isEmpty
  let bitmap := if nulls = 0 then [] else padBytes8 (validityBytes vs)
  let data := padBytes8 e.data
  let dict := padBytes8 e.dict
  let flags := natOfBool (nulls != 0) + 2 * natOfBool mm + 4 * natOfBool (sortFail t 0 none vs).isNone +
    8 * natOfBool e.sorted + 16
  let dataOff := 96 + bitmap.length
  let pre := leBytes 4 0x42435053 ++ leBytes 1 1 ++ leBytes 1 t ++ leBytes 1 e.enc ++ leBytes 1 scale ++
    leBytes 2 flags ++ leBytes 2 vs.length ++ leBytes 2 nulls ++ leBytes 2 0 ++
    leBytes 4 (dataOff + data.length + dict.length) ++ leBytes 4 dataOff ++
    leBytes 4 (if e.enc = 5 then dataOff + data.length else 0)
  let post := leBytes 8 firstRow ++ leBytes 8 e.p0 ++ leBytes 8 e.p1 ++
    leBytes 16 (if mm then extend128 t (leastOf t ext) else 0) ++
    leBytes 16 (if mm then extend128 t (greatestOf t ext) else 0) ++ leBytes 8 0 ++ bitmap ++ data ++ dict
  pre ++ leBytes 4 (crc32c (pre ++ leBytes 4 0 ++ post)) ++ post

end Sys2Proof.Machine
end

