-- ==== Sys2Proof/Machine/DramOps.lean ====
section
/-!
DEFINITION. Operations on the DRAM that several blocks share: the address map (R304 to R306), acceptance of reads and
writes (R309), errors and retirement (R313, R314, R333), a failed channel (R327).
-/

namespace Sys2Proof.Machine

/-- The rank byte of a physical rank (DMC[n].RANKCFG). -/
def State.rankByte (s : State) (ch rank : Nat) : Nat :=
  match rank with
  | 0 => s.getN F.DMC_RANKCFG_RANK0 ch
  | 1 => s.getN F.DMC_RANKCFG_RANK1 ch
  | 2 => s.getN F.DMC_RANKCFG_RANK2 ch
  | _ => s.getN F.DMC_RANKCFG_RANK3 ch

/-- Writes the rank byte of a physical rank. -/
def State.setRankByte (s : State) (ch rank v : Nat) : State :=
  match rank with
  | 0 => s.setN F.DMC_RANKCFG_RANK0 ch v
  | 1 => s.setN F.DMC_RANKCFG_RANK1 ch v
  | 2 => s.setN F.DMC_RANKCFG_RANK2 ch v
  | _ => s.setN F.DMC_RANKCFG_RANK3 ch v

/-- The states of a rank byte. -/
def Rank.active : Nat := 0
def Rank.spare : Nat := 1
def Rank.migratingOut : Nat := 2
def Rank.migratingIn : Nat := 3
def Rank.retired : Nat := 4
def Rank.failed : Nat := 5

/-- PRESENT, STATE and LOGICAL of a rank byte. -/
def rankPresent (b : Nat) : Bool := bitOf b 7
def rankState (b : Nat) : Nat := bitsOf b 6 4
def rankLogical (b : Nat) : Nat := bitsOf b 3 2
def mkRank (state logical : Nat) : Nat := 0x80 + state * 16 + logical * 4

/-- DMC[n].CHCFG.STATE codes. -/
def Ch.disabled : Nat := 0
def Ch.active : Nat := 1
def Ch.failed : Nat := 2

/-- RANK_LOG: 35 for 16 Gb devices, 36 for 32 Gb (R306). -/
def State.rankLog (s : State) (ch : Nat) : Nat := 35 + s.getN F.DMC_CHCFG_DENSITY ch

/-- A channel's active capacity in bytes (R301, R332): the spare is never part of it. -/
def State.activeCapacity (s : State) (ch : Nat) : Nat := s.getN F.DMC_CHCFG_ACTIVE_RANKS ch * 2 ^ s.rankLog ch

/-- Whether a rank may take commands: present, in service, its channel ACTIVE. -/
def State.rankInService (s : State) (ch rank : Nat) : Bool :=
  let b := s.rankByte ch rank
  s.getN F.DMC_CHCFG_STATE ch == Ch.active && rankPresent b && rankState b < Rank.retired

/-- Whether the controller of a channel is powered and out of reset (R23, R469). -/
def State.channelUp (s : State) (ch : Nat) : Bool := s.groupUp (if ch < 4 then .g else .m)

/-- The physical rank that holds a logical rank: ACTIVE or MIGRATING_OUT with that number (R306). -/
def State.physicalRank (s : State) (ch lrank : Nat) : Option Nat :=
  (List.range 4).find? (fun p =>
    let b := s.rankByte ch p
    rankPresent b && (rankState b == Rank.active || rankState b == Rank.migratingOut) && rankLogical b == lrank)

/-- The fields of an interleave set in bytes and numbers (R305). -/
structure IvSet where
  valid : Bool
  base : Nat
  size : Nat
  ways : Nat
  grainLog : Nat
  chBase : Nat
  chList : List Nat
  state : Nat
  vol : Bool

/-- Interleave set `k` as its registers hold it. -/
def State.ivs (s : State) (k : Nat) : IvSet :=
  { valid := s.getN F.IVS_CFG_VALID k == 1, base := s.getN F.IVS_BASE_GIB k * 2 ^ 30,
    size := s.getN F.IVS_SIZE_GIB k * 2 ^ 30, ways := s.getN F.IVS_CFG_WAYS k,
    grainLog := s.getN F.IVS_CFG_GRAIN_LOG k, chBase := s.getN F.IVS_CFG_CH_BASE k * 2 ^ 30,
    chList := (List.range 8).map (fun w => s.getN F.IVS_CFG_CHLIST k / 2 ^ (4 * w) % 16),
    state := s.getN F.IVS_CFG_STATE k, vol := s.getN F.IVS_CFG_VOL k == 1 }

/-- The valid set that covers a DPA (R305). -/
def State.ivsOf (s : State) (dpa : Nat) : Option Nat :=
  (List.range 8).find? (fun k => let i := s.ivs k; i.valid && decide (i.base ≤ dpa) && decide (dpa < i.base + i.size))

/-- A DPA decoded (R306): channel, channel address, physical rank, row, bank group, bank, burst, subchannel. -/
structure DramAddr where
  ch : Nat
  ca : Nat
  rank : Nat
  row : Nat
  bg : Nat
  bank : Nat
  col : Nat
  sub : Nat

/-- The channel address of an offset in a set, and its channel (R306). -/
def IvSet.channel (i : IvSet) (dpa : Nat) : Nat × Nat :=
  let o := dpa - i.base
  let chunk := o / 2 ^ i.grainLog
  (i.chList.getD (chunk % i.ways) 0,
   i.chBase + chunk / i.ways * 2 ^ i.grainLog + o % 2 ^ i.grainLog)

/-- Row, bank group, bank, burst and subchannel of a rank address (R306). -/
def decodeRank (ch ca rank ra : Nat) : DramAddr :=
  let row := ra / 2 ^ 19
  { ch := ch, ca := ca, rank := rank, row := row,
    bg := (ra / 2 ^ 10 % 8) ^^^ (row % 8), bank := (ra / 2 ^ 13 % 4) ^^^ (row / 8 % 4),
    col := ra / 2 ^ 15 % 16 * 8 + ra / 2 ^ 7 % 8, sub := ra / 2 ^ 6 % 2 }

/-- The rank that serves an address while a migration runs (R334): the spare below UNIT, the retiring rank from it. -/
def State.servingRank (s : State) (ch rank ra : Nat) : Nat :=
  if s.getN F.DMC_MIGRATE_ACTIVE ch = 1 && s.getN F.DMC_MIGRATE_FROM ch == rank &&
      decide (ra / 4096 < s.getN F.DMC_MIGRATE_UNIT ch) then s.getN F.DMC_MIGRATE_TO ch else rank

/-- Decodes a DPA of a valid set; none when it is unmapped (R306). -/
def State.decodeDpa (s : State) (dpa : Nat) : Option DramAddr :=
  match s.ivsOf dpa with
  | some k =>
    let r := (s.ivs k).channel dpa
    let ra := r.2 % 2 ^ s.rankLog r.1
    let p := (s.physicalRank r.1 (r.2 / 2 ^ s.rankLog r.1)).getD 0
    some (decodeRank r.1 r.2 (s.servingRank r.1 p ra) ra)
  | none => none

/-- The DPA of a channel address, through the set that covers it. -/
def State.dpaOfChannel (s : State) (ch ca : Nat) : Option Nat :=
  (List.range 8).findSome? (fun k =>
    let i := s.ivs k
    match (List.range i.ways).find? (fun w => i.chList.getD w 16 == ch) with
    | some w =>
      let rel := ca - i.chBase
      if i.valid && decide (i.chBase ≤ ca) && decide (rel < i.size / i.ways) then
        some (i.base + (rel / 2 ^ i.grainLog * i.ways + w) * 2 ^ i.grainLog + rel % 2 ^ i.grainLog)
      else none
    | none => none)

/-- Whether accesses to a DPA reach DRAM: mapped, its set not OFFLINE, its channel not FAILED (R305, R327). The
Granary logic's own accesses to surviving channels disregard the set's state (R369). -/
def State.dpaServes (s : State) (dpa : Nat) (granaryLogic : Bool) : Bool :=
  match s.ivsOf dpa with
  | some k => (granaryLogic || (s.ivs k).state != 3) &&
      s.getN F.DMC_CHCFG_STATE ((s.ivs k).channel dpa).1 != Ch.failed
  | none => false

/-- A read of a line as its requester gets it: poison where the line is poisoned or nothing serves it (R315). -/
def State.dramRead (s : State) (dpa : Nat) (granaryLogic : Bool) : Line × Bool :=
  if s.dpaServes dpa granaryLogic then s.readLine dpa else (0, true)

/-- The bank of an address. -/
def DramAddr.bankId (a : DramAddr) : BankId :=
  ⟨Fin.ofNat 12 a.ch, a.sub == 1, BitVec.ofNat 2 a.rank, BitVec.ofNat 3 a.bg, BitVec.ofNat 2 a.bank⟩

/-- Puts a request into its bank's queue (R308) and wakes the rank (R329). -/
def State.queueDram (s : State) (dpa : Nat) (cls : DramClass) (kind : DramKind) (hint : Nat) : State :=
  match s.decodeDpa dpa with
  | some a =>
    let r : DramReq := {
      bank := a.bankId, row := a.row, col := a.col, dpa := dpa, cls := cls, kind := kind, at_ := s.now,
      promoted := false, hint := hint }
    let s := { s with dram := { s.dram with queue := s.dram.queue ++ [r] } }
    let s := s.setN F.DMC_STATUS_PD a.ch (putBits (s.getN F.DMC_STATUS_PD a.ch) a.rank 1 0)
    s.setN F.DMC_STATUS_SR a.ch (putBits (s.getN F.DMC_STATUS_SR a.ch) a.rank 1 0)
  | none => s

/-- Puts requests for several lines into their banks' queues. -/
def State.queueLines (s : State) (dpas : List Nat) (cls : DramClass) (kind : DramKind) (hint : Nat) : State :=
  dpas.foldl (fun s a => s.queueDram a cls kind hint) s

/-- The lines of a device address range. -/
def linesAt (dpa len : Nat) : List Nat := (List.range ((dpa % 64 + len + 63) / 64)).map (fun i => dpa / 64 * 64 + 64 * i)

/-- A full-line write: performed when it is accepted (R309), then served by its bank; discarded where nothing
serves the address (R327). -/
def State.dramWrite (s : State) (dpa : Nat) (data : Line) (poison : Bool) (cls : DramClass) (hint : Nat)
    (granaryLogic : Bool) : State :=
  if s.dpaServes dpa granaryLogic then (s.writeLine dpa data poison).queueDram dpa cls .write hint else s

/-- A masked write is not applied: RMW_LOST_CNT of the line's channel advances (R316). -/
def State.rmwLost (s : State) (dpa : Nat) : State :=
  match s.decodeDpa dpa with
  | some a => s.bumpN ⟨F.DMC_RMW_LOST_CNT_COUNT, F.DMC_RMW_LOST_CNT_SAT⟩ a.ch
  | none => s

/-- Writes bytes within one line in the ENGINE class, read-modify-write (R316): a poisoned line stays poisoned and the bytes are
lost. -/
def State.dramWriteMasked (s : State) (dpa off : Nat) (bytes : List Byte) : State :=
  if !s.dpaServes dpa false then s
  else if s.dram.poison.contains dpa then s.rmwLost dpa
  else
    ({ s with dram := { s.dram with cells := Memory.writeBytes s.dram.cells (dpa + off) bytes } } : State).queueDram dpa .engine .masked 0

/-! ### Spill records (R260, R263) -/

/-- The device physical address of a spill record. -/
def State.recordAddr (s : State) (n : Nat) : Nat := s.get F.SCH_SPILL_BASE_BASE * 2 ^ 21 + 128 * n

/-- What reading a spill record back finds (R263): 0 nothing wrong, 1 poison, 2 CRC. -/
def State.checkRecord (s : State) (n : Nat) : Nat :=
  let a := s.dramRead (s.recordAddr n) false
  let b := s.dramRead (s.recordAddr n + 64) false
  let x := bytesOfLine a.1
  if a.2 || b.2 then 1
  else if crc32c (x.take 60 ++ leBytes 4 0 ++ bytesOfLine b.1) != leField x 60 4 then 2
  else 0

/-- The reads by which a spill record comes back, in the ENGINE class (R260). -/
def State.queueRecord (s : State) (n : Nat) : State :=
  s.queueLines [s.recordAddr n, s.recordAddr n + 64] .engine (.read none) 0

/-! ### Errors -/

/-- Captures ERRLOG and ERRADDR (R313, R314): type, device, patrol. -/
def State.captureErr (s : State) (a : DramAddr) (dpa type device : Nat) (patrol : Bool) : State :=
  [(F.DMC_ERRLOG_TYPE, type), (F.DMC_ERRLOG_RANK, a.rank), (F.DMC_ERRLOG_SUBCH, a.sub), (F.DMC_ERRLOG_DEVICE, device),
   (F.DMC_ERRLOG_BG, a.bg), (F.DMC_ERRLOG_BANK, a.bank), (F.DMC_ERRLOG_ROW, a.row), (F.DMC_ERRLOG_COL, a.col),
   (F.DMC_ERRLOG_PATROL, natOfBool patrol), (F.DMC_ERRADDR_DPA, dpa)].foldl
    (fun s p => s.setN p.1 a.ch p.2) s

/-- A corrected read (R313). -/
def State.correctedRead (s : State) (a : DramAddr) (dpa device : Nat) (patrol : Bool) : State :=
  let s := s.bumpN ⟨F.DMC_CE_CNT_COUNT, F.DMC_CE_CNT_SAT⟩ a.ch
  (s.captureErr a dpa 1 device patrol).raise 64 a.ch dpa

/-- Starts a migration from a rank to the channel's unused spare (R333, R334). -/
def State.startMigration (s : State) (ch rank spare : Nat) : State :=
  let b := s.rankByte ch rank
  let s := s.setRankByte ch rank (mkRank Rank.migratingOut (rankLogical b))
  let s := s.setRankByte ch spare (mkRank Rank.migratingIn 0)
  [(F.DMC_MIGRATE_ACTIVE, 1), (F.DMC_MIGRATE_PAUSED, 0), (F.DMC_MIGRATE_FROM, rank), (F.DMC_MIGRATE_TO, spare),
   (F.DMC_MIGRATE_UNIT, 0), (F.DMC_STATUS_MIGRATING, 1)].foldl (fun s p => s.setN p.1 ch p.2) s

/-- A rank is marked for retirement (R333): migration to an unused spare, or the retirement-refused source. -/
def State.markRetire (s : State) (ch rank : Nat) : State :=
  let b := s.rankByte ch rank
  if !rankPresent b || rankState b != Rank.active then s
  else
    match (List.range 4).find? (fun p => rankPresent (s.rankByte ch p) && rankState (s.rankByte ch p) == Rank.spare) with
    | some p => if s.getN F.DMC_MIGRATE_ACTIVE ch = 1 then s.raise 68 ch (s.getN F.DMC_ERRADDR_DPA ch)
                else s.startMigration ch rank p
    | none => s.raise 68 ch (s.getN F.DMC_ERRADDR_DPA ch)

/-- An uncorrectable read (R314): the line is written back poisoned, counted, captured, and the rank marked. -/
def State.uncorrectableRead (s : State) (a : DramAddr) (dpa : Nat) (patrol : Bool) : State :=
  let s := s.poisonLine dpa
  let s := s.bumpN ⟨F.DMC_UE_CNT_COUNT, F.DMC_UE_CNT_SAT⟩ a.ch
  let s := (s.captureErr a dpa 2 0x1F patrol).raise 65 a.ch dpa
  s.markRetire a.ch a.rank

/-- A task that has read a line which proves uncorrectable is told so (R314, R315). -/
def State.spoil (s : State) (id dpa : Nat) : State :=
  { s with eng := { s.eng with tasks := s.eng.tasks.map (fun t =>
    if t.id = id then { t with spoilt := some (if grnBase ≤ dpa then 3 else 2) } else t) } }

/-- A Granary channel that fails in LAZY or READY begins a service dump with cause CHANNEL (R369, R377). -/
def State.granaryChannelFailed (s : State) : State :=
  if s.grnServes then
    let s := s.beginDump 3 false
    { s with grn := { s.grn with channelDump := true } }
  else s

/-- A channel becomes FAILED (R327, R328): its ranks leave service, queued reads answer poison, queued writes are
discarded, its sets become DEGRADED or OFFLINE, a migration ends, source 69 is raised and the Granary is told. -/
def State.failChannel (s : State) (ch : Nat) : State :=
  let s := (s.setN F.DMC_CHCFG_STATE ch Ch.failed).setN F.DMC_CHCFG_ACTIVE_RANKS ch 0
  let s := (List.range 4).foldl (fun s p =>
    let b := s.rankByte ch p
    if rankPresent b && rankState b != Rank.retired then s.setRankByte ch p (mkRank Rank.failed (rankLogical b)) else s) s
  let mine := s.dram.queue.filter (fun r => r.bank.ch.val == ch)
  let s := { s with dram := { s.dram with
    queue := s.dram.queue.filter (fun r => r.bank.ch.val != ch), retraining := s.dram.retraining.erase ch } }
  let s := mine.foldl (fun s r => match r.kind with
    | .cxlRead tag => s.toLink (.cxlData tag 0 true)
    | .read (some id) => s.spoil id r.dpa
    | _ => s) s
  let s := [F.DMC_MIGRATE_ACTIVE, F.DMC_MIGRATE_PAUSED, F.DMC_STATUS_MIGRATING, F.DMC_STATUS_RETRAINING].foldl
    (fun s f => s.setN f ch 0) s
  let s := (List.range 8).foldl (fun s k =>
    let i := s.ivs k
    match (List.range i.ways).find? (fun w => i.chList.getD w 16 == ch) with
    | some w =>
      if i.valid then
        (s.setN F.IVS_CFG_STATE k (if s.getN F.IVS_CFG_DEGRADED_OK k = 1 then 2 else 3)).setN F.IVS_CFG_FAILED k
          (putBits (s.getN F.IVS_CFG_FAILED k) w 1 1)
      else s
    | none => s) s
  let s := s.raise 69 ch (s.getN F.DMC_ERRADDR_DPA ch)
  if ch < 4 then s.granaryChannelFailed else s

end Sys2Proof.Machine
end

