-- ==== Sys2Proof/Machine/Resets.lean ====
section
/-!
DEFINITION. What a reset clears (R468, R469, R471): register fields by group and retention class, the state without
registers of each group, and the option area's values in the fields that return to reset.
-/

namespace Sys2Proof.Machine

/-- How deep a reset goes in a group it reaches (R469): class N; N and F; N, F and W; or everything. -/
inductive Depth where
  | n
  | nf
  | nfw
  | all
  deriving DecidableEq, Repr

/-- Whether a depth clears a retention class. -/
def Depth.clears : Depth → Retain → Bool
  | .n, .n => true
  | .nf, .n => true
  | .nf, .f => true
  | .nfw, .a => false
  | .nfw, _ => true
  | .all, _ => true
  | _, _ => false

/-- The field and instance of a key. -/
def fieldOfKey (k : Nat) : Option Field := allFields[k / 8192]?

/-- Clears the fields of the groups and classes that `reach` gives. -/
def State.resetRegs (s : State) (reach : Group → Option Depth) : State :=
  { s with regs := s.regs.filter (fun p =>
      match fieldOfKey p.1 with
      | some f =>
        match reach (f.group (p.1 % 8192)) with
        | some d => !d.clears f.retain
        | none => true
      | none => true) }

/-! ### The option area (R411, R412) -/

/-- A byte of the option record in force; zero without one. -/
def State.optionByte (s : State) (k : Nat) : Nat := ((s.flash.option[k]?).getD 0).toNat

/-- A little-endian field of the option record in force. -/
def State.optionField (s : State) (off n : Nat) : Nat := leField s.flash.option off n

/-- Whether the SET bit of the field beginning at byte `k` is set (R411). -/
def State.optionSet (s : State) (k : Nat) : Bool := bitOf (s.optionByte (0x30 + (k - 0x40) / 8)) ((k - 0x40) % 8)

/-- The value that an OPT field takes from the record in force: what is written where its SET bit is set. -/
def State.optionValue (s : State) (f : Field) (n : Nat) : Option Nat :=
  match f.opt n with
  | some (k, b) => if s.optionSet k then some (s.optionField k 8 / 2 ^ b % 2 ^ f.width) else none
  | none => none

/-- The OPT fields that have a SET bit: the reaction masks, from byte 0x100 on, have none (R411). -/
def optionalFields : List Field := allFields.filter (fun f => (f.opt 0).any (fun p => decide (p.1 < 0x100)))

/-- Applies the option area to every OPT field of the groups that a reset returned to reset value (R18, R412): what the record in
force does not set stands at its default, whatever an earlier record gave. -/
def State.applyOptions (s : State) (reach : Group → Option Depth) : State :=
  optionalFields.foldl (fun s f =>
    (List.range f.count).foldl (fun s n =>
      match reach (f.group n) with
      | some d => if d.clears f.retain then s.setN f n ((s.optionValue f n).getD (f.reset n)) else s
      | none => s) s) s

/-- A mask value that check 4 of R440 rejects: RSVD bits in a value other than 0xFFFF, or BLK_RST without a block
reset. -/
def maskInvalid (n m : Nat) : Bool :=
  m != 0xFFFF && (decide (m ≥ 0x80) || (bitOf m 3 && !sourceHasBlockReset n))

/-- The reaction masks of the option area, one per source; 0xFFFF, or an invalid one, keeps the default (R411, R439,
R440). -/
def State.applyMasks (s : State) : State :=
  if s.flash.option.isEmpty then s
  else
    (List.range 256).foldl (fun s n =>
      let m := s.optionField (0x100 + 2 * n) 2
      if m = 0xFFFF || maskInvalid n m || (sourceInfo n).isNone then s else s.setN F.FLT_SRC_CFG_MASK n ((m ||| sourceForced n) % 128)) s

/-! ### State without registers, by group -/

/-- Writes the engine's own state and the live fields of DGE_STATUS that follow it. -/
def State.setDigest (s : State) (d : Digest) : State :=
  let busy := (List.range 8).foldl (fun a c => if d.contexts.has c then a + 2 ^ c else a) 0
  (({ s with dge := d }).set F.DGE_STATUS_CTX_BUSY busy).set F.DGE_STATUS_WAITING (min 0xFFFF d.waiting.length)

/-- The digest engine at a reset of its class W (R424): contexts and key slots are emptied. -/
def State.resetDigest (s : State) : State :=
  s.setDigest { contexts := [], waiting := [], slots := [], last := 5, lastGranary := 7, katFailed := s.dge.katFailed }

/-- Who waits at the Granary on behalf of a function block. -/
def Waiter.ofFunction : Waiter → Bool
  | .cxl => false
  | _ => true

/-- The firmware's readiness bits of the function blocks (R466). -/
def State.functionNotReady (s : State) : State := s.setAll [(F.RDY_STATUS_ENGINE, 0), (F.RDY_STATUS_PAIRS, 0)]

/-- The firmware's readiness bits clear at a reset that restarts it (R466). -/
def State.firmwareStops (s : State) : State :=
  s.setAll [(F.RDY_STATUS_FW, 0), (F.RDY_STATUS_DRAM, 0), (F.RDY_STATUS_ENGINE, 0), (F.RDY_STATUS_PAIRS, 0),
    (F.RDY_STATUS_CAL, 0), (F.RDY_STATUS_RECOVERY, 0)]

/-- Function blocks: pairs, accepted commands, the admin mailbox, plans, tasks and the translation unit (R113, R179, R471).
Their messages in contexts 0 to 5 are abandoned (R432), and so are their places at the Granary. The function is in D0. -/
def State.resetFunction (s : State) : State :=
  let s := s.setDigest { s.dge with contexts := s.dge.contexts.filter (fun p => decide (6 ≤ p.1)), waiting := [] }
  let s := ((s.clearLive 42).clearLive 50).set F.TLU_STATUS_PRI_STOPPED 0
  let gone := (s.grn.granted.filter Waiter.ofFunction).length
  { s with
    mbx := { s.mbx with pairs := [], accepted := [], admSeq := 0, lastPair := 63 },
    eng := { Engine.blank with mainAt := s.eng.mainAt },
    pwr := { s.pwr with d3hot := false },
    grn := { s.grn with
      waiters := s.grn.waiters.filter (fun w => !Waiter.ofFunction w),
      granted := s.grn.granted.filter (fun w => !Waiter.ofFunction w), reserved := s.grn.reserved - gone } }

/-- The link: HDM decoders, MSI-X, ATS and PRI controls, and what waits at the link (R471). -/
def State.resetLink (s : State) : State :=
  { s with
    link := { s.link with
      hdm0 := Hdm.reset, hdm1 := Hdm.reset, bar0 := Bar.reset0, bar2 := Bar.reset2, doorbell := false, msix := [], pba := [],
      maxRead := 512, tenBitTags := false, atsEnable := false, priEnable := false, priFailure := false,
      waiting := [], reads := [] },
    grn := { s.grn with waiters := s.grn.waiters.filter (fun w => w != .cxl) } }

/-- The Clatos cores run their firmware again. -/
def State.restartCores (s : State) : State :=
  { s with hub := { s.hub with core0 := .running, core1 := .running, core2 := .running, core3 := .running } }

/-- Field time and the calendar at a reset that clears class W (R44, R471): count 0, UNSET, no entry. -/
def State.resetTime (s : State) : State :=
  { s with
    ft := {
      count := 0, frac := 0, slew := 0, slewEnd := 0, edgeAt := 0, interpAt := 0, floor := 0, windows := false, windowAt := 0,
      windowEdges := 0, nextEdges := 0, good := 0,
      bad := 0, pending := none, ppsMark := 0, latches := [] },
    cal := { entries := [], spent := [], firings := [], evaluated := none } }

/-- The DRAM state of the channels that `lost` names; `dpa` tells which addresses lose their contents. -/
def State.resetChannels (s : State) (lost : Nat → Bool) (dpa : Nat → Bool) : State :=
  let k4 := fun (k : Nat) => !lost (k / 4)
  { s with dram := { s.dram with
      cells := s.dram.cells.filter (fun c => !dpa c.1), poison := s.dram.poison.filter (fun a => !dpa a),
      queue := s.dram.queue.filter (fun r => !lost r.bank.ch.val),
      openRows := s.dram.openRows.filter (fun p => !lost p.1.ch.val),
      tables := s.dram.tables.filter (fun p => !lost p.1.ch.val),
      refCount := s.dram.refCount.filter (fun p => k4 p.1), refNext := s.dram.refNext.filter (fun p => k4 p.1),
      parity := s.dram.parity.filter (fun p => k4 p.1), lastUse := s.dram.lastUse.filter (fun p => k4 p.1),
      retraining := s.dram.retraining.filter (fun p => !lost p.1),
      trainTries := s.dram.trainTries.filter (fun p => !lost p.1) } }

/-- Device DRAM of CH4 to CH11 loses its contents (R471). -/
def State.loseDeviceDram (s : State) : State :=
  s.resetChannels (fun ch => decide (4 ≤ ch)) (fun a => decide (a < grnBase))

/-- CH0 to CH3 lose their contents (R471). -/
def State.loseGranaryDram (s : State) : State :=
  s.resetChannels (fun ch => decide (ch < 4)) (fun a => decide (grnBase ≤ a))

/-- The Granary core without registers (R471): landing buffer, maps, reservations and the winnower's work are lost;
the chain in the vault stays. -/
def State.resetGranary (s : State) : State :=
  let s := s.abandonSegments
  { s with
    grn := { s.grn with
      closed := false, landing := [], dirty := [], unrestored := [], reserved := 0, waiters := [], granted := [],
      budget := 0, samples := [], measure := none, fetches := [], dump := none, channelDump := false, lost := [],
      unsealed := [], poisonPages := [], reported := [] } }

/-- The fault hub and what else lies in the Granary core (R449, R471). -/
def State.resetHub (s : State) : State :=
  { s with hub := { s.hub with
      seq := 0, intake := [], skipped := false, armed := [], lastCoreReset := none, retiredTillers := [],
      tillerResets := [], pacing := [] } }

/-- The groups that a reset reaches, from its row of R469: function blocks, link, other MAIN, HOLD, Granary core. -/
def reachOf (fn ln m h g : Option Depth) : Group → Option Depth
  | .fn => fn
  | .ln => ln
  | .m => m
  | .h => h
  | .g => g
  | .x => none

/-- The MAIN groups of a MAIN power cycle (R469). -/
def mainReach : Group → Option Depth := reachOf (some .nfw) (some .nfw) (some .nfw) none none

/-- The ranks of CH4 to CH11 that are being migrated: their copy starts again at the next bring-up (R337). -/
def State.keepMigrations (s : State) : State :=
  let due := ([4, 5, 6, 7, 8, 9, 10, 11].filter (fun ch => s.getN F.DMC_MIGRATE_ACTIVE ch == 1)).map
    (fun ch => 4 * ch + s.getN F.DMC_MIGRATE_FROM ch)
  { s with dram := { s.dram with restart := s.dram.restart ++ due.filter (fun k => !s.dram.restart.contains k) } }

/-- The MAIN domain loses its state (R469, R471): a MAIN drop, and the MAIN part of a chip reset. -/
def State.resetMain (s : State) : State :=
  let s := ((((s.keepMigrations.resetFunction).resetLink).restartCores).resetTime).loseDeviceDram
  let s : State := { s with link := { s.link with aerFirst := none } }
  ((s.resetRegs mainReach).applyOptions mainReach).firmwareStops

/-- MAIN drops at step 4 of R363 (R517): MAIN_EN falls, MAIN is isolated and loses its state, the link goes idle. A
migration on CH4 to CH11 ends (R337). The next bring-up is a power-up (R462). -/
def State.dropMain (s : State) : State :=
  if !s.pwr.main then { s with pwr := { s.pwr with mainEn := false } }
  else
    let s := s.resetMain
    let s := { s with pwr := { s.pwr with main := false, mainEn := false, mainDue := true, loadCommitted := true } }
    s.emit .linkIdle

end Sys2Proof.Machine
end

