-- ==== Sys2Proof/Machine/FaultHub.lean ====
section
/-!
DEFINITION. Commands of the fault hub (R434 to R458): masks, injection, clears, the history queue, and the watchdogs
and block resets of the cores.
-/

namespace Sys2Proof.Machine

/-- A command whose spill record is lost (R262, R263): what reads back poisoned or fails its CRC is never used, and source 43 is
raised. That the command then ends with INTERNAL_ERROR is a DESIGN CHOICE, log entry 188. -/
def State.recordLost (s : State) (a : Accepted) (found : Nat) : State :=
  (s.raise 43 0 (0x0301 + found * 2 ^ 16 + 0xFF * 2 ^ 24)).complete a CC.internalError 43

/-- A command begins, read back from its spill record where it was kept in one (R262, R263). -/
def State.recalled (s : State) (a : Accepted) (k : Accepted → State) : State :=
  match a.record with
  | none => k a
  | some n => if s.checkRecord n = 0 then k a else s.recordLost a (s.checkRecord n)

/-- Completes the mailbox's next command when its opcode fits, by a function of that command; otherwise nothing
happens (R22, R100). -/
def State.onCmd (s : State) (m : Mailbox) (p : Line → Bool) (k : Accepted → State) : State :=
  match s.nextCmd m p with
  | some a => s.recalled a k
  | none => s

/-- Whether a command's opcode is `op`. -/
def isOp (op : Nat) (c : Line) : Bool := cmdOpcode c == op

/-- The conditions of check 7 of R440 that forbid a new mask. -/
def State.maskLocked (s : State) (n : Nat) : Bool :=
  s.flag F.FLT_CTL_LOCK || s.latched || sourceClassCode n == 4

/-- The mask a value selects: 0xFFFF is the source's default, and forced bits are set (R439, R440). -/
def maskValue (n m : Nat) : Nat := ((if m = 0xFFFF then sourceMask n else m) ||| sourceForced n) % 128

/-- Writes the mask in force. -/
def State.setMask (s : State) (n m : Nat) : State := s.setN F.FLT_SRC_CFG_MASK n (maskValue n m)

/-- FAULT_CONFIG (R440). -/
def execFaultConfig (m : Mailbox) (s : State) : Host.Outcome State Fault Refusal :=
  done s (s.onCmd m (isOp Op.faultConfig) fun a =>
    let n := cmdArg a.cmd 0
    if s.maskLocked n then s.complete a CC.stateConflict 0
    else (s.setMask n (cmdArg a.cmd 1)).complete a CC.ok 0)

/-- Arms a checker; an armed one stays armed once (R455). -/
def State.arm (s : State) (n c : Nat) : State :=
  let s := if s.hub.armed.contains (n, c) then s else { s with hub := { s.hub with armed := (n, c) :: s.hub.armed } }
  s.setN F.FLT_SRC_CFG_INJ_ARMED n 1

/-- The number of a source's injectable checkers (R437). -/
def sourceCheckers (n : Nat) : Nat := ((sourceInfo n).map (·.checkers)).getD 0

/-- FAULT_INJECT (R455). -/
def execFaultInject (m : Mailbox) (s : State) : Host.Outcome State Fault Refusal :=
  done s (s.onCmd m (isOp Op.faultInject) fun a =>
    if s.latched then s.complete a CC.stateConflict 0
    else (s.arm (cmdArg a.cmd 0) (cmdArg a.cmd 1)).complete a CC.ok 0)

/-- HISTORY_ENTRY (R446). -/
def execHistoryEntry (s : State) : Host.Outcome State Fault Refusal :=
  if s.pwr.hold then done s s.enterHistory else done s s

/-- STICKY_CLEAR (R441): W1C over FLT_STICKY[k]; a bit whose live bit is set stays. -/
def State.clearSticky (s : State) (k v : Nat) : State :=
  let old := s.getN F.FLT_STICKY_STICKY k
  let keep := (List.range 64).foldl (fun w i =>
    if bitOf old i && (!bitOf v i || bitOf (s.getN F.FLT_LIVE_LIVE k) i) then w + 2 ^ i else w) 0
  s.setN F.FLT_STICKY_STICKY k keep

/-- STICKY_CLEAR (R441). -/
def execStickyClear (k : BitVec 2) (v : Dword) (s : State) : Host.Outcome State Fault Refusal :=
  if s.pwr.hold then done s (s.clearSticky k.toNat v.toNat) else done s s

/-- FIRST_CAPTURE_REARM (R445): a write of 1 to FLT_FIRST3.VALID. -/
def execFirstCaptureRearm (s : State) : Host.Outcome State Fault Refusal :=
  if s.pwr.hold then done s (s.set F.FLT_FIRST3_VALID 0) else done s s

/-- MASK_WRITE (R440): a direct write of FLT_SRC[n].CFG.MASK takes effect only under FAULT_CONFIG's conditions, and is
otherwise ignored silently. -/
def execMaskWrite (n : BitVec 8) (v : Word) (s : State) : Host.Outcome State Fault Refusal :=
  let m := v.toNat % 2 ^ 16
  if !s.pwr.hold || (sourceInfo n.toNat).isNone || maskInvalid n.toNat m || s.maskLocked n.toNat then done s s
  else done s (s.setMask n.toNat m)

/-- FLT_INJ_GO (R455): the firmware's write of FLT_INJ with GO set arms the named checker, unless injection is
refused. -/
def execFltInjGo (v : Word) (s : State) : Host.Outcome State Fault Refusal :=
  if !s.pwr.hold then done s s
  else
    let n := bitsOf v.toNat 7 0
    let c := bitsOf v.toNat 15 8
    let t := (s.set F.FLT_INJ_SOURCE n).set F.FLT_INJ_CHECKER c
    if s.flag F.FLT_CTL_INJ_DIS || s.latched || decide (sourceCheckers n ≤ c) then done s t else done s (t.arm n c)

/-- The block reset of a Clatos core (R448): a second one of any core within 1 s raises source 2. -/
def State.resetCore (s : State) (c : Nat) : State :=
  let again := match s.hub.lastCoreReset with
    | some t => decide (s.now ≤ t + 1000000000)
    | none => false
  let s := (s.setCore c (.blockReset s.now))
  let s := { s with hub := { s.hub with lastCoreReset := some s.now } }
  if again then s.raise 2 0 0 else s

/-- CLATOS_WATCHDOG_EXPIRY (R448): source 1; the trap goes first and the block reset waits for it (NMI_ACK_TIMEOUT). -/
def execClatosWatchdogExpiry (core : BitVec 2) (s : State) : Host.Outcome State Fault Refusal :=
  if !s.mainUp || s.core core.toNat != .running then done s s
  else
    let t := s.raise 1 core.toNat 0
    if bitOf (s.maskOf 1) 3 && !bitOf (s.maskOf 1) 2 then done s (t.resetCore core.toNat) else done s t

/-- NMI_ACK_TIMEOUT (R448): a trapped core that has not acknowledged within 250 µs is block-reset. -/
def execNmiAckTimeout (core : BitVec 2) (s : State) : Host.Outcome State Fault Refusal :=
  match s.core core.toNat with
  | .trapped t => if s.mainUp && decide (t + 250000 ≤ s.now) then done s (s.resetCore core.toNat) else done s s
  | _ => done s s

/-- CORE_RESTART_COMPLETE (R448): the core runs again. The command it was executing runs again from its start if it
had made no change (it then still waits to begin), and otherwise completes with INTERNAL_ERROR and RESULT 1. -/
def execCoreRestartComplete (core : BitVec 2) (interrupted : Option Nat) (s : State) :
    Host.Outcome State Fault Refusal :=
  match s.core core.toNat with
  | .blockReset _ =>
    let t := s.setCore core.toNat .running
    match interrupted.bind (fun id => t.mbx.accepted.find? (fun a => a.id == id && a.begun)) with
    | some a => done s (t.complete a CC.internalError 1)
    | none => done s t
  | _ => done s s

/-- MANAGEMENT_CORE_WATCHDOG (R448): source 3, whose reaction block-resets the core. -/
def execManagementCoreWatchdog (s : State) : Host.Outcome State Fault Refusal :=
  if !s.pwr.aux || s.hub.mgmtReset then done s s
  else
    let t := s.raise 3 0 0
    if s.pwr.hold && bitOf (s.maskOf 3) 3 then done s { t with hub := { t.hub with mgmtReset := true } }
    else done s t

/-- CLOCK_LOCK_LOST (R437): source 5. -/
def execClockLockLost (s : State) : Host.Outcome State Fault Refusal := done s (s.raise 5 0 0)

end Sys2Proof.Machine
end

