-- ==== Sys2Proof/Machine/VaultRecords.lean ====
section
/-!
DEFINITION. The flash controller's own records on the system dies (R381): the pages of the block-state journal (R401, R402)
and the bad-block tables (R405).
-/

namespace Sys2Proof.Machine

/-! ### The journal (R401, R402) -/

/-- The 16 bytes of an entry (R401). -/
def JournalEntry.bytes (e : JournalEntry) : List Byte :=
  leBytes 1 e.op ++ leBytes 1 e.ch ++ leBytes 1 e.die ++ [0#8] ++ leBytes 2 e.block ++ leBytes 2 e.arg ++
  leBytes 4 e.erases ++ leBytes 4 0

/-- Flash pages that a journal record takes. -/
def JournalPage.span (p : JournalPage) : Nat :=
  match p.body with
  | .entries _ => 1
  | .checkpoint n _ _ => n

/-- The entries of a journal record. -/
def JournalPage.list (p : JournalPage) : List JournalEntry :=
  match p.body with
  | .entries es => es
  | .checkpoint _ _ _ => []

/-- A page of a given length: its header and entries, then zeros. -/
def padPage (b : List Byte) : List Byte := b ++ List.replicate (16384 - b.length) 0#8

/-- An entries page (R401), its CRC over the page with that field taken as zero. -/
def journalBytes (seq : Nat) (es : List JournalEntry) : List Byte :=
  let page := fun (crc : Nat) => padPage (leBytes 4 0x524A5053 ++ [1#8, 0#8] ++ leBytes 2 es.length ++ leBytes 8 seq ++
    leBytes 4 crc ++ List.replicate 44 0#8 ++ es.flatMap (·.bytes))
  page (crc32c (page 0))

/-- Pages of the journal ring, blocks 2 to 9 (R381). -/
def journalRing : Nat := 8 * 1536

/-- SEQ and ring page of the next journal page. -/
def State.journalNext (s : State) : Nat × Nat :=
  match s.flash.journal.getLast? with
  | some p => (p.seq + p.span, (p.place + p.span) % journalRing)
  | none => (0, 0)

/-- Writes one page of entries to both copies. Entering a block of the ring, the block is erased first and a checkpoint
written: how many pages that spans is a free value (R401). -/
def State.writeJournalPage (s : State) (es : List JournalEntry) : State :=
  let next := s.journalNext
  if next.2 % 1536 = 0 then
    let (v, s) := s.fresh
    let n := v % 1535 + 1
    let kept := s.flash.journal.filter (fun p => p.place / 1536 != next.2 / 1536)
    { s with flash := { s.flash with journal := kept ++
        [{ seq := next.1, place := next.2, body := .checkpoint n s.flash.erases s.flash.groups },
         { seq := next.1 + n, place := next.2 + n, body := .entries es }] } }
  else
    { s with flash := { s.flash with journal := s.flash.journal ++
        [{ seq := next.1, place := next.2, body := .entries es }] } }

/-- Writes entries, at most 1,020 to a page. -/
def State.writeJournal (s : State) : Nat → List JournalEntry → State
  | 0, _ => s
  | n + 1, es => if es.isEmpty then s else (s.writeJournalPage (es.take 1020)).writeJournal n (es.drop 1020)

/-- Writes journal entries, with the ERASE_DONE entries that wait, in one page (R402). -/
def State.journal (s : State) (es : List JournalEntry) : State :=
  let all := s.flash.waitingDone.map (·.1) ++ es
  ({ s with flash := { s.flash with waitingDone := [] } } : State).writeJournal all.length all

/-- The entries of the journal, oldest first. -/
def State.journalEntries (s : State) : List JournalEntry := s.flash.journal.flatMap (·.list)

/-- What page `p` of the ring holds: nothing, a page of entries, or a checkpoint, whose layout the manual does not give. -/
def State.journalPage (s : State) (p : Nat) : Option (Option (List Byte)) :=
  match s.flash.journal.find? (fun j => decide (j.place ≤ p ∧ p < j.place + j.span)) with
  | some j =>
    match j.body with
    | .entries es => some (some (journalBytes j.seq es))
    | .checkpoint _ _ _ => some none
  | none => none

/-! ### Bad-block tables (R405) -/

/-- The 8 bytes of an entry (R405). -/
def BadEntry.bytes (e : BadEntry) : List Byte :=
  leBytes 1 e.ch ++ leBytes 1 e.die ++ leBytes 2 e.block ++ leBytes 2 e.spare ++ leBytes 1 e.cause ++ [0#8]

/-- The stripe die of an entry. -/
def BadEntry.stripe (e : BadEntry) : Nat := 16 * e.die + e.ch

/-- The bytes of a table's page with a CRC (R405). -/
def BadPage.bytesWith (p : BadPage) (crc : Nat) : List Byte :=
  padPage (leBytes 4 0x42425053 ++ [1#8, BitVec.ofNat 8 (natOfBool p.grown)] ++ leBytes 1 p.idx ++ leBytes 1 p.pages ++
    leBytes 8 p.gen ++ leBytes 2 p.entries.length ++ leBytes 4 crc ++ List.replicate 42 0#8 ++ p.entries.flatMap (·.bytes))

/-- The CRC that a page must carry (R405). -/
def BadPage.sum (p : BadPage) : Nat := crc32c (p.bytesWith 0)

/-- A page as the cells hold it. -/
def BadPage.bytes (p : BadPage) : List Byte := p.bytesWith p.crc

/-- A page of a generation is valid when its CRC is right and its fields are in range. -/
def BadPage.valid (p : BadPage) : Bool :=
  p.crc == p.sum && decide (p.pages ≤ 4 ∧ p.idx < p.pages ∧ p.entries.length ≤ 2040)

/-- The entries of a generation, its pages in order; none unless every page of it is there and valid. -/
def badGeneration (ps : List BadPage) (gen : Nat) : Option (List BadEntry) :=
  let mine := ps.filter (fun p => p.gen == gen && p.valid)
  match mine with
  | [] => none
  | p :: _ =>
    (List.range p.pages).foldl (fun es i =>
      match es, mine.find? (fun q => q.idx == i) with
      | some es, some q => some (es ++ q.entries)
      | _, _ => none) (some [])

/-- The valid generation of the highest GEN in a copy. -/
def newestBad (ps : List BadPage) : Option (Nat × List BadEntry) :=
  ps.foldl (fun best p =>
    match badGeneration ps p.gen with
    | some es => if best.all (fun b => decide (b.1 < p.gen)) then some (p.gen, es) else best
    | none => best) none

/-- The bad-block table in force: the valid generation with the highest GEN in either copy, or the factory table (R405). -/
def State.badTable (s : State) : Nat × List BadEntry :=
  let factory := (0, s.flash.factory.flatMap (·.entries))
  match newestBad s.flash.grown0, newestBad s.flash.grown1 with
  | some a, some b => if a.1 < b.1 then b else a
  | some a, none => a
  | none, some b => b
  | none, none => factory

/-- The pages of a generation: one to four, of at most 2,040 entries each. -/
def badPages (gen : Nat) (es : List BadEntry) : List BadPage :=
  let n := max 1 (min 4 ((es.length + 2039) / 2040))
  (List.range n).map (fun i =>
    let p : BadPage := { grown := true, idx := i, pages := n, gen := gen, entries := (es.drop (2040 * i)).take 2040, crc := 0 }
    { p with crc := p.sum })

/-- Appends a generation to a copy's ring, the 1,536 pages of block 15, which is erased when it has no room. -/
def appendBad (old new : List BadPage) : List BadPage := if old.length + new.length ≤ 1536 then old ++ new else new

/-- Whether block 15 of a system die can be written. -/
def State.tableBlock (s : State) (die : Nat) : Bool := s.flash.blocks.get? (4096 * die + 15) != some .bad

/-- The spare map that a table gives (R380, R405). -/
def spareMap (es : List BadEntry) : Store Nat :=
  es.foldl (fun m e => if e.spare = 0xFFFF then m else m.set (4096 * e.stripe + e.block) e.spare) []

/-- Writes a new grown table that adds a bad block with its substitute, which also stands in for what the block itself
substituted (R404, R405). -/
def State.writeBadTable (s : State) (die block spare cause : Nat) : State :=
  let old := s.badTable
  let kept := old.2.map (fun e => if e.stripe = die ∧ e.spare = block then { e with spare := spare } else e)
  let es := kept ++ [{ ch := die % 16, die := die / 16, block := block, spare := spare, cause := cause }]
  let new := badPages (old.1 + 1) es
  { s with flash := { s.flash with
      grown0 := if s.tableBlock 0 then appendBad s.flash.grown0 new else s.flash.grown0,
      grown1 := if s.tableBlock 8 then appendBad s.flash.grown1 new else s.flash.grown1,
      spares := spareMap es } }

end Sys2Proof.Machine
end

