-- ==== Sys2Proof/Machine/Options.lean ====
section
/-!
DEFINITION. The option area in the vault (R381, R411 to R413): its records on blocks 0 and 1 of FC0.D0 and FC8.D0, how a
reset finds the one in force, and how a new one is written.
-/

namespace Sys2Proof.Machine

/-- The stripe die of an option copy: FC0.D0 or FC8.D0. -/
def optionDie (copy : Nat) : Nat := if copy = 0 then 0 else 8

/-- Sector 0 of a page of an option block; empty where the page reads as no record. -/
def State.optionPage (s : State) (die b p : Nat) : List Byte :=
  ((s.flash.pages.get? (1536 * (4096 * die + b) + p)).map (fun x => x.data.take 4096)).getD []

/-- Pages programmed in an option block. -/
def State.optionFill (s : State) (die b : Nat) : Nat := s.flash.np.getD (4096 * die + b) 0

/-- GEN of a record. -/
def recordGen (r : List Byte) : Nat := leField r 0x08 8

/-- Replaces `n` bytes of a record by a number. -/
def putField (r : List Byte) (off n v : Nat) : List Byte := r.take off ++ leBytes n v ++ r.drop (off + n)

/-- DIGEST of a record: the SHA-256 with DIGEST taken as zero (R411). -/
def recordDigest (r : List Byte) : List Byte := ShaAlg.hash .sha256 (putField r 0x10 32 0)

/-- A page holds a record: MAGIC, VERSION, LEN and DIGEST (R412). -/
def recordValid (r : List Byte) : Bool :=
  r.length == 4096 && leField r 0 4 == 0x544F5053 && leField r 4 1 == 1 && leField r 6 2 == 4096 &&
  recordDigest r == sliceBytes r 0x10 32

/-- GEN of the last page of an option block. -/
def State.optionLast (s : State) (die b : Nat) : Nat := recordGen (s.optionPage die b (s.optionFill die b - 1))

/-- The option block that holds a copy's last page. -/
def State.optionCurrent (s : State) (die : Nat) : Nat :=
  if s.optionFill die 1 = 0 then 0
  else if s.optionFill die 0 = 0 then 1
  else if s.optionLast die 0 < s.optionLast die 1 then 1 else 0

/-- An option block is passed over while it is INCOMPLETE (R412). -/
def State.optionSkipped (s : State) (die b : Nat) : Bool := s.flash.blocks.get? (4096 * die + b) == some .incomplete

/-- The pages of a copy, the newest first. -/
def State.optionPages (s : State) (die : Nat) : List (List Byte) :=
  let cur := s.optionCurrent die
  [cur, 1 - cur].flatMap (fun b =>
    if s.optionSkipped die b then []
    else (List.range (s.optionFill die b)).reverse.map (s.optionPage die b))

/-- The newest valid record of a copy, where its `bad` newest pages do not decode (R412). -/
def State.optionNewest (s : State) (copy bad : Nat) : Option (List Byte) :=
  ((s.optionPages (optionDie copy)).drop bad).find? recordValid

/-- Of two newest records the one in force, and the copy that serves it: the highest GEN, copy 0 at equal GEN (R412). -/
def newerRecord (a b : Option (List Byte)) : Option (Nat × List Byte) :=
  match a, b with
  | some x, some y => if recordGen x < recordGen y then some (1, y) else some (0, x)
  | some x, none => some (0, x)
  | none, some y => some (1, y)
  | none, none => none

/-- The record in force in the vault (R412). -/
def State.recordInForce (s : State) : Option (List Byte) :=
  (newerRecord (s.optionNewest 0 0) (s.optionNewest 1 0)).map (·.2)

/-- The 48 retired-rank bits of a record: 4 bits per channel (R411). -/
def recordRetired (r : List Byte) : Nat := leField r 0x80 6

/-- The retired ranks as the bits of a record. -/
def retiredBits (l : List Nat) : Nat := l.foldl (fun m k => m ||| 2 ^ k) 0

/-- The option area is read (R412): the record in force, or none with source 137; a copy whose newest record is damaged
or older raises source 136. The retired ranks on it are retired (R336). -/
def State.loadOptions (s : State) (bad0 bad1 : Nat) : State :=
  let a := s.optionNewest 0 bad0
  let b := s.optionNewest 1 bad1
  match newerRecord a b with
  | none =>
    (({ s with flash := { s.flash with option := [] } } : State).setAll
      [(F.FLV_STATUS_OPT_GEN, 0), (F.FLV_STATUS_OPT_COPY, 0)]).raise 137 0 0
  | some (copy, r) =>
    let ranks := (List.range 48).filter (bitOf (recordRetired r))
    let s : State := { s with
      flash := { s.flash with option := r },
      dram := { s.dram with retired := s.dram.retired ++ ranks.filter (fun k => !s.dram.retired.contains k) } }
    let s := s.setAll [(F.FLV_STATUS_OPT_GEN, recordGen r), (F.FLV_STATUS_OPT_COPY, copy)]
    let stale := fun (o : Option (List Byte)) (bad : Nat) => decide (0 < bad) || o.map recordGen != some (recordGen r)
    if stale a bad0 || stale b bad1 then (s.set F.FLV_STATUS_OPT_DAMAGED 1).raise 136 0 0 else s

/-- Erases an option block under R400: its intent and its end are on record, its pages are gone. -/
def State.eraseOption (s : State) (die b : Nat) : State :=
  let n := s.flash.erases.getD (1024 * die) 0
  let note := fun (op erases : Nat) =>
    ({ op := op, ch := die % 16, die := die / 16, block := b, arg := 0, erases := erases } : JournalEntry)
  let s := s.journal [note 1 n, note 2 (n + 1)]
  { s with flash := { s.flash with
      erases := s.flash.erases.set (1024 * die) (n + 1),
      pages := s.flash.pages.filter (fun p => p.1 / 1536 != 4096 * die + b),
      np := s.flash.np.erase (4096 * die + b), blocks := s.flash.blocks.erase (4096 * die + b) } }

/-- Writes a record to a copy at its next erased page; a full block, or the other one INCOMPLETE, has the other block
erased first (R413). -/
def State.programOption (s : State) (copy : Nat) (r : List Byte) : State :=
  let die := optionDie copy
  let cur := s.optionCurrent die
  let full := decide (1536 ≤ s.optionFill die cur)
  let s := if full || s.optionSkipped die (1 - cur) then s.eraseOption die (1 - cur) else s
  let b := if full then 1 - cur else cur
  let p := s.optionFill die b
  let page : FlashPage := { data := r ++ List.replicate 12288 0#8, tags := List.replicate 4 0 }
  { s with flash := { s.flash with
      pages := s.flash.pages.set (1536 * (4096 * die + b) + p) page, np := s.flash.np.set (4096 * die + b) (p + 1) } }

/-- A record as it is made durable (R413): GEN one above the GEN in force, the retirements in force, a new DIGEST. -/
def State.sealRecord (s : State) (r : List Byte) : List Byte :=
  let old := s.recordInForce
  let gen := (old.map recordGen).getD 0 + 1
  let ranks := recordRetired r ||| (old.map recordRetired).getD 0 ||| retiredBits s.dram.retired
  let r := putField (putField r 0x08 8 gen) 0x80 6 ranks
  r.take 0x10 ++ recordDigest r ++ r.drop 0x30

/-- A record without any field: every SET bit 0, every mask 0xFFFF. -/
def emptyRecord : List Byte :=
  leBytes 4 0x544F5053 ++ [1#8, 0#8] ++ leBytes 2 4096 ++ List.replicate 248 0#8 ++ List.replicate 512 0xFF#8 ++
  List.replicate 3328 0#8

/-- A retirement is recorded in both copies by the same sequence (R336, R413). -/
def State.recordRetirement (s : State) : State :=
  let r := s.sealRecord (s.recordInForce.getD emptyRecord)
  (s.programOption 0 r).programOption 1 r

end Sys2Proof.Machine
end

