-- ==== Sys2Proof/Machine/Dram.lean ====
section
/-!
DEFINITION. Commands of the twelve DDR5 controllers (R301 to R339): service of the bank queues, refresh and neighbour
refresh, sensors, retraining, power-down, migration, interleave sets and the patrol.
-/

namespace Sys2Proof.Machine

/-- The number of a rank within all ranks. -/
def rankKey (ch rank : Nat) : Nat := 4 * ch + rank

/-- Notes that a rank has been used, and wakes it (R329, R331). -/
def State.wakeRank (s : State) (ch rank : Nat) : State :=
  let s := s.setN F.DMC_STATUS_PD ch (putBits (s.getN F.DMC_STATUS_PD ch) rank 1 0)
  let s := s.setN F.DMC_STATUS_SR ch (putBits (s.getN F.DMC_STATUS_SR ch) rank 1 0)
  { s with dram := { s.dram with lastUse := s.dram.lastUse.set (rankKey ch rank) s.now } }

/-- Whether a rank has a request queued. -/
def State.rankBusy (s : State) (ch rank : Nat) : Bool :=
  s.dram.queue.any (fun r => r.bank.ch.val == ch && r.bank.rank.toNat == rank)

/-! ### Service of a bank (R308) -/

/-- Urgency of a class within steps 3 to 5. -/
def DramClass.order : DramClass → Nat
  | .guard => 0
  | .host => 1
  | .engine => 2
  | .background => 3

/-- The first request of a class: one that hits the open row before an older one that misses (R308). -/
def pickClass (q : List DramReq) (openRow : Option Nat) (c : DramClass) : Option DramReq :=
  let q := q.filter (fun r => r.cls == c)
  match q.find? (fun r => some r.row == openRow) with
  | some r => some r
  | none => q.head?

/-- The next request of a bank: GUARD oldest first, then promoted oldest first, then the other classes (R308). -/
def pickRequest (q : List DramReq) (openRow : Option Nat) : Option DramReq :=
  match q.find? (fun r => r.cls == .guard) with
  | some r => some r
  | none =>
    match q.find? (·.promoted) with
    | some r => some r
    | none => [DramClass.host, .engine, .background].findSome? (pickClass q openRow)

/-- The open row of a bank: one that the adaptive policy has closed by now is open no more (R311). -/
def State.openRow (s : State) (b : BankId) : Option Nat :=
  match s.dram.openRows.find? (fun p => p.1 == b) with
  | some (_, row, closes) => if closes.any (fun t => decide (t ≤ s.now)) then none else some row
  | none => none

/-- Sets or closes the open row of a bank. -/
def State.setRow (s : State) (b : BankId) (row : Option (Nat × Option Nat)) : State :=
  let rest := s.dram.openRows.filter (fun p => p.1 != b)
  { s with dram := { s.dram with openRows := match row with
      | some r => (b, r) :: rest
      | none => rest } }

/-- A neighbour refresh (R322). -/
def State.neighbourRefresh (s : State) (ch : Nat) : State := s.bumpN ⟨F.DMC_NR_CNT_COUNT, F.DMC_NR_CNT_SAT⟩ ch

/-- The activate threshold in force: values below 256 are taken as 256. -/
def State.nrThresh (s : State) (ch : Nat) : Nat := max 256 (s.getN F.DMC_REFCFG_NR_THRESH ch)

/-- The sampling exponent in force: values outside 8 to 16 are taken as the nearest bound. -/
def State.nrK (s : State) (ch : Nat) : Nat := min 16 (max 8 (s.getN F.DMC_REFCFG_NR_K ch))

/-- The entry of least count, the first of several. -/
def leastCount : List (Nat × Nat) → Option (Nat × Nat)
  | [] => none
  | e :: es => match leastCount es with
    | some f => if f.2 < e.2 then some f else some e
    | none => some e

/-- The table of R321 with row `r` present: found, allocated, or put in place of the least count, which it keeps. -/
def tableWith (t : List (Nat × Nat)) (r : Nat) : List (Nat × Nat) :=
  if t.any (fun e => e.1 == r) then t
  else if t.length < 32 then t ++ [(r, 0)]
  else match leastCount t with
    | some e => t.map (fun f => if f.1 == e.1 then (r, f.2) else f)
    | none => t

/-- One activate for HOST or GUARD (R321): the table after it, and whether the row's neighbours are refreshed. -/
def tableStep (t : List (Nat × Nat)) (r thresh : Nat) : List (Nat × Nat) × Bool :=
  let t := tableWith t r
  let n := ((t.find? (fun e => e.1 == r)).map (·.2)).getD 0 + 1
  if thresh ≤ n then (t.map (fun e => if e.1 == r then (r, 0) else e), true)
  else (t.map (fun e => if e.1 == r then (r, n) else e), false)

/-- An activate of a row for a request (R320, R321). The chance of R320 is a free value: the controller's generator is
not described. -/
def State.activate (s : State) (r : DramReq) : State :=
  let ch := r.bank.ch.val
  match r.cls with
  | .engine | .background =>
    let (v, s) := s.fresh
    if v % 2 ^ s.nrK ch = 0 then s.neighbourRefresh ch else s
  | .guard | .host =>
    let t := ((s.dram.tables.find? (fun p => p.1 == r.bank)).map (·.2)).getD []
    let (t, hit) := tableStep t r.row (s.nrThresh ch)
    let s := { s with dram := { s.dram with tables := (r.bank, t) :: s.dram.tables.filter (fun p => p.1 != r.bank) } }
    if hit then s.neighbourRefresh ch else s

/-- The row after an access, and when it closes by itself (R311): closed by hint 01, after burst 127 of a streaming row, and by the
default policy 01; else left open, by the adaptive policy until it has been idle for OPEN_TO. -/
def State.rowAfter (s : State) (r : DramReq) : Option (Nat × Option Nat) :=
  let ch := r.bank.ch.val
  match r.hint with
  | 1 => none
  | 2 => some (r.row, none)
  | 3 => if r.col = 127 then none else some (r.row, none)
  | _ =>
    match s.getN F.DMC_ARBCFG_DEF_POLICY ch with
    | 1 => none
    | 2 => some (r.row, none)
    | _ => some (r.row, some (s.now + 10 * s.getN F.DMC_ARBCFG_OPEN_TO ch))

/-- What a served request gives its requester (R314 to R316): a CXL.mem read is answered with the line; a task has its data since
its request was accepted, and learns of the poison now (DESIGN CHOICE, log entry 27); a masked write is lost. -/
def State.answerRead (s : State) (r : DramReq) (poison : Bool) : State :=
  match r.kind with
  | .cxlRead tag =>
    let l := s.readLine r.dpa
    s.toLink (.cxlData tag l.1 (l.2 || poison))
  | .read (some id) => if poison then s.spoil id r.dpa else s
  | .read none => s
  | .masked => if poison then s.rmwLost r.dpa else s
  | .write => s

/-- Serves one read: an armed checker injects, else the line code's finding is handled (R313, R314, R456). -/
def State.serveRead (s : State) (r : DramReq) (ecc : EccOutcome) : State :=
  let ch := r.bank.ch.val
  let inj := s.injectAny ch r.dpa ch [64, 65]
  if inj.1 then inj.2.answerRead r false
  else
    match s.decodeDpa r.dpa, ecc with
    | some a, .corrected d => (s.correctedRead a r.dpa d.toNat false).answerRead r false
    | some a, .uncorrectable => (s.uncorrectableRead a r.dpa false).answerRead r true
    | _, _ => s.answerRead r false

/-- How many refresh intervals of a rank may stay postponed (R319). -/
def State.postpone (s : State) (ch : Nat) : Nat := if s.getN F.DMC_REFCFG_POSTPONE_EN ch = 1 then 4 else 0

/-- tREFI in ns (R318). -/
def State.tREFI (s : State) (ch : Nat) : Nat := if s.getN F.DMC_REFCFG_HOT ch = 1 then 1950 else 3900

/-- A rank whose refresh may wait no longer (R319). -/
def State.refreshOverdue (s : State) (ch rank : Nat) : Bool :=
  match s.dram.refNext.get? (rankKey ch rank) with
  | some t => decide (t + s.postpone ch * s.tREFI ch < s.now)
  | none => false

/-- Serves the next request of a bank (R308 to R311); its command passes the channel's C/A check, where an armed checker
injects and the access proceeds (R456). -/
def State.serveBank (s : State) (b : BankId) (ecc : EccOutcome) : State :=
  match pickRequest (s.dram.queue.filter (fun r => r.bank == b)) (s.openRow b) with
  | some r =>
    let s := { s with dram := { s.dram with queue := s.dram.queue.erase r } }
    let s := if s.openRow b == some r.row then s else s.activate r
    let s := (s.setRow b (s.rowAfter r)).wakeRank b.ch.val b.rank.toNat
    let s := match r.kind with
      | .write => s
      | _ => s.serveRead r ecc
    (s.injected 66 b.ch.val r.dpa b.ch.val).2
  | none => s

/-- DRAM_REQUEST (R308): the bank may take a command. -/
def execDramRequest (bank : BankId) (ecc : EccOutcome) (s : State) : Host.Outcome State Fault Refusal :=
  if s.channelUp bank.ch.val && !s.refreshOverdue bank.ch.val bank.rank.toNat then done s (s.serveBank bank ecc)
  else done s s

/-- The age limit in force: values below 250 are taken as 250 (R308). -/
def State.ageLimit (s : State) (ch : Nat) : Nat := max 250 (s.getN F.DMC_ARBCFG_AGE_NS ch)

/-- AGE_PROMOTION (R308): the bank's oldest request of another class than GUARD that has waited AGE_NS. -/
def execAgePromotion (bank : BankId) (s : State) : Host.Outcome State Fault Refusal :=
  let ch := bank.ch.val
  match s.dram.queue.find? (fun r => r.bank == bank && r.cls != .guard && !r.promoted &&
      decide (r.at_ + s.ageLimit ch ≤ s.now)) with
  | some r =>
    let q := s.dram.queue.map (fun x => if x == r then { x with promoted := true } else x)
    done s ({ s with dram := { s.dram with queue := q } }.bumpN ⟨F.DMC_PROMOTE_CNT_COUNT, F.DMC_PROMOTE_CNT_SAT⟩ ch)
  | none => done s s

/-! ### Refresh (R318, R319, R321) -/

/-- Whether a rank is refreshed: in service, a spare or migrating. -/
def State.rankRefreshed (s : State) (ch rank : Nat) : Bool := s.channelUp ch && s.rankInService ch rank

/-- One all-bank refresh: the next one's time, the count of the window, tables cleared after 8,192, rows closed. -/
def State.refreshRank (s : State) (ch rank due : Nat) : State :=
  let k := rankKey ch rank
  let mine := fun (b : BankId) => b.ch.val == ch && b.rank.toNat == rank
  let n := s.dram.refCount.getD k 0 + 1
  let full := decide (8192 ≤ n)
  { s with dram := { s.dram with
      refNext := s.dram.refNext.set k (due + s.tREFI ch),
      refCount := s.dram.refCount.set k (if full then 0 else n),
      tables := if full then s.dram.tables.filter (fun p => !mine p.1) else s.dram.tables,
      openRows := s.dram.openRows.filter (fun p => !mine p.1) } }

/-- REFRESH (R318, R319): due, or pulled in by up to 4 intervals while the rank is idle. -/
def execRefresh (ch : Fin 12) (rank : BitVec 2) (s : State) : Host.Outcome State Fault Refusal :=
  let c := ch.val
  let r := rank.toNat
  let due := s.dram.refNext.getD (rankKey c r) s.now
  let ahead := if s.rankBusy c r then 0 else s.postpone c * s.tREFI c
  if s.rankRefreshed c r && decide (due ≤ s.now + ahead) then done s (s.refreshRank c r due) else done s s

/-! ### Sensors and drift (R318, R325) -/

/-- The signed reading of a sensor field; none for 0x8000. -/
def sensorValue (v : Nat) : Option Int := if v = 0x8000 then none else some (toSigned 16 v)

/-- DIMMs of a channel, of at most two. -/
def State.dimms (s : State) (ch : Nat) : Nat := min 2 (s.getN F.DMC_CHCFG_DPC ch)

/-- The field of a DIMM's sensor. -/
def dimmField (d : Nat) : Field := if d = 0 then F.DMC_TEMP_DIMM0 else F.DMC_TEMP_DIMM1

/-- The readings of the present DIMMs of a channel. -/
def State.dimmReadings (s : State) (ch : Nat) : List (Option Int) :=
  (List.range (s.dimms ch)).map (fun d => sensorValue (s.getN (dimmField d) ch))

/-- Writes one DIMM's reading; an unreadable sensor raises source 72 when it turns unreadable (R318). -/
def State.storeReading (s : State) (ch d : Nat) (v : Option (BitVec 16)) : State :=
  if s.dimms ch ≤ d then s
  else
    let was := s.getN (dimmField d) ch
    let new := (v.map BitVec.toNat).getD 0x8000
    let s := s.setN (dimmField d) ch new
    if new = 0x8000 && (was != 0x8000 || !s.live 72) then s.raise 72 ch (s.getN F.DMC_ERRADDR_DPA ch) else s

/-- Whether any present DIMM of any channel is unreadable. -/
def State.anyUnreadable (s : State) : Bool := (List.range 12).any (fun c => (s.dimmReadings c).contains none)

/-- Whether any channel is HOT. -/
def State.anyHot (s : State) : Bool := (List.range 12).any (fun c => s.getN F.DMC_REFCFG_HOT c == 1)

/-- HOT is written to REFCFG and STATUS. -/
def State.setHot (s : State) (ch : Nat) (b : Bool) : State :=
  (s.setN F.DMC_REFCFG_HOT ch (natOfBool b)).setN F.DMC_STATUS_HOT ch (natOfBool b)

/-- HOT above 85 °C and until every sensor reads below 80 °C, in units of 0.25 °C; unreadable counts as hot (R318). -/
def State.judgeHot (s : State) (ch : Nat) : State :=
  let rs := s.dimmReadings ch
  let hot := rs.any (fun r => decide (r.getD 341 > 340))
  let cool := rs.all (fun r => decide (r.getD 341 < 320))
  if hot then
    if s.getN F.DMC_REFCFG_HOT ch = 1 then s else (s.setHot ch true).raise 71 ch (s.getN F.DMC_ERRADDR_DPA ch)
  else if cool then
    let s := s.setHot ch false
    if s.anyHot then s else s.clearLive 71
  else s

/-- TEMP_MAX: the hottest readable sensor in whole °C, rounded down; with none readable, a free value. -/
def State.judgeMax (s : State) (ch : Nat) : State :=
  match (s.dimmReadings ch).filterMap id with
  | [] => if s.dimms ch = 0 then s else let (v, s) := s.fresh; s.setN F.DMC_STATUS_TEMP_MAX ch v
  | t :: ts => s.setN F.DMC_STATUS_TEMP_MAX ch (ofSigned 8 ((ts.foldl max t) / 4))

/-- DIMM_SENSOR_READ (R318). -/
def execDimmSensorRead (ch : Fin 12) (reading : List (Option (BitVec 16))) (s : State) :
    Host.Outcome State Fault Refusal :=
  if !(Instr.dimmSensorRead ch reading).wellFormed then .fault .illFormed
  else if !s.channelUp ch.val then done s s
  else
    let t := (List.range 2).foldl (fun s d => s.storeReading ch.val d (reading.getD d none)) s
    let t := if t.anyUnreadable then t else t.clearLive 72
    done s ((t.judgeHot ch.val).judgeMax ch.val)

/-- Starts a retraining or ZQ calibration of a rank, and wakes it (R326, R331). One rank of a channel at a time. -/
def State.startRetraining (s : State) (ch rank : Nat) (zqOnly : Bool) : State :=
  let s := { s with dram := { s.dram with retraining := s.dram.retraining.set ch ⟨rank, 0, zqOnly⟩ } }
  (s.setN F.DMC_STATUS_RETRAINING ch 1).wakeRank ch rank

/-- Whether a retraining of a rank may start: a background activity, none from a power-fail detection on (R33). -/
def State.mayRetrain (s : State) (ch rank : Nat) : Bool :=
  s.channelUp ch && s.rankInService ch rank && !s.dram.retraining.has ch && s.backgroundRuns

/-- DQS_OSCILLATOR_READ (R325): a drift beyond 10 % starts a retraining. -/
def execDqsOscillatorRead (ch : Fin 12) (rank : BitVec 2) (drift : Bool) (s : State) :
    Host.Outcome State Fault Refusal :=
  if drift && s.mayRetrain ch.val rank.toNat then
    done s (s.startRetraining ch.val rank.toNat false)
  else done s s

/-- RETRAIN (R326): DMC[n].CMD.RETRAIN. -/
def execRetrain (ch : Fin 12) (rank : BitVec 2) (s : State) : Host.Outcome State Fault Refusal :=
  if s.mayRetrain ch.val rank.toNat then done s (s.startRetraining ch.val rank.toNat false) else done s s

/-- The ranks in service in ascending channel and rank order. -/
def State.ranksInService (s : State) : List Nat :=
  (List.range 48).filter (fun k => s.channelUp (k / 4) && s.rankInService (k / 4) (k % 4))

/-- The next rank in rotation (R324). -/
def State.nextInRotation (s : State) : Option Nat :=
  let l := s.ranksInService
  match s.dram.rotation with
  | some k => match l.find? (fun x => decide (k < x)) with
    | some x => some x
    | none => l.head?
  | none => l.head?

/-- The rank and kind that a retraining firing's ARG names (R324); none makes it a no-operation. -/
def State.retrainArg (s : State) (arg : Nat) : Option (Nat × Bool) :=
  if arg = 0xFFFFFFFF then s.nextInRotation.map (fun k => (k, false))
  else if arg < 0x80 && arg % 16 < 12 then some (4 * (arg % 16) + arg / 16 % 4, bitOf arg 6)
  else none

/-- RETRAINING_SLOT (R324). -/
def execRetrainingSlot (s : State) : Host.Outcome State Fault Refusal :=
  match s.takeSlot 5 with
  | some (f, t) =>
    match t.retrainArg f.arg with
    | some (k, zq) =>
      let t := if f.arg = 0xFFFFFFFF then { t with dram := { t.dram with rotation := some k } } else t
      if t.mayRetrain (k / 4) (k % 4) then done s (t.startRetraining (k / 4) (k % 4) zq) else done s t
    | none => done s t
  | none => done s s

/-- Ends a channel's retraining. -/
def State.endRetraining (s : State) (ch : Nat) : State :=
  { s with dram := { s.dram with retraining := s.dram.retraining.erase ch } }.setN F.DMC_STATUS_RETRAINING ch 0

/-- RETRAINING_END (R326, R327): the check pass passes, or is repeated up to three attempts in all. ZQ calibration
alone has no check pass. -/
def execRetrainingEnd (ch : Fin 12) (pass : Bool) (s : State) : Host.Outcome State Fault Refusal :=
  let c := ch.val
  match s.dram.retraining.get? c with
  | some r =>
    if r.zqOnly then done s (s.endRetraining c)
    else if pass then
      done s ((s.endRetraining c).bumpN ⟨F.DMC_RETRAIN_CNT_COUNT, F.DMC_RETRAIN_CNT_SAT⟩ c)
    else if 3 ≤ r.attempts + 1 then done s ((s.endRetraining c).failChannel c)
    else
      let r := { r with attempts := r.attempts + 1 }
      done s { s with dram := { s.dram with retraining := s.dram.retraining.set c r } }
  | none => done s s

/-! ### Power-down and self-refresh (R329, R330) -/

/-- Whether some page of [lo, hi) is congruent to `w` modulo `ways`. -/
def wayIn (lo hi w ways : Nat) : Bool := decide (lo + (w + ways - lo % ways) % ways < hi)

/-- Whether a rank of a Granary channel holds a page that the dirty map marks (R330): its logical rank's pages, or,
for a spare being migrated to, those of the retiring rank. -/
def State.rankDirty (s : State) (ch rank : Nat) : Bool :=
  let i := s.ivs 0
  let from_ := if s.getN F.DMC_MIGRATE_ACTIVE ch = 1 && s.getN F.DMC_MIGRATE_TO ch == rank
    then s.getN F.DMC_MIGRATE_FROM ch else rank
  let units := 2 ^ (s.rankLog ch - 12)
  let lr := rankLogical (s.rankByte ch from_)
  match (List.range i.ways).find? (fun w => i.chList.getD w 16 == ch) with
  | some w => s.grn.dirty.any (fun p =>
      wayIn (max p.1 (lr * units * i.ways)) (min p.2 ((lr + 1) * units * i.ways)) w i.ways)
  | none => false

/-- A rank that has been idle for `ns`. -/
def State.idleFor (s : State) (ch rank ns : Nat) : Bool :=
  s.channelUp ch && s.rankInService ch rank && !s.rankBusy ch rank &&
  !((s.dram.retraining.get? ch).any (fun r => r.rank == rank)) &&
  decide (s.dram.lastUse.getD (rankKey ch rank) 0 + ns ≤ s.now)

/-- POWER_DOWN_ENTRY (R329). -/
def execPowerDownEntry (ch : Fin 12) (rank : BitVec 2) (s : State) : Host.Outcome State Fault Refusal :=
  let pd := s.getN F.DMC_PWRCFG_PD_NS ch.val
  let sr := bitOf (s.getN F.DMC_STATUS_SR ch.val) rank.toNat
  if pd ≠ 0 && !sr && s.idleFor ch.val rank.toNat pd then
    done s (s.setN F.DMC_STATUS_PD ch.val (putBits (s.getN F.DMC_STATUS_PD ch.val) rank.toNat 1 1))
  else done s s

/-- SELF_REFRESH_ENTRY (R329, R330). -/
def execSelfRefreshEntry (ch : Fin 12) (rank : BitVec 2) (s : State) : Host.Outcome State Fault Refusal :=
  let sr := s.getN F.DMC_PWRCFG_SR_US ch.val
  if sr ≠ 0 && s.idleFor ch.val rank.toNat (sr * 1000) && !(ch.val < 4 && s.rankDirty ch.val rank.toNat) then
    let t := s.setN F.DMC_STATUS_PD ch.val (putBits (s.getN F.DMC_STATUS_PD ch.val) rank.toNat 1 0)
    done s (t.setN F.DMC_STATUS_SR ch.val (putBits (t.getN F.DMC_STATUS_SR ch.val) rank.toNat 1 1))
  else done s s

/-! ### Command and address parity, retirement and migration (R317, R333 to R336) -/

/-- A command whose retry failed (R317): an uncorrectable read of its line, or a masked write to a poisoned line. -/
def State.failedCommand (s : State) (r : DramReq) (a : DramAddr) : State :=
  let s := { s with dram := { s.dram with queue := s.dram.queue.erase r } }
  match r.kind with
  | .write => (s.poisonLine r.dpa).bumpN ⟨F.DMC_RMW_LOST_CNT_COUNT, F.DMC_RMW_LOST_CNT_SAT⟩ a.ch
  | _ => (s.uncorrectableRead a r.dpa false).answerRead r true

/-- Eight parity errors within 1 s of device time. -/
def eightInASecond (times : List Nat) (now : Nat) : Bool :=
  decide (8 ≤ (times.filter (fun t => decide (now ≤ t + 1000000000))).length)

/-- CA_PARITY_ERROR (R317): `again` says that the retry also fails. The command is the oldest queued for the rank. -/
def execCaParityError (ch : Fin 12) (rank : BitVec 2) (again : Bool) (s : State) : Host.Outcome State Fault Refusal :=
  let c := ch.val
  let r := rank.toNat
  if !(s.channelUp c && s.rankInService c r) then done s s
  else
    let k := rankKey c r
    let times := (s.now :: s.dram.parity.getD k []).take 8
    let t := { s with dram := { s.dram with parity := s.dram.parity.set k times } }
    let t := t.bumpN ⟨F.DMC_CAPAR_CNT_COUNT, F.DMC_CAPAR_CNT_SAT⟩ c
    let cmd := t.dram.queue.find? (fun q => q.bank.ch.val == c && q.bank.rank.toNat == r)
    let addr := cmd.bind (fun q => (t.decodeDpa q.dpa).map (fun a => (q, a)))
    let t := match addr with
      | some (q, a) => (t.captureErr { a with ch := c, rank := r } q.dpa 3 0x1F false).raise 66 c q.dpa
      | none => ((t.setN F.DMC_ERRLOG_TYPE c 3).setN F.DMC_ERRLOG_RANK c r).raise 66 c (t.getN F.DMC_ERRADDR_DPA c)
    let t := if again then match addr with
      | some (q, a) => t.failedCommand q a
      | none => t
      else t
    done s (if again || eightInASecond times s.now then t.markRetire c r else t)

/-- RETIRE (R333): DMC[n].CMD.RETIRE. -/
def execRetire (ch : Fin 12) (rank : BitVec 2) (s : State) : Host.Outcome State Fault Refusal :=
  if s.channelUp ch.val && s.rankInService ch.val rank.toNat then done s (s.markRetire ch.val rank.toNat)
  else done s s

/-- The last unit is copied (R336): the spare takes the logical number, the rank becomes RETIRED, powered down and
recorded, and source 67 is raised. -/
def State.completeMigration (s : State) (ch : Nat) : State :=
  let from_ := s.getN F.DMC_MIGRATE_FROM ch
  let spare := s.getN F.DMC_MIGRATE_TO ch
  let s := s.setRankByte ch spare (mkRank Rank.active (rankLogical (s.rankByte ch from_)))
  let s := s.setRankByte ch from_ (mkRank Rank.retired 0)
  let s := [F.DMC_MIGRATE_ACTIVE, F.DMC_MIGRATE_PAUSED, F.DMC_STATUS_MIGRATING].foldl (fun s f => s.setN f ch 0) s
  let k := rankKey ch from_
  let s := { s with dram := { s.dram with retired := if s.dram.retired.contains k then s.dram.retired else k :: s.dram.retired } }
  s.recordRetirement.raise 67 ch (s.getN F.DMC_ERRADDR_DPA ch)

/-- The requests by which a unit is copied, in the HOST class (R307, R334): its 64 lines are read from one rank and written to the
other. -/
def State.unitRequests (s : State) (ch unit : Nat) : List DramReq :=
  let from_ := s.getN F.DMC_MIGRATE_FROM ch
  let lines := (List.range 64).map (fun i => 4096 * unit + 64 * i)
  let ca := fun (ra : Nat) => rankLogical (s.rankByte ch from_) * 2 ^ s.rankLog ch + ra
  let req := fun (rank : Nat) (kind : DramKind) (ra : Nat) =>
    let a := decodeRank ch (ca ra) rank ra
    ({ bank := a.bankId, row := a.row, col := a.col, dpa := (s.dpaOfChannel ch (ca ra)).getD 0, cls := .host, kind := kind,
       at_ := s.now, promoted := false, hint := 0 } : DramReq)
  lines.flatMap (fun ra => [req from_ (.read none) ra, req (s.getN F.DMC_MIGRATE_TO ch) .write ra])

/-- MIGRATION_UNIT_COPY (R334 to R337): contents stay under their DPA, so the copy moves UNIT on. -/
def execMigrationUnitCopy (ch : Fin 12) (s : State) : Host.Outcome State Fault Refusal :=
  let c := ch.val
  if s.channelUp c && s.getN F.DMC_MIGRATE_ACTIVE c == 1 && s.getN F.DMC_MIGRATE_PAUSED c == 0 then
    let u := s.getN F.DMC_MIGRATE_UNIT c + 1
    let s := { s with dram := { s.dram with queue := s.dram.queue ++ s.unitRequests c (u - 1) } }
    let t := (s.setN F.DMC_MIGRATE_UNIT c u).wakeRank c (s.getN F.DMC_MIGRATE_TO c)
    let t := t.wakeRank c (s.getN F.DMC_MIGRATE_FROM c)
    done s (if 2 ^ (s.rankLog c - 12) ≤ u then t.completeMigration c else t)
  else done s s

/-! ### Interleave sets (R304, R305) -/

/-- Two half-open ranges meet. -/
def rangesMeet (a n b m : Nat) : Bool := decide (a < b + m) && decide (b < a + n) && decide (n ≠ 0) && decide (m ≠ 0)

/-- The channels a set uses. -/
def IvSet.channels (i : IvSet) : List Nat := i.chList.take i.ways

/-- Whether two sets overlap on a channel they share (R305). -/
def IvSet.channelOverlap (i j : IvSet) : Bool :=
  i.channels.any (fun c => j.channels.contains c) && rangesMeet i.chBase (i.size / i.ways) j.chBase (j.size / j.ways)

/-- The conditions of R305, and of R304 for the sets that the firmware programs, against the other sets. -/
def State.ivsValid (s : State) (k : Nat) (i : IvSet) : Bool :=
  decide (1 ≤ i.ways) && decide (i.ways ≤ 8) && decide (8 ≤ i.grainLog) && decide (i.grainLog ≤ 30) &&
  decide (i.size % (i.ways * 2 ^ i.grainLog) = 0) && decide (i.channels.Nodup) &&
  i.channels.all (fun c => decide (4 ≤ c) && decide (c < 12) &&
    decide (i.chBase + i.size / i.ways ≤ s.activeCapacity c)) &&
  decide (i.base + i.size ≤ grnBase) &&
  (List.range 8).all (fun j =>
    j == k || !(s.ivs j).valid ||
    (!rangesMeet i.base i.size (s.ivs j).base (s.ivs j).size && !i.channelOverlap (s.ivs j) &&
      !(i.vol && (s.ivs j).vol)))

/-- IVS_CFG_WRITE (R304, R305): every field of IVS[0] is read-only; LOCK keeps the RWL fields of a set. -/
def execIvsCfgWrite (n : BitVec 3) (v : Dword) (s : State) : Host.Outcome State Fault Refusal :=
  let k := n.toNat
  let w := v.toNat
  if !s.mainUp || k == 0 then done s s
  else if s.getN F.IVS_CFG_LOCK k = 1 then done s s
  else
    let t := [(F.IVS_CFG_CHLIST, bitsOf w 63 32), (F.IVS_CFG_CH_BASE, bitsOf w 31 24),
      (F.IVS_CFG_GRAIN_LOG, bitsOf w 23 19), (F.IVS_CFG_WAYS, bitsOf w 18 15), (F.IVS_CFG_VOL, bitsOf w 11 11),
      (F.IVS_CFG_VALID, 0), (F.IVS_CFG_STATE, 0), (F.IVS_CFG_LOCK, bitsOf w 9 9)].foldl
        (fun s p => s.setN p.1 k p.2) s
    if bitOf w 0 && t.ivsValid k (t.ivs k) then
      done s ((t.setN F.IVS_CFG_VALID k 1).setN F.IVS_CFG_STATE k 1)
    else done s t

/-! ### Patrol (R338, R339) -/

/-- The physical ranks a patrol covers: active, migrating and spare. -/
def State.patrolled (s : State) (ch : Nat) : List Nat := (List.range 4).filter (fun p => s.rankInService ch p)

/-- The lines of a channel as the patrol counts them: the patrolled ranks in physical order (R338). -/
def State.patrolLines (s : State) (ch : Nat) : Nat := (s.patrolled ch).length * 2 ^ (s.rankLog ch - 6)

/-- The place of a patrol line: physical rank, rank address and DPA; a spare's line has no DPA. -/
def State.patrolPlace (s : State) (ch line : Nat) : DramAddr × Option Nat :=
  let per := 2 ^ (s.rankLog ch - 6)
  let p := (s.patrolled ch).getD (line / per) 0
  let ra := line % per * 64
  let b := s.rankByte ch p
  let ca := rankLogical b * 2 ^ s.rankLog ch + ra
  (decodeRank ch ca p ra,
   if rankState b == Rank.active || rankState b == Rank.migratingOut then s.dpaOfChannel ch ca else none)

/-- Handles one finding of a patrol (R338): a corrected line is written back with its last written value, which
memory holds; an uncorrectable one is handled under R314. A line of a spare has no DPA: ERRADDR is then free. -/
def State.patrolFinding (s : State) (f : LineFinding) : State :=
  let ch := f.ch.val
  let (a, d) := s.patrolPlace ch f.line
  let (dpa, s) := match d with
    | some d => (d, s)
    | none => s.fresh
  match f.outcome with
  | .clean => s
  | .corrected dev => s.correctedRead a dpa dev.toNat true
  | .uncorrectable =>
    if d.isSome then s.uncorrectableRead a dpa true
    else
      let s := s.bumpN ⟨F.DMC_UE_CNT_COUNT, F.DMC_UE_CNT_SAT⟩ ch
      ((s.captureErr a dpa 2 0x1F true).raise 65 ch dpa).markRetire ch a.rank

/-- Whether a line lies in a slice of `n` lines from `from_`, wrapping at `total`. -/
def inSlice (line from_ n total : Nat) : Bool := decide (line < total) && decide ((line + total - from_) % total < n)

/-- One channel's slice (R338). -/
def State.patrolChannel (s : State) (ch : Nat) (found : List LineFinding) : State :=
  let total := s.patrolLines ch
  if !s.channelUp ch || total = 0 then s
  else
    let from_ := s.getN F.DMC_SCRUBPOS_LINE ch % total
    let n := s.getN F.DMC_SCRUBCFG_LINES ch
    let first := ((s.patrolPlace ch from_).2).getD 0
    let s := if n = 0 then s else (s.injectAny ch first ch [64, 65]).2
    let per := 2 ^ (s.rankLog ch - 6)
    let s := (s.patrolled ch).zipIdx.foldl (fun s p =>
      if rangesMeet (per * p.2) per from_ n || rangesMeet (total + per * p.2) per from_ n then s.wakeRank ch p.1 else s) s
    let s := (found.filter (fun f => f.ch.val == ch && inSlice f.line from_ n total)).foldl State.patrolFinding s
    let s := s.setN F.DMC_SCRUBPOS_PASSES ch (s.getN F.DMC_SCRUBPOS_PASSES ch + (from_ + n) / total)
    s.setN F.DMC_SCRUBPOS_LINE ch ((from_ + n) % total)

/-- A channel has a GUARD request waiting: no background access of it is served before that (R35, R308). -/
def State.guardWaits (s : State) (ch : Nat) : Bool := s.dram.queue.any (fun r => r.bank.ch.val == ch && r.cls == .guard)

/-- A slice of the patrol can be read: on no channel that its firing names does a GUARD request wait (R35). -/
def State.patrolMayRead (s : State) : Bool :=
  match s.takeSlot 2 with
  | some (f, _) => !(List.range 12).any (fun ch => bitOf f.arg ch && s.guardWaits ch)
  | none => true

/-- DRAM_SCRUB_SLICE (R338): the operand names what the slice's reads find. The slice is read as one, in the BACKGROUND class: it
stays pending while a GUARD request waits on one of its channels (DESIGN CHOICE, log entry 27). -/
def execDramScrubSlice (found : List LineFinding) (s : State) : Host.Outcome State Fault Refusal :=
  if !s.patrolMayRead then done s s
  else match s.takeSlot 2 with
  | some (f, t) =>
    done s ((List.range 12).foldl (fun t ch => if bitOf f.arg ch then t.patrolChannel ch found else t) t)
  | none => done s s

end Sys2Proof.Machine
end

