-- ==== Sys2Proof/Machine/FlashOps.lean ====
section
/-!
DEFINITION. The flash vault (R378 to R410): geometry and maps, what a sector of the cells holds, block states and the
journal, bad blocks, and descriptors with their checks and completions.
-/

namespace Sys2Proof.Machine

/-! ### Descriptors (R388) -/

def descOp (d : Line) : Nat := cmdField d 0x00 1
def descFence (d : Line) : Bool := bitOf (cmdField d 0x01 1) 0
def descRaw (d : Line) : Bool := bitOf (cmdField d 0x01 1) 1
def descPhys (d : Line) : Bool := bitOf (cmdField d 0x01 1) 2
def descTag (d : Line) : Nat := cmdField d 0x02 2
def descBlock (d : Line) : Nat := cmdField d 0x06 2
def descPage (d : Line) : Nat := cmdField d 0x08 2
def descFirst (d : Line) : Nat := cmdField d 0x0A 1
def descSectors (d : Line) : Nat := cmdField d 0x0B 1
def descPlanes (d : Line) : Nat := cmdField d 0x0C 1
def descData (d : Line) : Nat := cmdField d 0x10 8
def descMeta (d : Line) : Nat := cmdField d 0x18 8
def descLen (d : Line) : Nat := cmdField d 0x20 4

/-- The operations of a descriptor. -/
def FlashOp.read : Nat := 1
def FlashOp.program : Nat := 2
def FlashOp.erase : Nat := 3
def FlashOp.readParam : Nat := 4

/-- The stripe die that a descriptor addresses (R378). -/
def descDie (d : Line) : Nat := 16 * (cmdField d 0x05 1 % 4) + cmdField d 0x04 1 % 16

/-- The logical blocks that a descriptor acts on, in ascending plane order. -/
def descBlocks (d : Line) : List Nat :=
  if descPlanes d = 0 then [descBlock d]
  else ((List.range 4).filter (bitOf (descPlanes d))).map (descBlock d + ·)

/-- The completion status codes (R391). -/
def Fs.ok : Nat := 0x00
def Fs.uncorrectable : Nat := 0x01
def Fs.programFail : Nat := 0x02
def Fs.eraseFail : Nat := 0x03
def Fs.notErased : Nat := 0x04
def Fs.outOfOrder : Nat := 0x05
def Fs.badBlock : Nat := 0x06
def Fs.badAddress : Nat := 0x07
def Fs.badLength : Nat := 0x08
def Fs.isProtected : Nat := 0x09
def Fs.aborted : Nat := 0x0A
def Fs.dieTimeout : Nat := 0x0B
def Fs.dmaError : Nat := 0x0C

/-! ### Areas and maps (R380 to R383) -/

/-- The system dies, FC0.D0 and FC8.D0 (R381). -/
def systemDie (die : Nat) : Bool := die == 0 || die == 8

/-- Blocks of the system area that no ADMIN queue writes (R381, R397): the journal, the chain record, the tables, the
reserved ones. -/
def systemBlock (die b : Nat) : Bool := systemDie die && decide (b < 36) && (decide (2 ≤ b ∧ b < 16) || decide (28 ≤ b))

/-- Blocks that ADMIN queues program and erase: option, firmware and label blocks (R397). -/
def adminBlock (die b : Nat) : Bool :=
  systemDie die && (decide (b < 2) || decide (16 ≤ b ∧ b < 28))

/-- Spaces per die of each slot (R383). -/
def State.slotSpaces (s : State) : Nat := ceilDiv (ceilDiv s.windowPages 1016) 64

/-- Positions of the delta ring (R383). -/
def State.ringPositions (s : State) : Nat := 64 * (16104 - 2 * s.slotSpaces)

/-- The physical group of a logical group (R380, R409). -/
def State.physGroup (s : State) (die g : Nat) : Nat := s.flash.groups.getD (1024 * die + g) g

/-- The logical group that a physical group holds. -/
def State.logicalGroup (s : State) (die p : Nat) : Option Nat :=
  if s.physGroup die p = p then some p
  else ((s.flash.groups.filter (fun e => e.1 / 1024 == die && e.2 == p)).head?).map (fun e => e.1 % 1024)

/-- The physical block of a logical block (R380). -/
def State.physBlock (s : State) (die b : Nat) : Nat :=
  let p := 4 * s.physGroup die (b / 4) + b % 4
  s.flash.spares.getD (4096 * die + p) p

/-- The physical block that a descriptor's block names. -/
def State.descPhysBlock (s : State) (d : Line) (b : Nat) : Nat := if descPhys d then b else s.physBlock (descDie d) b

/-! ### The pool's contents (R357 to R359, R382) -/

/-- The bytes of a unit (R358). -/
def VaultUnit.bytes (u : VaultUnit) : List Byte :=
  let b := u.lines.flatMap bytesOfLine
  b ++ List.replicate (4096 - b.length) 0#8

/-- The unit tag (R358). -/
def VaultUnit.tag (u : VaultUnit) : Nat :=
  u.page % 2 ^ 28 + natOfBool u.patch * 2 ^ 31 + crc32c u.bytes * 2 ^ 32 + u.mask * 2 ^ 64

/-- The code of a segment's kind (R359). -/
def SegKind.code : SegKind → Nat
  | .base => 0
  | .winnow => 1
  | .dump => 2
  | .manifest => 3

/-- The trailer of a segment (R359). -/
def Segment.trailer (g : Segment) : List Byte :=
  let head := leBytes 4 0x47535053 ++ [1#8, BitVec.ofNat 8 g.kind.code] ++ leBytes 2 g.units.length ++ leBytes 8 g.seq ++
    leBytes 8 g.gen ++ leBytes 8 g.windowLen ++ leBytes 8 g.ft ++ List.replicate 24 0#8
  let tags := g.units.flatMap (fun u => leBytes 16 u.tag)
  let body := head ++ tags ++ List.replicate (0x7FD0 - head.length - tags.length) 0#8
  body ++ ShaAlg.hmac .sha384 (beBytes 48 Config.fuseSecret.toNat) body

/-- The GRANARY_CONFIG block of a configuration (R340). -/
def GrnConfig.bytes (c : GrnConfig) : List Byte :=
  leBytes 4 0x43475053 ++ [1#8] ++ leBytes 1 c.op ++ leBytes 2 0 ++ leBytes 8 c.windowLen ++ leBytes 2 c.ceiling ++
  leBytes 2 c.eReserve ++ leBytes 1 c.derate ++ leBytes 1 c.winHiPct ++ leBytes 1 c.winRate ++ [0#8] ++
  leBytes 2 c.deltaLimit ++ List.replicate 38 0#8

/-- The 4,096 bytes of a chain record with its seal (R360). -/
def ChainRecord.bytes (r : ChainRecord) : List Byte :=
  let head := leBytes 4 0x52475053 ++ [1#8] ++ leBytes 1 r.event ++ leBytes 1 r.baseSlot ++ [0#8] ++ leBytes 8 r.gen ++
    leBytes 8 r.config.windowLen ++ leBytes 8 r.chainFirst ++ leBytes 8 r.dumpFirst ++ leBytes 8 r.dumpLast ++
    leBytes 8 r.dirtyShutdowns ++ leBytes 8 r.ft ++ r.config.bytes ++ leBytes 2 r.dumps
  let body := head ++ List.replicate (0xFD0 - head.length) 0#8
  body ++ ShaAlg.hmac .sha384 (beBytes 48 Config.fuseSecret.toNat) body

/-- What the cells of a sector hold: nothing, bytes with their tag, a program cut short, or a record whose place or
bytes the manual does not give. -/
inductive SectorCells where
  | erased
  | data (bytes : List Byte) (tag : Nat)
  | torn
  | unknown

/-- Unit `u` of a segment, as its sector holds it. A trailer that is damaged is not known. -/
def Segment.sector (g : Segment) (u : Nat) : SectorCells :=
  if u < 1016 then
    match g.units[u]? with
    | some v => .data v.bytes v.tag
    | none => .erased
  else
    match g.verdict with
    | .erased => .erased
    | .verified => .data (sliceBytes g.trailer (4096 * (u - 1016)) 4096) 0
    | .damaged => .unknown

/-- The segment at a space of a die (R383). -/
def State.segmentAt (s : State) (die space : Nat) : Option Segment :=
  let n := s.slotSpaces
  if space < n then s.grn.slotA.get? (die + 64 * space)
  else if space < 2 * n then s.grn.slotB.get? (die + 64 * (space - n))
  else
    let k := die + 64 * (space - 2 * n)
    let all := s.grn.deltas ++ s.grn.sealing ++ s.grn.openSeg.toList.map (·.1)
    all.reverse.find? (fun g => g.seq % s.ringPositions == k)

/-- What a sector of the system area holds beside pages that ADMIN queues wrote (R381): pages of the journal and of the
bad-block tables; where the manual gives no place or no layout, bytes that are not known. -/
def State.systemCells (s : State) (die pb page sector : Nat) : SectorCells :=
  let part := fun (b : List Byte) => SectorCells.data (sliceBytes b (4096 * sector) 4096) 0
  let table := fun (ps : List BadPage) =>
    match ps[page]? with
    | some p => part p.bytes
    | none => .erased
  if pb < 2 then .erased
  else if pb < 10 then
    match s.journalPage (1536 * (pb - 2) + page) with
    | some (some b) => part b
    | some none => .unknown
    | none => .erased
  else if pb = 14 then table s.flash.factory
  else if pb = 15 then table (if die = 0 then s.flash.grown0 else s.flash.grown1)
  else .unknown

/-- What a sector of a physical block holds (R381, R382). -/
def State.cells (s : State) (die pb page sector : Nat) : SectorCells :=
  let key := 4096 * die + pb
  match s.flash.pages.get? (1536 * key + page) with
  | some p => .data (sliceBytes p.data (4096 * sector) 4096) ((p.tags.getD sector 0).toNat)
  | none =>
    if page < s.flash.np.getD key 0 then .torn
    else if systemDie die && decide (pb < 36) then s.systemCells die pb page sector
    else
      match s.logicalGroup die (pb / 4) with
      | some g =>
        if 671 ≤ g then .erased
        else
          match s.segmentAt die (24 * g + page / 64) with
          | some seg => seg.sector (16 * (page % 64) + 4 * (pb % 4) + sector)
          | none => .erased
      | none => .erased

/-! ### Block states and the journal (R399 to R403) -/

/-- The state of a block; one in no recorded state shows what its pages hold (R403). -/
def State.blockState (s : State) (die pb : Nat) : BlockState :=
  match s.flash.blocks.get? (4096 * die + pb) with
  | some .unread | none =>
    if systemBlock die pb then .system
    else
      let n := s.flash.np.getD (4096 * die + pb) 0
      if n = 0 then .free else if 1536 ≤ n then .full else .open_ n
  | some b => b

/-- Writes a block's state; FLV_STATUS.INCOMPLETE follows. -/
def State.setBlock (s : State) (die pb : Nat) (b : BlockState) : State :=
  let s : State := { s with flash := { s.flash with blocks := s.flash.blocks.set (4096 * die + pb) b } }
  s.set F.FLV_STATUS_INCOMPLETE (min 15 (s.flash.blocks.filter (fun p => p.2 == .incomplete)).length)

/-- The erase count of a physical group (R409). -/
def State.groupErases (s : State) (die g : Nat) : Nat := s.flash.erases.getD (1024 * die + g) 0

/-- Counts an erase of a physical group; its reads count anew (R409, R410). -/
def State.countErase (s : State) (die g : Nat) : State :=
  { s with flash := { s.flash with
      erases := s.flash.erases.set (1024 * die + g) (s.groupErases die g + 1),
      reads := s.flash.reads.set (1024 * die + g) 0 } }

/-- A journal entry about a block or a group of a die (R401). -/
def State.entry (s : State) (op die block arg : Nat) : JournalEntry :=
  { op := op, ch := die % 16, die := die / 16, block := block, arg := arg, erases := s.groupErases die (block / 4) }

/-- Drops the pages of a block. -/
def State.dropPages (s : State) (die pb : Nat) : State :=
  { s with flash := { s.flash with pages := s.flash.pages.filter (fun p => p.1 / 1536 != 4096 * die + pb) } }

/-- An erase begins: its intent is on record before the die starts (R400). -/
def State.beginErase (s : State) (die : Nat) (pbs : List Nat) : State :=
  let s := s.journal (pbs.map (fun pb => s.entry 1 die pb 0))
  pbs.foldl (fun s pb => s.setBlock die pb .erasing) s

/-- An erase cut short by a die reset: its block is INCOMPLETE and its cells hold nothing readable (R400). -/
def State.cutErase (s : State) (die pb : Nat) : State :=
  let s := (s.setBlock die pb .incomplete).dropPages die pb
  { s with flash := { s.flash with np := s.flash.np.set (4096 * die + pb) 1536 } }

/-- An erase that passed its verify: ERASE_DONE is queued, the block FREE (R400, R402). -/
def State.eraseDone (s : State) (die pb : Nat) : State :=
  let s := (s.dropPages die pb).setBlock die pb .free
  let s : State := { s with flash := { s.flash with np := s.flash.np.erase (4096 * die + pb) } }
  { s with flash := { s.flash with waitingDone := s.flash.waitingDone ++ [(s.entry 2 die pb 0, s.now)] } }

/-! ### Bad blocks and spares (R404, R405) -/

def C.flvUncorr : Counter := ⟨F.FLV_UNCORR_CNT_COUNT, F.FLV_UNCORR_CNT_SAT⟩
def C.flvGrown : Counter := ⟨F.FLV_GROWN_CNT_COUNT, F.FLV_GROWN_CNT_SAT⟩
def C.flvReloc : Counter := ⟨F.FLV_RELOC_CNT_COUNT, F.FLV_RELOC_CNT_SAT⟩
def C.flvSuspend : Counter := ⟨F.FLV_SUSPEND_CNT_COUNT, F.FLV_SUSPEND_CNT_SAT⟩

/-- The unused spares of a plane of a die, ascending (R378, R404). -/
def State.freeSpares (s : State) (die plane : Nat) : List Nat :=
  ((List.range 16).map (fun i => 2752 + 4 * i + plane)).filter (fun b =>
    !s.flash.spares.any (fun p => p.1 / 4096 == die && p.2 == b) && s.blockState die b != .bad)

/-- FLC[c].STATUS.SPARES_MIN. -/
def State.showSpares (s : State) (ch : Nat) : State :=
  let counts := (List.range 16).map (fun i => (s.freeSpares (16 * (i / 4) + ch) (i % 4)).length)
  s.setN F.FLC_STATUS_SPARES_MIN ch (counts.foldl min 16)

/-- The relief groups of a die that are whole and unused (R382, R404). -/
def State.freeRelief (s : State) (die : Nat) : List Nat :=
  let first := if systemDie die then 680 else 671
  ((List.range (688 - first)).map (first + ·)).filter (fun g =>
    s.physGroup die g == g && !s.flash.groups.any (fun p => p.1 / 1024 == die && p.2 == g) &&
    (List.range 4).all (fun i => s.blockState die (4 * g + i) != .bad))

/-- Swaps two logical groups' mappings with a GROUP_SWAP entry (R409, R410). -/
def State.swapGroups (s : State) (die a b : Nat) : State :=
  let pa := s.physGroup die a
  let pb := s.physGroup die b
  let s := s.journal [s.entry 4 die a b]
  { s with flash := { s.flash with
      groups := (s.flash.groups.put (1024 * die + a) a pb).put (1024 * die + b) b pa } }

/-- A block becomes bad with a cause (R404, R405). -/
def State.growBad (s : State) (die pb cause : Nat) : State :=
  let s := ((s.setBlock die pb .bad).journal [s.entry 3 die pb cause]).bump C.flvGrown
  if systemDie die && decide (pb < 36) then (s.writeBadTable die pb 0xFFFF cause).raise 134 0 0
  else
    match s.freeSpares die (pb % 4) with
    | b :: _ => ((s.journal [s.entry 5 die pb b]).writeBadTable die pb b cause).showSpares (die % 16)
    | [] =>
      let g := (s.logicalGroup die (pb / 4)).getD (pb / 4)
      match s.freeRelief die with
      | r :: _ => (s.swapGroups die g r).writeBadTable die pb 0xFFFF 4
      | [] =>
        let s := s.writeBadTable die pb 0xFFFF cause
        ({ s with flash := { s.flash with lostGroups := (1024 * die + g) :: s.flash.lostGroups } } : State).raiseLive
          133 0 0

/-! ### Checks (R389, R397) -/

/-- Check 1 (R389). -/
def descFieldsOk (d : Line) : Bool :=
  let op := descOp d
  decide (1 ≤ op ∧ op ≤ 4) && decide (cmdField d 1 1 < 8) && decide (cmdField d 4 1 < 16) &&
  decide (cmdField d 5 1 < 4) && decide (descBlock d < 2816) && decide (descPlanes d < 16) &&
  (descPlanes d == 0 || descBlock d % 4 == 0) && decide (descPage d < 1536) && (op != 3 || descPage d == 0) &&
  decide (descFirst d < 4) && decide (1 ≤ descSectors d ∧ descFirst d + descSectors d ≤ 4) &&
  (op != 2 || (descFirst d == 0 && descSectors d == 4)) && cmdField d 0x0D 3 == 0 && cmdField d 0x24 28 == 0

/-- DATA_LEN as R388 requires it. -/
def descLenWanted (d : Line) : Nat :=
  match descOp d with
  | 4 => 768
  | 3 => 0
  | _ => (descBlocks d).length * descSectors d * (if descRaw d then 4608 else 4096)

/-- Whether a queue may do this to a block (R397). Queue 32 is FLASH_SUBMIT's place in the ADMIN class. -/
def queuePermits (q : Nat) (d : Line) (pb : Nat) : Bool :=
  let op := descOp d
  if op = 1 || op = 4 then true
  else if q = 32 then false
  else if 20 ≤ q ∧ q < 24 then adminBlock (descDie d) pb
  else true

/-- Checks 3 to 5 of R389 on one plane. -/
def State.planeCheck (s : State) (q : Nat) (d : Line) (b : Nat) : Option Nat :=
  let die := descDie d
  let pb := s.descPhysBlock d b
  let st := s.blockState die pb
  let op := descOp d
  let lost := !descPhys d && s.flash.lostGroups.contains (1024 * die + b / 4)
  if !queuePermits q d pb then some Fs.isProtected
  else if (op = 2 || op = 3) && (lost || st == .bad || st == .system) then some Fs.badBlock
  else if op = 2 then
    match st with
    | .free => if descPage d = 0 then none else some Fs.outOfOrder
    | .open_ n => if descPage d = n then none else if descPage d < n then some Fs.notErased else some Fs.outOfOrder
    | _ => some Fs.notErased
  else none

/-- Whether every line of a device address range is mapped. -/
def State.dmaMapped (s : State) (dpa len : Nat) : Bool :=
  (List.range ((dpa % 64 + len + 63) / 64)).all (fun i => (s.decodeDpa (dpa / 64 * 64 + 64 * i)).isSome)

/-- Bytes of device memory, and whether one of their lines is poisoned. -/
def State.dmaRead (s : State) (dpa len : Nat) : List Byte × Bool :=
  (Memory.readBytes s.dram.cells dpa len,
   (List.range ((dpa % 64 + len + 63) / 64)).any (fun i => (s.dramRead (dpa / 64 * 64 + 64 * i) false).2))

/-- Writes bytes to device memory in the ENGINE class, line by line: whole lines clear poison, others are merged (R307, R316). -/
def State.dmaWrite (s : State) (dpa : Nat) (bytes : List Byte) : State :=
  let off := dpa % 64
  (List.range ((off + bytes.length + 63) / 64)).foldl (fun s i =>
    let base := dpa / 64 * 64 + 64 * i
    let lo := if i = 0 then off else 0
    let piece := sliceBytes bytes (64 * i + lo - off) (64 - lo)
    if piece.length = 64 then s.dramWrite base (BitVec.ofNat 512 (ofLeBytes piece)) false .engine 0 false
    else s.dramWriteMasked base lo piece) s

/-- Bytes of the tags of a descriptor: none where META_ADDR is 0. -/
def descTagBytes (d : Line) : Nat := (descBlocks d).length * descSectors d * 16

/-- The DMA of a descriptor: what it reads or writes is mapped, and a PROGRAM's data is not poisoned (R391). -/
def State.dmaOk (s : State) (d : Line) : Bool :=
  s.dmaMapped (descData d) (descLen d) && (descMeta d == 0 || s.dmaMapped (descMeta d) (descTagBytes d)) &&
  (descOp d != 2 || (!(s.dmaRead (descData d) (descLen d)).2 &&
    (descMeta d == 0 || !(s.dmaRead (descMeta d) (descTagBytes d)).2)))

/-- The first failing check of a descriptor (R389), then its DMA; `staged` descriptors move data outside the memory. -/
def State.descCheck (s : State) (q : Nat) (d : Line) : Option Nat :=
  if q < 20 then none
  else if !descFieldsOk d then some Fs.badAddress
  else if descLen d ≠ descLenWanted d then some Fs.badLength
  else
    match (descBlocks d).findSome? (s.planeCheck q d) with
    | some c => some c
    | none => if q = 32 || s.dmaOk d then none else some Fs.dmaError

/-! ### Completions (R390) -/

/-- The 16-byte completion. -/
def cplFlash (d : Line) (status loops sectorErr maxFlips flags dieStatus head us : Nat) : Nat :=
  descTag d + status * 2 ^ 16 + loops * 2 ^ 24 + sectorErr * 2 ^ 32 + maxFlips * 2 ^ 48 + flags * 2 ^ 64 +
  dieStatus * 2 ^ 72 + head * 2 ^ 80 + us * 2 ^ 96

/-- Writes a completion to its queue's ring in device memory (R384, R390); FLASH_SUBMIT's command completes with
FLASH_ERROR and its first 8 bytes unless it is OK, where it owes `data` to the host buffer. -/
def State.endDesc (s : State) (q : Nat) (d : Line) (status loops sectorErr maxFlips flags dieStatus start : Nat)
    (data : List Byte) : State :=
  let us := min (2 ^ 32 - 1) ((s.now - start) / 1000)
  if q = 32 then
    let e := cplFlash d status loops sectorErr maxFlips flags dieStatus 0 us
    match s.mbx.accepted.find? (fun a => a.begun && cmdOpcode a.cmd == Op.flashSubmit) with
    | some a =>
      if status = Fs.ok then s.update { a with owed := some { writes := [(cmdArg a.cmd 0, data)], code := CC.ok, result := 0 } }
      else s.complete a CC.flashError (e % 2 ^ 64)
    | none => s
  else if decide (20 ≤ q) && decide (q < 24) then
    let phase := natOfBool (!s.flash.phase0.contains q)
    let e := cplFlash d status loops sectorErr maxFlips (flags + phase) dieStatus (s.getN F.FLQ_PTRS_HEAD q) us
    let tail := s.getN F.FLQ_PTRS_CQ_TAIL q
    let next := (tail + 1) % 2 ^ max 4 (min 10 (s.getN F.FLQ_CFG_SIZE_LOG q))
    let s := s.dmaWrite (s.getN F.FLQ_CQ_BASE_BASE q * 4096 + 16 * tail) (leBytes 16 e)
    let s := s.setN F.FLQ_PTRS_CQ_TAIL q next
    let flipped := if s.flash.phase0.contains q then s.flash.phase0.filter (· ≠ q) else q :: s.flash.phase0
    if next = 0 then { s with flash := { s.flash with phase0 := flipped } } else s
  else s

/-! ### Dies (R385, R386) -/

/-- The class of a queue (R384), most urgent first: GUARD 0, RESTORE 1, WINNOW 2, ADMIN 3, UPKEEP 4. -/
def queueClass (q : Nat) : Nat :=
  if q < 8 then 0 else if q < 12 then 1 else if q < 20 then 2 else if q < 24 ∨ q = 32 then 3 else 4

/-- The page that a queued fetch reads: the fetches of queues 4 to 11 carry it in their reserved bytes (R384). -/
def fetchPage (q : Nat) (d : Line) : Option Nat := if q < 12 then some (cmdField d 0x24 8 - 1) else none

/-- The descriptors that wait for a die: the READs of a fetch that was abandoned do not (R363, R367). -/
def State.waitingDescs (s : State) : List (Nat × Line) :=
  s.flash.fetched.filter (fun p => (fetchPage p.1 p.2).all (fun page => s.grn.fetches.any (fun f => f.page == page)))

/-- Writes what a die runs and holds suspended; FLC[c].STATUS.BUSY and SUSP follow. -/
def State.setDie (s : State) (die : Nat) (run held : Option DieOp) : State :=
  let upd := fun (m : Store DieOp) (o : Option DieOp) => match o with
    | some x => m.set die x
    | none => m.erase die
  let s : State := { s with flash := { s.flash with running := upd s.flash.running run, held := upd s.flash.held held } }
  let c := die % 16
  let s := s.setN F.FLC_STATUS_BUSY c (putBits (s.getN F.FLC_STATUS_BUSY c) (die / 16) 1 (natOfBool (run.isSome || held.isSome)))
  s.setN F.FLC_STATUS_SUSP c (putBits (s.getN F.FLC_STATUS_SUSP c) (die / 16) 1 (natOfBool held.isSome))

/-- Ends a program or an erase by a die reset (R400): an erase leaves its blocks INCOMPLETE. -/
def State.cutOp (s : State) (die : Nat) (o : DieOp) : State :=
  if descOp o.desc = 3 then
    ((descBlocks o.desc).map (s.descPhysBlock o.desc)).foldl (fun s pb => s.cutErase die pb) s
  else if descOp o.desc = 2 then
    ((descBlocks o.desc).map (s.descPhysBlock o.desc)).foldl (fun s pb => s.setBlock die pb .unread) s
  else s

/-- The flash controller at a reset (R387, R400, R402, R403, R405, R410): operations end; a block with an erase intent and
no ERASE_DONE on record is INCOMPLETE, one that is INCOMPLETE stays so, the blocks of the bad-block table in force are BAD and
give the spare map, and any other block is in no recorded state. -/
def State.resetFlash (s : State) : State :=
  let lost := s.flash.waitingDone.map (fun p => 4096 * (16 * p.1.die + p.1.ch) + p.1.block)
  let cut := ((s.flash.blocks.filter (fun p => p.2 == .erasing)).map (·.1)) ++ lost
  let table := s.badTable.2
  let kept := table.foldl (fun (m : Store BlockState) e => m.set (4096 * e.stripe + e.block) .bad)
    (s.flash.blocks.filter (fun p => p.2 == .incomplete))
  let s : State := { s with flash := { s.flash with
      blocks := kept, spares := spareMap table, running := [], held := [], fetched := [], phase0 := [], lastQueue := [], waitingDone := [],
      relocate := [], uncorrectable := [], reads := [], off := false } }
  cut.foldl (fun s k => s.cutErase (k / 4096) (k % 4096)) s

/-- A waiting GUARD program finds a die with a less urgent erase, running or suspended: the erase is ended by a die
reset and its block becomes INCOMPLETE (R386). -/
def State.guardWrite (s : State) (die : Nat) : State :=
  let less := fun (o : DieOp) => descOp o.desc == 3 && queueClass o.queue != 0
  let cut := fun (s : State) (o : DieOp) => (s.cutOp die o).endDesc o.queue o.desc Fs.aborted 0 0 0 0 0 o.start []
  let s := match s.flash.held.get? die with
    | some o => if less o then (cut s o).setDie die (s.flash.running.get? die) none else s
    | none => s
  match s.flash.running.get? die with
  | some o => if less o then (cut s o).setDie die none (s.flash.held.get? die) else s
  | none => s

end Sys2Proof.Machine
end

