-- ==== Sys2Proof/Machine/GrnOps.lean ====
section
/-!
DEFINITION. Operations of the Granary that several commands share (R340 to R377): acceptance of lines and
reservations, the vault chain, chain records, losses, fetches, and the ways out of a dump.
-/

namespace Sys2Proof.Machine

def C.grnThrottle : Counter := ⟨F.GRN_THROTTLE_CNT_COUNT, F.GRN_THROTTLE_CNT_SAT⟩
def C.hlThrottle : Counter := ⟨F.HL_THROTTLE_CNT_COUNT, F.HL_THROTTLE_CNT_SAT⟩
def C.winCopy : Counter := ⟨F.WIN_COPY_CNT_COUNT, F.WIN_COPY_CNT_SAT⟩
def C.winRedirty : Counter := ⟨F.WIN_REDIRTY_CNT_COUNT, F.WIN_REDIRTY_CNT_SAT⟩
def C.rstFetch : Counter := ⟨F.RST_FETCH_CNT_COUNT, F.RST_FETCH_CNT_SAT⟩
def C.grnDump : Counter := ⟨F.GRN_DUMP_CNT_COUNT, F.GRN_DUMP_CNT_SAT⟩

def C.dgeUnit : Counter := ⟨F.DGE_UNIT_CNT_COUNT, F.DGE_UNIT_CNT_SAT⟩

/-- The units of an HMAC-SHA-384 over `len` bytes: the padded message and the outer block (R418, R420). -/
def hmacUnits (len : Nat) : Nat := (len + 17 + 127) / 128 + 1

/-- Seals or verifications of the Granary logic take context 6 or 7 and are over within their command (R432). -/
def State.sealUnits (s : State) (len times : Nat) : State := s.bumpTimes C.dgeUnit (hmacUnits len * times)

/-- Pages of a segment (R358). -/
def segPages : Nat := 1016

/-! ### The vault's space (R357, R383) -/

/-- Positions of the delta ring (R383), less the spaces of groups lost for want of relief groups (R404). -/
def State.ringSize (s : State) : Nat := s.ringPositions - 24 * s.flash.lostGroups.length

/-- The chain record in force: the valid record of the highest GEN in either copy (R360). -/
def State.chainRecord (s : State) : Option ChainRecord :=
  match s.grn.rec0.head?, s.grn.rec1.head? with
  | some a, some b => if a.gen < b.gen then some b else some a
  | some a, none => some a
  | none, b => b

/-- CHAIN_FIRST of the record in force. -/
def State.chainFirst (s : State) : Nat := (s.chainRecord.map (·.chainFirst)).getD 0

/-- The delta segments of the chain, in SEQ order (R361). -/
def State.chainDeltas (s : State) : List Segment := s.grn.deltas.filter (fun g => decide (s.chainFirst ≤ g.seq))

/-- Ring positions in use: the chain, and segments written and not yet read back. -/
def State.ringUsed (s : State) : Nat :=
  s.chainDeltas.length + s.grn.sealing.length + (if s.grn.openSeg.isSome then 1 else 0)

/-- VAULT_FREE in bytes: the data capacity of the ring that is erased or reclaimable (R350). -/
def State.vaultFree (s : State) : Nat := (s.ringSize - s.ringUsed) * segPages * 4096

/-- The delta segments of the chain in GiB, 4 MiB each (R355). -/
def State.deltaGib (s : State) : Nat := s.chainDeltas.length / 256

/-- Brings the fields of VLT_CHAIN that follow the ring up to date. -/
def State.chainFields (s : State) : State :=
  (s.set F.VLT_CHAIN_FREE_GIB (s.vaultFree / 2 ^ 30)).set F.VLT_CHAIN_DELTA_GIB (min 4095 s.deltaGib)

/-! ### Levels of the winnower and the budget (R351 to R353) -/

/-- DIRTY_BYTES (R346). -/
def State.dirtyBytes (s : State) : Nat := s.grn.dirty.count * 4096

/-- Seals the open segment: its trailer is to be written and read back (R353, R354). -/
def State.sealOpen (s : State) : State :=
  match s.grn.openSeg with
  | some (g, _) => { s with grn := { s.grn with openSeg := none, sealing := s.grn.sealing ++ [g] } }
  | none => s

/-- The high level begins above WIN_HI_PCT percent of BUDGET and ends at 10 percent less, which seals the open
segment (R353); source 97's condition is DIRTY_BYTES above BUDGET (R352). -/
def State.levels (s : State) : State :=
  let d := s.dirtyBytes
  let pct := s.grn.config.winHiPct
  let s := if s.grn.budget < d then s.raiseLive 97 0 0 else s.clearLive 97
  if pct * s.grn.budget < d * 100 then s.set F.GOV_STATUS_HIGH 1
  else if d * 100 ≤ (pct - 10) * s.grn.budget && s.flag F.GOV_STATUS_HIGH then
    (s.set F.GOV_STATUS_HIGH 0).sealOpen
  else s

/-! ### Acceptance (R343, R344, R351) -/

/-- Lines that the landing buffer holds at most: half of it holds the restore map during a restore (R343). -/
def State.landingCapacity (s : State) : Nat := if s.grn.unrestored.isEmpty then 1048576 else 524288

/-- A reservation can be granted (R344, R351). -/
def State.canReserve (s : State) : Bool :=
  s.grnServes && !s.grn.closed && !s.latched &&
  decide (s.dirtyBytes + 4096 * s.grn.reserved < s.grn.budget) &&
  decide (s.grn.landing.length + s.grn.reserved < s.landingCapacity)

/-- Wakes the rank that holds a page (R330). -/
def State.wakePage (s : State) (page : Nat) : State :=
  match s.decodeDpa (grnBase + 4096 * page) with
  | some a => s.wakeRank a.ch a.rank
  | none => s

/-- The landing buffer accepts a line of the window, which makes it durable: the page's dirty bit sets on the same
edge, and a copy of the page in flight has been overtaken (R343, R346, R354). -/
def State.acceptLine (s : State) (line : Nat) (data : Line) (poison : Bool) : State :=
  let page := line / 64
  let fresh := !s.grn.dirty.mem page
  let s := (s.injectAny 0 0 0 [107, 108]).2
  let s : State := { s with grn := { s.grn with
      landing := s.grn.landing ++ [LandLine.mk line data poison],
      dirty := s.grn.dirty.insert page,
      inflight := s.grn.inflight.map (fun p => if p.1 = page then (p.1, true) else p) } }
  (if fresh then s.wakePage page else s).levels

/-- A completion of the CXL mailbox, with vector 4 (R79). -/
def State.cxlReply (s : State) (opcode code : Nat) (payload : List Byte) : State :=
  (s.toLink (.cxlReply opcode code payload)).signal 4

/-- What an accepted write of the link answers (R72, R83). -/
def State.answerCxl (s : State) : CxlAnswer → State
  | .cmp hpa => s.toLink (.cxlCmp hpa)
  | .reply opcode => s.cxlReply opcode 0 []

/-- A write of the window at the link (R31, R72, R76): accepted and answered at once where a reservation can be granted, else
it waits ahead of the link. -/
def State.cxlWindowWrite (s : State) (w : CxlWait) : State :=
  if s.canReserve && s.grn.waiters.isEmpty then (s.acceptLine w.line w.data w.poison).answerCxl w.answer
  else
    ({ s with link := { s.link with waiting := s.link.waiting ++ [w] },
              grn := { s.grn with waiters := s.grn.waiters ++ [Waiter.cxl] } } : State).bump C.hlThrottle

/-- Takes a reservation already granted to a waiter. -/
def State.useGrant (s : State) (w : Waiter) : State :=
  { s with grn := { s.grn with granted := s.grn.granted.erase w, reserved := s.grn.reserved - 1 } }

/-- A write of a line by an engine task or a mailbox command: with its reservation, or with one granted at once; none
when it must wait (R344, R351). -/
def State.tryLine (s : State) (w : Waiter) (line : Nat) (data : Line) (poison : Bool) : Option State :=
  if s.grn.granted.contains w && !s.grn.closed then some ((s.useGrant w).acceptLine line data poison)
  else if s.canReserve && s.grn.waiters.isEmpty then some (s.acceptLine line data poison)
  else none

/-- A write waits for a reservation; each that waits is counted (R351). -/
def State.waitLine (s : State) (w : Waiter) : State :=
  if s.grn.waiters.contains w then s
  else ({ s with grn := { s.grn with waiters := s.grn.waiters ++ [w] } } : State).bump C.grnThrottle

/-- A waiter that has gone leaves the queue and gives a granted reservation back. -/
def State.dropWaiter (s : State) (w : Waiter) : State :=
  let s := if s.grn.granted.contains w then s.useGrant w else s
  { s with grn := { s.grn with waiters := s.grn.waiters.filter (fun x => x != w) } }

/-- The newest copy of a line in the landing buffer. -/
def State.landed (s : State) (line : Nat) : Option LandLine := s.grn.landing.reverse.find? (fun l => l.line == line)

/-- A line of the window as a reader sees it: from the landing buffer if resident, else from the DIMMs (R73). -/
def State.windowLine (s : State) (line : Nat) : Line × Bool :=
  match s.landed line with
  | some l => (l.data, l.poison)
  | none => s.dramRead (grnBase + 64 * line) true

/-- The 64 lines of a page read through the landing buffer (R354). -/
def State.windowPage (s : State) (page : Nat) : List (Line × Bool) :=
  (List.range 64).map (fun i => s.windowLine (64 * page + i))

/-- The poison mask of a page's lines. -/
def poisonMask (ls : List (Line × Bool)) : Nat :=
  ((List.range ls.length).zip ls).foldl (fun m p => if p.2.2 then m + 2 ^ p.1 else m) 0

/-- A page as a full unit (R358). -/
def fullUnit (page : Nat) (ls : List (Line × Bool)) : VaultUnit :=
  { page := page, patch := false, mask := poisonMask ls, lines := ls.map (·.1), bad := 0 }

/-- The lines waiting for an unrestored page, as a patch unit (R363). -/
def State.patchUnit (s : State) (page : Nat) : VaultUnit :=
  let ls := (List.range 64).map (fun i => s.landed (64 * page + i))
  let bit := fun (q : LandLine → Bool) => ((List.range 64).zip ls).foldl (fun m p =>
    match p.2 with
    | some l => if q l then m + 2 ^ p.1 else m
    | none => m) 0
  { page := page, patch := true, mask := bit (fun _ => true),
    lines := ls.map (fun o => (o.map (·.data)).getD 0), bad := bit (·.poison) }

/-! ### Segments and the chain's content (R359, R361) -/

/-- A segment as it is opened: it takes the next sequence number (R361). -/
def State.newSegment (s : State) (kind : SegKind) (units : List VaultUnit) (verdict : SealState) : Segment :=
  { seq := s.grn.nextSeq, kind := kind, gen := (s.chainRecord.map (·.gen)).getD 0, windowLen := s.grn.config.windowLen,
    ft := s.ftCopy, units := units, verdict := verdict }

/-- The groups of the slot not in use that hold nothing (R409, R410). -/
def State.idleSlotGroups (s : State) : List Nat :=
  let n := s.slotSpaces
  let inside := fun (lo hi : Nat) => ((List.range (hi / 24)).filter (fun g => decide (lo ≤ 24 * g)))
  let base := (s.chainRecord.map (·.baseSlot)).getD 0
  (if base != 1 && s.grn.slotA.isEmpty then inside 0 n else []) ++
  (if base != 2 && s.grn.slotB.isEmpty then inside n (2 * n) else [])

/-- Erased spare groups of a die, relief groups first (R410). -/
def State.spareGroups (s : State) (die : Nat) : List Nat := s.freeRelief die ++ s.idleSlotGroups

/-- Wear levelling (R409): an erased ring group whose count exceeds the lowest of the spare groups by WL_GAP changes
places with it; not while a restore is in progress, nor from a power-fail detection on (R33, R34). -/
def State.wearLevel (s : State) (die g : Nat) : State :=
  let gap := s.get F.FLV_CTL_WL_GAP
  if gap = 0 || !s.grn.unrestored.isEmpty || !s.backgroundRuns then s
  else
    let count := fun (x : Nat) => s.groupErases die (s.physGroup die x)
    match s.spareGroups die with
    | [] => s
    | a :: rest =>
      let low := rest.foldl (fun m x => if count x < count m then x else m) a
      if count low + gap < count g then s.swapGroups die g low else s

/-- As a segment takes its position, the next 64 positions of the ring are erased: the ring group that begins 64 positions on
is erased on every pass over the ring but the first (R357, R409). -/
def State.openPosition (s : State) (seq : Nat) : State :=
  let k := (seq + 64) % s.ringPositions
  let space := 2 * s.slotSpaces + k / 64
  if s.ringPositions ≤ seq + 64 && space % 24 == 0 then
    (s.countErase (k % 64) (s.physGroup (k % 64) (space / 24))).wearLevel (k % 64) (space / 24)
  else s

/-- Whether a GUARD or RESTORE descriptor waits for a die, and so goes before the winnower (R354, R385). -/
def State.urgentWaits (s : State) (die : Nat) : Bool :=
  s.waitingDescs.any (fun p => descDie p.2 == die && decide (queueClass p.1 ≤ 1))

/-- Writes and seals a whole delta segment, in the GUARD class (R386). -/
def State.writeSegment (s : State) (kind : SegKind) (units : List VaultUnit) : State :=
  let s := (s.openPosition s.grn.nextSeq).guardWrite (s.grn.nextSeq % s.ringPositions % 64)
  let g := s.newSegment kind units .verified
  let s := s.sealUnits 32720 1
  { s with grn := { s.grn with deltas := s.grn.deltas ++ [g], nextSeq := s.grn.nextSeq + 1 } }.chainFields

/-- The content of a page while the chain is read: its lines, and whether a damaged copy is newer. -/
structure PageRead where
  lines : List (Line × Bool)
  damaged : Bool

/-- Reads one unit over what older copies gave (R361). -/
def PageRead.over (r : PageRead) (u : VaultUnit) : PageRead :=
  let ls := (List.range 64).map (fun i => (u.lines.getD i 0, bitOf (if u.patch then u.bad else u.mask) i))
  if u.patch then
    { r with lines := (List.range 64).map (fun i => if bitOf u.mask i then ls.getD i (0, false) else r.lines.getD i (0, false)) }
  else { lines := ls, damaged := false }

/-- The base copy of a page: zeros for a ZERO base; none when its base segment is missing or damaged (R357, R361). -/
def State.basePage (s : State) (page : Nat) : Option PageRead :=
  let zero : PageRead := { lines := List.replicate 64 (0, false), damaged := false }
  match s.chainRecord.map (·.baseSlot) with
  | some 1 => (s.grn.slotA.get? (page / segPages)).bind (fun g =>
      if g.verdict = .verified then (g.units.find? (fun u => u.page == page)).map zero.over else none)
  | some 2 => (s.grn.slotB.get? (page / segPages)).bind (fun g =>
      if g.verdict = .verified then (g.units.find? (fun u => u.page == page)).map zero.over else none)
  | _ => some zero

/-- Reads a page through one delta segment: units of a sealed segment apply, a damaged one spoils, an unsealed one is
ignored (R361). -/
def PageRead.through (r : PageRead) (page : Nat) (g : Segment) : PageRead :=
  if g.kind = .manifest then r
  else
    match g.units.find? (fun u => u.page == page) with
    | some u =>
      match g.verdict with
      | .verified => r.over u
      | .damaged => { r with damaged := true }
      | .erased => r
    | none => r

/-- A page's content from the chain; none when a copy it needs is damaged or missing (R361). -/
def State.chainPage (s : State) (page : Nat) : Option (List (Line × Bool)) :=
  let start : PageRead := (s.basePage page).getD { lines := List.replicate 64 (0, true), damaged := true }
  let r := s.chainDeltas.foldl (fun r g => r.through page g) start
  if r.damaged then none else some r.lines

/-- The dumps that have a DUMP_OPEN record and no DUMP_SEALED record (R361). -/
def State.unsealedDumps (s : State) : List ChainRecord :=
  let all := s.grn.rec0 ++ s.grn.rec1
  all.filter (fun r => r.event == 2 && !all.any (fun q => q.event == 3 && q.dumpFirst == r.dumpFirst && decide (r.gen < q.gen)))

/-- The pages that a manifest segment names: bit i of block b is page 32768 b + i (R363). -/
def manifestPages (g : Segment) : List Nat :=
  g.units.flatMap (fun u =>
    (List.range 32768).filterMap (fun i =>
      if bitOf (u.lines.getD (i / 512) 0).toNat (i % 512) then some (u.page * 32768 + i) else none))

/-- Whether a page has a sealed copy at or above a sequence number. -/
def State.sealedFrom (s : State) (page seq : Nat) : Bool :=
  s.chainDeltas.any (fun g => g.kind != .manifest && g.verdict == .verified && decide (seq ≤ g.seq) &&
    g.units.any (fun u => u.page == page))

/-- Pages lost with an unsealed dump (R361). -/
def State.unsealedLost (s : State) : List Nat :=
  s.unsealedDumps.flatMap (fun r =>
    ((s.chainDeltas.filter (fun g => g.kind == .manifest && g.gen == r.gen && g.verdict == .verified)).flatMap
      manifestPages).filter (fun p => !s.sealedFrom p r.dumpFirst))

/-- Pages whose newest copy lies in a damaged delta segment (R361). -/
def State.damagedLost (s : State) : List Nat :=
  ((s.chainDeltas.filter (fun g => g.verdict == .damaged)).flatMap (fun g => g.units.map (·.page))).filter
    (fun p => (s.chainPage p).isNone)

/-! ### Losses (R375) -/

/-- A lost page is counted, with its cause; the first of a restore raises source 102 and counts a dirty shutdown. -/
def State.recordLoss (s : State) (cause : Field) (page : Nat) : State :=
  let n := s.get F.GRN_LOSS_PAGES
  let first := if n = 0 then page else min page (s.get F.GRN_LOSS_FIRST_PAGE)
  let s := ((s.set F.GRN_LOSS_PAGES (min (2 ^ 48 - 1) (n + 1))).set F.GRN_LOSS_FIRST_PAGE first).set cause 1
  let s := { s with grn := { s.grn with
    lost := s.grn.lost.insert page, poisonPages := s.grn.poisonPages.insert page,
    unsealed := if cause.id = F.GRN_LOSS_UNSEALED.id then s.grn.unsealed.insert page else s.grn.unsealed } }
  if s.flag F.GRN_STATE_LOSS then s
  else
    let s := s.set F.GRN_STATE_LOSS 1
    { s with grn := { s.grn with dirtyShutdowns := s.grn.dirtyShutdowns + 1 } }.raise 102 0 0

/-- LOCATING begins: GRN_LOSS is cleared (R375). -/
def State.clearLoss (s : State) : State :=
  let s := s.setAll [(F.GRN_LOSS_UNSEALED, 0), (F.GRN_LOSS_SEGMENT, 0), (F.GRN_LOSS_PAGE, 0), (F.GRN_LOSS_CHANNEL, 0),
    (F.GRN_LOSS_PAGES, 0), (F.GRN_LOSS_FIRST_PAGE, 0), (F.GRN_STATE_LOSS, 0)]
  { s with grn := { s.grn with lost := [], unsealed := [], poisonPages := [] } }

/-! ### Chain records (R360, R377) -/

/-- A blank record, from which the first one is made. -/
def State.blankRecord (s : State) : ChainRecord :=
  { event := 0, baseSlot := 0, gen := 0, chainFirst := s.grn.nextSeq, dumpFirst := 0, dumpLast := 0, dirtyShutdowns := 0,
    ft := 0, config := s.grn.config, dumps := 0 }

/-- The fields of GRN_STATE, VLT_CHAIN, GRN_WINDOW and GOV_CFG that show the record in force (R370). -/
def State.showRecord (s : State) (r : ChainRecord) : State :=
  (s.setAll [(F.GRN_STATE_DELTAS, r.dumps), (F.GRN_STATE_BASE_SLOT, r.baseSlot), (F.VLT_CHAIN_GEN, r.gen),
    (F.GRN_WINDOW_MIB, r.config.windowLen / 2 ^ 20), (F.GOV_CFG_CEILING_GIB, r.config.ceiling),
    (F.GOV_CFG_E_RESERVE_J, r.config.eReserve), (F.GOV_CFG_DERATE, r.config.derate),
    (F.GOV_CFG_WIN_HI_PCT, r.config.winHiPct), (F.GOV_CFG_WIN_RATE, r.config.winRate),
    (F.GOV_CFG_DELTA_LIMIT_GIB, r.config.deltaLimit)]).chainFields

/-- Writes a chain record made from the one in force: GEN one higher, to copy 0 and then copy 1 (R360). Neither copy
verifying is a FATAL-PERSIST event (R377). The result tells whether some copy verified. -/
def State.writeRecord (s : State) (event : Nat) (f : ChainRecord → ChainRecord) (w : CopyResult) : Bool × State :=
  let prev := s.chainRecord.getD s.blankRecord
  let base : ChainRecord := { prev with
    event := event, gen := prev.gen + 1, dumpFirst := 0, dumpLast := 0, dirtyShutdowns := s.grn.dirtyShutdowns,
    ft := s.ftCopy, config := s.grn.config }
  let r := f base
  let s := s.sealUnits 4048 3
  match w with
  | .neither _ => (false, s.raise 105 0 0)
  | .one c =>
    let s := if c then { s with grn := { s.grn with rec1 := r :: s.grn.rec1 } }
      else { s with grn := { s.grn with rec0 := r :: s.grn.rec0 } }
    (true, s.showRecord r)
  | .both =>
    let s := { s with grn := { s.grn with rec0 := r :: s.grn.rec0, rec1 := r :: s.grn.rec1 } }
    (true, s.showRecord r)

/-! ### Fetches and restore (R372 to R374) -/

/-- The segment, the space and the unit that hold a page's newest copy (R361, R383). -/
def State.pagePlace (s : State) (page : Nat) : Option (Nat × Nat × Nat) :=
  let delta := s.chainDeltas.reverse.findSome? (fun g =>
    if g.kind == .manifest || g.verdict != .verified then none
    else
      let u := g.units.findIdx (fun v => v.page == page)
      let k := g.seq % s.ringPositions
      if u < g.units.length then some (k % 64, 2 * s.slotSpaces + k / 64, u) else none)
  match delta with
  | some x => some x
  | none =>
    let k := page / 1016
    match s.chainRecord.map (·.baseSlot) with
    | some 1 => some (k % 64, k / 64, page % 1016)
    | some 2 => some (k % 64, s.slotSpaces + k / 64, page % 1016)
    | _ => none

/-- The READ descriptor of a fetch: one sector, the page's number in its reserved bytes (R373, R384). -/
def fetchDesc (page : Nat) (place : Nat × Nat × Nat) : Line :=
  let die := place.1
  let space := place.2.1
  let u := place.2.2
  BitVec.ofNat 512 (1 + die % 16 * 2 ^ 32 + die / 16 * 2 ^ 40 + (4 * (space / 24) + u / 4 % 4) * 2 ^ 48 +
    (64 * (space % 24) + u / 16) * 2 ^ 64 + u % 4 * 2 ^ 80 + 2 ^ 88 + 4096 * 2 ^ 256 + (page + 1) * 2 ^ 288)

/-- A fetch's READ waits at its die, in queues 4 to 7 on demand and 8 to 11 in the background (R384). A page whose copy
is the ZERO base is read from no flash. -/
def State.queueFetch (s : State) (page : Nat) (onDemand : Bool) : State :=
  match s.pagePlace page with
  | some place =>
    let q := (if onDemand then 4 else 8) + place.1 % 4
    { s with flash := { s.flash with fetched := s.flash.fetched ++ [(q, fetchDesc page place)] } }
  | none => s

/-- The READs of a page's fetch are over. -/
def State.dropFetch (s : State) (page : Nat) : State :=
  let mine := fun (q : Nat) (d : Line) => fetchPage q d == some page
  let s : State := { s with flash := { s.flash with fetched := s.flash.fetched.filter (fun p => !mine p.1 p.2) } }
  (s.flash.running.filter (fun p => mine p.2.queue p.2.desc)).foldl (fun s p =>
    s.setDie p.1 none (s.flash.held.get? p.1)) s

/-- A fault on an unrestored page: an on-demand fetch starts, or the fault joins one in progress (R373). -/
def State.demandFetch (s : State) (page : Nat) : State :=
  if s.grn.fetches.any (fun f => f.page == page) then s
  else
    let s : State := { s with grn := { s.grn with fetches := s.grn.fetches ++ [Fetch.mk page true] } }
    (s.queueFetch page true).bump C.rstFetch

/-- The Granary can fetch pages on demand: LAZY, or DUMPING and SEALED without a power failure (R368, R372). In HELD after a
channel service dump reads are served (R369); that a page still unrestored is fetched there too, as in SEALED, is a DESIGN
CHOICE, log entry 174. -/
def State.canFetch (s : State) : Bool :=
  (s.grnState == Grn.lazy || s.grnState == Grn.dumping || s.grnState == Grn.sealed ||
    (s.grnState == Grn.heldState && s.grn.channelDump)) && !s.pwr.failed

/-- The DPAs of a page's lines that are read from DRAM. -/
def State.pageDpas (s : State) (page : Nat) : List Nat :=
  (List.range 64).filterMap (fun i => if (s.landed (64 * page + i)).isSome then none else some (grnBase + 4096 * page + 64 * i))

/-- The reads of a page by the Granary logic or the winnower take their places in the bank queues (R307). -/
def State.queuePage (s : State) (cls : DramClass) (page : Nat) : State := s.queueLines (s.pageDpas page) cls (.read none) 0

/-- Writes a page's restored content to DRAM in the GUARD class, where its channel serves (R307, R327). -/
def State.writePage (s : State) (page : Nat) (ls : List (Line × Bool)) : State :=
  ((List.range 64).zip ls).foldl (fun s p =>
    let dpa := grnBase + 4096 * page + 64 * p.1
    s.dramWrite dpa p.2.1 p.2.2 .guard 0 true) s

/-- Queues a CXL.mem read of a DPA, or answers it poisoned where nothing serves the address (R315). -/
def State.cxlReadDram (s : State) (dpa tag : Nat) : State :=
  if s.dpaServes dpa false then s.queueDram dpa .host (.cxlRead tag) 0 else s.toLink (.cxlData tag 0 true)

/-- Answers the CXL.mem reads that waited for a page (R73, R372). -/
def State.answerReads (s : State) (page : Nat) : State :=
  let mine := s.link.reads.filter (fun r => r.2 / 4096 == page)
  let s := { s with link := { s.link with reads := s.link.reads.filter (fun r => r.2 / 4096 != page) } }
  mine.foldl (fun s r =>
    match s.landed (r.2 / 64) with
    | some l => s.toLink (.cxlData r.1 l.data l.poison)
    | none => s.cxlReadDram (grnBase + r.2) r.1) s

/-- The state of service: LAZY while the restore map marks pages unrestored, READY otherwise (R364, R368). -/
def State.serviceState (s : State) : Nat := if s.grn.unrestored.isEmpty then Grn.ready else Grn.lazy

/-- A rebase starts in READY once the delta segments total DELTA_LIMIT (R355): the open segment is sealed and S is the
next sequence number. -/
def State.startRebase (s : State) : State :=
  if s.grnState = Grn.ready && s.grn.rebase.isNone && decide (s.grn.config.deltaLimit ≤ s.deltaGib) && !s.grn.closed then
    let s := s.sealOpen
    let slot := if (s.chainRecord.map (·.baseSlot)) = some 1 then 2 else 1
    let g := { s.newSegment .base [] .erased with seq := 0 }
    ({ s with grn := { s.grn with
        rebase := some { slot := slot, nextPage := 0, seqS := s.grn.nextSeq, seg := g, done := [] } } }).set
      F.WIN_STATUS_REBASE_SEG 0
  else s

/-- Return to service with DRAM held (R364, R368, R370): HELD after a channel service dump, else LAZY or READY with
ingress open and a paused migration going on (R367). -/
def State.returnToService (s : State) : State :=
  let s := [0, 1, 2, 3].foldl (fun s ch => s.setN F.DMC_MIGRATE_PAUSED ch 0) s
  if s.grn.channelDump then (s.set F.GRN_STATE_CAUSE 3).setGrn Grn.heldState
  else ({ s with grn := { s.grn with closed := false } }.setGrn s.serviceState).startRebase

end Sys2Proof.Machine
end

