-- ==== Sys2Proof/Machine/Dma.lean ====
section
/-!
DEFINITION. The translation unit and bus-master DMA (R271 to R300): the IOTLB, the device page table, host
translations, and the reads and writes that tasks make of the three address spaces.
-/

namespace Sys2Proof.Machine

/-! ### The engine's parts -/

/-- A task by its number. -/
def State.task? (s : State) (id : Nat) : Option Task := s.eng.tasks.find? (fun t => t.id == id)

/-- Writes a task back. -/
def State.setTask (s : State) (t : Task) : State :=
  s.mapEng (fun e => { e with tasks := e.tasks.map (fun u => if u.id = t.id then t else u) })

/-- A tiller that is idle and holds nothing. -/
def Tiller.blank : Tiller := { task := none, idleAt := 0, fresh := false, read := none }

/-- A tiller. -/
def State.tiller (s : State) (n : Nat) : Tiller := s.eng.tillers.getD n Tiller.blank

/-- Writes a tiller. -/
def State.setTiller (s : State) (n : Nat) (x : Tiller) : State :=
  s.mapEng (fun e => { e with tillers := e.tillers.put n Tiller.blank x })

/-- The plan in a slot. -/
def State.plan? (s : State) (slot : Nat) : Option Plan := s.eng.plans.get? slot

/-- Writes the plan in a slot. -/
def State.setPlan (s : State) (slot : Nat) (p : Plan) : State :=
  s.mapEng (fun e => { e with plans := e.plans.set slot p })

/-! ### Registers and counters -/

/-- Pairs and loaded plans that use a context (R274). -/
def State.ctxUsers (s : State) (n : Nat) : Nat :=
  ((List.range 64).filter (fun p => s.getN F.MBX_STATE_STATE p != 0 && s.getN F.MBX_STATE_CTX p == n)).length +
  (s.eng.plans.filter (fun p => p.2.ctx == n)).length

/-! ### The device page table (R278) -/

/-- The entry that a level of the walk reads: poisoned, or its 64 bits. -/
def State.pte (s : State) (table idx : Nat) : Option Nat :=
  let a := table + 8 * idx
  let l := s.dramRead (a / 64 * 64) false
  if l.2 then none else some (l.1.toNat / 2 ^ (8 * (a % 64)) % 2 ^ 64)

/-- The walk from a level down: the leaf's page frame, its size, and whether it may be written. -/
def State.devWalk (s : State) (va : Nat) : Nat → Nat → Except (Nat × Nat) (Nat × Nat × Bool)
  | 0, _ => .error (DmaErr.devUnmapped, 1)
  | l + 1, table =>
    let level := l + 1
    let shift := 12 + 9 * l
    match s.pte table (va / 2 ^ shift % 512) with
    | none => .error (DmaErr.poison, 2)
    | some e =>
      let leaf := bitOf e 2
      let addr := bitsOf e 51 12 * 4096
      if !bitOf e 0 then .error (DmaErr.devUnmapped, level)
      else if bitsOf e 63 52 ≠ 0 || bitsOf e 11 3 ≠ 0 || (leaf && (level == 4 || addr % 2 ^ shift != 0)) ||
          (!leaf && level == 1) then .error (DmaErr.pteInvalid, level)
      else if leaf then .ok (addr / 4096, 9 * l, bitOf e 1)
      else s.devWalk va l addr

/-- The device physical address of a device virtual one, through the IOTLB (R272, R278, R282). -/
def State.devAddr (s : State) (va : Nat) (write : Bool) : State × Dma Nat :=
  let page := va / 4096
  let place := fun (e : TlbEntry) => (e.frame + (page - e.page)) * 4096 + va % 4096
  match s.tlbLookup .device page with
  | (some e, s) => if write && !e.write then (s, .stop DmaErr.devPerm 0) else (s, .ok (place e))
  | (none, s) =>
    match s.devWalk va 4 (s.get F.TLU_DPT_ROOT_ROOT * 4096) with
    | .error e => (s, .stop e.1 e.2)
    | .ok (frame, log, w) =>
      let e : TlbEntry := {
        kind := .device, page := page / 2 ^ log * 2 ^ log, log := log, frame := frame, read := true, write := w }
      if write && !w then (s.tlbFill e, .stop DmaErr.devPerm 0) else (s.tlbFill e, .ok (place e))

/-! ### Granary pages (R280, R281) -/

/-- The window's contents are served from DRAM: LAZY, READY, DUMPING or SEALED (R368, R376). -/
def State.grnReads (s : State) : Bool :=
  [Grn.lazy, Grn.ready, Grn.dumping, Grn.sealed].contains s.grnState || (s.grnState == Grn.heldState && s.grn.channelDump)

/-- Access to a page of the window; a page not restored raises UNRESTORED (R281). -/
def State.granaryPage (s : State) (page : Nat) : State × Dma Nat :=
  match s.tlbLookup .granary page with
  | (some _, s) => (s, .ok page)
  | (none, s) =>
    if !s.grnReads || s.grn.unrestored.mem page then
      let s := s.bump C.tluUnrestored
      (if s.canFetch then s.demandFetch page else s, .park (.window page))
    else
      (s.tlbFill { kind := .granary, page := page, log := 0, frame := page, read := true, write := true }, .ok page)

/-- An address of a task's access: a Granary offset, or an address in a context. -/
structure Place where
  granary : Bool
  ctx : Nat
  addr : Nat

/-- The address of a LOCATION (R148). -/
def placeOf (loc ctx addr : Nat) : Place := { granary := loc == 0, ctx := ctx, addr := addr }

/-- Checks that every page of a range can be accessed now, and gives the frames of host pages (R271, R292). No request is made
once ingress has closed (R86). -/
def State.reach (s : State) (p : Place) (len : Nat) (write : Bool) : State × Dma (List Nat) :=
  if s.linkClosed then (s, .pending)
  else if p.granary then
    if s.grn.config.windowLen < p.addr + len then (s, .stop DmaErr.granaryRange 0)
    else s.overPages (fun s pg => s.granaryPage pg) (pagesOf p.addr len)
  else
    match s.ctxCheck p.ctx p.addr with
    | some e => (s, .stop e.1 e.2)
    | none =>
      if inDevice p.addr then
        s.overPages (fun s pg =>
          match s.devAddr (pg * 4096) write with
          | (s, .ok a) => (s, .ok (a / 4096))
          | (s, d) => (s, d)) (pagesOf (p.addr % 2 ^ 46) len)
      else s.hostReach p.ctx p.addr len write

/-! ### Reads -/

/-- The lines that a range meets. -/
def linesOf (addr len : Nat) : List Nat := (List.range (ceilDiv (addr % 64 + max 1 len) 64)).map (· + addr / 64)

/-- The lines of a range that can be accessed, in the window or in the device region. -/
def State.memLines (s : State) (p : Place) (len : Nat) : List (Line × Bool) :=
  (linesOf (if p.granary then p.addr else p.addr % 2 ^ 46) len).map (fun l =>
    if p.granary then s.windowLine l
    else
      match (s.devAddr (64 * l) false).2 with
      | .ok a => s.dramRead a false
      | _ => (0, true))

/-- The DPAs of the lines of a range that are read from DRAM: those of the window that the landing buffer holds are not (R73). -/
def State.memDpas (s : State) (p : Place) (len : Nat) : List Nat :=
  (linesOf (if p.granary then p.addr else p.addr % 2 ^ 46) len).filterMap (fun l =>
    if p.granary then (if (s.landed l).isSome then none else some (grnBase + 64 * l))
    else
      match (s.devAddr (64 * l) false).2 with
      | .ok a => some (a / 64 * 64)
      | _ => none)

/-- The page-policy hint of a task's reads (R311): 11 for the block fetches of a SCAN task, 00 for all others. -/
def Task.hint (t : Task) : Nat := if t.tkind = 1 && t.scan.isSome then 3 else 0

/-- The bytes that a task has read from host memory. -/
def findData (d : List HostData) (ctx addr len : Nat) : Option (List Byte) :=
  (d.find? (fun h => h.ctx == ctx && decide (h.addr ≤ addr) && decide (addr + len ≤ h.addr + h.bytes.length))).map
    (fun h => sliceBytes h.bytes (addr - h.addr) len)

/-- Requests for host memory that engine DMA may hold at once (R290). -/
def State.readTags (s : State) : Nat := if s.link.tenBitTags then 704 else 224

/-- Read requests of the engine outstanding. -/
def State.tagsTaken (s : State) : Nat :=
  (s.eng.tillers.map (fun x => ((x.2.read.map (·.ends.length)).getD 0))).foldl (· + ·) 0

/-- Bytes of a read that its requests have asked for. -/
def HostRead.asked (r : HostRead) : Nat := r.len - (r.unsent.map (·.2)).foldl (· + ·) 0

/-- A tiller's read sends the requests that find a tag; the others wait (R290). -/
def State.sendReads (s : State) (n : Nat) : State :=
  match (s.tiller n).read with
  | none => s
  | some r =>
    let go := r.unsent.take (s.readTags - s.tagsTaken)
    let s := go.foldl (fun s p => s.emit (.hostRead (s.via r.ctx) p.1 p.2)) s
    let ends := go.foldl (fun (l : List Nat × Nat) p => (l.1 ++ [l.2 + p.2], l.2 + p.2)) ([], r.asked)
    s.setTiller n { s.tiller n with read := some { r with unsent := r.unsent.drop go.length, ends := r.ends ++ ends.1 } }

/-- Tags have come free: the reads that wait for one take them, the lowest tiller's first (R290). -/
def State.sendWaiting (s : State) : State := s.eng.tillers.foldl (fun s x => s.sendReads x.1) s

/-- The detail of DMA_POISON for a line in memory (R295, R300): 2 in the device region; in the window 4 where its page could not
be restored, which a page of an unsealed delta is not counted as. -/
def State.poisonDetail (s : State) (p : Place) (line : Nat) : Nat :=
  let page := line / 64
  if !p.granary then 2 else if s.grn.lost.mem page && !s.grn.unsealed.mem page then 4 else 3

/-- Memory as an access finds it: its bytes, or the detail of the first poisoned line that it meets. -/
def State.memBytes (s : State) (p : Place) (len : Nat) : Except Nat (List Byte) :=
  let ls := s.memLines p len
  match ls.zipIdx.find? (fun l => l.1.2) with
  | some l => .error (s.poisonDetail p (p.addr / 64 + l.2))
  | none => .ok (sliceBytes (ls.flatMap (fun l => bytesOfLine l.1)) (p.addr % 64) len)

/-- A task's read of bytes (R290 to R292). Host memory is read once for the present block; while a read is
outstanding the task goes no further. -/
def State.readMem (s : State) (t : Task) (p : Place) (len : Nat) : State × Dma (List Byte) :=
  match s.reach p len false with
  | (s, .park w) => (s, .park w)
  | (s, .pending) => (s, .pending)
  | (s, .stop c d) => (s.captureFault c p.ctx p.addr p.granary, .stop c d)
  | (s, .ok frames) =>
    if len = 0 then (s, .ok [])
    else if p.granary || inDevice p.addr then
      match s.memBytes p len with
      | .error d => (s.captureFault DmaErr.poison p.ctx p.addr p.granary, .stop DmaErr.poison d)
      | .ok b => (s.queueLines (s.memDpas p len) .engine (.read (some t.id)) t.hint, .ok b)
    else
      match findData t.data p.ctx p.addr len, t.tiller with
      | some b, _ => (s, .ok b)
      | none, some n =>
        let r : HostRead := { task := some t.id, plan := t.plan, ctx := p.ctx, addr := p.addr, len := len,
                              unsent := s.readPieces p.addr len frames, ends := [], got := [] }
        ((s.setTiller n { s.tiller n with read := some r }).sendReads n, .pending)
      | none, none => (s, .pending)

/-! ### Writes -/

/-- Splits bytes at an address into pieces, each within one line. -/
def linePieces : Nat → Nat → List Byte → List (Nat × List Byte)
  | 0, _, _ => []
  | fuel + 1, addr, b =>
    let n := 64 - addr % 64
    if b.isEmpty then [] else (addr, b.take n) :: linePieces fuel (addr + n) (b.drop n)

/-- A line with some of its bytes replaced. -/
def patchLine (l : Line) (off : Nat) (b : List Byte) : Line :=
  let old := bytesOfLine l
  BitVec.ofNat 512 (ofLeBytes (old.take off ++ b ++ old.drop (off + b.length)))

/-- Writes bytes within one line of the device region, in the ENGINE class (R290). -/
def State.writeDevice (s : State) (addr : Nat) (b : List Byte) : State :=
  match (s.devAddr (addr % 2 ^ 46) true).2 with
  | .ok a =>
    if b.length = 64 then s.dramWrite a (BitVec.ofNat 512 (ofLeBytes b)) false .engine 0 false
    else s.dramWriteMasked (a / 64 * 64) (a % 64) b
  | _ => s

/-- Pieces written in order to the window as whole lines (R156): those left where the next must wait for a
reservation (R351). A poisoned line that would be replaced in part stays as it is, and the bytes are lost (R316). -/
def State.writeWindow (s : State) (w : Waiter) : List (Nat × List Byte) → State × List (Nat × List Byte)
  | [] => (s, [])
  | p :: ps =>
    let line := p.1 / 64
    let old := s.windowLine line
    let whole := p.2.length == 64
    if !whole && old.2 then (s.rmwLost (grnBase + 64 * line)).writeWindow w ps
    else
      match s.tryLine w line (if whole then BitVec.ofNat 512 (ofLeBytes p.2) else patchLine old.1 (p.1 % 64) p.2) false with
      | some s => s.writeWindow w ps
      | none => (s.waitLine w, p :: ps)

/-- One write of a task or mailbox (R290, R298): done, or what is left of it. -/
def State.writeMem (s : State) (w : Waiter) (p : Place) (b : List Byte) : State × Dma (List (Nat × List Byte)) :=
  match s.reach p b.length true with
  | (s, .park q) => (s, .park q)
  | (s, .pending) => (s, .pending)
  | (s, .stop c d) => (s.captureFault c p.ctx p.addr p.granary, .stop c d)
  | (s, .ok frames) =>
    let ps := linePieces (b.length + 1) p.addr b
    if p.granary then
      let r := s.writeWindow w ps
      (r.1, .ok r.2)
    else if inDevice p.addr then (ps.foldl (fun s q => s.writeDevice q.1 q.2) s, .ok [])
    else (s.hostSend p.ctx p.addr frames b, .ok [])

/-! ### The firmware's areas (R277) -/

/-- The sets of device DRAM on CH4 to CH11, which the engine region covers but for the firmware's areas (R277). -/
def State.engineSets (s : State) : List IvSet := ((List.range 7).map (fun i => s.ivs (i + 1))).filter (·.valid)

/-- The first byte of the firmware's areas: the last 2 GiB of the first set. The lower GiB holds the page table, the staging
area and the telemetry ring, the upper one the spill area with the scheduler's command records (log entry 149). -/
def State.firmwareArea (s : State) : Nat :=
  match s.engineSets with
  | i :: _ => i.base + i.size - 2 ^ 31
  | [] => 0

/-- The firmware staging area (R111). -/
def State.stagingArea (s : State) : Nat := s.firmwareArea + 2 ^ 28

/-! ### The data of mailbox commands (R88, R99, R105, R292) -/

/-- A read or write of a command is ended by a stop at an address (R105, R295). -/
def State.mailStop (s : State) (a : Accepted) (addr code detail : Nat) : State :=
  (s.captureFault code (s.mailboxCtx a.mb) addr false).dmaEnd a code detail

/-- Exactly `n` bytes of what a transfer delivers, zeros past its end. -/
def fitBytes (n : Nat) (b : List Byte) : List Byte := b.take n ++ List.replicate (n - b.length) 0#8

/-- What a read of a mailbox command ends with: its bytes, a wait on a page, or the command's end in DMA_ERROR. -/
inductive MailRead where
  | bytes (s : State) (b : List Byte)
  | wait (s : State) (w : PageWait)
  | closed (s : State)
  | ended (s : State)

/-- Reads `n` bytes at an address of a command's context (R105, R272): from the device region, or from host memory as `data`
delivers it. No bytes need no access. -/
def State.mailRead (s : State) (a : Accepted) (addr n : Nat) (data : Transfer) : MailRead :=
  let p := placeOf 1 (s.mailboxCtx a.mb) addr
  if n = 0 then .bytes s []
  else
    match s.reach p n false with
    | (s, .park w) => .wait s w
    | (s, .pending) => .closed s
    | (s, .stop c d) => .ended (s.mailStop a addr c d)
    | (s, .ok frames) =>
      if inDevice addr then
        match s.memBytes p n with
        | .error d => .ended (s.mailStop a addr DmaErr.poison d)
        | .ok b => .bytes (s.queueLines (s.memDpas p n) .engine (.read none) 0) b
      else
        let s := (s.readPieces addr n frames).foldl (fun s q => s.emit (.hostRead (s.via p.ctx) q.1 q.2)) s
        match data with
        | .stopped c d => .ended (s.mailStop a addr c.toNat d.toNat)
        | .bytes b => .bytes s (fitBytes n b)

/-- Goes on with the first `n` bytes at DATA_ADDR, or in ADM_DATA for an inline command; a transfer that parks leaves the
command begun, and it reads again once nothing is left that it waits on (R88, R292). -/
def State.withInput (s : State) (a : Accepted) (n : Nat) (data : Transfer) (k : State → List Byte → State) : State :=
  if a.inline then k s (leBytes n (s.get F.ADM_DATA_DATA))
  else
    match s.mailRead a (cmdAddr a.cmd) n data with
    | .bytes s b => k s b
    | .wait s w => s.parkCmd a [w]
    | .closed s => s
    | .ended s => s

/-- Goes on with the data of a command whose header declares its length: the header alone is read for check 5, then comes
check 6, then all of it is read (R98, R99). `size` is the header's length, `want` the length that it declares. -/
def State.withDeclared (s : State) (a : Accepted) (size : Nat) (want : List Byte → Nat) (data : Transfer)
    (k : State → List Byte → State) : State :=
  s.withInput a size data fun s h =>
    if want h ≠ cmdLen a.cmd then s.complete a CC.lengthMismatch (want h)
    else if s.notReady a.cmd then s.complete a CC.notReady s.rdyWord
    else s.withInput a (cmdLen a.cmd) data k

/-- The last writes of a command in their order, then its completion (R105): a write whose page is not there yet keeps the
command, and what is left of it, waiting (R292). -/
def State.finish (s : State) (a : Accepted) (code result : Nat) : List (Nat × List Byte) → State
  | [] => s.complete a code result
  | w :: ws =>
    let keep := fun (s : State) (q : List PageWait) =>
      s.update { a with begun := true, waits := q, owed := some { writes := w :: ws, code := code, result := result } }
    match s.reach (placeOf 1 (s.mailboxCtx a.mb) w.1) w.2.length true with
    | (s, .park q) => keep s [q]
    | (s, .pending) => keep s []
    | (s, .stop c d) => s.mailStop a w.1 c d
    | (s, .ok frames) =>
      (if inDevice w.1 then (linePieces (w.2.length + 1) w.1 w.2).foldl (fun s q => s.writeDevice q.1 q.2) s
       else s.hostSend (s.mailboxCtx a.mb) w.1 frames w.2).finish a code result ws

/-- Delivers the data that a command asks for, into ADM_DATA for an inline one, and completes it OK (R88, R105). -/
def State.deliver (s : State) (a : Accepted) (bytes : List Byte) : State :=
  if a.inline then
    let keep := s.get F.ADM_DATA_DATA / 2 ^ (8 * bytes.length) * 2 ^ (8 * bytes.length)
    (s.set F.ADM_DATA_DATA (ofLeBytes bytes + keep)).complete a CC.ok 0
  else s.finish a CC.ok 0 [(cmdAddr a.cmd, bytes)]

/-- A command that owes writes and waits for nothing goes on with them. -/
def State.goOnOwed (s : State) (a : Accepted) : State :=
  match a.owed, a.waits with
  | some o, [] => s.finish a o.code o.result o.writes
  | _, _ => s

/-- Whether a digest context serves a command that is still accepted; those of the Granary logic are its own. -/
def State.contextServes (s : State) (p : Nat × DigestCtx) : Bool :=
  decide (6 ≤ p.1) || s.mbx.accepted.any (fun a => a.id == p.2.id)

/-- The contexts of commands that have ended are freed (R428). -/
def State.sweepContexts (s : State) : State :=
  if s.dge.contexts.all s.contextServes then s
  else s.setDigest { s.dge with contexts := s.dge.contexts.filter s.contextServes }

/-- Every such command does. -/
def State.settleOwed (s : State) : State := (s.mbx.accepted.foldl State.goOnOwed s).sweepContexts

end Sys2Proof.Machine
end

