-- ==== Sys2Proof/Machine/Nodes.lean ====
section
/-!
DEFINITION. The node tree (R240 to R247), the trace (R268 to R270), and the shared buffer pool (R163 to R169).
-/

namespace Sys2Proof.Machine

/-! ### Shapes and device nodes (R150, R240, R241) -/

/-- The product of the fanouts of a shape from level 1 to level l. -/
def shapeProduct (fan : List Nat) (l : Nat) : Nat := (fan.take l).foldl (· * ·) 1

/-- A SHAPE section: its fanouts, where LEVELS and fanouts are in range and the rest is zero (R150, R245). -/
def shapeFanouts (b : List Nat) (maxLevels : Nat) : Option (List Nat) :=
  let l := b.headD 0
  let fan := (b.drop 1).take l
  if 1 ≤ l ∧ l ≤ maxLevels ∧ fan.length = l ∧ fan.all (fun f => decide (1 ≤ f) && decide (f ≤ 16)) ∧
      (b.drop (l + 1)).all (· == 0) then some fan else none

/-- The device shape of the option area, or the default (R240, R411). -/
def State.deviceShape (s : State) : List Nat :=
  let b := (List.range 8).map (fun i => s.optionByte (0x50 + i))
  match shapeFanouts b 5 with
  | some fan => if s.optionSet 0x50 && shapeProduct fan fan.length == 96 then fan else [4, 3, 8]
  | none => [4, 3, 8]

/-- Where each level of a shape begins among nodes numbered breadth-first: level 0 is one node. -/
def levelStart (fan : List Nat) (l : Nat) : Nat :=
  ((List.range l).map (fun k => shapeProduct fan k)).foldl (· + ·) 0

/-- The nodes of a level laid over `tillers` tillers from `first` on: index, then node. -/
def levelNodes (fan : List Nat) (first tillers : Nat) (l : Nat) : List (Nat × Node) :=
  let n := shapeProduct fan l
  (List.range n).map (fun i =>
    (levelStart fan l + i,
     { view := false, level := l, parent := if l = 0 then 0 else levelStart fan (l - 1) + i / fan.getD (l - 1) 1,
       first := first + i * (tillers / n), count := tillers / n, root := 0, shape := [] }))

/-- The device nodes of a shape (R241). -/
def deviceNodes (fan : List Nat) : Store Node := (List.range (fan.length + 1)).flatMap (levelNodes fan 0 96)

/-- A node that stands for no tiller. -/
def Node.blank : Node := { view := false, level := 0, parent := 0, first := 0, count := 0, root := 0, shape := [] }

/-- A node of the table. -/
def State.node (s : State) (n : Nat) : Node := s.eng.nodes.getD n Node.blank

/-- The tillers beneath a node. -/
def Node.tillers (n : Node) : List Nat := (List.range n.count).map (· + n.first)

/-- A tiller is live unless a fault has retired it (R242). -/
def State.live? (s : State) (n : Nat) : Bool := !s.hub.retiredTillers.contains n

/-- The live tillers beneath a node. -/
def State.liveTillers (s : State) (n : Nat) : List Nat := (s.node n).tillers.filter s.live?

/-- The capability record of a node: the union over its live tillers (R242). -/
def State.nodeCaps (s : State) (n : Nat) : Nat := (s.liveTillers n).foldl (fun c t => c ||| (0x7F + 2 ^ (16 + t / 24))) 0

/-- A node's address from the device root, or from the view root for a virtual node (R146): the path of child indices. -/
def State.nodePath (s : State) : Nat → Nat → List Nat
  | 0, _ => []
  | fuel + 1, n =>
    let x := s.node n
    if x.level = 0 then []
    else
      let up := (s.eng.nodes.filter (fun p => p.2.parent == x.parent && p.2.level == x.level && p.2.view == x.view))
      s.nodePath fuel x.parent ++ [up.findIdx (fun p => p.1 == n)]

/-- The 32-bit address of a path (R146). -/
def pathAddr (p : List Nat) : Nat :=
  p.length * 2 ^ 29 + ((p.zipIdx).map (fun q => q.1 * 2 ^ (20 - 4 * q.2))).foldl (· + ·) 0

/-- The absolute address of a device node. -/
def State.nodeAddr (s : State) (n : Nat) : Nat := pathAddr (s.nodePath 6 n)

/-- DEPTH and the child indices of a node address; none where RSVD bits or nibbles below DEPTH are set (R146). -/
def addrPath (a : Nat) : Option (List Nat) :=
  let d := bitsOf a 31 29
  let all := (List.range 6).map (fun i => bitsOf a (23 - 4 * i) (20 - 4 * i))
  if 5 < d || bitsOf a 28 24 ≠ 0 || !((all.drop d).all (· == 0)) then none else some (all.take d)

/-- The tillers that a path of child indices leads to, through a tree of fanouts laid over a range of tillers. -/
def pathRange (fan : List Nat) (first count : Nat) : List Nat → Option (Nat × Nat)
  | [] => some (first, count)
  | i :: rest =>
    match fan with
    | [] => none
    | f :: fs => if i < f then pathRange fs (first + i * (count / f)) (count / f) rest else none

/-- The device node of a level that covers exactly a range of tillers. -/
def State.deviceNode (s : State) (level first count : Nat) : Option Nat :=
  (s.eng.nodes.find? (fun p => !p.2.view && p.2.level == level && p.2.first == first && p.2.count == count)).map (·.1)

/-- The children of a node: nodes beneath it, or the tiller nodes beneath a virtual node of the last level. -/
def State.children (s : State) (n : Nat) : List (Nat × Node) :=
  let x := s.node n
  let own := s.eng.nodes.filter (fun p => p.2.parent == n && p.1 != n && p.2.view == x.view && decide (0 < p.2.level))
  if x.view && own.isEmpty then
    s.eng.nodes.filter (fun p => !p.2.view && p.2.count == 1 && decide (x.first ≤ p.2.first) &&
      decide (p.2.first < x.first + x.count) && (s.deviceShape.length == p.2.level))
  else own

/-! ### Counters -/

def C.tilBusy : Counter := ⟨F.TIL_BUSY_CNT_COUNT, F.TIL_BUSY_CNT_SAT⟩
def C.schDispatch : Counter := ⟨F.SCH_DISPATCH_CNT_COUNT, F.SCH_DISPATCH_CNT_SAT⟩
def C.schPreempt : Counter := ⟨F.SCH_PREEMPT_CNT_COUNT, F.SCH_PREEMPT_CNT_SAT⟩
def C.schPromote : Counter := ⟨F.SCH_PROMOTE_CNT_COUNT, F.SCH_PROMOTE_CNT_SAT⟩
def C.schSpill : Counter := ⟨F.SCH_SPILL_CNT_COUNT, F.SCH_SPILL_CNT_SAT⟩
def C.schQuota : Counter := ⟨F.SCH_QUOTA_WAIT_CNT_COUNT, F.SCH_QUOTA_WAIT_CNT_SAT⟩
def C.schDrop : Counter := ⟨F.SCH_TRACE_DROP_CNT_COUNT, F.SCH_TRACE_DROP_CNT_SAT⟩
def C.poolWait : Counter := ⟨F.POOL_WAIT_CNT_COUNT, F.POOL_WAIT_CNT_SAT⟩
def C.oprLate : Counter := ⟨F.OPR_LATE_CNT_COUNT, F.OPR_LATE_CNT_SAT⟩
def C.oprNulled : Counter := ⟨F.OPR_NULLED_CNT_COUNT, F.OPR_NULLED_CNT_SAT⟩
def C.oprSpill : Counter := ⟨F.OPR_SPILL_CNT_COUNT, F.OPR_SPILL_CNT_SAT⟩
def C.cbvChecked : Counter := ⟨F.CBV_CHECKED_CNT_COUNT, F.CBV_CHECKED_CNT_SAT⟩
def C.cbvReject : Counter := ⟨F.CBV_REJECT_CNT_COUNT, F.CBV_REJECT_CNT_SAT⟩

/-- Adds an amount to instance `n` of a counter (R458). -/
def State.addCount (s : State) (c : Counter) (n k : Nat) : State :=
  let v := s.getN c.count n + k
  if v ≤ 2 ^ 48 - 1 then s.setN c.count n v
  else (s.setN c.count n (2 ^ 48 - 1)).bumpN c n

/-! ### The trace (R268 to R270) -/

/-- The event codes of R270. -/
def Ev.issue : Nat := 0
def Ev.dispatch : Nat := 1
def Ev.yieldReq : Nat := 2
def Ev.park : Nat := 3
def Ev.ready : Nat := 4
def Ev.finish : Nat := 5
def Ev.stop : Nat := 6
def Ev.hold : Nat := 7
def Ev.release : Nat := 8
def Ev.spill : Nat := 9
def Ev.refill : Nat := 10
def Ev.quota : Nat := 11
def Ev.firing : Nat := 12
def Ev.promote : Nat := 13
def Ev.discard : Nat := 14

/-- The trace is on for an event code. -/
def State.tracing (s : State) (ev : Nat) : Bool :=
  let l := s.get F.SCH_TRACE_CTL_SIZE_LOG
  s.flag F.SCH_TRACE_CTL_EN && decide (12 ≤ l) && decide (l ≤ 30) && bitOf (s.get F.SCH_TRACE_CTL_EVENTS) ev

/-- The fields of a record between EVENT and SEQ: class, promoted, tiller, plan, flow, operator, node, slot. -/
structure TraceWho where
  cls : Nat
  promoted : Bool
  tiller : Nat
  plan : Nat
  flow : Nat
  op : Nat
  node : Nat
  slot : Nat

/-- The 32 bytes of a record (R269). -/
def traceBytes (ns ev : Nat) (w : TraceWho) (seq arg : Nat) : List Byte :=
  leBytes 8 ns ++ leBytes 1 ev ++ leBytes 1 (w.cls + 4 * natOfBool w.promoted) ++ leBytes 1 w.tiller ++ leBytes 1 w.plan ++
  leBytes 2 w.flow ++ leBytes 2 w.op ++ leBytes 2 w.node ++ leBytes 2 w.slot ++ leBytes 4 seq ++ leBytes 8 arg

/-- Takes the oldest record off the queue. -/
def State.popTrace (s : State) : State := s.mapEng (fun e => { e with traceQueue := e.traceQueue.drop 1, traceWaits := [] })

/-- Writes a record into the ring at SCH_TRACE_BASE in context 0, or drops it (R268): a base in the device region loses it (R273).
The result says whether the record must wait for a translation (R285). -/
def State.writeTrace (s : State) (record : List Byte) : State × Option PageWait :=
  let n := 2 ^ (s.get F.SCH_TRACE_CTL_SIZE_LOG - 5)
  let wr := s.get F.SCH_TRACE_PTRS_WR % n
  let next := (wr + 1) % n
  let full := next == s.get F.SCH_TRACE_PTRS_RD % n
  let base := s.get F.SCH_TRACE_BASE_BASE * 4096
  let addr := base + 32 * wr
  if (full && !s.flag F.SCH_TRACE_CTL_WRAP) || decide (2 ^ 46 ≤ base) || s.linkClosed then (s.bump C.schDrop, none)
  else
    match s.hostReach 0 addr 32 true with
    | (s, .park w) => (s, some w)
    | (s, .ok frames) =>
      let s := (s.hostSend 0 addr frames record).set F.SCH_TRACE_PTRS_WR next
      (if full then s.set F.SCH_TRACE_PTRS_RD ((next + 1) % n) else s, none)
    | (s, _) => (s.bump C.schDrop, none)

/-- The queued records go out in their order, until one must wait; in D3hot they wait for D0 (R478). -/
def State.drainTrace (s : State) : Nat → State
  | 0 => s
  | fuel + 1 =>
    if s.pwr.d3hot then s else match s.eng.traceQueue, s.eng.traceWaits with
    | r :: _, [] =>
      match s.writeTrace r with
      | (s, none) => s.popTrace.drainTrace fuel
      | (s, some w) => s.mapEng (fun e => { e with traceWaits := [w] })
    | _, _ => s

/-- Makes one record and queues it, or drops it where 64 wait already (R268); the queue then empties as far as it can. -/
def State.trace (s : State) (ev : Nat) (w : TraceWho) (arg : Nat) : State :=
  if !s.tracing ev then s
  else
    let seq := s.eng.traceSeq
    let s := s.mapEng (fun e => { e with traceSeq := (seq + 1) % 2 ^ 32 })
    if 64 ≤ s.eng.traceQueue.length then s.bump C.schDrop
    else
      (s.mapEng (fun e => { e with traceQueue := e.traceQueue ++ [traceBytes (s.now - s.eng.mainAt) ev w seq arg] })).drainTrace 64

/-- What a record says of a task. -/
def Task.who (t : Task) : TraceWho :=
  { cls := t.cls, promoted := t.promoted, tiller := t.tiller.getD 0xFF, plan := t.plan, flow := t.flow, op := t.op,
    node := t.node, slot := t.slot.getD 0xFFFF }

/-- A record about a task. -/
def State.traceTask (s : State) (ev : Nat) (t : Task) (arg : Nat) : State := s.trace ev t.who arg

/-- A record about no task: what the manual does not state of it is free. -/
def State.traceFree (s : State) (ev plan op : Nat) (arg : Nat) : State :=
  if !s.tracing ev then s
  else
    let r := s.fresh
    s.trace ev { cls := r.1 % 4, promoted := false, tiller := 0xFF, plan := plan, flow := r.1 / 4 % 2 ^ 16, op := op,
                 node := r.1 / 2 ^ 18 % 512, slot := 0xFFFF } arg

/-! ### The pool (R163 to R169) -/

/-- The buffers kept back from every plan, which stage data (R163). -/
def State.sysReserve (s : State) : Nat := max 512 (min 4096 (s.get F.POOL_CTL_SYS_RESERVE))

/-- The reservable pool (R163). -/
def State.reservable (s : State) : Nat := 24576 - s.sysReserve

/-- Staging buffers taken (R163): an appended block is staged from its arrival until it is written, but for the time in which it
waits for room in its table; the data of a FLASH_SUBMIT from its begin on (R397). What other commands stage comes and goes
within one command of the block (log entry 187). -/
def State.stagingUsed (s : State) : Nat :=
  let submits := s.mbx.accepted.filter (fun a => a.begun && cmdOpcode a.cmd == Op.flashSubmit)
  ((s.eng.appends.filter (fun x => !x.full)).map (fun x => ceilDiv x.data.length 4096)).foldl (· + ·) 0 +
  (submits.map (fun a => ceilDiv (cmdArg a.cmd 1) 4096)).foldl (· + ·) 0

/-- A staging buffer is free (R163). -/
def State.canStage (s : State) : Bool := decide (s.stagingUsed < s.sysReserve)

/-- The reservations of all loaded plans. -/
def State.resvTotal (s : State) : Nat := (s.eng.plans.map (fun p => p.2.resv)).foldl (· + ·) 0

/-- Buffers of a culm beyond its reserved ones. -/
def Culm.borrowed (c : Culm) : Nat := c.held.length - c.decl.least

/-- Buffers borrowed now. -/
def State.borrowed (s : State) : Nat := (s.eng.culms.map (fun c => c.2.borrowed)).foldl (· + ·) 0

/-- The borrowable remainder (R167). -/
def State.borrowFree (s : State) : Nat := s.reservable - s.resvTotal - s.borrowed

/-- The first number from `p` on that a set of intervals does not hold. -/
def PageSet.freeFrom (s : PageSet) (p : Nat) : Nat :=
  match s.find? (fun i => decide (i.1 ≤ p) && decide (p < i.2)) with
  | some i => i.2
  | none => p

/-- The buffer taken for a die (R168): the lowest free one on it, or on the next die that has one. -/
def State.pickBuffer (s : State) (die : Nat) : Nat :=
  (((List.range 4).map (fun i => (die + i) % 4)).findSome? (fun d =>
    let b := PageSet.freeFrom s.eng.used (6144 * d)
    if b < 6144 * (d + 1) then some b else none)).getD 24576

/-- Takes a buffer off the free ones. -/
def State.useBuffer (s : State) (b : Nat) : State := s.mapEng (fun e => { e with used := e.used.insert b })

/-- Puts a buffer back among the free ones: its poison goes with it. -/
def State.freeBuffer (s : State) (b : Nat) : State :=
  s.mapEng (fun e => { e with used := e.used.erase b, poisoned := e.poisoned.filter (· != b) })

/-- A culm of the table. -/
def State.culm? (s : State) (k : Nat) : Option Culm := s.eng.culms.get? k

/-- Writes a culm. -/
def State.setCulm (s : State) (k : Nat) (c : Culm) : State := s.mapEng (fun e => { e with culms := e.culms.set k c })

/-- The die that a culm's buffers come from (R168): that of its consumer's node, or of the producer task's tiller. -/
def State.culmDie (s : State) (c : Culm) (tiller : Nat) : Nat :=
  if c.decl.consumerDie then
    match s.plan? c.plan with
    | some p => (s.node (p.nodes.getD c.decl.consumer 0)).first / 24
    | none => 0
  else tiller / 24

/-- A culm may take a buffer at once: one of its reserved ones, or a borrowed one with nobody queued for one (R160, R167). -/
def State.canTake (s : State) (c : Culm) : Bool :=
  decide (c.held.length < c.decl.least) ||
  (decide (c.held.length < c.decl.most) && decide (0 < s.borrowFree) && !s.eng.waits.any (·.borrow))

/-- Gives culm `k` a buffer. -/
def State.giveBuffer (s : State) (k : Nat) (c : Culm) (tiller : Nat) : State × Nat :=
  let b := s.pickBuffer (s.culmDie c tiller)
  ((s.useBuffer b).setCulm k { c with held := c.held ++ [b] }, b)

/-- Signals a plan event where a vector is bound to it (R174). -/
def State.planEvent (s : State) (slot ev : Nat) : State :=
  match (s.plan? slot).bind (fun p => p.binds.get? ev) with
  | some v => s.signal v
  | none => s

/-- A borrow request begins to wait (R167, R174): counted, and signalled at most once per 1 ms. -/
def State.countPoolWait (s : State) (slot : Nat) : State :=
  let s := s.bump C.poolWait
  match s.plan? slot with
  | none => s
  | some p =>
    let due := match p.waitSignal with
      | some t => decide (t + 1000000 ≤ s.now)
      | none => true
    let p := { p with poolWaits := min (2 ^ 48 - 1) (p.poolWaits + 1), waitSignal := if due then some s.now else p.waitSignal }
    let s := s.setPlan slot p
    if due then s.planEvent slot 4 else s

/-- A waiting task becomes READY with its original ready time (R252). `code` is the wait it leaves. -/
def State.makeReady (s : State) (t : Task) (code : Nat) : State :=
  (s.setTask { t with state := .ready }).traceTask Ev.ready { t with state := .ready } code

/-- The first waiting producer whose culm may take one of its reserved buffers; else the head of the borrow queue, by
class and arrival (R160, R167). -/
def State.nextGrant (s : State) : Option CreditWait :=
  let room := fun (f : Culm → Bool) (w : CreditWait) => ((s.culm? w.culm).map f).getD false
  match s.eng.waits.find? (room (fun c => decide (c.held.length < c.decl.least))) with
  | some w => some w
  | none =>
    if s.borrowFree = 0 then none
    else [0, 1, 2, 3].findSome? (fun k =>
      s.eng.waits.find? (fun w => w.borrow && w.cls == k && room (fun c => decide (c.held.length < c.decl.most)) w))

/-- Gives a waiting producer its buffer: it resumes (R160). A parked producer is on no tiller; the die that R168 asks for is taken
to be that of its last one (DESIGN CHOICE, log entry 181). A request of a discarded task that has not been withdrawn yet (R177)
takes its buffer to the culm, which returns it at step 3. -/
def State.grant (s : State) (w : CreditWait) : State :=
  let s := s.mapEng (fun e => { e with waits := e.waits.filter (fun x => x != w) })
  match s.culm? w.culm, s.task? w.task with
  | some c, some t =>
    let r := s.giveBuffer w.culm c t.last
    r.1.makeReady { t with gifts := t.gifts ++ [(w.culm, r.2)] } 1
  | some c, none => (s.giveBuffer w.culm c 0).1
  | none, _ => s

/-- Producers that waited at MAX_CREDITS and now may borrow enter the borrow queue; each that has to wait is counted
(R167). -/
def State.joinBorrow (s : State) : State :=
  s.eng.waits.foldl (fun s w =>
    match s.culm? w.culm, s.task? w.task with
    | some c, some t =>
      if !w.borrow && decide (c.decl.least ≤ c.held.length) && decide (c.held.length < c.decl.most) then
        let wait := s.borrowFree = 0 || s.eng.waits.any (·.borrow)
        let s := s.mapEng (fun e => { e with waits := e.waits.filter (fun x => x != w) ++ [{ w with borrow := true, at_ := s.now }] })
        if wait then s.countPoolWait t.plan else s
      else s
    | _, _ => s) s

/-- Gives out what waiting producers may now have. -/
def State.grantAll : Nat → State → State
  | 0, s => s
  | n + 1, s =>
    let s := s.joinBorrow
    match s.nextGrant with
    | some w => State.grantAll n (s.grant w)
    | none => s

/-- Hands out freed buffers. -/
def State.settleCredits (s : State) : State := State.grantAll s.eng.waits.length s

/-- A culm releases a buffer (R160). -/
def State.releaseBuffer (s : State) (k b : Nat) : State :=
  match s.culm? k with
  | some c => ((s.setCulm k { c with held := c.held.erase b }).freeBuffer b).settleCredits
  | none => s.freeBuffer b

end Sys2Proof.Machine
end

