-- ==== Sys2Proof/Machine/SchedOps.lean ====
section
/-!
DEFINITION. The flow scheduler (R248 to R267): tasks and their slots, the spill area, holds, eligibility, dispatch,
placement and pre-emption.
-/

namespace Sys2Proof.Machine

/-! ### A running plan's parts -/

/-- The state of a flow that has taken no row. -/
def FlowState.blank : FlowState :=
  { rows := [], parts := [], chunks := [], hashes := [], mode := 0, klog := 0, split := false, wins := [], groups := [],
    closed := 0, seen := none, lastKey := none, runs := [], ranges := [[], []], marks := [], job := none }

/-- A flow with nothing issued. -/
def FlowRun.blank : FlowRun :=
  { held := false, err := 0, nextSeq := 0, opened := [], pushed := [0, 0, 0, 0], work := [], live := false,
    st := FlowState.blank }

/-- An operator that has not started. -/
def OpRun.blank : OpRun :=
  { ended := false, draining := false, next := 0, stop := none, polled := 0, flows := [], closing := [], counted := [],
    lateDue := false, emptyTold := false }

/-- An operator record with no ports. -/
def OpRec.blank : OpRec :=
  { kind := 0, node := 0, caps := 0, par := [], parallel := false, flows := 0, work := 0, ins := [], outs := [],
    table := noIndex }

/-- Operator `op` of a plan, as declared and as it runs. -/
def Plan.opAt (p : Plan) (op : Nat) : OpRec := p.image.ops.getD op OpRec.blank
def Plan.run (p : Plan) (op : Nat) : OpRun := p.ops.getD op OpRun.blank

/-- A flow of an operator. -/
def OpRun.flow (r : OpRun) (i : Nat) : FlowRun := r.flows.getD i FlowRun.blank

/-- The first flow identifier of an operator (R155). -/
def Plan.flowStart (p : Plan) (op : Nat) : Nat := p.flowBase + ((p.image.ops.take op).map (·.flows)).foldl (· + ·) 0

/-- PLN[n].STATE.STATE (R180). -/
def PlanState.code : PlanState → Nat
  | .loaded => 2
  | .running => 3
  | .cancelling => 4

/-- Flows of a plan held now. -/
def Plan.heldFlows (p : Plan) : Nat := (p.ops.map (fun r => (r.flows.filter (·.held)).length)).foldl (· + ·) 0

/-- The flow identifiers that a plan holds. -/
def Plan.flowCount (p : Plan) : Nat := (p.image.ops.map (·.flows)).foldl (· + ·) 0

/-- The operator and index of a flow identifier. -/
def Plan.locate (p : Plan) (flow : Nat) : Option (Nat × Nat) :=
  (List.range p.image.ops.length).findSome? (fun op =>
    let b := p.flowStart op
    if b ≤ flow ∧ flow < b + (p.opAt op).flows then some (op, flow - b) else none)

/-- Changes how an operator runs. -/
def State.mapRun (s : State) (slot op : Nat) (f : OpRun → OpRun) : State :=
  match s.plan? slot with
  | some p => s.setPlan slot { p with ops := p.ops.set op (f (p.run op)) }
  | none => s

/-- Changes a flow. -/
def State.mapFlow (s : State) (slot op i : Nat) (f : FlowRun → FlowRun) : State :=
  s.mapRun slot op (fun r => { r with flows := r.flows.set i (f (r.flow i)) })

/-- A flow as it runs. -/
def State.flow (s : State) (slot op i : Nat) : FlowRun :=
  match s.plan? slot with
  | some p => (p.run op).flow i
  | none => FlowRun.blank

/-- The operator record of a task. -/
def State.opRec (s : State) (t : Task) : OpRec := ((s.plan? t.plan).map (·.opAt t.op)).getD OpRec.blank

/-- T of an operator and SLOTS (R164). -/
def State.slotsOf (s : State) (p : Plan) (op : Nat) : Nat :=
  let n := (s.node (p.nodes.getD op 0)).count
  if (p.opAt op).parallel then n else min n (p.opAt op).flows

/-- A handle (R142). -/
def State.handleOf (s : State) (slot : Nat) : Nat := s.eng.gens.getD slot 0 * 256 + slot

/-! ### The spill area (R260, R261) -/

/-- Records that the spill area holds. -/
def State.spillCapacity (s : State) : Nat := max 64 (min 1024 (s.get F.SCH_SPILL_SIZE_MIB)) * 8192

/-- Tasks in the spill area. -/
def State.spilled (s : State) : List Task := s.eng.tasks.filter (fun t => t.slot.isNone && t.state == .ready)

/-- The records that must not be overwritten: those of tasks, and those of commands that have not begun (R262). -/
def State.records (s : State) : List Nat := s.spilled.map (·.record) ++ s.unbegun.filterMap (·.record)

/-- SPILL_USED (R261, R262): the tasks in the spill area, and the commands beyond the on-chip queue. -/
def State.spillUsed (s : State) : Nat := s.spilled.length + ((s.unbegun.drop 1024).filter (·.record.isSome)).length

/-- The lowest number not in a list. -/
def freeRecord (used : List Nat) : Nat → Nat → Nat
  | 0, n => n
  | fuel + 1, n => if used.contains n then freeRecord used fuel (n + 1) else n

/-- The lowest free task slot. -/
def State.freeSlot (s : State) : Option Nat :=
  let used := s.eng.tasks.filterMap (·.slot)
  let n := freeRecord used used.length 0
  if n < 8192 then some n else none

/-- `n` tasks can be issued now: into slots, or with room in the spill area, where an evicted task goes too (R260, R261). -/
def State.roomFor (s : State) (n : Nat) : Bool :=
  decide (n + (s.eng.tasks.filter (·.slot.isSome)).length ≤ 8192) || decide (s.spillUsed + n ≤ s.spillCapacity)

/-- Tasks of a class that wait for the quota go on: any below LO, URGENT ones as soon as the area has room (R261). -/
def State.wakeQuota (s : State) : State :=
  s.eng.quotaWaits.foldl (fun s id =>
    match s.task? id with
    | some t =>
      if if t.cls = 0 then s.roomFor 1 else !s.eng.quota then
        (s.mapEng (fun e => { e with quotaWaits := e.quotaWaits.filter (· != id) })).makeReady t 1
      else s
    | none => s) s

/-- Brings the quota's state up to date (R261). -/
def State.settleQuota (s : State) : State :=
  let used := s.spillUsed
  if !s.eng.up then s
  else if !s.eng.quota && decide (s.spillCapacity - 4096 ≤ used) then
    let s := (s.mapEng (fun e => { e with quota := true })).traceFree Ev.quota 0 0 1
    ((s.bump C.schQuota).raiseLive 42 0 0).wakeQuota
  else if s.eng.quota && decide (used < s.spillCapacity - 8192) then
    (((s.mapEng (fun e => { e with quota := false })).traceFree Ev.quota 0 0 0).clearLive 42).wakeQuota
  else s.wakeQuota

/-- The descriptor of a task (R248), CRC zero. -/
def Task.descriptor (t : Task) : List Byte :=
  leBytes 2 t.flow ++ leBytes 1 t.plan ++ leBytes 1 t.tkind ++ leBytes 2 t.op ++ leBytes 1 t.cls ++ leBytes 1 t.port ++
  leBytes 2 t.node ++ leBytes 6 0 ++ leBytes 8 t.arg ++ leBytes 8 t.seq ++ leBytes 32 0

/-- The lowest spill record not in use. -/
def State.freeRecordNo (s : State) : Nat := freeRecord s.records s.records.length 0

/-- Writes the two lines of a spill record, and counts it (R260). -/
def State.writeSpill (s : State) (n : Nat) (a b : Line) : State :=
  ((s.dramWrite (s.recordAddr n) a false .engine 0 false).dramWrite (s.recordAddr n + 64) b false .engine 0 false).bump C.schSpill

/-- Writes a task's spill record (R260): its descriptor with the record's CRC, and its cursor, whose bytes are free. -/
def State.spillTask (s : State) (t : Task) : State :=
  let n := ({ s with eng := { s.eng with tasks := s.eng.tasks.filter (fun u => u.id != t.id) } } : State).freeRecordNo
  let r := s.fresh
  let cursor := leBytes 64 r.1
  let d := t.descriptor
  let crc := crc32c (d ++ cursor)
  let s := r.2.writeSpill n (BitVec.ofNat 512 (ofLeBytes (d.take 60 ++ leBytes 4 crc))) (BitVec.ofNat 512 (ofLeBytes cursor))
  let t := { t with slot := none, record := n }
  let s := s.setTask t
  (s.traceTask Ev.spill t s.spillUsed).settleQuota

/-- A command that finds the on-chip queue full is kept as a spill record (R262): its 64 bytes in the second line, and in the first
the CRC as a task's record has it; the other bytes are free (DESIGN CHOICE, log entry 188). -/
def State.keepCommand (s : State) (a : Accepted) : State :=
  if s.onChip a then s
  else
    let n := s.freeRecordNo
    let r := s.fresh
    let head := leBytes 60 r.1
    let crc := crc32c (head ++ leBytes 4 0 ++ bytesOfLine a.cmd)
    (r.2.update { a with record := some n }).writeSpill n (BitVec.ofNat 512 (ofLeBytes (head ++ leBytes 4 crc))) a.cmd

/-! ### Slots (R249, R260) -/

/-- Whether two tasks belong to one flow. -/
def Task.sameFlow (t u : Task) : Bool := t.plan == u.plan && t.flow == u.flow

/-- The task evicted for one of a class (R260): READY in a slot, the last on-chip task of its flow, of the least urgent
class, most recently issued. -/
def State.evictee (s : State) (cls : Nat) : Option Task :=
  let last := fun (t : Task) => !s.eng.tasks.any (fun u => u.sameFlow t && u.slot.isSome && decide (t.seq < u.seq))
  let cand := s.eng.tasks.filter (fun t => t.state == .ready && t.slot.isSome && decide (cls < t.cls) && last t)
  [3, 2, 1].findSome? (fun c => (cand.filter (·.cls == c)).getLast?)

/-- Issues a task (R250, R252, R260): into a free slot, a slot freed by an eviction, or the spill area; behind the
flow's tasks that lie there already. The result is its FLOW_SEQ. -/
def State.issue (s : State) (slot op i tkind port arg : Nat) : State × Nat :=
  match s.plan? slot with
  | none => (s, 0)
  | some p =>
    let f := (p.run op).flow i
    let t : Task := {
      id := s.eng.nextTask, slot := none, record := 0, flow := p.flowStart op + i, plan := slot, op := op, index := i,
      tkind := tkind, cls := p.cls, port := port, node := p.nodes.getD op 0, arg := arg, seq := f.nextSeq,
      state := .ready, readyAt := s.now, began := false, promoted := false, asked := false, tiller := none,
      dispatchedAt := 0, last := 0, work := [], gifts := [], todo := [], fills := [], row := 0, inBatch := 0, part := 0,
      done := false, pushed := [0, 0, 0, 0], err := 0, waits := [], data := [], scan := none, scratch := none, spoilt := none }
    let s := s.mapFlow slot op i (fun f => { f with nextSeq := f.nextSeq + 1 })
    let behind := s.spilled.any (fun u => u.sameFlow t)
    let s := s.mapEng (fun e => { e with tasks := e.tasks ++ [t], nextTask := e.nextTask + 1 })
    let place := fun (s : State) (n : Nat) =>
      let t := { t with slot := some n }
      (s.setTask t).traceTask Ev.issue t t.seq
    let s :=
      if behind then (s.traceTask Ev.issue t t.seq).spillTask t
      else
        match s.freeSlot, s.evictee t.cls with
        | some n, _ => place s n
        | none, some u => place (s.spillTask u) (u.slot.getD 0)
        | none, none => (s.traceTask Ev.issue t t.seq).spillTask t
    (s, t.seq)

/-- Signals a flow's hold (R264): once however many of its tasks stop. -/
def State.holdFlow (s : State) (t : Task) (word : Nat) : State :=
  match s.plan? t.plan with
  | none => s
  | some p =>
    if ((p.run t.op).flow t.index).held then s
    else
      let first := p.firstHeld = 0xFFFF
      let p := { p with firstHeld := if first then t.flow else p.firstHeld, firstErr := if first then word else p.firstErr }
      let s := (s.setPlan t.plan p).mapFlow t.plan t.op t.index (fun f => { f with held := true, err := word })
      (s.traceTask Ev.hold t word).planEvent t.plan 1

/-- Refills free slots (R260): the most urgent, earliest issued record whose predecessors are in slots or have ended. A
record that reads back wrong holds its flow as SPILL_LOST (R263), and no later record of that flow is refilled. -/
def State.refill : Nat → State → State
  | 0, s => s
  | fuel + 1, s =>
    let l := s.spilled
    let first := l.filter (fun t => !s.eng.tasks.any (fun u => u.sameFlow t && decide (u.seq < t.seq) && u.slot.isNone))
    match s.freeSlot, [0, 1, 2, 3].findSome? (fun c => first.find? (fun t => t.cls == c)) with
    | some n, some t =>
      let bad := s.checkRecord t.record
      let s := s.queueRecord t.record
      if bad ≠ 0 then
        let word := 0x0301 + bad * 2 ^ 16 + 0xFF * 2 ^ 24
        let s := (s.setTask { t with state := .stopped, err := word }).raise 43 0 word
        State.refill fuel ((s.holdFlow t word).settleQuota)
      else
        let t := { t with slot := some n }
        let s := s.setTask t
        State.refill fuel ((s.traceTask Ev.refill t s.spillUsed).settleQuota)
    | _, _ => s

/-! ### Leaving a tiller -/

/-- A task leaves its tiller, which becomes idle and pulls on its next turn (R252, R256); a host read still outstanding
is left without a task. -/
def State.leaveTiller (s : State) (t : Task) : State :=
  match t.tiller with
  | none => s
  | some n =>
    let x := s.tiller n
    let read := x.read.map (fun r => { r with task := none })
    (s.setTiller n { task := none, idleAt := s.now, fresh := true, read := read }).addCount C.tilBusy n
      (2 * (s.now - t.dispatchedAt))

/-- Saves a task's cursor and parks it (R252). `code` is PARK's argument. -/
def State.park (s : State) (t : Task) (st : TaskState) (code : Nat) : State :=
  let s := s.leaveTiller t
  let u := { t with state := st, tiller := none, asked := false, data := [], scratch := none }
  (s.setTask u).traceTask Ev.park t code

/-- The rows of partly filled batches, as they stood before they were gathered (R202). -/
def refillTodo (fills : List Fill) : List OutItem :=
  fills.flatMap (fun f => (f.batch.rows.zip f.ids).map (fun r => OutItem.row f.port r.2 f.batch.tag r.1))

/-- Releases a task's partly filled batches and unused credits. -/
def State.releaseFills (s : State) (t : Task) : State :=
  match s.plan? t.plan with
  | none => s
  | some p =>
    let culmOf := fun (port : Nat) => p.culms.getD ((p.opAt t.op).outs.getD port noIndex) 4096
    let s := t.fills.foldl (fun s f => s.releaseBuffer (culmOf f.port) f.batch.buf) s
    t.gifts.foldl (fun s g => s.releaseBuffer g.1 g.2) s

/-- A task stops with an error word (R202, R264): its partly filled batches are released and their rows stand first
among what it has still to push; its flow is held. -/
def State.stopTask (s : State) (t : Task) (word : Nat) : State :=
  let s := (s.leaveTiller t).releaseFills t
  let u := { t with state := .stopped, tiller := none, asked := false, data := [], scratch := none, err := word, fills := [], gifts := [],
                    todo := refillTodo t.fills ++ t.todo }
  (((s.setTask u).traceTask Ev.stop t word).holdFlow t word)

/-- The error word of R202. -/
def errWord (code detail tiller row : Nat) : Nat := code + detail % 256 * 2 ^ 16 + tiller * 2 ^ 24 + row % 2 ^ 32 * 2 ^ 32

/-- A stop of R239: the word goes to OPR_LAST_ERR, and source 34 is raised. -/
def State.stopOp (s : State) (t : Task) (code detail row : Nat) : State :=
  let n := t.last
  let w := errWord code detail n row
  let s := s.setAll [(F.OPR_LAST_ERR_ROW, row), (F.OPR_LAST_ERR_TILLER, n), (F.OPR_LAST_ERR_DETAIL, detail),
    (F.OPR_LAST_ERR_CODE, code)]
  (s.stopTask t w).raise 34 n w

/-- A stop with a DMA code: beside what R239 says of each stop, source 49 (R295). -/
def State.stopDma (s : State) (t : Task) (code detail row : Nat) : State :=
  (s.stopOp t code detail row).raise 49 t.last (errWord code detail t.last row)

/-- A stop with HW_FAULT (R449, R450). -/
def State.stopHw (s : State) (t : Task) (detail : Nat) : State :=
  s.stopTask t (errWord 0x0501 detail t.last t.row)

/-! ### Eligibility (R253) -/

/-- The operator's tasks. -/
def State.tasksOf (s : State) (slot op : Nat) : List Task := s.eng.tasks.filter (fun t => t.plan == slot && t.op == op)

/-- A task whose flow is one holder, from the flow's first task until it has pushed end of stream (R200): of HASH_JOIN those are
the build tasks, and its other tasks are counted one by one. -/
def holdsByFlow (k : Nat) (t : Task) : Bool := kindStateful k && (k != Kind.hashJoin || (t.port == 0 && t.tkind == 0))

/-- Holders of an operator (R164, R200): its live flows, and the begun tasks that count for themselves. -/
def State.holders (s : State) (p : Plan) (slot op : Nat) : Nat :=
  ((p.run op).flows.filter (·.live)).length +
  ((s.tasksOf slot op).filter (fun t => t.began && !holdsByFlow (p.opAt op).kind t)).length

/-- Whether a task is one of the holders already. -/
def Plan.isHolder (p : Plan) (t : Task) : Bool :=
  if holdsByFlow (p.opAt t.op).kind t then ((p.run t.op).flow t.index).live else t.began

/-- A READY task is eligible (R253). -/
def State.eligible (s : State) (t : Task) : Bool :=
  match s.plan? t.plan with
  | none => false
  | some p =>
    let earlier := s.eng.tasks.filter (fun u => u.sameFlow t && decide (u.seq < t.seq))
    t.state == .ready && t.slot.isSome && p.state == .running && !((p.run t.op).flow t.index).held &&
    (if (p.opAt t.op).parallel then earlier.all (·.began) else earlier.isEmpty) &&
    (p.isHolder t || decide (s.holders p t.plan t.op < s.slotsOf p t.op))

/-- The effective class of R257. -/
def Task.effective (t : Task) : Nat := t.cls - natOfBool t.promoted

/-- R254's order of two tasks. -/
def State.before (s : State) (t u : Task) : Bool :=
  let a := (s.node t.node).level
  let b := (s.node u.node).level
  if t.effective ≠ u.effective then decide (t.effective < u.effective)
  else if t.readyAt ≠ u.readyAt then decide (t.readyAt < u.readyAt)
  else if a ≠ b then decide (b < a)
  else if t.node ≠ u.node then decide (t.node < u.node)
  else decide (t.id < u.id)

/-- Inserts a task in R254's order. -/
def State.insertTask (s : State) (t : Task) : List Task → List Task
  | [] => [t]
  | u :: us => if s.before t u then t :: u :: us else u :: s.insertTask t us

/-- The eligible tasks in R254's order. -/
def State.eligibleTasks (s : State) : List Task :=
  (s.eng.tasks.filter s.eligible).foldl (fun l t => s.insertTask t l) []

/-! ### Dispatch and placement (R254 to R256) -/

/-- Tasks are dispatched: MAIN runs, the scheduler is initialised, nothing has halted the part (R452, R478, R527). -/
def State.dispatching (s : State) : Bool :=
  s.mainUp && s.eng.up && !s.latched && !s.pwr.thermtrip && !s.pwr.d3hot

/-- The node whose live tillers serve a node's tasks: itself, or the nearest ancestor that has any (R244). -/
def State.servingNode (s : State) : Nat → Nat → Nat
  | 0, n => n
  | fuel + 1, n => if (s.liveTillers n).isEmpty && n != 0 then s.servingNode fuel (s.node n).parent else n

/-- The live tillers that serve a task. -/
def State.servers (s : State) (t : Task) : List Nat := s.liveTillers (s.servingNode 8 t.node)

/-- A tiller is idle: no task, and no host read of a discarded one. -/
def State.idle (s : State) (n : Nat) : Bool := (s.tiller n).task.isNone && (s.tiller n).read.isNone

/-- A tiller's gate group is gated (R476). -/
def State.gated (s : State) (n : Nat) : Bool := bitOf (s.get F.PWR_GATE_GATED) (n / 8)

/-- Wakes a tiller's gate group (R476). -/
def State.wakeGroup (s : State) (n : Nat) : State :=
  s.set F.PWR_GATE_GATED (putBits (s.get F.PWR_GATE_GATED) (n / 8) 1 0)

/-- Takes `k` buffers for a task's work from the die of its tiller (R164, R166). -/
def State.takeWork (s : State) (die : Nat) : Nat → List Nat × State
  | 0 => ([], s)
  | k + 1 =>
    let b := s.pickBuffer die
    let r := (s.useBuffer b).takeWork die k
    (b :: r.1, r.2)

/-- Dispatches a task to a tiller (R252): its working buffers come with its first dispatch (R164). -/
def State.dispatch (s : State) (t : Task) (n : Nat) : State :=
  match s.plan? t.plan with
  | none => s
  | some p =>
    let o := p.opAt t.op
    let byFlow := holdsByFlow o.kind t
    let first := !p.isHolder t
    let r := if first then s.takeWork (n / 24) o.work else ([], s)
    let u := { t with state := .running, began := true, tiller := some n, dispatchedAt := s.now, last := n, asked := false,
                      work := if byFlow then t.work else t.work ++ r.1 }
    let s := if byFlow && first then r.2.mapFlow t.plan t.op t.index (fun f => { f with live := true, work := f.work ++ r.1 })
      else r.2
    let empty := (s.liveTillers t.node).isEmpty
    let s := if empty && !(p.run t.op).emptyTold then
        (s.mapRun t.plan t.op (fun r => { r with emptyTold := true })).raise 41 0 0 else s
    let s := if s.gated n then s.wakeGroup n else s
    let s := (s.setTask u).setTiller n { s.tiller n with task := some t.id, fresh := false }
    (s.bump C.schDispatch).traceTask Ev.dispatch u t.seq

/-- The die of a task's first input buffer (R255). -/
def State.inputDie (s : State) (t : Task) : Option Nat :=
  match s.plan? t.plan with
  | none => none
  | some p =>
    match s.culm? (p.culms.getD ((p.opAt t.op).ins.getD t.port noIndex) 4096) with
    | none => none
    | some c =>
      ((c.queue.find? (fun r => r.batch.isSome && r.targets.any (fun x => x.flow == t.index && x.task == some t.seq))).bind
        (·.batch)).map (fun b => b.buf / 6144)

/-- Of the children of a node, the one with the most usable tillers beneath it; on a tie, the one that contains the
die, then the lowest child index (R255). -/
def bestChild (usable : List Nat) (die : Option Nat) : List (Nat × Node) → Option (Nat × Node)
  | [] => none
  | c :: cs =>
    let score := fun (x : Nat × Node) =>
      2 * (x.2.tillers.filter (fun t => usable.contains t)).length +
      natOfBool (die.any (fun d => x.2.tillers.any (fun t => t / 24 == d)))
    match bestChild usable die cs with
    | some b => if score c < score b then some b else some c
    | none => some c

/-- The descent of R255 to a tiller among the usable ones. -/
def State.descend (s : State) (usable : List Nat) (die : Option Nat) : Nat → Nat → Option Nat
  | 0, n => (s.node n).tillers.find? (fun t => usable.contains t)
  | fuel + 1, n =>
    if (s.node n).count = 1 then (s.node n).tillers.find? (fun t => usable.contains t)
    else
      match bestChild usable die (s.children n) with
      | some c => s.descend usable die fuel c.1
      | none => (s.node n).tillers.find? (fun t => usable.contains t)

/-- The tiller on which an eligible task is placed: an idle awake one, else an idle gated one (R255). -/
def State.placeFor (s : State) (t : Task) : Option Nat :=
  let free := (s.servers t).filter s.idle
  let awake := free.filter (fun n => !s.gated n)
  s.descend (if awake.isEmpty then free else awake) (s.inputDie t) 8 (s.servingNode 8 t.node)

/-- Places eligible tasks in R254's order, one after the other (R256). -/
def State.placeAll : Nat → State → State
  | 0, s => s
  | fuel + 1, s =>
    match s.eligibleTasks.findSome? (fun t => (s.placeFor t).map (fun n => (t, n))) with
    | some p => State.placeAll fuel (s.dispatch p.1 p.2)
    | none => s

/-- Whether a tiller's task is a candidate for the request of a task of a class; what it is chosen by: least urgent,
most recently dispatched, lowest tiller number (R258). -/
def State.victim (s : State) (t : Task) : Option Task :=
  let cand := (s.servers t).filterMap (fun n => ((s.tiller n).task).bind s.task?)
  let cand := cand.filter (fun u => u.state == .running && !u.asked && decide (t.cls < u.cls))
  cand.foldl (fun b u =>
    match b with
    | none => some u
    | some v => if v.cls < u.cls || (v.cls == u.cls && decide (v.dispatchedAt < u.dispatchedAt)) then some u else some v) none

/-- Asks running tasks to yield (R258): for each eligible task in order, but a promoted one (R257), that finds no idle tiller
beneath its node, while the requests outstanding there are fewer than the eligible, more urgent tasks waiting there. -/
def State.preempt (s : State) : State :=
  if !s.flag F.SCH_CTL_PREEMPT_EN then s
  else
    s.eligibleTasks.foldl (fun s t =>
      let tillers := s.servers t
      if t.promoted || tillers.any s.idle then s
      else
        match s.victim t with
        | none => s
        | some v =>
          let asked := (tillers.filterMap (fun n => ((s.tiller n).task).bind s.task?)).filter (·.asked)
          let waiting := s.eligibleTasks.filter (fun u => !u.promoted && decide (u.cls < v.cls) && (s.servers u).any (fun n => tillers.contains n))
          if asked.length < waiting.length then
            ((s.setTask { v with asked := true }).bump C.schPreempt).traceTask Ev.yieldReq v t.cls
          else s) s

/-- The tillers that have become idle and have not pulled yet, in ascending order (R256). -/
def State.freshTillers (s : State) : List Nat :=
  (List.range 96).filter (fun n => (s.tiller n).fresh && s.idle n && s.live? n)

/-- A tiller's pull (R254): the first eligible task that it serves. -/
def State.pull (s : State) (n : Nat) : State :=
  let s := s.setTiller n { s.tiller n with fresh := false }
  match s.eligibleTasks.find? (fun k => (s.servers k).contains n) with
  | some k => s.dispatch k n
  | none => s

/-- What the scheduler does after every change (R255, R256, R258, R260): it refills slots; once every tiller that has become idle
has pulled, it places eligible tasks; and it asks tasks to yield. -/
def State.schedule (s : State) : State :=
  if !s.dispatching then s
  else
    let s := State.refill (s.spilled.length + 1) s
    (if s.freshTillers.isEmpty then State.placeAll 96 s else s).preempt

end Sys2Proof.Machine
end

