-- ==== Sys2Proof/Machine/CulmOps.lean ====
section
/-!
DEFINITION. Culms (R159 to R162, R190, R192, R250): pushing references and issuing their tasks, taking references, end
of stream, and the end of a plan and its teardown (R173, R177).
-/

namespace Sys2Proof.Machine

/-! ### Pushing references (R192, R250) -/

/-- An output port is partitioned: late rows never are (R192, R229). -/
def OpRec.partitioned (o : OpRec) (port : Nat) : Bool := decide (0 < o.partLog) && !(o.kind == Kind.windowAgg && port == 3)

/-- The partition of a row on an output port (R192). -/
def OpRec.partOf (o : OpRec) (port : Nat) (row : Row) : Nat :=
  if !o.partitioned port || (o.kind == Kind.exchange && o.broadcast) then 0
  else rowHash (keyOf (o.schema port) (o.partCols.take o.partKeys) row) / 2 ^ (64 - o.partLog)

/-- The consumer flows that a reference goes to (R192, R250). -/
def targetFlows (o c : OpRec) (port : Nat) (kind : RefKind) (flow part : Nat) : List Nat :=
  if !o.partitioned port then [flow % c.flows]
  else
    match kind with
    | .data => [part % c.flows]
    | _ => List.range c.flows

/-- HASH_JOIN's probe port before the mode choice: no probe task is issued (R217). -/
def Plan.probeHeld (p : Plan) (op port : Nat) : Bool :=
  (p.opAt op).kind == Kind.hashJoin && port == 1 && (((p.run op).flow 0).st.mode == 0)

/-- The task of a flow that still waits for a block end on a port (R250). -/
def FlowRun.openOn (f : FlowRun) (port : Nat) : Option Nat := (f.opened.find? (fun x => x.1 == port)).map (·.2)

/-- Whether a reference of a kind to a flow would issue a task (R250). -/
def Plan.wouldIssue (p : Plan) (op port : Nat) (kind : RefKind) (flow : Nat) : Bool :=
  kind != .blockEnd && !p.probeHeld op port && (((p.run op).flow flow).openOn port).isNone

/-- A reference reaches the task that waits for it (R252). -/
def State.wakeInput (s : State) (slot op flow seq : Nat) : State :=
  match s.eng.tasks.find? (fun t => t.plan == slot && t.op == op && t.index == flow && t.seq == seq && t.state == .waitInput) with
  | some t => s.makeReady t 2
  | none => s

/-- A reference arrives for a flow (R250): the task it belongs to, issued where none is open; a block end closes it.
The result is the target it still has, none for a block end that no task waits for. -/
def State.arrive (s : State) (slot op port : Nat) (kind : RefKind) (flow : Nat) : State × Option Target :=
  match s.plan? slot with
  | none => (s, none)
  | some p =>
    if p.probeHeld op port then (s, some { flow := flow, task := none })
    else
      match ((p.run op).flow flow).openOn port with
      | some seq =>
        let s := if kind = .blockEnd then
            s.mapFlow slot op flow (fun f => { f with opened := f.opened.filter (fun x => x.1 != port) }) else s
        (s.wakeInput slot op flow seq, some { flow := flow, task := some seq })
      | none =>
        if kind = .blockEnd then (s, none)
        else
          let r := s.issue slot op flow 0 port 0
          (r.1.mapFlow slot op flow (fun f => { f with opened := f.opened ++ [(port, r.2)] }),
           some { flow := flow, task := some r.2 })

/-- A reference arrives for several flows. -/
def State.arriveAll (s : State) (slot op port : Nat) (kind : RefKind) : List Nat → State × List Target
  | [] => (s, [])
  | f :: fs =>
    let r := s.arrive slot op port kind f
    let q := r.1.arriveAll slot op port kind fs
    (q.1, r.2.toList ++ q.2)

/-- The culm slot of an output port. -/
def Plan.outCulm (p : Plan) (op port : Nat) : Option Nat :=
  match (p.opAt op).outs[port]? with
  | some k => p.culms[k]?
  | none => none

/-- The culm slot of an input port. -/
def Plan.inCulm (p : Plan) (op port : Nat) : Option Nat :=
  match (p.opAt op).ins[port]? with
  | some k => p.culms[k]?
  | none => none

/-- A push is held back: it would issue a task, and the spill quota is exhausted, or for URGENT nothing has room
(R261). -/
def State.pushHeld (s : State) (p : Plan) (o : OpRec) (c : Culm) (port : Nat) (kind : RefKind) (flow part : Nat) : Bool :=
  let op := c.decl.consumer
  let n := ((targetFlows o (p.opAt op) port kind flow part).filter (fun f => p.wouldIssue op c.decl.consPort kind f)).length
  decide (0 < n) && (if p.cls = 0 then !s.roomFor n else s.eng.quota)

/-- A column's section of a batch (R187): HAS_NULLS, the validity bitmap where it is set, and the values at natural width; the
bytes of a null row's value are free. -/
def batchSection (ty free : Nat) (vs : List Value) : Bool × List Byte :=
  let nulls := vs.any Value.isNull
  (nulls, (if nulls then padBytes8 (validityBytes vs) else []) ++
    padBytes8 (vs.flatMap (fun v => leBytes (tyWidth ty) (if v.isNull then Config.freeNat free else v.pat))))

/-- The sections of a batch with their offsets, from one offset on. -/
def batchSections (free : Nat) (rows : List Row) : Nat → List ((Nat × Nat) × Nat) → List (Nat × Bool × Nat × List Byte)
  | _, [] => []
  | off, c :: cs =>
    let x := batchSection c.1.1 free (rows.map (fun r => r.getD c.2 .null))
    (off, x.1, c.1.1, x.2) :: batchSections free rows (off + x.2.length) cs

/-- The valid bytes of the buffer that a batch lies in (R186, R187): the header, the column directory, the columns' sections. -/
def Batch.bytes (b : Batch) (schema : List (Nat × Nat)) (free : Nat) : List Byte :=
  let l := batchSections free b.rows (32 + pad8 (4 * schema.length)) schema.zipIdx
  leBytes 2 schema.length ++ leBytes 2 b.rows.length ++ leBytes 2 b.part ++ leBytes 2 0 ++ leBytes 8 b.rowId ++
  leBytes 8 b.tag ++ leBytes 8 0 ++ padBytes8 (l.flatMap (fun x => leBytes 2 x.1 ++ leBytes 1 x.2.2.1 ++ leBytes 1 (natOfBool x.2.1))) ++
  l.flatMap (fun x => x.2.2.2)

/-- LEN of a reference to a batch (R159). -/
def Batch.len (b : Batch) (schema : List (Nat × Nat)) : Nat := (b.bytes schema 0).length

/-- Pushes a reference on an output port (R159, R190); none when it must wait (R261). -/
def State.pushRef (s : State) (t : Task) (port : Nat) (kind : RefKind) (count : Nat) (batch : Option Batch) : Option State :=
  match s.plan? t.plan with
  | none => some s
  | some p =>
    match p.outCulm t.op port with
    | none => some s
    | some k =>
      match s.culm? k with
      | none => some s
      | some c =>
        let o := p.opAt t.op
        let part := (batch.map (·.part)).getD 0
        if s.pushHeld p o c port kind t.index part then none
        else
          let r := s.arriveAll t.plan c.decl.consumer c.decl.consPort kind
            (targetFlows o (p.opAt c.decl.consumer) port kind t.index part)
          let s := r.1
          if r.2.isEmpty then some s
          else
            match s.culm? k with
            | some c => some (s.setCulm k { c with queue := c.queue ++ [{
                kind := kind, flow := t.flow, count := count, len := (batch.map (fun b => b.len (o.schema port))).getD 0,
                batch := batch, targets := r.2 }] })
            | none => some s

/-! ### Taking references -/

/-- Whether a reference belongs to a task. -/
def Ref.isFor (r : Ref) (t : Task) : Bool := r.targets.any (fun x => x.flow == t.index && x.task == some t.seq)

/-- The next reference of a task's input block: its culm and the reference. -/
def State.nextRef (s : State) (t : Task) : Option (Nat × Ref) :=
  match (s.plan? t.plan).bind (fun p => p.inCulm t.op t.port) with
  | none => none
  | some k => ((s.culm? k).bind (fun c => c.queue.find? (fun r => r.isFor t))).map (fun r => (k, r))

/-- Takes a task out of the targets of its first reference; a reference with none left leaves the queue. -/
def dropTarget (t : Task) : List Ref → List Ref
  | [] => []
  | r :: rs =>
    if r.isFor t then
      let left := r.targets.filter (fun x => !(x.flow == t.index && x.task == some t.seq))
      if left.isEmpty then rs else { r with targets := left } :: rs
    else r :: dropTarget t rs

/-- A task is done with a reference. Its buffer is released, unless the task keeps it (R160). -/
def State.consume (s : State) (t : Task) (k : Nat) (r : Ref) (keep : Bool) : State :=
  match s.culm? k with
  | none => s
  | some c =>
    let s := s.setCulm k { c with queue := dropTarget t c.queue }
    match r.batch with
    | some b => if keep then s else s.releaseBuffer k b.buf
    | none => s

/-! ### The end of a plan (R172, R173) -/

/-- The plan's calendar entries are cleared (R172, R177). -/
def State.clearPlanCalendar (s : State) (slot : Nat) : State :=
  { s with cal := { s.cal with
      entries := s.cal.entries.filter (fun e => !(e.2.target == 1 && e.2.arg / 65536 == s.handleOf slot)) } }

/-- A task leaves the scheduler: its working buffers go back. -/
def State.removeTask (s : State) (t : Task) : State :=
  let s := t.work.foldl (fun s b => s.freeBuffer b) s
  s.mapEng (fun e => { e with tasks := e.tasks.filter (fun u => u.id != t.id), waits := e.waits.filter (fun w => w.task != t.id),
                              quotaWaits := e.quotaWaits.filter (· != t.id) })

/-- The accepted command that a plan's PLAN_START is. -/
def State.acceptedOf (s : State) (id : Option Nat) : Option Accepted :=
  id.bind (fun n => s.mbx.accepted.find? (fun a => a.id == n))

/-- Completes a command by its number, where it still exists. -/
def State.completeId (s : State) (id : Option Nat) (status result : Nat) : State :=
  match s.acceptedOf id with
  | some a => s.complete a status result
  | none => s

/-- The culms of a plan are reset: what they hold goes back (R162). -/
def State.resetCulms (s : State) (p : Plan) : State :=
  p.culms.foldl (fun s k =>
    match s.culm? k with
    | some c => (c.held.foldl (fun s b => s.freeBuffer b) s).setCulm k { c with queue := [], held := [], ended := false }
    | none => s) s

/-- Every operator has ended (R173): PLAN_START completes OK with the rows written, and PLAN_END is signalled. -/
def State.finishPlan (s : State) (slot : Nat) : State :=
  match s.plan? slot with
  | none => s
  | some p =>
    let s := (s.clearPlanCalendar slot).resetCulms p
    let work := p.ops.flatMap (fun r => r.flows.flatMap (·.work))
    let s := work.foldl (fun s b => s.freeBuffer b) s
    let cmd := p.cmd
    let s := s.setPlan slot { p with state := .loaded, cmd := none }
    ((s.completeId cmd CC.ok (min (2 ^ 48 - 1) p.rowsOut)).planEvent slot 0).settleCredits

/-! ### End of stream (R161, R200) -/

/-- End of stream has been delivered on a port, which is after every reference before it has been taken. -/
def State.portEnded (s : State) (p : Plan) (op port : Nat) : Bool :=
  match p.inCulm op port with
  | some k => ((s.culm? k).map (·.ended)).getD true
  | none => true

/-- The end-of-stream reference of a culm is taken once it comes first (R161). -/
def Culm.takeEnd (c : Culm) : Culm :=
  match c.queue with
  | r :: _ => if r.kind = .endOfStream then { c with queue := [], ended := true } else c
  | [] => c

/-- An operator takes the end-of-stream references that come first on its input culms. -/
def State.takeEnds (s : State) (p : Plan) (op : Nat) : State :=
  ((List.range 4).filterMap (p.inCulm op)).foldl (fun s k =>
    match s.culm? k with
    | some c => s.setCulm k c.takeEnd
    | none => s) s

/-- Every input port has ended; SCAN has issued its last stripe (R209). -/
def State.inputEnded (s : State) (p : Plan) (op : Nat) : Bool :=
  let o := p.opAt op
  let r := p.run op
  if o.kind = Kind.scan then !o.scanFollow && (r.stop.map (fun e => decide (e ≤ r.next))).getD false
  else (List.range 4).all (s.portEnded p op)

/-- The mode choice of HASH_JOIN (R217), once its build side has ended: SMALL or LARGE with its k; the probe references
that waited find their tasks. -/
def State.chooseMode (s : State) (slot op : Nat) : State :=
  match s.plan? slot with
  | none => s
  | some p =>
    let o := p.opAt op
    let st := ((p.run op).flow 0).st
    let bytes := o.joinRowBytes (p.image.inSchema o 0)
    let large := decide (scratchTable < st.hashes.length * bytes)
    let k := if large then largeLog bytes st.hashes else 0
    let s := s.mapFlow slot op 0 (fun f => { f with st := { f.st with mode := if large then 2 else 1, klog := k } })
    match p.inCulm op 1 with
    | none => s
    | some c =>
      match s.culm? c with
      | none => s
      | some cu =>
        let r := cu.queue.foldl (fun (a : State × List Ref) ref =>
          let q := a.1.arriveAll slot op 1 ref.kind (ref.targets.map (·.flow))
          (q.1, if q.2.isEmpty && ref.kind != .endOfStream then a.2 else a.2 ++ [{ ref with targets := q.2 }])) (s, [])
        match r.1.culm? c with
        | some cu => r.1.setCulm c { cu with queue := r.2 }
        | none => r.1

/-- End-of-stream tasks of an operator (R200): flow, port, and ARG's place for a partition. -/
def Plan.drainTasks (p : Plan) (op : Nat) : List (Nat × Nat) :=
  let o := p.opAt op
  let r := p.run op
  if o.kind = Kind.hashJoin then
    let st := (r.flow 0).st
    if st.mode = 2 then (List.range (2 ^ st.klog)).map (fun k => (0, k)) else []
  else if o.kind = Kind.windowAgg then
    if o.closeAtEnd then (List.range o.flows).map (fun i => (i, 0)) else []
  else if kindStateful o.kind then (List.range o.flows).map (fun i => (i, 0))
  else []

/-- Issues the end-of-stream tasks; one of a LARGE join carries its partition. -/
def State.issueDrain (s : State) (slot op : Nat) (l : List (Nat × Nat)) : State :=
  (l.foldl (fun s d =>
    let r := s.issue slot op d.1 3 0 0
    match r.1.eng.tasks.find? (fun t => t.plan == slot && t.op == op && t.index == d.1 && t.seq == r.2) with
    | some t => r.1.setTask { t with part := d.2 }
    | none => r.1) s).mapRun slot op (fun r => { r with draining := true })

/-- MATERIALIZE's flush at end of stream on a port (R235): the ports whose range is not empty and no task serves. -/
def State.flushDue (s : State) (p : Plan) (slot op : Nat) : List Nat :=
  if (p.opAt op).kind ≠ Kind.materialize then []
  else
    let st := ((p.run op).flow 0).st
    [0, 1].filter (fun port => s.portEnded p op port && !(st.ranges.getD port []).isEmpty &&
      !(s.tasksOf slot op).any (fun t => t.port == port))

/-- Windows are still open in some flow. -/
def OpRun.windowsOpen (r : OpRun) : Bool := r.flows.any (fun f => !f.st.groups.isEmpty || !f.st.wins.isEmpty)

/-- An operator may push its end of stream: its tasks and its end-of-stream work have ended, and a FIELD window
operator without CLOSE_AT_END has no window left (R161, R230). -/
def State.mayEnd (s : State) (p : Plan) (slot op : Nat) : Bool :=
  let o := p.opAt op
  let r := p.run op
  s.inputEnded p op && (s.tasksOf slot op).isEmpty && (r.draining || (p.drainTasks op).isEmpty) &&
  (s.flushDue p slot op).isEmpty &&
  !(o.kind == Kind.windowAgg && !o.timeData && !o.closeAtEnd && r.windowsOpen)

/-- The end-of-stream reference of an operator (R161, R190). The manual names no flow for it: the operator's first one stands in
FLOW (DESIGN CHOICE, log entry 182). -/
def Plan.endRef (p : Plan) (op : Nat) : Ref :=
  { kind := .endOfStream, flow := p.flowStart op, count := 0, len := 0, batch := none, targets := [] }

/-- An operator ends (R161, R200): its state and working buffers go, and it pushes end of stream on each output culm. -/
def State.endOp (s : State) (slot op : Nat) : State :=
  match s.plan? slot with
  | none => s
  | some p =>
    let work := (p.run op).flows.flatMap (·.work)
    let s := work.foldl (fun s b => s.freeBuffer b) s
    let s := s.mapRun slot op (fun r => { r with
      ended := true, closing := [], flows := r.flows.map (fun f => { f with work := [], live := false, st := FlowState.blank }) })
    ((List.range 4).filterMap (p.outCulm op)).foldl (fun s k =>
      match s.culm? k with
      | some c => s.setCulm k { c with queue := c.queue ++ [p.endRef op] }
      | none => s) s

/-- One operator's end-of-stream business. -/
def State.settleOp (s : State) (slot op : Nat) : State :=
  match s.plan? slot with
  | none => s
  | some p =>
    let o := p.opAt op
    let r := p.run op
    if r.ended then s
    else
      let s := s.takeEnds p op
      let choose := o.kind == Kind.hashJoin && ((r.flow 0).st.mode == 0) && s.portEnded p op 0 &&
        !(s.tasksOf slot op).any (fun t => t.port == 0)
      let s := if choose then s.chooseMode slot op else s
      match s.plan? slot with
      | none => s
      | some p =>
        let due := s.flushDue p slot op
        let s := if s.roomFor due.length then due.foldl (fun s port => (s.issue slot op 0 3 port 0).1) s else s
        let ready := s.inputEnded p op && (s.tasksOf slot op).isEmpty
        let l := p.drainTasks op
        let s := if ready && !(p.run op).draining && !l.isEmpty && s.roomFor l.length then s.issueDrain slot op l else s
        match s.plan? slot with
        | some p => if s.mayEnd p slot op then s.endOp slot op else s
        | none => s

/-- End-of-stream business of every operator of a plan, as often as it may cascade; then the plan's end (R161, R173). -/
def State.settleOps (s : State) (slot : Nat) : State :=
  match s.plan? slot with
  | none => s
  | some p =>
    if p.state ≠ .running then s
    else
      let n := p.image.ops.length
      let s := (List.range n).foldl (fun s _ => (List.range n).foldl (fun s op => s.settleOp slot op) s) s
      match s.plan? slot with
      | some p => if p.ops.all (·.ended) then s.finishPlan slot else s
      | none => s

/-! ### Teardown (R177) -/

/-- Discards a task (R177, R252): its tiller is free at once, but for a host read still outstanding. Its buffers and its borrow
request stay until step 3. -/
def State.discard (s : State) (t : Task) : State :=
  let s := ((s.traceTask Ev.discard t t.seq).leaveTiller t).dropWaiter (.task t.id)
  let s := s.mapEng (fun e => { e with tasks := e.tasks.filter (fun u => u.id != t.id), quotaWaits := e.quotaWaits.filter (· != t.id) })
  match s.plan? t.plan with
  | some p => s.setPlan t.plan { p with left := p.left ++ t.work }
  | none => s

/-- Steps 1 and 2 of R177: nothing is issued any more, the calendar entries go, every task is discarded. `ending` is PLAN_START's status and RESULT. -/
def State.teardown (s : State) (slot : Nat) (ending : Nat × Nat) : State :=
  match s.plan? slot with
  | none => s
  | some p =>
    let s := s.setPlan slot { p with state := .cancelling, ending := some ending }
    let s := s.clearPlanCalendar slot
    let s := (s.eng.tasks.filter (fun t => t.plan == slot)).foldl (fun s t => s.discard t) s
    s.settleQuota

/-- Host reads of a plan still outstanding. -/
def State.planReads (s : State) (slot : Nat) : Bool :=
  s.eng.tillers.any (fun x => (x.2.read.map (fun r => r.plan == slot)).getD false)

/-- Step 3 and 4 of R177: buffers return, borrow requests are withdrawn, culms are reset, PLAN_START completes and then the
PLAN_CANCELs, and the plan is LOADED. A PLAN_START that a DEVICE_RESET has completed is not completed again. -/
def State.endTeardown (s : State) (slot : Nat) : State :=
  match s.plan? slot with
  | none => s
  | some p =>
    let work := p.left ++ p.ops.flatMap (fun r => r.flows.flatMap (·.work))
    let s := (work.foldl (fun s b => s.freeBuffer b) s).resetCulms p
    let s := s.mapEng (fun e => { e with waits := e.waits.filter (fun w => !p.culms.contains w.culm) })
    let e := p.ending.getD (CC.aborted, 1)
    let s := s.setPlan slot { p with
      state := .loaded, cmd := none, cancels := [], ending := none, left := [],
      ops := p.ops.map (fun r => { r with flows := r.flows.map (fun f => { f with held := false, work := [], live := false, st := FlowState.blank }) }) }
    let s := if p.cmd.isSome then (s.completeId p.cmd e.1 e.2).planEvent slot 0 else s
    (p.cancels.foldl (fun s c => s.completeId (some c) CC.ok 0) s).settleCredits

end Sys2Proof.Machine
end

