-- ==== Sys2Proof/Machine/Tables.lean ====
section
/-!
DEFINITION. Tables (R131, R132, R148, R152 to R158): heads, stripe records, attachment, and the writes that append a
block or a stripe.
-/

namespace Sys2Proof.Machine

/-! ### Heads and records (R131, R152) -/

/-- All-ones of 64 bits. -/
def ones64 : Nat := 2 ^ 64 - 1

/-- The head line of a table as it stands. -/
def Attached.headBytes (a : Attached) : List Byte :=
  leBytes 4 0x48545053 ++ leBytes 1 1 ++ leBytes 1 a.decl.role ++ leBytes 2 a.decl.types.length ++ leBytes 8 a.stripes ++
  leBytes 8 a.rows ++ leBytes 8 a.fill ++ leBytes 8 (a.pending.getD ones64) ++ leBytes 2 a.decl.timeCol ++ leBytes 22 0

/-- Column-state entry c (R152). -/
def Attached.stateEntry (a : Attached) (c : Nat) : Nat := a.next.getD c 0 % 2 ^ 48 + a.decl.types.getD c 0 * 2 ^ 48

/-- Whether 64 bytes are a valid head that agrees with a declaration (R152, R153). Detail 1 for MAGIC or VERSION, 2 for
a mismatch (R239). -/
def headFail (d : TableDecl) (b : List Byte) : Option Nat :=
  if leField b 0 4 ≠ 0x48545053 || leField b 4 1 ≠ 1 then some 1
  else if leField b 5 1 ≠ d.role || leField b 6 2 ≠ d.types.length || leField b 0x28 2 ≠ d.timeCol then some 2
  else none

/-- Length of a stripe record in the area (R156). -/
def recordLen (columns : Nat) : Nat := roundUp (48 + 16 * columns) 64

/-- The write of the head line. -/
def Attached.headWrite (a : Attached) : MemWrite := { loc := a.decl.loc, addr := a.decl.head, bytes := a.headBytes }

/-- The stripe record of the open row range (R131). -/
def Attached.recordBytes (a : Attached) (base : Nat) : List Byte :=
  let first := (a.opened.headD ⟨0, 0, 0, 0, 0, 0, 0⟩)
  let ts := a.opened.find? (fun o => o.col == a.decl.timeCol)
  leBytes 4 0x54535053 ++ leBytes 1 1 ++ leBytes 1 0 ++ leBytes 2 a.decl.types.length ++ leBytes 2 first.rows ++
  leBytes 6 0 ++ leBytes 8 first.firstRow ++ leBytes 8 ((ts.map (·.least)).getD 0) ++
  leBytes 8 ((ts.map (·.greatest)).getD 0) ++ leBytes 2 a.decl.timeCol ++ leBytes 6 0 ++
  (List.range a.decl.types.length).flatMap (fun c =>
    match a.opened.find? (fun o => o.col == c) with
    | some o => leBytes 8 (o.offset - base) ++ leBytes 4 o.len ++ leBytes 1 (a.decl.types.getD c 0) ++ leBytes 3 0
    | none => leBytes 16 0)

/-- Whether the open row range has a block in every column. -/
def Attached.complete (a : Attached) : Bool :=
  (List.range a.decl.types.length).all (fun c => a.opened.any (fun o => o.col == c))

/-- What keeps a block from being appended (R157): 1 the area, 2 the directory. -/
def Attached.full (a : Attached) (len columnsLeft : Nat) : Option Nat :=
  let start := if a.pending.isSome then a.fill else a.fill + recordLen a.decl.types.length
  if a.decl.areaLen < start + len then some 1
  else if columnsLeft ≤ 1 && decide (a.decl.dirLen < 8 * (a.stripes + 1)) then some 2
  else none

/-- Columns of the open row range that have no block yet. -/
def Attached.columnsLeft (a : Attached) : Nat := a.decl.types.length - a.opened.length

/-- The column-state entry of a column in the head (R152). -/
def Attached.entryAddr (a : Attached) (col : Nat) : Nat := a.decl.head + 64 + 8 * col

/-- The writes that append a block (R156), and the table after them. -/
def Attached.append (a : Attached) (col : Nat) (block : List Byte) : Attached × List MemWrite :=
  let h := blockHead block
  let loc := a.decl.loc
  let fresh := a.pending.isNone
  let a1 := if fresh then { a with pending := some a.fill, fill := a.fill + recordLen a.decl.types.length } else a
  let open_ : OpenBlock := {
    col := col, firstRow := h.firstRow, rows := h.rows, offset := a1.fill, len := block.length,
    least := if h.hasMinMax then h.least % 2 ^ 64 else 0, greatest := if h.hasMinMax then h.greatest % 2 ^ 64 else 0 }
  let a2 := { a1 with fill := a1.fill + roundUp block.length 64, opened := a1.opened ++ [open_] }
  let a3 := { a2 with next := a2.next.set col (h.firstRow + h.rows) }
  let base := a3.pending.getD 0
  let before := (if fresh then [a1.headWrite] else []) ++
    [{ loc := loc, addr := a.decl.area + a1.fill, bytes := block }, a2.headWrite,
     { loc := loc, addr := a.entryAddr col, bytes := leBytes 8 (a3.stateEntry col) }]
  if a3.complete then
    let a4 := { a3 with stripes := a3.stripes + 1, rows := a3.rows + h.rows, pending := none, opened := [] }
    let after : List MemWrite :=
      [{ loc := loc, addr := a.decl.area + base, bytes := a3.recordBytes base },
       { loc := loc, addr := a.decl.dir + 8 * a3.stripes, bytes := leBytes 8 (a.decl.area + base) }, a4.headWrite]
    (a4, before ++ after)
  else (a3, before)

/-! ### Attached tables (R153) -/

/-- A table goes back to what was visible before a write that does not end (R134, R158); its declaration, the plans that use it
and the report of R157 stay as they are. -/
def Attached.revert (t saved : Attached) : Attached :=
  { t with stripes := saved.stripes, rows := saved.rows, fill := saved.fill, pending := saved.pending, next := saved.next,
           opened := saved.opened }

/-- An attached table by TABLE_ID. -/
def State.table? (s : State) (id : Nat) : Option Attached := s.eng.tables.find? (fun a => a.decl.id == id)

/-- Writes an attached table back. -/
def State.setTable (s : State) (a : Attached) : State :=
  s.mapEng (fun e => { e with tables := e.tables.map (fun b => if b.decl.id = a.decl.id then a else b) })

/-- Takes the table of an unfinished write back. -/
def State.revertTable (s : State) (saved : Attached) : State :=
  match s.table? saved.decl.id with
  | some t => s.setTable (t.revert saved)
  | none => s

/-- Performs writes in order until one must wait or fails; what is left of them (R156, R237). -/
def State.performWrites (s : State) (w : Waiter) (ctx : Nat) : List MemWrite → State × List MemWrite × Dma Unit
  | [] => (s, [], .ok ())
  | m :: ms =>
    match s.writeMem w (placeOf m.loc ctx m.addr) m.bytes with
    | (s, .ok []) => s.performWrites w ctx ms
    | (s, .ok left) => (s, left.map (fun p => { loc := m.loc, addr := p.1, bytes := p.2 }) ++ ms, .pending)
    | (s, .park q) => (s, m :: ms, .park q)
    | (s, .stop c d) => (s, m :: ms, .stop c d)
    | (s, .pending) => (s, m :: ms, .pending)

/-- The writes of a fresh head: zero counts, every NEXT_ROW 0 (R153). -/
def Attached.freshWrites (a : Attached) : List MemWrite :=
  a.headWrite :: (List.range a.decl.types.length).map (fun c =>
    { loc := a.decl.loc, addr := a.decl.head + 64 + 8 * c, bytes := leBytes 8 (a.stateEntry c) })

/-- A table with nothing in it. -/
def freshTable (d : TableDecl) (slot : Nat) : Attached :=
  { decl := d, stripes := 0, rows := 0, fill := 0, pending := none, next := d.types.map (fun _ => 0), opened := [],
    users := [slot], raised := false }

/-- The blocks written for the open row range, as they lie in the area between the record and FILL: each is a block of a column
of its TYPE whose NEXT_ROW lies past ROWS and that has none yet. Which of several such columns it is, nothing in the area says:
`pick` chooses. `read` gives a block's header. -/
def openBlocks (d : TableDecl) (rows : Nat) (next : List Nat) (read : Nat → List Byte) (pick : Nat → Nat) (fill : Nat) :
    Nat → Nat → List OpenBlock → List OpenBlock
  | 0, _, l => l
  | fuel + 1, at_, l =>
    if fill ≤ at_ then l
    else
      let h := blockHead (read at_)
      let cols := (List.range d.types.length).filter (fun c =>
        d.types.getD c 0 == h.ty && decide (rows < next.getD c 0) && !l.any (fun o => o.col == c))
      match cols[pick l.length % cols.length]? with
      | some c =>
        openBlocks d rows next read pick fill fuel (at_ + roundUp (max 64 h.len) 64)
          (l ++ [{ col := c, firstRow := h.firstRow, rows := h.rows, offset := at_, len := h.len,
                   least := if h.hasMinMax then h.least % 2 ^ 64 else 0,
                   greatest := if h.hasMinMax then h.greatest % 2 ^ 64 else 0 }])
      | none => openBlocks d rows next read pick fill fuel (at_ + roundUp (max 64 h.len) 64) l

/-- The bytes of a table's place that the load can read: the window, the device region, or what the host delivered. -/
def State.tableBytes (s : State) (p : Place) (len : Nat) : List Byte :=
  sliceBytes ((s.memLines p len).flatMap (fun l => bytesOfLine l.1)) (p.addr % 64) len

/-- A recorded table taken up as its head and entries say (R153). Which column of one TYPE a block of the open row range belongs
to is a free value. -/
def State.recordedTable (s : State) (ctx slot : Nat) (d : TableDecl) (head : List Byte) : State × Attached :=
  let at_ := s.freeCtr
  let next := (List.range d.types.length).map (fun c => leField head (64 + 8 * c) 6)
  let rows := leField head 0x10 8
  let fill := leField head 0x18 8
  let pending := leField head 0x20 8
  let read := fun (off : Nat) => s.tableBytes (placeOf d.loc ctx (d.area + off)) 96
  let pick := fun (i : Nat) => Config.freeNat (at_ + i)
  ({ s with freeCtr := at_ + d.types.length },
   { decl := d, stripes := leField head 8 8, rows := rows, fill := fill,
     pending := if pending = ones64 then none else some pending, next := next,
     opened := if pending = ones64 || d.role != Role.ingest then [] else
       openBlocks d rows next read pick fill (d.types.length + 1) (pending + recordLen d.types.length) [],
     users := [slot], raised := false })

/-- Column types in the entries agree with the declaration (R153). -/
def entriesOk (d : TableDecl) (head : List Byte) : Bool :=
  (List.range d.types.length).all (fun c => leField head (64 + 8 * c + 6) 1 == d.types.getD c 0)

/-- How a declaration is treated at load (R153): attached already, attached as recorded, attached fresh, or check 11
fails. -/
inductive Attach where
  | shared
  | recorded
  | fresh
  | fails

/-- The case of R153 that a declaration falls under, given the bytes of its head and entries. -/
def State.attachCase (s : State) (d : TableDecl) (head : List Byte) : Attach :=
  match s.table? d.id with
  | some a =>
    if { d with areaLen := 0, dirLen := 0 } = { a.decl with areaLen := 0, dirLen := 0 } ∧ a.decl.areaLen ≤ d.areaLen ∧
        a.decl.dirLen ≤ d.dirLen then .shared else .fails
  | none =>
    if headFail d head = none ∧ entriesOk d head then .recorded
    else if head.take 64 |>.all (· == 0#8) then (if d.role = Role.source then .fails else .fresh)
    else .fails

end Sys2Proof.Machine
end

