-- ==== Sys2Proof/Machine/WorkArea.lean ====
section
/-!
DEFINITION. What tasks read and write beside their culms: memory at a value's granularity (R199, R294), the strings that
references name (R189), and the work areas of the operators that spill (R195, R217, R219, R223).
-/

namespace Sys2Proof.Machine

/-! ### How a step ends early -/

/-- What ends the work of a step early: a park, a stop by DMA or with a code of R239, each with its detail and row, host data to
come, or a rejected block. -/
inductive StepEnd where
  | park (w : PageWait)
  | dma (code detail row : Nat)
  | stop (code detail row : Nat)
  | pending
  | block (e : BlockErr)

/-- Reports a block that a check rejected (R140): CBV_LAST_ERR, its counter and source 32. -/
def State.rejectBlock (s : State) (e : BlockErr) (origin : Nat) : State :=
  let s := s.setAll [(F.CBV_LAST_ERR_OFFSET, e.offset), (F.CBV_LAST_ERR_ORIGIN, origin), (F.CBV_LAST_ERR_DETAIL, e.detail),
    (F.CBV_LAST_ERR_CODE, e.code)]
  (s.bump C.cbvReject).raise 32 0 0

/-- Ends a step that could not be finished. -/
def State.endStep (s : State) (t : Task) : StepEnd → State
  | .park w => s.park { t with waits := [w] } .waitPage 3
  | .dma c d r => s.stopDma t c d r
  | .stop c d r => s.stopOp t c d r
  | .pending => s
  | .block e => (s.rejectBlock e (t.tiller.getD 0)).stopOp t e.code e.detail e.offset

/-- Does something for each element of a list, until one of them ends the step. -/
def State.each {α β : Type} (s : State) (f : State → α → State × Except StepEnd β) : List α → State × Except StepEnd (List β)
  | [] => (s, .ok [])
  | a :: as =>
    match f s a with
    | (s, .error e) => (s, .error e)
    | (s, .ok b) =>
      match s.each f as with
      | (s, .error e) => (s, .error e)
      | (s, .ok bs) => (s, .ok (b :: bs))

/-- Goes on with what a step has obtained, or ends the step. -/
def orEnd {α : Type} (r : State × Except StepEnd α) (t : Task) (k : State → α → State) : State :=
  match r with
  | (s, .ok v) => k s v
  | (s, .error e) => s.endStep t e

/-- A task's read of memory (R290 to R292). -/
def State.taskRead (s : State) (t : Task) (p : Place) (len : Nat) : State × Except StepEnd (List Byte) :=
  match s.readMem t p len with
  | (s, .ok b) => (s, .ok b)
  | (s, .park w) => (s, .error (.park w))
  | (s, .stop c d) => (s, .error (.dma c d t.row))
  | (s, .pending) => (s, .error .pending)

/-! ### Strings (R189) -/

/-- The place that a string reference names, and its length (R189). -/
def refPlace (ctx ref : Nat) : Place := if bitOf ref 47 then placeOf 0 0 (ref % 2 ^ 47) else placeOf 1 ctx (ref % 2 ^ 47)
def refLen (ref : Nat) : Nat := ref / 2 ^ 48 % 2 ^ 16

/-- The plan image and operator record of a task. -/
def State.imageOf (s : State) (t : Task) : Image :=
  ((s.plan? t.plan).map (·.image)).getD
    { windows := false, granary := false, viewNode := 0, viewDepth := 0, viewCaps := 0, ops := [], culms := [], tables := [],
      params := [], shape := [] }

/-- The address context of a task. -/
def State.ctxOf (s : State) (t : Task) : Nat := ((s.plan? t.plan).map (·.ctx)).getD 0

/-- The schema of an input port. -/
def State.schemaIn (s : State) (t : Task) (port : Nat) : List (Nat × Nat) := (s.imageOf t).inSchema (s.opRec t) port

/-- The input columns whose strings a program compares, found from its last instruction back; `regs` are the registers that a
later instruction compares. -/
def comparedCols (regs : List Nat) : List ProgInstr → List Nat
  | [] => []
  | i :: is =>
    let rest := regs.filter (· != i.dst)
    let hot := regs.contains i.dst
    match i.op with
    | 0x01 => if hot then i.imm :: comparedCols rest is else comparedCols regs is
    | 0x17 | 0x18 | 0x20 | 0x21 | 0x22 | 0x23 | 0x24 | 0x25 => comparedCols (i.a :: i.b :: rest) is
    | 0x2C => comparedCols (if hot then i.a :: i.b :: rest else regs) is
    | 0x2D => comparedCols (if hot then i.b :: regs else regs) is
    | 0x03 => comparedCols regs is
    | _ => comparedCols rest is

/-- The columns of an input port whose values an operator reads itself: keys, compared columns, extremes, and what MATERIALIZE
copies. A port partitioned on a string makes it read every one. -/
def OpRec.readCols (o : OpRec) (schema : List (Nat × Nat)) (port : Nat) : List Nat :=
  let all := List.range schema.length
  let byString := (List.range 4).any (fun q => o.partitioned q &&
    (o.partCols.take o.partKeys).any (fun c => ((o.schema q).getD c (0, 0)).1 == 0x0F))
  if byString then all
  else if o.kind = Kind.filter || o.kind = Kind.compute then comparedCols [] o.program.reverse
  else if o.kind = Kind.hashJoin then (if port = 0 then o.buildKeys else o.probeKeys)
  else if o.kind = Kind.sort || o.kind = Kind.merge then o.sortKeys.map (·.col)
  else if o.kind = Kind.topk then o.topKeys.map (·.col)
  else if o.kind = Kind.materialize then all
  else if o.kind = Kind.exchange then []
  else o.groupCols ++ (o.aggs.filter (fun a => a.func == 3 || a.func == 4)).map (·.arg)

/-- The strings among them. -/
def OpRec.stringCols (o : OpRec) (schema : List (Nat × Nat)) (port : Nat) : List Nat :=
  (o.readCols schema port).filter (fun c => (schema.getD c (0, 0)).1 == 0x0F)

/-- Reads the string that a value refers to. -/
def State.readString (s : State) (t : Task) (v : Value) : State × Except StepEnd Value :=
  match v with
  | .str r _ =>
    if refLen r = 0 then (s, .ok (.str r []))
    else
      match s.taskRead t (refPlace (s.ctxOf t) r) (refLen r) with
      | (s, .ok b) => (s, .ok (.str r b))
      | (s, .error e) => (s, .error e)
  | v => (s, .ok v)

/-- Reads the strings of rows, in the columns given; `at_` is the row's number in its input block. -/
def State.readStrings (s : State) (t : Task) (cols : List Nat) (at_ : Nat) (rows : List Row) : State × Except StepEnd (List Row) :=
  if cols.isEmpty then (s, .ok rows)
  else s.each (fun s r => s.each (fun s v =>
    if cols.contains v.2 then s.readString { t with row := at_ + r.2 } v.1 else (s, .ok v.1)) r.1.zipIdx) rows.zipIdx

/-! ### Work areas (R195) -/

/-- Bytes of a row by natural widths. -/
def rowBytes (schema : List (Nat × Nat)) : Nat := (schema.map (fun c => tyWidth c.1)).foldl (· + ·) 0

/-- A column as the work area holds it: a string stands as its reference, since no operator makes string bytes (R189). -/
def spillType (c : Nat × Nat) : Nat × Nat := if c.1 = 0x0F then (0x08, 0) else c
def spillValue : Value → Value
  | .str r _ => .num r
  | v => v
def unspill (ty : Nat) (v : Value) : Value :=
  match v with
  | .num r => if ty = 0x0F then .str r [] else v
  | v => v

/-- Rows as the blocks of the work area hold them, one block per column (R130). -/
def spillBlocks (schema : List (Nat × Nat)) (rows : List Row) : List (List Byte) :=
  schema.zipIdx.map (fun c =>
    writeBlock (spillType c.1).1 (spillType c.1).2 (rows.map (fun r => spillValue (r.getD c.2 .null))) 0 none)

/-- Bytes that blocks of given lengths take, each from a multiple of 64 on. -/
def blocksLen (lens : List Nat) : Nat := (lens.map (fun n => roundUp n 64)).foldl (· + ·) 0

/-- The least place of a length below `cap` that is free of the ranges taken. -/
def leastFit (len cap : Nat) (taken : List (Nat × Nat)) : Option Nat :=
  ((0 :: taken.map (fun u => u.1 + u.2)).filter (fun o => decide (o + len ≤ cap) && taken.all (disjoint (o, len)))).min?

/-- What the flows of an operator hold of its work area. -/
def OpRun.taken (r : OpRun) : List (Nat × Nat) := r.flows.flatMap (fun f => f.st.chunks.map (fun c => (c.off, blocksLen c.lens)))

/-- A list in pieces of at most `n`. -/
def piecesOf {α : Type} (n : Nat) : Nat → List α → List (List α)
  | 0, _ => []
  | fuel + 1, l => if l.isEmpty then [] else l.take n :: piecesOf n fuel (l.drop n)

/-- Writes rows to an operator's work area, each entry with its tag, its partition or run, its schema and its rows; WORK_FULL where
one finds no place (R195). The chunks written become the flow's once all of them stand. -/
def State.putChunks (s : State) (t : Task) (taken : List (Nat × Nat)) :
    List (Nat × Nat × List (Nat × Nat) × List Row) → State × Except StepEnd (List Chunk)
  | [] => (s, .ok [])
  | x :: xs =>
    let o := s.opRec t
    let blocks := spillBlocks x.2.2.1 x.2.2.2
    let c : Chunk := { tag := x.1, part := x.2.1, off := 0, lens := blocks.map List.length, rows := x.2.2.2.length }
    let bytes := blocks.flatMap (fun b => b ++ List.replicate (roundUp b.length 64 - b.length) 0#8)
    match leastFit bytes.length o.workLen taken with
    | none => (s, .error (.stop Stop.workFull 0 t.row))
    | some off =>
      match s.writeMem (.task t.id) (placeOf 1 (s.ctxOf t) (o.workBase + off)) bytes with
      | (s, .park w) => (s, .error (.park w))
      | (s, .stop c d) => (s, .error (.dma c d t.row))
      | (s, .pending) => (s, .error .pending)
      | (s, .ok _) =>
        match s.putChunks t (taken ++ [(off, bytes.length)]) xs with
        | (s, .error e) => (s, .error e)
        | (s, .ok cs) => (s, .ok ({ c with off := off } :: cs))

/-- Changes the state of a task's flow. -/
def State.mapSt (s : State) (t : Task) (f : FlowState → FlowState) : State :=
  s.mapFlow t.plan t.op t.index (fun x => { x with st := f x.st })

/-- Puts rows into the work area and lets `f` take them over into the flow's state; the units of 4 KiB written count (R195). -/
def State.spillRows (s : State) (t : Task) (l : List (Nat × Nat × List (Nat × Nat) × List Row))
    (f : List Chunk → FlowState → FlowState) (k : State → State) : State :=
  let taken := ((s.plan? t.plan).map (fun p => (p.run t.op).taken)).getD []
  let l := l.flatMap (fun x => (piecesOf 16384 (x.2.2.2.length + 1) x.2.2.2).map (fun r => (x.1, x.2.1, x.2.2.1, r)))
  orEnd (s.putChunks t taken l) t fun s cs =>
    k ((s.mapSt t (f cs)).addCount C.oprSpill 0 (ceilDiv ((cs.map (fun c => blocksLen c.lens)).foldl (· + ·) 0) 4096))

/-- Reads a chunk back: every block passes the checks of R136. -/
def State.readChunk (s : State) (t : Task) (schema : List (Nat × Nat)) (c : Chunk) : State × Except StepEnd (List Row) :=
  let at_ := (s.opRec t).workBase + c.off
  let cols := (schema.zip c.lens).zipIdx
  let r := s.each (fun s x =>
    match s.taskRead t (placeOf 1 (s.ctxOf t) (at_ + blocksLen (c.lens.take x.2))) x.1.2 with
    | (s, .error e) => (s, .error e)
    | (s, .ok b) =>
      match checkBlock b (spillType x.1.1).1 (fun _ => none) false with
      | .error e => (s, .error (.block e))
      | .ok k => (s, .ok (k.values.map (unspill x.1.1.1)))) cols
  match r with
  | (s, .error e) => (s, .error e)
  | (s, .ok vs) => (s, .ok ((List.range c.rows).map (fun i => vs.map (fun v => v.getD i .null))))

/-- Goes on with the rows of several chunks, the strings that the operator reads among them. -/
def State.withChunks (s : State) (t : Task) (port : Nat) (cs : List Chunk) (k : State → List Row → State) : State :=
  let schema := s.schemaIn t port
  orEnd (s.each (fun s c => s.readChunk t schema c) cs) t fun s l =>
    orEnd (s.readStrings t ((s.opRec t).stringCols schema port) t.row l.flatten) t k

/-- Bytes of what waits in a flow for the work area. -/
def State.waiting (s : State) (t : Task) (st : FlowState) : Nat :=
  st.rows.length * rowBytes (s.schemaIn t 0) +
  st.parts.length * rowBytes (s.schemaIn t (if (s.opRec t).kind = Kind.hashJoin then 1 else 0))

/-- The number of the next run of a sort. -/
def FlowState.nextRun (st : FlowState) : Nat := st.chunks.foldl (fun n c => max n (c.part + 1)) 0

/-- Rows grouped by partition, ascending, each partition's in their order. -/
def byPart (l : List (Nat × Row)) : List (Nat × List Row) :=
  let ks := (l.map (·.1)).foldl (fun ks k => if ks.contains k then ks else (ks.filter (fun x => decide (x < k))) ++ [k] ++
    ks.filter (fun x => decide (k < x))) []
  ks.map (fun k => (k, (l.filter (fun x => x.1 == k)).map (·.2)))

/-- What a flow of a kind that spills writes now (R185, R195): where the rows that wait are more than the flow's working buffers
hold (an aggregation's hold its groups), and the input block ends or they fill the scratch. A run of a sort is written sorted. -/
def State.spillDue (s : State) (t : Task) (atEnd : Bool) : List (Nat × Nat × List (Nat × Nat) × List Row) :=
  let o := s.opRec t
  let st := (s.flow t.plan t.op t.index).st
  let n := s.waiting t st
  let buffers := if o.kind = Kind.sort || o.kind = Kind.hashJoin then 4096 * o.work else 0
  if o.kind = Kind.topk || n ≤ buffers || !(atEnd || decide (scratchTable < n + 4096)) then []
  else
    let schema := s.schemaIn t 0
    let rows := if o.kind = Kind.sort then sortRows schema o.sortKeys st.rows else st.rows
    (if rows.isEmpty then [] else [(0, if o.kind = Kind.sort then st.nextRun else 0, schema, rows)]) ++
    (byPart st.parts).map (fun x => (2, x.1, if o.kind = Kind.hashJoin then s.schemaIn t 1 else schema, x.2))

/-- Writes what is due to the work area, and goes on. -/
def State.spilling (s : State) (t : Task) (atEnd : Bool) (k : State → State) : State :=
  match s.spillDue t atEnd with
  | [] => k s
  | l => s.spillRows t l (fun cs st => { st with rows := [], parts := [], chunks := st.chunks ++ cs }) k

end Sys2Proof.Machine
end

