-- ==== Sys2Proof/Machine/TaskOps.lean ====
section
/-!
DEFINITION. What every task does (R197 to R202): gathering rows into batches and pushing them, running one step on its
tiller, and the end of its input block.
-/

namespace Sys2Proof.Machine

/-! ### Pushing (R188, R190, R198) -/

/-- Adds a number to entry `i` of a list of counts. -/
def addAt (l : List Nat) (i k : Nat) : List Nat := l.set i (l.getD i 0 + k)

/-- Late rows that a task has pushed on port 3 (R182, R229): they count, and the first after a firing was accepted raises LATE_ROW
(R174). -/
def State.latePushed (s : State) (t : Task) (port n : Nat) : State :=
  if (s.opRec t).kind ≠ Kind.windowAgg || port != 3 || n == 0 then s
  else
    let s := s.addCount C.oprLate 0 n
    match s.plan? t.plan with
    | none => s
    | some p =>
      let s := s.setPlan t.plan { p with lateRows := min (2 ^ 48 - 1) (p.lateRows + n) }
      if (p.run t.op).lateDue then (s.mapRun t.plan t.op (fun r => { r with lateDue := false })).planEvent t.plan 3 else s

/-- Pushes a batch that a task has gathered; none when it must wait (R261). ROW_ID is the table's row for SCAN, else the
rows that the flow has pushed on the port before (R186). -/
def State.pushFill (s : State) (t : Task) (f : Fill) : Option (State × Task) :=
  let o := s.opRec t
  let n := f.batch.rows.length
  let sent := (s.flow t.plan t.op t.index).pushed.getD f.port 0
  let batch := if o.kind = Kind.scan then f.batch else { f.batch with rowId := sent }
  match s.pushRef t f.port .data n (some batch) with
  | none => none
  | some s =>
    some ((s.mapFlow t.plan t.op t.index (fun x => { x with pushed := addAt x.pushed f.port n })).latePushed t f.port n,
          { t with fills := t.fills.filter (fun g => g.batch.buf != f.batch.buf), pushed := addAt t.pushed f.port n })

/-- Pushes several of a task's batches in order; the last result tells whether all of them went. -/
def State.pushFills (s : State) (t : Task) : List Fill → State × Task × Bool
  | [] => (s, t, true)
  | f :: fs =>
    match s.pushFill t f with
    | none => (s, t, false)
    | some r => r.1.pushFills r.2 fs

/-- A buffer for a task's output on a port (R160): one given to it while it waited, or one that the culm may take. -/
def State.outBuffer (s : State) (t : Task) (port : Nat) : Option (State × Task × Nat) :=
  match (s.plan? t.plan).bind (fun p => p.outCulm t.op port) with
  | none => none
  | some k =>
    match t.gifts.find? (fun g => g.1 == k) with
    | some g => some (s, { t with gifts := t.gifts.erase g }, g.2)
    | none =>
      match s.culm? k with
      | none => none
      | some c =>
        if s.canTake c then
          let r := s.giveBuffer k c (t.tiller.getD 0)
          some (r.1, t, r.2)
        else none

/-- Pushes a reference without a buffer, after the batches gathered on its port (R188, R190). -/
def State.pushMark (s : State) (t : Task) (port : Nat) (kind : RefKind) (count : Task → Nat) : State × Task × Bool :=
  match s.pushFills t (t.fills.filter (fun f => f.port == port)) with
  | (s, t, false) => (s, t, false)
  | (s, t, true) =>
    match s.pushRef t port kind (count t) none with
    | none => (s, t, false)
    | some s => (s, t, true)

/-- Adds a row to the batch of its port and partition. -/
def State.pushRow (s : State) (t : Task) (port rowId tag : Nat) (row : Row) : State × Task × Bool :=
  let o := s.opRec t
  let part := o.partOf port row
  let mine := fun (f : Fill) => f.port == port && f.batch.part == part
  let old := t.fills.filter (fun f => mine f && (f.batch.tag != tag || decide (o.batchRows ≤ f.batch.rows.length)))
  match s.pushFills t old with
  | (s, t, false) => (s, t, false)
  | (s, t, true) =>
    let r := match t.fills.find? mine with
      | some f =>
        let g : Fill := { f with batch := { f.batch with rows := f.batch.rows ++ [row] }, ids := f.ids ++ [rowId] }
        some (s, { t with fills := t.fills.map (fun (x : Fill) => if x.batch.buf = f.batch.buf then g else x) }, g)
      | none =>
        match s.outBuffer t port with
        | none => none
        | some (s, t, b) =>
          let g : Fill := { port := port, batch := { part := part, rowId := rowId, tag := tag, rows := [row], buf := b }, ids := [rowId] }
          some (s, { t with fills := t.fills ++ [g] }, g)
    match r with
    | none => (s, t, false)
    | some (s, t, g) =>
      if g.batch.rows.length < o.batchRows then (s, t, true)
      else
        match s.pushFill t g with
        | some q => (q.1, q.2, true)
        | none => (s, t, true)

/-- Pushes one item; false when it must wait. -/
def State.pushItem (s : State) (t : Task) : OutItem → State × Task × Bool
  | .row port rowId tag row => s.pushRow t port rowId tag row
  | .batch port tag rows =>
    match s.outBuffer t port with
    | none => (s, t, false)
    | some (s, t, b) =>
      let g : Fill := { port := port, batch := { part := 0, rowId := 0, tag := tag, rows := rows, buf := b }, ids := rows.map (fun _ => 0) }
      match s.pushFill t g with
      | some r => (r.1, r.2, true)
      | none => (s, { t with gifts := ((s.plan? t.plan).bind (fun p => p.outCulm t.op port)).toList.map (·, b) ++ t.gifts }, false)
  | .closed => (s, t, true)
  | .blockEnd port => s.pushMark t port .blockEnd (fun t => t.pushed.getD port 0)
  | .mark port => s.pushMark t port .mark (fun _ => 0)

/-- A mark that a task has pushed (R228): the last one of a firing signals WINDOW_CLOSED. With TIME_SRC DATA the close of a data
task stands for a firing: the next late row raises LATE_ROW (R174, R230; DESIGN CHOICE, log entry 183). -/
def State.markPushed (s : State) (t : Task) : State :=
  if t.tkind ≠ 2 then
    (if (s.opRec t).kind = Kind.windowAgg then s.mapRun t.plan t.op (fun r => { r with lateDue := true }) else s)
  else
    match s.plan? t.plan with
    | none => s
    | some p =>
      let cs := (p.run t.op).closing
      match cs.find? (fun c => c.h == t.arg && c.left.contains t.index) with
      | none => s
      | some c =>
        let c' := { c with left := c.left.erase t.index }
        let s := s.mapRun t.plan t.op (fun r => { r with
          closing := (r.closing.map (fun x => if x = c then c' else x)).filter (fun x => !x.left.isEmpty) })
        if c'.left.isEmpty then s.planEvent t.plan 2 else s

/-- What follows an item pushed. -/
def State.itemPushed (s : State) (t : Task) : OutItem → State
  | .mark _ => s.markPushed t
  | .closed => s.planEvent t.plan 2
  | _ => s

/-- Pushes what a task has still to push, as far as it goes. A batch handed over is a yield point (R198): a task that has been
asked to yield pushes no more after it. -/
def State.drainItems (s : State) (t : Task) : List OutItem → State × Task
  | [] => (s, { t with todo := [] })
  | i :: is =>
    match s.pushItem t i with
    | (s, u, false) => (s, { u with todo := i :: is })
    | (s, u, true) =>
      if u.asked && u.pushed != t.pushed then (s.itemPushed u i, { u with todo := is }) else (s.itemPushed u i).drainItems u is

/-- Pushes for a task, and keeps it. -/
def State.drain (s : State) (t : Task) : State :=
  let r := s.drainItems t t.todo
  r.1.setTask r.2

/-! ### Yield points (R198) -/

/-- The culm of the port for which the next item of a task wants a buffer, where that culm may give none now. -/
def State.wantsCredit (s : State) (t : Task) : Option Nat :=
  let port := match t.todo.head? with
    | some (.row port _ _ _) => some port
    | some (.batch port _ _) => some port
    | _ => none
  match port.bind (fun q => (s.plan? t.plan).bind (fun p => p.outCulm t.op q)) with
  | some k => ((s.culm? k).bind (fun c => if s.canTake c then none else some k))
  | none => none

/-- A task without output credit parks (R160, R198): its partly filled batches for that culm go as they are, and it
waits for a buffer, in the borrow queue where it may borrow (R167). -/
def State.parkCredit (s : State) (t : Task) (k : Nat) : State :=
  let ports := match s.plan? t.plan with
    | some p => (List.range 4).filter (fun q => p.outCulm t.op q == some k)
    | none => []
  let r := s.pushFills t (t.fills.filter (fun f => ports.contains f.port))
  let s := r.1.park r.2.1 .waitCredit 1
  match s.culm? k with
  | none => s
  | some c =>
    let borrow := decide (c.held.length < c.decl.most)
    let w : CreditWait := { task := t.id, culm := k, cls := t.cls, at_ := s.now, borrow := borrow }
    let s := s.mapEng (fun e => { e with waits := e.waits ++ [w] })
    if borrow then s.countPoolWait t.plan else s

/-- A task at a yield point (R198, R258, R261): one asked to yield parks READY; one that has still to push waits for a credit, or
for the spill quota; any other goes on. -/
def State.yieldPoint (s : State) (t : Task) : State :=
  if t.asked then s.park t .ready 0
  else if t.todo.isEmpty then s
  else
    match s.wantsCredit t with
    | some c => s.parkCredit t c
    | none => (s.park t .waitCredit 1).mapEng (fun e => { e with quotaWaits := e.quotaWaits ++ [t.id] })

/-- Pushes for a task; a batch handed over is a yield point. -/
def State.drainYield (s : State) (t : Task) : State :=
  let s := s.drain t
  match s.task? t.id with
  | some u => if u.pushed = t.pushed then s else s.yieldPoint u
  | none => s

/-! ### Steps of a task -/

/-- Tillers run: MAIN runs and nothing has halted the part (R452). -/
def State.tillersRun (s : State) : Bool := s.mainUp && s.eng.up && !s.latched

/-- The task in service on a tiller, if it runs and waits for no host read. -/
def State.serviced (s : State) (n : Nat) : Option Task :=
  if !s.tillersRun || (s.tiller n).read.isSome then none
  else
    match ((s.tiller n).task).bind s.task? with
    | some t => if t.state = .running then some t else none
    | none => none

/-- The block reset of a tiller (R449): its task stops with HW_FAULT, and the tiller is idle. A second one within 60 s
retires the tiller; an injected event does not count toward that. -/
def State.resetTiller (s : State) (n detail : Nat) (injected : Bool) : State :=
  let s := match ((s.tiller n).task).bind s.task? with
    | some t => if t.state = .running then s.stopHw t detail else s
    | none => s
  if injected then s
  else
    let again := (s.hub.tillerResets.get? n).any (fun t => decide (s.now ≤ t + 60000000000))
    let s := { s with hub := { s.hub with tillerResets := s.hub.tillerResets.set n s.now } }
    if again && s.live? n then
      ({ s with hub := { s.hub with retiredTillers := n :: s.hub.retiredTillers } } : State).raise 38 n 0
    else s

/-- Source 36 or 37 of a tiller, whose reaction BLK_RST is its block reset (R449). -/
def State.tillerFault (s : State) (source n : Nat) : State :=
  let s := s.raise source n 0
  if bitOf (s.maskOf source) 3 then s.resetTiller n (source - 35) false else s

/-- The checks of a tiller's step that are armed for injection (R456): its scratch and datapath, and the pool of the die
its next buffer lies on. The result tells whether the step ends in a block reset. -/
def State.tillerChecks (s : State) (n : Nat) (t : Task) : Bool × State :=
  let s := (s.injected 35 n 0 n).2
  let s := match (s.nextRef t).bind (fun r => r.2.batch) with
    | some b => (s.injectAny (b.buf / 6144) 0 (b.buf / 6144) [39, 40]).2
    | none => s
  let a := s.injected 36 n 0 n
  let b := if a.1 then (false, a.2) else a.2.injected 37 n 0 n
  let source := if a.1 then 36 else 37
  if (a.1 || b.1) && bitOf (b.2.maskOf source) 3 then (true, b.2.resetTiller n (source - 35) true) else (false, b.2)

/-- One step of the task on a tiller, of the kinds that `fits`: what it has still to push goes first; then `work`, where
its input is not all consumed; then what that has given it to push; then the scheduler's turn. A task with a read that has proved
uncorrectable stops (R314, R315). -/
def State.runStep (s : State) (n : Nat) (fits : Task → OpRec → Bool) (work : State → Task → State) : State :=
  match s.serviced n with
  | none => s
  | some t =>
    let c := s.tillerChecks n t
    if !fits t (s.opRec t) then s
    else if c.1 then c.2.schedule
    else if t.spoilt.isSome then (c.2.stopDma { t with spoilt := none } DmaErr.poison (t.spoilt.getD 2) t.row).schedule
    else
      let s := c.2.drainYield t
      match s.task? t.id with
      | none => s
      | some t =>
        if !t.todo.isEmpty || t.done || t.state ≠ .running then s.schedule
        else
          let s := work s t
          match s.task? t.id with
          | some u => (if u.state = .running then s.drainYield u else s).schedule
          | none => s.schedule

/-- The data output ports that are connected. -/
def OpRec.dataPorts (o : OpRec) : List Nat := (List.range 4).filter o.hasOut

/-- The end of a task's input block: a block end on every connected output port (R190, R197). -/
def Task.finish (t : Task) (o : OpRec) : Task :=
  { t with todo := t.todo ++ o.dataPorts.map OutItem.blockEnd, done := true }

/-- The outcome of processing the rows of a batch: the flow's state, what is to be pushed, results made null, free values taken,
and the first row that fails: its place, code and detail. -/
structure Work where
  st : FlowState
  out : List OutItem
  nulled : Nat
  free : Nat
  fail : Option (Nat × Nat × Nat)

/-- What one row does: its new state and output, or a code and detail. -/
abbrev RowWork := Work → Row → Except (Nat × Nat) Work

/-- Processes rows from the `i`-th on until one fails. -/
def Work.rows (f : RowWork) : Nat → Work → List Row → Work
  | _, w, [] => w
  | i, w, r :: rs =>
    match f w r with
    | .ok w => Work.rows f (i + 1) w rs
    | .error e => { w with fail := some (i, e.1, e.2) }

/-- A Work that starts from a flow's state. -/
def Work.start (s : State) (st : FlowState) : Work :=
  { st := st, out := [], nulled := 0, free := s.freeCtr, fail := none }

/-- A step's work takes effect on its flow, and results made null count (R205). -/
def State.keepWork (s : State) (t : Task) (w : Work) : State :=
  ((({ s with freeCtr := w.free } : State).mapSt t (fun _ => w.st))).addCount C.oprNulled 0 w.nulled

/-- The end of a step that fails at a row: what it has given goes on to be pushed, then the task stops (R202). -/
def State.workFails (s : State) (t : Task) (w : Work) (e : Nat × Nat × Nat) : State :=
  let u := { t with todo := t.todo ++ w.out }
  (s.setTask u).stopOp u e.2.1 e.2.2 (t.row + e.1)

/-- Consumes the next reference of a task's input block (R197). A batch's rows go through `row`; a mark gives `mark`;
the block end gives `last`, then the block ends. An empty culm parks the task (R252). A poisoned buffer stops it (R450). What the
work area is due comes first (R195), and the strings that the operator reads are read before any row is used (R189). -/
def State.takeInput (s : State) (t : Task) (row : State → Task → RowWork) (mark last : State → Task → Work → Work) : State :=
  let o := s.opRec t
  match s.nextRef t with
  | none => s.park t .waitInput 2
  | some (k, r) =>
    s.spilling t (r.kind == .blockEnd) fun s =>
      let w0 := Work.start s (s.flow t.plan t.op t.index).st
      match r.kind, r.batch with
      | .data, some b =>
        if s.eng.poisoned.contains b.buf then s.stopHw t 3
        else
          let cols := o.stringCols (s.schemaIn t t.port) t.port
          orEnd (s.readStrings t cols (t.row + t.inBatch) (b.rows.drop t.inBatch)) t fun s rows =>
            let w := Work.rows (row s t) t.inBatch { w0 with free := s.freeCtr } rows
            let s := s.keepWork t w
            match w.fail with
            | some e => s.workFails { t with inBatch := e.1 } w e
            | none =>
              (s.consume t k r false).setTask
                { t with todo := t.todo ++ w.out, inBatch := 0, row := t.row + b.rows.length, data := [] }
      | .mark, _ =>
        let w := mark s t w0
        let s := (s.keepWork t w).consume t k r false
        match w.fail with
        | some e => s.workFails t w e
        | none => s.setTask { t with todo := t.todo ++ w.out }
      | .blockEnd, _ =>
        let w := last s t w0
        let s := s.keepWork t w
        match w.fail with
        | some e => s.workFails t w e
        | none => (s.consume t k r false).setTask (({ t with todo := t.todo ++ w.out } : Task).finish o)
      | _, _ => s.consume t k r false

/-- Work that a task does without input: its rows, then its end (R197). -/
def State.ownWork (s : State) (t : Task) (f : State → Task → Work → Work) : State :=
  let w := f s t (Work.start s (s.flow t.plan t.op t.index).st)
  let s := s.keepWork t w
  match w.fail with
  | some e => s.workFails t w e
  | none => s.setTask (({ t with todo := t.todo ++ w.out, data := [] } : Task).finish (s.opRec t))

/-- Marks passed on in place (R190, R215, R233). -/
def passMark (s : State) (t : Task) (w : Work) : Work :=
  { w with out := w.out ++ (s.opRec t).dataPorts.map OutItem.mark }

/-- Marks that go no further. -/
def dropMark (_ : State) (_ : Task) (w : Work) : Work := w

/-- Nothing more at the block end. -/
def noLast (_ : State) (_ : Task) (w : Work) : Work := w

end Sys2Proof.Machine
end

