-- ==== Sys2Proof/Machine/Operators.lean ====
section
/-!
DEFINITION. What the operators do to rows (R206 to R237): FILTER and COMPUTE, HASH_JOIN, SORT and MERGE, the
aggregations and windows, TOPK and EXCHANGE, and the commands that run them on a tiller.
-/

namespace Sys2Proof.Machine

/-- The codes of R239 that are not a program's. -/
def Err.dupKey : Nat := 0x0204
def Err.headInvalid : Nat := 0x0205
def Err.stripeInvalid : Nat := 0x0206
def Err.areaFull : Nat := 0x0207
def Err.notSorted : Nat := 0x0208
def Err.overflow : Nat := 0x0201

/-- A block task of a kind. -/
def isBlock (kind : Nat) (t : Task) (o : OpRec) : Bool := o.kind == kind && t.tkind == 0

/-- A list in an unspecified order: at each place a free draw picks what comes next. -/
def shuffle {α : Type} : Nat → List α → Nat → List α × Nat
  | 0, l, c => (l, c)
  | fuel + 1, l, c =>
    match l with
    | [] => ([], c)
    | x :: xs =>
      if xs.isEmpty then ([x], c)
      else
        let i := Config.freeNat c % l.length
        let r := shuffle fuel (l.eraseIdx i) (c + 1)
        ((l[i]?.getD x) :: r.1, r.2)

/-! ### FILTER and COMPUTE (R211 to R215) -/

/-- One row of a program. -/
def progRow (s : State) (t : Task) : RowWork := fun w r =>
  match runProgram (s.opRec t) r with
  | .error e => .error e
  | .ok (some out, n) => .ok { w with out := w.out ++ [.row 0 0 0 out], nulled := w.nulled + n }
  | .ok (none, n) => .ok { w with nulled := w.nulled + n }

/-- FILTER_BATCH (R215). -/
def execFilterBatch (t : BitVec 7) (s : State) : Host.Outcome State Fault Refusal :=
  if tillerOk t then
    done s (s.runStep t.toNat (isBlock Kind.filter) (fun s k => s.takeInput k progRow passMark noLast))
  else .fault .illFormed

/-- COMPUTE_BATCH (R213). -/
def execComputeBatch (t : BitVec 7) (s : State) : Host.Outcome State Fault Refusal :=
  if tillerOk t then
    done s (s.runStep t.toNat (isBlock Kind.compute) (fun s k => s.takeInput k progRow passMark noLast))
  else .fault .illFormed

/-! ### HASH_JOIN (R216 to R218) -/

/-- One build row: null keys are not inserted; under UNIQUE a key that the table holds already fails (R217). `table` is what the
work area holds of the table. -/
def buildRow (table : List Row) (s : State) (t : Task) : RowWork := fun w r =>
  let o := s.opRec t
  let schema := s.schemaIn t 0
  let key := keyOf schema o.buildKeys r
  if key.any (fun k => k.2.isNull) then .ok w
  else if o.unique && (table ++ w.st.rows).any (fun b => keysMatch (keyOf schema o.buildKeys b) key) then .error (Err.dupKey, 0)
  else .ok { w with st := { w.st with rows := w.st.rows ++ [r], hashes := w.st.hashes ++ [splitHash key] } }

/-- The chunks of a flow with a tag. -/
def FlowState.tagged (st : FlowState) (tag : Nat) : List Chunk := st.chunks.filter (fun c => c.tag == tag)

/-- The state of a task's flow. -/
def State.st (s : State) (t : Task) : FlowState := (s.flow t.plan t.op t.index).st

/-- Goes on with the join table as the work area and the working buffers hold it (R217). -/
def State.withTable (s : State) (t : Task) (k : State → List Row → State) : State :=
  s.withChunks t 0 ((s.st t).tagged 0) fun s l => k s (l ++ (s.st t).rows)

/-- One step of a build task: under UNIQUE the keys are looked up in the table. -/
def State.buildStep (s : State) (t : Task) : State :=
  if (s.opRec t).unique then
    s.withChunks t 0 ((s.st t).tagged 0) fun s table => s.takeInput t (buildRow table) dropMark noLast
  else s.takeInput t (buildRow []) dropMark noLast

/-- The rows that one probe row gives, its matches in an unspecified order (R218). -/
def State.probeOne (s : State) (t : Task) (table : List Row) (w : Work) (r : Row) : Work :=
  let o := s.opRec t
  let key := keyOf (s.schemaIn t 1) o.probeKeys r
  let found := table.filter (fun b => keysMatch (keyOf (s.schemaIn t 0) o.buildKeys b) key)
  let q := shuffle found.length found w.free
  { w with out := w.out ++ (joinRows o r q.1).map (OutItem.row 0 0 0), free := q.2 }

/-- One probe row in SMALL mode: joined at once (R217). -/
def probeRow (table : List Row) (s : State) (t : Task) : RowWork := fun w r => .ok (s.probeOne t table w r)

/-- One probe row in LARGE mode: it goes to its partition (R217). -/
def splitRow (s : State) (t : Task) : RowWork := fun w r =>
  let part := joinPartition w.st.klog (keyOf (s.schemaIn t 1) (s.opRec t).probeKeys r)
  .ok { w with st := { w.st with parts := w.st.parts ++ [(part, r)] } }

/-- The table of a LARGE join is split into its partitions, which are written to the work area (R217). -/
def State.splitTable (s : State) (t : Task) (k : State → State) : State :=
  s.withTable t fun s table =>
    let key := fun (r : Row) => keyOf (s.schemaIn t 0) (s.opRec t).buildKeys r
    let parts := byPart (table.map (fun r => (joinPartition (s.st t).klog (key r), r)))
    s.spillRows t (parts.map (fun x => (1, x.1, s.schemaIn t 0, x.2)))
      (fun cs st => { st with split := true, rows := [], chunks := st.chunks.filter (fun c => c.tag != 0) ++ cs }) k

/-- One step of a probe task (R217): in SMALL mode the task loads the table into its tiller's scratch once, in LARGE mode the first
probe task splits it. -/
def State.probeStep (s : State) (t : Task) : State :=
  if (s.st t).mode = 2 then
    (if (s.st t).split then s.takeInput t splitRow dropMark noLast
     else s.splitTable t fun s => s.takeInput t splitRow dropMark noLast)
  else
    match t.scratch with
    | some table => s.takeInput t (probeRow table) dropMark noLast
    | none => s.withTable t fun s table => s.setTask { t with scratch := some table, data := [] }

/-- One partition of a LARGE join: its probe rows, in their order, against its part of the table (R217). -/
def State.joinPart (s : State) (t : Task) : State :=
  let st := s.st t
  let mine := fun (tag : Nat) => (st.tagged tag).filter (fun c => c.part == t.part)
  s.withChunks t 0 (mine 1) fun s table =>
    s.withChunks t 1 (mine 2) fun s probes =>
      let rest := ((s.st t).parts.filter (fun x => x.1 == t.part)).map (·.2)
      s.ownWork t fun s t w => (probes ++ rest).foldl (fun w r => s.probeOne t table w r) w

/-- HASH_JOIN_BUILD (R217). -/
def execHashJoinBuild (t : BitVec 7) (s : State) : Host.Outcome State Fault Refusal :=
  if tillerOk t then
    done s (s.runStep t.toNat (fun k o => isBlock Kind.hashJoin k o && k.port == 0) State.buildStep)
  else .fault .illFormed

/-- HASH_JOIN_PROBE (R218). -/
def execHashJoinProbe (t : BitVec 7) (s : State) : Host.Outcome State Fault Refusal :=
  if tillerOk t then
    done s (s.runStep t.toNat (fun k o => isBlock Kind.hashJoin k o && k.port == 1) State.probeStep)
  else .fault .illFormed

/-! ### SORT (R219) -/

/-- One row to sort goes to the present run. -/
def sortRow (_ : State) (_ : Task) : RowWork := fun w r => .ok { w with st := { w.st with rows := w.st.rows ++ [r] } }

/-- The runs of a sort in the work area, in their order: number and chunks. -/
def FlowState.sortRuns (st : FlowState) : List (Nat × List Chunk) :=
  let ks := (st.chunks.map (·.part)).foldl (fun l k => if l.contains k then l else (l.filter (fun x => decide (x < k))) ++ [k] ++
    l.filter (fun x => decide (k < x))) []
  ks.map (fun k => (k, st.chunks.filter (fun c => c.part == k)))

/-- One step of a sort's end-of-stream task (R219): while more than 16 runs are left a pass of the merge unit goes on, which makes
one run of 16 neighbours; then the last pass feeds the output. Equal rows keep the order of their runs. -/
def State.sortDrain (s : State) (t : Task) : State :=
  let st := s.st t
  let o := s.opRec t
  let schema := s.schemaIn t 0
  let runs := st.sortRuns
  if runs.length + natOfBool (!st.rows.isEmpty) ≤ 16 then
    s.withChunks t 0 (runs.flatMap (·.2)) fun s l =>
      s.ownWork t fun _ _ w =>
        { w with out := (sortRows schema o.sortKeys (l ++ w.st.rows)).map (OutItem.row 0 0 0), st := { w.st with rows := [], chunks := [] } }
  else
    match (runs.drop st.klog).take 16 with
    | [] => s.mapSt t (fun st => { st with mode := st.mode + 1, klog := 0 })
    | r :: rs =>
      let old := r.2 ++ rs.flatMap (·.2)
      if rs.isEmpty then s.mapSt t (fun st => { st with klog := st.klog + 1 })
      else
        s.withChunks t 0 old fun s l =>
          s.spillRows t [(0, r.1, schema, sortRows schema o.sortKeys l)]
            (fun cs st => { st with klog := st.klog + 1, chunks := st.chunks.filter (fun c => !old.contains c) ++ cs })
            (fun s => s.setTask { t with data := [] })

/-- SORT_RUN (R219). -/
def execSortRun (t : BitVec 7) (s : State) : Host.Outcome State Fault Refusal :=
  if tillerOk t then
    done s (s.runStep t.toNat (isBlock Kind.sort) (fun s k => s.takeInput k sortRow dropMark noLast))
  else .fault .illFormed

/-! ### MERGE (R220) -/

/-- The runs that a MERGE has: a pair of port and producer flow for each flow of each connected producer. -/
def Plan.mergeRuns (p : Plan) (op : Nat) : List (Nat × Nat) :=
  (List.range 4).flatMap (fun port =>
    match ((p.opAt op).ins[port]?).bind (fun k => p.image.culms[k]?) with
    | some c => (List.range (p.opAt c.producer).flows).map (fun i => (port, p.flowStart c.producer + i))
    | none => [])

/-- The first waiting row of a run. -/
def MergeRun.head (r : MergeRun) : Option Row := (r.waiting.findSome? (fun b => b.rows.head?))

/-- A run without its first waiting row, and the batches used up. -/
def MergeRun.pop (r : MergeRun) : MergeRun × List MergeBatch :=
  match r.waiting with
  | [] => (r, [])
  | b :: bs =>
    let left := b.rows.drop 1
    if left.isEmpty then ({ r with waiting := bs }, [b]) else ({ r with waiting := { b with rows := left } :: bs }, [])

/-- The run whose first row comes next: the least by the keys, ties to the earlier run. -/
def leastRun (cmp : Row → Row → Ordering) : List MergeRun → Option (MergeRun × Row)
  | [] => none
  | r :: rs =>
    match r.head, leastRun cmp rs with
    | some a, some q => if cmp q.2 a = .lt then some q else some (r, a)
    | some a, none => some (r, a)
    | none, q => q

/-- Merges as long as no run that may still deliver has nothing waiting (R220): the rows, the runs left, the batches
used up. -/
def mergeRows (cmp : Row → Row → Ordering) (ready : List MergeRun → Bool) :
    Nat → List MergeRun → List Row × List MergeRun × List MergeBatch
  | 0, runs => ([], runs, [])
  | fuel + 1, runs =>
    if !ready runs then ([], runs, [])
    else
      match leastRun cmp runs with
      | none => ([], runs, [])
      | some (r, row) =>
        let q := r.pop
        let rest := mergeRows cmp ready fuel (runs.map (fun x => if x.port = r.port ∧ x.flow = r.flow then q.1 else x))
        (row :: rest.1, rest.2.1, q.2 ++ rest.2.2)

/-- Merges what can be merged of a flow's runs, and releases the batches used up. -/
def State.mergeNow (s : State) (t : Task) (all : Bool) : State × List OutItem :=
  match s.plan? t.plan with
  | none => (s, [])
  | some p =>
    let o := p.opAt t.op
    let runs := (s.flow t.plan t.op t.index).st.runs
    let ready := fun (rs : List MergeRun) => rs.all (fun r => all || r.head.isSome || s.portEnded p t.op r.port)
    let fuel := (runs.map (fun r => (r.waiting.map (fun b => b.rows.length)).foldl (· + ·) 0)).foldl (· + ·) 0
    let q := mergeRows (compareRows (s.schemaIn t t.port) o.sortKeys) ready (fuel + 1) runs
    let s := s.mapFlow t.plan t.op t.index (fun f => { f with st := { f.st with runs := q.2.1 } })
    (q.2.2.foldl (fun s b => s.releaseBuffer b.culm b.buf) s, q.1.map (OutItem.row 0 0 0))

/-- The first row of a batch that sorts before the previous row of its run. -/
def unsorted (cmp : Row → Row → Ordering) : Nat → Option Row → List Row → Option Nat
  | _, _, [] => none
  | i, last, r :: rs =>
    match last with
    | some l => if cmp r l = .lt then some i else unsorted cmp (i + 1) (some r) rs
    | none => unsorted cmp (i + 1) (some r) rs

/-- One step of a MERGE block task (R220). A batch stays with its run until its rows are taken. -/
def State.mergeStep (s : State) (t : Task) : State :=
  match s.plan? t.plan, s.nextRef t with
  | some p, some (k, r) =>
    let o := p.opAt t.op
    let cmp := compareRows (s.schemaIn t t.port) o.sortKeys
    let st := (s.flow t.plan t.op t.index).st
    let runs := if st.runs.isEmpty then
        (p.mergeRuns t.op).map (fun x => { port := x.1, flow := x.2, waiting := [], last := none }) else st.runs
    match r.kind, r.batch with
    | .data, some b =>
      if s.eng.poisoned.contains b.buf then s.stopHw t 3
      else
        let last := (runs.find? (fun x => x.port == t.port && x.flow == r.flow)).bind (·.last)
        match unsorted cmp 0 last b.rows with
        | some i => s.stopOp t Err.notSorted t.port (t.row + i)
        | none =>
          let add := fun (x : MergeRun) =>
            if x.port = t.port ∧ x.flow = r.flow then
              { x with waiting := x.waiting ++ [{ culm := k, buf := b.buf, rows := b.rows }], last := b.rows.getLast? } else x
          let s := s.mapFlow t.plan t.op t.index (fun f => { f with st := { f.st with runs := runs.map add } })
          let s := s.consume t k r true
          let q := s.mergeNow t false
          q.1.setTask { t with todo := t.todo ++ q.2, row := t.row + b.rows.length }
    | .blockEnd, _ =>
      let q := s.mergeNow t false
      (q.1.consume t k r false).setTask (({ t with todo := t.todo ++ q.2 } : Task).finish o)
    | _, _ => s.consume t k r false
  | _, _ => s.park t .waitInput 2

/-- MERGE_TASK (R220). -/
def execMergeTask (t : BitVec 7) (s : State) : Host.Outcome State Fault Refusal :=
  if tillerOk t then done s (s.runStep t.toNat (isBlock Kind.merge) State.mergeStep) else .fault .illFormed

/-! ### Aggregation (R221 to R224) -/

/-- Bytes of a flow's groups: keys, and for each aggregate 32 bytes (the manual gives no layout). -/
def groupBytes (o : OpRec) (schema : List (Nat × Nat)) (n : Nat) : Nat :=
  n * (8 + rowBytes (o.groupCols.map (fun c => schema.getD c (0, 0))) + 32 * o.nagg)

/-- A row joins its group in the flow's table; a row of a group that is not there goes to its partition, by bits 47 to 44 of its
hash, once the table has outgrown the working buffers (R223). A group with rows in a partition takes no place in the table, so that
its rows keep their order. -/
def FlowState.addGroup (st : FlowState) (o : OpRec) (schema : List (Nat × Nat)) (ws : Nat) (r : Row) : FlowState :=
  let key := rowCols r o.groupCols
  let known := st.groups.any (fun g => g.is (o.groupTypes schema) ws key)
  let room := st.parts.isEmpty && st.chunks.isEmpty && decide (groupBytes o schema (st.groups.length + 1) ≤ 4096 * o.work)
  if known || room then { st with groups := addToGroups o schema ws r st.groups }
  else { st with parts := st.parts ++ [(splitHash (keyOf schema o.groupCols r) / 2 ^ 12, r)],
                 wins := if st.wins.contains ws then st.wins else st.wins ++ [ws] }

/-- One row of HASH_AGG (R223). -/
def aggRow (s : State) (t : Task) : RowWork := fun w r => .ok { w with st := w.st.addGroup (s.opRec t) (s.schemaIn t 0) 0 r }

/-- Goes on with the rows in the flow's partitions, partition by partition (R223). -/
def State.withParts (s : State) (t : Task) (k : State → List (Nat × Row) → State) : State :=
  let ks := (List.range 16)
  s.withChunks t 0 (ks.flatMap (fun i => ((s.st t).tagged 2).filter (fun c => c.part == i))) fun s l =>
    let counts := ks.flatMap (fun i => ((s.st t).tagged 2).filter (fun c => c.part == i) |>.flatMap (fun c => List.replicate c.rows i))
    k s (counts.zip l ++ (s.st t).parts)

/-- Outputs groups in order until one overflows (R222): it and those after it stay. -/
def Work.outGroups (o : OpRec) (schema : List (Nat × Nat)) (tag : AggGroup → Nat) : Nat → Work → List AggGroup → Work
  | _, w, [] => w
  | i, w, g :: gs =>
    match groupRow o schema g with
    | .ok row =>
      Work.outGroups o schema tag (i + 1)
        { w with out := w.out ++ [.row 0 0 (tag g) row], st := { w.st with groups := w.st.groups.filter (fun x => x != g) } } gs
    | .error a => { w with fail := some (i, Err.overflow, a) }

/-- The order in which groups are output (R221): ascending with SORT_OUT, unspecified without. -/
def groupOrder (o : OpRec) (schema : List (Nat × Nat)) (w : Work) (gs : List AggGroup) : List AggGroup × Work :=
  if o.sortOut then (sortGroups (o.groupTypes schema) gs, w)
  else
    let q := shuffle gs.length gs w.free
    (q.1, { w with free := q.2 })

/-- Outputs the groups of a flow's table. -/
def State.outTable (s : State) (t : Task) (w : Work) : Work :=
  let o := s.opRec t
  let schema := s.schemaIn t 0
  let q := groupOrder o schema w w.st.groups
  Work.outGroups o schema (fun _ => 0) 0 q.2 q.1

/-- What an aggregation flow outputs at end of stream (R223, R224): its table, then its partitions, each aggregated; with SORT_OUT
all of them in one order. -/
def State.outAgg (s : State) (t : Task) (rows : List (Nat × Row)) (w : Work) : Work :=
  let o := s.opRec t
  let parts := (byPart rows).map (·.2)
  let load := fun (w : Work) (rs : List Row) =>
    { w with st := { w.st with groups := rs.foldl (fun gs r => addToGroups o (s.schemaIn t 0) 0 r gs) w.st.groups } }
  let clear := fun (w : Work) => { w with st := { w.st with parts := [], chunks := [], wins := [] } }
  if o.sortOut then s.outTable t (clear (parts.foldl load w))
  else
    let w := s.outTable t w
    match w.fail with
    | some _ => w
    | none => s.outTable t (clear (parts.foldl load w))

/-- HASH_AGG_TASK (R223). -/
def execHashAggTask (t : BitVec 7) (s : State) : Host.Outcome State Fault Refusal :=
  if tillerOk t then
    done s (s.runStep t.toNat (isBlock Kind.hashAgg) (fun s k => s.takeInput k aggRow dropMark noLast))
  else .fault .illFormed

/-- One row of SORTED_AGG (R224): a key change outputs the group before it. -/
def sortedAggRow (s : State) (t : Task) : RowWork := fun w r =>
  let o := s.opRec t
  let schema := s.schemaIn t 0
  let key := rowCols r o.groupCols
  let order := (w.st.lastKey.map (fun l => compareKeys (o.groupTypes schema) key l)).getD .eq
  let add := fun (w : Work) => { w with st := { w.st with lastKey := some key, groups := addToGroups o schema 0 r w.st.groups } }
  match order with
  | .lt => .error (Err.notSorted, 0)
  | .eq => .ok (add w)
  | .gt =>
    let q := Work.outGroups o schema (fun _ => 0) 0 w w.st.groups
    match q.fail with
    | some e => .error e.2
    | none => .ok (add q)

/-- SORTED_AGG_TASK (R224). -/
def execSortedAggTask (t : BitVec 7) (s : State) : Host.Outcome State Fault Refusal :=
  if tillerOk t then
    done s (s.runStep t.toNat (isBlock Kind.sortedAgg) (fun s k => s.takeInput k sortedAggRow dropMark noLast))
  else .fault .illFormed

/-! ### WINDOW_AGG (R225 to R231) -/

/-- One row of WINDOW_AGG (R225, R226, R229). -/
def windowRow (s : State) (t : Task) : RowWork := fun w r =>
  let o := s.opRec t
  let schema := s.schemaIn t 0
  let late := fun (w : Work) (why : Nat) => (.ok { w with out := w.out ++ [.row 3 0 0 (r ++ [.num why])] } : Except (Nat × Nat) Work)
  match r.getD o.timeCol .null with
  | .num v =>
    let w1 := { w with st := { w.st with seen := some (max v (w.st.seen.getD 0)) } }
    match o.windowOf v with
    | none => late w1 3
    | some ws =>
      if o.dueAt ws ≤ w.st.closed then late w1 1
      else .ok { w1 with st := w1.st.addGroup o schema ws r }
  | _ => late w 2

/-- The starts of a flow's open windows, ascending: those of its table, and those with rows in its partitions. -/
def openWindows (st : FlowState) : List Nat :=
  (st.groups.map (·.ws) ++ st.wins).foldl (fun l x => if l.contains x then l else (l.filter (fun y => decide (y < x))) ++ [x] ++ l.filter (fun y => decide (x < y))) []

/-- Outputs windows in ascending order, their groups in order (R228), until one overflows. -/
def State.outWindows (s : State) (t : Task) : Work → List Nat → Work
  | w, [] => w
  | w, ws :: rest =>
    let o := s.opRec t
    let schema := s.schemaIn t 0
    let q := groupOrder o schema w (w.st.groups.filter (fun g => g.ws == ws))
    let r := Work.outGroups o schema (fun _ => ws) 0 q.2 q.1
    match r.fail with
    | some _ => r
    | none => s.outWindows t r rest

/-- The rows in the partitions whose windows `due` selects join the table; the others wait again (R223). -/
def State.loadWindows (s : State) (t : Task) (rows : List (Nat × Row)) (due : Nat → Bool) (w : Work) : Work :=
  let o := s.opRec t
  let start := fun (r : Row) => (o.windowOf (r.getD o.timeCol .null).pat).getD 0
  let go := rows.filter (fun x => due (start x.2))
  { w with st := { w.st with
      groups := go.foldl (fun gs x => addToGroups o (s.schemaIn t 0) (start x.2) x.2 gs) w.st.groups,
      parts := rows.filter (fun x => !due (start x.2)), chunks := [], wins := w.st.wins.filter (fun ws => !due ws) } }

/-- A window of `l` that no flow of the operator has open any more: what its close pushed was its last reference (R174). -/
def State.lastOf (s : State) (t : Task) (l : List Nat) : Bool :=
  match s.plan? t.plan with
  | none => false
  | some p => l.any (fun ws => ((p.run t.op).flows.zipIdx).all (fun f => f.2 == t.index || !(openWindows f.1.st).contains ws))

/-- The close of R228: every open window due at or before H, then CLOSED, then the mark. A close that no firing leads to signals
WINDOW_CLOSED after the last reference of a window (R174; DESIGN CHOICE, log entry 183). -/
def State.closeAt (s : State) (t : Task) (h : Nat) (rows : List (Nat × Row)) (w : Work) : Work :=
  let o := s.opRec t
  let due := fun (ws : Nat) => decide (o.dueAt ws ≤ h)
  let w := s.loadWindows t rows due w
  let l := (openWindows w.st).filter due
  let q := s.outWindows t w l
  match q.fail with
  | some _ => q
  | none => { q with st := { q.st with closed := max q.st.closed h },
                     out := q.out ++ (if t.tkind != 2 && s.lastOf t l then [.closed] else []) ++ [.mark 0] }

/-- Counts the windows closed (R182): each window start of the operator once. -/
def State.countWindows (s : State) (t : Task) (before : List Nat) : State :=
  let after := openWindows (s.st t)
  let gone := before.filter (fun ws => !after.contains ws)
  match s.plan? t.plan with
  | none => s
  | some p =>
    let new := gone.filter (fun ws => !(p.run t.op).counted.contains ws)
    if new.isEmpty then s
    else
      (s.setPlan t.plan { p with windowsClosed := min (2 ^ 48 - 1) (p.windowsClosed + new.length) }).mapRun t.plan t.op
        (fun r => { r with counted := r.counted ++ new })

/-- Runs a window operator's work and counts what it closed. -/
def State.counting (s : State) (t : Task) (f : State → State) : State :=
  (f s).countWindows t (openWindows (s.st t))

/-- With TIME_SRC DATA a data task closes at its end with H the greatest time value processed (R230). -/
def windowLast (rows : List (Nat × Row)) (s : State) (t : Task) (w : Work) : Work :=
  match (s.opRec t).timeData, w.st.seen with
  | true, some h => s.closeAt t h rows w
  | _, _ => w

/-- One step of a data task; its end, where it closes windows, needs the rows in the partitions. -/
def State.windowStep (s : State) (t : Task) : State :=
  if (s.opRec t).timeData && (s.nextRef t).any (fun r => r.2.kind == .blockEnd) then
    s.withParts t fun s rows => s.takeInput t windowRow dropMark (windowLast rows)
  else s.takeInput t windowRow dropMark noLast

/-- WINDOW_AGG_DATA_TASK (R226). -/
def execWindowAggDataTask (t : BitVec 7) (s : State) : Host.Outcome State Fault Refusal :=
  if tillerOk t then
    done s (s.runStep t.toNat (isBlock Kind.windowAgg)
      (fun s k => s.counting k (fun s => s.windowStep k)))
  else .fault .illFormed

/-- CLOSE_TASK (R228). -/
def execCloseTask (t : BitVec 7) (s : State) : Host.Outcome State Fault Refusal :=
  if tillerOk t then
    done s (s.runStep t.toNat (fun k o => o.kind == Kind.windowAgg && k.tkind == 2)
      (fun s k => s.counting k (fun s => s.withParts k fun s rows => s.ownWork k (fun s k w => s.closeAt k k.arg rows w))))
  else .fault .illFormed

/-! ### TOPK (R232) -/

/-- One row of TOPK. -/
def topRow (s : State) (t : Task) : RowWork := fun w r =>
  let o := s.opRec t
  .ok { w with st := { w.st with rows := topInsert (s.schemaIn t 0) o.topKeys o.topK r w.st.rows } }

/-- The rows kept, pushed in key order. -/
def outRows (w : Work) : Work := { w with out := w.out ++ w.st.rows.map (OutItem.row 0 0 0), st := { w.st with rows := [] } }

/-- A mark at TOPK: with PER_WINDOW its rows go first and the flow starts afresh. -/
def topMark (s : State) (t : Task) (w : Work) : Work := passMark s t (if (s.opRec t).perWindow then outRows w else w)

/-- TOPK_TASK (R232). -/
def execTopkTask (t : BitVec 7) (s : State) : Host.Outcome State Fault Refusal :=
  if tillerOk t then
    done s (s.runStep t.toNat (isBlock Kind.topk) (fun s k => s.takeInput k topRow topMark noLast))
  else .fault .illFormed

/-! ### EXCHANGE (R233) -/

/-- One row of EXCHANGE in HASH mode. -/
def exchangeRow (_ : State) (_ : Task) : RowWork := fun w r => .ok { w with out := w.out ++ [.row 0 0 0 r] }

/-- One step of EXCHANGE: in BROADCAST mode each batch goes unchanged to every connected port. -/
def State.exchangeStep (s : State) (t : Task) : State :=
  let o := s.opRec t
  if !o.broadcast then s.takeInput t exchangeRow passMark noLast
  else
    match s.nextRef t with
    | some (k, r) =>
      match r.kind, r.batch with
      | .data, some b =>
        if s.eng.poisoned.contains b.buf then s.stopHw t 3
        else
          (s.consume t k r false).setTask { t with
            todo := t.todo ++ o.dataPorts.map (fun p => OutItem.batch p b.tag b.rows), row := t.row + b.rows.length }
      | _, _ => s.takeInput t exchangeRow passMark noLast
    | none => s.takeInput t exchangeRow passMark noLast

/-- EXCHANGE_TASK (R233). -/
def execExchangeTask (t : BitVec 7) (s : State) : Host.Outcome State Fault Refusal :=
  if tillerOk t then done s (s.runStep t.toNat (isBlock Kind.exchange) State.exchangeStep) else .fault .illFormed

/-! ### End-of-stream work (R200) -/

/-- CLOSE_AT_END: end of stream closes every open window (R230). -/
def State.closeAll (s : State) (t : Task) (rows : List (Nat × Row)) (w : Work) : Work :=
  let w := s.loadWindows t rows (fun _ => true) w
  let l := openWindows w.st
  let q := s.outWindows t w l
  if q.fail.isNone && s.lastOf t l then { q with out := q.out ++ [.closed] } else q

/-- What an end-of-stream task outputs, by kind. -/
def drainWork (rows : List (Nat × Row)) (s : State) (t : Task) (w : Work) : Work :=
  let o := s.opRec t
  if o.kind = Kind.topk then (if o.perWindow then w else outRows w)
  else if o.kind = Kind.windowAgg then s.closeAll t rows w
  else s.outAgg t rows w

/-- One end-of-stream task. A LARGE join's partitions go one after the other, so that output follows partition order
(R217). -/
def State.drainStep (s : State) (t : Task) : State :=
  let o := s.opRec t
  let earlier := (s.tasksOf t.plan t.op).any (fun u => u.tkind == 3 && decide (u.seq < t.seq))
  if o.kind = Kind.hashJoin then (if earlier then s else s.joinPart t)
  else if o.kind = Kind.sort then s.sortDrain t
  else if o.kind = Kind.merge then
    let q := s.mergeNow t true
    q.1.setTask (({ t with todo := t.todo ++ q.2 } : Task).finish o)
  else s.counting t (fun s => s.withParts t fun s rows => s.ownWork t (drainWork rows))

/-- END_OF_STREAM_WORK (R200). -/
def execEndOfStreamWork (t : BitVec 7) (s : State) : Host.Outcome State Fault Refusal :=
  if tillerOk t then
    done s (s.runStep t.toNat (fun k o => k.tkind == 3 && o.kind != Kind.materialize) State.drainStep)
  else .fault .illFormed

end Sys2Proof.Machine
end

