-- ==== Sys2Proof/Machine/Stripes.lean ====
section
/-!
DEFINITION. The operators that touch tables: SCAN (R207 to R210) and MATERIALIZE (R234 to R237).
-/

namespace Sys2Proof.Machine

/-! ### Issuing stripe tasks (R250) -/

/-- Issues stripe tasks of a SCAN while fewer than 2 * SLOTS are unended (R250). A SCAN whose end is not known yet has
its first task read it. -/
def State.issueStripes : Nat → State → Nat → Nat → State
  | 0, s, _, _ => s
  | fuel + 1, s, slot, op =>
    match s.plan? slot with
    | none => s
    | some p =>
      let o := p.opAt op
      let r := p.run op
      let live := (s.tasksOf slot op).length
      let more := match r.stop with
        | some e => decide (r.next < e)
        | none => !o.scanFollow && r.next == o.stripeFirst
      if p.state ≠ .running || !more || 2 * s.slotsOf p op ≤ live || !s.roomFor 1 then s
      else
        let s := (s.issue slot op (r.next % max 1 o.flows) 1 0 r.next).1
        State.issueStripes fuel (s.mapRun slot op (fun r => { r with next := r.next + 1 })) slot op

/-- Issues what a SCAN may issue now. -/
def State.issueScan (s : State) (slot op : Nat) : State :=
  match s.plan? slot with
  | some p => State.issueStripes (2 * s.slotsOf p op) s slot op
  | none => s

/-! ### Checks of stripes (R131, R132, R210) -/

/-- A stripe record as read: its columns' entries and what SCAN needs of it. -/
structure StripeRec where
  rows : Nat
  first : Nat
  tsMin : Nat
  tsMax : Nat
  entries : List (Nat × Nat × Nat)

/-- Reads a record's bytes. -/
def stripeRec (b : List Byte) (columns : Nat) : StripeRec :=
  { rows := leField b 8 2, first := leField b 0x10 8, tsMin := leField b 0x18 8, tsMax := leField b 0x20 8,
    entries := (List.range columns).map (fun c =>
      (leField b (48 + 16 * c) 8, leField b (56 + 16 * c) 4, leField b (60 + 16 * c) 1)) }

/-- STRIPE_INVALID of a record (R210, R239): 1 MAGIC, VERSION and the header's fixed fields, 2 row continuity with the
stripe before, 3 a column entry. `prev` is the row after the stripe before. -/
def stripeFail (d : TableDecl) (at_ : Nat) (b : List Byte) (prev : Nat) : Option Nat :=
  let n := d.types.length
  let x := stripeRec b n
  if leField b 0 4 ≠ 0x54535053 || leField b 4 1 ≠ 1 || at_ % 64 ≠ 0 || leField b 5 1 ≠ 0 || leField b 6 2 ≠ n ||
      leField b 10 6 ≠ 0 || leField b 0x28 2 ≠ d.timeCol || leField b 0x2A 6 ≠ 0 ||
      (d.timeCol == noIndex && leField b 0x18 16 != 0) then some 1
  else if x.rows = 0 || 16384 < x.rows || x.first ≠ prev then some 2
  else if (x.entries.zipIdx).any (fun e => e.1.1 % 64 != 0 || e.1.2.2 != d.types.getD e.2 0 ||
      leField b (61 + 16 * e.2) 3 != 0) then some 3
  else none

/-- A 128-bit extreme in the order of its type (R128). -/
def key128 (t v : Nat) : Int :=
  if tyFloat t then (tyFmt t).key (v % 2 ^ (8 * tyWidth t)) else if tySigned t then toSigned 128 v else v

/-- MINMAX_SKIP (R208): a predicate's block that can hold no value between LO and HI. -/
def skipsBlock (p : SkipPred) (h : BlockHead) : Bool :=
  h.hasMinMax && (decide (key128 h.ty h.greatest < key128 h.ty p.lo) || decide (key128 h.ty p.hi < key128 h.ty h.least))

/-- A value as a batch carries it: a string's reference has its length, its space and its address (R189). -/
def refer (p : Place) (v : Value) : Value :=
  match v with
  | .str off b => .str (b.length % 2 ^ 16 * 2 ^ 48 + natOfBool p.granary * 2 ^ 47 + (p.addr + off) % 2 ^ 47) b
  | v => v

/-- Rows of columns. -/
def transposeRows (n : Nat) (cols : List (List Value)) : List Row :=
  (List.range n).map (fun i => cols.map (fun c => c.getD i .null))

/-! ### A stripe task -/

/-- Reads a stripe record through the directory: its address and bytes (R152). -/
def State.scanRecord (s : State) (t : Task) (d : TableDecl) (i len : Nat) : State × Except StepEnd (Nat × List Byte) :=
  match s.taskRead t (placeOf d.loc (s.ctxOf t) (d.dir + 8 * i)) 8 with
  | (s, .error e) => (s, .error e)
  | (s, .ok b) =>
    let a := ofLeBytes b
    match s.taskRead t (placeOf d.loc (s.ctxOf t) a) len with
    | (s, .error e) => (s, .error e)
    | (s, .ok r) => (s, .ok (a, r))

/-- The row after the stripe before (R132). -/
def State.scanPrev (s : State) (t : Task) (d : TableDecl) (i : Nat) : State × Except StepEnd Nat :=
  if i = 0 then (s, .ok 0)
  else
    match s.scanRecord t d (i - 1) 48 with
    | (s, .error e) => (s, .error e)
    | (s, .ok r) => (s, .ok (leField r.2 0x10 8 + leField r.2 8 2))

/-- Whether one of the skip predicates rules the stripe out: each costs the fetch of a block header (R208). -/
def State.scanSkips (s : State) (t : Task) (d : TableDecl) (at_ : Nat) (x : StripeRec) :
    List SkipPred → State × Except StepEnd Bool
  | [] => (s, .ok false)
  | q :: qs =>
    let e := x.entries.getD q.col (0, 0, 0)
    match s.taskRead t (placeOf d.loc (s.ctxOf t) (at_ + e.1)) 96 with
    | (s, .error e) => (s, .error e)
    | (s, .ok b) => if skipsBlock q (blockHead b) then (s, .ok true) else s.scanSkips t d at_ x qs

/-- The columns that a stripe task decodes: those listed, and the time column where ROW_TS drops rows by it. -/
def OpRec.scanFetch (o : OpRec) (d : TableDecl) : List Nat :=
  o.scanCols ++ (if o.scanRowTs && d.timeCol != noIndex then [d.timeCol] else [])

/-- Finds the stripe of a task and checks its record (R132, R208, R210): its cursor at its first block, or none where it is
skipped. -/
def State.scanFind (s : State) (t : Task) (o : OpRec) (d : TableDecl) : State × Except StepEnd (Option ScanCursor) :=
  match s.scanPrev t d t.arg with
  | (s, .error e) => (s, .error e)
  | (s, .ok prev) =>
    match s.scanRecord t d t.arg (48 + 16 * d.types.length) with
    | (s, .error e) => (s, .error e)
    | (s, .ok (at_, b)) =>
      match stripeFail d at_ b prev with
      | some detail => (s, .error (.stop Err.stripeInvalid detail 0))
      | none =>
        let x := stripeRec b d.types.length
        if d.timeCol != noIndex && (decide (x.tsMax < o.tsLo) || (o.tsHi != 0 && decide (o.tsHi ≤ x.tsMin))) then (s, .ok none)
        else
          match s.scanSkips t d at_ x (if o.scanSkip then o.scanPreds else []) with
          | (s, .error e) => (s, .error e)
          | (s, .ok true) => (s, .ok none)
          | (s, .ok false) => (s, .ok (some { at_ := at_, record := b, cols := [], value := 0 }))

/-- What R131 and R132 ask of the block of the time column beside its stripe's record: HAS_MINMAX unless every row is null, and the
record's TS_MIN and TS_MAX. The manual names no code for such a block; the task stops with STRIPE_INVALID, detail 3, and the block
counts neither as checked nor as rejected: DESIGN CHOICE, log entry 180. A block without HAS_MINMAX has TS_MIN and TS_MAX 0: DESIGN
CHOICE, log entry 178. -/
def timeBlockFits (x : StripeRec) (k : Block) : Bool :=
  if k.head.hasMinMax then x.tsMin == k.head.least % 2 ^ 64 && x.tsMax == k.head.greatest % 2 ^ 64
  else k.values.all Value.isNull && x.tsMin == 0 && x.tsMax == 0

/-- Fetches, checks and decodes the block of a column (R136, R139, R140). -/
def State.scanBlock (s : State) (t : Task) (d : TableDecl) (at_ : Nat) (x : StripeRec) (c : Nat) :
    State × Except StepEnd (List Value) :=
  let e := x.entries.getD c (0, 0, 0)
  let p := placeOf d.loc (s.ctxOf t) (at_ + e.1)
  match s.taskRead t p e.2.1 with
  | (s, .error e) => (s, .error e)
  | (s, .ok b) =>
    let place : PlaceCheck := fun h =>
      if h.rows ≠ x.rows then some (0x09, 0x0A) else if h.firstRow ≠ x.first then some (0x0A, 0x20) else none
    match checkBlock b (d.types.getD c 0) place false with
    | .error e => (s, .error (.block e))
    | .ok k =>
      if c = d.timeCol ∧ timeBlockFits x k = false then (s, .error (.stop Err.stripeInvalid 3 0))
      else (s.bump C.cbvChecked, .ok (k.values.map (refer p)))

/-- The first byte of a range that an access does not reach: that of a page that cannot be accessed now, or of a poisoned line. -/
def State.faultOffset (s : State) (p : Place) (len : Nat) : Nat :=
  let ends := (List.range ((pagesOf p.addr len).length)).map (fun i => min len (4096 * (i + 1) - p.addr % 4096))
  match ends.zipIdx.find? (fun e => match (s.reach p e.1 false).2 with
      | .ok _ => false
      | _ => true) with
  | some e => if e.2 = 0 then 0 else 4096 * e.2 - p.addr % 4096
  | none =>
    match (s.memLines p len).zipIdx.find? (fun l => l.1.2) with
    | some l => if l.2 = 0 then 0 else 64 * l.2 - p.addr % 64
    | none => 0

/-- The value that lies at an offset of a block (R199): the streams of PLAIN, BITPACK, FOR and DELTA say which it is; of the others
it is taken to be value 0 (DESIGN CHOICE, log entry 184). -/
def BlockHead.valueAt (h : BlockHead) (off : Nat) : Nat :=
  let n := off - h.dataAt
  let w := max 1 h.w
  min (h.rows - 1) (match h.enc with
    | 0 => n / tyWidth h.ty
    | 1 | 2 => 8 * n / w
    | 3 => if h.order = 1 then 1 + 8 * n / w else if n < 8 then 1 else 2 + 8 * (n - 8) / w
    | _ => 0)

/-- The value of a column's block at which an access fails (R199): 0 where its header cannot be read, as in host memory. -/
def State.faultValue (s : State) (t : Task) (d : TableDecl) (at_ : Nat) (x : StripeRec) (c : Nat) : Nat :=
  let e := x.entries.getD c (0, 0, 0)
  let p := placeOf d.loc (s.ctxOf t) (at_ + e.1)
  let off := s.faultOffset p e.2.1
  if off < 96 || !(p.granary || inDevice p.addr) then 0
  else
    match s.memBytes p 96 with
    | .ok b => if off < (blockHead b).dataAt then 0 else (blockHead b).valueAt off
    | .error _ => 0

/-- Whether a time value passes ROW_TS (R208). -/
def OpRec.tsPasses (o : OpRec) (v : Value) : Bool :=
  match v with
  | .num p => decide (o.tsLo ≤ p) && (o.tsHi == 0 || decide (p < o.tsHi))
  | _ => false

/-- The rows of a stripe whose columns are decoded, with their row numbers (R208, R210). -/
def scanOut (o : OpRec) (d : TableDecl) (x : StripeRec) (cols : List (List Value)) : List (Nat × Row) :=
  let n := o.scanCols.length
  let rows := (transposeRows x.rows (cols.take n)).zipIdx x.first
  let ts := cols.getD n []
  let keep := fun (k : Nat) => !(o.scanRowTs && d.timeCol != noIndex) || o.tsPasses (ts.getD (k - x.first) .null)
  (rows.filter (fun r => keep r.2)).map (fun r => (r.2, r.1))

/-- Reads the table head: STRIPES, or why it is not valid (R209, R210). -/
def State.scanHead (s : State) (t : Task) (d : TableDecl) : State × Except StepEnd Nat :=
  match s.taskRead t (placeOf d.loc (s.ctxOf t) d.head) 64 with
  | (s, .error e) => (s, .error e)
  | (s, .ok b) =>
    match headFail d b with
    | some detail => (s, .error (.stop Err.headInvalid detail 0))
    | none => (s, .ok (leField b 8 8))

/-- A stripe task that has pushed its rows ends. -/
def State.scanDone (s : State) (t : Task) (rows : List (Nat × Row)) : State :=
  let u : Task := { t with todo := t.todo ++ rows.map (fun x => OutItem.row 0 x.1 0 x.2), data := [], scan := none }
  (s.setTask (u.finish (s.opRec t))).issueScan t.plan t.op

/-- Decodes the columns that a stripe task has still to decode, one after the other; the cursor keeps those that are done, and the
value at which the next one stops it (R199, R201, R294). -/
def State.scanCols (s : State) (t : Task) (o : OpRec) (d : TableDecl) (cur : ScanCursor) : List Nat → State
  | [] => s.scanDone t (scanOut o d (stripeRec cur.record d.types.length) cur.cols)
  | c :: cs =>
    let x := stripeRec cur.record d.types.length
    match s.scanBlock { t with scan := some cur } d cur.at_ x c with
    | (s, .ok vs) => s.scanCols { t with data := [] } o d { cur with cols := cur.cols ++ [vs], value := 0 } cs
    | (s, .error .pending) => s.setTask { t with scan := some cur }
    | (s, .error e) =>
      let v := s.faultValue t d cur.at_ x c
      let u := { t with scan := some { cur with value := v } }
      (s.setTask u).endStep u (match e with
        | .dma k n _ => .dma k n v
        | e => e)

/-- One stripe (R207 to R210). A task that has no cursor yet reads the table head: a stripe that is not visible gives no row (R133),
and the operator's first task fixes the end where STRIPE_END is 0. -/
def State.scanStep (s : State) (t : Task) : State :=
  match s.plan? t.plan with
  | none => s
  | some p =>
    let o := p.opAt t.op
    match p.image.tables[o.table]? with
    | none => s
    | some d =>
      match t.scan with
      | some cur => s.scanCols t o d cur ((o.scanFetch d).drop cur.cols.length)
      | none =>
        orEnd (s.scanHead t d) t fun s stripes =>
          let s := if (p.run t.op).stop.isNone then s.mapRun t.plan t.op (fun r => { r with stop := some stripes }) else s
          if stripes ≤ t.arg then s.scanDone t []
          else
            orEnd (s.scanFind t o d) t fun s cur =>
              match cur with
              | none => s.scanDone t []
              | some cur => s.scanCols { t with data := [] } o d cur (o.scanFetch d)

/-- SCAN_STRIPE_TASK (R210). -/
def execScanStripeTask (t : BitVec 7) (s : State) : Host.Outcome State Fault Refusal :=
  if tillerOk t then done s (s.runStep t.toNat (fun k o => o.kind == Kind.scan && k.tkind == 1) State.scanStep)
  else .fault .illFormed

/-- SCAN_FOLLOW_POLL (R209): every POLL_US a FOLLOW scan reads the table head, from host memory as `head` delivers it,
and issues a task for each newly visible stripe. A head that is not valid, or cannot be read, shows no stripe. -/
def execScanFollowPoll (slot : BitVec 8) (op : BitVec 10) (head : Transfer) (s : State) :
    Host.Outcome State Fault Refusal :=
  match s.plan? slot.toNat with
  | none => done s s
  | some p =>
    let o := p.opAt op.toNat
    let r := p.run op.toNat
    if !s.tillersRun || p.state ≠ .running || o.kind ≠ Kind.scan || !o.scanFollow ||
        decide (s.now < r.polled + 1000 * o.pollUs) then done s s
    else
      match p.image.tables[o.table]? with
      | none => done s s
      | some d =>
        let t0 := s.mapRun slot.toNat op.toNat (fun r => { r with polled := s.now })
        let q := if d.loc = 2 then (match head with
            | .bytes b => (t0, some b)
            | .stopped _ _ => (t0, none))
          else match t0.reach (placeOf d.loc p.ctx d.head) 64 false with
            | (t, .ok _) => (t, some (t.tableBytes (placeOf d.loc p.ctx d.head) 64))
            | (t, _) => (t, none)
        match q.2 with
        | none => done s q.1
        | some b =>
          if headFail d b ≠ none then done s q.1
          else
            let t := q.1.mapRun slot.toNat op.toNat (fun r => { r with stop := some (max (leField b 8 8) (r.stop.getD 0)) })
            done s ((t.issueScan slot.toNat op.toNat).schedule)

/-! ### MATERIALIZE (R234 to R237) -/

/-- The table declaration of a port. -/
def Plan.tableOf (p : Plan) (op port : Nat) : Option TableDecl :=
  let o := p.opAt op
  p.image.tables[if port = 0 then o.table else o.table2]?

/-- The encoding that FIXED_ENC lists for a column of a port (R234). -/
def fixedOf (m : Image) (o : OpRec) (port c : Nat) : Option Nat :=
  if !o.fixedEnc then none else some (o.f (0x38 + (if port = 0 then 0 else (m.inSchema o 0).length) + c) 1)

/-- The blocks of a stripe: one per column of the rows (R236). -/
def stripeBlocks (m : Image) (o : OpRec) (port : Nat) (rows : List Row) (first : Nat) : List (List Byte) :=
  ((m.inSchema o port).zipIdx).map (fun c =>
    writeBlock c.1.1 c.1.2 (rows.map (fun r => r.getD c.2 .null)) first (fixedOf m o port c.2))

/-- Appends the blocks of a stripe one after the other. -/
def Attached.appendAll (a : Attached) : Nat → List (List Byte) → Attached × List MemWrite
  | _, [] => (a, [])
  | c, b :: bs =>
    let r := a.append c b
    let q := r.1.appendAll (c + 1) bs
    (q.1, r.2 ++ q.2)

/-- Whether a stripe would not fit (R237): 1 the area, 2 the directory. -/
def Attached.stripeFull (a : Attached) (blocks : List (List Byte)) : Option Nat :=
  let need := (blocks.map (fun b => roundUp b.length 64)).foldl (· + ·) (recordLen a.decl.types.length)
  if a.decl.areaLen < a.fill + need then some 1 else if a.decl.dirLen < 8 * (a.stripes + 1) then some 2 else none

/-- Another task is writing a stripe of a table: one stripe is written after the other (R156, R158). -/
def State.tableBusy (s : State) (id : Nat) : Bool :=
  s.eng.plans.any (fun p => p.2.ops.any (fun r => r.flows.any (fun f => f.st.job.any (fun j => j.saved.decl.id == id))))

/-- Begins the write of a port's open row range as a stripe (R235, R237); AREA_FULL before any byte of it. While another stripe of
the table is being written, the task waits at its next write. -/
def State.beginStripe (s : State) (t : Task) (port : Nat) : State :=
  match s.plan? t.plan with
  | none => s
  | some p =>
    let o := p.opAt t.op
    let rows := ((s.flow t.plan t.op 0).st.ranges.getD port [])
    match (p.tableOf t.op port).bind (fun d => s.table? d.id) with
    | none => s
    | some a0 =>
      if s.tableBusy a0.decl.id then s
      else
      let a := { a0 with pending := none, opened := [], next := a0.next.map (fun _ => a0.rows) }
      let blocks := stripeBlocks p.image o port rows a.rows
      match a.stripeFull blocks with
      | some d => s.stopOp t Err.areaFull d t.row
      | none =>
        let r := a.appendAll 0 blocks
        let job : WriteJob := { saved := a0, writes := r.2, rows := rows.length, port := port }
        (s.setTable r.1).mapFlow t.plan t.op 0 (fun f => { f with st := { f.st with job := some job } })

/-- Goes on with a stripe's writes (R235, R237); at their end the stripe is visible and its rows count (R173). -/
def State.goOnStripe (s : State) (t : Task) (j : WriteJob) : State :=
  match s.plan? t.plan with
  | none => s
  | some p =>
    let r := s.performWrites (.task t.id) p.ctx j.writes
    let s := r.1.mapFlow t.plan t.op 0 (fun f => { f with st := { f.st with job := some { j with writes := r.2.1 } } })
    match r.2.2 with
    | .park w => s.park { t with waits := [w] } .waitPage 3
    | .stop c d => s.stopDma t c d t.row
    | .pending => s
    | .ok _ =>
      let s := s.mapFlow t.plan t.op 0 (fun f => { f with st := { f.st with job := none, ranges := f.st.ranges.set j.port [] } })
      match s.plan? t.plan with
      | some p => s.setPlan t.plan { p with rowsOut := min (2 ^ 48 - 1) (p.rowsOut + j.rows) }
      | none => s

/-- The ports whose range is to be written now: a full one, and those that the task has been told to flush. -/
def State.stripeDue (s : State) (t : Task) (o : OpRec) : Option Nat :=
  let st := (s.flow t.plan t.op 0).st
  [0, 1].find? (fun port =>
    let n := (st.ranges.getD port []).length
    decide (o.blockRows ≤ n) || (bitOf t.part port && decide (0 < n)))

/-- Takes rows of a batch into the open row range of a port, as many as it has room for (R235): the number taken. -/
def takeRows (st : FlowState) (port room : Nat) (rows : List Row) : FlowState × Nat :=
  let have_ := st.ranges.getD port []
  let k := min rows.length (room - have_.length)
  ({ st with ranges := st.ranges.set port (have_ ++ rows.take k) }, k)

/-- The number of flows of the producer of port 0, whose marks make a round (R235). -/
def Plan.markFlows (p : Plan) (op : Nat) : Nat :=
  match ((p.opAt op).ins[0]?).bind (fun k => p.image.culms[k]?) with
  | some c => (p.opAt c.producer).flows
  | none => 1

/-- Takes the next reference of MATERIALIZE (R234, R235). -/
def State.gather (s : State) (t : Task) : State :=
  match s.plan? t.plan, s.nextRef t with
  | some p, some (k, r) =>
    let o := p.opAt t.op
    match r.kind, r.batch with
    | .data, some b =>
      if s.eng.poisoned.contains b.buf then s.stopHw t 3
      else
        let cols := o.stringCols (s.schemaIn t t.port) t.port
        orEnd (s.readStrings t cols (t.row + t.inBatch) (b.rows.drop t.inBatch)) t fun s rows =>
          let q := takeRows (s.flow t.plan t.op 0).st t.port o.blockRows rows
          let s := s.mapFlow t.plan t.op 0 (fun f => { f with st := q.1 })
          if t.inBatch + q.2 < b.rows.length then s.setTask { t with inBatch := t.inBatch + q.2, data := [] }
          else (s.consume t k r false).setTask { t with inBatch := 0, row := t.row + b.rows.length, data := [] }
    | .mark, _ =>
      let st := (s.flow t.plan t.op 0).st
      let marks := if t.port ≠ 0 || st.marks.contains r.flow then st.marks else r.flow :: st.marks
      let round := decide (p.markFlows t.op ≤ marks.length)
      let s := s.mapFlow t.plan t.op 0 (fun f => { f with st := { f.st with marks := if round then [] else marks } })
      (s.consume t k r false).setTask { t with part := if round && o.flushOnMark then 3 else t.part }
    | _, _ => (s.consume t k r false).setTask { t with done := true }
  | _, _ => s.park t .waitInput 2

/-- One step of a MATERIALIZE task: a stripe's writes, the begin of one, or the next reference; an end-of-stream task
writes its port's range (R235). -/
def State.materializeStep (s : State) (t : Task) : State :=
  let o := s.opRec t
  match (s.flow t.plan t.op 0).st.job with
  | some j => s.goOnStripe t j
  | none =>
    match s.stripeDue t o with
    | some port => s.beginStripe t port
    | none =>
      if t.tkind = 3 then
        (if ((s.flow t.plan t.op 0).st.ranges.getD t.port []).isEmpty then s.setTask { t with done := true }
         else s.setTask { t with part := 2 ^ t.port })
      else s.gather { t with part := 0 }

/-- MATERIALIZE_STRIPE_WRITE (R235). -/
def execMaterializeStripeWrite (t : BitVec 7) (s : State) : Host.Outcome State Fault Refusal :=
  if tillerOk t then
    done s (s.runStep t.toNat (fun _ o => o.kind == Kind.materialize) State.materializeStep)
  else .fault .illFormed

end Sys2Proof.Machine
end

