-- ==== Sys2Proof/Machine/Scheduler.lean ====
section
/-!
DEFINITION. The scheduler's own commands (R198, R228, R252 to R257, R267, R268).
-/

namespace Sys2Proof.Machine

/-- TASK_DISPATCH (R254, R256): the tillers that have become idle pull in ascending order as far as this one; this one, if it is
still idle, pulls the first eligible task that it serves; then what became eligible is placed. -/
def execTaskDispatch (t : BitVec 7) (s : State) : Host.Outcome State Fault Refusal :=
  let n := t.toNat
  if !tillerOk t then .fault .illFormed
  else if !s.dispatching || !s.idle n || !s.live? n then done s s
  else
    done s ((((s.freshTillers.filter (· < n)).foldl State.pull s).pull n).schedule)

/-- YIELD_POINT (R198, R258, R259): the task pushes what it can, and stands at a yield point. -/
def execYieldPoint (t : BitVec 7) (s : State) : Host.Outcome State Fault Refusal :=
  if !tillerOk t then .fault .illFormed
  else
    match s.serviced t.toNat with
    | none => done s s
    | some k =>
      let u := s.drain k
      match u.task? k.id with
      | none => done s u
      | some k => done s ((if k.state = .running then u.yieldPoint k else u).schedule)

/-- TASK_END (R252): the task that has pushed everything ends, its slot is free, and end of stream and the plan's end
follow where they are due (R161, R173). -/
def execTaskEnd (t : BitVec 7) (s : State) : Host.Outcome State Fault Refusal :=
  if !tillerOk t then .fault .illFormed
  else
    match s.serviced t.toNat with
    | none => done s s
    | some k =>
      if !k.done || !k.todo.isEmpty || !k.fills.isEmpty then done s s
      else
        let u := s.traceTask Ev.finish k (k.pushed.foldl (· + ·) 0)
        let u := (u.leaveTiller k).removeTask k
        let u := k.gifts.foldl (fun u g => u.releaseBuffer g.1 g.2) u
        let u := match u.plan? k.plan with
          | some p => u.setPlan k.plan { p with tasksDone := min (2 ^ 48 - 1) (p.tasksDone + 1) }
          | none => u
        let u := if k.tkind = 1 then u.issueScan k.plan k.op else u
        done s ((u.settleOps k.plan).settleQuota.schedule)

/-- STARVATION_PROMOTION (R257). -/
def execStarvationPromotion (slot : BitVec 13) (s : State) : Host.Outcome State Fault Refusal :=
  match s.eng.tasks.find? (fun t => t.slot == some slot.toNat) with
  | none => done s s
  | some t =>
    let ms := s.get F.SCH_CTL_STARVE_MS
    if !s.dispatching || t.state != .ready || t.promoted || t.cls < 2 || ms == 0 ||
        decide (s.now ≤ t.readyAt + ms * 1000000) then done s s
    else
      let u := { t with promoted := true }
      done s (((s.setTask u).bump C.schPromote).traceTask Ev.promote u u.effective).schedule

/-- HELD_FLOW_SEARCH (R267): the next held flow of a plan from FROM upward. Without one, FLOW and ERR are free. -/
def execHeldFlowSearch (v : Word) (s : State) : Host.Outcome State Fault Refusal :=
  if !s.mainUp then done s s
  else
    let slot := bitsOf v.toNat 31 24
    let from_ := bitsOf v.toNat 15 0
    let t := s.setAll [(F.SCH_HELD_FIND_PLAN, slot), (F.SCH_HELD_FIND_FROM, from_), (F.SCH_HELD_FLOW_BUSY, 0)]
    let flows := match s.plan? slot with
      | some p => (List.range p.flowCount).filterMap (fun i =>
          match p.locate (p.flowBase + i) with
          | some (op, k) =>
            let f := (p.run op).flow k
            if f.held && decide (from_ ≤ p.flowBase + i) then some (p.flowBase + i, f.err) else none
          | none => none)
      | none => []
    match flows.head? with
    | some f => done s (t.setAll [(F.SCH_HELD_FLOW_FOUND, 1), (F.SCH_HELD_FLOW_FLOW, f.1), (F.SCH_HELD_ERR_ERR, f.2)])
    | none =>
      let r := t.fresh
      let q := r.2.fresh
      done s (q.2.setAll [(F.SCH_HELD_FLOW_FOUND, 0), (F.SCH_HELD_FLOW_FLOW, r.1), (F.SCH_HELD_ERR_ERR, q.1)])

/-- TRACE_ENABLE (R268): a write of SCH_TRACE_CTL; EN from 0 to 1 sets WR and RD to 0. -/
def execTraceEnable (v : Word) (s : State) : Host.Outcome State Fault Refusal :=
  if !s.mainUp then done s s
  else
    let n := v.toNat
    let t := s.setAll [(F.SCH_TRACE_CTL_EVENTS, bitsOf n 23 8), (F.SCH_TRACE_CTL_EN, bitsOf n 7 7),
      (F.SCH_TRACE_CTL_WRAP, bitsOf n 6 6), (F.SCH_TRACE_CTL_SIZE_LOG, bitsOf n 4 0)]
    if bitOf n 7 && !s.flag F.SCH_TRACE_CTL_EN then
      done s (t.setAll [(F.SCH_TRACE_PTRS_WR, 0), (F.SCH_TRACE_PTRS_RD, 0)])
    else done s t

/-- What becomes of a window-close firing now (R172, R228). -/
inductive FiringCase where
  /-- It reaches a plan that is not RUNNING, or an operator that has ended: it is discarded. -/
  | discard
  /-- An earlier firing's close is unstarted, or a flow is held: it stays pending. -/
  | wait
  /-- It is accepted for the operator of a plan slot. -/
  | accept (slot op : Nat)

/-- Whether a firing stays pending. -/
def FiringCase.stays : FiringCase → Bool
  | .wait => true
  | .discard => false
  | .accept _ _ => false

/-- The case of a firing. -/
def State.firingCase (s : State) (f : Firing) : FiringCase :=
  let slot := f.arg / 65536 % 256
  let op := f.arg % 65536
  match s.plan? slot with
  | none => .discard
  | some p =>
    let r := p.run op
    if p.state ≠ .running || f.arg / 65536 ≠ s.handleOf slot || r.ended || (p.opAt op).kind ≠ Kind.windowAgg then .discard
    else if r.flows.any (·.held) || (s.tasksOf slot op).any (fun t => t.tkind == 2 && !t.began) || !s.roomFor (p.opAt op).flows then .wait
    else .accept slot op

/-- Accepts a firing (R228): H is captured and a close task goes behind the tasks of each flow. -/
def State.acceptFiring (s : State) (slot op : Nat) : State :=
  match s.plan? slot with
  | none => s
  | some p =>
    let h := s.ftRead
    let s := s.noteRead h
    let n := (p.opAt op).flows
    let s := (List.range n).foldl (fun s i => (s.issue slot op i 2 0 h).1) s
    let s := s.mapRun slot op (fun r => { r with closing := r.closing ++ [{ h := h, left := List.range n }], lateDue := true })
    (s.traceFree Ev.firing slot op h).schedule

/-- WINDOW_CLOSE_ACCEPT (R228): the first firing of target 0x01 that does not stay pending. Windows close by field time
only while it runs (R39, R231). -/
def execWindowCloseAccept (s : State) : Host.Outcome State Fault Refusal :=
  if s.get F.FT_STATUS_STATE ≠ Ft.running then done s s
  else match s.cal.firings.find? (fun f => f.target == 1 && !(s.firingCase f).stays) with
  | none => done s s
  | some f =>
    if !s.tillersRun then done s s
    else
      let t := s.dropFiring f
      match s.firingCase f with
      | .accept slot op => done s (t.acceptFiring slot op)
      | _ => done s t

end Sys2Proof.Machine
end

