-- ==== Sys2Proof/Machine/Plans.lean ====
section
/-!
DEFINITION. The plan commands (R142 to R182, R245, R246, R264, R265): loading and binding, start, cancel, unload, status,
and the release of held flows.
-/

namespace Sys2Proof.Machine

/-! ### Handles (R142) -/

/-- The slot and plan that a handle names; none where the slot is empty or its generation differs. -/
def State.handlePlan (s : State) (h : Nat) : Option (Nat × Plan) :=
  if h < 65536 ∧ s.eng.gens.getD (h % 256) 0 = h / 256 then (s.plan? (h % 256)).map (fun p => (h % 256, p)) else none

/-- Completes with NO_SUCH_OBJECT, or goes on with the plan that ARG`k` names. -/
def State.withPlan (s : State) (a : Accepted) (k : Nat) (f : Nat → Plan → State) : State :=
  match s.handlePlan (cmdArg a.cmd k) with
  | some x => f x.1 x.2
  | none => s.complete a CC.noSuchObject 0

/-! ### Views and binding (R150, R154, R245, R246) -/

/-- The device nodes that may be the view root: those at VIEW_DEPTH, or the one that VIEW_NODE names there. -/
def State.viewNodes (s : State) (m : Image) : List (Nat × Node) :=
  s.eng.nodes.filter (fun p => !p.2.view && p.2.level == m.viewDepth &&
    (m.viewNode == 0xFFFFFFFF || s.nodeAddr p.1 == m.viewNode))

/-- The fanouts of a SHAPE section; none where a shape is not accepted for its form. -/
def Image.fanouts (m : Image) : Option (List Nat) := shapeFanouts m.shape (5 - m.viewDepth)

/-- Check 13 (R245). -/
def State.shapeAccepted (s : State) (m : Image) : Bool :=
  m.shape.isEmpty ||
  match m.fanouts with
  | some fan => (s.viewNodes m).any (fun p => p.2.count == shapeProduct fan fan.length)
  | none => false

/-- Whether a node holds every bit of a mask. -/
def State.hasCaps (s : State) (n mask : Nat) : Bool := (s.nodeCaps n &&& mask) == mask

/-- The view root (R154): of the nodes that qualify the one with the fewest bound plans, then the lowest address. -/
def State.viewRoot (s : State) (m : Image) : Option Nat :=
  let fits := fun (p : Nat × Node) => s.hasCaps p.1 m.viewCaps &&
    (m.shape.isEmpty || (m.fanouts.map (fun fan => shapeProduct fan fan.length == p.2.count)).getD false)
  let bound := fun (n : Nat) => (s.eng.plans.filter (fun p => p.2.root == n)).length
  ((s.viewNodes m).filter fits).foldl (fun b p =>
    match b with
    | none => some p.1
    | some n => if bound p.1 < bound n then some p.1 else some n) none

/-- The virtual nodes of a view root and shape that stand already. -/
def State.viewOf (s : State) (root : Nat) (shape : List Nat) : List Nat :=
  (s.eng.nodes.filter (fun p => p.2.view && p.2.root == root && p.2.shape == shape)).map (·.1)

/-- The virtual nodes of a shaped view laid over a root, at the free entries given, breadth-first (R246). -/
def virtualNodes (fan shape : List Nat) (root : Nat) (r : Node) (depth : Nat) (free : List Nat) : List (Nat × Node) :=
  let place := fun (l i : Nat) => free.getD (levelStart fan l - 1 + i) 0
  (List.range (fan.length - 1)).flatMap (fun k =>
    let l := k + 1
    let n := shapeProduct fan l
    (List.range n).map (fun i =>
      (place l i, { view := true, level := depth + l, parent := if l = 1 then root else place (l - 1) (i / fan.getD k 1),
                    first := r.first + i * (r.count / n), count := r.count / n, root := root, shape := shape })))

/-- Puts the virtual nodes of a view into the node table, unless plans of the same root and shape share them (R246):
the nodes of the view; none where too few entries are free. -/
def State.addView (s : State) (m : Image) (root : Nat) : Option (State × List Nat) :=
  match m.shape, m.fanouts with
  | [], _ => some (s, [])
  | _, none => none
  | _, some fan =>
    let old := s.viewOf root m.shape
    let v := levelStart fan fan.length - 1
    if !old.isEmpty then some (s, old)
    else
      let free := ((List.range 512).filter (fun i => !s.eng.nodes.has i)).take v
      if free.length < v then none
      else
        let new := virtualNodes fan m.shape root (s.node root) m.viewDepth free
        some (s.mapEng (fun e => { e with nodes := new.foldl (fun t p => t.set p.1 p.2) e.nodes }), free)

/-- The node that an operator's NODE names in a plan's view (R146). -/
def State.viewNode (s : State) (m : Image) (root addr : Nat) : Option Nat :=
  match addrPath addr with
  | none => none
  | some path =>
    let r := s.node root
    let l := path.length
    let shaped := !m.shape.isEmpty
    let fan := if shaped then m.fanouts.getD [] else s.deviceShape.drop m.viewDepth
    match pathRange fan r.first r.count path with
    | none => none
    | some (first, count) =>
      if l = 0 then some root
      else if 5 < m.viewDepth + l then none
      else if shaped && decide (l < fan.length) then
        (s.eng.nodes.find? (fun p => p.2.view && p.2.root == root && p.2.shape == m.shape &&
          p.2.level == m.viewDepth + l && p.2.first == first && p.2.count == count)).map (·.1)
      else if shaped then s.deviceNode s.deviceShape.length first 1
      else s.deviceNode (m.viewDepth + l) first count

/-- What binding settles (R154): the view root, its virtual nodes, the operators' nodes. -/
structure Binding where
  root : Nat
  virtuals : List Nat
  nodes : List Nat

/-- Binds an image (R154): the state with its virtual nodes in the table; none where check 14 fails. -/
def State.bind (s : State) (m : Image) : Option (State × Binding) :=
  match s.viewRoot m with
  | none => none
  | some root =>
    match s.addView m root with
    | none => none
    | some (s, virtuals) =>
      match m.ops.mapM (fun o => s.viewNode m root o.node) with
      | none => none
      | some nodes =>
        if (m.ops.zip nodes).all (fun x => s.hasCaps x.2 x.1.caps) then
          some (s, { root := root, virtuals := virtuals, nodes := nodes })
        else none

/-- RESV of R165. -/
def State.reservation (s : State) (m : Image) (nodes : List Nat) : Nat :=
  let slots := fun (o : OpRec) (n : Nat) => if o.parallel then (s.node n).count else min (s.node n).count o.flows
  (m.culms.map (·.least)).foldl (· + ·) 0 +
  ((m.ops.zip nodes).map (fun x => x.1.work * slots x.1 x.2)).foldl (· + ·) 0

/-! ### Claims (R155) -/

/-- The lowest range of `n` flow identifiers that no loaded plan holds. -/
def State.flowRange (s : State) (n : Nat) : Option Nat :=
  let held := s.eng.plans.map (fun p => (p.2.flowBase, p.2.flowCount))
  let fits := fun (b : Nat) => decide (b + n ≤ 0xFFFF) && held.all (disjoint (b, n))
  let cand := (0 :: held.map (fun x => x.1 + x.2)).filter fits
  match cand with
  | [] => none
  | b :: bs => some (bs.foldl min b)

/-- Calendar entries below the telemetry entries that are neither valid nor reserved by a plan. -/
def State.freeEntries (s : State) : List Nat :=
  let reserved := s.eng.plans.flatMap (fun p => p.2.cals.map (·.2))
  (List.range 992).filter (fun i => !s.cal.entries.has i && !reserved.contains i)

/-- The operators that close windows. -/
def Image.windowOps (m : Image) : List Nat :=
  (List.range m.ops.length).filter (fun i => (m.ops.getD i OpRec.blank).kind == Kind.windowAgg)

/-- What a load claims. -/
structure Claims where
  slot : Nat
  culms : List Nat
  flowBase : Nat
  resv : Nat
  cals : Store Nat

/-- Claims a plan's resources in the order of R155: the step that fails, or all of them. -/
def State.claim (s : State) (m : Image) (slot : Option Nat) (resv : Nat) : Except Nat Claims :=
  let free := ((List.range 4096).filter (fun k => !s.eng.culms.has k)).take m.culms.length
  let wins := m.windowOps
  let cals := s.freeEntries.take wins.length
  match slot, s.flowRange ((m.ops.map (·.flows)).foldl (· + ·) 0) with
  | none, _ => .error 1
  | some slot, flows =>
    if free.length < m.culms.length then .error 2
    else
      match flows with
      | none => .error 3
      | some base =>
        if s.reservable < s.resvTotal + resv then .error 4
        else if cals.length < wins.length then .error 5
        else .ok { slot := slot, culms := free, flowBase := base, resv := resv, cals := wins.zip cals }

/-! ### Attachment (R153) -/

/-- The outcome of attaching an image's tables: it must wait, the command has ended by a DMA stop, check 11 fails, or the state
with the tables attached and the writes of fresh heads. -/
inductive AttachEnd where
  | wait (s : State) (w : PageWait)
  | closed (s : State)
  | ended (s : State)
  | fails (s : State)
  | ok (s : State) (writes : List MemWrite)

/-- The bytes of a table's head with its entries: from the window, the device region, or as the host delivers them. -/
def State.headAt (s : State) (a : Accepted) (d : TableDecl) (host : Transfer) : MailRead :=
  let n := headLen d.types.length
  if d.loc = 0 then
    let p := placeOf 0 0 d.head
    let stops := fun (s : State) (c e : Nat) => MailRead.ended ((s.captureFault c 0 d.head true).dmaEnd a c e)
    match s.reach p n false with
    | (s, .ok _) =>
      match s.memBytes p n with
      | .ok b => .bytes s b
      | .error e => stops s DmaErr.poison e
    | (s, .stop c e) => stops s c e
    | (s, .park w) => .wait s w
    | (s, .pending) => .closed s
  else s.mailRead a d.head n host

/-- A table taken up by one more plan, the larger AREA_LEN and DIR_LEN in force (R153). -/
def Attached.share (t : Attached) (d : TableDecl) (slot : Nat) : Attached :=
  { t with decl := d, users := if t.users.contains slot then t.users else t.users ++ [slot] }

/-- Attaches declarations one after the other (R153). `heads` are what host memory delivers for the tables of LOCATION
2 that no plan has attached, in their order. -/
def State.attachAll (s : State) (a : Accepted) (slot : Nat) (heads : List Transfer) (w : List MemWrite) : List TableDecl → AttachEnd
  | [] => .ok s w
  | d :: ds =>
    match s.table? d.id with
    | some t =>
      match s.attachCase d [] with
      | .shared => (s.setTable (t.share d slot)).attachAll a slot heads w ds
      | _ => .fails s
    | none =>
      let rest := if d.loc = 2 then heads.tail else heads
      match s.headAt a d (heads.headD (.bytes [])) with
      | .wait s w => .wait s w
      | .closed s => .closed s
      | .ended s => .ended s
      | .bytes s b =>
        match s.attachCase d b with
        | .recorded =>
          let r := s.recordedTable (s.mailboxCtx a.mb) slot d b
          (r.1.mapEng (fun e => { e with tables := e.tables ++ [r.2] })).attachAll a slot rest w ds
        | .fresh =>
          let t := freshTable d slot
          (s.mapEng (fun e => { e with tables := e.tables ++ [t] })).attachAll a slot rest (w ++ t.freshWrites) ds
        | _ => .fails s

/-! ### PLAN_LOAD (R151 to R155) -/

/-- Ends a PLAN_LOAD that fails. Reservations that its fresh heads waited for go back. -/
def State.failLoad (s : State) (a : Accepted) (code result : Nat) : State := (s.dropWaiter a.waiter).complete a code result

/-- The plan as it stands after its load. -/
def loadedPlan (m : Image) (ctx pair : Nat) (b : Binding) (c : Claims) : Plan :=
  { state := .loaded, cls := 0, image := m, ctx := ctx, pair := pair, root := b.root, virtuals := b.virtuals, nodes := b.nodes,
    flowBase := c.flowBase, culms := c.culms, resv := c.resv, cmd := none, cancels := [], ending := none, binds := [],
    left := [], cals := c.cals, waitSignal := none, firstHeld := 0xFFFF, firstErr := 0, tasksDone := 0, rowsOut := 0,
    windowsClosed := 0, lateRows := 0, poolWaits := 0, startFt := 0,
    ops := m.ops.map (fun o => { OpRun.blank with flows := List.replicate o.flows FlowRun.blank }) }

/-- Claims succeeded: the culm slots and the plan take their places (R155). -/
def State.putPlan (s : State) (m : Image) (p : Plan) (c : Claims) : State :=
  let culms := (c.culms.zip m.culms).zipIdx.map (fun x =>
    (x.1.1, ({ plan := c.slot, index := x.2, decl := x.1.2, queue := [], held := [], ended := false } : Culm)))
  (s.mapEng (fun e => { e with culms := culms.foldl (fun t k => t.set k.1 k.2) e.culms })).setPlan c.slot p

/-- Checks 11 to 14 and the claims, after the image's own checks (R151 to R155). `own` is the first of those to fail. -/
def State.loadImage (s : State) (a : Accepted) (m : Image) (own : Option Nat) (heads : List Transfer) (validate : Bool) :
    State :=
  let ctx := s.mailboxCtx a.mb
  let slot := match s.slotOf a with
    | some k => some k
    | none => s.emptySlot
  let asBefore := fun (t : State) => t.mapEng (fun e => { e with tables := s.eng.tables })
  match s.attachAll a (slot.getD 256) heads [] m.tables with
  | .wait t w => (asBefore t).parkCmd a [w]
  | .closed t => asBefore t
  | .ended t => asBefore t
  | .fails t => (asBefore t).failLoad a CC.imageInvalid 11
  | .ok t writes =>
    let s := asBefore t
    if own = some 12 then s.failLoad a CC.imageInvalid 12
    else if !s.shapeAccepted m then s.failLoad a CC.imageInvalid 13
    else
      match s.bind m with
      | none => s.failLoad a CC.imageInvalid 14
      | some (v, b) =>
        let resv := v.reservation m b.nodes
        if validate then s.complete a CC.ok resv
        else
          match v.claim m slot resv with
          | .error k => s.failLoad a CC.resourceLimit k
          | .ok c =>
            let v : State := { v with eng := { v.eng with tables := t.eng.tables } }
            match v.performWrites a.waiter ctx writes with
            | (v, _, .ok _) =>
              let v := v.putPlan m (loadedPlan m ctx (mailboxNumber a.mb) b c) c
              v.complete a CC.ok (v.handleOf c.slot)
            | (v, _, .stop c d) => ({ s with regs := v.regs } : State).dmaEnd a c d
            | (v, _, .park w) => ({ v with eng := { v.eng with plans := s.eng.plans, tables := s.eng.tables, nodes := s.eng.nodes } } :
                State).parkCmd a [w]
            | _ => (s.waitLine a.waiter).parkCmd a []

/-- PLAN_LOAD and its validation. -/
def State.planLoad (s : State) (m : Mailbox) (image : Transfer) (heads : List Transfer) (validate : Bool) : State :=
  s.onCmd m (fun c => isOp Op.planLoad c && bitOf (cmdArg c 0) 0 == validate) fun a =>
    s.withDeclared a 192 imgLen image fun s b =>
      if bitOf (leField b 6 2) 1 && !s.flag F.RDY_STATUS_GRN_LAZY then s.complete a CC.notReady s.rdyWord
      else
        match imageFail b with
        | some k => if k < 12 then s.failLoad a CC.imageInvalid k else s.loadImage a (parseImage b) (some k) heads validate
        | none => s.loadImage a (parseImage b) none heads validate

/-- PLAN_LOAD (R151 to R155). -/
def execPlanLoad (m : Mailbox) (image : Transfer) (heads : List Transfer) (s : State) : Host.Outcome State Fault Refusal :=
  done s (s.planLoad m image heads false)

/-- PLAN_LOAD_VALIDATE (R155): nothing is claimed or attached; RESULT is the reservation. -/
def execPlanLoadValidate (m : Mailbox) (image : Transfer) (heads : List Transfer) (s : State) :
    Host.Outcome State Fault Refusal :=
  done s (s.planLoad m image heads true)

/-! ### PLAN_START (R170 to R172, R227) -/

/-- The first field of a parameter block's header that is wrong (R170). -/
def blockHeaderFail (b : List Byte) (count : Nat) : Option Nat :=
  if leField b 0 4 ≠ 0x42505053 then some 0
  else if leField b 4 1 ≠ 1 then some 4
  else if leField b 5 1 ≠ 0 then some 5
  else if leField b 6 2 ≠ count then some 6
  else if leField b 12 4 ≠ 0 then some 12
  else none

/-- Replaces bytes of an operator's parameters. -/
def OpRec.patch (o : OpRec) (off : Nat) (b : List Byte) : OpRec :=
  { o with par := o.par.take off ++ b ++ o.par.drop (off + b.length) }

/-- Patches value slot k of a block into its operator (R149, R170). -/
def Image.patch (m : Image) (b : List Byte) (k : Nat) (d : ParamDecl) : Image :=
  let o := m.ops.getD d.op OpRec.blank
  { m with ops := m.ops.set d.op (o.patch d.offset (sliceBytes b (16 + 16 * k) d.size)) }

/-- A value slot is well-formed: the bytes past its SIZE zero, a truth value 0 or 1. -/
def slotOk (b : List Byte) (k : Nat) (d : ParamDecl) : Bool :=
  zeroAt b (16 + 16 * k + d.size) (16 - d.size) && (d.ty != 0x0D || decide (leField b (16 + 16 * k) d.size ≤ 1))

/-- An operator's record is acceptable as patched (R170). -/
def Image.accepts (m : Image) (op : Nat) : Bool := m.opOk (m.ops.getD op OpRec.blank)

/-- The first value, the slots taken in order, with which its operator is no longer acceptable. -/
def Image.firstRefused (m : Image) (b : List Byte) : List (ParamDecl × Nat) → Option Nat
  | [] => none
  | (d, k) :: ds =>
    let n := m.patch b k d
    if slotOk b k d && n.accepts d.op then n.firstRefused b ds else some (16 + 16 * k)

/-- The image with a block's values, or the byte offset of the first value that its operator does not accept (R170). Values that
are acceptable together are accepted, whatever the declared values of the slots after them. -/
def Image.withParams (m : Image) (b : List Byte) : Except Nat Image :=
  let ds := m.params.zipIdx
  let new := ds.foldl (fun n d => n.patch b d.2 d.1) m
  if ds.all (fun d => slotOk b d.2 d.1 && new.accepts d.1.op) then .ok new
  else .error ((m.firstRefused b ds).getD 16)

/-- The calendar entry of a window operator (R227): the least instant later than the present count. -/
def windowEntry (o : OpRec) (handle op count : Nat) : CalEntry :=
  let base := o.originNs + o.lateNs
  let len := max 1 o.lenNs
  let first := if count < base then base - (base - count - 1) / len * len else base + ((count - base) / len + 1) * len
  { instant := first / 1000, period := o.lenNs / 1000, target := 1, action := 0, arg := handle * 65536 + op, late := false,
    missed := 0, past := false }

/-- Commits the calendar entries of a running plan that are not in the calendar (R172, R227). -/
def State.commitWindows (s : State) (slot : Nat) : State :=
  match s.plan? slot with
  | none => s
  | some p =>
    if p.state ≠ .running then s
    else
      p.cals.foldl (fun s c =>
        let o := p.opAt c.1
        if o.timeData || s.cal.entries.has c.2 then s
        else s.setEntry c.2 (some (windowEntry o (s.handleOf slot) c.1 s.ft.count))) s

/-- An operator at the start of a run (R162, R170, R209). -/
def OpRec.startRun (o : OpRec) (now : Nat) : OpRun :=
  { OpRun.blank with
    flows := List.replicate o.flows FlowRun.blank, next := if o.kind = Kind.scan then o.stripeFirst else 0,
    stop := if o.kind = Kind.scan && !o.scanFollow && o.stripeEnd != 0 then some o.stripeEnd else none,
    polled := now - 1000 * o.pollUs }

/-- A plan at the start of a run: counters at 0, no held flow. -/
def Plan.started (p : Plan) (m : Image) (cls id now startFt : Nat) : Plan :=
  { p with
    state := .running, cls := cls, image := m, cmd := some id, cancels := [], ending := none, waitSignal := none,
    firstHeld := 0xFFFF, firstErr := 0, tasksDone := 0, rowsOut := 0, windowsClosed := 0, lateRows := 0, poolWaits := 0,
    startFt := startFt, ops := m.ops.map (fun o => o.startRun now) }

/-- Starts a plan that passed its checks (R170, R172, R180). -/
def State.startPlan (s : State) (a : Accepted) (slot : Nat) (p : Plan) (m : Image) : State :=
  let ft := if s.get F.FT_STATUS_STATE = Ft.running then s.ft.count else 0
  let p := p.started m (cmdArg a.cmd 1 % 4) a.id s.now ft
  let s := ((s.begin a).setPlan slot p).resetCulms p
  let s := s.commitWindows slot
  let scans := (List.range m.ops.length).filter (fun i =>
    (m.ops.getD i OpRec.blank).kind == Kind.scan && !(m.ops.getD i OpRec.blank).scanFollow)
  let s := scans.foldl (fun s i => s.issueScan slot i) s
  (s.settleOps slot).schedule

/-- The length of the parameter block that a plan takes (R170). -/
def Plan.blockLen (p : Plan) : Nat := if p.image.params.isEmpty then 0 else 16 + 16 * p.image.params.length

/-- A PLAN_START goes on with its parameter block `b`, empty where it has none (R170). -/
def State.startWith (s : State) (a : Accepted) (b : List Byte) : State :=
  s.withPlan a 0 fun slot p =>
    if cmdLen a.cmd ≠ p.blockLen then s.complete a CC.lengthMismatch p.blockLen
    else if p.state ≠ .loaded then s.complete a CC.stateConflict 0
    else if p.image.params.isEmpty then s.startPlan a slot p p.image
    else
      match blockHeaderFail b p.image.params.length, p.image.withParams b with
      | some off, _ => s.complete a CC.invalidField off
      | none, .error off => s.complete a CC.invalidField off
      | none, .ok image => s.startPlan a slot p image

/-- PLAN_START (R99, R170 to R172): a command with data declares its length in the block's header. -/
def execPlanStart (m : Mailbox) (params : Transfer) (s : State) : Host.Outcome State Fault Refusal :=
  done s (s.onCmd m (isOp Op.planStart) fun a =>
    if cmdLen a.cmd = 0 then (if s.notReady a.cmd then s.complete a CC.notReady s.rdyWord else s.startWith a [])
    else s.withDeclared a 16 (leField · 8 4) params fun s b => s.startWith a b)

/-! ### Cancel, unload, status (R176 to R178, R182) -/

/-- Nothing of an incomplete stripe is seen: a table whose stripe is being written stands as before (R158). -/
def State.dropJobs (s : State) (p : Plan) : State :=
  (p.ops.flatMap (fun r => r.flows.filterMap (fun f => f.st.job))).foldl (fun s j => s.revertTable j.saved) s

/-- Tears a running plan down (R177). -/
def State.tearDown (s : State) (slot : Nat) (ending : Nat × Nat) : State :=
  match s.plan? slot with
  | none => s
  | some p => (s.dropJobs p).teardown slot ending

/-- PLAN_CANCEL (R176). -/
def execPlanCancel (m : Mailbox) (s : State) : Host.Outcome State Fault Refusal :=
  done s (s.onCmd m (isOp Op.planCancel) fun a =>
    s.withPlan a 0 fun slot p =>
      let join := fun (s : State) =>
        match s.plan? slot with
        | some p => (s.begin a).setPlan slot { p with cancels := p.cancels ++ [a.id] }
        | none => s
      match p.state with
      | .loaded => s.complete a CC.ok 0
      | .running => (join (s.tearDown slot (CC.aborted, 1))).schedule
      | .cancelling => join s)

/-- TEARDOWN_COMPLETE (R177 steps 3 and 4): no DMA of the plan is in flight any more. -/
def execTeardownComplete (slot : BitVec 8) (s : State) : Host.Outcome State Fault Refusal :=
  match s.plan? slot.toNat with
  | some p =>
    if p.state = .cancelling && !s.planReads slot.toNat then done s (s.endTeardown slot.toNat).schedule else done s s
  | none => done s s

/-- A plan leaves a table; the last one detaches it (R153, R178). -/
def State.detach (s : State) (slot : Nat) : State :=
  s.mapEng (fun e => { e with tables :=
    (e.tables.map (fun t => { t with users := t.users.filter (· != slot) })).filter (fun t => !t.users.isEmpty) })

/-- Empties a plan's slot (R178): what it claimed goes back, and the slot's generation rises. -/
def State.unload (s : State) (slot : Nat) (p : Plan) : State :=
  let keep := (s.eng.plans.filter (fun q => q.1 != slot)).flatMap (fun q => q.2.virtuals)
  let s := (s.detach slot).mapEng (fun e => { e with
    culms := p.culms.foldl (fun t k => t.erase k) e.culms,
    nodes := (p.virtuals.filter (fun n => !keep.contains n)).foldl (fun t n => t.erase n) e.nodes,
    plans := e.plans.erase slot, gens := e.gens.put slot 0 ((e.gens.getD slot 0 + 1) % 256) })
  s.settleCredits.schedule

/-- An append that is over is no longer kept, and gives back what it had reserved. -/
def State.forgetAppend (s : State) (x : Append) (a : Accepted) : State :=
  (s.mapEng (fun e => { e with appends := e.appends.filter (fun y => y.id != x.id) })).dropWaiter a.waiter

/-- Ends an append. -/
def State.endAppend (s : State) (x : Append) (a : Accepted) (code result : Nat) : State :=
  (s.forgetAppend x a).complete a code result

/-- The appends whose table has detached complete with NO_SUCH_OBJECT, in acceptance order (R157). -/
def State.endDetached (s : State) : State :=
  s.eng.appends.foldl (fun s x =>
    match s.acceptedOf (some x.id) with
    | some a => if (s.table? (cmdArg a.cmd 0)).isNone then s.endAppend x a CC.noSuchObject 0 else s
    | none => s) s

/-- PLAN_UNLOAD (R157, R178). -/
def execPlanUnload (m : Mailbox) (s : State) : Host.Outcome State Fault Refusal :=
  done s (s.onCmd m (isOp Op.planUnload) fun a =>
    s.withPlan a 0 fun slot p =>
      if p.state = .loaded then (s.unload slot p).endDetached.complete a CC.ok 0 else s.complete a CC.stateConflict 0)

/-- Buffers that a plan has borrowed now. -/
def State.planBorrowed (s : State) (p : Plan) : Nat :=
  (p.culms.map (fun k => ((s.culm? k).map Culm.borrowed).getD 0)).foldl (· + ·) 0

/-- The 256 bytes of PLAN_STATUS (R182). -/
def State.statusBytes (s : State) (slot : Nat) (p : Plan) : List Byte :=
  leBytes 2 (s.handleOf slot) ++ leBytes 1 p.state.code ++ leBytes 1 p.cls ++ leBytes 4 p.resv ++
  leBytes 4 (s.planBorrowed p) ++ leBytes 2 p.heldFlows ++ leBytes 2 p.firstHeld ++ leBytes 8 p.firstErr ++
  leBytes 4 (s.nodeAddr p.root) ++ leBytes 4 p.flowBase ++ leBytes 8 p.tasksDone ++ leBytes 8 p.rowsOut ++
  leBytes 8 p.windowsClosed ++ leBytes 8 p.lateRows ++ leBytes 8 p.poolWaits ++ leBytes 8 p.startFt ++
  List.replicate 176 0#8

/-- PLAN_STATUS (R182). -/
def execPlanStatus (m : Mailbox) (s : State) : Host.Outcome State Fault Refusal :=
  done s (s.onCmd m (isOp Op.planStatus) fun a =>
    s.withPlan a 0 fun slot p => s.deliver a (s.statusBytes slot p))

/-! ### Vectors (R174) -/

/-- BIND_VECTOR (R174): each event holds one vector. -/
def execBindVector (m : Mailbox) (s : State) : Host.Outcome State Fault Refusal :=
  done s (s.onCmd m (fun c => isOp Op.bindVector c && !bitOf (cmdArg c 3) 0) fun a =>
    s.withPlan a 1 fun slot p =>
      (s.setPlan slot { p with binds := p.binds.set (cmdArg a.cmd 2) (cmdArg a.cmd 0) }).complete a CC.ok 0)

/-- UNBIND_VECTOR (R108, R174). -/
def execUnbindVector (m : Mailbox) (s : State) : Host.Outcome State Fault Refusal :=
  done s (s.onCmd m (fun c => isOp Op.bindVector c && bitOf (cmdArg c 3) 0) fun a =>
    s.withPlan a 1 fun slot p =>
      (s.setPlan slot { p with binds := p.binds.erase (cmdArg a.cmd 2) }).complete a CC.ok 0)

/-! ### Held flows (R175, R263 to R265, R449, R450) -/

/-- A held flow that can only be cancelled: one of its tasks was lost with its spill record (R263), or stopped with
HW_FAULT (R449, R450). -/
def State.unreleasable (s : State) (p : Plan) (slot op i : Nat) : Bool :=
  let restarts := [Kind.scan, Kind.filter, Kind.compute, Kind.exchange].contains (p.opAt op).kind
  s.eng.tasks.any (fun t => t.plan == slot && t.op == op && t.index == i && t.state == .stopped &&
    (t.err % 65536 == 0x0301 || (t.err % 65536 == 0x0501 && !(restarts && (t.err / 65536 % 256 == 1 || t.err / 65536 % 256 == 2)))))

/-- Ends a flow's hold (R265): every STOPPED task of it is READY again. -/
def State.releaseFlow (s : State) (slot op i : Nat) : State :=
  let s := s.mapFlow slot op i (fun f => { f with held := false, err := 0 })
  let stopped := s.eng.tasks.filter (fun t => t.plan == slot && t.op == op && t.index == i && t.state == .stopped)
  stopped.foldl (fun s t =>
    let u := { t with state := .ready, err := 0 }
    (s.setTask u).traceTask Ev.release u 0) s

/-- FLOW_RELEASE with ARG2 = 0 (R175, R265). -/
def execFlowRelease (m : Mailbox) (s : State) : Host.Outcome State Fault Refusal :=
  done s (s.onCmd m (fun c => isOp Op.flowRelease c && cmdArg c 2 == 0) fun a =>
    s.withPlan a 0 fun slot p =>
      match p.locate (cmdArg a.cmd 1 % 65536) with
      | none => s.complete a CC.noSuchObject 0
      | some (op, i) =>
        if !((p.run op).flow i).held || s.unreleasable p slot op i then s.complete a CC.stateConflict 0
        else ((s.releaseFlow slot op i).schedule).complete a CC.ok 0)

/-- FLOW_RELEASE with ARG2 = 1 (R175): the plan ends, and PLAN_START completes PLAN_FAILED. -/
def execFlowCancel (m : Mailbox) (s : State) : Host.Outcome State Fault Refusal :=
  done s (s.onCmd m (fun c => isOp Op.flowRelease c && cmdArg c 2 == 1) fun a =>
    s.withPlan a 0 fun slot p =>
      match p.locate (cmdArg a.cmd 1 % 65536) with
      | none => s.complete a CC.noSuchObject 0
      | some (op, i) =>
        if !((p.run op).flow i).held || p.state ≠ .running then s.complete a CC.stateConflict 0
        else
          let s := match s.eng.tasks.find? (fun t => t.plan == slot && t.op == op && t.index == i && t.state == .stopped) with
            | some t => s.traceTask Ev.release t 1
            | none => s
          ((s.tearDown slot (CC.planFailed, p.firstErr % 65536 + p.firstHeld * 65536)).schedule).complete a CC.ok 0)

/-- SPILL_CONFIG (R108, R260). -/
def execSpillConfig (m : Mailbox) (s : State) : Host.Outcome State Fault Refusal :=
  done s (s.onCmd m (isOp Op.spillConfig) fun a =>
    if s.eng.plans.any (fun p => p.2.state != .loaded) then s.complete a CC.stateConflict 0
    else ((s.set F.SCH_SPILL_SIZE_MIB (cmdArg a.cmd 0)).settleQuota).complete a CC.ok 0)

end Sys2Proof.Machine
end

