-- ==== Sys2Proof/Machine/Appends.lean ====
section
/-!
DEFINITION. APPEND_BLOCK (R133, R134, R138, R156, R157): the checks of an appended block, its writes, and its waits.
-/

namespace Sys2Proof.Machine

/-! ### What the table holds already (R134) -/

/-- Bytes of the window, where their pages are restored. -/
def State.windowBytes (s : State) (addr len : Nat) : State × Dma (List Byte) :=
  let p := placeOf 0 0 addr
  match s.reach p len false with
  | (s, .ok _) => (s, .ok (s.tableBytes p len))
  | r => (r.1, .pending)

/-- The stripe from number `i` on, counted down, whose rows begin at a row: its record's address and bytes. -/
def State.findStripe (s : State) (a : Attached) (first : Nat) : Nat → State × Dma (Option (Nat × List Byte))
  | 0 => (s, .ok none)
  | i + 1 =>
    match s.windowBytes (a.decl.dir + 8 * i) 8 with
    | (s, .ok d) =>
      let at_ := ofLeBytes d
      match s.windowBytes at_ (48 + 16 * a.decl.types.length) with
      | (s, .ok r) =>
        if leField r 0x10 8 = first then (s, .ok (some (at_, r)))
        else if leField r 0x10 8 < first then (s, .ok none)
        else s.findStripe a first i
      | (s, _) => (s, .pending)
    | (s, _) => (s, .pending)

/-- The block that a column holds already for a FIRST_ROW, and the ROW_COUNT that another column has given for it. -/
structure Accepted0 where
  bytes : Option (List Byte)
  rows : Option Nat

/-- What has been accepted for a FIRST_ROW (R133, R134): in the open row range, or in a visible stripe. -/
def State.acceptedBlock (s : State) (a : Attached) (col first : Nat) : State × Dma Accepted0 :=
  let here := a.opened.filter (fun o => o.firstRow == first)
  match here with
  | o :: _ =>
    match here.find? (fun x => x.col == col) with
    | some x =>
      match s.windowBytes (a.decl.area + x.offset) x.len with
      | (s, .ok b) => (s, .ok { bytes := some b, rows := none })
      | (s, _) => (s, .pending)
    | none => (s, .ok { bytes := none, rows := some o.rows })
  | [] =>
    if a.next.getD col 0 ≤ first then (s, .ok { bytes := none, rows := none })
    else
      match s.findStripe a first a.stripes with
      | (s, .ok (some (at_, r))) =>
        match s.windowBytes (at_ + leField r (48 + 16 * col) 8) (leField r (56 + 16 * col) 4) with
        | (s, .ok b) => (s, .ok { bytes := some b, rows := none })
        | (s, _) => (s, .pending)
      | (s, .ok none) => (s, .ok { bytes := none, rows := none })
      | (s, _) => (s, .pending)

/-! ### The checks (R133, R136 to R138) -/

/-- Step 11 of R136 for an appended block: a FIRST_ROW other than the column's next row is let pass only for the block that it
holds already (R133, R134); a ROW_COUNT other than that of another column's block is not. -/
def appendPlace (next : Nat) (old : Accepted0) (block : List Byte) : PlaceCheck := fun h =>
  if h.firstRow ≠ next then (if old.bytes = some block then none else some (0x0A, 0x20))
  else if old.rows.any (fun n => n != h.rows) then some (0x09, 0x0A)
  else none

/-- The whole check of an appended block: the time column carries HAS_MINMAX unless every row is null (R132). -/
def checkAppend (a : Attached) (col : Nat) (old : Accepted0) (block : List Byte) (crcReq : Bool) : Except BlockErr Unit :=
  match checkBlock block (a.decl.types.getD col 0) (appendPlace (a.next.getD col 0) old block) crcReq with
  | .error e => .error e
  | .ok k =>
    if col = a.decl.timeCol && !k.head.hasMinMax && !k.values.all Value.isNull then .error ⟨Blk.format, 0x10, 0x38⟩
    else .ok ()

/-! ### One append -/

/-- Writes an append's progress back. -/
def State.setAppend (s : State) (x : Append) : State :=
  s.mapEng (fun e => { e with appends := e.appends.map (fun y => if y.id = x.id then x else y) })

/-- Bytes of its block that an append has written. -/
def Append.written (x : Append) : Nat :=
  match x.job with
  | none => 0
  | some j =>
    let at_ := (j.saved.append 0 x.data).2.find? (fun w => w.bytes.length == x.data.length && w.bytes == x.data)
    match at_ with
    | none => x.data.length
    | some w =>
      let left := j.writes.filter (fun v => decide (w.addr ≤ v.addr) && decide (v.addr < w.addr + x.data.length))
      x.data.length - (left.map (fun v => v.bytes.length)).foldl (· + ·) 0

/-- NEXT_ROW of the column has been written (R134). -/
def WriteJob.advanced (j : WriteJob) (col : Nat) : Bool := !j.writes.any (fun w => w.addr == j.saved.entryAddr col)

/-- The remaining lines can no longer be accepted (R108): HELD or FAILED. -/
def State.appendsEnd (s : State) : Bool := s.grnState == Grn.heldState || s.grnState == Grn.failed

/-- The table of an append that does not end stands as before, unless NEXT_ROW has been written (R134). -/
def State.undoAppend (s : State) (x : Append) (a : Accepted) : State :=
  match x.job with
  | some j => if j.advanced (cmdArg a.cmd 1 % 65536) then s else s.revertTable j.saved
  | none => s

/-- An append ends with the code given and the bytes accepted (R108, R134). -/
def State.cutAppend (s : State) (x : Append) (a : Accepted) (code : Nat) : State :=
  (s.undoAppend x a).endAppend x a code x.written

/-- A command whose transfer cannot be resolved ends by a DMA stop (R105, R292): an append among them writes no more. -/
def State.stopCmd (s : State) (a : Accepted) (code detail : Nat) : State :=
  (match s.eng.appends.find? (fun (x : Append) => x.id == a.id) with
    | some x => (s.undoAppend x a).forgetAppend x a
    | none => s.dropWaiter a.waiter).dmaEnd a code detail

/-! ### Lines of one pair (R101) -/

/-- The lines of the window that a write meets. -/
def MemWrite.lines (w : MemWrite) : List Nat := if w.loc = 0 then linesOf w.addr w.bytes.length else []

/-- LINES of an INGEST. -/
def ingestLines (a : Accepted) : Nat := cmdArg a.cmd 1 % 2 ^ 32

/-- A line that an INGEST in progress has still to write. -/
def Accepted.ingests (b : Accepted) (line : Nat) : Bool :=
  b.begun && cmdOpcode b.cmd == Op.ingest && decide (cmdArg b.cmd 0 / 64 + b.progress ≤ line) &&
  decide (line < cmdArg b.cmd 0 / 64 + ingestLines b)

/-- An earlier command of the same pair has still to write a line (R101). -/
def State.lineAhead (s : State) (a : Accepted) (line : Nat) : Bool :=
  (s.mbx.accepted.takeWhile (fun b => b.id != a.id)).any (fun b => b.mb == a.mb && (b.ingests line ||
    (s.eng.appends.find? (fun (x : Append) => x.id == b.id)).any (fun x => x.job.any (fun j => j.writes.any (fun w => w.lines.contains line)))))

/-! ### The writes of an append (R156) -/

/-- Goes on with an append's writes (R156), as far as no earlier command of its pair has to write their lines first (R101); the
last one completes the command (R133). -/
def State.writeAppend (s : State) (x : Append) (a : Accepted) (j : WriteJob) : State :=
  let free := j.writes.takeWhile (fun w => !w.lines.any (s.lineAhead a))
  let rest := j.writes.drop free.length
  let r := s.performWrites a.waiter (s.mailboxCtx a.mb) free
  let keep := { x with job := some { j with writes := r.2.1 ++ rest } }
  match r.2.2, rest with
  | .ok _, [] => r.1.endAppend x a CC.ok 0
  | .stop c d, _ => (r.1.setAppend keep).stopCmd a c d
  | .park w, _ => (r.1.setAppend keep).update { a with begun := true, waits := [w] }
  | _, _ => r.1.setAppend keep

/-- An earlier append to the same table keeps this one waiting: one of the same column, one that waits for room where this one
does too, or one that is writing (R134, R156, R157). -/
def State.appendBehind (s : State) (x : Append) (table col : Nat) : Bool :=
  s.eng.appends.any (fun (y : Append) => y.id != x.id &&
    match s.acceptedOf (some y.id) with
    | some b => cmdArg b.cmd 0 == table &&
        (y.job.isSome || (decide (y.id < x.id) && (cmdArg b.cmd 1 % 65536 == col || (x.full && y.full))))
    | none => false)

/-- A table's area or directory has no room for an append: it waits, and source 33 is raised at the first wait (R157). -/
def State.areaFull (s : State) (x : Append) (t : Attached) : State :=
  let s := s.setAppend { x with full := true }
  if t.raised then s else (s.setTable { t with raised := true }).raise 33 0 0

/-- Begins an append whose turn it is: it is checked, and then it writes or waits (R133, R134, R138, R157). -/
def State.tryAppend (s : State) (x : Append) (a : Accepted) (t : Attached) : State :=
  let col := cmdArg a.cmd 1 % 65536
  let h := blockHead x.data
  match s.acceptedBlock t col h.firstRow with
  | (s, .ok old) =>
    match checkAppend t col old x.data (s.flag F.CBV_CTL_CRC_REQ) with
    | .error e => (s.rejectBlock e (0x80 + mailboxNumber a.mb)).endAppend x a CC.blockInvalid (e.word 0)
    | .ok () =>
      if old.bytes.isSome then (s.bump C.cbvChecked).endAppend x a CC.ok 0
      else if t.opened.any (fun o => o.firstRow != h.firstRow) then s
      else
        match t.full x.data.length t.columnsLeft with
        | some _ => s.areaFull x t
        | none =>
          let w := t.append col x.data
          let j : WriteJob := { saved := t, writes := w.2, rows := h.rows, port := 0 }
          let x := { x with job := some j, full := false }
          (((s.bump C.cbvChecked).setTable w.1).setAppend x).writeAppend x a j
  | (s, _) => s

/-- One begun append goes on as far as it can. -/
def State.goOnAppend (s : State) (x : Append) : State :=
  match s.acceptedOf (some x.id) with
  | none => s.mapEng (fun e => { e with appends := e.appends.filter (fun y => y.id != x.id) })
  | some a =>
    match s.table? (cmdArg a.cmd 0) with
    | none => s.endAppend x a CC.noSuchObject 0
    | some t =>
      if s.appendsEnd then s.cutAppend x a CC.stateConflict
      else if !a.waits.isEmpty then s
      else
        match x.job with
        | some j => s.writeAppend x a j
        | none => if s.appendBehind x t.decl.id (cmdArg a.cmd 1 % 65536) then s else s.tryAppend x a t

/-- Keeps a begun append, in acceptance order. -/
def insertAppend (x : Append) : List Append → List Append
  | [] => [x]
  | y :: ys => if x.id < y.id then x :: y :: ys else y :: insertAppend x ys

/-- The length that an appended block declares (R138): one too short for a header is not of the length that a header has. -/
def blockLength (a : Accepted) (h : List Byte) : Nat :=
  if (blockHead h).len = cmdLen a.cmd ∧ cmdLen a.cmd < 96 then 96 else (blockHead h).len

/-- Begins the next APPEND_BLOCK of a mailbox with the bytes read for it; with no staging buffer free it waits for one (R163). -/
def State.beginAppend (s : State) (a : Accepted) (data : Transfer) : State :=
  if !s.canStage then s else s.withDeclared a 96 (blockLength a) data fun s b =>
    match s.table? (cmdArg a.cmd 0) with
    | none => s.complete a CC.noSuchObject 0
    | some t =>
      if t.decl.role ≠ Role.ingest then s.complete a CC.noSuchObject 0
      else if t.decl.types.length ≤ cmdArg a.cmd 1 % 65536 then s.complete a CC.invalidField 24
      else
        let x : Append := { id := a.id, data := b, job := none, full := false }
        ((s.begin a).mapEng (fun e => { e with appends := insertAppend x e.appends })).goOnAppend x

/-- APPEND_BLOCK (R133, R134, R138, R156, R157): the begun appends of every mailbox go on, in acceptance order, and then the next
one of the mailbox begins with `data`. -/
def execAppendBlock (m : Mailbox) (data : Transfer) (s : State) : Host.Outcome State Fault Refusal :=
  let t := s.eng.appends.foldl State.goOnAppend s
  done s (t.onCmd m (isOp Op.appendBlock) fun a => t.beginAppend a data)

end Sys2Proof.Machine
end

