-- ==== Sys2Proof/Machine/Darsum.lean ====
section
/-!
DEFINITION. The mailboxes' own commands (R88 to R114): doorbells, acceptance with checks 1 to 6, completions that wait,
identity, pairs, firmware update, device reset, the option area, field-time loads, pacing, and INGEST.
-/

namespace Sys2Proof.Machine

/-! ### Checks 1 to 6 (R98, R99, R106, R467) -/

/-- The opcodes that the admin mailbox takes (R108). -/
def adminOpcodes : List Nat := knownOpcodes.filter (fun o => !([0x20, 0x28, 0x29].contains o))

/-- The opcodes that a pair takes (R108). -/
def pairOpcodes : List Nat := [0x01, 0x20, 0x21, 0x22, 0x23, 0x24, 0x25, 0x28, 0x29, 0x42, 0x43]

/-- The opcodes of the recovery loader (R463). -/
def loaderOpcodes : List Nat := [0x01, 0x02, 0x03, 0x04]

/-- Check 3 on ownership (R106): the plan named was loaded on another pair, or its class is too urgent. -/
def State.notOwned (s : State) (n : Nat) (c : Line) : Bool :=
  let op := cmdOpcode c
  decide (0x21 ≤ op ∧ op ≤ 0x25) &&
  ((s.handlePlan (cmdArg c 0)).any (fun p => p.2.pair != n) ||
   s.mbx.accepted.any (fun b => (s.slotOf b).any (fun k => s.handleOf k == cmdArg c 0) && mailboxNumber b.mb != n) ||
   (op == Op.planStart && decide (cmdArg c 1 % 4 < s.getN F.MBX_STATE_CLASS n)))

/-- Check 3 (R98): the mailbox, ownership, and what a command's row does not permit (R421, R431, R455). -/
def State.notPermitted (s : State) (m : Mailbox) (c : Line) : Bool :=
  let op := cmdOpcode c
  let place := match m with
    | .admin => !adminOpcodes.contains op
    | .pair n => !pairOpcodes.contains op || s.notOwned n.val c
  place ||
  ((op == Op.keyLoad || op == Op.keyDiscard) && cmdArg c 0 == 0) ||
  (op == Op.mrExtend && decide (cmdArg c 0 < 4)) ||
  (op == Op.digest && cmdArg c 1 == 0) ||
  (op == Op.faultInject && s.flag F.FLT_CTL_INJ_DIS)

/-- The fields of CREATE_PAIR's ARG2 (R109). -/
structure PairArgs where
  number : Nat
  sqLog : Nat
  cqLog : Nat
  window : Nat
  cls : Nat
  ctx : Nat
  coalCount : Nat
  coalTime : Nat

/-- ARG2 of CREATE_PAIR; WINDOW is the effective window (R109). -/
def pairArgs (c : Line) : PairArgs :=
  let w := cmdArg c 2
  { number := bitsOf w 5 0, sqLog := bitsOf w 11 8, cqLog := bitsOf w 15 12,
    window := if bitsOf w 27 16 = 0 then 256 else bitsOf w 27 16, cls := bitsOf w 29 28, ctx := bitsOf w 39 32,
    coalCount := bitsOf w 47 40, coalTime := bitsOf w 63 48 }

/-- Each condition that an argument breaks, with the offset of its field (R94, R108): the lowest one is reported. -/
def badArgs (c : Line) : List (Bool × Nat) :=
  let a := cmdArg c
  let op := cmdOpcode c
  if op = Op.fwDownload then [(a 0 % 4096 != 0 || decide (0x2000000 < a 0 + cmdLen c), 16)]
  else if op = Op.optionRead then [(decide (1 < a 0), 16)]
  else if op = Op.createPair then
    let p := pairArgs c
    [(a 0 % 4096 != 0, 16), (a 1 % 4096 != 0, 24), (bitsOf (a 2) 7 6 != 0, 32),
     (!(decide (4 ≤ p.sqLog ∧ p.sqLog ≤ 12) && decide (4 ≤ p.cqLog ∧ p.cqLog ≤ 12)), 33),
     (decide (2 ^ p.sqLog - 1 < p.window), 34), (bitsOf (a 2) 31 30 != 0, 35), (p.ctx == 0, 36)]
  else if op = Op.bindVector then [(!(decide (72 ≤ a 0 ∧ a 0 ≤ 255)), 16), (decide (4 < a 2), 32)]
  else if op = Op.setPacing then
    [(!(decide (2 ≤ a 0 ∧ a 0 ≤ 7)), 16), (decide (2 ^ 40 ≤ a 1), 24), (decide (2 ^ 32 ≤ a 3), 40)]
  else if op = Op.flowRelease then [(decide (1 < a 2), 32)]
  else if op = Op.ingest then [(a 0 % 64 != 0, 16), (decide (65536 < a 1 % 2 ^ 32), 24)]
  else if op = Op.keyLoad then [(decide (31 < a 0), 16), (decide (2 < a 1), 24)]
  else if op = Op.keyDiscard then [(decide (31 < a 0), 16)]
  else if op = Op.digest then
    [(decide (2 < a 0), 16), (decide (0x1F < a 1) && a 1 != 0xFF, 24), (a 2 % 64 != 0, 32)]
  else if op = Op.mrRead || op = Op.mrExtend then [(decide (15 < a 0), 16)]
  else if op = Op.faultConfig then
    [(decide (255 < a 0) || (sourceInfo (a 0)).isNone, 16), (decide (2 ^ 16 ≤ a 1) || maskInvalid (a 0) (a 1), 24)]
  else if op = Op.faultInject then
    [(decide (255 < a 0) || sourceCheckers (a 0) == 0, 16), (decide (sourceCheckers (a 0) ≤ a 1), 24)]
  else if op = Op.spillConfig then [(!(decide (64 ≤ a 0 ∧ a 0 ≤ 1024)), 16)]
  else []

/-- Check 4 (R98): the offset of the first field in error; FLAGS bits 7 to 2 are RSVD (R97). -/
def fieldFault (c : Line) : Option Nat :=
  (((cmdFlags c / 4 != 0, 1) :: badArgs c).find? (·.1)).map (·.2)

/-- What a row of R108 says of DATA_LEN: one length, a range it lies in or not, or what the data's header declares. -/
inductive LenRule where
  | exactly (n : Nat)
  | within (ok : Bool)
  | declared
  deriving DecidableEq, Repr

/-- The length rule of a command. -/
def lenRule (c : Line) : LenRule :=
  let op := cmdOpcode c
  let n := cmdLen c
  if op = Op.identify || op = Op.optionRead then .exactly 4096
  else if op = Op.fwDownload then .within (n % 4096 == 0 && decide (n ≤ 2 ^ 20))
  else if op = Op.keyLoad then .within (decide (16 ≤ n ∧ n ≤ 128))
  else if op = Op.planStatus then .exactly 256
  else if op = Op.ingest then .exactly (cmdArg c 1 % 2 ^ 32 * 64)
  else if [Op.granaryConfig, Op.flashSubmit, Op.mrRead, Op.mrExtend].contains op then .exactly 64
  else if op = Op.digest then .within true
  else if [Op.optionWrite, Op.planLoad, Op.planStart, Op.appendBlock].contains op then .declared
  else .exactly 0

/-- The end of checks 2 to 6: passed, an opcode not known, or a code with its RESULT; no RESULT where the manual states
none. -/
inductive CheckEnd where
  | passed
  | unknown
  | failed (code : Nat) (result : Option Nat)
  deriving DecidableEq, Repr

/-- Checks 2 to 6 of R98 in their order; the recovery loader answers four opcodes only (R463). The length that a header in the
data declares is checked when that header is read, and check 6 then comes after it (R98, R99). -/
def State.checkCmd (s : State) (m : Mailbox) (c : Line) : CheckEnd :=
  let inline := m == .admin && cmdAddr c == 0 && decide (2048 < cmdLen c)
  let len := match lenRule c with
    | .exactly n => if cmdLen c = n then none else some (some n)
    | .within ok => if ok then none else some none
    | .declared => none
  if !s.flag F.RDY_STATUS_FW && !loaderOpcodes.contains (cmdOpcode c) then .failed CC.notReady (some s.rdyWord)
  else if !knownOpcodes.contains (cmdOpcode c) then .unknown
  else if s.notPermitted m c then .failed CC.notPermitted (some 0)
  else
    match fieldFault c, len with
    | some off, _ => .failed CC.invalidField (some off)
    | none, some r => .failed CC.lengthMismatch (if inline then some 2048 else r)
    | none, none =>
      if inline then .failed CC.lengthMismatch (some 2048)
      else if lenRule c != .declared && s.notReady c then .failed CC.notReady (some s.rdyWord)
      else .passed

/-! ### Acceptance (R88, R89, R92, R93, R96, R102) -/

/-- EXP_SEQ of a mailbox (R96). -/
def State.expSeq (s : State) : Mailbox → Nat
  | .admin => s.mbx.admSeq
  | .pair n => s.getN F.MBX_STATE_EXP_SEQ n.val

/-- Writes EXP_SEQ. -/
def State.setExpSeq (s : State) (m : Mailbox) (v : Nat) : State :=
  match m with
  | .admin => { s with mbx := { s.mbx with admSeq := v % 65536 } }
  | .pair n => s.setN F.MBX_STATE_EXP_SEQ n.val v

/-- A command is accepted and meets checks 1 to 6 (R98); one that passes them waits to begin (R100). -/
def State.acceptCmd (s : State) (m : Mailbox) (c : Line) : State :=
  let a := Accepted.new s.mbx.nextId m c
  let want := s.expSeq m
  let s : State := { s with mbx := { s.mbx with accepted := s.mbx.accepted ++ [a], nextId := s.mbx.nextId + 1 } }
  let s := s.setExpSeq m (cmdSeq c + 1)
  let s := if cmdSeq c ≠ want then s.complete a CC.badSequence want
    else
      match s.checkCmd m c with
      | .failed code (some r) => s.complete a code r
      | .failed code none =>
        let r := s.fresh
        r.2.complete a code r.1
      | .passed => (if cmdOpcode c = Op.planLoad ∧ bitOf (cmdArg c 0) 0 = false then s.claimSlot a else s).keepCommand a
      | .unknown => s
  s.settleQuota

/-- ADM_DOORBELL_GO (R88, R89): a GO while BUSY is set or READY is clear is ignored and sets OVERRUN. -/
def execAdmDoorbellGo (s : State) : Host.Outcome State Fault Refusal :=
  if !s.groupUp .fn || s.linkClosed then done s s
  else if s.flag F.ADM_STATUS_BUSY || !s.flag F.ADM_STATUS_READY then done s (s.set F.ADM_STATUS_OVERRUN 1)
  else done s ((s.set F.ADM_STATUS_BUSY 1).acceptCmd .admin (BitVec.ofNat 512 (s.get F.ADM_CMD_CMD)))

/-- An SQ_TAIL lies beyond LIMIT (R92). -/
def State.tailBeyond (s : State) (n tail : Nat) : Bool :=
  let size := 2 ^ (s.pair n).sqLog
  let head := s.getN F.MBX_PTRS_HEAD n
  decide (size ≤ tail) ||
  decide ((s.getN F.MBX_PTRS_LIMIT n + size - head) % size < (tail + size - head) % size)

/-- SQ_TAIL_WRITE (R92). -/
def execSqTailWrite (n : Fin 64) (v : Word) (s : State) : Host.Outcome State Fault Refusal :=
  let tail := v.toNat % 4096
  if !s.groupUp .fn || s.linkClosed || s.getN F.MBX_STATE_STATE n.val != Mbx.active then done s s
  else if s.tailBeyond n.val tail then done s (s.pairError n.val 1)
  else done s (s.setN F.MBX_PTRS_TAIL n.val tail)

/-- CQ_HEAD_WRITE (R92): indices wrap modulo the ring's size (R90). -/
def execCqHeadWrite (n : Fin 64) (v : Word) (s : State) : Host.Outcome State Fault Refusal :=
  if !s.groupUp .fn || s.linkClosed || s.getN F.MBX_STATE_STATE n.val == Mbx.disabled then done s s
  else
    let p := s.pair n.val
    done s (s.setPair n.val { p with cqHead := v.toNat % 4096 % 2 ^ p.cqLog })

/-- A pair has a command at HEAD that its window lets in (R93). -/
def State.pairOffers (s : State) (n : Nat) : Bool :=
  s.getN F.MBX_STATE_STATE n == Mbx.active && s.getN F.MBX_PTRS_HEAD n != s.getN F.MBX_PTRS_TAIL n &&
  decide (s.getN F.MBX_STATE_INFLIGHT n < s.getN F.MBX_STATE_WINDOW n)

/-- The pair that is served next (R102): round-robin after the pair served last, pairs whose acceptance is held passed
over. A held pair may be looked at again in its turn. -/
def State.pairTurn (s : State) (n : Nat) : Bool :=
  let ready := fun (k : Nat) => s.pairOffers k && (k == n || !(s.pair k).holding)
  ((List.range 64).map (fun i => (s.mbx.lastPair + 1 + i) % 64)).find? ready == some n

/-- Acceptance of a command is held by the spill quota (R93, R261). -/
def State.quotaHolds (s : State) (c : Line) : Bool :=
  s.eng.quota && [Op.planStart, Op.ingest, Op.appendBlock].contains (cmdOpcode c)

/-- Acceptance of a command is held by the governor, or in SEALED (R93, R351, R368). -/
def State.governorHolds (s : State) (c : Line) : Bool :=
  [Op.ingest, Op.appendBlock].contains (cmdOpcode c) &&
  (s.grnState == Grn.sealed || (s.grnServes && (!s.canReserve || !s.grn.waiters.isEmpty)))

/-- The counter of acceptance holds (R93). -/
def C.mbxHold : Counter := ⟨F.MBX_HOLD_CNT_COUNT, F.MBX_HOLD_CNT_SAT⟩

/-- A hold begins or goes on: each separate hold is counted once, and as a write that waits where the governor is its
cause (R93, R351). -/
def State.holdPair (s : State) (n : Nat) (governed : Bool) : State :=
  let p := s.pair n
  let s := s.setPair n { p with holding := true, governed := governed }
  let s := if p.holding then s else s.bumpN C.mbxHold n
  if governed && !p.governed then s.bump C.grnThrottle else s

/-- The command at HEAD is read from the SQ, in the pair's context (R93, R105, R290). -/
def State.sqFetch (s : State) (n : Nat) : State × Dma (List Nat) :=
  let ctx := s.getN F.MBX_STATE_CTX n
  let addr := (s.pair n).sqBase + 64 * s.getN F.MBX_PTRS_HEAD n
  if ringUnreachable (s.pair n).sqBase || !s.ctxEnabled ctx then (s, .stop DmaErr.addrInvalid 1)
  else
    match s.hostReach ctx addr 64 false with
    | (s, .ok frames) => (s.emit (.hostRead (s.via ctx) (framed frames addr addr) 64), .ok frames)
    | r => r

/-- COMMAND_ACCEPT (R93): the command at HEAD is fetched; `none` is a fetch that fails, as one from outside the host
region does (R273). A fetch whose page is not translated yet waits (R292). -/
def execCommandAccept (n : Fin 64) (fetched : Option Line) (s : State) : Host.Outcome State Fault Refusal :=
  let k := n.val
  if !s.groupUp .fn || !s.flag F.RDY_STATUS_FW || s.acceptStopped || s.linkClosed || !s.pairOffers k || !s.pairTurn k then done s s
  else
    match s.sqFetch k, fetched with
    | (t, .park w), _ => done s (t.setPair k { t.pair k with sqWaits := [w] })
    | (t, .stop _ _), _ => done s (t.pairError k 2)
    | (t, .pending), _ => done s t
    | (t, .ok _), none => done s (t.pairError k 2)
    | (t, .ok _), some c =>
      let s' := t.settleQuota
      if s'.quotaHolds c || s'.governorHolds c then done s (s'.holdPair k (s'.governorHolds c))
      else
        let t := ((s'.endHold k).setN F.MBX_PTRS_HEAD k ((s.getN F.MBX_PTRS_HEAD k + 1) % 2 ^ (s.pair k).sqLog)).setN
          F.MBX_STATE_INFLIGHT k (s.getN F.MBX_STATE_INFLIGHT k + 1) |>.advanceLimit k
        done s (({ t with mbx := { t.mbx with lastPair := k } } : State).acceptCmd (.pair n) c)

/-- INVALID_OPCODE (R98): check 2. -/
def execInvalidOpcode (m : Mailbox) (s : State) : Host.Outcome State Fault Refusal :=
  match s.mbx.accepted.find? (fun a => a.mb == m && !knownOpcodes.contains (cmdOpcode a.cmd)) with
  | some a => done s (s.complete a CC.invalidOpcode 0)
  | none => done s s

/-! ### Completions that wait (R94, R95) -/

/-- HELD_COMPLETION_WRITE (R94, R113): the oldest held completion of a ring with room; `written` is false where the CQ
write fails. A write whose page is not translated yet waits (R292). -/
def execHeldCompletionWrite (n : Fin 64) (written : Bool) (s : State) : Host.Outcome State Fault Refusal :=
  let k := n.val
  match (s.pair k).held with
  | [] => done s s
  | c :: rest =>
    if s.cqFull k || s.linkClosed then done s s
    else
      match s.hostReach (s.getN F.MBX_STATE_CTX k) (s.cqAddr k) 16 true with
      | (t, .park w) => done s (t.setPair k { t.pair k with waits := [w] })
      | (t, .stop _ _) => done s (t.cqFails k)
      | (t, .pending) => done s t
      | (t, .ok _) =>
        if !written then done s (t.cqFails k)
        else done s (((t.setPair k { t.pair k with held := rest, waits := [] }).writeCpl k c).finishDrain k)

/-- COALESCE_TIMER_EXPIRY (R95): COAL_TIME µs since the first unsignalled completion. -/
def execCoalesceTimerExpiry (n : Fin 64) (s : State) : Host.Outcome State Fault Refusal :=
  let p := s.pair n.val
  match p.firstAt with
  | some t => if t + 1000 * p.coalTime ≤ s.now then done s (s.firePair n.val) else done s s
  | none => done s s

/-! ### IDENTIFY (R110, R463) -/

/-- A text of `n` bytes, zero-padded. -/
def paddedText (n : Nat) (b : List Byte) : List Byte := b.take n ++ List.replicate (n - b.length) 0#8

/-- "Spavia S96" in ASCII. -/
def productName : List Byte := [0x53#8, 0x70#8, 0x61#8, 0x76#8, 0x69#8, 0x61#8, 0x20#8, 0x53#8, 0x39#8, 0x36#8]

/-- Bytes 0x000 to 0x07F of the IDENTIFY structure (R110). -/
def State.identityBytes (s : State) : List Byte :=
  leBytes 4 1 ++ leBytes 2 2 ++ leBytes 2 3 ++ paddedText 16 productName ++ paddedText 4 [0x42#8, 0x30#8] ++
  leBytes 4 (if s.flag F.RDY_STATUS_RECOVERY then 0 else s.mbx.running) ++ leBytes 16 Config.serial.toNat ++
  leBytes 4 s.mbx.committed ++ leBytes 4 0x2000000 ++ leBytes 8 (2 + natOfBool (s.get F.HL_STATUS_MODE == 2)) ++ leBytes 2 64 ++
  leBytes 2 4096 ++ List.replicate 60 0#8

/-- IDENTIFY (R110). -/
def execIdentify (m : Mailbox) (s : State) : Host.Outcome State Fault Refusal :=
  done s (s.onCmd m (isOp Op.identify) fun a =>
    s.deliver a (s.identityBytes ++ List.replicate 3968 0#8))

/-! ### Firmware update and device reset (R111, R112) -/

/-- FW_DOWNLOAD (R111): a chunk goes into the staging area in device DRAM. -/
def execFwDownload (m : Mailbox) (data : Transfer) (s : State) : Host.Outcome State Fault Refusal :=
  done s (s.onCmd m (isOp Op.fwDownload) fun a =>
    s.withInput a (cmdLen a.cmd) data fun s b => (s.dmaWrite (s.stagingArea + cmdArg a.cmd 0) b).complete a CC.ok 0)

/-- The bytes staged below a length that are not zero, each by its place in the image. -/
def State.staged (s : State) (len : Nat) : Store Byte :=
  (s.dram.cells.filter (fun c => decide (s.stagingArea ≤ c.1) && decide (c.1 < s.stagingArea + len))).map
    (fun c => (c.1 - s.stagingArea, c.2))

/-- Writes an image to both firmware copies: it is the release for the next load (R111). -/
def State.commitFirmware (s : State) (release len : Nat) : State :=
  let copy : FirmwareCopy := { release := release, bytes := s.staged len }
  { s with
    flash := { s.flash with firmware1 := copy, firmware2 := copy },
    mbx := { s.mbx with committed := release } }

/-- FW_COMMIT (R111): until both copies are written and verified, the previous release stays. The manual gives no code
for copies that cannot be written; INTERNAL_ERROR's source is then free. -/
def execFwCommit (m : Mailbox) (found : ImageVerdict) (s : State) : Host.Outcome State Fault Refusal :=
  done s (s.onCmd m (isOp Op.fwCommit) fun a =>
    match found with
    | .valid r => (s.commitFirmware r.toNat (cmdArg a.cmd 0)).complete a CC.ok 0
    | .length n => s.complete a CC.lengthMismatch n.toNat
    | .invalid k => s.complete a CC.imageInvalid k.toNat
    | .unwritten =>
      let r := s.fresh
      r.2.complete a CC.internalError (r.1 % 256))

/-- The plan that a begun PLAN_START started. -/
def State.startedBy (s : State) (a : Accepted) : Option Nat := (s.eng.plans.find? (fun p => p.2.cmd == some a.id)).map (·.1)

/-- DEVICE_RESET ends a running plan (R112, R176, R180): it is torn down, and PLAN_START completes with ABORTED and RESULT 2 ahead of
the reset's own completion. -/
def State.abortPlan (s : State) (a : Accepted) (slot : Nat) : State :=
  let s := match s.plan? slot with
    | some p => if p.state = PlanState.running then s.tearDown slot (CC.aborted, 2) else s
    | none => s
  let s := match s.plan? slot with
    | some p => s.setPlan slot { p with cmd := none }
    | none => s
  (s.complete a CC.aborted 2).planEvent slot 0

/-- An accepted pair command ends with ABORTED (R108, R112): INGEST and APPEND_BLOCK report what was accepted, a running
PLAN_START ends with its plan. -/
def State.abortCmd (s : State) (a : Accepted) : State :=
  if cmdOpcode a.cmd = Op.ingest then
    (s.dropWaiter a.waiter).complete a CC.aborted a.progress
  else if cmdOpcode a.cmd = Op.appendBlock then
    match s.eng.appends.find? (fun x => x.id == a.id) with
    | some x => s.cutAppend x a CC.aborted
    | none => s.complete a CC.aborted 0
  else
    match s.startedBy a with
    | some slot => s.abortPlan a slot
    | none => s.complete a CC.aborted 0

/-- DEVICE_RESET (R112): refused while LATCHED (R453); pair commands end, its own completion is written, and the reset is
asked for. -/
def State.deviceReset (s : State) (m : Mailbox) (load : Bool) : State :=
  s.onCmd m (fun c => isOp Op.deviceReset c && bitOf (cmdArg c 0) 0 == load) fun a =>
    if s.latched then s.complete a CC.stateConflict 0
    else
      let s := (s.mbx.accepted.filter (fun b => b.mb != .admin)).foldl State.abortCmd s
      (s.complete a CC.ok 0).requestChipReset { req := 1, source := 0, device := true, loadCommitted := load }

/-- DEVICE_RESET with ARG0 bit 0 clear (R112, R462). -/
def execDeviceReset (m : Mailbox) (s : State) : Host.Outcome State Fault Refusal := done s (s.deviceReset m false)

/-- DEVICE_RESET with ARG0 bit 0 set (R111, R462). -/
def execDeviceResetLoadCommitted (m : Mailbox) (s : State) : Host.Outcome State Fault Refusal :=
  done s (s.deviceReset m true)

/-! ### The option area (R411, R413) -/

/-- `n` free values as bytes. -/
def State.freeBytes (s : State) : Nat → List Byte × State
  | 0 => ([], s)
  | n + 1 =>
    let r := s.fresh
    let q := r.2.freeBytes n
    (BitVec.ofNat 8 r.1 :: q.1, q.2)

/-- OPTION_READ (R108): a copy's newest record; what a copy without one delivers is free. -/
def execOptionRead (m : Mailbox) (flash : FlashResult) (s : State) : Host.Outcome State Fault Refusal :=
  done s (s.onCmd m (isOp Op.optionRead) fun a =>
    match flash with
    | .failed c => s.complete a CC.flashError c.toNat
    | .ok =>
      match s.optionNewest (cmdArg a.cmd 0) 0 with
      | some r => s.deliver a r
      | none =>
        let r := s.freeBytes 4096
        r.2.deliver a r.1)

/-- The first bytes of the fields that have a SET bit (R411). -/
def optionFields : List Nat :=
  [0x40, 0x41, 0x42, 0x43, 0x44, 0x45, 0x46, 0x47, 0x48, 0x4A, 0x4C, 0x4E, 0x4F, 0x50, 0x58, 0x59, 0x5A, 0x5C, 0x5D,
   0x60, 0x62, 0x63, 0x64, 0x66, 0x67, 0x68, 0x6A, 0x6C, 0x70, 0x72, 0x74, 0x75, 0x76]

/-- Reserved bytes of a record: offset, and the bits of the byte that must be zero (R411). -/
def optionReserved : List (Nat × Nat) :=
  [(0x05, 0xFF), (0x40, 0xFC), (0x41, 0xFC), (0x44, 0xFE), (0x45, 0xFE), (0x47, 0xFE), (0x4E, 0xFE), (0x5B, 0xF0),
   (0x5D, 0x80), (0x5E, 0xFF), (0x5F, 0xFF), (0x67, 0xFE)] ++
  (List.range 9).map (fun i => (0x77 + i, 0xFF)) ++ (List.range 122).map (fun i => (0x86 + i, 0xFF)) ++
  (List.range 3072).map (fun i => (0x400 + i, 0xFF))

/-- A field with its bounds: first byte, bytes, least and greatest value. -/
def optionRanges : List (Nat × Nat × Nat × Nat) :=
  [(0x42, 1, 1, 5), (0x43, 1, 1, 5), (0x48, 2, 512, 4096), (0x4A, 2, 64, 1024), (0x4C, 2, 0, 4095), (0x4F, 1, 0, 1),
   (0x58, 1, 0, 3), (0x59, 1, 0, 5), (0x60, 2, 250, 65535), (0x63, 1, 0, 2), (0x64, 2, 256, 4095), (0x66, 1, 8, 16),
   (0x74, 1, 50, 100)]

/-- A record's SET bit of the field beginning at byte `k`. -/
def recordSet (r : List Byte) (k : Nat) : Bool := bitOf (leField r 0x30 16) (k - 0x40)

/-- The device shape of a record is one of 96 tillers (R240, R411). -/
def recordShapeOk (r : List Byte) : Bool :=
  match shapeFanouts ((sliceBytes r 0x50 8).map (·.toNat)) 5 with
  | some fan => shapeProduct fan fan.length == 96
  | none => false

/-- Every condition on a record that fails, by the offset of its field; the lowest one is the first failing field (R413). -/
def optionFaults (r : List Byte) : List Nat :=
  let head := [(leField r 0 4 != 0x544F5053, 0), (leField r 4 1 != 1, 4), (leField r 6 2 != 4096, 6),
    (recordDigest r != sliceBytes r 0x10 32, 0x10),
    ((List.range 64).any (fun i => recordSet r (0x40 + i) && !optionFields.contains (0x40 + i)) ||
      leField r 0x38 8 != 0, 0x30),
    (recordSet r 0x50 && !recordShapeOk r, 0x50)]
  let reserved := optionReserved.map (fun p => ((leField r p.1 1 &&& p.2) != 0, p.1))
  let ranges := optionRanges.map (fun p =>
    let v := leField r p.1 p.2.1
    (recordSet r p.1 && !(decide (p.2.2.1 ≤ v) && decide (v ≤ p.2.2.2)), p.1))
  let masks := (List.range 256).map (fun n =>
    let m := leField r (0x100 + 2 * n) 2
    (maskInvalid n m || (m != 0xFFFF && (sourceInfo n).isNone), 0x100 + 2 * n))
  ((head ++ reserved ++ ranges ++ masks).filter (·.1)).map (·.2)

/-- OPTION_WRITE (R413): checked, then durable in both copies. Whether a failed write had reached copy 0 is a free value.
A capacitance measured before no longer counts (R348). -/
def execOptionWrite (m : Mailbox) (record : Transfer) (flash : FlashResult) (s : State) :
    Host.Outcome State Fault Refusal :=
  done s (s.onCmd m (isOp Op.optionWrite) fun a =>
    s.withDeclared a 64 (leField · 6 2) record fun s b =>
      match optionFaults b with
      | o :: os => s.complete a CC.imageInvalid (os.foldl min o)
      | [] =>
        let r := s.sealRecord b
        match flash with
        | .ok => (((s.programOption 0 r).programOption 1 r).set F.BANK_STATUS_MEAS_VALID 0).complete a CC.ok 0
        | .failed c =>
          let f := s.fresh
          (if f.1 % 2 = 1 then f.2.programOption 0 r else f.2).complete a CC.flashError c.toNat)

/-! ### Pairs (R109, R113) -/

/-- The effective windows of all pairs (R109). -/
def State.windowSum (s : State) : Nat := ((List.range 64).map (fun n => s.getN F.MBX_STATE_WINDOW n)).foldl (· + ·) 0

/-- A pair becomes ACTIVE (R113). -/
def State.makePair (s : State) (c : Line) : State :=
  let p := pairArgs c
  let n := p.number
  let s := s.setPair n { Pair.blank with
    sqBase := cmdArg c 0, cqBase := cmdArg c 1, sqLog := p.sqLog, cqLog := p.cqLog,
    coalCount := p.coalCount, coalTime := p.coalTime }
  let s := [(F.MBX_PTRS_HEAD, 0), (F.MBX_PTRS_TAIL, 0), (F.MBX_PTRS_CQ_TAIL, 0), (F.MBX_STATE_EXP_SEQ, 0),
    (F.MBX_STATE_INFLIGHT, 0), (F.MBX_STATE_WINDOW, p.window), (F.MBX_STATE_CLASS, p.cls), (F.MBX_STATE_CTX, p.ctx),
    (F.MBX_STATE_ERR_CAUSE, 0), (F.MBX_STATE_STATE, Mbx.active)].foldl (fun s x => s.setN x.1 n x.2) s
  s.advanceLimit n

/-- CREATE_PAIR (R109, R113, R275). -/
def execCreatePair (m : Mailbox) (s : State) : Host.Outcome State Fault Refusal :=
  done s (s.onCmd m (isOp Op.createPair) fun a =>
    let p := pairArgs a.cmd
    if !s.ctxEnabled p.ctx then s.complete a CC.invalidField 36
    else if s.getN F.MBX_STATE_STATE p.number ≠ Mbx.disabled then s.complete a CC.stateConflict 0
    else if 16384 < s.windowSum + p.window then s.complete a CC.resourceLimit 0
    else (s.makePair a.cmd).complete a CC.ok 0)

/-- DELETE_PAIR (R113): completes when nothing of the pair is in flight. -/
def execDeletePair (m : Mailbox) (s : State) : Host.Outcome State Fault Refusal :=
  done s (s.onCmd m (isOp Op.deletePair) fun a =>
    let n := cmdArg a.cmd 0 % 64
    let st := s.getN F.MBX_STATE_STATE n
    if st = Mbx.disabled then s.complete a CC.noSuchObject 0
    else if st = Mbx.draining then s.complete a CC.stateConflict 0
    else (((s.begin a).endHold n).setN F.MBX_STATE_STATE n Mbx.draining).finishDrain n)

/-! ### FT_LOAD and SET_PACING (R55, R470) -/

/-- FT_LOAD (R55): the firmware writes FT_LOAD and arms it; the command completes when the load has ended. -/
def execFtLoad (m : Mailbox) (s : State) : Host.Outcome State Fault Refusal :=
  done s (s.onCmd m (isOp Op.ftLoad) fun a =>
    let t := (s.expireLoad.begin a).set F.FT_LOAD_VALUE (cmdArg a.cmd 0)
    if t.misaligned then t.armFail 2 CC.timeNotAligned else t.captureLoad)

/-- The calendar entry below the telemetry entries that paces a target. -/
def State.pacingEntry (s : State) (target : Nat) : Option Nat :=
  (s.cal.entries.find? (fun p => decide (p.1 < 992) && p.2.target == target)).map (·.1)

/-- SET_PACING (R108, R470): the pacing store and the target's calendar entry; a period of 0 stops the pacing. -/
def execSetPacing (m : Mailbox) (s : State) : Host.Outcome State Fault Refusal :=
  done s (s.onCmd m (isOp Op.setPacing) fun a =>
    let target := cmdArg a.cmd 0
    let old := s.pacingEntry target
    if cmdArg a.cmd 1 = 0 then
      let s : State := { s with hub := { s.hub with pacing := s.hub.pacing.erase target } }
      (match old with
        | some i => s.setEntry i none
        | none => s).complete a CC.ok 0
    else
      match (match old with
        | some i => some i
        | none => s.freeEntries.head?) with
      | none => s.complete a CC.resourceLimit 0
      | some i =>
        let e : CalEntry := {
          instant := cmdArg a.cmd 2, period := cmdArg a.cmd 1, target := target, action := 0, arg := cmdArg a.cmd 3,
          late := false, missed := 0, past := decide (cmdArg a.cmd 2 * 1000 < s.ft.count) }
        let s : State := { s with hub := { s.hub with pacing := s.hub.pacing.set target e } }
        (s.setEntry i (some e)).complete a CC.ok 0)

/-! ### INGEST (R101, R108, R351, R530) -/

/-- An INGEST that is over gives back what it had reserved. -/
def State.endIngest (s : State) (a : Accepted) (code result : Nat) : State := (s.dropWaiter a.waiter).complete a code result

/-- An INGEST offers its next lines in ascending order until the data ends, one has to wait, or none can be accepted any
more (R108). A line that an earlier command of the pair has still to write waits for it (R101). -/
def State.ingestFrom (s : State) (a : Accepted) : List Line → State
  | [] => if ingestLines a ≤ a.progress then s.endIngest a CC.ok 0 else s.update a
  | l :: ls =>
    let addr := cmdArg a.cmd 0 + 64 * a.progress
    if ingestLines a ≤ a.progress then s.endIngest a CC.ok 0
    else if s.lineAhead a (addr / 64) then s.update a
    else
      match s.writeMem a.waiter (placeOf 0 0 addr) (bytesOfLine l) with
      | (s, .ok []) => s.ingestFrom { a with progress := a.progress + 1 } ls
      | (s, .stop c d) => (s.dropWaiter a.waiter).dmaEnd a c d
      | (s, .park w) => s.update { a with waits := [w] }
      | (s, _) => s.update a

/-- The INGEST of a mailbox with a SEQ: one in progress that waits on no page, or the next command to begin (R100, R530). -/
def State.ingestCmd (s : State) (m : Mailbox) (seq : Nat) : Option Accepted :=
  match s.mbx.accepted.find? (fun a => a.mb == m && a.begun && isOp Op.ingest a.cmd && cmdSeq a.cmd == seq) with
  | some a => if a.waits.isEmpty then some a else none
  | none => s.nextCmd m (fun c => isOp Op.ingest c && cmdSeq c == seq)

/-- Bytes of an INGEST that are read at once: what the host has delivered of them; from the device region all that are left. -/
def ingestPart (a : Accepted) (data : Transfer) : Nat :=
  let left := 64 * (ingestLines a - a.progress)
  match inDevice (cmdAddr a.cmd + 64 * a.progress), data with
  | false, .bytes b => min left b.length
  | _, _ => left

/-- INGEST (R108, R530): the command with this SEQ begins, or goes on with the lines from its progress on. With no staging buffer
free it waits for one (R163). -/
def execIngest (m : Mailbox) (d : IngestData) (s : State) : Host.Outcome State Fault Refusal :=
  let data := d.transfer
  if !data.wholeLines then .fault .illFormed
  else
    match s.ingestCmd m d.seq.toNat with
    | none => done s s
    | some a =>
      let a := { a with begun := true }
      if !s.canStage then done s s
      else if a.record.any (fun n => s.checkRecord n != 0) then done s (s.recalled a (fun _ => s))
      else if s.grnState = Grn.heldState ∨ s.grnState = Grn.failed then done s (s.endIngest a CC.stateConflict a.progress)
      else
        match s.mailRead a (cmdAddr a.cmd + 64 * a.progress) (ingestPart a data) data with
        | .wait t w => done s (t.update { a with waits := [w] })
        | .closed t => done s (t.update a)
        | .ended t => done s (t.dropWaiter a.waiter)
        | .bytes t b => done s (t.ingestFrom a (linesOfBytes (b.length / 64) b))

end Sys2Proof.Machine
end

