-- ==== Sys2Proof/Machine/Digest.lean ====
section
/-!
DEFINITION. The digest engine (R414 to R433): contexts, key slots, measurement registers, and their commands. The
Granary logic's seals and the extension of measurement registers take contexts 6 and 7 and are over within the command
that needs them; contexts 0 to 5 are held from a DIGEST's start to its result.
-/

namespace Sys2Proof.Machine

def C.dgeWait : Counter := ⟨F.DGE_WAIT_CNT_COUNT, F.DGE_WAIT_CNT_SAT⟩

/-! ### Key slots (R420 to R425) -/

/-- DGE_KEY_ALG: the code of slot `k`, 3 for an empty slot. -/
def State.showSlot (s : State) (k code : Nat) : State :=
  if k = 0 then s.set F.DGE_KEY_ALG_SLOT0 code
  else s.set F.DGE_KEY_ALG_SLOTS (putBits (s.get F.DGE_KEY_ALG_SLOTS) (2 * (k - 1)) 2 code)

/-- Prepares a key for an algorithm into a slot (R420, R422). -/
def State.loadSlot (s : State) (k : Nat) (alg : ShaAlg) (key : List Byte) : State :=
  let slot : KeySlot := ⟨alg, alg.keyState key 0x36#8, alg.keyState key 0x5C#8⟩
  ({ s with dge := { s.dge with slots := s.dge.slots.set k slot } } : State).showSlot k alg.code

/-- Empties a slot (R423). -/
def State.dropSlot (s : State) (k : Nat) : State :=
  ({ s with dge := { s.dge with slots := s.dge.slots.erase k } } : State).showSlot k 3

/-- Slot 0 from the fuses, as an HMAC-SHA-384 key (R421). -/
def State.loadSealKey (s : State) : State :=
  (s.loadSlot 0 .sha384 (beBytes 48 Config.fuseSecret.toNat)).set F.DGE_STATUS_SEAL_KEY 1

/-- KEY_LOAD (R422): every copy of the key bytes in the S96 is overwritten. -/
def execKeyLoad (m : Mailbox) (key : Transfer) (s : State) : Host.Outcome State Fault Refusal :=
  done s (s.onCmd m (isOp Op.keyLoad) fun a =>
    s.withInput a (cmdLen a.cmd) key fun s b =>
      match ShaAlg.ofCode (cmdArg a.cmd 1) with
      | some alg =>
        let t := s.loadSlot (cmdArg a.cmd 0) alg b
        let t := if a.inline then
            t.set F.ADM_DATA_DATA (t.get F.ADM_DATA_DATA / 2 ^ (8 * cmdLen a.cmd) * 2 ^ (8 * cmdLen a.cmd))
          else t
        t.complete a CC.ok 0
      | none => s.complete a CC.invalidField 24)

/-- KEY_DISCARD (R423). -/
def execKeyDiscard (m : Mailbox) (s : State) : Host.Outcome State Fault Refusal :=
  done s (s.onCmd m (isOp Op.keyDiscard) fun a =>
    let k := cmdArg a.cmd 0
    if s.dge.slots.has k then (s.dropSlot k).complete a CC.ok 0 else s.complete a CC.noSuchObject 0)

/-! ### DIGEST (R416 to R419, R427, R428) -/

/-- The lowest free context of 0 to 5. -/
def State.freeContext (s : State) : Option Nat := s.dge.contexts.firstFree 0 6

/-- A request takes a free context, or waits behind the requests that wait already (R417). -/
def State.requestContext (s : State) (r : DigestCtx) : State :=
  match s.freeContext, s.dge.waiting with
  | some c, [] => s.setDigest { s.dge with contexts := s.dge.contexts.set c r }
  | _, _ => (s.setDigest { s.dge with waiting := s.dge.waiting ++ [r] }).bump C.dgeWait

/-- The context or the waiting request of a command. -/
def State.contextOf (s : State) (id : Nat) : Option DigestCtx :=
  (s.dge.contexts.map (·.2) ++ s.dge.waiting).find? (fun r => r.id == id)

/-- The message of a command has been read: it takes the place that the command holds, or asks for a context. -/
def State.takeMessage (s : State) (r : DigestCtx) : State :=
  let put := fun (x : DigestCtx) => if x.id = r.id then r else x
  if (s.contextOf r.id).isSome then
    s.setDigest { s.dge with contexts := s.dge.contexts.map (fun p => (p.1, put p.2)), waiting := s.dge.waiting.map put }
  else s.requestContext r

/-- After a read of a message: one that has parked holds its context, or its place among the waiting (R428). -/
def State.keepContext (s : State) (r : DigestCtx) : State :=
  if s.mbx.accepted.any (fun a => a.id == r.id && a.parked) && (s.contextOf r.id).isNone then s.requestContext r
  else s.sweepContexts

/-- DIGEST_PLAIN (R427): the message is read and its context asked for. -/
def execDigestPlain (m : Mailbox) (msg : Transfer) (s : State) : Host.Outcome State Fault Refusal :=
  done s (s.onCmd m (fun c => isOp Op.digest c && cmdArg c 1 == 0xFF) fun a =>
    match ShaAlg.ofCode (cmdArg a.cmd 0) with
    | some alg =>
      (s.withInput a (cmdLen a.cmd) msg fun s b =>
        (s.begin a).takeMessage ⟨a.id, alg, alg.init, b.length, none, b, true⟩).keepContext
          ⟨a.id, alg, alg.init, 0, none, [], false⟩
    | none => s.complete a CC.invalidField 16)

/-- Reads the message of an HMAC into the context `r` that holds the slot's states. -/
def State.hmacMessage (s : State) (a : Accepted) (msg : Transfer) (r : DigestCtx) : State :=
  (s.withInput a (cmdLen a.cmd) msg fun s b =>
    (s.begin a).takeMessage { r with length := r.alg.block + b.length, data := b, loaded := true }).keepContext r

/-- DIGEST_HMAC (R427): the slot's states are copied at the start (R425), so that a command whose transfer parked goes on with
those its context holds; `slotOk` is the outcome of the slot's check. A slot that fails is emptied, and the command then finds
it empty. -/
def execDigestHmac (m : Mailbox) (msg : Transfer) (slotOk : Bool) (s : State) : Host.Outcome State Fault Refusal :=
  done s (s.onCmd m (fun c => isOp Op.digest c && cmdArg c 1 != 0xFF) fun a =>
    let k := cmdArg a.cmd 1
    match s.contextOf a.id, s.dge.slots.get? k with
    | some r, _ => s.hmacMessage a msg r
    | none, none => s.complete a CC.noSuchObject 0
    | none, some slot =>
      let s := (s.injected 145 (k - 1) 0 (k - 1)).2
      if !slotOk then ((s.dropSlot k).raise 145 (k - 1) 0).complete a CC.noSuchObject 0
      else if cmdArg a.cmd 0 ≠ slot.alg.code then s.complete a CC.invalidField 16
      else s.hmacMessage a msg ⟨a.id, slot.alg, slot.inner, 0, some slot.outer, [], false⟩)

/-- CONTEXT_GRANT (R417): the request that has waited longest takes a freed context. -/
def execContextGrant (s : State) : Host.Outcome State Fault Refusal :=
  match s.freeContext, s.dge.waiting with
  | some c, r :: rest =>
    done s (s.setDigest { s.dge with contexts := s.dge.contexts.set c r, waiting := rest })
  | _, _ => done s s

/-- The context that the datapath serves next (R418): of those whose message is there, 6 and 7 first, alternating; then 0 to
5, round-robin. -/
def Digest.next (d : Digest) : Option Nat :=
  let g := if d.lastGranary = 6 then [7, 6] else [6, 7]
  let low := (List.range 6).map (fun i => (d.last + 1 + i) % 6)
  (g ++ low).find? (fun k => (d.contexts.get? k).any (·.loaded))

/-- Units that the datapath takes for the context at this boundary: one full unit, or the rest of the message with its
padding and, for HMAC, the outer pass (R418, R420). -/
def DigestCtx.units (c : DigestCtx) : Nat :=
  if 128 ≤ c.data.length then 1
  else ceilDiv (c.data.length + (c.alg.pad c.length).length) 128 + natOfBool c.outer.isSome

/-- Absorbs one full 128-byte unit (R418). -/
def DigestCtx.absorb (c : DigestCtx) : DigestCtx :=
  { c with chain := c.alg.blocks (128 / c.alg.block) c.chain (c.data.take 128), data := c.data.drop 128 }

/-- The value of a message whose rest is shorter than a unit (R415, R427). -/
def DigestCtx.value (c : DigestCtx) : List Byte :=
  let v := c.alg.finish c.chain c.data c.length
  match c.outer with
  | some o => c.alg.finish o v (c.alg.block + v.length)
  | none => v

/-- Writes a message's value at ARG2, frees the context once it is written and completes the command OK (R416, R427). -/
def State.endMessage (s : State) (k : Nat) (c : DigestCtx) : State :=
  let free := fun (s : State) => s.setDigest { s.dge with contexts := s.dge.contexts.erase k }
  match s.mbx.accepted.find? (fun a => a.id == c.id) with
  | some a =>
    let t := s.finish a CC.ok 0 [(cmdArg a.cmd 2, field64 c.value)]
    if t.mbx.accepted.any (fun b => b.id == c.id) then
      t.setDigest { t.dge with contexts := t.dge.contexts.set k { c with loaded := false } }
    else free t
  | none => free s

/-- DIGEST_UNIT_BOUNDARY (R418): one unit of the context chosen; its last, shorter unit ends the message. -/
def execDigestUnitBoundary (s : State) : Host.Outcome State Fault Refusal :=
  match s.dge.next with
  | none => done s s
  | some k =>
    match s.dge.contexts.get? k with
    | none => done s s
    | some c =>
      let d := if k < 6 then { s.dge with last := k } else { s.dge with lastGranary := k }
      let t := ({ s with dge := d } : State).bumpTimes C.dgeUnit c.units
      if 128 ≤ c.data.length then
        done s (t.setDigest { t.dge with contexts := t.dge.contexts.set k c.absorb })
      else done s (t.endMessage k c)

/-! ### Measurement registers (R429 to R431) -/

/-- The 64 bytes of MR[k]. -/
def State.mrBytes (s : State) (k : Nat) : List Byte := leBytes 64 (s.getN F.MR_VALUE k)

/-- MR[k] := SHA-512(MR[k] ‖ V) (R429). -/
def State.extendMr (s : State) (k : Nat) (v : List Byte) : State :=
  (s.setN F.MR_VALUE k (ofLeBytes (ShaAlg.hash .sha512 (s.mrBytes k ++ v)))).bumpTimes C.dgeUnit 2

/-- Whether MR[k] is locked (R430, R431). -/
def State.mrLocked (s : State) (k : Nat) : Bool :=
  if k < 4 then bitOf (s.get F.MR_LOCK_BOOT_LOCK) k else bitOf (s.get F.MR_LOCK_LOCK) (k - 4)

/-- MR_READ (R431). -/
def execMrRead (m : Mailbox) (s : State) : Host.Outcome State Fault Refusal :=
  done s (s.onCmd m (isOp Op.mrRead) fun a =>
    s.deliver a (s.mrBytes (cmdArg a.cmd 0)))

/-- MR_EXTEND (R431). -/
def execMrExtend (m : Mailbox) (data : Transfer) (s : State) : Host.Outcome State Fault Refusal :=
  done s (s.onCmd m (isOp Op.mrExtend) fun a =>
    if s.mrLocked (cmdArg a.cmd 0) then s.complete a CC.stateConflict 0
    else
      s.withInput a 64 data fun s b => (s.extendMr (cmdArg a.cmd 0) b).complete a CC.ok 0)

/-! ### Bring-up and resets (R424, R429, R433) -/

/-- The known-answer tests and the loading of slot 0 (R421, R433). -/
def State.knownAnswerTests (s : State) (passed : Bool) : State :=
  if passed then
    let s := { s with dge := { s.dge with katFailed := false } }
    (s.loadSealKey.set F.DGE_STATUS_KAT_DONE 1).set F.DGE_STATUS_READY 1
  else
    let again := s.dge.katFailed
    let s := ({ s with dge := { s.dge with katFailed := true } } : State).set F.DGE_STATUS_KAT_FAIL 1
    if again then s.raise 147 0 0 else s.raise 146 0 0

end Sys2Proof.Machine
end

