-- ==== Sys2Proof/Machine/Flash.lean ====
section
/-!
DEFINITION. Commands of the flash controller (R384 to R410) and FLASH_SUBMIT (R397).
-/

namespace Sys2Proof.Machine

/-! ### Choosing and starting a descriptor (R385, R386) -/

/-- FLQ_DOORBELL (R384): new descriptors of an enabled ADMIN queue are fetched from device memory. Queues owned by
hardware ignore it, and reserved ones are never served. -/
def execFlqDoorbell (q : BitVec 5) (tail : BitVec 10) (s : State) : Host.Outcome State Fault Refusal :=
  let n := q.toNat
  if !s.groupUp .h || n < 20 || 24 ≤ n then done s s
  else
    let t := s.setN F.FLQ_PTRS_TAIL n tail.toNat
    if s.getN F.FLQ_CFG_EN n = 0 then done s t
    else
      let size := 2 ^ max 4 (min 10 (s.getN F.FLQ_CFG_SIZE_LOG n))
      let head := s.getN F.FLQ_PTRS_HEAD n % size
      let count := (tail.toNat % size + size - head) % size
      let base := s.getN F.FLQ_SQ_BASE_BASE n * 4096
      let ds := (List.range count).map (fun i => (n, (s.dramRead (base + 64 * ((head + i) % size)) false).1))
      let t := t.queueLines ((List.range count).map (fun i => base + 64 * ((head + i) % size))) .engine (.read none) 0
      done s (({ t with flash := { t.flash with fetched := t.flash.fetched ++ ds } } : State).setN F.FLQ_PTRS_HEAD n
        (tail.toNat % size))

/-- Descriptors that may start on a die next: the first of each queue for the die, a FENCE one only when its queue has
nothing earlier open (R385). -/
def startable (die : Nat) (busy : List Nat) : List (Nat × Line) → List (Nat × Line) → List (Nat × Line)
  | _, [] => []
  | seen, (q, d) :: rest =>
    let first := !seen.any (fun p => p.1 == q && descDie p.2 == die)
    let free := !descFence d || (!seen.any (fun p => p.1 == q) && !busy.contains q)
    (if descDie d == die && first && free then [(q, d)] else []) ++ startable die busy (seen ++ [(q, d)]) rest

/-- Whether a candidate goes before another: a more urgent class; within a class, round-robin after the queue served
last (R385). -/
def State.descBefore (s : State) (a b : Nat × Line) : Bool :=
  let turn := fun (q : Nat) => (q + 33 - (s.flash.lastQueue.getD (queueClass q) 32 + 1)) % 33
  queueClass a.1 < queueClass b.1 || (queueClass a.1 == queueClass b.1 && turn a.1 < turn b.1)

/-- The descriptor that a die takes next (R385). -/
def State.pickDesc (s : State) (die : Nat) : Option (Nat × Line) :=
  let busy := (s.flash.running ++ s.flash.held).map (fun p => p.2.queue)
  match startable die busy [] s.waitingDescs with
  | [] => none
  | a :: rest => some (rest.foldl (fun m c => if s.descBefore c m then c else m) a)

/-- Takes a descriptor out of its queue. -/
def State.takeDesc (s : State) (p : Nat × Line) : State :=
  { s with flash := { s.flash with
      fetched := s.flash.fetched.erase p, lastQueue := s.flash.lastQueue.set (queueClass p.1) p.1 } }

/-- A die operation that only reads the cells. -/
def readsOnly (d : Line) : Bool := descOp d != 2 && descOp d != 3

/-- A READ of a page that a program on the die is writing waits for the program to end (R398). -/
def State.readsWritten (s : State) (d : Line) (o : DieOp) : Bool :=
  descOp d == 1 && descOp o.desc == 2 && descPage d == descPage o.desc &&
  ((descBlocks d).map (s.descPhysBlock d)).any (fun b => ((descBlocks o.desc).map (s.descPhysBlock o.desc)).contains b)

/-- Whether a waiting read suspends what the die runs (R386): a GUARD read at once, any other more urgent read after
MIN_RUN_US. -/
def State.suspends (s : State) (q : Nat) (d : Line) (o : DieOp) : Bool :=
  readsOnly d && !readsOnly o.desc && !s.readsWritten d o && queueClass q < queueClass o.queue &&
  (queueClass q == 0 || decide (o.since + 1000 * s.get F.FLV_CTL_MIN_RUN_US ≤ s.now))

/-- What stands on the die once a descriptor may start there: none when it must wait. The state has a suspended
operation set aside (R386). -/
def State.freeDie (s : State) (die q : Nat) (d : Line) : Option State :=
  match s.flash.running.get? die, s.flash.held.get? die with
  | none, none => some s
  | none, some o => if readsOnly d && !s.readsWritten d o && queueClass q < queueClass o.queue then some s else none
  | some o, none =>
    if s.suspends q d o then some ((s.setDie die none (some { o with suspended := true })).bump C.flvSuspend) else none
  | some _, some _ => none

/-- The pages that a PROGRAM writes, plane by plane: data and tags from device memory (R388). -/
def State.programPages (s : State) (d : Line) : List FlashPage :=
  (List.range (descBlocks d).length).map (fun i =>
    { data := (s.dmaRead (descData d + 16384 * i) 16384).1,
      tags := (List.range 4).map (fun k =>
        if descMeta d = 0 then 0 else BitVec.ofNat 128 (ofLeBytes (s.dmaRead (descMeta d + 64 * i + 16 * k) 16).1)) })

/-- Starts a descriptor on its die (R392 to R395, R400): an erase has its intent on record first, a program marks the
page it begins. -/
def State.startDesc (s : State) (die q : Nat) (d : Line) : State :=
  let pbs := (descBlocks d).map (s.descPhysBlock d)
  let pages := if descOp d = 2 then s.programPages d else []
  let s := if descOp d = 3 then s.beginErase die pbs
    else if descOp d = 2 then
      { s with flash := { s.flash with np := pbs.foldl (fun m pb => m.set (4096 * die + pb) (descPage d + 1)) s.flash.np } }
    else s
  s.setDie die (some { queue := q, desc := d, start := s.now, since := s.now, suspended := false, pages := pages })
    (s.flash.held.get? die)

/-- The step that the four operations share: the die's next descriptor, if it is one of `ops`, is checked (R389) and
then started, or completes with the failing check's code. -/
def State.serveDie (s : State) (die : Nat) (ops : Nat → Bool) : State :=
  if !s.groupUp .h || s.flash.off then s
  else
    match s.pickDesc die with
    | none => s
    | some (q, d) =>
      if !ops (descOp d) then s
      else
        match s.descCheck q d with
        | some code => (s.takeDesc (q, d)).endDesc q d code 0 0 0 0 0 s.now []
        | none =>
          match s.freeDie die q d with
          | some t => (t.takeDesc (q, d)).startDesc die q d
          | none => s

/-- FLASH_READ (R392): also every descriptor whose opcode is none of the four. -/
def execFlashRead (die : BitVec 6) (s : State) : Host.Outcome State Fault Refusal :=
  done s (s.serveDie die.toNat (fun op => op != 2 && op != 3 && op != 4))

/-- FLASH_PROGRAM (R394). -/
def execFlashProgram (die : BitVec 6) (s : State) : Host.Outcome State Fault Refusal :=
  done s (s.serveDie die.toNat (· == FlashOp.program))

/-- FLASH_ERASE (R395). -/
def execFlashErase (die : BitVec 6) (s : State) : Host.Outcome State Fault Refusal :=
  done s (s.serveDie die.toNat (· == FlashOp.erase))

/-- READ_PARAM (R388). -/
def execReadParam (die : BitVec 6) (s : State) : Host.Outcome State Fault Refusal :=
  done s (s.serveDie die.toNat (· == FlashOp.readParam))

/-! ### Read disturb (R406, R410) -/

/-- A block with three uncorrectable reads in the pass is made bad with cause 3 (R406). -/
def State.dropUncorrectable (s : State) (die pb : Nat) : State :=
  ({ s with flash := { s.flash with uncorrectable := s.flash.uncorrectable.erase (4096 * die + pb) } } : State).growBad die pb 3

/-- Relocates a physical group: the mappings swap with a group that is erased, the old group is erased (R410). Nothing
moves while a restore is in progress, nor while a descriptor waits for the die, which goes before upkeep (R35, R385); without
an erased group it waits and source 138 is raised once. Blocks that three reads found uncorrectable become bad once their
group's data has moved (R406). -/
def State.relocate (s : State) (die pg : Nat) : State :=
  let key := 1024 * die + pg
  let wait := fun (s : State) =>
    { s with flash := { s.flash with relocate := if s.flash.relocate.contains key then s.flash.relocate else s.flash.relocate ++ [key] } }
  if !s.grn.unrestored.isEmpty || !s.backgroundRuns || s.waitingDescs.any (fun p => descDie p.2 == die) then wait s
  else
    match s.logicalGroup die pg, s.spareGroups die with
    | some g, target :: _ =>
      let s := ((s.swapGroups die g target).countErase die pg).bump C.flvReloc
      let s : State := { s with flash := { s.flash with relocate := s.flash.relocate.filter (· ≠ key) } }
      let s := if s.flash.relocate.isEmpty then s.clearLive 138 else s
      ([0, 1, 2, 3].filter (fun i => decide (3 ≤ s.flash.uncorrectable.getD (4096 * die + 4 * pg + i) 0))).foldl
        (fun s i => s.dropUncorrectable die (4 * pg + i)) s
    | _, _ => (wait s).raiseLive 138 0 0

/-- One descriptor's read of a group: it is counted, and its group is relocated at RD_LIMIT or when that is advised
(R410). After a reset a count starts at half of RD_LIMIT. -/
def State.countRead (s : State) (die pb : Nat) (advised : Bool) : State :=
  let key := 1024 * die + pb / 4
  let n := s.flash.reads.getD key 200000 + 1
  let s : State := { s with flash := { s.flash with reads := s.flash.reads.set key n } }
  if pb / 4 < 688 && !(systemDie die && decide (pb < 36)) && (advised || decide (s.get F.FLV_CTL_RD_LIMIT ≤ n)) then
    s.relocate die (pb / 4)
  else s

/-- Uncorrectable reads of a block (R406): the third makes it bad with cause 3, in the Granary pool once its group has been
relocated. -/
def State.countUncorrectable (s : State) (die pb : Nat) : State :=
  let key := 4096 * die + pb
  let n := s.flash.uncorrectable.getD key 0 + 1
  let s : State := { s with flash := { s.flash with uncorrectable := s.flash.uncorrectable.set key n } }
  if n < 3 then s
  else if pb / 4 < 688 && !(systemDie die && decide (pb < 36)) then s.relocate die (pb / 4)
  else s.dropUncorrectable die pb

/-! ### Ends of operations (R390 to R395) -/

/-- A sector as a READ delivers it: its plane and sector, whether it decodes, whether it is erased, and its bytes and
tag; none where the bytes are not known. -/
structure ReadSector where
  bit : Nat
  fails : Bool
  erased : Bool
  known : Option (List Byte × Nat)

/-- The addressed sectors of a READ in ascending plane, then sector order (R388, R392). -/
def State.readSectors (s : State) (die : Nat) (d : Line) (err : Nat) : List ReadSector :=
  (descBlocks d).flatMap (fun b =>
    let pb := s.descPhysBlock d b
    (List.range (descSectors d)).map (fun i =>
      let k := descFirst d + i
      let bit := 4 * (pb % 4) + k
      match s.cells die pb (descPage d) k with
      | .erased => { bit := bit, fails := false, erased := true, known := some (List.replicate 4096 0xFF#8, 0) }
      | .data b t => { bit := bit, fails := !descRaw d && bitOf err bit, erased := false, known := some (b, t) }
      | .torn => { bit := bit, fails := !descRaw d, erased := false, known := none }
      | .unknown => { bit := bit, fails := !descRaw d && bitOf err bit, erased := false, known := none }))

/-- The bytes of a sector as they are delivered: 4,096, or with RAW the whole codeword, whose parity is a free value. -/
def State.sectorBytes (s : State) (d : Line) (r : ReadSector) : (List Byte × Nat) × State :=
  let f := s.fresh
  let body := match r.known with
    | some p => p
    | none => (leBytes 4096 f.1, f.1 / 2 ^ 32768 % 2 ^ 128)
  if descRaw d then
    let p := f.2.fresh
    ((body.1 ++ leBytes 16 body.2 ++ leBytes 496 p.1, body.2), p.2)
  else (body, f.2)

/-- Delivers one sector of a READ to memory, its tag too where META_ADDR is given. -/
def State.deliverSector (s : State) (d : Line) (i : Nat) (r : ReadSector) : State :=
  if r.fails then s
  else
    let x := s.sectorBytes d r
    let s := x.2.dmaWrite (descData d + i * (if descRaw d then 4608 else 4096)) x.1.1
    if descMeta d = 0 then s else s.dmaWrite (descMeta d + 16 * i) (leBytes 16 x.1.2)

/-- The bytes of all sectors, for the staging buffer of FLASH_SUBMIT. -/
def State.stageSectors (s : State) (d : Line) : List ReadSector → List Byte × State
  | [] => ([], s)
  | r :: rs =>
    let x := s.sectorBytes d r
    let y := x.2.stageSectors d rs
    (x.1.1 ++ y.1, y.2)

/-- A suspended operation goes on when no more urgent read waits for the die (R386). -/
def State.resumeDie (s : State) (die : Nat) : State :=
  match s.flash.running.get? die, s.flash.held.get? die with
  | none, some o =>
    match s.pickDesc die with
    | some (q, d) =>
      if readsOnly d && !s.readsWritten d o && queueClass q < queueClass o.queue then s
      else s.setDie die (some { o with since := s.now }) none
    | none => s.setDie die (some { o with since := s.now }) none
  | _, _ => s

/-- The end of a READ (R392, R393). -/
def State.endRead (s : State) (die : Nat) (o : DieOp) (r : FlashOutcome) : State :=
  let d := o.desc
  let ch := die % 16
  let secs := s.readSectors die d r.sectorErr.toNat
  let bad := secs.filter (·.fails)
  let err := bad.foldl (fun a x => a + 2 ^ x.bit) 0
  let retry := decide (r.loops ≠ 0)
  let advised := decide (s.get F.FLV_CTL_RELOC_BITS ≤ r.maxFlips.toNat) || retry || r.soft
  let flags := 2 * natOfBool (secs.all (·.erased)) + 4 * natOfBool retry + 8 * natOfBool r.soft +
    16 * natOfBool advised + 32 * natOfBool o.suspended
  let status := if bad.isEmpty then Fs.ok else Fs.uncorrectable
  let info := cplFlash d status r.loops.toNat err r.maxFlips.toNat 0 0 0 0 % 2 ^ 64
  let s := (s.injectAny ch info ch [128, 129]).2
  let s := bad.foldl (fun s _ => (s.bump C.flvUncorr).raise 129 ch info) s
  let s := (secs.filter (fun x => !x.fails && bitOf r.retried.toNat x.bit)).foldl (fun s _ => s.raise 128 ch info) s
  let x := if o.queue = 32 then s.stageSectors d secs
    else ([], if o.queue < 20 then s else ((List.range secs.length).zip secs).foldl (fun s p => s.deliverSector d p.1 p.2) s)
  let s := x.2.endDesc o.queue d status r.loops.toNat err r.maxFlips.toNat flags r.dieStatus.toNat o.start x.1
  let pbs := (descBlocks d).map (s.descPhysBlock d)
  let s := pbs.foldl (fun s pb =>
    if bad.any (fun x => x.bit / 4 == pb % 4) then s.countUncorrectable die pb else s) s
  match pbs with
  | pb :: _ => s.countRead die pb advised
  | [] => s

/-- The end of a PROGRAM (R394, R400). -/
def State.endProgram (s : State) (die : Nat) (o : DieOp) (r : FlashOutcome) : State :=
  let d := o.desc
  let pbs := (descBlocks d).map (s.descPhysBlock d)
  let fails := fun (pb : Nat) => bitOf r.failed.toNat (pb % 4)
  let status := if pbs.any fails then Fs.programFail else Fs.ok
  let info := cplFlash d status r.loops.toNat 0 0 0 0 0 0 % 2 ^ 64
  let s := (pbs.zip o.pages).foldl (fun s p =>
    if fails p.1 then (s.raise 130 (die % 16) info).growBad die p.1 1
    else
      let s := s.setBlock die p.1 (if 1536 ≤ descPage d + 1 then .full else .open_ (descPage d + 1))
      { s with flash := { s.flash with
          pages := s.flash.pages.set (1536 * (4096 * die + p.1) + descPage d) p.2 } }) s
  s.endDesc o.queue d status r.loops.toNat 0 0 (32 * natOfBool o.suspended) r.dieStatus.toNat o.start []

/-- The end of an ERASE (R395, R400). -/
def State.endErase (s : State) (die : Nat) (o : DieOp) (r : FlashOutcome) : State :=
  let d := o.desc
  let pbs := (descBlocks d).map (s.descPhysBlock d)
  let fails := fun (pb : Nat) => bitOf r.failed.toNat (pb % 4)
  let status := if pbs.any fails then Fs.eraseFail else Fs.ok
  let info := cplFlash d status r.loops.toNat 0 0 0 0 0 0 % 2 ^ 64
  let s := match pbs with
    | pb :: _ => s.countErase die (pb / 4)
    | [] => s
  let s := pbs.foldl (fun s pb =>
    if fails pb then (s.raise 131 (die % 16) info).growBad die pb 2 else s.eraseDone die pb) s
  s.endDesc o.queue d status r.loops.toNat 0 0 (32 * natOfBool o.suspended) r.dieStatus.toNat o.start []

/-- The end of a READ_PARAM: 768 bytes of the die's parameter page, free values (R388). -/
def State.endParam (s : State) (o : DieOp) (r : FlashOutcome) : State :=
  let f := s.fresh
  let bytes := leBytes 768 f.1
  let s := if o.queue = 32 then f.2 else f.2.dmaWrite (descData o.desc) bytes
  s.endDesc o.queue o.desc Fs.ok r.loops.toNat 0 0 (32 * natOfBool o.suspended) r.dieStatus.toNat o.start bytes

/-- FLASH_COMPLETION (R390): the die's operation ends; a suspended one may go on, waiting relocations are tried. -/
def execFlashCompletion (die : BitVec 6) (outcome : FlashOutcome) (s : State) : Host.Outcome State Fault Refusal :=
  let n := die.toNat
  match s.flash.running.get? n with
  | none => done s s
  | some o =>
    let t := s.setDie n none (s.flash.held.get? n)
    let t := match descOp o.desc with
      | 2 => t.endProgram n o outcome
      | 3 => t.endErase n o outcome
      | 4 => t.endParam o outcome
      | _ => t.endRead n o outcome
    let t := if t.grn.unrestored.isEmpty && t.backgroundRuns then t.flash.relocate.foldl (fun t k => t.relocate (k / 1024) (k % 1024)) t else t
    done s (t.resumeDie n).settleOwed

/-- DIE_TIMEOUT (R391): a die busy for 20 ms is reset; what it ran completes with DIE_TIMEOUT, what it held with
ABORTED. -/
def execDieTimeout (die : BitVec 6) (s : State) : Host.Outcome State Fault Refusal :=
  let n := die.toNat
  match s.flash.running.get? n with
  | none => done s s
  | some o =>
    if s.now < o.since + 20000000 then done s s
    else
      let c := n % 16
      let held := s.flash.held.get? n
      let t := s.setDie n none none
      let t := t.cutOp n o
      let t := t.setN F.FLC_STATUS_TIMEOUT c (putBits (t.getN F.FLC_STATUS_TIMEOUT c) (n / 16) 1 1)
      let t := t.raise 132 c (cplFlash o.desc Fs.dieTimeout 0 0 0 0 0 0 0 % 2 ^ 64)
      let t := t.endDesc o.queue o.desc Fs.dieTimeout 0 0 0 (32 * natOfBool o.suspended) 0 o.start []
      match held with
      | some h => done s ((t.cutOp n h).endDesc h.queue h.desc Fs.aborted 0 0 0 32 0 h.start [])
      | none => done s t

/-- ERASE_DONE_JOURNAL (R402): the ERASE_DONE entries that wait are written. -/
def execEraseDoneJournal (s : State) : Host.Outcome State Fault Refusal :=
  if s.groupUp .h then done s (s.journal []) else done s s

/-- VCCQ_LOW_CHANGE (R408, R512): the bit of FLV_STATUS follows. -/
def execVccqLowChange (low : Bool) (s : State) : Host.Outcome State Fault Refusal :=
  if s.groupUp .h then done s (s.setFlag F.FLV_STATUS_VCCQ_LOW low) else done s s

/-- The low-band and high-band WAIT of a speed code (R407); reserved codes are taken as 5. -/
def waitLow (mts : Nat) : Nat := [8, 13, 17, 22, 26, 31].getD mts 31
def waitHigh (mts : Nat) : Nat := [7, 11, 15, 19, 23, 27].getD mts 27

/-- The read wait states that channel `n` uses (R408). -/
def State.flashWait (s : State) (n : Nat) : Nat :=
  let w := s.getN F.FLC_TIMING_WAIT n
  if s.flag F.FLV_STATUS_VCCQ_LOW then max w (waitLow (s.getN F.FLC_TIMING_MTS n)) else w

/-- FLASH_SUBMIT (R397): the descriptor goes to an ADMIN queue; its data waits in a staging buffer. -/
def execFlashSubmit (m : Mailbox) (descriptor : Transfer) (s : State) : Host.Outcome State Fault Refusal :=
  done s (s.onCmd m (isOp Op.flashSubmit) fun a =>
    s.withInput a 64 descriptor fun s b =>
      let d : Line := BitVec.ofNat 512 (ofLeBytes b)
      if descLen d ≠ cmdArg a.cmd 1 then s.complete a CC.lengthMismatch (cmdArg a.cmd 1)
      else
        let s := s.begin a
        { s with flash := { s.flash with fetched := s.flash.fetched ++ [(32, d)] } })

end Sys2Proof.Machine
end

