-- ==== Sys2Proof/Machine/Views.lean ====
section
/-!
DEFINITION. Registers whose fields follow the engine's state (R142, R180, R241 to R247, R252, R274) and what a reader of
any register sees.
-/

namespace Sys2Proof.Machine

/-- A plan's field, zero for an empty slot. -/
def State.planField (s : State) (n : Nat) (f : Plan → Nat) : Nat := ((s.plan? n).map f).getD 0

/-- A culm's field, zero for a slot that no plan holds. -/
def State.culmField (s : State) (n : Nat) (f : Culm → Nat) : Nat := ((s.culm? n).map f).getD 0

/-- A field of the task in service on a tiller. -/
def State.tillerField (s : State) (n : Nat) (f : Task → Nat) : Nat :=
  ((((s.tiller n).task).bind s.task?).map f).getD 0

/-- TIL[n].STATUS.STATE: IDLE 0, RUNNING 1, GATED 3. A retired tiller stays gated (R476). -/
def State.tillerState (s : State) (n : Nat) : Nat :=
  if (s.tiller n).task.isSome then 1 else if s.gated n || !s.live? n then 3 else 0

/-- A node's field, zero for an entry without a node. -/
def State.nodeField (s : State) (n : Nat) (f : Node → Nat) : Nat := ((s.eng.nodes.get? n).map f).getD 0

/-- Plans bound to or sharing a node. -/
def State.nodePlans (s : State) (n : Nat) : Nat :=
  min 255 (s.eng.plans.filter (fun p => p.2.root == n || p.2.virtuals.contains n || p.2.nodes.contains n)).length

/-- Eligible READY tasks of a class in slots at a node (R252). -/
def State.readyAtNode (s : State) (n cls : Nat) : Nat :=
  (s.eng.tasks.filter (fun t => t.node == n && t.cls == cls && s.eligible t)).length

/-- Accesses of a context that are parked: tasks in WAIT_PAGE, and commands that wait on a page (R292). -/
def State.parkedIn (s : State) (ctx : Nat) : Nat :=
  (s.mbx.accepted.filter (fun a => !a.waits.isEmpty && s.mailboxCtx a.mb == ctx)).length +
  (s.eng.tasks.filter (fun t => t.state == .waitPage && ((s.plan? t.plan).map (·.ctx)).getD 0 == ctx)).length

/-- Page request groups outstanding in a context, or in all. -/
def State.groupsIn (s : State) (ctx : Option Nat) : Nat :=
  (s.eng.tlu.groups.filter (fun g => g.sentAt.isSome && (ctx.map (· == g.ctx)).getD true)).length

/-- Host non-posted requests outstanding: reads, and translation requests (R285, R290). -/
def State.readsOut (s : State) : Nat := s.tagsTaken + min 64 s.eng.tlu.reqs.length

/-- The restore state is consulted (R281). -/
def State.restoring (s : State) : Bool := !s.grn.unrestored.isEmpty

/-- The fields that follow the state. -/
def derivedFields : List (Field × (State → Nat → Nat)) :=
  [(F.FT_NOW_NOW, fun s _ => if s.mainUp then s.ftRead else 0),
   (F.POOL_STATUS_RESV_TOTAL, fun s _ => s.resvTotal),
   (F.POOL_STATUS_BORROWED, fun s _ => s.borrowed),
   (F.POOL_STATUS_BORROW_FREE, fun s _ => if s.eng.up then s.borrowFree else 0),
   (F.PLN_STATE_HANDLE, fun s n => s.handleOf n),
   (F.PLN_STATE_FLOW_BASE, fun s n => s.planField n (·.flowBase)),
   (F.PLN_STATE_RESV, fun s n => s.planField n (·.resv)),
   (F.PLN_STATE_HELD, fun s n => s.planField n (fun p => min 255 p.heldFlows)),
   (F.PLN_STATE_CLASS, fun s n => s.planField n (·.cls)),
   (F.PLN_STATE_STATE, fun s n => if s.loadingSlots.has n then 1 else s.planField n (fun p => p.state.code)),
   (F.CUL_STATE_PLAN, fun s n => s.culmField n (·.plan)),
   (F.CUL_STATE_VALID, fun s n => s.culmField n (fun _ => 1)),
   (F.CUL_STATE_QUEUED, fun s n => s.culmField n (fun c => c.queue.length)),
   (F.CUL_STATE_BORROWED, fun s n => s.culmField n Culm.borrowed),
   (F.CUL_STATE_HELD, fun s n => s.culmField n (fun c => c.held.length)),
   (F.TIL_STATUS_FLOW, fun s n => s.tillerField n (·.flow)),
   (F.TIL_STATUS_PLAN, fun s n => s.tillerField n (·.plan)),
   (F.TIL_STATUS_OP, fun s n => s.tillerField n (·.op)),
   (F.TIL_STATUS_STATE, State.tillerState),
   (F.SCH_STATUS_QUOTA_WAIT, fun s _ => natOfBool s.eng.quota),
   (F.SCH_STATUS_SPILL_USED, fun s _ => s.spillUsed),
   (F.SCH_STATUS_FREE_SLOTS, fun s _ => if s.eng.up then 8192 - (s.eng.tasks.filterMap (·.slot)).length else 0),
   (F.SCH_STATUS_RUNNING, fun s _ => (s.eng.tasks.filter (fun t => t.state == .running)).length),
   (F.NODE_CFG_VALID, fun s n => natOfBool (s.eng.nodes.has n)),
   (F.NODE_CFG_VIEW, fun s n => s.nodeField n (fun x => natOfBool x.view)),
   (F.NODE_CFG_LEVEL, fun s n => s.nodeField n (·.level)),
   (F.NODE_CFG_PARENT, fun s n => s.nodeField n (·.parent)),
   (F.NODE_CFG_TILLERS, fun s n => s.nodeField n (·.count)),
   (F.NODE_CFG_LIVE, fun s n => (s.liveTillers n).length),
   (F.NODE_CFG_FIRST_TILLER, fun s n => s.nodeField n (·.first)),
   (F.NODE_CFG_PLANS, State.nodePlans),
   (F.NODE_CAPS_CAPS, State.nodeCaps),
   (F.NODE_THRU_SCRATCH_MIB, fun s n => (s.liveTillers n).length),
   (F.NODE_THRU_MERGE_IN, fun s n => 16 * (s.liveTillers n).length),
   (F.NODE_THRU_HASH, fun s n => 8 * (s.liveTillers n).length),
   (F.NODE_THRU_LANES, fun s n => 16 * (s.liveTillers n).length),
   (F.NODE_THRU_DECODE, fun s n => 64 * (s.liveTillers n).length),
   (F.NODE_READY_URGENT, fun s n => s.readyAtNode n 0),
   (F.NODE_READY_INGEST, fun s n => s.readyAtNode n 1),
   (F.NODE_READY_QUERY, fun s n => s.readyAtNode n 2),
   (F.NODE_READY_BULK, fun s n => s.readyAtNode n 3),
   (F.CTX_CFG_EN, fun s n => natOfBool (s.ctxEnabled n)),
   (F.CTX_STATUS_PARKED, State.parkedIn),
   (F.CTX_STATUS_PRG, fun s n => s.groupsIn (some n)),
   (F.CTX_STATUS_USERS, State.ctxUsers),
   (F.TLU_STATUS_READS, fun s _ => s.readsOut),
   (F.TLU_STATUS_PRG, fun s _ => s.groupsIn none),
   (F.TLU_STATUS_TAG10, fun s _ => natOfBool s.link.tenBitTags),
   (F.TLU_STATUS_ATS_ON, fun s _ => natOfBool s.atsOn),
   (F.TLU_STATUS_RESTORING, fun s _ => natOfBool s.restoring),
   (F.DMC_STATUS_RETRAINING, fun s n => natOfBool (s.dram.retraining.has n)),
   (F.DMC_STATUS_MIGRATING, fun s n => s.getN F.DMC_MIGRATE_ACTIVE n),
   (F.DMC_STATUS_HOT, fun s n => s.getN F.DMC_REFCFG_HOT n),
   (F.DMC_STATUS_GRANARY, fun _ n => natOfBool (decide (n < 4))),
   (F.FLT_SRC_CFG_CLASS, fun _ n => sourceClassCode n),
   (F.FLT_SRC_CFG_BLK, fun _ n => natOfBool (sourceHasBlockReset n))]

/-- What instance `n` of a field reads as. -/
def State.view (s : State) (f : Field) (n : Nat) : Nat :=
  match derivedFields.find? (fun d => d.1.id == f.id) with
  | some d => d.2 s n % 2 ^ f.width
  | none => s.getN f n

/-- A register read whole: the fields at a BAR0 offset put together (R26, R493). -/
def State.regWord (s : State) (addr : Nat) : Nat :=
  allFields.foldl (fun a f =>
    let n := if f.stride = 0 then 0 else (addr - f.addr) / f.stride
    if f.addr ≤ addr && decide (n < f.count) && f.addr + n * f.stride == addr && f.access != .wo then
      a + s.view f n * 2 ^ f.lo
    else a) 0

end Sys2Proof.Machine
end

