-- ==== Sys2Proof/Machine/Management.lean ====
section
/-!
DEFINITION. The management plane (R481 to R497): MCTP control messages, the vendor message set, alerts, sensors and
telemetry. Byte layouts of MCTP control messages are those of DSP0236 (PRESUMED, log entry 7).
-/

namespace Sys2Proof.Machine

/-- The management core answers on SMBus (R481, R448). -/
def State.answering (s : State) : Bool := s.pwr.aux && !s.hub.mgmtReset

/-! ### MCTP control messages (R484) -/

/-- Sends a control response: type 0x00, the command code with the body that follows it. -/
def State.control (s : State) (code : Nat) (body : List Byte) : State :=
  if s.answering then s.emit (.mctp 0 0 (0#8 :: BitVec.ofNat 8 code :: body)) else s

/-- The completion code of a control message whose data is not valid. -/
def mctpInvalid : Byte := 0x02#8

/-- SET_ENDPOINT_ID (R484): operations 0 and 1 assign an ID of 8 to 254. -/
def execSetEndpointId (msg : MctpControl) (s : State) : Host.Outcome State Fault Refusal :=
  let e := msg.eid.toNat
  if !s.answering then done s s
  else if 1 < msg.operation.toNat || e < 8 || e = 255 then done s (s.control 0x01 [mctpInvalid, 0x10#8, BitVec.ofNat 8 (s.get F.MGT_STATUS_EID), 0#8])
  else done s ((s.set F.MGT_STATUS_EID e).control 0x01 [0#8, 0#8, msg.eid, 0#8])

/-- GET_ENDPOINT_ID (R484). -/
def execGetEndpointId (s : State) : Host.Outcome State Fault Refusal :=
  done s (s.control 0x02 [0#8, BitVec.ofNat 8 (s.get F.MGT_STATUS_EID), 0#8, 0#8])

/-- GET_ENDPOINT_UUID (R484). -/
def execGetEndpointUuid (s : State) : Host.Outcome State Fault Refusal :=
  done s (s.control 0x03 (0#8 :: beBytes 16 Config.uuid.toNat))

/-- GET_MCTP_VERSION_SUPPORT (R484): the base protocol and control messages are version 1.3; the version of the vendor
message type is a free value; any other type is not supported. -/
def execGetMctpVersionSupport (msgType : Byte) (s : State) : Host.Outcome State Fault Refusal :=
  let v13 := [0#8, 1#8, 0xF1#8, 0xF3#8, 0xFF#8, 0#8]
  if msgType = 0xFF#8 ∨ msgType = 0#8 then done s (s.control 0x04 v13)
  else if msgType = 0x7E#8 then
    let f := s.fresh
    done s (f.2.control 0x04 ([0#8, 1#8] ++ leBytes 4 f.1))
  else done s (s.control 0x04 [0x80#8])

/-- GET_MESSAGE_TYPE_SUPPORT (R484): Control and Vendor Defined - PCI. -/
def execGetMessageTypeSupport (s : State) : Host.Outcome State Fault Refusal :=
  done s (s.control 0x05 [0#8, 2#8, 0x00#8, 0x7E#8])

/-- GET_VENDOR_DEFINED_MESSAGE_SUPPORT (R484, R486): one PCI vendor ID at selector 0; its command-set word is a free
value. -/
def execGetVendorDefinedMessageSupport (selector : Byte) (s : State) : Host.Outcome State Fault Refusal :=
  if selector = 0#8 then
    let f := s.fresh
    done s (f.2.control 0x06 ([0#8, 0xFF#8, 0#8] ++ beBytes 2 Config.pciVendorId.toNat ++ leBytes 2 f.1))
  else done s (s.control 0x06 [mctpInvalid])

/-! ### Vendor messages (R485 to R488) -/

/-- The completion codes of R487. -/
def Vc.ok : Nat := 0
def Vc.invalidCommand : Nat := 1
def Vc.invalidField : Nat := 2
def Vc.lengthMismatch : Nat := 3
def Vc.unavailable : Nat := 4
def Vc.refused : Nat := 5
def Vc.deferred : Nat := 6

/-- Sends the response to a vendor message (R486). -/
def State.respond (s : State) (m : VendorMsg) (cc : Nat) (payload : List Byte) : State :=
  s.emit (.mctp m.source.toNat m.tag.toNat
    (0x7E#8 :: beBytes 2 Config.pciVendorId.toNat ++ [1#8, m.command ||| 0x80#8, BitVec.ofNat 8 cc, 0#8] ++
      leBytes 2 payload.length ++ payload))

/-- An argument of a request's payload. -/
def msgArg (m : VendorMsg) (off n : Nat) : Nat := leField m.payload off n

/-- The checks of R487 after the first, for a request of `len` payload bytes: `range` tells whether the arguments that
arrived are in range, `powered` whether the domain is there. -/
def State.vendorCheck (s : State) (m : VendorMsg) (len : Nat) (range powered : Bool) (k : State → State) : State :=
  if m.version ≠ 1#8 || m.rsvd ≠ 0#8 || m.cc ≠ 0#8 || (decide (len ≤ m.payload.length) && !range) then
    s.respond m Vc.invalidField []
  else if m.len.toNat ≠ m.payload.length || m.payload.length ≠ len then s.respond m Vc.lengthMismatch []
  else if !powered then s.respond m Vc.unavailable []
  else k s

/-- GET_IDENTITY. -/
def State.vendorIdentity (s : State) (m : VendorMsg) : State :=
  s.vendorCheck m 0 true true fun s =>
    s.respond m Vc.ok (if s.mgt.identity.isEmpty then List.replicate 128 0#8 else s.mgt.identity)

/-- RDY_STATUS as the management core reports it: MGMT alone while HOLD is down (R466). -/
def State.reportedReady (s : State) : Nat := if s.pwr.hold then s.rdyWord else 1

/-- GRN_STATE as the management core reports it: the AUX copy while HOLD is down (R29). -/
def State.reportedGrn (s : State) : Nat := if s.pwr.hold then s.grnWord else s.hub.auxGrn

/-- The bits of MGT_ALERT as a word. -/
def State.alerts (s : State) : Nat := s.word [F.MGT_ALERT_TEMP, F.MGT_ALERT_READY, F.MGT_ALERT_GRANARY, F.MGT_ALERT_FAULT]

/-- All alerts clear (R489). -/
def State.clearAlerts (s : State) : State :=
  s.setAll [(F.MGT_ALERT_TEMP, 0), (F.MGT_ALERT_READY, 0), (F.MGT_ALERT_GRANARY, 0), (F.MGT_ALERT_FAULT, 0)]

/-- FLT_PERSIST as a word. -/
def State.persistWord (s : State) : Nat := s.word [F.FLT_PERSIST_LATCHED, F.FLT_PERSIST_SOURCE]

/-- RST_CAUSE as a word. -/
def State.causeWord (s : State) : Nat := s.word [F.RST_CAUSE_SOURCE, F.RST_CAUSE_REQ, F.RST_CAUSE_COUNT, F.RST_CAUSE_KIND]

/-- The FLAGS word of GET_STATUS. -/
def State.statusFlags (s : State) : Nat :=
  natOfBool s.pwr.hold + 2 * natOfBool s.pwr.main + 4 * s.get F.HL_STATUS_LINK_UP + 8 * s.get F.ADM_STATUS_READY +
  16 * natOfBool (!s.pwr.hold)

/-- GET_STATUS: the response reports the alerts and clears them (R489). -/
def State.vendorStatus (s : State) (m : VendorMsg) : State :=
  s.vendorCheck m 0 true true fun s =>
    (s.respond m Vc.ok (leBytes 4 s.reportedReady ++ leBytes 4 s.statusFlags ++ leBytes 8 s.reportedGrn ++
      leBytes 4 s.persistWord ++ leBytes 4 s.causeWord ++ leBytes 4 s.alerts ++ List.replicate 4 0#8)).clearAlerts

/-- GET_FAULTS: while HOLD is down only the first-error record has an AUX copy; the other words are free values. -/
def State.vendorFaults (s : State) (m : VendorMsg) : State :=
  s.vendorCheck m 0 true true fun s =>
    if s.pwr.hold then
      s.respond m Vc.ok ((List.range 4).flatMap (fun k => leBytes 8 (s.getN F.FLT_STICKY_STICKY k)) ++
        (List.range 4).flatMap (fun k => leBytes 8 (s.getN F.FLT_LIVE_LIVE k)) ++ s.firstWords.flatMap (leBytes 8))
    else
      let f := s.fresh
      f.2.respond m Vc.ok (leBytes 64 f.1 ++ s.hub.auxFirst.flatMap (leBytes 8))

/-- The 32 bytes of a history record. -/
def State.historyBytes (s : State) (i : Nat) : List Byte :=
  leBytes 8 (s.getN F.FLT_HIST_W0_RECORD i) ++ leBytes 8 (s.getN F.FLT_HIST_W1_RECORD i) ++
  leBytes 8 (s.getN F.FLT_HIST_W2_RECORD i) ++ leBytes 8 (s.getN F.FLT_HIST_W3_RECORD i)

/-- GET_HISTORY. -/
def State.vendorHistory (s : State) (m : VendorMsg) : State :=
  let first := msgArg m 0 1
  let count := msgArg m 1 1
  s.vendorCheck m 2 (decide (first < 64 ∧ 1 ≤ count ∧ count ≤ 16)) s.pwr.hold fun s =>
    s.respond m Vc.ok ((List.range count).flatMap (fun i => s.historyBytes ((first + i) % 64)))

/-- CLEAR_FAULTS: a W1C from the management plane (R27, R488). -/
def State.vendorClear (s : State) (m : VendorMsg) : State :=
  s.vendorCheck m 40 (decide (msgArg m 32 1 < 2) && msgArg m 33 7 == 0) s.pwr.hold fun s =>
    let s := (List.range 4).foldl (fun s k => s.clearSticky k (msgArg m (8 * k) 8)) s
    let s := if msgArg m 32 1 = 1 then s.set F.FLT_FIRST3_VALID 0 else s
    s.respond m Vc.ok []

/-- GET_SENSORS. -/
def State.vendorSensors (s : State) (m : VendorMsg) : State :=
  let first := msgArg m 0 1
  let count := msgArg m 1 1
  s.vendorCheck m 2 (decide (first < 64 ∧ 1 ≤ count ∧ count ≤ 64 ∧ first + count ≤ 64)) true fun s =>
    s.respond m Vc.ok ((List.range count).flatMap (fun i =>
      leBytes 2 (s.getN F.SNS_VALUE (first + i)) ++ leBytes 1 (s.getN F.SNS_STATUS (first + i)) ++ [0#8]))

/-! ### Telemetry (R492 to R495) -/

/-- The log of the ring's records; values outside 10 to 20 are taken as the nearest bound. -/
def State.telLog (s : State) : Nat := max 10 (min 20 (s.get F.TEL_CTL_SIZE_LOG))

/-- The device address of the record numbered `seq` (R494). -/
def State.telAddr (s : State) (seq : Nat) : Nat :=
  s.get F.TEL_RING_BASE_BASE * 4096 + 128 * (seq % 2 ^ s.telLog)

/-- The 128 bytes of a ring record. -/
def State.telRecord (s : State) (seq : Nat) : List Byte :=
  bytesOfLine (s.dramRead (s.telAddr seq) false).1 ++ bytesOfLine (s.dramRead (s.telAddr seq + 64) false).1

/-- GET_TELEMETRY: needs MAIN and RDY_STATUS.DRAM. -/
def State.vendorTelemetry (s : State) (m : VendorMsg) : State :=
  let seq := msgArg m 0 4
  let count := msgArg m 4 1
  s.vendorCheck m 8 (decide (1 ≤ count ∧ count ≤ 7) && msgArg m 5 3 == 0)
    (s.pwr.main && s.flag F.RDY_STATUS_DRAM) fun s =>
    s.respond m Vc.ok ((List.range count).flatMap (fun i => s.telRecord ((seq + i) % 2 ^ 32)))

/-- The image of a telemetry entry (R495). -/
def telImage (instant period sets : Nat) (valid : Bool) : CalImage :=
  ⟨BitVec.ofNat 64 instant, BitVec.ofNat 64 (period * 2 ^ 24 + 8 * 2 ^ 16 + natOfBool valid), BitVec.ofNat 64 (sets * 2 ^ 32), 0⟩

/-- Keeps the entry that SET_TELEMETRY last committed in AUX (R495). -/
def State.keepEntry (s : State) (i : Nat) (c : CalImage) : State :=
  let kept := match imageEntry c none 0 with
    | some e => s.mgt.committed.set i e
    | none => s.mgt.committed.erase i
  { s with mgt := { s.mgt with committed := kept } }

/-- SET_TELEMETRY (R495): commits or clears an entry of 992 to 1,023 with target 0x08. -/
def State.vendorSetTelemetry (s : State) (m : VendorMsg) : State :=
  let i := msgArg m 0 2
  s.vendorCheck m 24 (decide (992 ≤ i ∧ i ≤ 1023 ∧ msgArg m 3 1 < 2) && msgArg m 4 4 == 0) s.pwr.main fun s =>
    let c := telImage (msgArg m 8 8) (msgArg m 16 8) (msgArg m 2 1) (msgArg m 3 1 == 1)
    let s := s.commitImage (.management c) i c
    let r := s.get F.CAL_CMD_RESULT
    let s := if r = 0 then s.keepEntry i c else s
    s.respond m Vc.ok [BitVec.ofNat 8 r, 0#8, 0#8, 0#8]

/-! ### Fall-back actions (R496, R497) -/

/-- FORCE_DUMP. -/
def State.vendorDump (s : State) (m : VendorMsg) : State :=
  s.vendorCheck m 0 true s.pwr.hold fun s =>
    let r := s.requestDump 2
    r.2.respond m (if r.1 then Vc.ok else Vc.refused) (leBytes 8 r.2.grnWord)

/-- FORCE_RESET. -/
def State.vendorReset (s : State) (m : VendorMsg) : State :=
  s.vendorCheck m 0 true s.pwr.hold fun s =>
    if s.latched then s.respond m Vc.refused (leBytes 4 s.persistWord)
    else
      let cc := if s.grnState = Grn.dumping then Vc.deferred else Vc.ok
      (s.respond m cc (leBytes 4 (s.get F.RST_CAUSE_COUNT))).requestChipReset
        { req := 2, source := 0, device := false, loadCommitted := true }

/-- A vendor message is handled: its command's effect, or INVALID_COMMAND (R487). -/
def State.handleVendor (s : State) (m : VendorMsg) : State :=
  match m.command.toNat with
  | 1 => s.vendorIdentity m
  | 2 => s.vendorStatus m
  | 3 => s.vendorFaults m
  | 4 => s.vendorHistory m
  | 5 => s.vendorClear m
  | 6 => s.vendorSensors m
  | 7 => s.vendorTelemetry m
  | 8 => s.vendorSetTelemetry m
  | 9 => s.vendorDump m
  | 10 => s.vendorReset m
  | _ => s.respond m Vc.invalidCommand []

/-- A vendor message arrives (R484, R485): it is addressed to the null endpoint or to the assigned one; while the core
is in its block reset up to four wait, and a further one is not acknowledged. -/
def State.receive (s : State) (m : VendorMsg) (mine : Bool) (h : State → VendorMsg → State) : State :=
  if !s.pwr.aux || !mine || !(m.dest = 0#8 || m.dest.toNat = s.get F.MGT_STATUS_EID) then s
  else if s.hub.mgmtReset then
    if s.mgt.queue.length < 4 then { s with mgt := { s.mgt with queue := s.mgt.queue ++ [m] } } else s.emit .smbusNack
  else h s m

/-- GET_IDENTITY (R488). -/
def execGetIdentity (msg : VendorMsg) (s : State) : Host.Outcome State Fault Refusal :=
  done s (s.receive msg (msg.command == 1#8) State.vendorIdentity)

/-- GET_STATUS (R488). -/
def execGetStatus (msg : VendorMsg) (s : State) : Host.Outcome State Fault Refusal :=
  done s (s.receive msg (msg.command == 2#8) State.vendorStatus)

/-- GET_FAULTS (R488). -/
def execGetFaults (msg : VendorMsg) (s : State) : Host.Outcome State Fault Refusal :=
  done s (s.receive msg (msg.command == 3#8) State.vendorFaults)

/-- GET_HISTORY (R488). -/
def execGetHistory (msg : VendorMsg) (s : State) : Host.Outcome State Fault Refusal :=
  done s (s.receive msg (msg.command == 4#8) State.vendorHistory)

/-- CLEAR_FAULTS (R488). -/
def execClearFaults (msg : VendorMsg) (s : State) : Host.Outcome State Fault Refusal :=
  done s (s.receive msg (msg.command == 5#8) State.vendorClear)

/-- GET_SENSORS (R488). -/
def execGetSensors (msg : VendorMsg) (s : State) : Host.Outcome State Fault Refusal :=
  done s (s.receive msg (msg.command == 6#8) State.vendorSensors)

/-- GET_TELEMETRY (R488). -/
def execGetTelemetry (msg : VendorMsg) (s : State) : Host.Outcome State Fault Refusal :=
  done s (s.receive msg (msg.command == 7#8) State.vendorTelemetry)

/-- SET_TELEMETRY (R495). -/
def execSetTelemetry (msg : VendorMsg) (s : State) : Host.Outcome State Fault Refusal :=
  done s (s.receive msg (msg.command == 8#8) State.vendorSetTelemetry)

/-- FORCE_DUMP (R496). -/
def execForceDump (msg : VendorMsg) (s : State) : Host.Outcome State Fault Refusal :=
  done s (s.receive msg (msg.command == 9#8) State.vendorDump)

/-- FORCE_RESET (R497). -/
def execForceReset (msg : VendorMsg) (s : State) : Host.Outcome State Fault Refusal :=
  done s (s.receive msg (msg.command == 10#8) State.vendorReset)

/-- UNDEFINED_VENDOR_COMMAND (R487). -/
def execUndefinedVendorCommand (msg : VendorMsg) (s : State) : Host.Outcome State Fault Refusal :=
  done s (s.receive msg (msg.command == 0#8 || decide (10 < msg.command.toNat)) (fun s m => s.respond m Vc.invalidCommand []))

/-- MANAGEMENT_CORE_RESTART (R448): the core runs again and handles the messages that wait, in order (R485). -/
def execManagementCoreRestart (s : State) : Host.Outcome State Fault Refusal :=
  let waiting := s.mgt.queue
  let t : State := { s with hub := { s.hub with mgmtReset := false }, mgt := { s.mgt with queue := [] } }
  done s (waiting.foldl State.handleVendor t)

/-- ALERT_RESPONSE_ADDRESS_READ (R489): answered only while ALERT_N is asserted; a read that the S96 wins clears every
alert. -/
def execAlertResponseAddressRead (won : Bool) (s : State) : Host.Outcome State Fault Refusal :=
  if !s.answering || !s.alertN then done s s
  else
    let t := s.emit (.alertResponse (s.get F.MGT_STATUS_ADDR))
    done s (if won then t.clearAlerts else t)

/-- SMBUS_TIMEOUT (R525): the transaction in progress is aborted. -/
def execSmbusTimeout (s : State) : Host.Outcome State Fault Refusal :=
  if s.answering then done s (s.emit .smbusAbort) else done s s

/-! ### Sensors (R490, R491) -/

/-- The supply domains. -/
inductive Domain where
  | aux
  | hold
  | main
  deriving DecidableEq, Repr

/-- The domain of a sensor's source, none for a reserved sensor (R490, R512). -/
def sensorDomain (n : Nat) : Option Domain :=
  if n < 4 then some .main
  else if n = 4 then some .hold
  else if n < 8 then none
  else if n < 16 then some .hold
  else if n < 32 then some .main
  else if n < 36 then some .aux
  else if n = 36 then some .hold
  else if n = 37 then some .aux
  else if n < 40 then none
  else if n < 55 then
    if n = 54 then some .aux
    else if [46, 48, 51, 52, 53].contains n then some .hold else some .main
  else none

/-- Whether a domain is powered. -/
def State.domainUp (s : State) : Domain → Bool
  | .aux => s.pwr.aux
  | .hold => s.pwr.hold
  | .main => s.pwr.main

/-- T_HI and T_TRIP of the orderable code, in 0.25 °C (R491, R527, R529). -/
def tHi : Nat := if Config.extendedCode then 400 else 380
def tTrip : Nat := if Config.extendedCode then 460 else 440

/-- A junction reading at or above a limit; a reading of status 2 is not taken into account (R491). -/
def State.junctionAtOrAbove (s : State) (n lim : Nat) : Bool :=
  s.getN F.SNS_STATUS n != 2 && decide ((lim : Int) ≤ toSigned 16 (s.getN F.SNS_VALUE n))

/-- Source 4 and the trip's 100 µs follow the junction readings (R491, R527). -/
def State.judgeJunctions (s : State) : State :=
  let any := fun (lim : Nat) => (List.range 5).any (fun n => s.junctionAtOrAbove n lim)
  let hot := (List.range 5).foldl (fun (m : Store Nat) n =>
    if s.junctionAtOrAbove n tTrip then (if m.has n then m else m.set n s.now) else m.erase n) s.mgt.hotSince
  let s : State := { s with mgt := { s.mgt with hotSince := hot } }
  if any tHi then (if s.live 4 then s else (s.raise 4 0 0).set F.MGT_ALERT_TEMP 1)
  else if any (tHi - 20) then s
  else s.clearLive 4

/-- What a refresh of a sensor reads: the DIMM sensors from DMC[n].TEMP, E_USABLE from BANK_ENERGY, every other from the
world (R490). -/
def State.sensorValue (s : State) (n : Nat) (value : Option (BitVec 16)) : Option Nat :=
  if 8 ≤ n ∧ n < 32 then
    let v := s.getN (if n % 2 = 0 then F.DMC_TEMP_DIMM0 else F.DMC_TEMP_DIMM1) ((n - 8) / 2)
    if v = 0x8000 then none else some v
  else if n = 36 then some (min 32767 (s.get F.BANK_ENERGY_E_USABLE_J))
  else value.map (·.toNat)

/-- SENSOR_REFRESH (R490). -/
def execSensorRefresh (n : BitVec 6) (value : Option (BitVec 16)) (s : State) : Host.Outcome State Fault Refusal :=
  let k := n.toNat
  if !s.answering then done s s
  else
    match sensorDomain k with
    | none => done s ((s.setN F.SNS_STATUS k 2).setN F.SNS_VALUE k 0x8000)
    | some d =>
      if !s.domainUp d then
        if s.getN F.SNS_STATUS k = 2 then done s s else done s (s.setN F.SNS_STATUS k 1)
      else
        match s.sensorValue k value with
        | some v => done s ((s.setN F.SNS_VALUE k v).setN F.SNS_STATUS k 0).judgeJunctions
        | none => done s ((s.setN F.SNS_VALUE k 0x8000).setN F.SNS_STATUS k 2).judgeJunctions

/-! ### Samples and the ring (R492 to R495) -/

def C.telSample : Counter := ⟨F.TEL_SAMPLE_CNT_COUNT, F.TEL_SAMPLE_CNT_SAT⟩
def C.telSkip : Counter := ⟨F.TEL_SKIP_CNT_COUNT, F.TEL_SKIP_CNT_SAT⟩

/-- The sensors of a set. -/
def telSensors (set_ : Nat) : List Nat :=
  match set_ with
  | 0 => List.range 5 ++ (List.range 24).map (8 + ·)
  | 1 => (List.range 6).map (32 + ·) ++ (List.range 24).map (40 + ·)
  | _ => []

/-- The registers of a set: a field of each and its bytes (R493). -/
def telRegisters (set_ : Nat) : List (Field × Nat) :=
  match set_ with
  | 2 => [(F.GRN_STATE_STATE, 8), (F.GOV_STATUS_HIGH, 8), (F.BANK_STATUS_V_BANK, 8), (F.VLT_CHAIN_GEN, 8),
          (F.RST_STATUS_PENDING, 8), (F.GRN_THROTTLE_CNT_COUNT, 8), (F.BANK_ENERGY_E_USABLE_J, 4)]
  | 3 => [(F.SCH_STATUS_RUNNING, 8), (F.POOL_STATUS_BORROW_FREE, 8), (F.SCH_DISPATCH_CNT_COUNT, 8),
          (F.SCH_PREEMPT_CNT_COUNT, 8), (F.SCH_QUOTA_WAIT_CNT_COUNT, 8), (F.HL_THROTTLE_CNT_COUNT, 8),
          (F.HL_STATUS_LINK_UP, 4), (F.RDY_STATUS_MGMT, 4), (F.PWR_GATE_EN, 4)]
  | _ => []

/-- The 128 bytes of a record (R493). -/
def State.telBytes (s : State) (f : Firing) (set_ : Nat) : List Byte :=
  let ss := telSensors set_
  let partly := ss.any (fun n => s.getN F.SNS_STATUS n != 0)
  let payload := ss.flatMap (fun n => leBytes 2 (s.getN F.SNS_VALUE n)) ++
    (telRegisters set_).flatMap (fun p => leBytes p.2 (s.regWord p.1.addr))
  leBytes 8 f.at_ ++ leBytes 8 s.devNs ++ leBytes 4 s.mgt.telSeq ++
  [BitVec.ofNat 8 set_, BitVec.ofNat 8 (f.index - 992), BitVec.ofNat 8 (natOfBool f.late + 2 * natOfBool partly), 0#8] ++
  payload ++ List.replicate (104 - payload.length) 0#8

/-- Writes one record to the ring in the BACKGROUND class (R494). -/
def State.writeTel (s : State) (f : Firing) (set_ : Nat) : State :=
  let addr := s.telAddr s.mgt.telSeq
  let b := s.telBytes f set_
  let line := fun (k : Nat) => BitVec.ofNat 512 (ofLeBytes (sliceBytes b (64 * k) 64))
  let s := (s.dramWrite addr (line 0) false .background 0 false).dramWrite (addr + 64) (line 1) false .background 0 false
  ({ s with mgt := { s.mgt with telSeq := (s.mgt.telSeq + 1) % 2 ^ 32 } } : State).bump C.telSample

/-- TELEMETRY_SAMPLE (R492). -/
def execTelemetrySample (s : State) : Host.Outcome State Fault Refusal :=
  match s.takeSlot 8 with
  | some (f, t) =>
    let sets := (List.range 4).filter (bitOf f.arg)
    if t.flag F.TEL_CTL_EN && t.flag F.RDY_STATUS_DRAM then done s (sets.foldl (fun t k => t.writeTel f k) t)
    else done s (t.bumpTimes C.telSkip sets.length)
  | none => done s s

/-- TEL_IDX_FETCH (R494): a write of TEL_IDX fetches the record into TEL_REC. -/
def execTelIdxFetch (v : Word) (s : State) : Host.Outcome State Fault Refusal :=
  if !s.mainUp then done s s
  else
    let t := s.set F.TEL_IDX_SEQ v.toNat
    let b := t.telRecord v.toNat
    done s ((List.range 16).foldl (fun t i => t.setN F.TEL_REC_DATA i (leField b (8 * i) 8)) t)

/-- TELEMETRY_ENABLE (R493): the firmware's write of TEL_CTL; EN going from 0 to 1 restarts SEQ. -/
def execTelemetryEnable (v : Word) (s : State) : Host.Outcome State Fault Refusal :=
  if !s.mainUp then done s s
  else
    let en := bitsOf v.toNat 5 5
    let t := (s.set F.TEL_CTL_EN en).set F.TEL_CTL_SIZE_LOG (bitsOf v.toNat 4 0)
    if en = 1 ∧ s.get F.TEL_CTL_EN = 0 then done s { t with mgt := { t.mgt with telSeq := 0 } } else done s t

/-- A committed entry brought to the present (R495): a periodic one to its least instant later than field time, its
MISSED not counted; a one-shot already passed is dropped. -/
def CalEntry.recommit (e : CalEntry) (us : Nat) : Option CalEntry :=
  if us < e.instant then some e
  else if e.period = 0 then none
  else some { e with instant := e.instant + ((us - e.instant) / e.period + 1) * e.period }

/-- TELEMETRY_RECOMMIT (R495): once RDY_STATUS.CAL is set, the management core commits its entries again. -/
def execTelemetryRecommit (s : State) : Host.Outcome State Fault Refusal :=
  if !s.answering || !s.mainUp || !s.flag F.RDY_STATUS_CAL then done s s
  else
    let us := s.ft.count / 1000
    done s (s.mgt.committed.foldl (fun s p =>
      match p.2.recommit us with
      | some e =>
        let c := telImage e.instant e.period e.arg true
        s.commitImage (.management c) p.1 c
      | none => s) s)

end Sys2Proof.Machine
end

