-- ==== Sys2Proof/Machine/Bringup.lean ====
section
/-!
DEFINITION. Bring-up (R301 to R305, R323, R332, R370, R412, R421, R430, R459 to R464): the DIMM channels, the interleave
sets, the HOLD blocks, the chain record, the Clatos firmware, the device page table and the engine.
-/

namespace Sys2Proof.Machine

/-! ### RST_CAUSE -/

/-- RST_CAUSE names a reset; COUNT counts it (R472). -/
def State.cause (s : State) (kind req source : Nat) : State :=
  s.setAll [(F.RST_CAUSE_KIND, kind), (F.RST_CAUSE_REQ, req), (F.RST_CAUSE_SOURCE, source),
    (F.RST_CAUSE_COUNT, s.get F.RST_CAUSE_COUNT + 1)]

/-! ### Channels (R301, R302, R323, R332, R336) -/

/-- The DIMMs of a channel are within the limits and alike (R301, R302). -/
def populationOk : List DimmReport → Bool
  | [] => false
  | d :: ds =>
    d.supported && (d.ranks == 1#3 || d.ranks == 2#3) && d.speed != 0#2 && decide (ds.length ≤ 1) && ds.all (· == d)

/-- The option area's DRAM speed cap; 3, the highest, where there is none (R302, R411). -/
def State.speedCap (s : State) : Nat :=
  let v := if s.optionSet 0x58 then s.optionField 0x58 1 else 0
  if v = 0 then 3 else min 3 v

/-- The physical ranks that serve, in the order of their logical numbers (R306, R332, R336): the spare is left out, and
takes the place of the first retired rank. -/
def servingRanks (phys : Nat) (spare : Bool) (retired : Nat → Bool) : List Nat :=
  let base := List.range (if spare then phys - 1 else phys)
  let kept := base.filter (fun p => !retired p)
  match base.find? retired with
  | some r =>
    if spare && !retired (phys - 1) then (base.map (fun p => if p = r then phys - 1 else p)).filter (fun p => !retired p)
    else kept
  | none => kept

/-- The rank byte of a physical rank at bring-up. -/
def rankAtBringup (phys : Nat) (serving : List Nat) (retired : Nat → Bool) (p : Nat) : Nat :=
  if phys ≤ p then 0
  else if retired p then mkRank Rank.retired 0
  else if serving.contains p then mkRank Rank.active (serving.idxOf p)
  else mkRank Rank.spare 0

/-- A channel is brought up (R323): population, speed, ranks; one that fails all three attempts is FAILED (R327). -/
def State.setUpChannel (s : State) (r : ChannelReport) : State :=
  let ch := r.ch.val
  match r.dimms with
  | [] => s
  | d :: ds =>
    if !populationOk (d :: ds) then s.raise 70 ch 0
    else
      let dpc := ds.length + 1
      let phys := dpc * d.ranks.toNat
      let retired := fun (p : Nat) => s.dram.retired.contains (4 * ch + p)
      let serving := servingRanks phys (s.getN F.DMC_CHCFG_SPARE_EN ch == 1 && decide (2 ≤ phys)) retired
      let speed := min (min d.speed.toNat (if dpc = 1 then 3 else 2)) s.speedCap
      let s := [(F.DMC_CHCFG_SPEED, if r.failures = 3 then 0 else speed), (F.DMC_CHCFG_DPC, dpc), (F.DMC_CHCFG_RPD, d.ranks.toNat),
        (F.DMC_CHCFG_DENSITY, natOfBool d.dense), (F.DMC_CHCFG_ACTIVE_RANKS, serving.length),
        (F.DMC_CHCFG_PHYS_RANKS, phys), (F.DMC_CHCFG_STATE, Ch.active)].foldl (fun s p => s.setN p.1 ch p.2) s
      let s := (List.range 4).foldl (fun s p => s.setRankByte ch p (rankAtBringup phys serving retired p)) s
      if r.failures = 3 then s.failChannel ch else s

/-- The channels of a group are brought up in ascending number. A migration that a MAIN drop ended starts again (R337). -/
def State.setUpChannels (s : State) (channels : List ChannelReport) (first count : Nat) : State :=
  let s := ((List.range count).filterMap (fun i => channels.find? (fun r => r.ch.val == first + i))).foldl
    State.setUpChannel s
  let mine := fun (k : Nat) => decide (first ≤ k / 4) && decide (k / 4 < first + count)
  let due := s.dram.restart.filter mine
  let s : State := { s with dram := { s.dram with restart := s.dram.restart.filter (fun k => !mine k) } }
  due.foldl (fun s k => s.markRetire (k / 4) (k % 4)) s

/-! ### Interleave sets (R304, R305) -/

/-- Programs a set: base and capacity per way in GiB, start in each channel, channels. -/
def State.programSet (s : State) (k base perWay chBase : Nat) (chans : List Nat) (grain : Nat) (vol : Bool) : State :=
  let list := (List.range chans.length).foldl (fun a i => a + chans.getD i 0 * 16 ^ i) 0
  [(F.IVS_BASE_GIB, base), (F.IVS_SIZE_GIB, perWay * chans.length), (F.IVS_CFG_CHLIST, list), (F.IVS_CFG_CH_BASE, chBase),
   (F.IVS_CFG_GRAIN_LOG, grain), (F.IVS_CFG_WAYS, chans.length), (F.IVS_CFG_VOL, natOfBool vol), (F.IVS_CFG_FAILED, 0),
   (F.IVS_CFG_STATE, 1), (F.IVS_CFG_VALID, 1)].foldl (fun s p => s.setN p.1 k p.2) s

/-- Active capacity of a channel that serves, in GiB. -/
def State.servingGib (s : State) (ch : Nat) : Nat :=
  if s.getN F.DMC_CHCFG_STATE ch = Ch.active then s.activeCapacity ch / 2 ^ 30 else 0

/-- The Granary logic builds IVS[0] over the serving channels of CH0 to CH3 (R304). -/
def State.buildGranarySet (s : State) : State :=
  let s := s.setN F.IVS_CFG_GRANARY 0 1
  match [0, 1, 2, 3].filter (fun ch => decide (0 < s.servingGib ch)) with
  | [] => s
  | c :: cs =>
    let per := cs.foldl (fun m ch => min m (s.servingGib ch)) (s.servingGib c)
    s.programSet 0 (grnBase / 2 ^ 30) per 0 (c :: cs) 12 false

/-- A set as the firmware lays it out: capacity per way, start in each channel, channels, whether decoder 1 maps it. -/
structure SetPlan where
  per : Nat
  chBase : Nat
  chans : List Nat
  vol : Bool

/-- The firmware's sets: each spans every channel of CH4 to CH11 with capacity left (R304). -/
def State.planSets (s : State) : Nat → Nat → List SetPlan
  | 0, _ => []
  | n + 1, used =>
    match [4, 5, 6, 7, 8, 9, 10, 11].filter (fun ch => decide (used < s.servingGib ch)) with
    | [] => []
    | c :: cs =>
      let per := cs.foldl (fun m ch => min m (s.servingGib ch)) (s.servingGib c) - used
      { per := per, chBase := used, chans := c :: cs, vol := false } :: s.planSets n (used + per)

/-- With HL_CTL.VOL_EN, the upper half of the first set is the set that decoder 1 maps (R70). -/
def State.setPlans (s : State) : List SetPlan :=
  match s.planSets 6 0 with
  | p :: ps =>
    if s.flag F.HL_CTL_VOL_EN then
      { p with per := p.per / 2 } :: ps ++ [{ p with per := p.per / 2, chBase := p.chBase + p.per / 2, vol := true }]
    else p :: ps
  | [] => []

/-- The firmware programs its sets from DPA 0 on (R304); those that survived a reset stand. -/
def State.buildSets (s : State) : State :=
  if (List.range 7).any (fun i => s.getN F.IVS_CFG_VALID (i + 1) == 1) then s
  else
    ((s.setPlans.foldl (fun (a : Nat × Nat × State) p =>
      (a.1 + 1, a.2.1 + p.per * p.chans.length, a.2.2.programSet a.1 a.2.1 p.per p.chBase p.chans 12 p.vol))
      (1, 0, s)).2.2)

/-! ### The device page table and the firmware's areas (R277, R278) -/

/-- The GiB pages of the engine region, in order of their device virtual addresses. -/
def State.enginePages (s : State) : List Nat :=
  let rsv := s.firmwareArea / 2 ^ 30
  (s.engineSets.flatMap (fun i => (List.range (i.size / 2 ^ 30)).map (i.base / 2 ^ 30 + ·))).filter
    (fun p => p != rsv && p != rsv + 1)

/-- A 4 KiB table of the walk. -/
def pageTable (entries : List Nat) : List Byte :=
  entries.flatMap (leBytes 8) ++ List.replicate (4096 - 8 * entries.length) 0#8

/-- The firmware builds the device page table, of 1 GiB pages, and places the spill area and the telemetry ring (R277);
those that survived a reset stand. -/
def State.buildTable (s : State) : State :=
  if s.get F.TLU_DPT_ROOT_ROOT != 0 || s.engineSets.isEmpty then s
  else
    let a := s.firmwareArea
    let pages := s.enginePages
    let n := ceilDiv pages.length 512
    let s := s.dmaWrite a (pageTable ((List.range n).map (fun i => a + 4096 * (i + 1) + 3)))
    let s := (List.range n).foldl (fun s i =>
      s.dmaWrite (a + 4096 * (i + 1)) (pageTable (((pages.drop (512 * i)).take 512).map (fun p => p * 2 ^ 30 + 7)))) s
    s.setAll [(F.TLU_DPT_ROOT_ROOT, a / 4096), (F.TLU_ENGINE_SIZE_MIB, 1024 * pages.length),
      (F.SCH_SPILL_BASE_BASE, (a + 2 ^ 30) / 2 ^ 21), (F.TEL_RING_BASE_BASE, (a + 2 ^ 29) / 4096)]

/-- Step 5 of R461: the sets, the page table and the spill area are built, and DRAM sets where there is device memory. -/
def State.bringUpDevice (s : State) : State :=
  let s := s.buildSets.buildTable
  s.setFlag F.RDY_STATUS_DRAM (!s.engineSets.isEmpty)

/-- Step 6 of R461: the pool, the node table and the task slots are initialised. A thermal trip in force keeps every group
gated (R527). -/
def State.startEngine (s : State) : State :=
  let s : State := { s with eng := { s.eng with up := true, nodes := deviceNodes s.deviceShape } }
  let s := if s.pwr.thermtrip then s.set F.PWR_GATE_GATED 0xFFF else s
  s.setAll [(F.RDY_STATUS_ENGINE, 1), (F.RDY_STATUS_PAIRS, 1)]

/-! ### The boot sequence (R430) -/

/-- Extends a measurement register with the SHA-512 of an object that the manual does not give: a free value. -/
def State.measureUnknown (s : State) (k : Nat) : State :=
  let (v, s) := s.fresh
  s.extendMr k (leBytes 64 v)

/-- MR0 to MR3 are extended once and BOOT_LOCK sets (R430). -/
def State.measureBoot (s : State) : State :=
  if s.get F.MR_LOCK_BOOT_LOCK ≠ 0 then s
  else
    let blank := List.replicate 4096 0#8
    let record := if s.flash.option.isEmpty then blank else s.flash.option
    let s := ((s.extendMr 0 (ShaAlg.hash .sha512 record)).measureUnknown 1).measureUnknown 2
    let s := s.extendMr 3 (ShaAlg.hash .sha512 ((s.grn.bootRecord.map (·.bytes)).getD blank))
    s.set F.MR_LOCK_BOOT_LOCK 15

/-- The Clatos firmware runs a release of copy `c` (R462): the newest committed one, or after a device reset without the
load bit the one that ran. -/
def State.runRelease (s : State) (c : FirmwareCopy) : State :=
  if s.pwr.loadCommitted || s.mbx.running == 0 then { s with mbx := { s.mbx with running := c.release, committed := 0 } }
  else s

/-- A verified release starts: steps 4 to 6 of R461. IDENTIFY is captured for the management plane (R488). -/
def State.startFirmware (s : State) (c : FirmwareCopy) : State :=
  let s := ((s.measureBoot.runRelease c).setAll [(F.RDY_STATUS_DIGEST, 1), (F.RDY_STATUS_FW, 1)]).bringUpDevice
  let s := if s.flag F.RDY_STATUS_DRAM then s.startEngine else s.set F.RDY_STATUS_PAIRS 1
  { s with mgt := { s.mgt with identity := s.identityBytes } }

/-- Neither copy verifies: the recovery loader runs (R463). -/
def State.startRecovery (s : State) : State :=
  let s : State := { s with mbx := { s.mbx with running := 0 } }
  (s.set F.RDY_STATUS_RECOVERY 1).bringUpDevice

/-- FIRMWARE_LOADED (R462, R463): copy 1, else copy 2, else the recovery loader, once the vault and the digest engine
serve. -/
def execFirmwareLoaded (found : FirmwareCheck) (s : State) : Host.Outcome State Fault Refusal :=
  if !s.mainUp || !s.flag F.RDY_STATUS_VAULT || !s.flag F.DGE_STATUS_READY || s.flag F.RDY_STATUS_FW ||
      s.flag F.RDY_STATUS_RECOVERY then done s s
  else
    match found with
    | .first => done s (s.startFirmware s.flash.firmware1)
    | .second => done s (s.startFirmware s.flash.firmware2)
    | .neither => done s s.startRecovery

/-! ### The HOLD blocks (R403, R408, R412, R421, R433, R461) -/

/-- A journal copy that fails raises its source; the other serves (R403). -/
def State.journalFound (s : State) (bad : Bool) : State :=
  if bad then (s.set F.FLV_STATUS_JRNL_DAMAGED 1).raise 135 0 0 else s

/-- Once the option area is loaded each flash channel runs at its speed with the low-band WAIT (R408). -/
def State.setFlashTiming (s : State) : State :=
  (List.range 16).foldl (fun s n => (s.setN F.FLC_TIMING_WAIT n (waitLow (min 5 (s.getN F.FLC_TIMING_MTS n)))).showSpares n) s

/-- The HOLD blocks come up (steps 1 to 3 of R461): known-answer tests and slot 0, the journal, the option area applied to
the groups that the reset returned to reset value. -/
def State.bringUpHold (s : State) (found : HoldReport) (reach : Group → Option Depth) : State :=
  let s := s.set F.RDY_STATUS_FAULT 1
  let s := s.knownAnswerTests found.testsPass
  let s := (s.journalFound found.journal0Bad).journalFound found.journal1Bad
  let s := ((s.loadOptions found.badOptions0 found.badOptions1).applyOptions reach).setFlashTiming
  let s := s.set F.FLV_STATUS_INCOMPLETE (min 15 (s.flash.blocks.filter (fun p => p.2 == .incomplete)).length)
  s.set F.RDY_STATUS_VAULT 1

/-- A migration on CH0 to CH3 that ended with the loss of HOLD is completed by record alone (R367). -/
def State.completeByRecord (s : State) : State :=
  let onRecord := (s.recordInForce.map recordRetired).getD 0
  match s.dram.retired.filter (fun k => !bitOf onRecord k) with
  | [] => s
  | ks => ks.foldl (fun s k => s.raise 67 (k / 4) 0) s.recordRetirement

/-- Addresses that SMBus 3.x reserves. -/
def smbusReserved (a : Nat) : Bool :=
  decide (a < 8) || decide (0x78 ≤ a) || [0x08, 0x0C, 0x28, 0x37, 0x61].contains a

/-- The SMBus address of the option area, at the first power-good of HOLD since AUX came up (R483, R506). -/
def State.applyAddress (s : State) : State :=
  let a := if s.optionSet 0x5D then s.optionField 0x5D 1 % 128 else 0
  if s.pwr.holdSeen then s else s.set F.MGT_STATUS_ADDR (if smbusReserved a then 0x31 else a)

/-! ### The chain record at power-up (R370) -/

/-- The class A fields of GRN_STATE, GRN_WINDOW, VLT_CHAIN and GOV_CFG before they are rebuilt (R370). -/
def State.clearRecordFields (s : State) : State :=
  s.setAll [(F.GRN_STATE_DELTAS, 0), (F.GRN_STATE_BASE_SLOT, 0), (F.GRN_STATE_REFUSED, 0), (F.GRN_STATE_HOLD_RETURN, 0),
    (F.GRN_STATE_REQ_SRC, 0), (F.GRN_STATE_CAUSE, 0), (F.GRN_STATE_LOSS, 0), (F.GRN_WINDOW_MIB, 0), (F.VLT_CHAIN_GEN, 0),
    (F.VLT_CHAIN_FREE_GIB, 0), (F.VLT_CHAIN_DELTA_GIB, 0), (F.GOV_CFG_CEILING_GIB, 256), (F.GOV_CFG_E_RESERVE_J, 550),
    (F.GOV_CFG_DERATE, 128), (F.GOV_CFG_WIN_HI_PCT, 50), (F.GOV_CFG_WIN_RATE, 80), (F.GOV_CFG_DELTA_LIMIT_GIB, 256)]

/-- The chain record in force is chosen (R370): OFF without a record, HELD with cause METADATA without a valid one, else
LOCATING, in which background activities wait for the restore to reach lazily-ready (R33). `bad0` and `bad1` are how many of the newest records of each copy do not verify. -/
def State.chooseRecord (s : State) (bad0 bad1 : Nat) : State :=
  let unset : GrnConfig := ⟨0, 0, 256, 550, 128, 50, 80, 256⟩
  let kept0 := s.grn.rec0.drop bad0
  let kept1 := s.grn.rec1.drop bad1
  let none_ := s.grn.rec0.isEmpty && s.grn.rec1.isEmpty
  let s := s.clearRecordFields
  if none_ then { s with grn := { s.grn with bootRecord := none, config := unset } }.setGrn Grn.off
  else if kept0.isEmpty && kept1.isEmpty then
    ({ s with grn := { s.grn with bootRecord := none, config := unset } }.set F.GRN_STATE_CAUSE 5).setGrn Grn.heldState
  else
    let s := s.sealUnits 4048 2
    let s : State := { s with grn := { s.grn with rec0 := kept0, rec1 := kept1 } }
    let r := s.chainRecord.getD s.blankRecord
    let s : State := { s with grn := { s.grn with bootRecord := s.chainRecord, config := r.config, dirtyShutdowns := r.dirtyShutdowns } }
    let s := ((s.clearLoss).showRecord r).setGrn Grn.locating
    { s with grn := { s.grn with quiet := true } }

/-! ### Power (R459 to R461, R481, R517) -/

/-- AUX_POWER_UP (R481): the management core starts. -/
def execAuxPowerUp (s : State) : Host.Outcome State Fault Refusal :=
  if s.pwr.aux then done s s
  else
    let t : State := { s with pwr := { s.pwr with aux := true } }
    done s (t.setAll [(F.RST_CAUSE_KIND, 0), (F.RST_CAUSE_REQ, 0), (F.RST_CAUSE_SOURCE, 0), (F.RST_CAUSE_COUNT, 0)])

/-- Every group that a HOLD power cycle reaches (R469). -/
def holdReach : Group → Option Depth := reachOf (some .nfw) (some .nfw) (some .nfw) (some .nfw) (some .nfw)

/-- HOLD_POWER_GOOD (R461, R370): the fault hub, the digest engine and the flash controller come up, CH0 to CH3 are trained,
and the chain record is chosen. MAIN_EN is high from HOLD_PWRGD on (R517). -/
def execHoldPowerGood (found : HoldReport) (channels : List ChannelReport) (s : State) :
    Host.Outcome State Fault Refusal :=
  if !s.pwr.aux || s.pwr.hold then done s s
  else
    let t : State := { s with pwr := { s.pwr with
      hold := true, holdBase := s.now, trefVio := found.tref, mainEn := true, armed := false, failed := false,
      failedInDump := false, holdSel := false, held := false, chipReset := false, request := none, deferred := none,
      mainDue := false } }
    let t := if s.pwr.holdSeen then t.cause 1 0 0 else t
    let t := (((t.bringUpHold found holdReach).applyMasks).completeByRecord).applyAddress
    let t : State := { t with pwr := { t.pwr with holdSeen := true } }
    let t := ((t.setUpChannels channels 0 4).buildGranarySet).chooseRecord found.badRecords0 found.badRecords1
    done s t

/-- Every junction is below T_HI - 5 °C (R527). -/
def State.cooled (s : State) : Bool := (List.range 5).all (fun n => !s.junctionAtOrAbove n (tHi - 20))

/-- MAIN_POWER_GOOD (R460, R461, R517): taken while HOLD is good and MAIN_EN is high. CH4 to CH11 are trained; the firmware
load follows. -/
def execMainPowerGood (channels : List ChannelReport) (s : State) : Host.Outcome State Fault Refusal :=
  if !s.pwr.hold || !s.pwr.mainEn || s.pwr.main then done s s
  else
    let t := if s.pwr.mainDue then s.cause 2 0 0 else s
    let t : State := { t with
      pwr := { t.pwr with
        main := true, mainDue := false, loadCommitted := true, thermtrip := t.pwr.thermtrip && !t.cooled },
      eng := { t.eng with mainAt := t.now } }
    done s (t.setUpChannels channels 4 8)

/-- PERST_N_DEASSERT (R464): the link may train. -/
def execPerstNDeassert (s : State) : Host.Outcome State Fault Refusal :=
  done s { s with pwr := { s.pwr with perst := false } }

end Sys2Proof.Machine
end

