-- ==== Sys2Proof/Machine/Granary.lean ====
section
/-!
DEFINITION. Commands of the Granary (R340 to R377): the energy bank and its measurement, the governor, the landing
buffer, the winnower and rebase, the dump, and the restore.
-/

namespace Sys2Proof.Machine

/-! ### The energy bank (R348, R349) -/

/-- V_bank in mV: BANK_SENSE times SENSE_DIV, averaged over the samples of the last 1 ms (R348). -/
def State.bankMv (s : State) : Nat := s.grn.samples.foldl (· + ·) 0 / max 1 s.grn.samples.length

/-- BANK_SENSE_SAMPLE (R348, R519): valid from -50 mV to 1,000 mV. A sample outside sets SENSE_BAD, raises source 98
and makes E_usable 0; the average restarts from the first sample back in range. -/
def execBankSenseSample (mv : Int) (s : State) : Host.Outcome State Fault Refusal :=
  if !s.groupUp .g then done s s
  else if mv < -50 ∨ 1000 < mv then
    let t := (s.set F.GOV_STATUS_SENSE_BAD 1).raiseLive 98 0 0
    done s ({ t with grn := { t.grn with samples := [] } }.set F.BANK_ENERGY_E_USABLE_J 0)
  else
    let t := (s.set F.GOV_STATUS_SENSE_BAD 0).clearLive 98
    let t := { t with grn := { t.grn with samples := (mv.toNat * t.get F.BANK_CFG_SENSE_DIV :: t.grn.samples).take 100 } }
    done s (t.set F.BANK_STATUS_V_BANK (t.bankMv / 10))

/-- The end of a measurement: BANK_TEST is released. -/
def State.endMeasure (s : State) : State :=
  { s with grn := { s.grn with measure := none }, pwr := { s.pwr with bankTest := false } }

/-- A measurement fails: MEAS_FAIL and source 100, C_MEAS unchanged (R349). -/
def State.failMeasure (s : State) : State := (s.endMeasure.set F.BANK_STATUS_MEAS_FAIL 1).raise 100 0 0

/-- CAPACITANCE_MEASUREMENT (R349): `v0` is the bank voltage in mV. -/
def execCapacitanceMeasurement (v0 : BitVec 16) (s : State) : Host.Outcome State Fault Refusal :=
  match s.takeSlot 6 with
  | some (_, t) =>
    if t.grnServes && !t.flag F.GOV_STATUS_SENSE_BAD && t.grn.measure.isNone then
      done s { t with grn := { t.grn with measure := some ⟨v0.toNat, t.now, none⟩ }, pwr := { t.pwr with bankTest := true } }
    else done s t
  | none => done s s

/-- The test current in mA. -/
def State.testMa (s : State) : Nat := 50 * s.get F.BANK_CFG_I_TEST

/-- MEASUREMENT_V1_SAMPLE (R349): V1 is sampled 10 ms after V0. -/
def execMeasurementV1Sample (v1 : BitVec 16) (s : State) : Host.Outcome State Fault Refusal :=
  match s.grn.measure with
  | some m =>
    if m.v1.isSome || decide (s.now < m.at_ + 10000000) then done s s
    else done s { s with grn := { s.grn with measure := some { m with v1 := some v1.toNat } } }
  | none => done s s

/-- ESR = (V0 - V1) / I_TEST in mΩ (R349). With no test current, or V1 above V0, the manual states no ESR: it is a free
value. -/
def State.esrMohm (s : State) (v0 v1 : Nat) : Nat × State :=
  if s.testMa = 0 ∨ v0 < v1 then s.fresh else ((v0 - v1) * 1000 / s.testMa, s)

/-- Writes a computed capacitance in units of 0.01 F with the ESR, or fails the measurement, which leaves both (R349). -/
def State.storeCapacitance (s : State) (v0 v1 c : Nat) : State :=
  let nom := s.get F.BANK_CFG_C_NOM
  if c * 4 < nom ∨ 4 * nom < c then s.failMeasure
  else
    let esr := s.esrMohm v0 v1
    let s := ((esr.2.endMeasure.set F.BANK_STATUS_C_MEAS c).set F.BANK_STATUS_ESR_MOHM esr.1).set F.BANK_STATUS_MEAS_VALID 1
    if c * 10 < nom * 8 then s.raiseLive 99 0 0 else s.clearLive 99

/-- MEASUREMENT_T2 (R349): V_bank has reached 0.98 of V1; C = I_TEST * (t2 - 10 ms) / (V1 - V_bank). With no voltage
between V1 and V_bank the manual states no C: it is a free value. -/
def execMeasurementT2 (s : State) : Host.Outcome State Fault Refusal :=
  match s.grn.measure with
  | some { v0 := v0, at_ := t0, v1 := some v1 } =>
    let v := s.bankMv
    if 98 * v1 < 100 * v ∨ t0 + 60000000000 < s.now then done s s
    else if v1 ≤ v then
      let (c, t) := s.fresh
      done s (t.storeCapacitance v0 v1 c)
    else done s (s.storeCapacitance v0 v1 (s.testMa * (s.now - t0 - 10000000) / ((v1 - v) * 10000000)))
  | _ => done s s

/-- MEASUREMENT_TIMEOUT (R349): step 3 is not reached within 60 s. -/
def execMeasurementTimeout (s : State) : Host.Outcome State Fault Refusal :=
  match s.grn.measure with
  | some m => if m.at_ + 60000000000 ≤ s.now then done s s.failMeasure else done s s
  | none => done s s

/-! ### The governor (R350, R351) -/

/-- E_usable in mJ (R348, R350): ETA_PCT outside 50 to 100 is taken as the nearest bound. -/
def State.usableMj (s : State) : Nat :=
  let v := s.bankMv
  let vmin := s.get F.BANK_CFG_V_MIN * 10
  let c := if s.flag F.BANK_STATUS_MEAS_VALID then s.get F.BANK_STATUS_C_MEAS else s.get F.BANK_CFG_C_NOM
  if vmin < v ∧ !s.flag F.GOV_STATUS_SENSE_BAD then
    c * (v * v - vmin * vmin) / 200000 * min 100 (max 50 (s.get F.BANK_CFG_ETA_PCT)) / 100
  else 0

/-- BUDGET of R350 for an E_usable. -/
def State.budgetOf (s : State) (e : Nat) : Nat :=
  let cfg := s.grn.config
  let b := if cfg.eReserve * 1000 < e then (e - cfg.eReserve * 1000) * 24000000 / 85 * cfg.derate / 256 else 0
  min b (min (cfg.ceiling * 2 ^ 30) (s.vaultFree - 2 ^ 30)) / 4096 * 4096

/-- GOVERNOR_RECOMPUTE (R350, R352). -/
def execGovernorRecompute (s : State) : Host.Outcome State Fault Refusal :=
  if !s.groupUp .g then done s s
  else
    let e := s.usableMj
    let t := (s.set F.BANK_ENERGY_E_USABLE_J (e / 1000)).chainFields
    done s ({ t with grn := { t.grn with budget := s.budgetOf e } }.levels)

/-- RESERVATION_GRANT (R351): the oldest waiting write is granted; one that waits at the link is then accepted and
completed. -/
def execReservationGrant (s : State) : Host.Outcome State Fault Refusal :=
  if !s.canReserve then done s s
  else
    match s.grn.waiters with
    | [] => done s s
    | .cxl :: rest =>
      let t := { s with grn := { s.grn with waiters := rest } }
      match t.link.waiting with
      | w :: more =>
        let t := { t with link := { t.link with waiting := more } }
        done s ((t.acceptLine w.line w.data w.poison).answerCxl w.answer)
      | [] => done s t
    | w :: rest =>
      done s { s with grn := { s.grn with
        waiters := rest, granted := s.grn.granted ++ [w], reserved := s.grn.reserved + 1 } }

/-! ### The landing buffer (R343, R438) -/

/-- Whether a line may drain: its page is restored (R363, R372). -/
def State.drains (s : State) (l : LandLine) : Bool := !s.grn.unrestored.mem (l.line / 64)

/-- LANDING_BUFFER_DRAIN (R343): the oldest line that may drain is written in the GUARD class with hint 01 (R311). A
failing copy is rewritten from the other; with both failed the line is lost and its place in DRAM poisoned (R36). -/
def execLandingBufferDrain (check : CopyCheck) (s : State) : Host.Outcome State Fault Refusal :=
  if !s.groupUp .g then done s s
  else
    match s.grn.landing.find? s.drains with
    | some l =>
      let inj := s.injected 106 0 0 0
      let t := inj.2
      let t := { t with grn := { t.grn with landing := t.grn.landing.erase l } }
      let dpa := grnBase + 64 * l.line
      let write := fun (t : State) => t.dramWrite dpa l.data l.poison .guard 1 true
      if inj.1 then done s (write t)
      else
        match check with
        | .both => done s (write t)
        | .oneBad => done s ((write t).raise 106 0 0)
        | .bothBad => done s ((t.poisonLine dpa).raise 109 0 0)
    | none => done s s

/-! ### The winnower (R353, R354) -/

/-- The first dirty page from `p` on that is restored and not in flight; each turn passes an interval of unrestored
pages or one page in flight. -/
def pickDirty (dirty unrestored : PageSet) (inflight : List (Nat × Bool)) : Nat → Nat → Option Nat
  | 0, _ => none
  | n + 1, p =>
    match dirty.firstFrom p with
    | none => none
    | some q =>
      match unrestored.find? (fun i => decide (i.1 ≤ q) && decide (q < i.2)) with
      | some i => pickDirty dirty unrestored inflight n i.2
      | none => if inflight.any (fun f => f.1 == q) then pickDirty dirty unrestored inflight n (q + 1) else some q

/-- The next page the winnower copies, from POS on, wrapping at the end of the window (R353). -/
def State.winnowNext (s : State) : Option Nat :=
  let pick := pickDirty s.grn.dirty s.grn.unrestored s.grn.inflight (s.grn.inflight.length + s.grn.unrestored.length + 1)
  match pick (s.get F.WIN_STATUS_POS) with
  | some p => some p
  | none => pick 0

/-- Whether pre-copy runs: at the high level, or in a low-level pass (R353). -/
def State.precopying (s : State) : Bool := s.flag F.GOV_STATUS_HIGH || s.grn.pass.isSome

/-- The low-level pass ends when its pages are copied, which seals the open segment (R353). -/
def State.passStep (s : State) : State :=
  match s.grn.pass with
  | some (n + 2) => { s with grn := { s.grn with pass := some (n + 1) } }
  | some _ => { s with grn := { s.grn with pass := none } }.sealOpen
  | none => s

/-- Copies a page into the open segment (R354), which is sealed once it holds 1,016 units (R353). -/
def State.winnowPage (s : State) (page : Nat) : State :=
  let u := fullUnit page (s.windowPage page)
  let s := s.queuePage .background page
  let s := { s with grn := { s.grn with inflight := s.grn.inflight ++ [(page, false)] } }
  let s := s.set F.WIN_STATUS_POS (if page + 1 < s.windowPages then page + 1 else 0)
  let (g, t0, s) := match s.grn.openSeg with
    | some (g, t0) => ({ g with units := g.units ++ [u] }, t0, s)
    | none =>
      let t := s.openPosition s.grn.nextSeq
      (s.newSegment .winnow [u] .erased, s.now, { t with grn := { t.grn with nextSeq := t.grn.nextSeq + 1 } })
  let s := { s with grn := { s.grn with openSeg := some (g, t0) } }
  (if segPages ≤ g.units.length then s.sealOpen else s).passStep

/-- Copies the next page of a rebase into the slot not in use (R355): each base segment is sealed, and its seal verified on
read-back (R359); GEN and FT are those at its sealing. -/
def State.rebasePage (s : State) (b : Rebase) : State :=
  let u := fullUnit b.nextPage (s.windowPage b.nextPage)
  let s := s.queuePage .background b.nextPage
  let g := { b.seg with units := b.seg.units ++ [u] }
  let last := decide (s.windowPages ≤ b.nextPage + 1)
  let i := g.seq
  let full := decide (segPages ≤ g.units.length) || last
  let s := if full then s.sealUnits 32720 2 else s
  let b := if full then
      { b with nextPage := b.nextPage + 1,
               done := b.done.set i { g with verdict := .verified, gen := (s.chainRecord.map (·.gen)).getD 0, ft := s.ftCopy },
               seg := { g with seq := i + 1, units := [] } }
    else { b with nextPage := b.nextPage + 1, seg := g }
  ({ s with grn := { s.grn with rebase := some b } }).set F.WIN_STATUS_REBASE_SEG b.seg.seq

/-- The stripe die that the winnower's next unit goes to: of its open segment, or of the next position (R383). -/
def State.winnowDie (s : State) : Nat :=
  ((s.grn.openSeg.map (fun g => g.1.seq)).getD s.grn.nextSeq) % s.ringPositions % 64

/-- WINNOWER_PAGE_COPY (R354, R355): pre-copy takes precedence over a rebase. A pass with nothing left to copy ends. A unit
waits while GUARD or RESTORE descriptors wait for its die (R385), and pre-copy keeps 64 positions of the ring erased (R357). -/
def execWinnowerPageCopy (s : State) : Host.Outcome State Fault Refusal :=
  let die := if s.precopying then s.winnowDie else ((s.grn.rebase.map (fun b => b.seg.seq)).getD 0) % 64
  if !s.grnServes || s.grn.closed || s.urgentWaits die then done s s
  else
    let room := decide (s.grn.inflight.length < 2048) && decide (s.ringUsed + 64 < s.ringSize)
    match (if s.precopying && room then s.winnowNext else none), s.grn.rebase with
    | some p, _ => done s (s.winnowPage p)
    | none, some b =>
      if b.nextPage < s.windowPages then done s (s.rebasePage b)
      else if s.grn.pass.isSome && room then done s ({ s with grn := { s.grn with pass := none } }.sealOpen)
      else done s s
    | none, none =>
      if s.grn.pass.isSome && room then done s ({ s with grn := { s.grn with pass := none } }.sealOpen) else done s s

/-- WINNOWER_LOW_PASS (R353): ARG MiB of dirty pages, every one for ARG 0; a no-operation at the high level; pending at
the winnower while a pass runs. -/
def execWinnowerLowPass (s : State) : Host.Outcome State Fault Refusal :=
  if s.grn.pass.isSome then done s s
  else
    match s.takeSlot 7 with
    | some (f, t) =>
      if t.flag F.GOV_STATUS_HIGH || !t.grnServes || t.grn.closed then done s t
      else
        let n := if f.arg = 0 then t.grn.dirty.count else f.arg * 256
        if n = 0 then done s t else done s { t with grn := { t.grn with pass := some n } }
    | none => done s s

/-- WINNOWER_SEAL_TIMER (R353): 100 ms since the segment's first unit. -/
def execWinnowerSealTimer (s : State) : Host.Outcome State Fault Refusal :=
  match s.grn.openSeg with
  | some (_, t0) => if t0 + 100000000 ≤ s.now then done s s.sealOpen else done s s
  | none => done s s

/-- One page of a segment read back with a valid seal: cleared unless a write reached it (R354). `flight` is what was in
flight at the read-back. -/
def State.clearCopied (flight : List (Nat × Bool)) (s : State) (page : Nat) : State :=
  let s := { s with grn := { s.grn with inflight := s.grn.inflight.filter (fun p => p.1 != page) } }
  if flight.any (fun p => p.1 == page && p.2) then s.bump C.winRedirty
  else ({ s with grn := { s.grn with dirty := s.grn.dirty.erase page } }).bump C.winCopy

/-- The check of slot 0 at its use (R425): a failing slot is rebuilt from the fuses (source 144); a fuse read that fails
twice raises source 147. The result tells whether the seal can be computed. -/
def State.checkSlot0 (s : State) (c : SlotCheck) : Bool × State :=
  let s := (s.injected 144 0 0 0).2
  match c with
  | .passes => (true, s)
  | .rebuilt => (true, s.raise 144 0 0)
  | .fusesFail => (false, s.raise 147 0 0)

/-- TRAILER_READ_BACK (R354): the oldest segment whose trailer was written, once no GUARD or RESTORE descriptor waits for its
die. A trailer that does not verify leaves its
pages dirty and the segment damaged (R359). -/
def execTrailerReadBack (ok : Bool) (slot : SlotCheck) (s : State) : Host.Outcome State Fault Refusal :=
  match s.grn.sealing with
  | [] => done s s
  | g :: rest =>
    if s.urgentWaits (g.seq % s.ringPositions % 64) then done s s else
    let flight := s.grn.inflight
    let c := s.checkSlot0 slot
    let s := c.2.sealUnits 32720 2
    let ok := ok && c.1
    let g := { g with verdict := if ok then SealState.verified else SealState.damaged, ft := s.ftCopy }
    let t := { s with grn := { s.grn with sealing := rest, deltas := s.grn.deltas ++ [g] } }
    let pages := g.units.map (·.page)
    let t := if ok then pages.foldl (State.clearCopied flight) t
      else { t with grn := { t.grn with inflight := t.grn.inflight.filter (fun p => !pages.contains p.1) } }
    done s (t.levels.chainFields.startRebase)

/-- REBASE_DONE (R355): the record names the new slot and sets CHAIN_FIRST to S; deltas below S are reclaimed. -/
def execRebaseDone (written : CopyResult) (s : State) : Host.Outcome State Fault Refusal :=
  match s.grn.rebase with
  | some b =>
    if b.nextPage < s.windowPages then done s s
    else
      let t := if b.slot = 1 then { s with grn := { s.grn with slotA := b.done, rebase := none } }
        else { s with grn := { s.grn with slotB := b.done, rebase := none } }
      let r := t.writeRecord 4 (fun r => { r with baseSlot := b.slot, chainFirst := b.seqS, dumps := 0 }) written
      if r.1 then
        let t := r.2
        done s ({ t with grn := { t.grn with deltas := t.grn.deltas.filter (fun g => decide (b.seqS ≤ g.seq)) } }.chainFields.startRebase)
      else done s r.2
  | none => done s s

/-! ### Power failure and dumps (R362 to R369) -/

/-- Whether what VIN and PWRFAIL_N did fires detection (R520): certain outside the bands, the part's own within. -/
def detects (vinMv vinNs pwrfailNs : Nat) : Bool :=
  let vin := if 10900 ≤ vinMv then false
    else if vinNs ≤ 4500 then false
    else if vinMv < 10700 ∧ 5000 ≤ vinNs then true
    else Config.dipFires vinMv vinNs
  let pulse := if 200 ≤ pwrfailNs then true else if pwrfailNs ≤ 50 then false else Config.pulseFires pwrfailNs
  vin || pulse

/-- The flash at power-fail detection (R387): descriptors of queues outside the GUARD class that have not started are
discarded, erases of theirs are ended by a die reset and leave their block INCOMPLETE (R400). -/
def State.flashPowerFail (s : State) : State :=
  let erase := fun (o : DieOp) => 8 ≤ o.queue && descOp o.desc == 3
  let ended := (s.flash.running ++ s.flash.held).filter (fun p => erase p.2)
  let s : State := { s with flash := { s.flash with fetched := s.flash.fetched.filter (fun p => p.1 < 8) } }
  ended.foldl (fun s p =>
    let keep := fun (o : Option DieOp) => o.filter (fun x => !erase x)
    (s.cutOp p.1 p.2).setDie p.1 (keep (s.flash.running.get? p.1)) (keep (s.flash.held.get? p.1))) s

/-- The retrainings in progress stop: their ranks serve with the last good settings (R33, R367). -/
def State.stopRetraining (s : State) : State :=
  let chans := s.dram.retraining.map (·.1)
  let s : State := { s with dram := { s.dram with retraining := [] } }
  chans.foldl (fun s ch => s.setN F.DMC_STATUS_RETRAINING ch 0) s

/-- Background activities stop, and do not resume before the restore reaches lazily-ready (R33). In OFF and HELD no restore
is to come, and they resume when power returns: DESIGN CHOICE, log entry 173. -/
def State.quieten (s : State) : State :=
  { s.stopRetraining with grn := { s.grn with quiet := !(s.grnState == Grn.off || s.grnState == Grn.heldState) } }

/-- What every detection does before the state word changes (R33, R362, R516, R349, R337): HOLD_SEL high, BANK_TEST
released, the flash's unstarted descriptors dropped, background activities stopped. -/
def State.powerFails (s : State) : State :=
  let s := { s with pwr := { s.pwr with failed := true, holdSel := true } }
  (s.endMeasure.flashPowerFail).quieten

/-- POWER_FAIL_DETECTION (R362): its effect depends on the Granary state. The state word changes first, then source 96 is
raised, whose reactions find power failed (R26, R28); MAIN drops last. -/
def execPowerFailDetection (vinMv vinNs pwrfailNs : Nat) (s : State) : Host.Outcome State Fault Refusal :=
  if !s.pwr.hold || !s.pwr.armed || s.pwr.failed || !detects vinMv vinNs pwrfailNs then done s s
  else
    let st := s.grnState
    let t := s.powerFails
    let fid := fun (t : State) => { t with pwr := { t.pwr with failedInDump := true } }
    let told := fun (t : State) => t.raise 96 0 0
    if st = Grn.lazy ∨ st = Grn.ready then done s (told (fid (t.beginDump 1 true)))
    else if st = Grn.dumping then
      let t := told (fid { t with grn := { t.grn with fetches := [] } })
      done s (if t.grn.dump.any (·.opened) then t.dropMain else t)
    else if st = Grn.sealed then
      done s (told ({ t with grn := { t.grn with fetches := [] } } : State).closeIngress).dropMain
    else if st = Grn.failed && s.grn.dump.isNone then done s (told (fid (t.beginDump 0 true)))
    else done s (told t)

/-- POWER_FAIL_DETECTION_ARMED (R520): VIN has been at or above 11.4 V after HOLD_PWRGD asserted. -/
def execPowerFailDetectionArmed (s : State) : Host.Outcome State Fault Refusal :=
  if s.pwr.hold then done s { s with pwr := { s.pwr with armed := true } } else done s s

/-- The 4 KiB blocks of the dirty map that hold a set bit, as MANIFEST units (R363). -/
def State.manifestUnits (s : State) : List VaultUnit :=
  (List.range (ceilDiv s.windowPages 32768)).filterMap (fun b =>
    match s.grn.dirty.firstFrom (32768 * b) with
    | some p =>
      if p < 32768 * (b + 1) then
        some { page := b, patch := false, mask := 0, bad := 0,
               lines := (List.range 64).map (fun l =>
                 BitVec.ofNat 512 ((List.range 512).foldl (fun v i =>
                   if s.grn.dirty.mem (32768 * b + 512 * l + i) then v + 2 ^ i else v) 0)) }
      else none
    | none => none)

/-- Writes units as whole segments of at most 1,016. -/
def State.writeSegments (s : State) (kind : SegKind) : Nat → List VaultUnit → State
  | 0, _ => s
  | n + 1, us => if us.isEmpty then s else (s.writeSegment kind (us.take segPages)).writeSegments kind n (us.drop segPages)

/-- DUMP_DRAIN_DONE (R363 steps 3 to 5): every line of a restored page has drained; during a chip reset the flash
controller and the digest engine have come back first (R474). MAIN drops where power has failed
during this dump; the DUMP_OPEN record and the manifest are written. -/
def execDumpDrainDone (written : CopyResult) (s : State) : Host.Outcome State Fault Refusal :=
  match s.grn.dump with
  | some d =>
    if d.opened || s.grn.landing.any s.drains || !s.groupUp .h then done s s
    else
      let t := if s.pwr.failedInDump then s.dropMain else s
      let first := t.grn.nextSeq
      let r := t.writeRecord 2 (fun r => { r with dumpFirst := first }) written
      if r.1 then
        let us := r.2.manifestUnits
        let t := r.2.writeSegments .manifest us.length us
        done s { t with grn := { t.grn with dump := some { d with opened := true, first := first, nextPage := 0 } } }
      else done s { r.2 with grn := { r.2.grn with dump := none } }
  | none => done s s

/-- The next dirty pages from `page` on, at most `n`. -/
def State.dirtyFrom (s : State) : Nat → Nat → List Nat
  | 0, _ => []
  | n + 1, page =>
    match s.grn.dirty.firstFrom page with
    | some p => p :: s.dirtyFrom n (p + 1)
    | none => []

/-- Whether a page lies on a FAILED Granary channel (R369). -/
def State.pageFailed (s : State) (page : Nat) : Bool := !s.dpaServes (grnBase + 4096 * page) true

/-- A dirty page as the dump writes it (R363): whole, or as a patch while it is unrestored. -/
def State.dumpUnit (s : State) (page : Nat) : VaultUnit :=
  if s.grn.unrestored.mem page then s.patchUnit page else fullUnit page (s.windowPage page)

/-- DUMP_SEGMENT_SEALED (R363 step 6): up to 1,016 dirty pages in ascending order. A page that a service dump poisons
is a loss (R375). -/
def execDumpSegmentSealed (s : State) : Host.Outcome State Fault Refusal :=
  match s.grn.dump with
  | some d =>
    let pages := s.dirtyFrom segPages d.nextPage
    if !d.opened || pages.isEmpty || s.ringSize ≤ s.ringUsed then done s s
    else
      let t := pages.foldl (fun t p => if s.grn.unrestored.mem p then t else t.queuePage .guard p) (s.writeSegment .dump (pages.map s.dumpUnit))
      let t := pages.foldl (fun t p => if t.pageFailed p then t.recordLoss F.GRN_LOSS_CHANNEL p else t) t
      done s { t with grn := { t.grn with dump := some { d with nextPage := pages.getLastD 0 + 1 } } }
  | none => done s s

/-- The state after a seal (R377). -/
def State.afterSeal (s : State) (d : Dump) : State :=
  let inDump := s.pwr.failedInDump
  let s := { s with pwr := { s.pwr with failedInDump := false }, grn := { s.grn with dump := none } }
  if d.inFailed then
    if s.pwr.failed then s else { s with pwr := { s.pwr with mainEn := true } }
  else if inDump then
    if s.pwr.failed then s.setGrn Grn.sealed
    else { s with pwr := { s.pwr with mainEn := true } }.returnToService
  else if s.grn.channelDump then s.setGrn Grn.heldState
  else s.setGrn Grn.sealed

/-- DUMP_SEALED (R363 step 7, R377): every dirty page is in a sealed segment; the record is written, the dirty bits
clear (R346). DUMP_LAST of a dump without a segment is a free value. -/
def execDumpSealed (written : CopyResult) (s : State) : Host.Outcome State Fault Refusal :=
  match s.grn.dump with
  | some d =>
    if !d.opened || (s.grn.dirty.firstFrom d.nextPage).isSome then done s s
    else
      let (last, t) := if d.first = s.grn.nextSeq then s.fresh else (s.grn.nextSeq - 1, s)
      let r := t.writeRecord 3 (fun r => { r with dumpFirst := d.first, dumpLast := last, dumps := min 0xFFFF (r.dumps + 1) }) written
      if r.1 then
        let t := r.2.bump C.grnDump
        done s (({ t with grn := { t.grn with dirty := [] } }.levels).afterSeal d)
      else done s { r.2 with grn := { r.2.grn with dump := none } }
  | none => done s s

/-- PARK_DONE (R363 step 8): the flash is powered down and the ranks of CH0 to CH3 are in self-refresh. -/
def execParkDone (s : State) : Host.Outcome State Fault Refusal :=
  let st := s.grnState
  if s.pwr.failed && !s.pwr.main && s.grn.dump.isNone && (st == Grn.sealed || st == Grn.failed) then
    let t := { s with flash := { s.flash with off := true } }
    let t := [0, 1, 2, 3].foldl (fun t ch => (List.range 4).foldl (fun t r =>
      if t.rankInService ch r then
        (t.setN F.DMC_STATUS_PD ch (putBits (t.getN F.DMC_STATUS_PD ch) r 1 0)).setN F.DMC_STATUS_SR ch
          (putBits (t.getN F.DMC_STATUS_SR ch) r 1 1)
      else t) t) t
    done s (if st = Grn.sealed then t.setGrn Grn.parked else t)
  else done s s

/-- VHOLD_COLLAPSE (R365, R518): while the state word is DUMPING. -/
def execVholdCollapse (s : State) : Host.Outcome State Fault Refusal :=
  if s.pwr.hold && s.grnState == Grn.dumping then
    done s ({ s with grn := { s.grn with dump := none } }.raise 104 0 0)
  else done s s

/-- POWER_RETURNED (R521, R516, R517): HOLD_SEL falls; MAIN_EN rises once the dump has sealed; PARKED returns to
service with HOLD_RETURN set. -/
def execPowerReturned (s : State) : Host.Outcome State Fault Refusal :=
  if !s.pwr.failed then done s s
  else
    let t := { s with pwr := { s.pwr with failed := false, holdSel := false } }
    let up := fun (t : State) => { t with pwr := { t.pwr with mainEn := true }, flash := { t.flash with off := false } }
    if s.grnState = Grn.parked then done s ((up t).set F.GRN_STATE_HOLD_RETURN 1).returnToService
    else if s.grn.dump.isSome then done s t
    else done s (up t)

/-! ### Restore (R371 to R374) -/

/-- The capacity of IVS[0] (R304): a window larger than it holds the restore (R371). -/
def State.granaryCapacity (s : State) : Nat := if (s.ivs 0).valid then (s.ivs 0).size else 0

/-- LOCATING_DONE (R371): `bad` names the delta segments whose trailers do not verify when read. -/
def execLocatingDone (bad : List Nat) (s : State) : Host.Outcome State Fault Refusal :=
  if s.grnState ≠ Grn.locating then done s s
  else if s.granaryCapacity < s.grn.config.windowLen then
    done s ((s.set F.GRN_STATE_CAUSE 4).setGrn Grn.heldState)
  else
    let t : State := { s with grn := { s.grn with
      deltas := s.grn.deltas.map (fun (g : Segment) => if bad.contains g.seq && g.verdict == .verified then { g with verdict := .damaged } else g),
      unrestored := PageSet.full s.windowPages, closed := false } }
    let t := t.sealUnits 32720 t.chainDeltas.length
    let t := (t.unsealedLost.eraseDups).foldl (fun t p => t.recordLoss F.GRN_LOSS_UNSEALED p) t
    let t := ((t.damagedLost.eraseDups).filter (fun p => !t.grn.lost.mem p)).foldl
      (fun t p => t.recordLoss F.GRN_LOSS_SEGMENT p) t
    done s (t.setGrn t.serviceState)

/-- The first unrestored page from `p` on that is not being fetched. -/
def pickFetch (unrestored : PageSet) (fetches : List Fetch) : Nat → Nat → Option Nat
  | 0, _ => none
  | n + 1, p =>
    match unrestored.firstFrom p with
    | none => none
    | some q => if fetches.any (fun f => f.page == q) then pickFetch unrestored fetches n (q + 1) else some q

/-- BACKGROUND_RESTORE_FETCH (R373): the next unrestored page in ascending order. -/
def execBackgroundRestoreFetch (s : State) : Host.Outcome State Fault Refusal :=
  if s.grnState ≠ Grn.lazy || s.grn.closed then done s s
  else
    match pickFetch s.grn.unrestored s.grn.fetches (s.grn.fetches.length + 1) 0 with
    | some p => done s (({ s with grn := { s.grn with fetches := s.grn.fetches ++ [⟨p, false⟩] } } : State).queueFetch p false)
    | none => done s s

/-- Whether a fetch runs: background fetches, and the first 1,024 on-demand ones (R373). -/
def State.fetchRuns (s : State) (page : Nat) : Bool :=
  ((s.grn.fetches.filter (·.onDemand)).take 1024).any (fun f => f.page == page) ||
  s.grn.fetches.any (fun f => f.page == page && !f.onDemand)

/-- A page is restored, or restored as lost with every line poisoned (R374); the reads that waited for it are
answered (R372). -/
def State.restorePage (s : State) (page : Nat) (ok : Bool) : State :=
  let s := s.dropFetch page
  let content := if ok && !s.grn.lost.mem page then s.chainPage page else none
  let s := match content with
    | some _ => s
    | none => if s.grn.lost.mem page then s else s.recordLoss F.GRN_LOSS_PAGE page
  let s := s.writePage page (content.getD (List.replicate 64 (0, true)))
  let s := { s with grn := { s.grn with
      unrestored := s.grn.unrestored.erase page, fetches := s.grn.fetches.filter (fun f => f.page != page) } }
  s.answerReads page

/-- The last page is restored in LAZY: a RESTORED record, and READY (R373, R377). -/
def State.restoreDone (s : State) (written : CopyResult) : State :=
  if s.grnState = Grn.lazy && s.grn.unrestored.isEmpty then
    let r := s.writeRecord 5 id written
    if r.1 then (r.2.setGrn Grn.ready).startRebase else r.2
  else s

/-! ### The vault patrol (R356) -/

/-- The area's segments: slot A, slot B, the delta ring. -/
def State.areaSegment (s : State) (area seq : Nat) : Option Segment :=
  match area with
  | 0 => s.grn.slotA.get? seq
  | 1 => s.grn.slotB.get? seq
  | _ => s.grn.deltas.find? (fun g => g.seq == seq)

/-- Whether a segment of an area holds the newest copy of a page in the chain. -/
def State.newestIn (s : State) (area seq page : Nat) : Bool :=
  let newer := s.chainDeltas.any (fun g => g.kind != .manifest && g.verdict != .erased &&
    (area != 2 || decide (seq < g.seq)) && g.units.any (fun u => u.page == page))
  !newer && (area == 2 || (s.chainRecord.map (·.baseSlot)) == some (area + 1))

/-- Handles one failing unit: a page whose newest copy it is becomes dirty again if restored, and is otherwise restored
as lost. Source 101 once per segment. A failing trailer fails the segment's every unit. -/
def State.vaultFinding (s : State) (area : Nat) (f : SegUnit) : State :=
  match s.areaSegment area f.seq with
  | some g =>
    let s := if s.grn.reported.contains (area, f.seq) then s
      else { s with grn := { s.grn with reported := (area, f.seq) :: s.grn.reported } }.raise 101 0 0
    let bad := if segPages ≤ f.unit then g.units.map (·.page) else (g.units[f.unit]?).toList.map (·.page)
    let pages := if g.kind = .manifest then [] else bad.filter (s.newestIn area f.seq)
    pages.foldl (fun s p =>
      if s.grn.unrestored.mem p then
        let s := if s.grn.lost.mem p then s else s.recordLoss F.GRN_LOSS_SEGMENT p
        s.restorePage p false
      else { s with grn := { s.grn with dirty := s.grn.dirty.insert p } }.levels) s
  | none => s

/-- VAULT_SCRUB_SLICE (R356, R34): stops at a power failure and while a restore is in progress, and waits while a GUARD
descriptor waits (R35). -/
def execVaultScrubSlice (failed : List SegUnit) (s : State) : Host.Outcome State Fault Refusal :=
  if !s.grn.unrestored.isEmpty || s.waitingDescs.any (fun p => queueClass p.1 == 0) then done s s
  else
    match s.takeSlot 4 with
    | some (f, t) =>
      if f.arg ≤ 2 && t.groupUp .h && !t.flash.off then done s (failed.foldl (State.vaultFinding · f.arg) t) else done s t
    | none => done s s

end Sys2Proof.Machine
end

