-- ==== Sys2Proof/Machine/GrnConfig.lean ====
section
/-!
DEFINITION. GRANARY_CONFIG and GRANARY_DUMP (R340, R341, R368): the parameter block, its checks, and the four operations
on the state word.
-/

namespace Sys2Proof.Machine

/-- The operations of the parameter block (R340). -/
inductive GrnOp where
  | create
  | tune
  | format
  | resume
  deriving DecidableEq, Repr

/-- OP of an operation. -/
def GrnOp.code : GrnOp → Nat
  | .create => 0
  | .tune => 1
  | .format => 2
  | .resume => 3

/-- Whether the operation sets the window's size. -/
def GrnOp.sizes : GrnOp → Bool
  | .create | .format => true
  | _ => false

/-- A field of the block with its offset, length, bounds and default (R340). -/
structure GrnField where
  off : Nat
  len : Nat
  least : Nat
  greatest : Nat
  standard : Nat

/-- The ranged fields of the block after WINDOW_LEN (R340). -/
def grnFields : List GrnField :=
  [⟨0x10, 2, 1, 1024, 256⟩, ⟨0x12, 2, 100, 10000, 550⟩, ⟨0x14, 1, 64, 230, 128⟩, ⟨0x15, 1, 20, 90, 50⟩,
   ⟨0x16, 1, 10, 160, 80⟩, ⟨0x18, 2, 16, 1024, 256⟩]

/-- A window in whole GiB, rounded up. -/
def wholeGib (len : Nat) : Nat := ceilDiv len (2 ^ 30)

/-- The reserved fields of the block: offset and length. -/
def grnReserved : List (Nat × Nat) := [(0x06, 2), (0x17, 1), (0x1A, 0x26)]

/-- The offset of the first field out of range, if any (R340, R341). -/
def State.grnBlockFault (s : State) (op : GrnOp) (b : List Byte) : Option Nat :=
  let len := leField b 0x08 8
  let window := if op.sizes then len else s.grn.config.windowLen
  let badLen := op.sizes && (len == 0 || len % 2 ^ 28 != 0 || decide (min (2 ^ 40) s.granaryCapacity < len))
  if leField b 0 4 ≠ 0x43475053 then some 0
  else if leField b 4 1 ≠ 1 then some 4
  else if 3 < leField b 5 1 then some 5
  else
    match grnReserved.find? (fun r => leField b r.1 r.2 != 0) with
    | some r => some r.1
    | none =>
      if badLen then some 0x08
      else
        match grnFields.find? (fun f => let v := leField b f.off f.len
            v != 0 && !(decide (f.least ≤ v) && decide (v ≤ f.greatest))) with
        | some f => some f.off
        | none => if op != .resume && decide (max 1 (wholeGib window) < leField b 0x10 2) then some 0x10 else none

/-- The configuration that the block gives: defaults at CREATE and FORMAT, the values in force at TUNE (R340). -/
def State.grnNewConfig (s : State) (op : GrnOp) (b : List Byte) : GrnConfig :=
  let old := s.grn.config
  let window := if op.sizes then leField b 0x08 8 else old.windowLen
  let pick := fun (off len standard now : Nat) =>
    let v := leField b off len
    if v ≠ 0 then v else if op.sizes then standard else now
  { op := op.code, windowLen := window,
    ceiling := pick 0x10 2 (min 256 (wholeGib window)) old.ceiling,
    eReserve := pick 0x12 2 550 old.eReserve,
    derate := pick 0x14 1 128 old.derate,
    winHiPct := pick 0x15 1 50 old.winHiPct,
    winRate := pick 0x16 1 80 old.winRate,
    deltaLimit := pick 0x18 2 256 old.deltaLimit }

/-- Whether a loaded plan has a table attached in the window (R341). -/
def State.windowTables (s : State) : Bool := s.eng.tables.any (fun t => t.decl.loc == 0 && !t.users.isEmpty)

/-- Whether the state word permits an operation (R28, R341). -/
def State.grnPermits (s : State) (op : GrnOp) (window : Nat) : Bool :=
  !s.pwr.failed &&
  match op with
  | .create => s.grnState == Grn.off
  | .tune => s.grnServes
  | .format => (s.grnServes || s.grnState == Grn.heldState) && !s.windowTables &&
      (window == s.grn.config.windowLen || !s.link.hdm0.committed)
  | .resume => s.grnState == Grn.sealed

/-- A refused operation: after power-fail detection the state word reports it (R28). -/
def State.grnRefuse (s : State) (a : Accepted) : State :=
  (if s.pwr.failed then s.set F.GRN_STATE_REFUSED 1 else s).complete a CC.stateConflict 0

/-- The first 8 bytes of the completion of the last failed read-back (R341). -/
def copyFailure : CopyResult → Nat
  | .neither c => c.toNat
  | _ => 0

/-- A new chain whose base is ZERO (R341): nothing of the previous one can be read again, and LOCATING begins. -/
def State.startChain (s : State) : State :=
  let s := (s.abandonSegments.clearLoss).tlbDrop (fun e => e.kind == .granary)
  let s := s.grn.fetches.foldl (fun s f => s.dropFetch f.page) s
  let s : State := { s with
    grn := { s.grn with
      landing := [], dirty := [], unrestored := [], deltas := [], slotA := [], slotB := [], fetches := [],
      channelDump := false, reported := [] } }
  ((s.set F.GRN_STATE_CAUSE 0).set F.WIN_STATUS_POS 0).chainFields.setGrn Grn.locating

/-- CREATE, TUNE and FORMAT (R341): the record is written first; with neither copy readable the state is FAILED. -/
def State.applyGrnConfig (s : State) (a : Accepted) (op : GrnOp) (cfg : GrnConfig) (written : CopyResult) : State :=
  let old := s.grn.config
  let t : State := { s with grn := { s.grn with config := cfg } }
  let event := match op with
    | .create => 1
    | .format => 6
    | _ => 7
  let first := s.grn.nextSeq
  let r := t.writeRecord event
    (fun r => if op.sizes then { r with baseSlot := 0, chainFirst := first, dumps := 0 } else r) written
  if r.1 then
    let t := r.2.set F.GRN_STATE_REFUSED 0
    (if op.sizes then t.startChain.levels else t.levels.startRebase).complete a CC.ok 0
  else
    ({ r.2 with grn := { r.2.grn with config := old } } : State).complete a CC.flashError (copyFailure written)

/-- One row of GRANARY_CONFIG: the command runs when its block names the row's operation, or none of R340's. -/
def State.grnConfigure (s : State) (m : Mailbox) (op : GrnOp) (config : Transfer) (written : CopyResult) : State :=
  s.onCmd m (isOp Op.granaryConfig) fun a =>
    s.withInput a 64 config fun s b =>
      let named := leField b 5 1
      if named ≠ op.code && decide (named ≤ 3) then s
      else
        match s.grnBlockFault op b with
        | some off => s.complete a CC.invalidField off
        | none =>
          let cfg := s.grnNewConfig op b
          if !s.grnPermits op cfg.windowLen then s.grnRefuse a
          else if op = .resume then (s.set F.GRN_STATE_REFUSED 0).returnToService.complete a CC.ok 0
          else s.applyGrnConfig a op cfg written

/-- GRANARY_CREATE (R341). -/
def execGranaryCreate (m : Mailbox) (config : Transfer) (written : CopyResult) (s : State) :
    Host.Outcome State Fault Refusal := done s (s.grnConfigure m .create config written)

/-- GRANARY_TUNE (R341). -/
def execGranaryTune (m : Mailbox) (config : Transfer) (written : CopyResult) (s : State) :
    Host.Outcome State Fault Refusal := done s (s.grnConfigure m .tune config written)

/-- GRANARY_FORMAT (R341). -/
def execGranaryFormat (m : Mailbox) (config : Transfer) (written : CopyResult) (s : State) :
    Host.Outcome State Fault Refusal := done s (s.grnConfigure m .format config written)

/-- GRANARY_RESUME (R341, R368). -/
def execGranaryResume (m : Mailbox) (config : Transfer) (s : State) : Host.Outcome State Fault Refusal :=
  done s (s.grnConfigure m .resume config .both)

/-- GRANARY_DUMP (R368): completes when the state word shows the request accepted. -/
def execGranaryDump (m : Mailbox) (s : State) : Host.Outcome State Fault Refusal :=
  done s (s.onCmd m (isOp Op.granaryDump) fun a =>
    let r := s.requestDump 1
    r.2.complete a (if r.1 then CC.ok else CC.stateConflict) 0)

end Sys2Proof.Machine
end

