-- ==== Sys2Proof/Machine/Link.lean ====
section
/-!
DEFINITION. Commands of the host link (R64 to R87): training, CXL.mem traffic, the HDM decoders, MSI-X masks, link
errors and the CXL memory-device mailbox.
-/

namespace Sys2Proof.Machine

/-- A cap of HL_CTL: reserved codes are treated as 101. -/
def linkCap (c : Nat) : Nat := if 1 ≤ c ∧ c ≤ 5 then c else 5

/-- The link is up in CXL mode. -/
def State.cxlUp (s : State) : Bool :=
  s.groupUp .ln && s.flag F.HL_STATUS_LINK_UP && s.get F.HL_STATUS_MODE == 2

/-- The host reaches the device over the link. -/
def State.linkUp (s : State) : Bool := s.groupUp .ln && s.flag F.HL_STATUS_LINK_UP

/-- The link's registers for a down link. -/
def State.linkDown (s : State) : State :=
  s.setAll [(F.HL_STATUS_LINK_UP, 0), (F.HL_STATUS_MODE, 0), (F.HL_STATUS_SPEED, 0), (F.HL_STATUS_WIDTH, 0)]

/-- Decoders exist in CXL mode only (R65). -/
def State.dropDecoders (s : State) : State :=
  { s with link := { s.link with
      hdm0 := { s.link.hdm0 with committed := false }, hdm1 := { s.link.hdm1 with committed := false } } }

/-- Decoder 1 maps volatile capacity only while VOL_EN is set, which takes effect at a training (R70). -/
def State.dropVolatile (s : State) : State :=
  { s with link := { s.link with hdm1 := { s.link.hdm1 with committed := false } } }

/-- LINK_TRAINING (R65, R67, R70): the widest working width and highest working speed within the caps; a width of 0 means
that no lane works. -/
def execLinkTraining (width speed : BitVec 3) (alternate : Bool) (s : State) : Host.Outcome State Fault Refusal :=
  if !s.groupUp .ln || s.pwr.perst then done s s
  else
    let w := min (min 5 width.toNat) (linkCap (s.get F.HL_CTL_MAX_WIDTH))
    let v := min (min 5 speed.toNat) (linkCap (s.get F.HL_CTL_MAX_SPEED))
    if w = 0 ∨ v = 0 then done s s.linkDown.dropDecoders
    else
      let cxl := alternate && v == 5 && s.flag F.HL_CTL_CXL_EN
      let t := s.setAll [(F.HL_STATUS_LINK_UP, 1), (F.HL_STATUS_WIDTH, w), (F.HL_STATUS_SPEED, v),
        (F.HL_STATUS_MODE, if cxl then 2 else 1)]
      let t := if !cxl then t.dropDecoders else if t.flag F.HL_CTL_VOL_EN then t else t.dropVolatile
      done s (if w = 5 ∧ v = 5 then t.clearLive 22 else t.raiseLive 22 0 0)

/-! ### CXL.mem (R70 to R77) -/

/-- A decoder maps a host address. -/
def Hdm.maps (h : Hdm) (hpa : Nat) : Bool := h.committed && decide (h.base ≤ hpa) && decide (hpa < h.base + h.size)

/-- The offset on this device of a host address: every `ways`-th granule is this device's (R70, R71). -/
def Hdm.offset (h : Hdm) (hpa : Nat) : Nat :=
  let o := hpa - h.base
  o / (h.gran * h.ways) * h.gran + o % h.gran

/-- The base DPA of the set that decoder 1 maps, if any (R305). -/
def State.volatileBase (s : State) : Option Nat :=
  ((List.range 8).find? (fun k => (s.ivs k).valid && (s.ivs k).vol)).map (fun k => (s.ivs k).base)

/-- CXL_MEM_WRITE (R72, R75, R76, R344): decoder 0's line is accepted into the landing buffer and completed, or waits
ahead of the link for a reservation; decoder 1's is a HOST-class write. One that no committed decoder maps is dropped, with
its Cmp: DESIGN CHOICE, log entry 59. -/
def execCxlMemWrite (hpa : Dword) (data : Line) (poison : Bool) (s : State) : Host.Outcome State Fault Refusal :=
  let a := hpa.toNat
  if !s.cxlUp || s.linkClosed then done s s
  else if s.link.hdm0.maps a then
    done s (s.cxlWindowWrite ⟨.cmp a, s.link.hdm0.offset a / 64, data, poison⟩)
  else
    match (if s.link.hdm1.maps a then s.volatileBase else none) with
    | some b =>
      let dpa := b + s.link.hdm1.offset a / 64 * 64
      done s ((s.dramWrite dpa data poison .host 0 false).emit (.cxlCmp a))
    | none => done s (s.emit (.cxlCmp a))

/-- CXL_MEM_READ (R73, R372): from the landing buffer, after an on-demand fetch, or from DRAM in the HOST class. One
that no committed decoder maps is answered with poison: DESIGN CHOICE, log entry 59. -/
def execCxlMemRead (hpa : Dword) (tag : BitVec 16) (s : State) : Host.Outcome State Fault Refusal :=
  let a := hpa.toNat
  let g := tag.toNat
  if !s.cxlUp || s.linkClosed then done s s
  else if s.link.hdm0.maps a then
    let off := s.link.hdm0.offset a / 64 * 64
    match s.landed (off / 64) with
    | some l => done s (s.emit (.cxlData g l.data l.poison))
    | none =>
      if s.grn.unrestored.mem (off / 4096) then
        if s.canFetch then
          done s ({ s with link := { s.link with reads := s.link.reads ++ [(g, off)] } }.demandFetch (off / 4096))
        else done s (s.emit (.cxlData g 0 true))
      else done s (s.cxlReadDram (grnBase + off) g)
  else
    match (if s.link.hdm1.maps a then s.volatileBase else none) with
    | some b => done s (s.cxlReadDram (b + s.link.hdm1.offset a / 64 * 64) g)
    | none => done s (s.emit (.cxlData g 0 true))

/-- GLOBAL_PERSISTENT_FLUSH (R78): both phases are answered; neither adds work. -/
def execGlobalPersistentFlush (second : Bool) (s : State) : Host.Outcome State Fault Refusal :=
  if s.cxlUp && !s.linkClosed then done s (s.emit (.gpfAck second)) else done s s

/-- The settings that R70 supports for a decoder. -/
def hdmSupported (size ways gran : Nat) : Bool :=
  (ways == 1 || ways == 2 || ways == 4 || ways == 8) && isPow2 gran && decide (256 ≤ gran) && decide (gran ≤ 16384) &&
  decide (size % 2 ^ 28 = 0) && decide (size ≠ 0)

/-- HDM_DECODER_COMMIT (R70, R71): never held pending; a failing commit sets Error Not Committed. -/
def execHdmDecoderCommit (decoder : Bool) (base size : Dword) (ways : BitVec 8) (granularity : BitVec 32) (s : State) :
    Host.Outcome State Fault Refusal :=
  if !s.cxlUp || s.linkClosed then done s s
  else
    let n := size.toNat
    let w := ways.toNat
    let shape := hdmSupported n w granularity.toNat
    let h : Hdm := { committed := true, err := false, base := base.toNat, size := n, ways := w, gran := granularity.toNat }
    let bad : Hdm := { h with committed := false, err := true }
    if decoder then
      let ok := shape && s.flag F.HL_CTL_VOL_EN && s.flag F.RDY_STATUS_DRAM
      done s { s with link := { s.link with hdm1 := if ok then h else bad } }
    else
      let ok := shape && s.grnServes && decide (n = w * s.grn.config.windowLen)
      done s { s with link := { s.link with hdm0 := if ok then h else bad } }

/-! ### MSI-X and link errors (R80, R81) -/

/-- MSIX_UNMASK (R80): one message for a pending vector. -/
def execMsixUnmask (v : BitVec 8) (s : State) : Host.Outcome State Fault Refusal :=
  let n := v.toNat
  if !s.groupUp .ln then done s s
  else
    let e := s.msixEntry n
    let t := { s with link := { s.link with msix := s.link.msix.set n { e with masked := false } } }
    if n ∈ t.link.pba then
      done s (({ t with link := { t.link with pba := t.link.pba.filter (· ≠ n) } }).emit (.msix n))
    else done s t

/-- The fault source of a link error (R81, R437). -/
def linkErrorSource : LinkErrorKind → Nat
  | .correctable => 16
  | .advisory => 17
  | .poisonedTlp => 18
  | .completionError => 19
  | .protocolFatal => 20

/-- AER logs the packet header of the first error (R64); a correctable error of the table names no packet. -/
def State.logHeader (s : State) (kind : LinkErrorKind) (header : BitVec 128) : State :=
  if kind = .correctable || s.link.aerFirst.isSome then s
  else { s with link := { s.link with aerFirst := some (kind, header) } }

/-- LINK_ERROR (R64, R81): reported through AER and captured by its source; checker 0 of source 16 may inject. -/
def execLinkError (e : LinkErrorReport) (s : State) : Host.Outcome State Fault Refusal :=
  if !s.groupUp .ln then done s s
  else
    let inj := if e.kind = .correctable then s.injected 16 0 0 0 else (false, s)
    let t := (inj.2.emit (.aer e.kind)).logHeader e.kind e.header
    if inj.1 then done s t else done s (t.raise (linkErrorSource e.kind) 0 0)

/-- SURPRISE_LINK_DOWN (R81): source 21. A link down of the device's own making raises nothing (R468). -/
def execSurpriseLinkDown (s : State) : Host.Outcome State Fault Refusal :=
  if !s.linkUp || s.pwr.held || s.pwr.perst then done s s
  else
    let t := (s.linkDown.emit .aerLinkDown).raise 21 0 0
    done s { t with link := { t.link with waiting := [], reads := [] },
                    grn := { t.grn with waiters := t.grn.waiters.filter (fun w => w != .cxl) } }

/-! ### The CXL memory-device mailbox (R83). Payload layouts are those of the CXL 2.0 specification. -/

/-- Return codes of the CXL 2.0 specification. -/
def Cxl.success : Nat := 0
def Cxl.background : Nat := 1
def Cxl.invalidInput : Nat := 2
def Cxl.unsupported : Nat := 3
def Cxl.invalidHandle : Nat := 0x0E
def Cxl.invalidAddress : Nat := 0x0F

/-- The firmware answers the CXL mailbox: it runs, and no core of it is down (R83). -/
def State.cxlAnswers (s : State) : Bool :=
  s.cxlUp && s.flag F.RDY_STATUS_FW &&
  [s.hub.core0, s.hub.core1, s.hub.core2, s.hub.core3].any (fun c => c == .running)

/-- The doorbell of the memory-device mailbox rings, or has been answered. -/
def State.ringDoorbell (s : State) (b : Bool) : State := { s with link := { s.link with doorbell := b } }

/-- Runs a CXL mailbox command where the firmware answers; where it does not, the rung doorbell stays set (R83). -/
def cxlDo (s : State) (f : State → State) : Host.Outcome State Fault Refusal :=
  if !s.cxlUp || s.linkClosed then done s s
  else if s.cxlAnswers then done s (f (s.ringDoorbell false)) else done s (s.ringDoorbell true)

/-- The Memory Device Status register (R83, R86), laid out as in the CXL 2.0 specification: Media Status in bits 3 and 2, not
ready until the state word reaches lazily-ready; Mailbox Interface Ready in bit 4, 0 while the Clatos cores do not respond. -/
def State.memDeviceStatus (s : State) : Nat := 4 * natOfBool s.grnServes + 16 * natOfBool s.cxlAnswers

/-- What a BAR register of function 0 reads: a 64-bit memory BAR of its size, and zero for one not implemented (R68). -/
def Bar.word (b : Bar) : Nat := b.addr / b.size * b.size + 4 * natOfBool b.wide + 8 * natOfBool b.prefetch

/-- The pair of BAR registers that starts at BAR `n` (R68). -/
def State.barWord (s : State) (n : Nat) : Nat :=
  if n = 0 then s.link.bar0.word else if n = 2 then s.link.bar2.word else 0

/-- `n` zero bytes. -/
def zeros (n : Nat) : List Byte := List.replicate n 0

/-- An event record as the host reads it: handle, timestamp, source and unit in a 128-byte record. -/
def CxlEvent.bytes (e : CxlEvent) : List Byte :=
  zeros 16 ++ leBytes 4 128 ++ leBytes 2 e.handle ++ zeros 2 ++ leBytes 8 e.time ++ zeros 16 ++
  leBytes 1 e.source ++ leBytes 1 e.instance_ ++ zeros 78

/-- GET_EVENT_RECORDS (R83): logs 0 to 3. -/
def execGetEventRecords (log : BitVec 8) (s : State) : Host.Outcome State Fault Refusal :=
  cxlDo s fun s =>
    if 3 < log.toNat then s.cxlReply 0x0100 Cxl.invalidInput []
    else
      let es := s.link.events.filter (fun e => e.log == log.toNat)
      s.cxlReply 0x0100 Cxl.success (zeros 20 ++ leBytes 2 es.length ++ zeros 10 ++ es.flatMap CxlEvent.bytes)

/-- CLEAR_EVENT_RECORDS (R83): every record of a log, or those named. -/
def execClearEventRecords (log : BitVec 8) (all : Bool) (handles : List (BitVec 16)) (s : State) :
    Host.Outcome State Fault Refusal :=
  if !(Instr.clearEventRecords log all handles).wellFormed then .fault .illFormed
  else cxlDo s fun s =>
    let mine := s.link.events.filter (fun e => e.log == log.toNat)
    let known := handles.all (fun h => mine.any (fun e => e.handle == h.toNat))
    if 3 < log.toNat then s.cxlReply 0x0101 Cxl.invalidInput []
    else if !all && !known then s.cxlReply 0x0101 Cxl.invalidHandle []
    else
      let gone := fun (e : CxlEvent) => e.log == log.toNat && (all || handles.any (fun h => h.toNat == e.handle))
      ({ s with link := { s.link with events := s.link.events.filter (fun e => !gone e) } }).cxlReply 0x0101 Cxl.success []

/-- GET_EVENT_INTERRUPT_POLICY (R83). -/
def execGetEventInterruptPolicy (s : State) : Host.Outcome State Fault Refusal :=
  cxlDo s fun s => s.cxlReply 0x0102 Cxl.success (leBytes 4 s.link.policy)

/-- SET_EVENT_INTERRUPT_POLICY (R83). -/
def execSetEventInterruptPolicy (policy : Word) (s : State) : Host.Outcome State Fault Refusal :=
  cxlDo s fun s => { s with link := { s.link with policy := policy.toNat } }.cxlReply 0x0103 Cxl.success []

/-- ASCII bytes, padded with zeros to `n`. -/
def ascii (t : List Nat) (n : Nat) : List Byte := (t.map (BitVec.ofNat 8)) ++ zeros (n - t.length)

/-- The release in ASCII: F-3.2. -/
def releaseName : List Nat := [0x46, 0x2D, 0x33, 0x2E, 0x32]

/-- GET_FW_INFO (R83): release F-3.2 in slot 1, the only slot. -/
def execGetFwInfo (s : State) : Host.Outcome State Fault Refusal :=
  cxlDo s fun s => s.cxlReply 0x0200 Cxl.success (leBytes 2 0x0101 ++ zeros 14 ++ ascii releaseName 16 ++ zeros 48)

/-- GET_TIMESTAMP (R83): a counter of its own on device clocks. -/
def execGetTimestamp (s : State) : Host.Outcome State Fault Refusal :=
  cxlDo s fun s => s.cxlReply 0x0300 Cxl.success (leBytes 8 s.cxlStamp)

/-- SET_TIMESTAMP (R83): field time is not touched. -/
def execSetTimestamp (v : Dword) (s : State) : Host.Outcome State Fault Refusal :=
  cxlDo s fun s => { s with link := { s.link with stampSet := v.toNat, stampAt := s.now } }.cxlReply 0x0301 Cxl.success []

/-- The identifier of the Command Effects Log. -/
def celUuid : Nat := 0x173F3B62B196798F784B41BFB5C0A90D

/-- The opcodes that R83 supports. -/
def cxlOpcodes : List Nat :=
  [0x0100, 0x0101, 0x0102, 0x0103, 0x0200, 0x0300, 0x0301, 0x0400, 0x0401, 0x4000, 0x4100, 0x4102, 0x4103, 0x4200,
   0x4201, 0x4202, 0x4203, 0x4204, 0x4300, 0x4301, 0x4302, 0x4303, 0x4304, 0x4305]

/-- GET_SUPPORTED_LOGS (R83): the Command Effects Log only. -/
def execGetSupportedLogs (s : State) : Host.Outcome State Fault Refusal :=
  cxlDo s fun s =>
    s.cxlReply 0x0400 Cxl.success (leBytes 2 1 ++ zeros 6 ++ leBytes 16 celUuid ++ leBytes 4 (4 * cxlOpcodes.length))

/-- The Command Effects Log: each supported opcode and its effects, which the manual does not state: free values. -/
def State.effectsLog (s : State) : List Byte × State :=
  cxlOpcodes.foldl (fun (acc : List Byte × State) op =>
    let (v, s) := acc.2.fresh
    (acc.1 ++ leBytes 2 op ++ leBytes 2 v, s)) ([], s)

/-- GET_LOG (R83). -/
def execGetLog (log : BitVec 128) (offset length : Word) (s : State) : Host.Outcome State Fault Refusal :=
  cxlDo s fun s =>
    if log.toNat ≠ celUuid ∨ 4 * cxlOpcodes.length < offset.toNat + length.toNat then
      s.cxlReply 0x0401 Cxl.invalidInput []
    else
      let (bytes, s) := s.effectsLog
      s.cxlReply 0x0401 Cxl.success (sliceBytes bytes offset.toNat length.toNat)

/-- The volatile capacity: decoder 1's size, or 0 with VOL_EN clear (R83). -/
def State.volatileCapacity (s : State) : Nat :=
  if s.flag F.HL_CTL_VOL_EN && s.link.hdm1.committed then s.link.hdm1.size else 0

/-- The size of the label storage area (R83). -/
def lsaSize : Nat := 131072

/-- IDENTIFY_MEMORY_DEVICE (R83): capacities in units of 256 MiB and the LSA size; the event-log sizes and poison
limits are free values. -/
def execIdentifyMemoryDevice (s : State) : Host.Outcome State Fault Refusal :=
  cxlDo s fun s =>
    let p := s.grn.config.windowLen / 2 ^ 28
    let v := s.volatileCapacity / 2 ^ 28
    let (a, s) := s.fresh
    let (b, s) := s.fresh
    let cap := leBytes 8 (p + v) ++ leBytes 8 v ++ leBytes 8 p ++ leBytes 8 0
    s.cxlReply 0x4000 Cxl.success
      (ascii releaseName 16 ++ cap ++ leBytes 8 a ++ leBytes 4 lsaSize ++ leBytes 5 b ++ zeros 2)

/-- GET_PARTITION_INFO (R83): no partitionable capacity. -/
def execGetPartitionInfo (s : State) : Host.Outcome State Fault Refusal :=
  cxlDo s fun s =>
    s.cxlReply 0x4100 Cxl.success
      (leBytes 8 (s.volatileCapacity / 2 ^ 28) ++ leBytes 8 (s.grn.config.windowLen / 2 ^ 28) ++ zeros 16)

/-- GET_LSA (R83): bytes of the label storage area. -/
def execGetLsa (offset length : Word) (s : State) : Host.Outcome State Fault Refusal :=
  cxlDo s fun s =>
    if lsaSize < offset.toNat + length.toNat then s.cxlReply 0x4102 Cxl.invalidInput []
    else s.cxlReply 0x4102 Cxl.success
      ((List.range length.toNat).map (fun i => s.link.lsa.getD (offset.toNat + i) 0))

/-- SET_LSA (R83): the area is kept in the vault. -/
def execSetLsa (offset : Word) (data : List Byte) (s : State) : Host.Outcome State Fault Refusal :=
  cxlDo s fun s =>
    if lsaSize < offset.toNat + data.length then s.cxlReply 0x4103 Cxl.invalidInput []
    else
      let lsa := ((List.range data.length).zip data).foldl (fun (m : Store Byte) p => m.put (offset.toNat + p.1) 0 p.2) s.link.lsa
      { s with link := { s.link with lsa := lsa } }.cxlReply 0x4103 Cxl.success []

/-- Corrected reads counted by a range of channels. -/
def State.correctedReads (s : State) (lo n : Nat) : Nat :=
  (List.range n).foldl (fun a i => a + s.getN F.DMC_CE_CNT_COUNT (lo + i)) 0

/-- The alerts of the CXL 2.0 specification that R83 supports: what SET_ALERT_CONFIGURATION enabled and their warning
thresholds, for life used in percent and for the device temperature. The layout is PRESUMED, log entry 211. -/
def State.alertOn (s : State) (k : Nat) : Bool := bitOf (s.link.alertConfig / 256) k
def State.lifeWarning (s : State) : Nat := bitsOf s.link.alertConfig 23 16
def State.hotWarning (s : State) : Int := toSigned 16 (bitsOf s.link.alertConfig 47 32)
def State.coldWarning (s : State) : Int := toSigned 16 (bitsOf s.link.alertConfig 63 48)

/-- Additional Status of the health information: a life-used alert and a device-temperature alert (R83). -/
def State.additionalStatus (s : State) (life temp : Nat) : Nat :=
  let t := toSigned 16 (temp % 2 ^ 16)
  let hot := (s.alertOn 1 && decide (s.hotWarning ≤ t)) || (s.alertOn 2 && decide (t ≤ s.coldWarning))
  natOfBool (s.alertOn 0 && decide (s.lifeWarning ≤ life % 256)) + 4 * natOfBool hot

/-- GET_HEALTH_INFO (R83, R84): media status not ready short of LAZY; the dirty shutdown count; corrected errors of
CH4 to CH11 and of CH0 to CH3. Life used and device temperature have no stated formula: free values. -/
def execGetHealthInfo (s : State) : Host.Outcome State Fault Refusal :=
  cxlDo s fun s =>
    let (life, s) := s.fresh
    let (temp, s) := s.fresh
    s.cxlReply 0x4200 Cxl.success
      (zeros 1 ++ leBytes 1 (natOfBool (!s.grnServes)) ++ leBytes 1 (s.additionalStatus life temp) ++ leBytes 1 life ++ leBytes 2 temp ++
       leBytes 4 s.grn.dirtyShutdowns ++ leBytes 4 (s.correctedReads 4 8) ++ leBytes 4 (s.correctedReads 0 4))

/-- GET_ALERT_CONFIGURATION (R83): the alerts enabled, those that can be programmed, and the thresholds last written. The
critical thresholds are not stated: free values. -/
def execGetAlertConfiguration (s : State) : Host.Outcome State Fault Refusal :=
  cxlDo s fun s =>
    let (life, s) := s.fresh
    let (hot, s) := s.fresh
    let (cold, s) := s.fresh
    let c := s.link.alertConfig
    s.cxlReply 0x4201 Cxl.success
      (leBytes 1 (bitsOf c 10 8) ++ leBytes 1 7 ++ leBytes 1 life ++ leBytes 1 (bitsOf c 23 16) ++ leBytes 2 hot ++
       leBytes 2 cold ++ leBytes 2 (bitsOf c 47 32) ++ leBytes 2 (bitsOf c 63 48) ++ zeros 4)

/-- The 12 bytes of the configuration in force after those of a command: an alert's enable and threshold change where its
valid bit asks for it. -/
def mergeAlerts (old new : Nat) : Nat :=
  let pick := fun (k hi lo : Nat) => if bitOf new k then bitsOf new hi lo else bitsOf old hi lo
  let en := (List.range 3).foldl (fun m k => m + natOfBool (if bitOf new k then bitOf (new / 256) k else bitOf (old / 256) k) * 2 ^ k) 0
  en * 2 ^ 8 + pick 0 23 16 * 2 ^ 16 + pick 1 47 32 * 2 ^ 32 + pick 2 63 48 * 2 ^ 48

/-- SET_ALERT_CONFIGURATION (R83), for life used and device temperature. -/
def execSetAlertConfiguration (config : BitVec 96) (s : State) : Host.Outcome State Fault Refusal :=
  cxlDo s fun s =>
    { s with link := { s.link with alertConfig := mergeAlerts s.link.alertConfig config.toNat } }.cxlReply 0x4202 Cxl.success []

/-- GET_SHUTDOWN_STATE (R83). -/
def execGetShutdownState (s : State) : Host.Outcome State Fault Refusal :=
  cxlDo s fun s => s.cxlReply 0x4203 Cxl.success (leBytes 1 s.link.shutdownState)

/-- SET_SHUTDOWN_STATE (R83): recorded only. -/
def execSetShutdownState (v : Byte) (s : State) : Host.Outcome State Fault Refusal :=
  cxlDo s fun s => { s with link := { s.link with shutdownState := v.toNat } }.cxlReply 0x4204 Cxl.success []

/-! Poison commands name device addresses: volatile capacity first, then the window (CXL 2.0). -/

/-- The window offset of a CXL device address, if it lies in the window. -/
def State.windowOffset (s : State) (dpa : Nat) : Option Nat :=
  let v := s.volatileCapacity
  if v ≤ dpa ∧ dpa < v + s.grn.config.windowLen then some (dpa - v) else none

/-- The numbers of the poisoned lines of a page. -/
def poisonedIn (ls : List (Line × Bool)) : List Nat :=
  (ls.zipIdx.filter (fun p => p.1.2)).map (·.2)

/-- The poisoned lines of the window in [lo, hi), as a reader would find them: the newest copy in the landing buffer, else in
DRAM for a restored page, else what the chain will restore, all of a lost page among them (R83, R375). -/
def State.poisonedLines (s : State) (lo hi : Nat) : List Nat :=
  let inDram := (s.dram.poison.filter (fun d => decide (grnBase ≤ d))).map (fun d => d - grnBase)
  let inDram := inDram.filter (fun o => !s.grn.unrestored.mem (o / 4096))
  let pages := s.grn.poisonPages.flatMap (fun i => (List.range (i.2 - i.1)).map (i.1 + ·))
  let lost := pages.flatMap (fun p => (List.range 64).map (fun i => 4096 * p + 64 * i))
  let units := (s.chainDeltas ++ s.grn.slotA.map (·.2) ++ s.grn.slotB.map (·.2)).flatMap (·.units)
  let marked := (units.filter (fun u => u.mask + u.bad != 0)).map (·.page)
  let kept := (marked.eraseDups).flatMap (fun p => (poisonedIn ((s.chainPage p).getD [])).map (fun i => 4096 * p + 64 * i))
  let stored := inDram ++ (lost ++ kept).filter (fun o => s.grn.unrestored.mem (o / 4096))
  let landed := (s.grn.landing.filter (fun l => (s.landed l.line).any (·.poison))).map (fun l => 64 * l.line)
  ((stored.filter (fun o => (s.landed (o / 64)).isNone) ++ landed).eraseDups).filter (fun o => decide (lo ≤ o) && decide (o < hi))

/-- One media error record: address and length of one line. -/
def State.mediaRecord (s : State) (o : Nat) : List Byte := leBytes 8 (s.volatileCapacity + o) ++ leBytes 4 1 ++ zeros 4

/-- GET_POISON_LIST (R83). -/
def execGetPoisonList (start length : Dword) (s : State) : Host.Outcome State Fault Refusal :=
  cxlDo s fun s =>
    match s.windowOffset start.toNat with
    | some o =>
      let ls := s.poisonedLines o (o + 64 * length.toNat)
      s.cxlReply 0x4300 Cxl.success (zeros 10 ++ leBytes 2 ls.length ++ zeros 20 ++ ls.flatMap s.mediaRecord)
    | none => s.cxlReply 0x4300 Cxl.invalidAddress []

/-- INJECT_POISON (R31, R83): the line is accepted again with poison, as any write of the window, and waits like one. -/
def execInjectPoison (dpa : Dword) (s : State) : Host.Outcome State Fault Refusal :=
  cxlDo s fun s =>
    match s.windowOffset dpa.toNat with
    | some o =>
      s.cxlWindowWrite ⟨.reply 0x4301, o / 64, (s.windowLine (o / 64)).1, true⟩
    | none => s.cxlReply 0x4301 Cxl.invalidAddress []

/-- CLEAR_POISON (R31, R83): a cleared line reads as zero until written, and the write waits like any of the window; the data
that the command carries is not used. -/
def execClearPoison (dpa : Dword) (_data : Line) (s : State) : Host.Outcome State Fault Refusal :=
  cxlDo s fun s =>
    match s.windowOffset dpa.toNat with
    | some o =>
      s.cxlWindowWrite ⟨.reply 0x4302, o / 64, 0, false⟩
    | none => s.cxlReply 0x4302 Cxl.invalidAddress []

/-- SCAN_MEDIA_CAPABILITIES (R83): the estimated time is not stated: a free value. -/
def execScanMediaCapabilities (start _length : Dword) (s : State) : Host.Outcome State Fault Refusal :=
  cxlDo s fun s =>
    match s.windowOffset start.toNat with
    | some _ =>
      let (v, s) := s.fresh
      s.cxlReply 0x4303 Cxl.success (leBytes 4 v)
    | none => s.cxlReply 0x4303 Cxl.invalidAddress []

/-- SCAN_MEDIA (R83): a gleaner pass over the range; what it finds is kept for SCAN_MEDIA_RESULTS. -/
def execScanMedia (start length : Dword) (s : State) : Host.Outcome State Fault Refusal :=
  cxlDo s fun s =>
    match s.windowOffset start.toNat with
    | some o =>
      let found := s.poisonedLines o (o + 64 * length.toNat)
      { s with link := { s.link with scan := some ⟨start.toNat, length.toNat, true, found⟩ } }.cxlReply 0x4304 Cxl.background []
    | none => s.cxlReply 0x4304 Cxl.invalidAddress []

/-- SCAN_MEDIA_RESULTS (R83): the findings of the last scan. -/
def execScanMediaResults (s : State) : Host.Outcome State Fault Refusal :=
  cxlDo s fun s =>
    match s.link.scan with
    | some m =>
      s.cxlReply 0x4305 Cxl.success
        (zeros 18 ++ leBytes 2 m.found.length ++ zeros 12 ++ m.found.flatMap s.mediaRecord)
    | none => s.cxlReply 0x4305 Cxl.unsupported []

/-- CXL_UNSUPPORTED_OPCODE (R83): any opcode outside the table completes with Unsupported. -/
def execCxlUnsupportedOpcode (opcode : BitVec 16) (s : State) : Host.Outcome State Fault Refusal :=
  if cxlOpcodes.contains opcode.toNat then done s s
  else cxlDo s fun s => s.cxlReply opcode.toNat Cxl.unsupported []

end Sys2Proof.Machine
end

