-- ==== Sys2Proof/Machine/Power.lean ====
section
/-!
DEFINITION. Resets and low-power states (R447, R451, R468 to R478, R518, R527): function-level, hot, warm and chip resets,
loss of HOLD and of AUX, the calendar's rebuilding, D3hot, gating, and the thermal trip.
-/

namespace Sys2Proof.Machine

/-! ### Resets of the function and the link (R468, R469) -/

/-- Ends a reset that leaves the Clatos firmware running: the function blocks are initialised again, and ENGINE and PAIRS,
clear from the start of the reset, set again (R466, R480). -/
def reinitialise (old mid : State) : Host.Outcome State Fault Refusal :=
  let m := State.settle old mid
  if m.flag F.RDY_STATUS_FW && m.flag F.RDY_STATUS_DRAM then done m m.startEngine
  else if m.flag F.RDY_STATUS_FW then done m (m.set F.RDY_STATUS_PAIRS 1)
  else .next m

/-- The groups of a function-level reset and of a hot reset (R469). -/
def flrReach : Group → Option Depth := reachOf (some .n) none none none none
def hotReach : Group → Option Depth := reachOf (some .nf) (some .nf) none none none
def warmReach : Group → Option Depth := reachOf (some .nf) (some .nf) (some .nf) none none
def chipReach : Group → Option Depth := reachOf (some .nfw) (some .nfw) (some .nfw) (some .nfw) none

/-- FUNCTION_LEVEL_RESET (R468, R469): class N of the function blocks. -/
def execFunctionLevelReset (s : State) : Host.Outcome State Fault Refusal :=
  if !s.linkUp then done s s
  else reinitialise s ((((s.cause 7 0 0).resetFunction).resetRegs flrReach).functionNotReady)

/-- HOT_RESET (R468, R469): classes N and F of the function blocks and the link. The link down raises nothing. -/
def execHotReset (s : State) : Host.Outcome State Fault Refusal :=
  if !s.linkUp then done s s
  else reinitialise s (((((s.cause 6 0 0).resetFunction).resetLink).resetRegs hotReach).functionNotReady)

/-- The calendar at a warm reset (R470): entries of TARGET 0x01 name plans that are lost. -/
def State.dropWindowEntries (s : State) : State :=
  { s with cal := { s.cal with
      entries := s.cal.entries.filter (fun p => p.2.target != 1), firings := s.cal.firings.filter (fun f => f.target != 1) } }

/-- The controllers of CH4 to CH11 drop the requests and retrainings in progress at a warm reset. -/
def State.restartControllers (s : State) : State :=
  { s with dram := { s.dram with
      queue := s.dram.queue.filter (fun r => decide (r.bank.ch.val < 4)),
      retraining := s.dram.retraining.filter (fun p => decide (p.1 < 4)) } }

/-- WARM_RESET (R468, R469): PERST_N asserts while MAIN_PWRGD stays asserted. The Clatos firmware restarts. -/
def execWarmReset (s : State) : Host.Outcome State Fault Refusal :=
  if !s.mainUp || s.pwr.perst then done s s
  else
    let t := (((s.cause 5 0 0).resetFunction).resetLink).restartCores
    let t := (((t.dropWindowEntries).restartControllers).resetRegs warmReach).firmwareStops
    done s { t with pwr := { t.pwr with perst := true, loadCommitted := true } }

/-! ### The chip reset (R447, R451, R472, R473) -/

/-- The landing buffer drains into CH0 to CH3 at once (R472 step 3); lines of unrestored pages stay. -/
def State.drainAll (s : State) : State :=
  let go := s.grn.landing.filter s.drains
  let s : State := { s with grn := { s.grn with landing := s.grn.landing.filter (fun l => !s.drains l) } }
  go.foldl (fun s l =>
    let dpa := grnBase + 64 * l.line
    if s.dpaServes dpa true then s.writeLine dpa l.data l.poison else s) s

/-- The ranks in service of some channels enter self-refresh, or leave it. -/
def State.selfRefresh (s : State) (first count : Nat) (enter : Bool) : State :=
  (List.range count).foldl (fun s i =>
    let ch := first + i
    let mask := if enter then ((List.range 4).filter (s.rankInService ch)).foldl (fun m r => m + 2 ^ r) 0 else 0
    (s.setN F.DMC_STATUS_PD ch 0).setN F.DMC_STATUS_SR ch mask) s

/-- A chip reset begins (R472 steps 1 to 4): RST_CAUSE, ingress closed, the winnower's copies, a rebase and fetches
abandoned, migrations paused, the landing buffer drained, CH0 to CH3 in self-refresh, the groups held in reset. -/
def State.beginChipReset (s : State) (r : ResetReq) : State :=
  let low := s.flag F.FLV_STATUS_VCCQ_LOW
  let s := ((((s.cause (if r.device then 4 else 3) r.req r.source).abandonSegments).pauseMigrations).stopRetraining).drainAll
  let s : State := { s with
    grn := { s.closeIngress.grn with fetches := [] },
    dram := { s.dram with queue := [], openRows := [] } }
  let s := s.selfRefresh 0 4 true
  let s := if s.pwr.main then s.emit .linkIdle else s
  let s := ((s.resetDigest.resetFlash).resetMain).resetRegs chipReach
  let s := (s.applyOptions chipReach).setFlag F.FLV_STATUS_VCCQ_LOW low
  { s with pwr := { s.pwr with
      held := true, chipReset := true, request := none, deferred := none, loadCommitted := r.loadCommitted } }

/-- A requested chip reset comes to be carried out (R451, R453): refused while LATCHED, deferred while DUMPING, dropped
where power has failed and MAIN is down. -/
def State.carryOut (s : State) (r : ResetReq) : State :=
  let none_ : State := { s with pwr := { s.pwr with request := none, deferred := none } }
  if !s.pwr.hold || s.latched then none_
  else if s.grnState = Grn.dumping then { none_ with pwr := { none_.pwr with deferred := some r } }
  else if s.pwr.failed && !s.pwr.main then none_
  else s.beginChipReset r

/-- CHIP_RESET (R472): the chip reset that was requested begins. -/
def execChipReset (s : State) : Host.Outcome State Fault Refusal :=
  match s.pwr.request with
  | some r => done s (s.carryOut r)
  | none => done s s

/-- DEFERRED_CHIP_RESET (R451): the state word has left DUMPING. -/
def execDeferredChipReset (s : State) : Host.Outcome State Fault Refusal :=
  match s.pwr.deferred with
  | some r => done s (s.carryOut r)
  | none => done s s

/-- CHIP_RESET_RELEASE (R472 step 5): the groups are released and bring-up proceeds; CH0 to CH3 are not retrained. -/
def execChipResetRelease (found : HoldReport) (channels : List ChannelReport) (s : State) :
    Host.Outcome State Fault Refusal :=
  if !s.pwr.held then done s s
  else
    let low := s.flag F.FLV_STATUS_VCCQ_LOW
    let t : State := { s with pwr := { s.pwr with held := false } }
    let t := (t.bringUpHold found chipReach).setFlag F.FLV_STATUS_VCCQ_LOW low
    done s (if t.pwr.main then t.setUpChannels channels 4 8 else t)

/-- INGRESS_REOPEN (R473): VAULT has set after a chip reset. CH0 to CH3 leave self-refresh, SEALED becomes LAZY or READY
(R368), ingress reopens and a paused migration resumes; a dump that has begun keeps ingress closed (R474). -/
def execIngressReopen (s : State) : Host.Outcome State Fault Refusal :=
  if !s.pwr.chipReset || s.pwr.held || !s.flag F.RDY_STATUS_VAULT then done s s
  else
    let t : State := ({ s with pwr := { s.pwr with chipReset := false } } : State).selfRefresh 0 4 false
    if s.pwr.failed || s.grn.dump.isSome then done s t
    else if s.grnState = Grn.sealed then done s t.returnToService
    else
      let t := [0, 1, 2, 3].foldl (fun t ch => t.setN F.DMC_MIGRATE_PAUSED ch 0) t
      done s (if s.grnServes then { t with grn := { t.grn with closed := false } } else t)

/-! ### Loss of power (R454, R471, R518) -/

/-- Migrations on CH0 to CH3 that the loss of DRAM ends will be completed by record (R367). -/
def State.keepRetirements (s : State) : State :=
  let due := ([0, 1, 2, 3].filter (fun ch => s.getN F.DMC_MIGRATE_ACTIVE ch == 1)).map
    (fun ch => 4 * ch + s.getN F.DMC_MIGRATE_FROM ch)
  { s with dram := { s.dram with retired := s.dram.retired ++ due.filter (fun k => !s.dram.retired.contains k) } }

/-- HOLD loses its state, and MAIN with it (R469, R471). -/
def State.loseHold (s : State) : State :=
  let s := if s.pwr.main then s.emit .linkIdle else s
  let s := (((s.keepRetirements.resetMain).resetDigest).resetFlash).resetGranary
  let s := ((s.resetHub.loseGranaryDram).resetRegs holdReach)
  { s with
    mbx := { s.mbx with running := 0 },
    pwr := { s.pwr with
      hold := false, main := false, mainEn := false, held := false, chipReset := false, request := none,
      deferred := none, armed := false, failed := false, failedInDump := false, holdSel := false, bankTest := false,
      mainDue := false } }

/-- HOLD_POWER_ON_RESET (R518, R454): HOLD_PWRGD deasserts, or VHOLD falls below its power-on-reset level with VIN low. -/
def execHoldPowerOnReset (s : State) : Host.Outcome State Fault Refusal :=
  if s.pwr.hold then done s s.loseHold else done s s

/-- What is left without AUX: the contents of the flash, the window's chain and records among them, and the pins. -/
def State.withoutAux (s : State) : State :=
  let s := if s.pwr.hold then s.loseHold else s
  { State.reset with
    pending := s.pending, now := s.now, freeCtr := s.freeCtr, out := s.out,
    pwr := { State.reset.pwr with perst := s.pwr.perst },
    link := { State.reset.link with lsa := s.link.lsa, shutdownState := s.link.shutdownState },
    mbx := { State.reset.mbx with committed := s.mbx.committed },
    grn := { State.reset.grn with
      deltas := s.grn.deltas, nextSeq := s.grn.nextSeq, slotA := s.grn.slotA, slotB := s.grn.slotB,
      rec0 := s.grn.rec0, rec1 := s.grn.rec1 },
    dram := { State.reset.dram with retired := s.dram.retired },
    flash := { s.flash with option := [] } }

/-- AUX_REMOVAL (R468, R469): every state is lost, class A included. -/
def execAuxRemoval (s : State) : Host.Outcome State Fault Refusal :=
  if s.pwr.aux then done s s.withoutAux else done s s

/-! ### The calendar's rebuilding (R470) -/

/-- A stored entry with its first instant advanced by whole periods past the present. -/
def CalEntry.advanced (e : CalEntry) (us : Nat) : CalEntry :=
  if us < e.instant then { e with past := false, missed := 0, late := false }
  else
    { e with
      instant := e.instant + ((us - e.instant) / max 1 e.period + 1) * max 1 e.period, past := false, missed := 0,
      late := false }

/-- The entry of a calendar target of the pacing store, where it is missing. -/
def State.restorePacing (s : State) (p : Nat × CalEntry) : State :=
  match s.pacingEntry p.1, s.freeEntries.head? with
  | none, some i => s.setEntry i (some (p.2.advanced (s.ft.count / 1000)))
  | _, _ => s

/-- CALENDAR_REBUILD (R470): field time runs and the firmware has loaded; entries missing from the pacing store and from
the window operators of running plans are committed, and CAL sets. -/
def execCalendarRebuild (s : State) : Host.Outcome State Fault Refusal :=
  if !s.mainUp || !s.flag F.RDY_STATUS_FW || s.get F.FT_STATUS_STATE != Ft.running || s.flag F.RDY_STATUS_CAL then done s s
  else
    let t := s.hub.pacing.foldl State.restorePacing s
    let t := (s.eng.plans.map (·.1)).foldl State.commitWindows t
    done s (t.set F.RDY_STATUS_CAL 1)

/-! ### Low-power states (R476 to R478) -/

/-- D3HOT_ENTRY (R478): every gate group is gated and CH4 to CH11 enter self-refresh. -/
def execD3hotEntry (s : State) : Host.Outcome State Fault Refusal :=
  if !s.linkUp || s.pwr.d3hot then done s s
  else
    let t : State := { s with pwr := { s.pwr with d3hot := true } }
    done s ((t.set F.PWR_GATE_GATED 0xFFF).selfRefresh 4 8 true)

/-- The accesses to host memory that waited for D0 go on, and tasks that waited are dispatched (R478). -/
def State.backInD0 (s : State) : State := ((s.settleOwed).drainTrace 64).schedule

/-- D0_RETURN (R478): everything is kept; what waited goes on, and a dispatch wakes its gate group. -/
def execD0Return (s : State) : Host.Outcome State Fault Refusal :=
  if !s.linkUp || !s.pwr.d3hot then done s s
  else done s ({ s with pwr := { s.pwr with d3hot := false } } : State).backInD0

/-- Every tiller of a gate group has been IDLE for IDLE_US (R476): 0 is taken as 1. A retired tiller counts as idle. -/
def State.groupIdle (s : State) (g : Nat) : Bool :=
  (List.range 8).all (fun i =>
    let n := 8 * g + i
    !s.live? n || (s.idle n && decide ((s.tiller n).idleAt + 1000 * max 1 (s.get F.PWR_GATE_IDLE_US) ≤ s.now)))

/-- GATE_GROUP_GATING (R476). -/
def execGateGroupGating (g : Fin 12) (s : State) : Host.Outcome State Fault Refusal :=
  if !s.groupUp .fn || !s.eng.up || !s.flag F.PWR_GATE_EN || !s.groupIdle g.val then done s s
  else done s (s.set F.PWR_GATE_GATED (putBits (s.get F.PWR_GATE_GATED) g.val 1 1))

/-- THERMAL_TRIP (R527): a junction has stayed at or above T_TRIP for 100 µs. THERMTRIP_N asserts, every group is gated and
new dispatches are held. -/
def execThermalTrip (s : State) : Host.Outcome State Fault Refusal :=
  if !s.pwr.aux || s.pwr.thermtrip || !s.mgt.hotSince.any (fun p => decide (p.2 + 100000 ≤ s.now)) then done s s
  else
    let t : State := { s with pwr := { s.pwr with thermtrip := true } }
    done s (if t.groupUp .fn then t.set F.PWR_GATE_GATED 0xFFF else t)

end Sys2Proof.Machine
end

