-- ==== Sys2Proof/Machine/Registers.lean ====
section
/-!
DEFINITION. Writes of registers that have no command of their own (R15 to R17, R498 to R506): by the access codes of the
fields that the written bytes cover.
-/

namespace Sys2Proof.Machine

/-- The lock of a register's RWL fields (R15): IVS[k].CFG.LOCK locks every register of IVS[k]. -/
def lockOf (f : Field) : Option Field :=
  if f.addr = F.HL_CTL_LOCK.addr then some F.HL_CTL_LOCK
  else if f.addr = F.CBV_CTL_LOCK.addr then some F.CBV_CTL_LOCK
  else if f.addr = F.BANK_CFG_LOCK.addr then some F.BANK_CFG_LOCK
  else if f.addr = F.IVS_BASE_GIB.addr ∨ f.addr = F.IVS_SIZE_GIB.addr then some F.IVS_CFG_LOCK
  else none

/-- Fields whose writes are commands of their own: calendar, context, invalidation, interleave, doorbell, mask, held-flow,
trace, telemetry and fault-hub writes. -/
def ownCommand : List Field :=
  [F.CTX_CFG_EN, F.CTX_CFG_PASID_EN, F.CTX_CFG_PRI_EN, F.CTX_CFG_PASID, F.IVS_CFG_CHLIST, F.IVS_CFG_CH_BASE,
   F.IVS_CFG_GRAIN_LOG, F.IVS_CFG_WAYS, F.IVS_CFG_VOL, F.IVS_CFG_VALID, F.IVS_CFG_LOCK, F.FLQ_PTRS_TAIL,
   F.FLT_SRC_CFG_MASK, F.SCH_HELD_FIND_PLAN, F.SCH_HELD_FIND_FROM, F.SCH_TRACE_CTL_EVENTS, F.SCH_TRACE_CTL_EN,
   F.SCH_TRACE_CTL_WRAP, F.SCH_TRACE_CTL_SIZE_LOG, F.TEL_CTL_EN, F.TEL_CTL_SIZE_LOG, F.TEL_IDX_SEQ, F.FT_CTL_REF_SEL,
   F.FLT_STICKY_STICKY, F.FLT_FIRST3_VALID]

/-- The bits of instance `i` of a field that a write of `len` bytes at `off` covers: their mask and their values. -/
def fieldWrite (f : Field) (i off len v : Nat) : Nat × Nat :=
  let fb := 8 * (f.addr + i * f.stride) + f.lo
  let lo := max fb (8 * off)
  let hi := min (fb + f.width) (8 * (off + len))
  if lo < hi then ((2 ^ (hi - lo) - 1) * 2 ^ (lo - fb), v / 2 ^ (lo - 8 * off) % 2 ^ (hi - lo) * 2 ^ (lo - fb)) else (0, 0)

/-- The instance of a field that an offset may name. -/
def fieldInstance (f : Field) (off : Nat) : Option Nat :=
  if off + 8 ≤ f.addr then none
  else if f.count = 1 then some 0
  else
    let i := (off - f.addr) / f.stride
    if i < f.count then some i else none

/-- Conditions of single registers: a write of FT_CTL, CAL_CMD or FLT_INJ that triggers is a command of its own; ADM_CMD and
ADM_DATA ignore writes while BUSY (R89); POOL_CTL ignores them while a plan is loaded; hardware's flash queues ignore them;
IVS[0] is read-only (R304). -/
def State.writable (s : State) (f : Field) (i off v : Nat) : Bool :=
  if f.addr = F.CAL_CMD_INDEX.addr then decide (off % 8 = 0) && (fieldWrite F.CAL_CMD_OP 0 off 4 v).2 == 0
  else if f.addr = F.FLT_INJ_SOURCE.addr then decide (off % 8 = 0) && (fieldWrite F.FLT_INJ_GO 0 off 4 v).2 == 0
  else if f.addr = F.ADM_CMD_CMD.addr || f.addr = F.ADM_DATA_DATA.addr then !s.flag F.ADM_STATUS_BUSY
  else if f.addr = F.POOL_CTL_SYS_RESERVE.addr then s.eng.plans.isEmpty
  else if 0x72000 ≤ f.addr ∧ f.addr ≤ 0x72018 then decide (20 ≤ i ∧ i < 24)
  else if f.addr = F.IVS_BASE_GIB.addr ∨ f.addr = F.IVS_SIZE_GIB.addr then i != 0
  else true

/-- What a field holds after a write of some of its bits, by its access code (R15, R458). -/
def Access.apply (c : Access) (locked : Bool) (old mask new : Nat) : Nat :=
  match c with
  | .rw => old - (old &&& mask) + new
  | .rwl => if locked then old else old - (old &&& mask) + new
  | .w1c => old - (old &&& new)
  | .w1s => old ||| new
  | .ro => old
  | .wo => old

/-- One field under a write: nothing happens to a privileged one written by the host, to one of a group that is down or held
in reset, or to one whose write is a command of its own (R501, R506). `before` is the state ahead of the whole write, whose
lock governs (R505). -/
def State.writeField (before : State) (w : RegWriter) (off len v : Nat) (s : State) (f : Field) : State :=
  match fieldInstance f off with
  | none => s
  | some i =>
    let m := fieldWrite f i off len v
    if m.1 = 0 || f.access == .ro || f.access == .wo || (f.priv && w == .host) || !s.groupUp (f.group i) ||
        ownCommand.any (fun g => g.id == f.id) || !before.writable f i off v then s
    else
      let locked := ((lockOf f).map (fun g => before.getN g (if g.count = 1 then 0 else i) == 1)).getD false
      s.setN f i (f.access.apply locked (s.getN f i) m.1 m.2)

/-- The admin mailbox's buffers, which accept any width (R502). -/
def inBuffers (off : Nat) : Bool := decide (off < 0x40) || (decide (0x800 ≤ off) && decide (off < 0x1000))

/-- The two dwords of a 64-bit number. -/
def putHalf (old : Nat) (high : Bool) (v : Nat) : Nat := if high then old % 2 ^ 32 + v * 2 ^ 32 else old / 2 ^ 32 * 2 ^ 32 + v

/-- One aligned dword of the MSI-X table (R498): address, data, and the mask bit of vector control. Clearing it is
MSIX_UNMASK. -/
def State.writeMsix (s : State) (off v : Nat) : State :=
  let n := (off - 0xE00000) / 16
  let e := s.msixEntry n
  let e : MsixEntry := match off % 16 / 4 with
    | 0 => { e with addr := putHalf e.addr false v }
    | 1 => { e with addr := putHalf e.addr true v }
    | 2 => { e with data := v }
    | _ => { e with masked := e.masked || bitOf v 0 }
  { s with link := { s.link with msix := s.link.msix.set n e } }

/-- REGISTER_WRITE (R15, R501, R502): a host's write over the link, or a firmware core's. -/
def execRegisterWrite (w : RegWriter) (offset : BitVec 24) (size : AccessSize) (value : Dword) (s : State) :
    Host.Outcome State Fault Refusal :=
  let off := offset.toNat
  let len := match size with
    | .four => 4
    | .eight => 8
  let v := value.toNat % 2 ^ (8 * len)
  let reach := match w with
    | .host => s.linkUp
    | .firmware => s.mainUp
  if !reach || !(decide (off % len = 0) || inBuffers off) then done s s
  else if 0xE00000 ≤ off ∧ off < 0xE01000 then
    let t := s.writeMsix off (v % 2 ^ 32)
    done s (match size with
      | .four => t
      | .eight => t.writeMsix (off + 4) (v / 2 ^ 32))
  else done s (allFields.foldl (State.writeField s w off len v) s)

end Sys2Proof.Machine
end

