-- ==== Sys2Proof/Machine/Translation.lean ====
section
/-!
DEFINITION. What comes back to the translation unit and to bus-master DMA (R274, R275, R284 to R293): read completions,
translations, page responses and invalidations.
-/

namespace Sys2Proof.Machine

/-! ### Requesters that wait (R292, R293) -/

/-- The row of a task's error word at a DMA stop: for SCAN the value of the column that it stands at (R199, R202). -/
def Task.faultRow (t : Task) : Nat :=
  match t.scan with
  | some c => c.value
  | none => t.row

/-- The tasks that wait on something. -/
def State.waitingOn (s : State) (w : PageWait) : List Task :=
  s.eng.tasks.filter (fun t => t.state == .waitPage && t.waits.contains w)

/-- Wait lists with one place in them changed. -/
def PageWait.swap (w v : PageWait) (l : List PageWait) : List PageWait := l.map (fun x => if x = w then v else x)

/-- Wait lists with one place resolved. -/
def PageWait.solve (w : PageWait) (l : List PageWait) : List PageWait := l.filter (fun x => x != w)

/-- Applies a change to what commands, pairs and the trace wait on. -/
def State.mapWaits (s : State) (f : List PageWait → List PageWait) : State :=
  ({ s with mbx := { s.mbx with
      accepted := s.mbx.accepted.map (fun a => { a with waits := f a.waits }),
      pairs := s.mbx.pairs.map (fun p => (p.1, { p.2 with waits := f p.2.waits, sqWaits := f p.2.sqWaits })) } } : State).mapEng
    (fun e => { e with traceWaits := f e.traceWaits })

/-- What waits on something is resolved: a task with nothing left to wait on is READY (R293), a command goes on with what it
owes, and trace records go out. -/
def State.resumeWait (s : State) (w : PageWait) : State :=
  let s := (s.waitingOn w).foldl (fun s t =>
    let u := { t with waits := w.solve t.waits }
    if u.waits.isEmpty then s.makeReady u 3 else s.setTask u) s
  ((s.mapWaits w.solve).settleOwed).drainTrace 64

/-- What is waited on becomes something else. -/
def State.moveWait (s : State) (w v : PageWait) : State :=
  (s.mapEng (fun e => { e with tasks := e.tasks.map (fun t =>
    if t.state = .waitPage && t.waits.contains w then { t with waits := w.swap v t.waits } else t) })).mapWaits (w.swap v)

/-- Someone waits on something. -/
def State.awaited (s : State) (w : PageWait) : Bool :=
  !(s.waitingOn w).isEmpty || s.mbx.accepted.any (fun a => a.waits.contains w) ||
  s.mbx.pairs.any (fun p => p.2.waits.contains w || p.2.sqWaits.contains w) || s.eng.traceWaits.contains w

/-- What waits on a host page stops with HOST_FAULT: tasks and commands (R286, R287, R295); a pair's CQ write or SQ fetch fails
(R113), and a trace record is dropped (R268). -/
def State.stopWait (s : State) (w : PageWait) (ctx page detail : Nat) : State :=
  let at_ := fun (s : State) => s.captureFault DmaErr.hostFault ctx (page * 4096) false
  let s := (s.waitingOn w).foldl (fun s t => (at_ s).stopDma { t with waits := [] } DmaErr.hostFault detail t.faultRow) s
  let s := (s.mbx.accepted.filter (fun a => a.waits.contains w)).foldl (fun s a => (at_ s).stopCmd a DmaErr.hostFault detail) s
  let sq := (s.mbx.pairs.filter (fun p => p.2.sqWaits.contains w)).map (·.1)
  let cq := (s.mbx.pairs.filter (fun p => p.2.waits.contains w)).map (·.1)
  let tr := s.eng.traceWaits.contains w
  let s := s.mapWaits w.solve
  let s := cq.foldl State.cqFails (sq.foldl (fun s n => s.pairError n 2) s)
  if tr then (s.bump C.schDrop).popTrace.drainTrace 64 else s

/-! ### Read completions (R291) -/

/-- Commands whose data the mailbox reads from host memory (R108). -/
def cmdReads (c : Line) : Bool :=
  [0x02, 0x06, 0x20, 0x21, 0x28, 0x29, 0x30, 0x32, 0x40, 0x42, 0x44].contains (cmdOpcode c) && decide (0 < cmdLen c)

/-- The command of a mailbox whose data is being read: the one that would begin next, or an INGEST in progress that waits on no
page. -/
def State.readingCmd (s : State) (m : Mailbox) : Option Accepted :=
  match s.nextCmd m cmdReads with
  | some a => if a.inline then none else some a
  | none => s.mbx.accepted.find? (fun a => a.mb == m && a.begun && a.waits.isEmpty && cmdOpcode a.cmd == Op.ingest)

/-- A tiller whose host read is over, and whose task has been discarded or has left it, is idle (R177). -/
def State.endHostRead (s : State) (n : Nat) : State :=
  let x := s.tiller n
  s.setTiller n { x with read := none, idleAt := if x.task.isNone then s.now else x.idleAt, fresh := x.fresh || x.task.isNone }

/-- Data arrives for a tiller's read: with the last byte the task has it. -/
def State.readData (s : State) (n : Nat) (r : HostRead) (b : List Byte) : State :=
  let got := (r.got ++ b).take r.len
  if got.length < r.len then
    (s.setTiller n { s.tiller n with read := some { r with got := got, ends := r.ends.filter (fun e => decide (got.length < e)) } }).sendWaiting
  else
    let s := (s.endHostRead n).sendWaiting
    match r.task.bind s.task? with
    | some t => s.setTask { t with data := t.data ++ [{ ctx := r.ctx, addr := r.addr, bytes := got }] }
    | none => s

/-- A tiller's read fails: its task stops (R291, R295). -/
def State.readFails (s : State) (n : Nat) (r : HostRead) (code detail : Nat) : State :=
  let s := (s.endHostRead n).sendWaiting
  match r.task.bind s.task? with
  | some t => (s.captureFault code r.ctx r.addr false).stopDma t code detail t.faultRow
  | none => s

/-- The AER error of a failed completion (R81, R291) with its fault source. -/
def State.reportAer (s : State) (k : LinkErrorKind) (source : Nat) : State := (s.emit (.aer k)).raise source 0 0

/-- A read of a requester fails with a code: a tiller's task or a mailbox's command stops. -/
def State.requestFails (s : State) (r : DmaRequester) (k : LinkErrorKind) (source code detail : Nat) : State :=
  match r with
  | .tiller n =>
    match (s.tiller n.toNat).read with
    | some x => ((s.reportAer k source).readFails n.toNat x code detail).schedule
    | none => s
  | .mailbox m =>
    match s.readingCmd m with
    | some a => ((s.reportAer k source).captureFault code (s.mailboxCtx a.mb) (cmdAddr a.cmd) false).stopCmd a code detail
    | none => s

/-- HOST_READ_COMPLETION (R291). -/
def execHostReadCompletion (r : DmaRequester) (status : CplStatus) (s : State) : Host.Outcome State Fault Refusal :=
  if !r.ok then .fault .illFormed
  else if !s.groupUp .ln then done s s
  else
    match status with
    | .poisoned => done s (s.requestFails r .poisonedTlp 18 DmaErr.poison 1)
    | .aborted ca => done s (s.requestFails r .completionError 19 DmaErr.abort (if ca then 2 else 1))
    | .data b =>
      match r with
      | .tiller n =>
        match (s.tiller n.toNat).read with
        | some x => done s ((s.readData n.toNat x b).schedule)
        | none => done s s
      | .mailbox _ => done s s

/-- COMPLETION_TIMEOUT (R291). -/
def execCompletionTimeout (r : DmaRequester) (s : State) : Host.Outcome State Fault Refusal :=
  if !r.ok then .fault .illFormed
  else if !s.groupUp .ln then done s s
  else done s (s.requestFails r .completionError 19 DmaErr.timeout 0)

/-! ### Page requests (R286, R287) -/

/-- Page request groups that have been sent. -/
def State.groupsSent (s : State) : Nat := (s.eng.tlu.groups.filter (fun g => g.sentAt.isSome)).length

/-- Sends the page request of a group. -/
def State.sendGroup (s : State) (g : PageGroup) : State :=
  let s := s.mapTlu (fun t => { t with groups := t.groups.map (fun x =>
    if x.ctx = g.ctx ∧ x.page = g.page then { x with sentAt := some s.now } else x) })
  (s.emit (.pageReq (s.viaAsk g.ctx) g.page g.write true)).bump C.tluPri

/-- A group has gone: the next one waiting for its place is sent (R286). -/
def State.nextGroup (s : State) : State :=
  match s.eng.tlu.groups.find? (fun g => g.sentAt.isNone && s.priOn g.ctx) with
  | some g => if s.groupsSent < 512 then s.sendGroup g else s
  | none => s

/-- Removes a group. -/
def State.dropGroup (s : State) (ctx page : Nat) : State :=
  s.mapTlu (fun t => { t with groups := t.groups.filter (fun g => !(g.ctx == ctx && g.page == page)) })

/-- The requesters of a denied translation wait for a page request, a new one or the pending one (R286); that one's page is asked
for again with write permission where one of them writes (R287). -/
def State.pageRequest (s : State) (r : TransReq) : State :=
  let s := s.moveWait (.trans r.id) (.group r.ctx r.page)
  if s.eng.tlu.groups.any (fun g => g.ctx == r.ctx && g.page == r.page) then
    s.mapTlu (fun t => { t with groups := t.groups.map (fun g =>
      if g.ctx = r.ctx ∧ g.page = r.page then { g with write := g.write || r.write } else g) })
  else
    let g : PageGroup := { ctx := r.ctx, page := r.page, write := r.write, sentAt := none }
    let full := decide (512 ≤ s.groupsSent)
    let s := s.mapTlu (fun t => { t with groups := t.groups ++ [g] })
    if full then s else s.sendGroup g

/-- The size at which the IOTLB stores a translation (R282): 4 KiB, 2 MiB or 1 GiB. -/
def tlbSize (log : Nat) : Nat := if 18 ≤ log then 18 else if 9 ≤ log then 9 else 0

/-- Fills the IOTLB from a translation (R282, R285). -/
def State.fillHost (s : State) (r : TransReq) (frame log : Nat) (read write : Bool) : State :=
  let size := tlbSize log
  let page := r.page / 2 ^ size * 2 ^ size
  s.tlbFill { kind := .host r.ctx, page := page, log := size, frame := frame / 2 ^ log * 2 ^ log + (page - page / 2 ^ log * 2 ^ log),
              read := read, write := write }

/-- A translation that does not give what was asked for (R286, R287). -/
def State.denied (s : State) (r : TransReq) : State :=
  if r.second then s.stopWait (.trans r.id) r.ctx r.page 6
  else if s.priOn r.ctx then s.pageRequest r
  else s.stopWait (.trans r.id) r.ctx r.page 2

/-- The pages that an answer covers meet a range that an invalidation took while it was under way (R288). -/
def TransReq.overtaken (r : TransReq) (answer : TransAnswer) : Bool :=
  let log := match answer with
    | .granted _ log _ _ _ => log.toNat
    | _ => 0
  let page := r.page / 2 ^ log * 2 ^ log
  r.stale.any (fun i => decide (i.1 < page + 2 ^ log) && decide (page < i.1 + 2 ^ i.2))

/-- TRANSLATION_COMPLETION (R285 to R288). An answer overtaken by an invalidation is used for nothing: it is asked again. -/
def execTranslationCompletion (id : Nat) (answer : TransAnswer) (s : State) : Host.Outcome State Fault Refusal :=
  match (s.eng.tlu.reqs.take 64).find? (fun r => r.id == id) with
  | none => done s s
  | some r =>
    if r.overtaken answer then
      let t := s.mapTlu (fun t => { t with reqs := t.reqs.map (fun x => if x.id = id then { x with stale := [] } else x) })
      done s (t.emit (.transReq r.id (s.viaAsk r.ctx) r.page r.write))
    else
      let t := (s.mapTlu (fun t => { t with reqs := t.reqs.filter (fun x => x.id != id) })).sendNextTrans
      match answer with
      | .granted frame log read write _ =>
        if if r.write then write else read then
          done s (((t.fillHost r frame.toNat log.toNat read write).resumeWait (.trans id)).schedule)
        else done s (t.denied r).schedule
      | .denied => done s (t.denied r).schedule
      | .aborted => done s (t.stopWait (.trans id) r.ctx r.page 1).schedule

/-- Response Failure (R287): PRI_STOPPED, the capability's status, source 50, and every group stops its requesters. -/
def State.prgFailure (s : State) : State :=
  let s := s.set F.TLU_STATUS_PRI_STOPPED 1
  let s := { s with link := { s.link with priFailure := true } }
  let gs := s.eng.tlu.groups
  let s := s.mapTlu (fun t => { t with groups := [] })
  (gs.foldl (fun s g => s.stopWait (.group g.ctx g.page) g.ctx g.page 4) s).raiseLive 50 0 0

/-- PRG_RESPONSE (R287): success 0, invalid request 1; any other code is a response failure. -/
def execPrgResponse (ctx : BitVec 8) (page : BitVec 52) (code : BitVec 4) (s : State) : Host.Outcome State Fault Refusal :=
  let c := ctx.toNat
  let p := page.toNat
  match s.eng.tlu.groups.find? (fun g => g.ctx == c && g.page == p && g.sentAt.isSome) with
  | none => done s s
  | some g =>
    match code.toNat with
    | 0 =>
      let t := s.dropGroup c p
      if !t.awaited (.group c p) then done s t.nextGroup
      else
        let r := t.requestTrans c p g.write true
        done s ((r.1.moveWait (.group c p) (.trans r.2)).nextGroup)
    | 1 => done s ((((s.dropGroup c p).stopWait (.group c p) c p 3).nextGroup).schedule)
    | _ => if s.awaited (.group c p) then done s s.prgFailure.schedule else done s (s.dropGroup c p).nextGroup

/-- PAGE_RESPONSE_TIMEOUT (R287). -/
def execPageResponseTimeout (ctx : BitVec 8) (page : BitVec 52) (s : State) : Host.Outcome State Fault Refusal :=
  let c := ctx.toNat
  let p := page.toNat
  let ms := s.get F.TLU_CTL_PRI_TO_MS
  match s.eng.tlu.groups.find? (fun g => g.ctx == c && g.page == p) with
  | some { ctx := _, page := _, write := _, sentAt := some t0 } =>
    if ms = 0 || decide (s.now < t0 + ms * 1000000) then done s s
    else done s ((((s.dropGroup c p).stopWait (.group c p) c p 5).nextGroup).schedule)
  | _ => done s s

/-- PRI_ENABLE_TOGGLE (R287): host software clears PRI Enable and sets it again, with the ATS capability enabled or not:
Page Requests may be sent again. -/
def execPriEnableToggle (ats : Bool) (s : State) : Host.Outcome State Fault Refusal :=
  if !s.groupUp .fn then done s s
  else done s ({ s with link := { s.link with atsEnable := ats, priEnable := true } }.set F.TLU_STATUS_PRI_STOPPED 0 |>.clearLive 50)

/-! ### Invalidation (R284, R288) -/

/-- ATS_INVALIDATION_REQUEST (R288): matching entries go, and translations asked for before it are not used. -/
def execAtsInvalidationRequest (ctx : BitVec 8) (first : BitVec 52) (pagesLog : BitVec 6) (tag : BitVec 5) (s : State) :
    Host.Outcome State Fault Refusal :=
  let c := ctx.toNat
  let log := pagesLog.toNat
  let page := first.toNat / 2 ^ log * 2 ^ log
  if !s.groupUp .ln || decide (32 ≤ s.eng.tlu.invals.length) then done s s
  else
    let t := s.tlbDrop (fun e => e.kind == .host c && e.meets page log)
    done s (t.mapTlu (fun u => { u with
      reqs := (u.reqs.take 64).map (fun r => if r.ctx = c then { r with stale := r.stale ++ [(page, log)] } else r) ++ u.reqs.drop 64,
      invals := u.invals ++ [{ tag := tag.toNat, ctx := c, page := page, log := log }] }))

/-- A host read is outstanding in the range of an invalidation. -/
def State.readsIn (s : State) (i : Inval) : Bool :=
  s.eng.tillers.any (fun x => (x.2.read.map (fun r => r.ctx == i.ctx && decide (r.addr / 4096 < i.page + 2 ^ i.log) &&
    decide (i.page ≤ (r.addr + r.len - 1) / 4096))).getD false)

/-- ATS_INVALIDATION_COMPLETE (R288). -/
def execAtsInvalidationComplete (tag : BitVec 5) (s : State) : Host.Outcome State Fault Refusal :=
  match s.eng.tlu.invals.find? (fun i => i.tag == tag.toNat) with
  | some i =>
    if s.readsIn i then done s s
    else
      done s (((s.mapTlu (fun t => { t with invals := t.invals.erase i })).emit (.invalDone i.tag)).bump C.tluInval)
  | none => done s s

/-- TLU_INVAL (R284): device-region or Granary entries by range, or every entry of the kind. -/
def execTluInval (v : Dword) (s : State) : Host.Outcome State Fault Refusal :=
  if !s.mainUp then done s s
  else
    let n := v.toNat
    let kind := if bitsOf n 1 0 = 1 then some TlbKind.device else if bitsOf n 1 0 = 2 then some TlbKind.granary else none
    let log := bitsOf n 11 4
    done s (s.tlbDrop (fun e => some e.kind == kind && (log == 255 || e.meets (bitsOf n 63 12) log)))

/-- CTX_CFG_WRITE (R275): ignored while the context has users; EN of context 0 ignores writes (R274). -/
def execCtxCfgWrite (n : BitVec 8) (v : Dword) (s : State) : Host.Outcome State Fault Refusal :=
  if !s.groupUp .fn || s.ctxUsers n.toNat != 0 then done s s
  else
    let t := ((s.setN F.CTX_CFG_PASID_EN n.toNat (bitsOf v.toNat 30 30)).setN F.CTX_CFG_PRI_EN n.toNat (bitsOf v.toNat 29 29)).setN
      F.CTX_CFG_PASID n.toNat (bitsOf v.toNat 19 0)
    done s (if n = 0 then t else t.setN F.CTX_CFG_EN n.toNat (bitsOf v.toNat 31 31))

/-! ### Restored pages (R293, R374) -/

/-- FETCH_COMPLETE (R373, R374): the page is restored, or restored as lost, and what waited for it goes on. -/
def execFetchComplete (page : BitVec 28) (ok : Bool) (written : CopyResult) (s : State) : Host.Outcome State Fault Refusal :=
  let p := page.toNat
  if !s.groupUp .g || s.pwr.failed || !s.fetchRuns p || !s.grn.unrestored.mem p then done s s
  else done s (((((s.restorePage p ok).resumeWait (.window p))).restoreDone written).schedule)

end Sys2Proof.Machine
end

