-- ==== Sys2Proof/Machine/Sram.lean ====
section
/-!
DEFINITION. The gleaner's patrol of on-die SRAM (R34, R36, R438, R449, R450).
-/

namespace Sys2Proof.Machine

/-- An uncorrectable pool error poisons the buffer, if it is in use (R450). -/
def State.poisonBuffer (s : State) (b : Nat) : State :=
  let s := s.raise 40 (b / 6144) 0
  if s.eng.used.mem b && !s.eng.poisoned.contains b then s.mapEng (fun e => { e with poisoned := b :: e.poisoned }) else s

/-- Both copies of a landing-buffer line fail (R36, R438): the line is lost, and its place in DRAM poisoned. -/
def State.loseLanding (s : State) (line : Nat) : State :=
  match s.grn.landing.find? (fun l => l.line == line) with
  | some l =>
    let s : State := { s with grn := { s.grn with landing := s.grn.landing.erase l } }
    (s.poisonLine (grnBase + 64 * line)).raise 109 0 0
  | none => s

/-- An uncorrectable block of the dirty map: every bit of it is set (R438). -/
def State.loseDirtyBlock (s : State) (block : Nat) : State :=
  let lo := 32768 * block
  let hi := min (lo + 32768) s.windowPages
  let s := s.raise 108 0 0
  if lo < hi then ({ s with grn := { s.grn with dirty := s.grn.dirty.insertRange lo hi } } : State).levels else s

/-- What a slice finds takes its effect. -/
def State.sramFinding (s : State) : SramFinding → State
  | .clean => s
  | .poolCorrected die => s.raise 39 die.toNat 0
  | .poolUncorrectable b => s.poisonBuffer b.toNat
  | .landingCopy _ => s.raise 106 0 0
  | .landingBoth line => s.loseLanding line
  | .dirtyMapCorrected => s.raise 107 0 0
  | .dirtyMapLost block => s.loseDirtyBlock block.toNat
  | .scratchCorrected t => s.raise 35 t.toNat 0
  | .scratchUncorrectable t => s.tillerFault 36 t.toNat
  | .datapathParity t => s.tillerFault 37 t.toNat

/-- SRAM_SCRUB_SLICE (R34): a firing of target 0x03; the operand is what the slice finds in the SRAM that its ARG
selects. -/
def execSramScrubSlice (found : SramFinding) (s : State) : Host.Outcome State Fault Refusal :=
  if !found.ok then .fault .illFormed
  else if !s.mainUp then done s s
  else
    match s.takeSlot 3 with
    | some (_, t) => done s (t.sramFinding found).schedule
    | none => done s s

end Sys2Proof.Machine
end

