-- ==== Sys2Proof/Machine/Dispatch.lean ====
section
/-!
DEFINITION. The meaning of every command, one arm each.
-/

namespace Sys2Proof.Machine

def exec (i : Instr) (s : State) : Host.Outcome State Fault Refusal :=
  match i with
  | .admDoorbellGo => Sys2Proof.Machine.execAdmDoorbellGo s
  | .sqTailWrite n v => Sys2Proof.Machine.execSqTailWrite n v s
  | .cqHeadWrite n v => Sys2Proof.Machine.execCqHeadWrite n v s
  | .commandAccept n fetched => Sys2Proof.Machine.execCommandAccept n fetched s
  | .invalidOpcode m => Sys2Proof.Machine.execInvalidOpcode m s
  | .heldCompletionWrite n written => Sys2Proof.Machine.execHeldCompletionWrite n written s
  | .coalesceTimerExpiry n => Sys2Proof.Machine.execCoalesceTimerExpiry n s
  | .msixUnmask v => Sys2Proof.Machine.execMsixUnmask v s
  | .identify m => Sys2Proof.Machine.execIdentify m s
  | .fwDownload m data => Sys2Proof.Machine.execFwDownload m data s
  | .fwCommit m found => Sys2Proof.Machine.execFwCommit m found s
  | .deviceReset m => Sys2Proof.Machine.execDeviceReset m s
  | .deviceResetLoadCommitted m => Sys2Proof.Machine.execDeviceResetLoadCommitted m s
  | .optionRead m flash => Sys2Proof.Machine.execOptionRead m flash s
  | .optionWrite m record flash => Sys2Proof.Machine.execOptionWrite m record flash s
  | .createPair m => Sys2Proof.Machine.execCreatePair m s
  | .deletePair m => Sys2Proof.Machine.execDeletePair m s
  | .bindVector m => Sys2Proof.Machine.execBindVector m s
  | .unbindVector m => Sys2Proof.Machine.execUnbindVector m s
  | .ftLoad m => Sys2Proof.Machine.execFtLoad m s
  | .setPacing m => Sys2Proof.Machine.execSetPacing m s
  | .planLoad m image heads => Sys2Proof.Machine.execPlanLoad m image heads s
  | .planLoadValidate m image heads => Sys2Proof.Machine.execPlanLoadValidate m image heads s
  | .planStart m params => Sys2Proof.Machine.execPlanStart m params s
  | .planCancel m => Sys2Proof.Machine.execPlanCancel m s
  | .teardownComplete slot => Sys2Proof.Machine.execTeardownComplete slot s
  | .planUnload m => Sys2Proof.Machine.execPlanUnload m s
  | .planStatus m => Sys2Proof.Machine.execPlanStatus m s
  | .flowRelease m => Sys2Proof.Machine.execFlowRelease m s
  | .flowCancel m => Sys2Proof.Machine.execFlowCancel m s
  | .ingest m data => Sys2Proof.Machine.execIngest m data s
  | .appendBlock m data => Sys2Proof.Machine.execAppendBlock m data s
  | .granaryCreate m config written => Sys2Proof.Machine.execGranaryCreate m config written s
  | .granaryTune m config written => Sys2Proof.Machine.execGranaryTune m config written s
  | .granaryFormat m config written => Sys2Proof.Machine.execGranaryFormat m config written s
  | .granaryResume m config => Sys2Proof.Machine.execGranaryResume m config s
  | .granaryDump m => Sys2Proof.Machine.execGranaryDump m s
  | .flashSubmit m descriptor => Sys2Proof.Machine.execFlashSubmit m descriptor s
  | .keyLoad m key => Sys2Proof.Machine.execKeyLoad m key s
  | .keyDiscard m => Sys2Proof.Machine.execKeyDiscard m s
  | .digestPlain m msg => Sys2Proof.Machine.execDigestPlain m msg s
  | .digestHmac m msg slotOk => Sys2Proof.Machine.execDigestHmac m msg slotOk s
  | .mrRead m => Sys2Proof.Machine.execMrRead m s
  | .mrExtend m data => Sys2Proof.Machine.execMrExtend m data s
  | .faultConfig m => Sys2Proof.Machine.execFaultConfig m s
  | .faultInject m => Sys2Proof.Machine.execFaultInject m s
  | .spillConfig m => Sys2Proof.Machine.execSpillConfig m s
  | .timeRefEdge => Sys2Proof.Machine.execTimeRefEdge s
  | .refWindowEnd part => Sys2Proof.Machine.execRefWindowEnd part s
  | .timeRefLoss => Sys2Proof.Machine.execTimeRefLoss s
  | .ppsEdge rising => Sys2Proof.Machine.execPpsEdge rising s
  | .ppsMissingTimeout => Sys2Proof.Machine.execPpsMissingTimeout s
  | .arm => Sys2Proof.Machine.execArm s
  | .disarm => Sys2Proof.Machine.execDisarm s
  | .armExpiry => Sys2Proof.Machine.execArmExpiry s
  | .refSelChange v => Sys2Proof.Machine.execRefSelChange v s
  | .ftNowLowRead r => Sys2Proof.Machine.execFtNowLowRead r s
  | .ftNowHighRead r => Sys2Proof.Machine.execFtNowHighRead r s
  | .calendarEvaluation => Sys2Proof.Machine.execCalendarEvaluation s
  | .commitEntry w index => Sys2Proof.Machine.execCommitEntry w index s
  | .clearEntry index => Sys2Proof.Machine.execClearEntry index s
  | .readEntry index => Sys2Proof.Machine.execReadEntry index s
  | .windowCloseAccept => Sys2Proof.Machine.execWindowCloseAccept s
  | .dramScrubSlice found => Sys2Proof.Machine.execDramScrubSlice found s
  | .sramScrubSlice found => Sys2Proof.Machine.execSramScrubSlice found s
  | .vaultScrubSlice failed => Sys2Proof.Machine.execVaultScrubSlice failed s
  | .retrainingSlot => Sys2Proof.Machine.execRetrainingSlot s
  | .capacitanceMeasurement v0 => Sys2Proof.Machine.execCapacitanceMeasurement v0 s
  | .measurementV1Sample v1 => Sys2Proof.Machine.execMeasurementV1Sample v1 s
  | .measurementT2 => Sys2Proof.Machine.execMeasurementT2 s
  | .measurementTimeout => Sys2Proof.Machine.execMeasurementTimeout s
  | .winnowerLowPass => Sys2Proof.Machine.execWinnowerLowPass s
  | .telemetrySample => Sys2Proof.Machine.execTelemetrySample s
  | .firmwareInterrupt => Sys2Proof.Machine.execFirmwareInterrupt s
  | .linkTraining width speed alternate => Sys2Proof.Machine.execLinkTraining width speed alternate s
  | .cxlMemWrite hpa data poison => Sys2Proof.Machine.execCxlMemWrite hpa data poison s
  | .cxlMemRead hpa tag => Sys2Proof.Machine.execCxlMemRead hpa tag s
  | .globalPersistentFlush second => Sys2Proof.Machine.execGlobalPersistentFlush second s
  | .hdmDecoderCommit decoder base size ways granularity => Sys2Proof.Machine.execHdmDecoderCommit decoder base size ways granularity s
  | .getEventRecords log => Sys2Proof.Machine.execGetEventRecords log s
  | .clearEventRecords log all handles => Sys2Proof.Machine.execClearEventRecords log all handles s
  | .getEventInterruptPolicy => Sys2Proof.Machine.execGetEventInterruptPolicy s
  | .setEventInterruptPolicy policy => Sys2Proof.Machine.execSetEventInterruptPolicy policy s
  | .getFwInfo => Sys2Proof.Machine.execGetFwInfo s
  | .getTimestamp => Sys2Proof.Machine.execGetTimestamp s
  | .setTimestamp v => Sys2Proof.Machine.execSetTimestamp v s
  | .getSupportedLogs => Sys2Proof.Machine.execGetSupportedLogs s
  | .getLog log offset length => Sys2Proof.Machine.execGetLog log offset length s
  | .identifyMemoryDevice => Sys2Proof.Machine.execIdentifyMemoryDevice s
  | .getPartitionInfo => Sys2Proof.Machine.execGetPartitionInfo s
  | .getLsa offset length => Sys2Proof.Machine.execGetLsa offset length s
  | .setLsa offset data => Sys2Proof.Machine.execSetLsa offset data s
  | .getHealthInfo => Sys2Proof.Machine.execGetHealthInfo s
  | .getAlertConfiguration => Sys2Proof.Machine.execGetAlertConfiguration s
  | .setAlertConfiguration config => Sys2Proof.Machine.execSetAlertConfiguration config s
  | .getShutdownState => Sys2Proof.Machine.execGetShutdownState s
  | .setShutdownState v => Sys2Proof.Machine.execSetShutdownState v s
  | .getPoisonList start length => Sys2Proof.Machine.execGetPoisonList start length s
  | .injectPoison dpa => Sys2Proof.Machine.execInjectPoison dpa s
  | .clearPoison dpa data => Sys2Proof.Machine.execClearPoison dpa data s
  | .scanMediaCapabilities start length => Sys2Proof.Machine.execScanMediaCapabilities start length s
  | .scanMedia start length => Sys2Proof.Machine.execScanMedia start length s
  | .scanMediaResults => Sys2Proof.Machine.execScanMediaResults s
  | .cxlUnsupportedOpcode opcode => Sys2Proof.Machine.execCxlUnsupportedOpcode opcode s
  | .linkError error => Sys2Proof.Machine.execLinkError error s
  | .surpriseLinkDown => Sys2Proof.Machine.execSurpriseLinkDown s
  | .hostReadCompletion r status => Sys2Proof.Machine.execHostReadCompletion r status s
  | .completionTimeout r => Sys2Proof.Machine.execCompletionTimeout r s
  | .translationCompletion id answer => Sys2Proof.Machine.execTranslationCompletion id answer s
  | .prgResponse ctx page code => Sys2Proof.Machine.execPrgResponse ctx page code s
  | .pageResponseTimeout ctx page => Sys2Proof.Machine.execPageResponseTimeout ctx page s
  | .atsInvalidationRequest ctx first pagesLog tag => Sys2Proof.Machine.execAtsInvalidationRequest ctx first pagesLog tag s
  | .atsInvalidationComplete tag => Sys2Proof.Machine.execAtsInvalidationComplete tag s
  | .tluInval v => Sys2Proof.Machine.execTluInval v s
  | .ctxCfgWrite n v => Sys2Proof.Machine.execCtxCfgWrite n v s
  | .taskDispatch t => Sys2Proof.Machine.execTaskDispatch t s
  | .yieldPoint t => Sys2Proof.Machine.execYieldPoint t s
  | .taskEnd t => Sys2Proof.Machine.execTaskEnd t s
  | .starvationPromotion slot => Sys2Proof.Machine.execStarvationPromotion slot s
  | .heldFlowSearch v => Sys2Proof.Machine.execHeldFlowSearch v s
  | .traceEnable v => Sys2Proof.Machine.execTraceEnable v s
  | .scanFollowPoll slot op head => Sys2Proof.Machine.execScanFollowPoll slot op head s
  | .scanStripeTask t => Sys2Proof.Machine.execScanStripeTask t s
  | .filterBatch t => Sys2Proof.Machine.execFilterBatch t s
  | .computeBatch t => Sys2Proof.Machine.execComputeBatch t s
  | .hashJoinBuild t => Sys2Proof.Machine.execHashJoinBuild t s
  | .hashJoinProbe t => Sys2Proof.Machine.execHashJoinProbe t s
  | .sortRun t => Sys2Proof.Machine.execSortRun t s
  | .mergeTask t => Sys2Proof.Machine.execMergeTask t s
  | .hashAggTask t => Sys2Proof.Machine.execHashAggTask t s
  | .sortedAggTask t => Sys2Proof.Machine.execSortedAggTask t s
  | .windowAggDataTask t => Sys2Proof.Machine.execWindowAggDataTask t s
  | .closeTask t => Sys2Proof.Machine.execCloseTask t s
  | .endOfStreamWork t => Sys2Proof.Machine.execEndOfStreamWork t s
  | .topkTask t => Sys2Proof.Machine.execTopkTask t s
  | .exchangeTask t => Sys2Proof.Machine.execExchangeTask t s
  | .materializeStripeWrite t => Sys2Proof.Machine.execMaterializeStripeWrite t s
  | .dramRequest bank ecc => Sys2Proof.Machine.execDramRequest bank ecc s
  | .agePromotion bank => Sys2Proof.Machine.execAgePromotion bank s
  | .refresh ch rank => Sys2Proof.Machine.execRefresh ch rank s
  | .dimmSensorRead ch reading => Sys2Proof.Machine.execDimmSensorRead ch reading s
  | .dqsOscillatorRead ch rank drift => Sys2Proof.Machine.execDqsOscillatorRead ch rank drift s
  | .retrainingEnd ch pass => Sys2Proof.Machine.execRetrainingEnd ch pass s
  | .powerDownEntry ch rank => Sys2Proof.Machine.execPowerDownEntry ch rank s
  | .selfRefreshEntry ch rank => Sys2Proof.Machine.execSelfRefreshEntry ch rank s
  | .caParityError ch rank again => Sys2Proof.Machine.execCaParityError ch rank again s
  | .retire ch rank => Sys2Proof.Machine.execRetire ch rank s
  | .retrain ch rank => Sys2Proof.Machine.execRetrain ch rank s
  | .migrationUnitCopy ch => Sys2Proof.Machine.execMigrationUnitCopy ch s
  | .ivsCfgWrite n v => Sys2Proof.Machine.execIvsCfgWrite n v s
  | .landingBufferDrain check => Sys2Proof.Machine.execLandingBufferDrain check s
  | .bankSenseSample mv => Sys2Proof.Machine.execBankSenseSample mv s
  | .governorRecompute => Sys2Proof.Machine.execGovernorRecompute s
  | .reservationGrant => Sys2Proof.Machine.execReservationGrant s
  | .winnowerPageCopy => Sys2Proof.Machine.execWinnowerPageCopy s
  | .winnowerSealTimer => Sys2Proof.Machine.execWinnowerSealTimer s
  | .trailerReadBack ok slot => Sys2Proof.Machine.execTrailerReadBack ok slot s
  | .rebaseDone written => Sys2Proof.Machine.execRebaseDone written s
  | .powerFailDetection vinMv vinNs pwrfailNs => Sys2Proof.Machine.execPowerFailDetection vinMv vinNs pwrfailNs s
  | .dumpDrainDone written => Sys2Proof.Machine.execDumpDrainDone written s
  | .dumpSegmentSealed => Sys2Proof.Machine.execDumpSegmentSealed s
  | .dumpSealed written => Sys2Proof.Machine.execDumpSealed written s
  | .parkDone => Sys2Proof.Machine.execParkDone s
  | .vholdCollapse => Sys2Proof.Machine.execVholdCollapse s
  | .powerReturned => Sys2Proof.Machine.execPowerReturned s
  | .locatingDone bad => Sys2Proof.Machine.execLocatingDone bad s
  | .backgroundRestoreFetch => Sys2Proof.Machine.execBackgroundRestoreFetch s
  | .fetchComplete page ok written => Sys2Proof.Machine.execFetchComplete page ok written s
  | .flqDoorbell q tail => Sys2Proof.Machine.execFlqDoorbell q tail s
  | .flashRead die => Sys2Proof.Machine.execFlashRead die s
  | .flashProgram die => Sys2Proof.Machine.execFlashProgram die s
  | .flashErase die => Sys2Proof.Machine.execFlashErase die s
  | .readParam die => Sys2Proof.Machine.execReadParam die s
  | .flashCompletion die outcome => Sys2Proof.Machine.execFlashCompletion die outcome s
  | .dieTimeout die => Sys2Proof.Machine.execDieTimeout die s
  | .eraseDoneJournal => Sys2Proof.Machine.execEraseDoneJournal s
  | .vccqLowChange low => Sys2Proof.Machine.execVccqLowChange low s
  | .contextGrant => Sys2Proof.Machine.execContextGrant s
  | .historyEntry => Sys2Proof.Machine.execHistoryEntry s
  | .stickyClear k v => Sys2Proof.Machine.execStickyClear k v s
  | .firstCaptureRearm => Sys2Proof.Machine.execFirstCaptureRearm s
  | .maskWrite n v => Sys2Proof.Machine.execMaskWrite n v s
  | .fltInjGo v => Sys2Proof.Machine.execFltInjGo v s
  | .clatosWatchdogExpiry core => Sys2Proof.Machine.execClatosWatchdogExpiry core s
  | .nmiAckTimeout core => Sys2Proof.Machine.execNmiAckTimeout core s
  | .coreRestartComplete core interrupted => Sys2Proof.Machine.execCoreRestartComplete core interrupted s
  | .managementCoreWatchdog => Sys2Proof.Machine.execManagementCoreWatchdog s
  | .deferredChipReset => Sys2Proof.Machine.execDeferredChipReset s
  | .auxPowerUp => Sys2Proof.Machine.execAuxPowerUp s
  | .holdPowerGood found channels => Sys2Proof.Machine.execHoldPowerGood found channels s
  | .mainPowerGood channels => Sys2Proof.Machine.execMainPowerGood channels s
  | .firmwareLoaded found => Sys2Proof.Machine.execFirmwareLoaded found s
  | .perstNDeassert => Sys2Proof.Machine.execPerstNDeassert s
  | .functionLevelReset => Sys2Proof.Machine.execFunctionLevelReset s
  | .hotReset => Sys2Proof.Machine.execHotReset s
  | .warmReset => Sys2Proof.Machine.execWarmReset s
  | .chipReset => Sys2Proof.Machine.execChipReset s
  | .chipResetRelease found channels => Sys2Proof.Machine.execChipResetRelease found channels s
  | .ingressReopen => Sys2Proof.Machine.execIngressReopen s
  | .holdPowerOnReset => Sys2Proof.Machine.execHoldPowerOnReset s
  | .auxRemoval => Sys2Proof.Machine.execAuxRemoval s
  | .calendarRebuild => Sys2Proof.Machine.execCalendarRebuild s
  | .telemetryRecommit => Sys2Proof.Machine.execTelemetryRecommit s
  | .d3hotEntry => Sys2Proof.Machine.execD3hotEntry s
  | .d0Return => Sys2Proof.Machine.execD0Return s
  | .gateGroupGating g => Sys2Proof.Machine.execGateGroupGating g s
  | .thermalTrip => Sys2Proof.Machine.execThermalTrip s
  | .setEndpointId msg => Sys2Proof.Machine.execSetEndpointId msg s
  | .getEndpointId => Sys2Proof.Machine.execGetEndpointId s
  | .getEndpointUuid => Sys2Proof.Machine.execGetEndpointUuid s
  | .getMctpVersionSupport msgType => Sys2Proof.Machine.execGetMctpVersionSupport msgType s
  | .getMessageTypeSupport => Sys2Proof.Machine.execGetMessageTypeSupport s
  | .getVendorDefinedMessageSupport selector => Sys2Proof.Machine.execGetVendorDefinedMessageSupport selector s
  | .getIdentity msg => Sys2Proof.Machine.execGetIdentity msg s
  | .getStatus msg => Sys2Proof.Machine.execGetStatus msg s
  | .getFaults msg => Sys2Proof.Machine.execGetFaults msg s
  | .getHistory msg => Sys2Proof.Machine.execGetHistory msg s
  | .clearFaults msg => Sys2Proof.Machine.execClearFaults msg s
  | .getSensors msg => Sys2Proof.Machine.execGetSensors msg s
  | .getTelemetry msg => Sys2Proof.Machine.execGetTelemetry msg s
  | .setTelemetry msg => Sys2Proof.Machine.execSetTelemetry msg s
  | .forceDump msg => Sys2Proof.Machine.execForceDump msg s
  | .forceReset msg => Sys2Proof.Machine.execForceReset msg s
  | .undefinedVendorCommand msg => Sys2Proof.Machine.execUndefinedVendorCommand msg s
  | .alertResponseAddressRead won => Sys2Proof.Machine.execAlertResponseAddressRead won s
  | .sensorRefresh n value => Sys2Proof.Machine.execSensorRefresh n value s
  | .smbusTimeout => Sys2Proof.Machine.execSmbusTimeout s
  | .telIdxFetch v => Sys2Proof.Machine.execTelIdxFetch v s
  | .telemetryEnable v => Sys2Proof.Machine.execTelemetryEnable v s
  | .registerWrite w offset size value => Sys2Proof.Machine.execRegisterWrite w offset size value s
  | .clockLockLost => Sys2Proof.Machine.execClockLockLost s
  | .digestUnitBoundary => Sys2Proof.Machine.execDigestUnitBoundary s
  | .priEnableToggle ats => Sys2Proof.Machine.execPriEnableToggle ats s
  | .managementCoreRestart => Sys2Proof.Machine.execManagementCoreRestart s
  | .powerFailDetectionArmed => Sys2Proof.Machine.execPowerFailDetectionArmed s

end Sys2Proof.Machine
end

