-- ==== Sys2Proof/Machine/Step.lean ====
section
/-!
DEFINITION. One step: the command at the front of the queue, run on the state with the queue's rest. On an empty
queue the block idles for one device nanosecond (log entry 5).
-/

namespace Sys2Proof.Machine

/-- The queue's rest. -/
def State.withPending (s : State) (q : List Instr) : State := { s with pending := q }

/-- One step of the block. -/
def step (s : State) : Host.Outcome State Fault Refusal :=
  match s.pending with
  | [] => .next { s with now := s.now + 1 }
  | c :: rest => exec c (s.withPending rest)

/-- The command a word spells, put at the front of the queue. No row of the table gives bits, so no word spells one. -/
def State.withFetchWord (s : State) (nbits w : Nat) : State :=
  match Sys2Proof.decodeTableWord nbits w with
  | some c => s.withPending (c :: s.pending)
  | none => s

end Sys2Proof.Machine
end

