-- ==== Sys2Proof/Safety.lean ====
section
/-!
DEFINITION. What counts as a safe run, and the words in which claims are made: a command answers a next state of which
something holds, an accepted command has completed, and everything outside named parts and registers is as it was.
-/

namespace Sys2Proof.Machine

/-- The command answers a next state, and something holds of it. -/
def Answers (c : Instr) (s : State) (P : State → Prop) : Prop := ∃ t, exec c s = .next t ∧ P t

/-- The command's effect on the state is `u`: it answers `u`, settled. -/
def Runs (c : Instr) (s u : State) : Prop := exec c s = .next (State.settle s u)

/-- A step from the state is safe: it answers a next state. -/
def State.safe (s : State) : Prop := ∃ t, step s = .next t

/-- Every command that waits can be formed by a sender. -/
def State.wellFormed (s : State) : Prop := ∀ c ∈ s.pending, c.wellFormed = true

/-! ### The status that follows the state -/

/-- A status field shows a value while its block is up, and its reset value otherwise (R506). -/
def State.shows (s : State) (f : Field) (v : Nat) : Prop :=
  s.get f = if s.groupUp (f.group 0) then v % 2 ^ f.width else f.reset 0

/-- The status that follows the state (R465, R466, and the registers' own descriptions). -/
structure State.statusFollows (s : State) : Prop where
  grnFull : s.shows F.RDY_STATUS_GRN_FULL (natOfBool (s.grnState == Grn.ready))
  grnLazy : s.shows F.RDY_STATUS_GRN_LAZY (natOfBool (s.grnServes && !s.grn.closed))
  ftRun : s.shows F.RDY_STATUS_FT_RUN (natOfBool (s.get F.FT_STATUS_STATE == 1))
  link : s.shows F.RDY_STATUS_LINK (s.get F.HL_STATUS_LINK_UP)
  degraded : s.shows F.RDY_STATUS_DEGRADED (natOfBool s.degraded)
  mgmt : s.shows F.RDY_STATUS_MGMT (natOfBool (s.pwr.aux && !s.hub.mgmtReset))
  admReady : s.shows F.ADM_STATUS_READY
    (natOfBool ((s.flag F.RDY_STATUS_FW || s.flag F.RDY_STATUS_RECOVERY) && !s.acceptStopped))
  answering : s.shows F.MGT_STATUS_ANSWERING (natOfBool (s.pwr.aux && !s.hub.mgmtReset))
  armPend : s.shows F.FT_STATUS_ARM_PEND (natOfBool s.ft.pending.isSome)
  calFree : s.shows F.CAL_FREE_FREE (1024 - s.cal.entries.length)
  hdm0 : s.shows F.HL_STATUS_HDM0_COMMIT (natOfBool s.link.hdm0.committed)
  hdm1 : s.shows F.HL_STATUS_HDM1_COMMIT (natOfBool s.link.hdm1.committed)
  creditHeld : s.shows F.HL_STATUS_CREDIT_HELD
    (natOfBool (s.throttling || s.grnState == Grn.heldState || s.grnState == Grn.failed))
  ingressClosed : s.shows F.HL_STATUS_INGRESS_CLOSED (natOfBool (s.grn.closed && s.pwr.failed))
  throttle : s.shows F.GOV_STATUS_THROTTLE (natOfBool s.throttling)
  grnThrottle : s.shows F.GRN_STATE_THROTTLE (natOfBool s.throttling)
  restorePct : s.shows F.GRN_STATE_RESTORE_PCT s.restorePct
  dirtyMib : s.shows F.GOV_STATUS_DIRTY_MIB (ceilDiv (s.grn.dirty.count * 4096) (2 ^ 20))
  budgetMib : s.shows F.GOV_STATUS_BUDGET_MIB (s.grn.budget / 2 ^ 20)
  rebase : s.shows F.WIN_STATUS_REBASE (natOfBool s.grn.rebase.isSome)
  inFlight : s.shows F.WIN_STATUS_IN_FLIGHT s.grn.inflight.length
  unrestored : s.shows F.RST_STATUS_UNRESTORED s.grn.unrestored.count
  pendingFetches : s.shows F.RST_STATUS_PENDING (min 2047 (s.grn.fetches.filter (·.onDemand)).length)
  testing : s.shows F.BANK_STATUS_TESTING (natOfBool s.pwr.bankTest)

/-! ### Frames -/

/-- The parts of the state beside its registers, its clock and its queue. -/
inductive Part where
  | pwr
  | ft
  | cal
  | link
  | hub
  | mgt
  | mbx
  | grn
  | dram
  | flash
  | dge
  | eng
  deriving DecidableEq, Repr

/-- A part is the same in both states. Two things follow the state at the end of every command and are left out: the pending
bits of MSI-X (R80), and the AUX copies of the Granary state word and the first-error capture (R29). -/
def Part.same (s t : State) : Part → Prop
  | .pwr => t.pwr = s.pwr
  | .ft => t.ft = s.ft
  | .cal => t.cal = s.cal
  | .link => { t.link with pba := [] } = { s.link with pba := [] }
  | .hub => { t.hub with auxGrn := 0, auxFirst := [] } = { s.hub with auxGrn := 0, auxFirst := [] }
  | .mgt => t.mgt = s.mgt
  | .mbx => t.mbx = s.mbx
  | .grn => t.grn = s.grn
  | .dram => t.dram = s.dram
  | .flash => t.flash = s.flash
  | .dge => t.dge = s.dge
  | .eng => t.eng = s.eng

/-- A field that is none of a list. -/
def Field.outside (g : Field) (l : List Field) : Prop := ∀ f ∈ l, f.id ≠ g.id

/-- The fields that the settling at the end of every command may write: the live status, CAL and two alerts (R465, R466,
R489). -/
def settleFields : List Field :=
  (readyLive ++ statusLive).map (·.field) ++ [F.RDY_STATUS_CAL, F.MGT_ALERT_READY, F.MGT_ALERT_GRANARY]

/-- From `s` to `t` nothing changed but the parts `ps`, the register fields `fs`, and what follows the state. -/
def Frame (s t : State) (ps : List Part) (fs : List Field) : Prop :=
  t.now = s.now ∧ t.pending = s.pending ∧ (∀ p, p ∉ ps → p.same s t) ∧
  ∀ g : Field, g.outside (settleFields ++ fs) → ∀ n, t.getN g n = s.getN g n

/-- The parts that a fault event may change beside its fields: the hub, the event log, and by its reactions a requested
dump or chip reset (R439, R441 to R447). -/
def raiseParts : List Part := [.hub, .link, .grn, .pwr]

/-- The fields that a fault event, a counter or a Granary request may write. -/
def raiseFields : List Field :=
  [F.FLT_STICKY_STICKY, F.FLT_LIVE_LIVE, F.FLT_FIRST_RECORD, F.FLT_FIRST3_RECORD_LO, F.FLT_FIRST3_RECORD_HI,
   F.FLT_FIRST3_VALID, F.FLT_HIST_PTRS_WR, F.FLT_HIST_PTRS_SEQ, F.FLT_HIST_W0_RECORD, F.FLT_HIST_W1_RECORD,
   F.FLT_HIST_W2_RECORD, F.FLT_HIST_W3_RECORD, F.FLT_HIST_SKIP_CNT_COUNT, F.FLT_HIST_SKIP_CNT_SAT,
   F.FLT_SRC_COUNT_COUNT, F.FLT_SRC_COUNT_SAT, F.GRN_STATE_STATE, F.GRN_STATE_CAUSE, F.GRN_STATE_REQ_SRC,
   F.GRN_STATE_REFUSED, F.MGT_ALERT_FAULT, F.DMC_MIGRATE_PAUSED, F.FLT_PERSIST_LATCHED, F.FLT_PERSIST_SOURCE]

/-! ### Completions -/

/-- The fields that completing a command may write: its mailbox's, and the admin completion. -/
def completeFields : List Field :=
  [F.MBX_PTRS_TAIL, F.MBX_PTRS_LIMIT, F.MBX_PTRS_HEAD, F.MBX_PTRS_CQ_TAIL, F.MBX_STATE_EXP_SEQ, F.MBX_STATE_INFLIGHT,
   F.MBX_STATE_WINDOW, F.MBX_STATE_CLASS, F.MBX_STATE_CTX, F.MBX_STATE_ERR_CAUSE, F.MBX_STATE_STATE, F.ADM_CPL_CPL,
   F.ADM_STATUS_BUSY, F.ADM_STATUS_DONE]

/-- The completion ring of a command's pair can never be reached (R272, R273): its completion then puts the pair into ERROR
(R113). -/
def State.ringBad (s : State) (a : Accepted) : Bool :=
  match a.mb with
  | .admin => false
  | .pair n => s.cqUnreachable n.val

/-- The parts that the completion of a command may change. -/
def cplParts (s : State) (a : Accepted) : List Part := if s.ringBad a then .mbx :: raiseParts else [.mbx]

/-- The fields that the completion of a command may write. -/
def cplFields (s : State) (a : Accepted) : List Field :=
  if s.ringBad a then completeFields ++ raiseFields else completeFields

/-- The 16 bytes of a completion, whatever its flags, SQ_HEAD and LIMIT (R94), sent on the completion ring of a pair. -/
def State.sentCpl (t : State) (n : Nat) (seq status result : Nat) : Prop :=
  ∃ i via addr flags head limit, Output.cqEntry n i via addr (cplEntry seq status flags head limit result) ∈ t.out

/-- From `s` to `t` an accepted command has completed with a code and RESULT (R88, R94): it is accepted no more; an admin
command's completion stands in ADM_CPL with DONE set and BUSY clear; a pair's is written to its ring or held for it,
unless the pair writes no completions (R113) or its ring cannot be reached (R272). -/
def Completed (s : State) (a : Accepted) (status result : Nat) (t : State) : Prop :=
  (∀ b ∈ t.mbx.accepted, b.id ≠ a.id) ∧
  match a.mb with
  | .admin => t.get F.ADM_CPL_CPL = (cplEntry (cmdSeq a.cmd) status 0 0 0 result).toNat ∧
      t.get F.ADM_STATUS_BUSY = 0 ∧ t.get F.ADM_STATUS_DONE = 1
  | .pair n => s.cqStopped n.val = true ∨ s.cqUnreachable n.val = true ∨
      ⟨cmdSeq a.cmd, status, result, cmdNoIrq a.cmd⟩ ∈ (t.pair n.val).held ∨ t.sentCpl n.val (cmdSeq a.cmd) status result

/-- The accepted command `a` is the next of its mailbox to begin, is of the kind `p`, and is whole where a spill record has kept it
(R100, R262). -/
abbrev State.begins (s : State) (m : Mailbox) (p : Line → Bool) (a : Accepted) : Prop :=
  s.nextCmd m p = some a ∧ a.record.all (fun n => s.checkRecord n == 0) = true

/-- Command `c` completes the accepted command `a` with a code and RESULT and does nothing else; `v` is the state when its data
has been read, `s` itself for a command without. -/
def Ends (c : Instr) (s v : State) (a : Accepted) (status result : Nat) : Prop :=
  Answers c s fun t => Completed v a status result t ∧ Frame v t (cplParts v a) (cplFields v a)

/-- The first `n` bytes of a command's data come (R88, R105): an inline command's from ADM_DATA; others by a read at DATA_ADDR that
its context, the translation and the memory let pass, of which the host delivers `x`. `v` is the state once they are read. -/
def State.brings (s : State) (a : Accepted) (n : Nat) (x : Transfer) (v : State) (b : List Byte) : Prop :=
  (a.inline = true ∧ v = s ∧ b = leBytes n (s.get F.ADM_DATA_DATA)) ∨
  (a.inline = false ∧ s.mailRead a (cmdAddr a.cmd) n x = .bytes v b)

/-- Command `c`, run in `s`, begins the accepted command `a` in `u`, whose data `x` declares its own length in a header of `size`
bytes (R88, R98, R99): a length other than DATA_LEN completes LENGTH_MISMATCH with the declared length, a command that is not ready
NOT_READY; else `work` says what becomes of the whole data, in the state once it is read. -/
def ReadsDeclared (c : Instr) (s u : State) (a : Accepted) (size : Nat) (want : List Byte → Nat) (x : Transfer)
    (work : State → List Byte → Prop) : Prop :=
  ∀ (v : State) (h : List Byte), u.brings a size x v h →
    (want h ≠ cmdLen a.cmd → Ends c s v a CC.lengthMismatch (want h)) ∧
    (want h = cmdLen a.cmd →
      (v.notReady a.cmd = true → Ends c s v a CC.notReady v.rdyWord) ∧
      (v.notReady a.cmd = false →
        ∀ (w : State) (b : List Byte), v.brings a (cmdLen a.cmd) x w b → work w b))

/-- The bytes stand in the messages sent, from an address of a context on, in requests of at most 512 bytes that cross no 4 KiB
boundary (R290); `frames` are the pages on the link. -/
def State.sentBytes (t v : State) (ctx addr : Nat) (frames : List Nat) (bytes : List Byte) : Prop :=
  ∀ p ∈ hostPieces 512 (pieceFuel bytes.length) addr bytes.length,
    Output.hostWrite (v.via ctx) (framed frames addr p.1) (sliceBytes bytes (p.1 - addr) p.2) ∈ t.out

/-- Command `c` delivers the data that the accepted command `a` asks for, and completes it OK (R88, R105): the data of an inline
command into ADM_DATA, as far as that buffer reaches, other data by writes at DATA_ADDR; to host memory where the address can be
reached, `v` being the state after its translation. -/
def Delivers (c : Instr) (s : State) (a : Accepted) (bytes : List Byte) : Prop :=
  Runs c s (s.deliver a bytes) ∧
  (a.inline = true → Answers c s fun t =>
    (bytes.length ≤ 2048 → t.get F.ADM_DATA_DATA % 2 ^ (8 * bytes.length) = ofLeBytes bytes) ∧
    Completed s a CC.ok 0 t ∧ Frame s t (cplParts s a) (F.ADM_DATA_DATA :: cplFields s a)) ∧
  ∀ (v : State) (frames : List Nat), a.inline = false → inDevice (cmdAddr a.cmd) = false →
    s.reach (placeOf 1 (s.mailboxCtx a.mb) (cmdAddr a.cmd)) bytes.length true = (v, .ok frames) →
    Answers c s fun t => t.sentBytes v (v.mailboxCtx a.mb) (cmdAddr a.cmd) frames bytes ∧
      Completed v a CC.ok 0 t ∧ Frame v t (cplParts v a) (cplFields v a)

/-! ### Steps of tasks -/

/-- What a step leaves: what task `id` has to push is pushed as far as it goes, where it still runs, and then the
scheduler has its turn (R198, R256). -/
def State.stepped (u : State) (id : Nat) : State :=
  match u.task? id with
  | some k => (if k.state = .running then u.drainYield k else u).schedule
  | none => u.schedule

/-- Command `c` runs one step on tiller `n` of the tasks that fit (R197, R198). A tiller that serves no task, or one that
does not fit, does nothing. A check armed for injection that fires may end the step in a block reset (R449, R456), and a read
found uncorrectable stops the task (R314). What a task has still to push goes first; a task that can not push it all, has yielded,
or has nothing more to do, does no more; else its own work makes a state `u`, of which `work` says what it is. -/
def StepsTask (c : Instr) (n : Nat) (fits : Task → OpRec → Bool) (work : State → Task → State → Prop) : Prop :=
  ∀ s : State,
    (s.serviced n = none → Answers c s fun t => Frame s t [] []) ∧
    ∀ k : Task, s.serviced n = some k →
      (fits k (s.opRec k) = false → Answers c s fun t => Frame s t [] []) ∧
      (fits k (s.opRec k) = true →
        let e := s.tillerChecks n k
        (e.1 = true → Runs c s e.2.schedule) ∧
        (e.1 = false →
          (∀ d : Nat, k.spoilt = some d →
            Runs c s (e.2.stopDma { k with spoilt := none } DmaErr.poison d k.row).schedule) ∧
          (k.spoilt = none →
            let d := e.2.drainYield k
            ∀ v : Task, d.task? k.id = some v →
              (v.todo ≠ [] ∨ v.done = true ∨ v.state ≠ .running → Runs c s d.schedule) ∧
              (v.todo = [] → v.done = false → v.state = .running → ∃ u, work d v u ∧ Runs c s (u.stepped v.id)))))

/-- What an end of work leaves: the work kept; the task stopped at the row that failed, what it gave before that still to be
pushed; or `next` (R202). -/
def EndsWork (s : State) (k : Task) (w : Work) (failing : Nat → Task) (next u : State) : Prop :=
  (w.fail = none → u = next) ∧
  ∀ i code detail, w.fail = some (i, code, detail) →
    let v : Task := { failing i with todo := (failing i).todo ++ w.out }
    u = (s.setTask v).stopOp v code detail (k.row + i)

/-- What a block task makes of the next reference of its input block, by what its operator does with a row, a mark and the
block end (R197, R202, R252, R450). What its work area is due is written before (R195), and the strings that it reads are read
before the rows of a batch are used (R189). -/
def TakesInput (row : State → Task → RowWork) (mark last : State → Task → Work → Work) (s : State) (k : Task) (u : State) :
    Prop :=
  (s.nextRef k = none → u = s.park k .waitInput 2) ∧
  ∀ (c : Nat) (r : Ref), s.nextRef k = some (c, r) →
    ∃ then_ : State → State, u = s.spilling k (r.kind == .blockEnd) then_ ∧ ∀ v : State,
      let w0 := Work.start v (v.flow k.plan k.op k.index).st
      (∀ b : Batch, r.kind = .data → r.batch = some b →
        (v.eng.poisoned.contains b.buf = true → then_ v = v.stopHw k 3) ∧
        (v.eng.poisoned.contains b.buf = false →
          ∃ with_ : State → List Row → State,
            then_ v = orEnd (v.readStrings k ((s.opRec k).stringCols (v.schemaIn k k.port) k.port) (k.row + k.inBatch)
              (b.rows.drop k.inBatch)) k with_ ∧
            ∀ (x : State) (rows : List Row),
              let w := Work.rows (row x k) k.inBatch { w0 with free := x.freeCtr } rows
              EndsWork (x.keepWork k w) k w (fun i => { k with inBatch := i })
                (((x.keepWork k w).consume k c r false).setTask
                  { k with todo := k.todo ++ w.out, inBatch := 0, row := k.row + b.rows.length, data := [] })
                (with_ x rows))) ∧
      (r.kind = .mark →
        let w := mark v k w0
        let x := (v.keepWork k w).consume k c r false
        EndsWork x k w (fun _ => k) (x.setTask { k with todo := k.todo ++ w.out }) (then_ v)) ∧
      (r.kind = .blockEnd →
        let w := last v k w0
        let x := v.keepWork k w
        EndsWork x k w (fun _ => k)
          ((x.consume k c r false).setTask (Task.finish { k with todo := k.todo ++ w.out } (s.opRec k))) (then_ v))

/-- What a task without input does (R197, R200): its work, whose output is pushed before its block ends. -/
def DoesOwnWork (f : State → Task → Work → Work) (s : State) (k : Task) (u : State) : Prop :=
  let w := f s k (Work.start s (s.flow k.plan k.op k.index).st)
  let x := s.keepWork k w
  EndsWork x k w (fun _ => k) (x.setTask (Task.finish { k with todo := k.todo ++ w.out, data := [] } (x.opRec k))) u

/-- Work that needs what the work area holds: chunks with a tag are read back first, their strings among them (R195, R217). -/
def ReadsBack (port : Nat) (chunks : FlowState → List Chunk) (work : List Row → State → Task → State → Prop) (s : State) (k : Task)
    (u : State) : Prop :=
  ∃ then_ : State → List Row → State, u = s.withChunks k port (chunks (s.st k)) then_ ∧
    ∀ (v : State) (rows : List Row), work rows v k (then_ v rows)

/-- Work that needs the rows in the partitions of an aggregation's flow (R223). -/
def LoadsParts (work : List (Nat × Row) → State → Task → State → Prop) (s : State) (k : Task) (u : State) : Prop :=
  ∃ then_ : State → List (Nat × Row) → State, u = s.withParts k then_ ∧
    ∀ (v : State) (rows : List (Nat × Row)), work rows v k (then_ v rows)

/-- A window operator's work, with the windows it closed counted (R182). -/
def Counting (work : State → Task → State → Prop) (s : State) (k : Task) (u : State) : Prop :=
  ∃ v, work s k v ∧ u = v.countWindows k (openWindows (s.st k))

end Sys2Proof.Machine
end

