-- ==== Sys2Proof/Certificates/Slice0/Obligations.lean ====
section
/-!
DEFINITION. The statements about the model, for the provers. Each docstring says which rules of the manual a statement
formalises, and where it rests on a choice of the model.
-/

open Sys2Proof Sys2Proof.Machine

/-- 00_scope.md. For every command c and state s, a step of s with c at the front of its queue is exec of c on s with the rest of
the queue; on an empty queue the block idles, which lets one device nanosecond pass (the model's choice, log
entry 5). -/
def Obligations.FrontCommandRuns : Prop :=
  (∀ (c : Instr) (q : List Instr) (s : State), step (s.withPending (c :: q)) = exec c (s.withPending q)) ∧
  ∀ s : State, s.pending = [] → step s = .next { s with now := s.now + 1 }

/-- 00_scope.md; R22. Every command whose operands a sender can form (Instr.wellFormed) answers a next state in every state, and every
other command stops with the fault illFormed: nothing is ever refused, and a step of a state whose waiting
commands can all be formed is safe. The bounds on operands are the model's (log entry 8). -/
def Obligations.CommandsStopOnlyIllFormed : Prop :=
  (∀ (c : Instr) (s : State), c.wellFormed = true → ∃ t, exec c s = .next t) ∧
  (∀ (c : Instr) (s : State), c.wellFormed = false → exec c s = .fault .illFormed) ∧
  ∀ s : State, s.wellFormed → s.safe

/-- R465; R466; R506; R376. From every state, and so from every state that meets it, a step that answers a next state leaves
State.statusFollows: while its block is powered and out of reset, each status bit of RDY_STATUS and of the
mailbox, time, calendar, link, governor, winnower, restore and bank registers shows the state it stands for, and
otherwise its reset value. The invariant is derived from R465 and R466 and the fields' own descriptions; that a
change within one step is not seen is the model's choice (log entry 21). -/
def Obligations.EveryStepKeepsStatusFollowing : Prop :=
  ∀ s t : State, s.statusFollows → step s = .next t → t.statusFollows

/-- R465; R466; R506. State.reset meets the invariant State.statusFollows: every block is unpowered, and every status bit holds its
reset value. -/
def Obligations.ResetStatusFollows : Prop :=
  State.reset.statusFollows

/-- R489; R465. For every command and every state: if the command answers a next state in which RDY_STATUS differs and AUX is
powered, MGT_ALERT.READY is set there; if GRN_STATE.STATE differs, MGT_ALERT.GRANARY is set there. These are the
second and third causes of R489, over all commands. -/
def Obligations.ReadyAndGranaryChangesSetAlerts : Prop :=
  ∀ (c : Instr) (s t : State), exec c s = .next t → t.pwr.aux = true →
    (t.rdyWord ≠ s.rdyWord → t.flag F.MGT_ALERT_READY = true) ∧
    (t.grnState ≠ s.grnState → t.flag F.MGT_ALERT_GRANARY = true)

/-- R481; R464; R520; R478; R476; R527. AUX power-up starts the management core and clears RST_CAUSE; PERST_N deasserting is recorded; detection is
armed while HOLD is good; D3hot entry on a live link gates every group, and CH4-CH11 leave power-down and enter
self-refresh; an idle gate group is gated alone; a junction hot for 100 us asserts THERMTRIP_N and gates every
group of a live function block. Each is stated with its frame. That RST_CAUSE is cleared is the model's choice
(log entry 95). Completions of: auxPowerUp, perstNDeassert, powerFailDetectionArmed, d3hotEntry,
gateGroupGating, thermalTrip. -/
def Obligations.SupplyPinsAndModes : Prop :=
  (∀ s : State, s.pwr.aux = false → Answers .auxPowerUp s fun t =>
    t.pwr = { s.pwr with aux := true } ∧ t.get F.RST_CAUSE_KIND = 0 ∧ t.get F.RST_CAUSE_COUNT = 0 ∧
    t.get F.MGT_STATUS_ANSWERING = natOfBool (!s.hub.mgmtReset) ∧
    Frame s t [.pwr] [F.RST_CAUSE_KIND, F.RST_CAUSE_REQ, F.RST_CAUSE_SOURCE, F.RST_CAUSE_COUNT]) ∧
  (∀ s : State, Answers .perstNDeassert s fun t => t.pwr = { s.pwr with perst := false } ∧ Frame s t [.pwr] []) ∧
  (∀ s : State, s.pwr.hold = true → Answers .powerFailDetectionArmed s fun t =>
    t.pwr = { s.pwr with armed := true } ∧ Frame s t [.pwr] []) ∧
  (∀ s : State, s.linkUp = true → s.pwr.d3hot = false → Answers .d3hotEntry s fun t =>
    t.pwr = { s.pwr with d3hot := true } ∧ t.get F.PWR_GATE_GATED = 0xFFF ∧
    (∀ ch, 4 ≤ ch → ch < 12 → t.getN F.DMC_STATUS_PD ch = 0 ∧
      ∀ r, r < 4 → bitOf (t.getN F.DMC_STATUS_SR ch) r = s.rankInService ch r) ∧
    Frame s t [.pwr] [F.PWR_GATE_GATED, F.DMC_STATUS_PD, F.DMC_STATUS_SR]) ∧
  (∀ (g : Fin 12) (s : State), s.groupUp .fn = true → s.eng.up = true → s.flag F.PWR_GATE_EN = true →
    s.groupIdle g.val = true → Answers (.gateGroupGating g) s fun t =>
      bitOf (t.get F.PWR_GATE_GATED) g.val = true ∧
      (∀ i, i < 12 → i ≠ g.val → bitOf (t.get F.PWR_GATE_GATED) i = bitOf (s.get F.PWR_GATE_GATED) i) ∧
      Frame s t [] [F.PWR_GATE_GATED]) ∧
  ∀ s : State, s.pwr.aux = true → s.pwr.thermtrip = false →
    s.mgt.hotSince.any (fun p => decide (p.2 + 100000 ≤ s.now)) = true → Answers .thermalTrip s fun t =>
      t.pwr = { s.pwr with thermtrip := true } ∧ (s.groupUp .fn = true → t.get F.PWR_GATE_GATED = 0xFFF) ∧
      Frame s t [.pwr] [F.PWR_GATE_GATED]

/-- R460; R461; R444; R478. HOLD_PWRGD with AUX good powers HOLD, counts device time from there, and leaves FAULT and VAULT set in
RDY_STATUS; MAIN_PWRGD with HOLD good and MAIN_EN high powers MAIN. MAIN_PWRGD while HOLD_PWRGD is deasserted
changes nothing (R460). The D0 return from D3hot keeps everything but the power state, and what waited for host
memory goes on. Completions of: holdPowerGood, mainPowerGood, d0Return. -/
def Obligations.PowerGoodBringsUp : Prop :=
  (∀ (found : HoldReport) (chs : List ChannelReport) (s : State), s.pwr.aux = true → s.pwr.hold = false →
    Answers (.holdPowerGood found chs) s fun t =>
      t.pwr.hold = true ∧ t.pwr.holdBase = s.now ∧ t.get F.RDY_STATUS_FAULT = 1 ∧ t.get F.RDY_STATUS_VAULT = 1) ∧
  (∀ (chs : List ChannelReport) (s : State), s.pwr.hold = true → s.pwr.mainEn = true → s.pwr.main = false →
    Answers (.mainPowerGood chs) s fun t => t.pwr.main = true ∧ t.pwr.mainDue = false) ∧
  (∀ (chs : List ChannelReport) (s : State), s.pwr.hold = false →
    Answers (.mainPowerGood chs) s fun t => Frame s t [] []) ∧
  ∀ s : State, s.linkUp = true → s.pwr.d3hot = true →
    Runs .d0Return s ({ s with pwr := { s.pwr with d3hot := false } } : State).backInD0

/-- R462; R463; R461; R430. With MAIN up, VAULT set and the digest engine ready, and no firmware yet: a verifying copy leaves FW, DIGEST and
PAIRS set in RDY_STATUS and locks MR0-MR3; when neither verifies, RECOVERY sets and no release runs. Completions
of: firmwareLoaded. -/
def Obligations.FirmwareLoadSetsReadiness : Prop :=
  ∀ s : State, s.mainUp = true → s.flag F.RDY_STATUS_VAULT = true → s.flag F.DGE_STATUS_READY = true →
    s.flag F.RDY_STATUS_FW = false → s.flag F.RDY_STATUS_RECOVERY = false →
    (∀ found : FirmwareCheck, found ≠ .neither → Answers (.firmwareLoaded found) s fun t =>
      t.get F.RDY_STATUS_FW = 1 ∧ t.get F.RDY_STATUS_DIGEST = 1 ∧ t.get F.RDY_STATUS_PAIRS = 1 ∧
      t.get F.MR_LOCK_BOOT_LOCK ≠ 0) ∧
    Answers (.firmwareLoaded .neither) s fun t => t.get F.RDY_STATUS_RECOVERY = 1 ∧ t.mbx.running = 0

/-- R468; R469; R466; R472. On a live link an FLR and a hot reset empty the mailboxes and record their KIND in RST_CAUSE; the hot reset also
masks every MSI-X vector. A warm reset does the same, records PERST_N and clears the firmware's readiness bits.
None of the three touches field time, DRAM contents or the window's chain. Completions of: functionLevelReset,
hotReset, warmReset. -/
def Obligations.ResetsReachTheirGroups : Prop :=
  (∀ s : State, s.linkUp = true → Answers .functionLevelReset s fun t =>
    t.mbx.accepted = [] ∧ t.mbx.pairs = [] ∧ t.get F.RST_CAUSE_KIND = 7 ∧
    t.ft = s.ft ∧ t.cal = s.cal ∧ t.dram = s.dram ∧ t.flash = s.flash ∧ t.link.msix = s.link.msix) ∧
  (∀ s : State, s.linkUp = true → Answers .hotReset s fun t =>
    t.mbx.accepted = [] ∧ t.mbx.pairs = [] ∧ t.link.msix = [] ∧ t.get F.RST_CAUSE_KIND = 6 ∧
    t.ft = s.ft ∧ t.cal = s.cal ∧ t.dram = s.dram ∧ t.flash = s.flash) ∧
  ∀ s : State, s.mainUp = true → s.pwr.perst = false → Answers .warmReset s fun t =>
    t.mbx.accepted = [] ∧ t.mbx.pairs = [] ∧ t.link.msix = [] ∧ t.get F.RST_CAUSE_KIND = 5 ∧ t.pwr.perst = true ∧
    t.get F.RDY_STATUS_FW = 0 ∧ t.get F.RDY_STATUS_ENGINE = 0 ∧ t.get F.RDY_STATUS_PAIRS = 0 ∧ t.get F.RDY_STATUS_CAL = 0 ∧
    t.ft = s.ft ∧ t.dram.cells = s.dram.cells ∧ t.flash = s.flash

/-- R451; R472; R473; R453. A chip reset that was requested, or deferred, begins while HOLD is good, the persistent latch is clear, the
state word is not DUMPING and MAIN is not lost to a power failure: the groups are held in reset, Granary ingress
is closed, and RST_CAUSE names it. While DUMPING it is deferred. Its release brings the HOLD blocks up again;
ingress reopens once VAULT is set, in LAZY or READY with no dump. Completions of: chipReset, deferredChipReset,
chipResetRelease, ingressReopen. -/
def Obligations.ChipResetHoldsAndReopens : Prop :=
  (∀ (s : State) (r : ResetReq), s.pwr.hold = true → s.latched = false → s.grnState ≠ Grn.dumping →
    (s.pwr.failed && !s.pwr.main) = false →
    let begun := fun t : State => t.pwr.held = true ∧ t.pwr.chipReset = true ∧ t.pwr.request = none ∧
      t.pwr.deferred = none ∧ t.grn.closed = true ∧ t.grn.fetches = [] ∧
      t.get F.RST_CAUSE_KIND = (if r.device then 4 else 3)
    (s.pwr.request = some r → Answers .chipReset s begun) ∧ (s.pwr.deferred = some r → Answers .deferredChipReset s begun)) ∧
  (∀ (s : State) (r : ResetReq), s.pwr.request = some r → s.pwr.hold = true → s.latched = false →
    s.grnState = Grn.dumping → Answers .chipReset s fun t =>
      t.pwr = { s.pwr with request := none, deferred := some r } ∧ Frame s t [.pwr] []) ∧
  (∀ (found : HoldReport) (chs : List ChannelReport) (s : State), s.pwr.hold = true → s.pwr.held = true →
    Answers (.chipResetRelease found chs) s fun t => t.pwr.held = false ∧ t.get F.RDY_STATUS_FAULT = 1 ∧
      t.get F.RDY_STATUS_VAULT = 1) ∧
  ∀ s : State, s.pwr.chipReset = true → s.pwr.held = false → s.flag F.RDY_STATUS_VAULT = true → s.pwr.failed = false →
    s.grn.dump = none → s.grnServes = true → Answers .ingressReopen s fun t =>
      t.pwr = { s.pwr with chipReset := false } ∧ t.grn = { s.grn with closed := false } ∧
      (∀ ch, ch < 4 → t.getN F.DMC_STATUS_SR ch = 0 ∧ t.getN F.DMC_MIGRATE_PAUSED ch = 0) ∧
      Frame s t [.pwr, .grn] [F.DMC_STATUS_PD, F.DMC_STATUS_SR, F.DMC_MIGRATE_PAUSED]

/-- R468; R469; R471; R454; R518. A HOLD power-on reset unpowers HOLD and MAIN, empties the landing buffer and the maps, restarts the event
numbers and clears the window's DRAM, and keeps the base slots and chain records. Removal of AUX returns every
register field to its reset value and leaves the pins, the base slots and the chain records. Completions of:
holdPowerOnReset, auxRemoval. -/
def Obligations.PowerLossLosesState : Prop :=
  (∀ s : State, s.pwr.hold = true → Answers .holdPowerOnReset s fun t =>
    t.pwr.hold = false ∧ t.pwr.main = false ∧ t.grn.landing = [] ∧ t.grn.dirty = [] ∧ t.grn.unrestored = [] ∧
    t.hub.seq = 0 ∧ (∀ a, grnBase ≤ a → Memory.read t.dram.cells a = Memory.unlisted) ∧
    t.grn.slotA = s.grn.slotA ∧ t.grn.slotB = s.grn.slotB ∧ t.grn.rec0 = s.grn.rec0 ∧ t.grn.rec1 = s.grn.rec1) ∧
  ∀ s : State, s.pwr.aux = true → Answers .auxRemoval s fun t =>
    (∀ (f : Field) (n : Nat), t.getN f n = f.reset n) ∧ t.pwr = { State.reset.pwr with perst := s.pwr.perst } ∧
    t.grn.slotA = s.grn.slotA ∧ t.grn.slotB = s.grn.slotB ∧ t.grn.rec0 = s.grn.rec0 ∧ t.grn.rec1 = s.grn.rec1

/-- R470; R466; R495. With MAIN and the firmware up, field time running and CAL clear, the rebuild sets RDY_STATUS.CAL and leaves
field time and the pacing store alone. Once CAL is set the management core commits its telemetry entries again;
with none committed before, nothing changes. Completions of: calendarRebuild, telemetryRecommit. -/
def Obligations.FirmwareRebuildsTheCalendar : Prop :=
  (∀ s : State, s.mainUp = true → s.flag F.RDY_STATUS_FW = true → s.get F.FT_STATUS_STATE = Ft.running →
    s.flag F.RDY_STATUS_CAL = false → Answers .calendarRebuild s fun t =>
      t.get F.RDY_STATUS_CAL = 1 ∧ t.ft = s.ft ∧ t.dram = s.dram) ∧
  (∀ s : State, s.answering = true → s.mainUp = true → s.flag F.RDY_STATUS_CAL = true →
    Answers .telemetryRecommit s fun t => t.mgt = s.mgt ∧ t.ft = s.ft ∧ t.dram = s.dram ∧
      (s.mgt.committed = [] → Frame s t [] []))

/-- R88; R89; R92; R96; R98; R113. A GO while BUSY is set or READY is clear only sets OVERRUN. Otherwise the command in ADM_CMD is accepted and
numbered: one whose SEQ is not the expected one completes with BAD_SEQUENCE and the expected value, one that
fails a later check with that check's code and RESULT, and one that passes them all waits to begin. SQ_TAIL
within LIMIT is recorded for an ACTIVE pair; beyond LIMIT it puts the pair into ERROR with cause 1; in any other
state it is ignored. CQ_HEAD is taken in every state but DISABLED, modulo the ring. Once ingress has closed for
a power failure nothing is taken. Completions of: admDoorbellGo, sqTailWrite, cqHeadWrite. -/
def Obligations.DoorbellsFollowTheirRules : Prop :=
  (∀ s : State, s.groupUp .fn = true → s.linkClosed = false →
    (s.flag F.ADM_STATUS_BUSY = true ∨ s.flag F.ADM_STATUS_READY = false) →
    Answers .admDoorbellGo s fun t => t.get F.ADM_STATUS_OVERRUN = 1 ∧ Frame s t [] [F.ADM_STATUS_OVERRUN]) ∧
  (∀ s : State, s.groupUp .fn = true → s.linkClosed = false → s.flag F.ADM_STATUS_BUSY = false →
    s.flag F.ADM_STATUS_READY = true →
    let c : Line := BitVec.ofNat 512 (s.get F.ADM_CMD_CMD)
    let a := Accepted.new s.mbx.nextId .admin c
    Answers .admDoorbellGo s fun t =>
      t.mbx.nextId = s.mbx.nextId + 1 ∧ t.mbx.admSeq = (cmdSeq c + 1) % 65536 ∧
      (cmdSeq c ≠ s.mbx.admSeq → Completed s a CC.badSequence s.mbx.admSeq t) ∧
      (cmdSeq c = s.mbx.admSeq →
        (∀ code r : Nat, s.checkCmd .admin c = .failed code (some r) → Completed s a code r t) ∧
        (s.checkCmd .admin c = .passed →
          ∃ b ∈ t.mbx.accepted, b.id = a.id ∧ b.mb = .admin ∧ b.cmd = c ∧ b.begun = false))) ∧
  (∀ (n : Fin 64) (v : Word) (s : State), s.groupUp .fn = true → s.linkClosed = false →
    s.getN F.MBX_STATE_STATE n.val = Mbx.active →
    s.tailBeyond n.val (v.toNat % 4096) = false → Answers (.sqTailWrite n v) s fun t =>
      t.getN F.MBX_PTRS_TAIL n.val = v.toNat % 4096 ∧
      (∀ k : Fin 64, k ≠ n → t.getN F.MBX_PTRS_TAIL k.val = s.getN F.MBX_PTRS_TAIL k.val) ∧
      Frame s t [] [F.MBX_PTRS_TAIL]) ∧
  (∀ (n : Fin 64) (v : Word) (s : State), s.groupUp .fn = true → s.linkClosed = false →
    s.getN F.MBX_STATE_STATE n.val = Mbx.active →
    s.tailBeyond n.val (v.toNat % 4096) = true → Answers (.sqTailWrite n v) s fun t =>
      t.getN F.MBX_STATE_STATE n.val = Mbx.error ∧ t.getN F.MBX_STATE_ERR_CAUSE n.val = 1 ∧
      t.getN F.MBX_PTRS_TAIL n.val = s.getN F.MBX_PTRS_TAIL n.val ∧
      Frame s t (.mbx :: raiseParts) ([F.MBX_STATE_STATE, F.MBX_STATE_ERR_CAUSE] ++ raiseFields)) ∧
  (∀ (n : Fin 64) (v : Word) (s : State), s.getN F.MBX_STATE_STATE n.val ≠ Mbx.active →
    Answers (.sqTailWrite n v) s fun t => Frame s t [] []) ∧
  (∀ (n : Fin 64) (v : Word) (s : State), s.groupUp .fn = true → s.linkClosed = false →
    s.getN F.MBX_STATE_STATE n.val ≠ Mbx.disabled → Answers (.cqHeadWrite n v) s fun t =>
      t.pair n.val = { s.pair n.val with cqHead := v.toNat % 4096 % 2 ^ (s.pair n.val).cqLog } ∧
      (∀ k : Fin 64, k ≠ n → t.pair k.val = s.pair k.val) ∧ Frame s t [.mbx] []) ∧
  (∀ (n : Fin 64) (v : Word) (s : State), s.getN F.MBX_STATE_STATE n.val = Mbx.disabled →
    Answers (.cqHeadWrite n v) s fun t => Frame s t [] []) ∧
  ∀ (n : Fin 64) (v : Word) (s : State), s.linkClosed = true →
    Answers .admDoorbellGo s (fun t => Frame s t [] []) ∧ Answers (.sqTailWrite n v) s (fun t => Frame s t [] []) ∧
    Answers (.cqHeadWrite n v) s (fun t => Frame s t [] [])

/-- R93; R98; R102; R113; R262. With the function up, FW set, acceptance running and the pair's turn: a command that is fetched from HEAD and
that neither the spill quota nor the governor holds is accepted and numbered, HEAD and EXP_SEQ advance, and the
pair is the one served last; it completes with BAD_SEQUENCE where its SEQ is not the expected one, and waits to
begin where it passes all checks. One that is held counts as held; a fetch whose page has no translation waits
for it; a fetch that fails, or an address that can not be reached, puts the pair into ERROR with cause 2. A
command whose opcode the command set does not define completes with INVALID_OPCODE. A command whose spill record
is lost completes with INTERNAL_ERROR and source 43 (the model's choice, log entry 188). Completions of:
commandAccept, invalidOpcode. -/
def Obligations.AcceptanceAndItsFailures : Prop :=
  (∀ (n : Fin 64) (s : State), s.groupUp .fn = true → s.flag F.RDY_STATUS_FW = true → s.acceptStopped = false →
    s.linkClosed = false → s.pairOffers n.val = true → s.pairTurn n.val = true →
    (∀ (u : State) (q : PageWait), s.sqFetch n.val = (u, .park q) → ∀ f : Option Line,
      Runs (.commandAccept n f) s (u.setPair n.val { u.pair n.val with sqWaits := [q] })) ∧
    (∀ (u : State) (c d : Nat), s.sqFetch n.val = (u, .stop c d) → ∀ f : Option Line,
      Answers (.commandAccept n f) s fun t =>
        t.getN F.MBX_STATE_STATE n.val = Mbx.error ∧ t.getN F.MBX_STATE_ERR_CAUSE n.val = 2 ∧
        Frame u t (.mbx :: raiseParts) ([F.MBX_STATE_STATE, F.MBX_STATE_ERR_CAUSE] ++ raiseFields)) ∧
    ∀ (u : State) (frames : List Nat), s.sqFetch n.val = (u, .ok frames) →
    let v := u.settleQuota
    Runs (.commandAccept n none) s (u.pairError n.val 2) ∧
    (∀ c : Line, v.quotaHolds c = true ∨ v.governorHolds c = true →
      Runs (.commandAccept n (some c)) s (v.holdPair n.val (v.governorHolds c))) ∧
    (∀ c : Line, v.quotaHolds c = false → v.governorHolds c = false →
      let a := Accepted.new s.mbx.nextId (.pair n) c
      Answers (.commandAccept n (some c)) s fun t =>
        t.mbx.lastPair = n.val ∧ t.mbx.nextId = s.mbx.nextId + 1 ∧
        t.getN F.MBX_PTRS_HEAD n.val = (s.getN F.MBX_PTRS_HEAD n.val + 1) % 2 ^ (s.pair n.val).sqLog % 2 ^ 12 ∧
        t.getN F.MBX_STATE_EXP_SEQ n.val = (cmdSeq c + 1) % 65536 ∧
        (cmdSeq c ≠ s.getN F.MBX_STATE_EXP_SEQ n.val →
          Completed s a CC.badSequence (s.getN F.MBX_STATE_EXP_SEQ n.val) t) ∧
        (cmdSeq c = s.getN F.MBX_STATE_EXP_SEQ n.val → v.checkCmd (.pair n) c = .passed →
          ∃ b ∈ t.mbx.accepted, b.id = a.id ∧ b.mb = .pair n ∧ b.cmd = c ∧ b.begun = false))) ∧
  (∀ (m : Mailbox) (s : State) (a : Accepted),
    s.mbx.accepted.find? (fun a => a.mb == m && !knownOpcodes.contains (cmdOpcode a.cmd)) = some a →
    Ends (.invalidOpcode m) s s a CC.invalidOpcode 0) ∧
  ∀ (m : Mailbox) (s : State) (a : Accepted) (n : Nat), s.nextCmd m (isOp Op.identify) = some a → a.record = some n →
    s.checkRecord n ≠ 0 → Answers (.identify m) s fun t =>
      Completed s a CC.internalError 43 t ∧ (s.pwr.hold = true → t.sticky 43 = true)

/-- R94; R95; R80; R113; R292. While the link takes writes: the oldest completion held for a ring with room is sent with its SEQ, code and
RESULT once its address can be reached and the write succeeds; it waits for a translation that is missing; a
write that fails is a failed CQ write. Once COAL_TIME us have passed since the first unsignalled completion, the
pair starts a new gathering and its vector, open and with the link up, is sent. Completions of:
heldCompletionWrite, coalesceTimerExpiry. -/
def Obligations.CompletionsThatWait : Prop :=
  (∀ (n : Fin 64) (s : State) (c : Cpl) (rest : List Cpl), (s.pair n.val).held = c :: rest → s.cqFull n.val = false →
    s.linkClosed = false →
    let reach := s.hostReach (s.getN F.MBX_STATE_CTX n.val) (s.cqAddr n.val) 16 true
    (∀ (u : State) (frames : List Nat), reach = (u, .ok frames) →
      Runs (.heldCompletionWrite n false) s (u.cqFails n.val) ∧
      Answers (.heldCompletionWrite n true) s fun t =>
        t.sentCpl n.val c.seq c.status c.result ∧ Frame u t [.mbx] completeFields) ∧
    ∀ (u : State) (q : PageWait), reach = (u, .park q) → ∀ w : Bool,
      Runs (.heldCompletionWrite n w) s (u.setPair n.val { u.pair n.val with waits := [q] })) ∧
  (∀ (n : Fin 64) (w : Bool) (s : State), (s.pair n.val).held = [] →
    Answers (.heldCompletionWrite n w) s fun t => Frame s t [] []) ∧
  ∀ (n : Fin 64) (s : State) (first : Nat), (s.pair n.val).firstAt = some first →
    first + 1000 * (s.pair n.val).coalTime ≤ s.now → Answers (.coalesceTimerExpiry n) s fun t =>
      t.pair n.val = { s.pair n.val with unsignalled := 0, firstAt := none } ∧
      (s.groupUp .ln = true → (s.msixEntry (8 + n.val)).masked = false → Output.msix (8 + n.val) ∈ t.out) ∧
      Frame s t [.mbx] []

/-- R110; R111; R107; R88. IDENTIFY delivers the 4,096-byte identity structure of R110 and completes OK. FW_DOWNLOAD writes its chunk into
the staging area in device DRAM and completes OK. FW_COMMIT of a valid image writes both firmware copies and
stages the release for the next load; of one whose length is wrong it completes with LENGTH_MISMATCH and the
length, of an invalid one with IMAGE_INVALID and the first failing check, and both copies stay. Completions of:
identify, fwDownload, fwCommit. -/
def Obligations.IdentityAndFirmwareUpdate : Prop :=
  (∀ (m : Mailbox) (s : State) (a : Accepted), s.begins m (isOp Op.identify) a →
    Delivers (.identify m) s a (s.identityBytes ++ List.replicate 3968 0#8)) ∧
  (∀ (m : Mailbox) (s : State) (a : Accepted) (x : Transfer), s.begins m (isOp Op.fwDownload) a →
    ∀ (v : State) (b : List Byte), s.brings a (cmdLen a.cmd) x v b →
      Runs (.fwDownload m x) s ((v.dmaWrite (v.stagingArea + cmdArg a.cmd 0) b).complete a CC.ok 0) ∧
      Answers (.fwDownload m x) s fun t =>
        t.dram.cells = (v.dmaWrite (v.stagingArea + cmdArg a.cmd 0) b).dram.cells ∧ Completed v a CC.ok 0 t) ∧
  ∀ (m : Mailbox) (s : State) (a : Accepted), s.begins m (isOp Op.fwCommit) a →
    (∀ r : Word, Answers (.fwCommit m (.valid r)) s fun t =>
      t.flash = { s.flash with
        firmware1 := ⟨r.toNat, s.staged (cmdArg a.cmd 0)⟩, firmware2 := ⟨r.toNat, s.staged (cmdArg a.cmd 0)⟩ } ∧
      t.mbx.committed = r.toNat ∧ Completed s a CC.ok 0 t ∧ Frame s t (.flash :: cplParts s a) (cplFields s a)) ∧
    (∀ n : Word, Ends (.fwCommit m (.length n)) s s a CC.lengthMismatch n.toNat) ∧
    ∀ k : Word, Ends (.fwCommit m (.invalid k)) s s a CC.imageInvalid k.toNat

/-- R112; R462; R451; R453. On the admin mailbox with the persistent latch clear, DEVICE_RESET ends every command of a pair. With none
accepted it completes OK and a chip reset is asked for that loads the running release, or with ARG0 bit 0 the
newest committed one; while the state word is DUMPING it is deferred. With the latch set it completes with
STATE_CONFLICT and asks for nothing. Completions of: deviceReset, deviceResetLoadCommitted. -/
def Obligations.DeviceResetIsAskedFor : Prop :=
  ∀ (s : State) (a : Accepted) (load : Bool),
    s.begins .admin (fun c => isOp Op.deviceReset c && bitOf (cmdArg c 0) 0 == load) a →
    let c : Instr := if load then .deviceResetLoadCommitted .admin else .deviceReset .admin
    let r : ResetReq := { req := 1, source := 0, device := true, loadCommitted := load }
    (s.latched = false → Answers c s fun t => ∀ b ∈ t.mbx.accepted, b.mb = .admin) ∧
    (s.latched = false → s.mbx.accepted.all (fun b => b.mb == .admin) = true → a.mb = .admin →
      s.pwr.request = none → s.pwr.deferred = none → Answers c s fun t =>
        t.pwr = (if s.grnState = Grn.dumping then { s.pwr with deferred := some r } else { s.pwr with request := some r }) ∧
        Completed s a CC.ok 0 t ∧ Frame s t [.mbx, .pwr] completeFields) ∧
    (s.latched = true → Ends c s s a CC.stateConflict 0)

/-- R108; R413; R411; R99. OPTION_READ delivers the newest record of the copy that ARG0 names and completes OK, or reports the failed flash
access. OPTION_WRITE reads the header and then the record. One whose declared length is not DATA_LEN completes
with LENGTH_MISMATCH and the declared length; else one in which nothing fails is sealed and written to both
copies and completes OK; one with faults completes with IMAGE_INVALID naming the lowest offset, and the vault is
left alone. Completions of: optionRead, optionWrite. -/
def Obligations.OptionAreaCommands : Prop :=
  (∀ (m : Mailbox) (s : State) (a : Accepted), s.begins m (isOp Op.optionRead) a →
    (∀ r : List Byte, s.optionNewest (cmdArg a.cmd 0) 0 = some r → Delivers (.optionRead m .ok) s a r) ∧
    ∀ c : Dword, Ends (.optionRead m (.failed c)) s s a CC.flashError c.toNat) ∧
  ∀ (m : Mailbox) (s : State) (a : Accepted) (x : Transfer), s.begins m (isOp Op.optionWrite) a →
    ∀ f : FlashResult, ReadsDeclared (.optionWrite m x f) s s a 64 (fun h => leField h 6 2) x fun w b =>
      (optionFaults b = [] → f = .ok → Answers (.optionWrite m x f) s fun t =>
        t.flash = ((w.programOption 0 (w.sealRecord b)).programOption 1 (w.sealRecord b)).flash ∧
        t.get F.BANK_STATUS_MEAS_VALID = 0 ∧ Completed w a CC.ok 0 t ∧
        Frame w t (.flash :: cplParts w a) (F.BANK_STATUS_MEAS_VALID :: cplFields w a)) ∧
      ∀ (o : Nat) (os : List Nat), optionFaults b = o :: os → Ends (.optionWrite m x f) s w a CC.imageInvalid (os.foldl min o)

/-- R109; R113; R275. With its context enabled, the pair DISABLED and the windows within 16,384, CREATE_PAIR makes the pair ACTIVE
with the arguments' window, class, context and rings, and completes OK; a pair that exists gives STATE_CONFLICT,
and too large a window RESOURCE_LIMIT. DELETE_PAIR of a pair with commands in flight leaves it DRAINING, and the
command begun; with nothing in flight and no other deletion begun the pair is DISABLED with nothing left of it,
and the command completes OK; of a DRAINING pair it completes with STATE_CONFLICT, of a DISABLED one with
NO_SUCH_OBJECT. Completions of: createPair, deletePair. -/
def Obligations.PairsAreMadeAndDrained : Prop :=
  (∀ (m : Mailbox) (s : State) (a : Accepted), s.begins m (isOp Op.createPair) a →
    let p := pairArgs a.cmd
    s.ctxEnabled p.ctx = true →
    (s.getN F.MBX_STATE_STATE p.number = Mbx.disabled → s.windowSum + p.window ≤ 16384 →
      Runs (.createPair m) s ((s.makePair a.cmd).complete a CC.ok 0) ∧
      (a.mb = .admin → Answers (.createPair m) s fun t =>
        t.getN F.MBX_STATE_STATE p.number = Mbx.active ∧ t.getN F.MBX_STATE_CLASS p.number = p.cls ∧
        t.getN F.MBX_STATE_CTX p.number = p.ctx ∧ t.getN F.MBX_PTRS_HEAD p.number = 0 ∧
        t.getN F.MBX_PTRS_TAIL p.number = 0 ∧ (t.pair p.number).sqBase = cmdArg a.cmd 0 ∧
        (t.pair p.number).cqBase = cmdArg a.cmd 1 ∧ (t.pair p.number).sqLog = p.sqLog ∧
        (t.pair p.number).cqLog = p.cqLog ∧ (t.pair p.number).phase = true ∧ Completed s a CC.ok 0 t ∧
        Frame s t [.mbx] completeFields)) ∧
    (s.getN F.MBX_STATE_STATE p.number ≠ Mbx.disabled → Ends (.createPair m) s s a CC.stateConflict 0) ∧
    (s.getN F.MBX_STATE_STATE p.number = Mbx.disabled → 16384 < s.windowSum + p.window →
      Ends (.createPair m) s s a CC.resourceLimit 0)) ∧
  ∀ (m : Mailbox) (s : State) (a : Accepted), s.begins m (isOp Op.deletePair) a →
    let n := cmdArg a.cmd 0 % 64
    let st := s.getN F.MBX_STATE_STATE n
    (st = Mbx.active ∨ st = Mbx.error → s.getN F.MBX_STATE_INFLIGHT n ≠ 0 → Answers (.deletePair m) s fun t =>
      t.getN F.MBX_STATE_STATE n = Mbx.draining ∧ t.getN F.MBX_STATE_INFLIGHT n = s.getN F.MBX_STATE_INFLIGHT n ∧
      Frame s t [.mbx] [F.MBX_STATE_STATE]) ∧
    (st = Mbx.active ∨ st = Mbx.error → s.getN F.MBX_STATE_INFLIGHT n = 0 → a.mb = .admin →
      s.mbx.accepted.any (fun b => b.begun && isOp Op.deletePair b.cmd) = false → Answers (.deletePair m) s fun t =>
        t.getN F.MBX_STATE_STATE n = Mbx.disabled ∧ t.pair n = Pair.blank ∧ Completed s a CC.ok 0 t ∧
        Frame s t [.mbx] completeFields) ∧
    (st = Mbx.draining → Ends (.deletePair m) s s a CC.stateConflict 0) ∧
    (st = Mbx.disabled → Ends (.deletePair m) s s a CC.noSuchObject 0)

/-- R470; R108; R54; R55. SET_PACING with a period keeps the setting in the pacing store and puts the entry at the target's present place,
or at the first free one, and completes OK; with no place left it completes with RESOURCE_LIMIT. With period 0
the setting and the entry are gone. FT_LOAD, with no load pending and none in progress, writes FT_LOAD: a value
that is no whole second fails with ARM_FAIL and completes with TIME_NOT_ALIGNED; any other becomes the pending
load, and the command is in progress until that ends. Which free place is taken is the model's choice (log entry
41). Completions of: setPacing, ftLoad. -/
def Obligations.PacingSettingsAreStored : Prop :=
  (∀ (m : Mailbox) (s : State) (a : Accepted), s.begins m (isOp Op.setPacing) a →
    let target := cmdArg a.cmd 0
    let place := (s.pacingEntry target).orElse (fun _ => s.freeEntries.head?)
    (∀ i : Nat, cmdArg a.cmd 1 ≠ 0 → place = some i → Answers (.setPacing m) s fun t =>
        (∃ e, t.cal.entries.get? i = some e ∧ e.target = target ∧ e.instant = cmdArg a.cmd 2 ∧
          e.period = cmdArg a.cmd 1 ∧ e.arg = cmdArg a.cmd 3) ∧
        (s.ringBad a = false → ∃ e, t.hub.pacing.get? target = some e ∧ e.period = cmdArg a.cmd 1) ∧
        Completed s a CC.ok 0 t ∧ Frame s t (.cal :: .hub :: cplParts s a) (cplFields s a)) ∧
    (cmdArg a.cmd 1 ≠ 0 → place = none → Ends (.setPacing m) s s a CC.resourceLimit 0) ∧
    (cmdArg a.cmd 1 = 0 → Answers (.setPacing m) s fun t =>
      (∀ i, s.pacingEntry target = some i → t.cal.entries.get? i = none) ∧ Completed s a CC.ok 0 t ∧
      Frame s t (.cal :: .hub :: cplParts s a) (cplFields s a))) ∧
  ∀ (m : Mailbox) (s : State) (a : Accepted), s.begins m (isOp Op.ftLoad) a → s.ft.pending = none →
    s.ftCommand = none →
    let v := cmdArg a.cmd 0
    (v % second = 0 → Answers (.ftLoad m) s fun t =>
      t.ft = { s.ft with pending := some ⟨v, s.now, s.flag F.FT_STATUS_REF_OK⟩ } ∧ t.get F.FT_LOAD_VALUE = v ∧
      t.mbx.accepted.any (fun b => b.id == a.id && b.begun) = true ∧ Frame s t [.ft, .mbx] [F.FT_LOAD_VALUE]) ∧
    (v % second ≠ 0 → Answers (.ftLoad m) s fun t =>
      t.get F.FT_LOAD_VALUE = v ∧ t.get F.FT_STATUS_ARM_FAIL = 1 ∧ t.get F.FT_STATUS_ARM_CAUSE = 2 ∧
      Completed s a CC.timeNotAligned 0 t ∧
      Frame s t (cplParts s a) ([F.FT_LOAD_VALUE, F.FT_STATUS_ARM_FAIL, F.FT_STATUS_ARM_CAUSE] ++ cplFields s a))

/-- R108; R351; R530; R101; R163. With a staging buffer free: in HELD or FAILED an INGEST completes with STATE_CONFLICT and the lines accepted;
with all its lines accepted it completes OK. The last line, once its data is read and its place in the window
can be accessed, is accepted with the reservation granted to the command while ingress is open, or with one
granted at once, and completes the command OK; it waits where no reservation can be granted or others wait,
where an earlier command of the pair writes the line first, or where its page is not there yet. A transfer or a
place that stops ends the command. Completions of: ingest. -/
def Obligations.IngestAcceptsLines : Prop :=
  ∀ (m : Mailbox) (seq : BitVec 16) (x : Transfer) (s : State) (a : Accepted), x.wholeLines = true →
    s.ingestCmd m seq.toNat = some a → a.record.all (fun n => s.checkRecord n == 0) = true → s.canStage = true →
    let b : Accepted := { a with begun := true }
    let w := a.waiter
    let goes : State → Prop := Runs (.ingest m ⟨seq, x⟩) s
    let ends_ : State → Nat → Nat → Prop := fun u code r =>
      goes (u.endIngest b code r) ∧ Answers (.ingest m ⟨seq, x⟩) s fun t => Completed u a code r t
    let held := s.grnState = Grn.heldState ∨ s.grnState = Grn.failed
    (held → ends_ s CC.stateConflict a.progress) ∧
    (¬ held → ingestLines a ≤ a.progress → ends_ s CC.ok 0) ∧
    let read := s.mailRead b (cmdAddr a.cmd + 64 * a.progress) (ingestPart a x) x
    (∀ u : State, read = .ended u → ¬ held → goes (u.dropWaiter w)) ∧
    ∀ (v : State) (d : List Byte), read = .bytes v d → ¬ held → ingestLines a = a.progress + 1 → d.length = 64 →
      let addr := cmdArg a.cmd 0 + 64 * a.progress
      addr % 64 = 0 →
      (v.lineAhead b (addr / 64) = true → goes (v.update b)) ∧
      (v.lineAhead b (addr / 64) = false →
        (∀ (u : State) (q : PageWait), v.reach (placeOf 0 0 addr) 64 true = (u, .park q) →
          goes (u.update { b with waits := [q] })) ∧
        ∀ (u : State) (frames : List Nat), v.reach (placeOf 0 0 addr) 64 true = (u, .ok frames) →
          let l : Line := BitVec.ofNat 512 (ofLeBytes d)
          let mine := u.grn.granted.contains w && !u.grn.closed
          let ends : State → Prop := fun y => goes (y.endIngest { b with progress := a.progress + 1 } CC.ok 0)
          (mine = true → ends ((u.useGrant w).acceptLine (addr / 64) l false)) ∧
          (mine = false → u.canReserve = true → u.grn.waiters = [] → ends (u.acceptLine (addr / 64) l false)) ∧
          (mine = false → (u.canReserve = false ∨ u.grn.waiters ≠ []) → goes ((u.waitLine w).update b)))

/-- R440; R439; R436. When the lock, the persistent latch and the class allow it, FAULT_CONFIG writes the mask in force (0xFFFF
selects the default, forced bits are set) of its source alone and completes OK; otherwise it completes with
STATE_CONFLICT and changes no mask. A direct write obeys the same conditions and is otherwise ignored silently.
Completions of: faultConfig, maskWrite. -/
def Obligations.FaultMasksAreWritten : Prop :=
  (∀ (m : Mailbox) (s : State) (a : Accepted), s.begins m (isOp Op.faultConfig) a →
    let n := cmdArg a.cmd 0
    let v := cmdArg a.cmd 1
    (s.maskLocked n = false → Answers (.faultConfig m) s fun t =>
      t.getN F.FLT_SRC_CFG_MASK n = ((if v = 0xFFFF then sourceMask n else v) ||| sourceForced n) % 128 ∧
      (∀ k, k < 256 → k ≠ n % 8192 → t.getN F.FLT_SRC_CFG_MASK k = s.getN F.FLT_SRC_CFG_MASK k) ∧
      Completed s a CC.ok 0 t ∧ Frame s t (cplParts s a) (F.FLT_SRC_CFG_MASK :: cplFields s a)) ∧
    (s.maskLocked n = true → Answers (.faultConfig m) s fun t =>
      Completed s a CC.stateConflict 0 t ∧ Frame s t (cplParts s a) (cplFields s a))) ∧
  ∀ (n : BitVec 8) (w : Word) (s : State),
    let v := w.toNat % 2 ^ 16
    ((s.pwr.hold = true ∧ (sourceInfo n.toNat).isSome = true ∧ maskInvalid n.toNat v = false ∧
        s.maskLocked n.toNat = false) → Answers (.maskWrite n w) s fun t =>
      t.getN F.FLT_SRC_CFG_MASK n.toNat =
        ((if v = 0xFFFF then sourceMask n.toNat else v) ||| sourceForced n.toNat) % 128 ∧
      (∀ k, k < 256 → k ≠ n.toNat → t.getN F.FLT_SRC_CFG_MASK k = s.getN F.FLT_SRC_CFG_MASK k) ∧
      Frame s t [] [F.FLT_SRC_CFG_MASK]) ∧
    (¬ (s.pwr.hold = true ∧ (sourceInfo n.toNat).isSome = true ∧ maskInvalid n.toNat v = false ∧
        s.maskLocked n.toNat = false) → Answers (.maskWrite n w) s fun t => Frame s t [] [])

/-- R455; R453. FAULT_INJECT arms the checker that its arguments name and completes OK, or with STATE_CONFLICT while the
persistent latch is set. A write of FLT_INJ with GO arms the checker it names unless injection is disabled, the
latch is set or the source has no such checker; the names written stand either way. Completions of: faultInject,
fltInjGo. -/
def Obligations.CheckersAreArmed : Prop :=
  (∀ (m : Mailbox) (s : State) (a : Accepted), s.begins m (isOp Op.faultInject) a →
    (s.latched = false → Answers (.faultInject m) s fun t =>
      (s.ringBad a = false → (cmdArg a.cmd 0, cmdArg a.cmd 1) ∈ t.hub.armed) ∧
      t.getN F.FLT_SRC_CFG_INJ_ARMED (cmdArg a.cmd 0) = 1 ∧ Completed s a CC.ok 0 t ∧
      Frame s t (.hub :: cplParts s a) (F.FLT_SRC_CFG_INJ_ARMED :: cplFields s a)) ∧
    (s.latched = true → Answers (.faultInject m) s fun t =>
      Completed s a CC.stateConflict 0 t ∧ Frame s t (cplParts s a) (cplFields s a))) ∧
  ∀ (v : Word) (s : State), s.pwr.hold = true →
    let n := bitsOf v.toNat 7 0
    let c := bitsOf v.toNat 15 8
    Answers (.fltInjGo v) s fun t =>
      t.get F.FLT_INJ_SOURCE = n ∧ t.get F.FLT_INJ_CHECKER = c ∧
      (s.flag F.FLT_CTL_INJ_DIS = false → s.latched = false → c < sourceCheckers n →
        (n, c) ∈ t.hub.armed ∧ t.getN F.FLT_SRC_CFG_INJ_ARMED n = 1) ∧
      (s.flag F.FLT_CTL_INJ_DIS = true ∨ s.latched = true ∨ sourceCheckers n ≤ c → t.hub.armed = s.hub.armed) ∧
      Frame s t [.hub] [F.FLT_INJ_SOURCE, F.FLT_INJ_CHECKER, F.FLT_SRC_CFG_INJ_ARMED]

/-- R441; R445; R446. While HOLD is powered: after a write to FLT_STICKY[k] a bit is set exactly if it was set before and it was not
written with 1 or its live bit is set. A write of FLT_FIRST3.VALID clears VALID. The oldest record of the intake
enters the history queue at WR, and WR and the intake advance; an empty intake changes nothing. Completions of:
stickyClear, firstCaptureRearm, historyEntry. -/
def Obligations.StickyAndFirstCaptureAreCleared : Prop :=
  (∀ (k : BitVec 2) (v : Dword) (s : State), s.pwr.hold = true → Answers (.stickyClear k v) s fun t =>
    (∀ i, i < 64 → bitOf (t.getN F.FLT_STICKY_STICKY k.toNat) i =
      (bitOf (s.getN F.FLT_STICKY_STICKY k.toNat) i &&
        (!bitOf v.toNat i || bitOf (s.getN F.FLT_LIVE_LIVE k.toNat) i))) ∧
    (∀ j, j < 4 → j ≠ k.toNat → t.getN F.FLT_STICKY_STICKY j = s.getN F.FLT_STICKY_STICKY j) ∧
    Frame s t [] [F.FLT_STICKY_STICKY]) ∧
  (∀ s : State, s.pwr.hold = true → Answers .firstCaptureRearm s fun t =>
    t.get F.FLT_FIRST3_VALID = 0 ∧ Frame s t [] [F.FLT_FIRST3_VALID]) ∧
  (∀ (s : State) (r : FaultRecord) (rest : List FaultRecord), s.pwr.hold = true → s.hub.intake = r :: rest →
    s.get F.FLT_HIST_PTRS_WR < 64 → Answers .historyEntry s fun t =>
      t.hub.intake = rest ∧ t.get F.FLT_HIST_PTRS_WR = (s.get F.FLT_HIST_PTRS_WR + 1) % 64 ∧
      t.getN F.FLT_HIST_W0_RECORD (s.get F.FLT_HIST_PTRS_WR) = r.devNs % 2 ^ 64 ∧
      t.getN F.FLT_HIST_W1_RECORD (s.get F.FLT_HIST_PTRS_WR) = r.ft % 2 ^ 64 ∧
      t.getN F.FLT_HIST_W2_RECORD (s.get F.FLT_HIST_PTRS_WR) = r.info % 2 ^ 64 ∧
      t.getN F.FLT_HIST_W3_RECORD (s.get F.FLT_HIST_PTRS_WR) = r.word3 % 2 ^ 64 ∧
      Frame s t [.hub] [F.FLT_HIST_PTRS_WR, F.FLT_HIST_PTRS_SEQ, F.FLT_HIST_W0_RECORD, F.FLT_HIST_W1_RECORD,
        F.FLT_HIST_W2_RECORD, F.FLT_HIST_W3_RECORD]) ∧
  ∀ s : State, s.hub.intake = [] → Answers .historyEntry s fun t => Frame s t [] []

/-- R441; R445; R437; R81. While HOLD is powered, loss of device clock lock (source 5) and each link error of the AER table (sources 16 to
20) set the sticky bit of their source; of class RECOVERABLE or above they leave FLT_FIRST.VALID set; and each
is reported through AER or recorded with nothing outside the hub, its reactions and the settling changed, but
for the armed checker that an injection consumes. Completions of: clockLockLost, linkError. -/
def Obligations.AnEventIsCaptured : Prop :=
  (∀ s : State, s.pwr.hold = true → Answers .clockLockLost s fun t =>
    t.sticky 5 = true ∧ t.flag F.FLT_FIRST3_VALID = true ∧ Frame s t raiseParts raiseFields) ∧
  ∀ (kind : LinkErrorKind) (header : BitVec 128) (s : State), s.groupUp .ln = true →
    Answers (.linkError ⟨kind, header⟩) s fun t =>
    t.sticky (match kind with
      | .correctable => 16
      | .advisory => 17
      | .poisonedTlp => 18
      | .completionError => 19
      | .protocolFatal => 20) = true ∧
    Output.aer kind ∈ t.out ∧
    (kind = .poisonedTlp ∨ kind = .completionError ∨ kind = .protocolFatal → t.flag F.FLT_FIRST3_VALID = true) ∧
    (kind ≠ .correctable → s.link.aerFirst = none → t.link.aerFirst = some (kind, header)) ∧
    (kind ≠ .correctable → Frame s t raiseParts raiseFields) ∧
    Frame s t raiseParts (F.FLT_SRC_CFG_INJ_ARMED :: raiseFields)

/-- R448; R437. A Clatos core that runs and misses its watchdog raises source 1; one trapped for 250 us is block-reset; a
block-reset core runs again when its restart completes, and the command it was executing, if it had begun,
completes with INTERNAL_ERROR and RESULT 1. The management core's watchdog raises source 3 and block-resets it,
as its mask says; its restart makes it answer again. Completions of: clatosWatchdogExpiry, nmiAckTimeout,
coreRestartComplete, managementCoreWatchdog, managementCoreRestart. -/
def Obligations.CoresAreTrappedAndReset : Prop :=
  (∀ (core : BitVec 2) (s : State), s.mainUp = true → s.core core.toNat = .running →
    Answers (.clatosWatchdogExpiry core) s fun t => t.sticky 1 = true) ∧
  (∀ (core : BitVec 2) (s : State) (since : Nat), s.mainUp = true → s.core core.toNat = .trapped since →
    since + 250000 ≤ s.now → s.hub.lastCoreReset = none → Answers (.nmiAckTimeout core) s fun t =>
      t.core core.toNat = .blockReset s.now ∧ t.hub.lastCoreReset = some s.now ∧ Frame s t [.hub] []) ∧
  (∀ (core : BitVec 2) (s : State) (since : Nat), s.core core.toNat = .blockReset since →
    Answers (.coreRestartComplete core none) s fun t =>
      t.core core.toNat = .running ∧ t.mbx = s.mbx ∧ Frame s t [.hub] []) ∧
  (∀ (core : BitVec 2) (id : Nat) (s : State) (since : Nat) (a : Accepted), s.core core.toNat = .blockReset since →
    s.mbx.accepted.find? (fun a => a.id == id && a.begun) = some a →
    Answers (.coreRestartComplete core (some id)) s fun t =>
      Completed s a CC.internalError 1 t ∧ Frame s t (.hub :: cplParts s a) (cplFields s a)) ∧
  (∀ s : State, s.pwr.aux = true → s.pwr.hold = true → s.hub.mgmtReset = false → bitOf (s.maskOf 3) 3 = true →
    Answers .managementCoreWatchdog s fun t => t.sticky 3 = true ∧ t.hub.mgmtReset = true ∧
      t.get F.MGT_STATUS_ANSWERING = 0) ∧
  ∀ s : State, s.mgt.queue = [] → Answers .managementCoreRestart s fun t =>
    t.hub.mgmtReset = false ∧ t.get F.MGT_STATUS_ANSWERING = natOfBool s.pwr.aux ∧ Frame s t [.hub] []

/-- R65; R67; R81; R437. With the link block up and PERST_N high, training to a width and a speed sets LINK_UP, the width and speed
within the caps of HL_CTL, and MODE: CXL only at 32 GT/s with the alternate protocol negotiated and CXL_EN set,
else PCIe with no decoder committed; decoder 1 stays committed only with VOL_EN set; source 22 is live exactly
below x16 at 32 GT/s. With no width or no speed the link is down; with the block down or PERST_N low nothing
changes. A surprise link down clears LINK_UP, is reported through AER, sets the sticky bit of source 21 and
drops the CXL.mem traffic that waited. Completions of: linkTraining, surpriseLinkDown. -/
def Obligations.TheLinkTrainsAndDrops : Prop :=
  (∀ (width speed : BitVec 3) (alternate : Bool) (s : State), s.groupUp .ln = true → s.pwr.perst = false →
    width ≠ 0 → speed ≠ 0 →
    let w := min (min 5 width.toNat) (linkCap (s.get F.HL_CTL_MAX_WIDTH))
    let v := min (min 5 speed.toNat) (linkCap (s.get F.HL_CTL_MAX_SPEED))
    let cxl := alternate && v == 5 && s.flag F.HL_CTL_CXL_EN
    Answers (.linkTraining width speed alternate) s fun t =>
      t.get F.HL_STATUS_LINK_UP = 1 ∧ t.get F.HL_STATUS_WIDTH = w ∧ t.get F.HL_STATUS_SPEED = v ∧
      t.get F.HL_STATUS_MODE = (if cxl then 2 else 1) ∧
      (cxl = false → t.link.hdm0.committed = false ∧ t.link.hdm1.committed = false) ∧
      (cxl = true → t.link.hdm0 = s.link.hdm0 ∧
        t.link.hdm1 = { s.link.hdm1 with committed := s.link.hdm1.committed && s.flag F.HL_CTL_VOL_EN }) ∧
      t.live 22 = !(w == 5 && v == 5) ∧
      Frame s t raiseParts ([F.HL_STATUS_LINK_UP, F.HL_STATUS_WIDTH, F.HL_STATUS_SPEED, F.HL_STATUS_MODE] ++ raiseFields)) ∧
  (∀ (width speed : BitVec 3) (alternate : Bool) (s : State), s.groupUp .ln = true → s.pwr.perst = false →
    (width = 0 ∨ speed = 0) → Answers (.linkTraining width speed alternate) s fun t =>
      t.get F.HL_STATUS_LINK_UP = 0 ∧ t.get F.HL_STATUS_WIDTH = 0 ∧ t.get F.HL_STATUS_SPEED = 0 ∧
      t.get F.HL_STATUS_MODE = 0 ∧
      Frame s t [.link] [F.HL_STATUS_LINK_UP, F.HL_STATUS_WIDTH, F.HL_STATUS_SPEED, F.HL_STATUS_MODE]) ∧
  (∀ (width speed : BitVec 3) (alternate : Bool) (s : State), (s.groupUp .ln = false ∨ s.pwr.perst = true) →
    Answers (.linkTraining width speed alternate) s fun t => Frame s t [] []) ∧
  ∀ s : State, s.linkUp = true → s.pwr.perst = false → Answers .surpriseLinkDown s fun t =>
    t.get F.HL_STATUS_LINK_UP = 0 ∧ t.get F.HL_STATUS_WIDTH = 0 ∧ t.get F.HL_STATUS_SPEED = 0 ∧
    t.get F.HL_STATUS_MODE = 0 ∧ t.sticky 21 = true ∧ Output.aerLinkDown ∈ t.out ∧
    t.link.waiting = [] ∧ t.link.reads = [] ∧
    Frame s t raiseParts ([F.HL_STATUS_LINK_UP, F.HL_STATUS_WIDTH, F.HL_STATUS_SPEED, F.HL_STATUS_MODE] ++ raiseFields)

/-- R80. With the link up, an event of a used vector that is masked sets its pending bit and sends nothing, and a second
such event changes nothing more. Unmasking a vector whose pending bit is set sends exactly one message of it and
clears the bit; unmasking one that is not pending sends none. The state before is one whose live status follows
it, as every state after a command is. Completions of: msixUnmask. -/
def Obligations.MaskedVectorsPend : Prop :=
  (∀ (v : BitVec 8) (s : State), s.groupUp .ln = true → ¬ (5 ≤ v.toNat ∧ v.toNat ≤ 7) →
    (s.msixEntry v.toNat).masked = true →
    v.toNat ∈ (s.signal v.toNat).link.pba ∧ (s.signal v.toNat).out = s.out ∧
    (s.signal v.toNat).signal v.toNat = s.signal v.toNat) ∧
  ∀ (v : BitVec 8) (s : State), s.statusFollows → s.groupUp .ln = true →
    Answers (.msixUnmask v) s fun t =>
      (t.msixEntry v.toNat).masked = false ∧ v.toNat ∉ t.link.pba ∧
      t.out = (if v.toNat ∈ s.link.pba then Output.msix v.toNat :: s.out else s.out) ∧ Frame s t [.link] []

/-- R72; R73; R75; R78; R344; R372; R70. On an open CXL link, a write that decoder 0 maps is accepted into the landing buffer as its window line and
completed when a reservation can be granted and nothing waits before it; else it waits ahead of the link with
data and poison. A read of a line in the landing buffer answers its newest data and poison; a read of an
unrestored page demands its fetch and waits, or is answered with poison where none can be fetched (the model's
choice, log entry 174); any other read of the window goes to device DRAM. Decoder 1 maps volatile capacity: its
writes and reads go to its set in device DRAM. A write that no decoder maps is dropped with its Cmp and a read
answered with poison (the model's choice, log entry 59). Each phase of a Global Persistent Flush is acknowledged
and changes nothing. Completions of: cxlMemWrite, cxlMemRead, globalPersistentFlush. -/
def Obligations.CxlMemoryTraffic : Prop :=
  (∀ (hpa : Dword) (data : Line) (poison : Bool) (s : State), s.cxlUp = true → s.linkClosed = false →
    s.link.hdm0.maps hpa.toNat = true →
    let line := s.link.hdm0.offset hpa.toNat / 64
    (s.canReserve = true → s.grn.waiters = [] → Answers (.cxlMemWrite hpa data poison) s fun t =>
      Output.cxlCmp hpa.toNat ∈ t.out ∧ t.landed line = some ⟨line, data, poison⟩ ∧ t.grn.dirty.mem (line / 64) = true ∧
      (∀ l : Nat, l ≠ line → t.landed l = s.landed l)) ∧
    ((s.canReserve = false ∨ s.grn.waiters ≠ []) → Answers (.cxlMemWrite hpa data poison) s fun t =>
      t.link.waiting = s.link.waiting ++ [⟨.cmp hpa.toNat, line, data, poison⟩] ∧
      t.grn.waiters = s.grn.waiters ++ [Waiter.cxl] ∧ t.grn.landing = s.grn.landing)) ∧
  (∀ (hpa : Dword) (tag : BitVec 16) (s : State), s.cxlUp = true → s.linkClosed = false →
    s.link.hdm0.maps hpa.toNat = true →
    let line := s.link.hdm0.offset hpa.toNat / 64
    (∀ l : LandLine, s.landed line = some l → Answers (.cxlMemRead hpa tag) s fun t =>
      Output.cxlData tag.toNat l.data l.poison ∈ t.out ∧ Frame s t [] []) ∧
    (s.landed line = none → s.grn.unrestored.mem (line * 64 / 4096) = true →
      (s.canFetch = true → Answers (.cxlMemRead hpa tag) s fun t =>
        (tag.toNat, line * 64) ∈ t.link.reads ∧ ∃ f ∈ t.grn.fetches, f.page = line * 64 / 4096) ∧
      (s.canFetch = false → Answers (.cxlMemRead hpa tag) s fun t =>
        Output.cxlData tag.toNat 0 true ∈ t.out ∧ Frame s t [] [])) ∧
    (s.landed line = none → s.grn.unrestored.mem (line * 64 / 4096) = false →
      Runs (.cxlMemRead hpa tag) s (s.cxlReadDram (grnBase + line * 64) tag.toNat))) ∧
  (∀ (hpa : Dword) (data : Line) (poison : Bool) (tag : BitVec 16) (s : State), s.cxlUp = true → s.linkClosed = false →
    s.link.hdm0.maps hpa.toNat = false →
    let vol := if s.link.hdm1.maps hpa.toNat then s.volatileBase else none
    (∀ b : Nat, vol = some b →
      let dpa := b + s.link.hdm1.offset hpa.toNat / 64 * 64
      (Answers (.cxlMemWrite hpa data poison) s fun t => Output.cxlCmp hpa.toNat ∈ t.out ∧
        t.dram.cells = (s.dramWrite dpa data poison .host 0 false).dram.cells) ∧
      Runs (.cxlMemRead hpa tag) s (s.cxlReadDram dpa tag.toNat)) ∧
    (vol = none →
      (Answers (.cxlMemWrite hpa data poison) s fun t => Output.cxlCmp hpa.toNat ∈ t.out ∧ Frame s t [] []) ∧
      Answers (.cxlMemRead hpa tag) s fun t => Output.cxlData tag.toNat 0 true ∈ t.out ∧ Frame s t [] [])) ∧
  ∀ (second : Bool) (s : State), s.cxlUp = true → s.linkClosed = false →
    Answers (.globalPersistentFlush second) s fun t => Output.gpfAck second ∈ t.out ∧ Frame s t [] []

/-- R70; R71; R305. In CXL mode, before ingress has closed, a decoder with 1, 2, 4 or 8 ways, a granularity that is a power of two
from 256 to 16,384 and a size that is a multiple of 256 MiB and not 0 commits: decoder 0 while the Granary
serves and the size is its ways times the window, decoder 1 with VOL_EN and the DRAM ready. Otherwise it is not
committed and its error shows. The other decoder, and with the link not in CXL mode both, stay. Completions of:
hdmDecoderCommit. -/
def Obligations.DecodersCommitOrFail : Prop :=
  (∀ (base size : Dword) (ways : BitVec 8) (g : BitVec 32) (s : State), s.cxlUp = true →
    s.linkClosed = false →
    let shape := hdmSupported size.toNat ways.toNat g.toNat
    let h : Bool → Hdm := fun ok => ⟨ok, !ok, base.toNat, size.toNat, ways.toNat, g.toNat⟩
    (Answers (.hdmDecoderCommit false base size ways g) s fun t =>
      t.link.hdm0 = h (shape && s.grnServes && decide (size.toNat = ways.toNat * s.grn.config.windowLen)) ∧
      { t.link with hdm0 := s.link.hdm0, pba := s.link.pba } = s.link ∧ Frame s t [.link] []) ∧
    Answers (.hdmDecoderCommit true base size ways g) s fun t =>
      t.link.hdm1 = h (shape && s.flag F.HL_CTL_VOL_EN && s.flag F.RDY_STATUS_DRAM) ∧
      { t.link with hdm1 := s.link.hdm1, pba := s.link.pba } = s.link ∧ Frame s t [.link] []) ∧
  ∀ (d : Bool) (base size : Dword) (ways : BitVec 8) (g : BitVec 32) (s : State), (s.cxlUp = false ∨ s.linkClosed = true) →
    Answers (.hdmDecoderCommit d base size ways g) s fun t => Frame s t [] []

/-- R83. While the firmware answers the CXL mailbox: each reporting command completes with Success and its payload, from
the state, or with the input error named; every opcode outside the table completes with Unsupported; nothing but
outputs, the doorbell and the event of vector 4 follows. The payload layouts are those of the CXL 2.0
specification (log entry 7); the effects in the Command Effects Log, the event-log and poison limits, life used,
temperature and the scan estimate are free. The rung doorbell is cleared. While the firmware does not answer,
the doorbell stays rung and nothing else changes; with the link not in CXL mode or ingress closed nothing does.
Completions of: getEventRecords, getEventInterruptPolicy, getFwInfo, getTimestamp, getSupportedLogs, getLog,
identifyMemoryDevice, getPartitionInfo, getLsa, getHealthInfo, getAlertConfiguration, getShutdownState,
getPoisonList, scanMediaCapabilities, scanMediaResults, cxlUnsupportedOpcode. -/
def Obligations.CxlMailboxAnswersReads : Prop :=
  (∀ s : State, s.cxlAnswers = true → s.linkClosed = false →
    let replies : Instr → Nat → Nat → List Byte → Prop := fun c op code p =>
      Answers c s fun t => Output.cxlReply op code p ∈ t.out ∧
        { t.link with pba := s.link.pba } = { s.link with doorbell := false } ∧ Frame s t [.link] []
    let records : Nat → List CxlEvent := fun log => s.link.events.filter (fun e => e.log == log)
    (∀ log : BitVec 8, log.toNat ≤ 3 → replies (.getEventRecords log) 0x0100 Cxl.success
      (zeros 20 ++ leBytes 2 (records log.toNat).length ++ zeros 10 ++ (records log.toNat).flatMap CxlEvent.bytes)) ∧
    (∀ log : BitVec 8, 3 < log.toNat → replies (.getEventRecords log) 0x0100 Cxl.invalidInput []) ∧
    replies .getEventInterruptPolicy 0x0102 Cxl.success (leBytes 4 s.link.policy) ∧
    replies .getFwInfo 0x0200 Cxl.success (leBytes 2 0x0101 ++ zeros 14 ++ ascii releaseName 16 ++ zeros 48) ∧
    replies .getTimestamp 0x0300 Cxl.success (leBytes 8 (s.link.stampSet + (s.now - s.link.stampAt))) ∧
    replies .getSupportedLogs 0x0400 Cxl.success (leBytes 2 1 ++ zeros 6 ++ leBytes 16 celUuid ++ leBytes 4 96) ∧
    (∀ (id : BitVec 128) (o n : Word), id.toNat = celUuid → o.toNat + n.toNat ≤ 96 →
      ∃ p : List Byte, p.length = n.toNat ∧ replies (.getLog id o n) 0x0401 Cxl.success p) ∧
    (∀ (id : BitVec 128) (o n : Word), (id.toNat ≠ celUuid ∨ 96 < o.toNat + n.toNat) →
      replies (.getLog id o n) 0x0401 Cxl.invalidInput []) ∧
    (∃ a b : Nat, replies .identifyMemoryDevice 0x4000 Cxl.success
      (ascii releaseName 16 ++ leBytes 8 (s.grn.config.windowLen / 2 ^ 28 + s.volatileCapacity / 2 ^ 28) ++
       leBytes 8 (s.volatileCapacity / 2 ^ 28) ++ leBytes 8 (s.grn.config.windowLen / 2 ^ 28) ++ leBytes 8 0 ++
       leBytes 8 a ++ leBytes 4 131072 ++ leBytes 5 b ++ zeros 2)) ∧
    replies .getPartitionInfo 0x4100 Cxl.success
      (leBytes 8 (s.volatileCapacity / 2 ^ 28) ++ leBytes 8 (s.grn.config.windowLen / 2 ^ 28) ++ zeros 16) ∧
    (∀ o n : Word, o.toNat + n.toNat ≤ 131072 → replies (.getLsa o n) 0x4102 Cxl.success
      ((List.range n.toNat).map (fun i => s.link.lsa.getD (o.toNat + i) 0))) ∧
    (∀ o n : Word, 131072 < o.toNat + n.toNat → replies (.getLsa o n) 0x4102 Cxl.invalidInput []) ∧
    (∃ life temp : Nat, replies .getHealthInfo 0x4200 Cxl.success
      (zeros 1 ++ leBytes 1 (natOfBool (!s.grnServes)) ++ leBytes 1 (s.additionalStatus life temp) ++ leBytes 1 life ++ leBytes 2 temp ++
       leBytes 4 s.grn.dirtyShutdowns ++ leBytes 4 (s.correctedReads 4 8) ++ leBytes 4 (s.correctedReads 0 4))) ∧
    (∃ life hot cold : Nat, let c := s.link.alertConfig
      replies .getAlertConfiguration 0x4201 Cxl.success
        (leBytes 1 (bitsOf c 10 8) ++ leBytes 1 7 ++ leBytes 1 life ++ leBytes 1 (bitsOf c 23 16) ++ leBytes 2 hot ++
         leBytes 2 cold ++ leBytes 2 (bitsOf c 47 32) ++ leBytes 2 (bitsOf c 63 48) ++ zeros 4)) ∧
    replies .getShutdownState 0x4203 Cxl.success (leBytes 1 s.link.shutdownState) ∧
    (∀ (a n : Dword) (o : Nat), s.windowOffset a.toNat = some o →
      let ls := s.poisonedLines o (o + 64 * n.toNat)
      replies (.getPoisonList a n) 0x4300 Cxl.success
        (zeros 10 ++ leBytes 2 ls.length ++ zeros 20 ++ ls.flatMap s.mediaRecord) ∧
      ∃ v : Nat, replies (.scanMediaCapabilities a n) 0x4303 Cxl.success (leBytes 4 v)) ∧
    (∀ a n : Dword, s.windowOffset a.toNat = none →
      replies (.getPoisonList a n) 0x4300 Cxl.invalidAddress [] ∧
      replies (.scanMediaCapabilities a n) 0x4303 Cxl.invalidAddress []) ∧
    (∀ m : MediaScan, s.link.scan = some m → replies .scanMediaResults 0x4305 Cxl.success
      (zeros 18 ++ leBytes 2 m.found.length ++ zeros 12 ++ m.found.flatMap s.mediaRecord)) ∧
    (s.link.scan = none → replies .scanMediaResults 0x4305 Cxl.unsupported []) ∧
    (∀ op : BitVec 16, op.toNat ∉ cxlOpcodes → replies (.cxlUnsupportedOpcode op) op.toNat Cxl.unsupported [])) ∧
  ∀ s : State, s.cxlAnswers = false → ∀ c ∈ [Instr.getEventInterruptPolicy, .getFwInfo, .getTimestamp, .getSupportedLogs,
      .identifyMemoryDevice, .getPartitionInfo, .getHealthInfo, .getAlertConfiguration, .getShutdownState,
      .scanMediaResults],
    (s.cxlUp = true → s.linkClosed = false → Answers c s fun t =>
      { t.link with pba := s.link.pba } = { s.link with doorbell := true } ∧ Frame s t [.link] []) ∧
    (s.cxlUp = false ∨ s.linkClosed = true → Answers c s fun t => Frame s t [] [])

/-- R83; R84. While the firmware answers the CXL mailbox, each setting command stores exactly its own item of the link's state
and completes with Success: the interrupt policy, the timestamp and the time of its setting, bytes of the label
storage area within 128 KiB, the alerts that the command asks to change, the shutdown state; Clear Event Records
drops the records named of a log and keeps the others; Scan Media keeps what its pass finds. Injected poison and
a cleared line enter the landing buffer as that line, poisoned with its data, or zero, when a reservation can be
granted and nothing waits before them; else they wait ahead of the link like any write of the window. The rung
doorbell is cleared. Completions of: clearEventRecords, setEventInterruptPolicy, setTimestamp, setLsa,
setAlertConfiguration, setShutdownState, injectPoison, clearPoison, scanMedia. -/
def Obligations.CxlMailboxKeepsWhatIsSet : Prop :=
  ∀ s : State, s.cxlAnswers = true → s.linkClosed = false →
    let base : Link := { s.link with doorbell := false }
    let sets : Instr → Nat → Link → Prop := fun c op l =>
      Answers c s fun t => Output.cxlReply op Cxl.success [] ∈ t.out ∧
        { t.link with pba := s.link.pba } = l ∧ Frame s t [.link] []
    let fails : Instr → Nat → Nat → Prop := fun c op code =>
      Answers c s fun t => Output.cxlReply op code [] ∈ t.out ∧
        { t.link with pba := s.link.pba } = base ∧ Frame s t [.link] []
    (∀ v : Word, sets (.setEventInterruptPolicy v) 0x0103 { base with policy := v.toNat }) ∧
    (∀ v : Dword, sets (.setTimestamp v) 0x0301 { base with stampSet := v.toNat, stampAt := s.now }) ∧
    (∀ v : BitVec 96, sets (.setAlertConfiguration v) 0x4202 { base with alertConfig := mergeAlerts s.link.alertConfig v.toNat }) ∧
    (∀ v : Byte, sets (.setShutdownState v) 0x4204 { base with shutdownState := v.toNat }) ∧
    (∀ (log : BitVec 8) (hs : List (BitVec 16)), log.toNat ≤ 3 → hs.length ≤ 255 →
      sets (.clearEventRecords log true hs) 0x0101 { base with events := s.link.events.filter (fun e => e.log != log.toNat) }) ∧
    (∀ (log : BitVec 8) (hs : List (BitVec 16)), log.toNat ≤ 3 → hs.length ≤ 255 →
      (∀ h ∈ hs, ∃ e ∈ s.link.events, e.log = log.toNat ∧ e.handle = h.toNat) →
      sets (.clearEventRecords log false hs) 0x0101
        { base with events := s.link.events.filter (fun e =>
            !(e.log == log.toNat && hs.any (fun h => h.toNat == e.handle))) }) ∧
    (∀ (log : BitVec 8) (h : BitVec 16), log.toNat ≤ 3 →
      (∀ e ∈ s.link.events, e.log = log.toNat → e.handle ≠ h.toNat) →
      fails (.clearEventRecords log false [h]) 0x0101 Cxl.invalidHandle) ∧
    (∀ (log : BitVec 8) (all : Bool), 3 < log.toNat → fails (.clearEventRecords log all []) 0x0101 Cxl.invalidInput) ∧
    (∀ (o : Word) (b : List Byte), o.toNat + b.length ≤ 131072 → Answers (.setLsa o b) s fun t =>
      Output.cxlReply 0x4103 Cxl.success [] ∈ t.out ∧
      (∀ i : Nat, i < b.length → t.link.lsa.getD (o.toNat + i) 0 = b.getD i 0) ∧
      (∀ a : Nat, (a < o.toNat ∨ o.toNat + b.length ≤ a) → t.link.lsa.getD a 0 = s.link.lsa.getD a 0) ∧
      { t.link with pba := s.link.pba, lsa := s.link.lsa } = base ∧ Frame s t [.link] []) ∧
    (∀ (o : Word) (b : List Byte), 131072 < o.toNat + b.length → fails (.setLsa o b) 0x4103 Cxl.invalidInput) ∧
    (∀ (a n : Dword) (o : Nat), s.windowOffset a.toNat = some o → Answers (.scanMedia a n) s fun t =>
      t.link.scan = some ⟨a.toNat, n.toNat, true, s.poisonedLines o (o + 64 * n.toNat)⟩ ∧
      Output.cxlReply 0x4304 Cxl.background [] ∈ t.out ∧ Frame s t [.link] []) ∧
    (∀ (a : Dword) (d : Line) (o : Nat), s.windowOffset a.toNat = some o →
      (s.canReserve = true → s.grn.waiters = [] →
        (Answers (.injectPoison a) s fun t =>
          t.landed (o / 64) = some ⟨o / 64, (s.windowLine (o / 64)).1, true⟩ ∧
          Output.cxlReply 0x4301 Cxl.success [] ∈ t.out) ∧
        Answers (.clearPoison a d) s fun t =>
          t.landed (o / 64) = some ⟨o / 64, 0, false⟩ ∧ Output.cxlReply 0x4302 Cxl.success [] ∈ t.out) ∧
      (s.canReserve = false ∨ s.grn.waiters ≠ [] →
        (Answers (.injectPoison a) s fun t =>
          t.link.waiting = s.link.waiting ++ [⟨.reply 0x4301, o / 64, (s.windowLine (o / 64)).1, true⟩]) ∧
        Answers (.clearPoison a d) s fun t =>
          t.link.waiting = s.link.waiting ++ [⟨.reply 0x4302, o / 64, 0, false⟩])) ∧
    ∀ (a : Dword) (d : Line), s.windowOffset a.toNat = none →
      fails (.injectPoison a) 0x4301 Cxl.invalidAddress ∧ fails (.clearPoison a d) 0x4302 Cxl.invalidAddress

/-- R44; R45; R46; R50; R51; R52. In RUNNING an edge advances the count by the increment of REF_SEL, 100 ns or 40 ns, less the slew in force;
otherwise the count stays. The edge is counted in its qualification window. A window of 1 ms is judged by its
edges, and by the part of a period beyond them, against the nominal frequency (the measurement is the model's
reading, log entry 190). The hundredth good one in succession sets REF_OK and ends source 8's condition. A
second bad one in succession, 1 us without an edge, and a change of REF_SEL lose a qualified reference: REF_OK
clears, REF_LOST sets, source 8's sticky bit sets, and RUNNING becomes STOPPED at the value that FT_NOW last
reached; a change of REF_SEL takes its value. Completions of: timeRefEdge, refWindowEnd, timeRefLoss,
refSelChange. -/
def Obligations.TheReferenceCountsAndQualifies : Prop :=
  (∀ s : State, s.mainUp = true → s.ft.windows = true → s.get F.FT_STATUS_STATE = Ft.running →
    Answers .timeRefEdge s fun t =>
      t.ft.count = (s.ft.count + (s.ft.frac + (if s.flag F.FT_CTL_REF_SEL then 40 else 100) * s.slewFactor) / 1000000000)
        % 2 ^ 64 ∧
      t.ft.frac = (s.ft.frac + (if s.flag F.FT_CTL_REF_SEL then 40 else 100) * s.slewFactor) % 1000000000 ∧
      t.ft.edgeAt = s.now ∧ t.ft.interpAt = s.now ∧
      t.ft.windowEdges + t.ft.nextEdges = s.ft.windowEdges + s.ft.nextEdges + 1 ∧
      (s.now < s.ft.windowAt + 1000000 → t.ft.nextEdges = s.ft.nextEdges) ∧ Frame s t [.ft] []) ∧
  (∀ s : State, s.mainUp = true → s.get F.FT_STATUS_STATE ≠ Ft.running → Answers .timeRefEdge s fun t =>
      t.ft.count = s.ft.count ∧ t.ft.edgeAt = s.now ∧ t.ft.windows = true ∧ Frame s t [.ft] []) ∧
  (∀ (part : Int) (s : State), part.natAbs < 1000 → s.mainUp = true → s.ft.windows = true → s.ft.windowAt + 1000000 ≤ s.now →
    s.inTolerance part = true → Answers (.refWindowEnd part) s fun t =>
      t.ft.good = s.ft.good + 1 ∧ t.ft.bad = 0 ∧ t.ft.windowAt = s.ft.windowAt + 1000000 ∧
      t.ft.windowEdges = s.ft.nextEdges ∧
      t.flag F.FT_STATUS_REF_OK = (s.flag F.FT_STATUS_REF_OK || decide (99 ≤ s.ft.good)) ∧
      (99 ≤ s.ft.good → s.flag F.FT_STATUS_REF_OK = false → t.live 8 = false) ∧
      Frame s t [.ft] [F.FT_STATUS_REF_OK, F.FLT_LIVE_LIVE]) ∧
  (∀ (part : Int) (s : State), part.natAbs < 1000 → s.mainUp = true → s.ft.windows = true → s.ft.windowAt + 1000000 ≤ s.now →
    s.inTolerance part = false → s.ft.bad = 0 → Answers (.refWindowEnd part) s fun t =>
      t.ft.good = 0 ∧ t.ft.bad = 1 ∧ Frame s t [.ft] []) ∧
  ∀ s : State, s.mainUp = true → s.flag F.FT_STATUS_REF_OK = true →
    let lost : Instr → Prop := fun c => Answers c s fun t =>
      t.get F.FT_STATUS_REF_OK = 0 ∧ t.get F.FT_STATUS_REF_LOST = 1 ∧ t.sticky 8 = true ∧
      t.get F.FT_STATUS_STATE = (if s.get F.FT_STATUS_STATE = Ft.running then Ft.stopped else s.get F.FT_STATUS_STATE) ∧
      t.ft.count = (if s.get F.FT_STATUS_STATE = Ft.running then s.ftRead else s.ft.count) ∧ t.ft.windows = false
    (∀ part : Int, part.natAbs < 1000 → s.ft.windows = true → s.ft.windowAt + 1000000 ≤ s.now → s.inTolerance part = false →
      1 ≤ s.ft.bad → lost (.refWindowEnd part)) ∧
    (s.ft.windows = true → s.ft.edgeAt + 1000 ≤ s.now → lost .timeRefLoss) ∧
    ∀ v : Word, s.get F.FT_CTL_REF_SEL ≠ natOfBool (bitOf v.toNat 4) → lost (.refSelChange v) ∧
      Answers (.refSelChange v) s fun t => t.get F.FT_CTL_REF_SEL = natOfBool (bitOf v.toNat 4)

/-- R5; R22; R46; R49; R53; R54; R55; R56. In RUNNING, with no load pending, an edge of the selected polarity writes the phase error; within 100 us it is
accepted: the run ends, PPS_LOCK sets, source 9's condition ends, and the error is slewed; otherwise, and when
1.1 s pass without one, the run of rejections grows by one up to 255, and at the limit PPS_LOCK clears, PPS_LOST
sets and source 9 is raised. With a load pending, at most 2 s old, and REF_OK set, an aligned value not below
the count becomes the count, in RUNNING, with LOAD_DONE and PPS_LOCK set, an FT_LOAD command in progress
completes OK, and the calendar evaluates the µs loaded; a value below the count fails the arm with cause 3.
Completions of: ppsEdge, ppsMissingTimeout. -/
def Obligations.PpsSteersAndLoads : Prop :=
  (∀ (rising : Bool) (s : State), s.mainUp = true → rising ≠ s.flag F.FT_CTL_PPS_POL → s.ft.pending = none →
    s.get F.FT_STATUS_STATE = Ft.running →
    let e : Int := (s.ft.count : Int) - (nearestSecond s.ft.count : Int)
    (-100000 ≤ e → e ≤ 100000 → Answers (.ppsEdge rising) s fun t =>
      t.get F.FT_PPS_ERR_ERR = ofSigned 32 e % 2 ^ 32 ∧ t.get F.FT_STATUS_PPS_REJ_RUN = 0 ∧
      t.get F.FT_STATUS_PPS_LOCK = 1 ∧ t.live 9 = false ∧ t.ft.slew = e ∧ t.ft.count = s.ft.count ∧
      Frame s t [.ft] [F.FT_PPS_ERR_ERR, F.FT_STATUS_PPS_REJ_RUN, F.FT_STATUS_PPS_LOCK, F.FLT_LIVE_LIVE]) ∧
    ((e < -100000 ∨ 100000 < e) →
      let run := min 255 (s.get F.FT_STATUS_PPS_REJ_RUN + 1)
      Answers (.ppsEdge rising) s fun t =>
        t.get F.FT_PPS_ERR_ERR = ofSigned 32 e % 2 ^ 32 ∧ t.get F.FT_STATUS_PPS_REJ_RUN = run ∧
        t.flag F.FT_STATUS_PPS_LOCK = (s.flag F.FT_STATUS_PPS_LOCK && decide (run < s.rejLimit)) ∧
        (s.flag F.FT_STATUS_PPS_LOCK = true → s.rejLimit ≤ run →
          t.get F.FT_STATUS_PPS_LOST = 1 ∧ t.sticky 9 = true) ∧
        t.ft.count = s.ft.count ∧ t.ft.slew = s.ft.slew)) ∧
  (∀ s : State, s.mainUp = true → s.get F.FT_STATUS_STATE = Ft.running → s.ft.ppsMark + 1100000000 ≤ s.ft.count →
    let run := min 255 (s.get F.FT_STATUS_PPS_REJ_RUN + 1)
    Answers .ppsMissingTimeout s fun t =>
      t.get F.FT_STATUS_PPS_REJ_RUN = run ∧ t.ft.ppsMark = s.ft.ppsMark + 1100000000 ∧
      t.flag F.FT_STATUS_PPS_LOCK = (s.flag F.FT_STATUS_PPS_LOCK && decide (run < s.rejLimit)) ∧
      Frame s t (.ft :: raiseParts)
        ([F.FT_STATUS_PPS_REJ_RUN, F.FT_STATUS_PPS_LOCK, F.FT_STATUS_PPS_LOST] ++ raiseFields)) ∧
  ∀ (rising : Bool) (s : State) (p : PendingLoad), s.mainUp = true → rising ≠ s.flag F.FT_CTL_PPS_POL →
    s.ft.pending = some p → s.now ≤ p.at_ + 2000000000 → s.flag F.FT_STATUS_REF_OK = true →
    (s.ft.count ≤ p.value → p.value % 1000000000 = 0 → Answers (.ppsEdge rising) s fun t =>
      t.ft.count = p.value ∧ t.ft.pending = none ∧ t.get F.FT_STATUS_STATE = Ft.running ∧
      t.get F.FT_STATUS_LOAD_DONE = 1 ∧ t.get F.FT_STATUS_PPS_LOCK = 1 ∧ t.cal.evaluated = none ∧
      ∀ a : Accepted, s.ftCommand = some a → Completed s a CC.ok 0 t) ∧
    (p.value < s.ft.count → s.ftCommand = none → Answers (.ppsEdge rising) s fun t =>
      t.ft.count = s.ft.count ∧ t.ft.pending = none ∧ t.get F.FT_STATUS_ARM_FAIL = 1 ∧
      t.get F.FT_STATUS_ARM_CAUSE = 3)

/-- R45; R52; R53; R54. With MAIN up: ARM of a value that is whole seconds makes it the pending load; of another value it fails with
cause 2, and a load already pending, with its command, goes on. DISARM cancels a pending load (an FT_LOAD
command stays in progress: the model's choice, log entry 170). Two seconds after arming the load fails, with
cause 4 where REF_OK was never seen and cause 1 otherwise; before that nothing happens. A read of the low half
of FT_NOW answers it, keeps it as the least that a later read returns, and latches the high half for that
requester alone; a read of the high half answers and drops the requester's latch, or answers the current high
half. Completions of: arm, disarm, armExpiry, ftNowLowRead, ftNowHighRead. -/
def Obligations.LoadsAreArmedAndExpire : Prop :=
  (∀ s : State, s.mainUp = true → (∀ p, s.ft.pending = some p → s.now < p.at_ + 2000000000) →
    (s.get F.FT_LOAD_VALUE % 1000000000 = 0 → Answers .arm s fun t =>
      t.ft.pending = some ⟨s.get F.FT_LOAD_VALUE, s.now, s.flag F.FT_STATUS_REF_OK⟩ ∧ t.ft.count = s.ft.count ∧
      Frame s t [.ft] []) ∧
    (s.get F.FT_LOAD_VALUE % 1000000000 ≠ 0 → Answers .arm s fun t =>
      t.get F.FT_STATUS_ARM_FAIL = 1 ∧ t.get F.FT_STATUS_ARM_CAUSE = 2 ∧ t.ft = s.ft ∧
      Frame s t [] [F.FT_STATUS_ARM_FAIL, F.FT_STATUS_ARM_CAUSE])) ∧
  (∀ s : State, s.mainUp = true → Answers .disarm s fun t =>
    t.ft = { s.ft with pending := none } ∧ t.get F.FT_STATUS_ARM_PEND = 0 ∧ Frame s t [.ft] []) ∧
  (∀ (s : State) (p : PendingLoad), s.mainUp = true → s.ft.pending = some p →
    (s.now < p.at_ + 2000000000 → Answers .armExpiry s fun t => Frame s t [] []) ∧
    (p.at_ + 2000000000 ≤ s.now → s.ftCommand = none → Answers .armExpiry s fun t =>
      t.ft = { s.ft with pending := none } ∧ t.get F.FT_STATUS_ARM_FAIL = 1 ∧
      t.get F.FT_STATUS_ARM_CAUSE = (if p.refSeen then 1 else 4) ∧
      Frame s t [.ft] [F.FT_STATUS_ARM_FAIL, F.FT_STATUS_ARM_CAUSE]) ∧
    (p.at_ + 2000000000 ≤ s.now → ∀ a : Accepted, s.ftCommand = some a → Answers .armExpiry s fun t =>
      t.ft.pending = none ∧ Completed s a (if p.refSeen then CC.timeArmExpired else CC.timeRefAbsent) 0 t)) ∧
  ∀ (r : Requester) (s : State), s.mainUp = true →
    (Answers (.ftNowLowRead r) s fun t =>
      Output.regRead r (s.ftRead % 2 ^ 32) ∈ t.out ∧ t.ftLatch r = some (s.ftRead / 2 ^ 32 % 2 ^ 32) ∧
      s.ftRead ≤ t.ft.floor ∧ (∀ q : Requester, q ≠ r → t.ftLatch q = s.ftLatch q) ∧ Frame s t [.ft] []) ∧
    Answers (.ftNowHighRead r) s fun t =>
      Output.regRead r ((s.ftLatch r).getD (s.ftRead / 2 ^ 32 % 2 ^ 32)) ∈ t.out ∧ t.ftLatch r = none ∧
      (∀ q : Requester, q ≠ r → t.ftLatch q = s.ftLatch q) ∧ Frame s t [.ft] []

/-- R56; R57; R58; R59; R61; R62; R63. With MAIN up: a permitted commit fires the old content first where that is due on this µs and not yet evaluated,
stores the image as the entry, or removes it where VALID is 0, with RESULT 0; a forbidden one changes no entry
and sets RESULT 1; a clear removes the entry; a read puts its image, or zeros, in the stage registers. When the
only due entry fires, its firing joins those pending, a one-shot entry turns invalid, a periodic one moves past
the present and counts the periods it skips as MISSED, LATE is kept, and the other entries stay; while a firing
of it is pending at its target the new one only counts as MISSED (a one-shot entry then turns invalid too: the
model's choice, log entry 171). A firing at target 9 interrupts the firmware with its argument. Completions of:
commitEntry, clearEntry, readEntry, calendarEvaluation, firmwareInterrupt. -/
def Obligations.CalendarEntriesAreKeptAndFire : Prop :=
  (∀ (w : CalWriter) (i : BitVec 10) (s : State), s.mainUp = true →
    let c := match w with
      | .firmware => s.stage
      | .management c => c
    let u := (match w with
      | .firmware => s.set F.CAL_CMD_INDEX i.toNat
      | .management _ => s).fireBefore i.toNat
    Answers (.commitEntry w i) s fun t =>
      (commitAllowed w i.toNat (bitsOf c.w1.toNat 23 16) = true →
        t.cal.entries.get? i.toNat = imageEntry c (u.heldEntry i.toNat) s.ft.count ∧
        (∀ j : Nat, j ≠ i.toNat → t.cal.entries.get? j = s.cal.entries.get? j) ∧ t.get F.CAL_CMD_RESULT = 0 ∧
        t.cal.firings = u.cal.firings ∧ Frame u t [.cal] [F.CAL_CMD_INDEX, F.CAL_CMD_RESULT]) ∧
      (commitAllowed w i.toNat (bitsOf c.w1.toNat 23 16) = false →
        t.get F.CAL_CMD_RESULT = 1 ∧ Frame s t [] [F.CAL_CMD_INDEX, F.CAL_CMD_RESULT])) ∧
  (∀ (i : BitVec 10) (s : State), s.mainUp = true →
    (Answers (.clearEntry i) s fun t =>
      t.cal.entries.get? i.toNat = none ∧ (∀ j : Nat, j ≠ i.toNat → t.cal.entries.get? j = s.cal.entries.get? j) ∧
      t.get F.CAL_CMD_RESULT = 0 ∧ Frame s t [.cal] [F.CAL_CMD_INDEX, F.CAL_CMD_RESULT]) ∧
    Answers (.readEntry i) s fun t =>
      t.stage = s.entryImage i.toNat ∧ t.get F.CAL_CMD_RESULT = 0 ∧
      Frame s t [] [F.CAL_CMD_INDEX, F.CAL_CMD_RESULT, F.CAL_STAGE_ENTRY]) ∧
  (∀ (s : State) (i : Nat) (e : CalEntry), s.mainUp = true → s.get F.FT_STATUS_STATE = Ft.running →
    s.pwr.failed = false →
    let us := s.ft.count / 1000
    s.awaitsEvaluation = true → s.cal.entries.filter (fun p => p.2.instant ≤ us) = [(i, e)] →
    s.cal.entries.get? i = some e →
    let k := (us - e.instant) / e.period
    let late := e.past || decide (e.instant + 1 < us)
    Answers .calendarEvaluation s fun t =>
      t.cal.evaluated = some us ∧ (∀ j : Nat, j ≠ i → t.cal.entries.get? j = s.cal.entries.get? j) ∧
      (e.period = 0 → t.cal.entries.get? i = none) ∧
      ((∀ f ∈ s.cal.firings, f.index = i → f.target ≠ e.target) →
        t.cal.firings = s.cal.firings ++ [⟨i, e.target, e.action, e.arg, late, s.ft.count⟩] ∧
        (∃ d, t.heldEntry i = some d ∧ d.missed = min 0xFFFF (e.missed + k) ∧ d.late = (e.late || late) ∧
          (e.period ≠ 0 → t.cal.entries.get? i = some d ∧ d.instant = e.instant + (k + 1) * e.period)) ∧
        (late = true → t.sticky 10 = true)) ∧
      ((∃ f ∈ s.cal.firings, f.index = i ∧ f.target = e.target) → t.cal.firings = s.cal.firings ∧
        ∃ d, t.heldEntry i = some d ∧ d.missed = min 0xFFFF (e.missed + (k + 1)) ∧
          (e.period ≠ 0 → t.cal.entries.get? i = some d ∧ d.instant = e.instant + (k + 1) * e.period))) ∧
  ∀ (s : State) (f : Firing), s.cal.firings.find? (fun f => f.target == 9) = some f →
    Answers .firmwareInterrupt s fun t =>
      Output.fwInterrupt f.arg ∈ t.out ∧ t.cal.firings = s.cal.firings.filter (fun g => g != f) ∧
      t.cal.entries = s.cal.entries ∧ Frame s t [.cal] []

/-- R420; R422; R423; R429; R430; R431. With its data there: KEY_LOAD computes both HMAC states of its key into the named slot, shows the algorithm in
DGE_KEY_ALG, zeroes the key bytes in ADM_DATA where they came from there, and completes OK. KEY_DISCARD empties
the slot, shows 3 and completes OK; an empty slot gives NO_SUCH_OBJECT. MR_EXTEND of an unlocked register makes
it the SHA-512 of its 64 bytes followed by the 64 bytes of V, leaves the other registers alone and completes OK;
a locked one gives STATE_CONFLICT and changes no register. MR_READ delivers the 64 bytes in FIPS byte order.
Completions of: keyLoad, keyDiscard, mrRead, mrExtend. -/
def Obligations.KeysAndMeasurements : Prop :=
  (∀ (m : Mailbox) (x : Transfer) (s : State) (a : Accepted) (alg : ShaAlg),
    s.begins m (isOp Op.keyLoad) a → ShaAlg.ofCode (cmdArg a.cmd 1) = some alg →
    ∀ (v : State) (b : List Byte), s.brings a (cmdLen a.cmd) x v b →
    let k := cmdArg a.cmd 0
    Answers (.keyLoad m x) s fun t =>
      t.dge.slots.get? k = some ⟨alg, alg.keyState b 0x36#8, alg.keyState b 0x5C#8⟩ ∧
      (∀ j : Nat, j ≠ k → t.dge.slots.get? j = s.dge.slots.get? j) ∧
      (1 ≤ k → k ≤ 7 → bitsOf (t.get F.DGE_KEY_ALG_SLOTS) (2 * (k - 1) + 1) (2 * (k - 1)) = alg.code) ∧
      (a.inline = true → t.get F.ADM_DATA_DATA % 2 ^ (8 * cmdLen a.cmd) = 0) ∧ Completed v a CC.ok 0 t ∧
      Frame v t (.dge :: cplParts v a) ([F.DGE_KEY_ALG_SLOT0, F.DGE_KEY_ALG_SLOTS, F.ADM_DATA_DATA] ++ cplFields v a)) ∧
  (∀ (m : Mailbox) (s : State) (a : Accepted), s.begins m (isOp Op.keyDiscard) a →
    let k := cmdArg a.cmd 0
    ((s.dge.slots.get? k).isSome = true → Answers (.keyDiscard m) s fun t =>
      t.dge.slots.get? k = none ∧ (∀ j : Nat, j ≠ k → t.dge.slots.get? j = s.dge.slots.get? j) ∧
      (1 ≤ k → k ≤ 7 → bitsOf (t.get F.DGE_KEY_ALG_SLOTS) (2 * (k - 1) + 1) (2 * (k - 1)) = 3) ∧
      Completed s a CC.ok 0 t ∧
      Frame s t (.dge :: cplParts s a) ([F.DGE_KEY_ALG_SLOT0, F.DGE_KEY_ALG_SLOTS] ++ cplFields s a)) ∧
    (s.dge.slots.get? k = none → Ends (.keyDiscard m) s s a CC.noSuchObject 0)) ∧
  (∀ (m : Mailbox) (s : State) (a : Accepted), s.begins m (isOp Op.mrRead) a →
    Delivers (.mrRead m) s a (leBytes 64 (s.getN F.MR_VALUE (cmdArg a.cmd 0)))) ∧
  ∀ (m : Mailbox) (x : Transfer) (s : State) (a : Accepted),
    s.begins m (isOp Op.mrExtend) a → cmdArg a.cmd 0 < 16 →
    let k := cmdArg a.cmd 0
    (s.mrLocked k = false → ∀ (v : State) (b : List Byte), s.brings a 64 x v b → Answers (.mrExtend m x) s fun t =>
      t.getN F.MR_VALUE k = ofLeBytes (ShaAlg.hash .sha512 (leBytes 64 (s.getN F.MR_VALUE k) ++ b)) % 2 ^ 512 ∧
      (∀ j : Nat, j < 16 → j ≠ k → t.getN F.MR_VALUE j = s.getN F.MR_VALUE j) ∧ Completed v a CC.ok 0 t ∧
      Frame v t (raiseParts ++ cplParts v a)
        ([F.MR_VALUE, F.DGE_UNIT_CNT_COUNT, F.DGE_UNIT_CNT_SAT] ++ raiseFields ++ cplFields v a)) ∧
    (s.mrLocked k = true → Ends (.mrExtend m x) s s a CC.stateConflict 0)

/-- R416; R417; R418; R425; R427; R428. DIGEST with its message there takes the lowest free context with the algorithm's initial state, or a slot's
states and algorithm; with no free context, or others waiting, it waits last. A message whose page is missing
waits, and its request holds the context, or its place, meanwhile. A slot that fails its check is emptied,
source 145 is raised and the command completes with NO_SUCH_OBJECT. A freed context goes to the request that
waits longest. At a unit boundary the context chosen absorbs one 128-byte unit; a context whose rest is shorter
than a unit ends: once its value can be written at ARG2 in the mailbox's context it is free, and its command
completes OK. Completions of: digestPlain, digestHmac, contextGrant, digestUnitBoundary. -/
def Obligations.DigestsRunThroughContexts : Prop :=
  (∀ (m : Mailbox) (x : Transfer) (s : State) (a : Accepted) (alg : ShaAlg),
    s.begins m (fun c => isOp Op.digest c && cmdArg c 1 == 0xFF) a → ShaAlg.ofCode (cmdArg a.cmd 0) = some alg →
    s.contextOf a.id = none →
    (∀ (v : State) (b : List Byte), s.brings a (cmdLen a.cmd) x v b →
      let r : DigestCtx := ⟨a.id, alg, alg.init, b.length, none, b, true⟩
      (∀ c : Nat, v.freeContext = some c → v.dge.waiting = [] → Answers (.digestPlain m x) s fun t =>
        t.dge.contexts.get? c = some r ∧ (∀ (j : Nat) (y : DigestCtx), j ≠ c → v.dge.contexts.get? j = some y →
          v.contextServes (j, y) = true → t.dge.contexts.get? j = some y) ∧
        Frame v t [.mbx, .dge] [F.DGE_STATUS_CTX_BUSY, F.DGE_STATUS_WAITING]) ∧
      ((v.freeContext = none ∨ v.dge.waiting ≠ []) → Answers (.digestPlain m x) s fun t =>
        t.dge.waiting = v.dge.waiting ++ [r] ∧
        Frame v t ([.mbx, .dge] ++ raiseParts)
          ([F.DGE_STATUS_CTX_BUSY, F.DGE_STATUS_WAITING, F.DGE_WAIT_CNT_COUNT, F.DGE_WAIT_CNT_SAT] ++ raiseFields))) ∧
    (a.inline = false → ∀ (u : State) (w : PageWait), s.mailRead a (cmdAddr a.cmd) (cmdLen a.cmd) x = .wait u w →
      Runs (.digestPlain m x) s ((u.parkCmd a [w]).requestContext ⟨a.id, alg, alg.init, 0, none, [], false⟩))) ∧
  (∀ (m : Mailbox) (x : Transfer) (s : State) (a : Accepted) (slot : KeySlot),
    s.begins m (fun c => isOp Op.digest c && cmdArg c 1 != 0xFF) a → s.contextOf a.id = none →
    s.dge.slots.get? (cmdArg a.cmd 1) = some slot → (145, cmdArg a.cmd 1 - 1) ∉ s.hub.armed →
    (cmdArg a.cmd 0 = slot.alg.code → ∀ (v : State) (b : List Byte), s.brings a (cmdLen a.cmd) x v b →
      ∀ c : Nat, v.freeContext = some c → v.dge.waiting = [] → Answers (.digestHmac m x true) s fun t =>
        t.dge.contexts.get? c = some ⟨a.id, slot.alg, slot.inner, slot.alg.block + b.length, some slot.outer, b, true⟩ ∧
        Frame v t [.mbx, .dge] [F.DGE_STATUS_CTX_BUSY, F.DGE_STATUS_WAITING]) ∧
    (cmdArg a.cmd 0 ≠ slot.alg.code → Ends (.digestHmac m x true) s s a CC.invalidField 16) ∧
    (s.pwr.hold = true → Answers (.digestHmac m x false) s fun t =>
      t.dge.slots.get? (cmdArg a.cmd 1) = none ∧ t.sticky 145 = true ∧ Completed s a CC.noSuchObject 0 t)) ∧
  (∀ (m : Mailbox) (x : Transfer) (ok : Bool) (s : State) (a : Accepted),
    s.begins m (fun c => isOp Op.digest c && cmdArg c 1 != 0xFF) a → s.contextOf a.id = none →
    s.dge.slots.get? (cmdArg a.cmd 1) = none → Ends (.digestHmac m x ok) s s a CC.noSuchObject 0) ∧
  (∀ (s : State) (c : Nat) (r : DigestCtx) (rest : List DigestCtx), s.freeContext = some c → s.dge.waiting = r :: rest →
    Answers .contextGrant s fun t =>
      t.dge = { s.dge with contexts := s.dge.contexts.set c r, waiting := rest } ∧
      Frame s t [.dge] [F.DGE_STATUS_CTX_BUSY, F.DGE_STATUS_WAITING]) ∧
  ∀ (s : State) (k : Nat) (c : DigestCtx), s.dge.next = some k → s.dge.contexts.get? k = some c →
    let u := State.bumpTimes { s with dge := if k < 6 then { s.dge with last := k } else { s.dge with lastGranary := k } } C.dgeUnit c.units
    (128 ≤ c.data.length → Answers .digestUnitBoundary s fun t =>
      t.dge.contexts.get? k =
        some { c with chain := c.alg.blocks (128 / c.alg.block) c.chain (c.data.take 128), data := c.data.drop 128 } ∧
      (∀ j : Nat, j ≠ k → t.dge.contexts.get? j = s.dge.contexts.get? j) ∧ t.mbx = s.mbx) ∧
    (c.data.length < 128 → ∀ a : Accepted, s.mbx.accepted.find? (fun a => a.id == c.id) = some a →
      inDevice (cmdArg a.cmd 2) = false →
      ∀ (v : State) (frames : List Nat),
        u.reach (placeOf 1 (u.mailboxCtx a.mb) (cmdArg a.cmd 2)) (field64 c.value).length true = (v, .ok frames) →
        Answers .digestUnitBoundary s fun t =>
          t.dge.contexts.get? k = none ∧ (∀ j : Nat, j ≠ k → t.dge.contexts.get? j = s.dge.contexts.get? j) ∧
          t.sentBytes v (v.mailboxCtx a.mb) (cmdArg a.cmd 2) frames (field64 c.value) ∧ Completed v a CC.ok 0 t)

/-- R105; R107; R295. When the transfer that a mailbox command needs stops, the command ends as that read ends. Where the host fails
it, the command completes with DMA_ERROR and RESULT 49, source 49's sticky bit is set, and TLU_FAULT_ADDR holds
the kind of the stop and the mailbox's context. Shown for FW_DOWNLOAD, KEY_LOAD, plain DIGEST, MR_EXTEND and the
four GRANARY_CONFIG operations, whose other effects all stay away. -/
def Obligations.StoppedTransfersEndCommands : Prop :=
  ∀ (m : Mailbox) (code : BitVec 16) (detail : Byte) (s : State) (a : Accepted), s.pwr.hold = true → a.inline = false →
    let x : Transfer := .stopped code detail
    let stops : Nat → List Part → Instr → Prop := fun n ps c =>
      (∀ u : State, s.mailRead a (cmdAddr a.cmd) n x = .ended u → Runs c s (if ps = [] then u else u.sweepContexts)) ∧
      (n ≠ 0 → inDevice (cmdAddr a.cmd) = false → ∀ (v : State) (frames : List Nat),
        s.reach (placeOf 1 (s.mailboxCtx a.mb) (cmdAddr a.cmd)) n false = (v, .ok frames) → Answers c s fun t =>
          Completed v a CC.dmaError 49 t ∧ t.sticky 49 = true ∧ t.get F.TLU_FAULT_ADDR_KIND = dmaKind code.toNat ∧
          t.get F.TLU_FAULT_ADDR_CTX = v.mailboxCtx a.mb % 2 ^ F.TLU_FAULT_ADDR_CTX.width ∧
          Frame v t (ps ++ .mbx :: raiseParts) ([F.TLU_FAULT_ADDR_KIND, F.TLU_FAULT_ADDR_GRANARY, F.TLU_FAULT_ADDR_CTX,
            F.TLU_FAULT_ADDR_ADDR, F.DGE_STATUS_CTX_BUSY, F.DGE_STATUS_WAITING] ++ raiseFields ++ completeFields))
    (s.begins m (isOp Op.fwDownload) a → stops (cmdLen a.cmd) [] (.fwDownload m x)) ∧
    (s.begins m (isOp Op.keyLoad) a → stops (cmdLen a.cmd) [] (.keyLoad m x)) ∧
    (s.begins m (fun c => isOp Op.digest c && cmdArg c 1 == 0xFF) a → (ShaAlg.ofCode (cmdArg a.cmd 0)).isSome = true →
      stops (cmdLen a.cmd) [.dge] (.digestPlain m x)) ∧
    (s.begins m (isOp Op.mrExtend) a → s.mrLocked (cmdArg a.cmd 0) = false → stops 64 [] (.mrExtend m x)) ∧
    (s.begins m (isOp Op.granaryConfig) a → (∀ w : CopyResult, stops 64 [] (.granaryCreate m x w) ∧
      stops 64 [] (.granaryTune m x w) ∧ stops 64 [] (.granaryFormat m x w)) ∧ stops 64 [] (.granaryResume m x))

/-- R348; R349; R519. A sample from -50 mV to 1,000 mV enters the average of the last 100, V_BANK shows the average in units of 10 mV,
and SENSE_BAD and source 98's condition end; any other sets SENSE_BAD, raises source 98, makes E_USABLE_J 0 and
drops the samples. A firing at target 6 starts a measurement with BANK_TEST driven; 10 ms later V1 is sampled;
at 0.98 of V1 within 60 s the capacitance, if within a quarter and four times the nominal one, is stored with
ESR and MEAS_VALID and source 99 live below 80 percent; otherwise, and after 60 s, MEAS_FAIL sets, source 100 is
raised and C_MEAS and ESR stay. Completions of: bankSenseSample, capacitanceMeasurement, measurementV1Sample,
measurementT2, measurementTimeout. -/
def Obligations.TheBankIsSensedAndMeasured : Prop :=
  (∀ (mv : Int) (s : State), s.pwr.hold = true → -50 ≤ mv → mv ≤ 1000 → Answers (.bankSenseSample mv) s fun t =>
    t.grn.samples = (mv.toNat * s.get F.BANK_CFG_SENSE_DIV :: s.grn.samples).take 100 ∧
    t.get F.BANK_STATUS_V_BANK = t.bankMv / 10 % 2 ^ F.BANK_STATUS_V_BANK.width ∧
    t.get F.GOV_STATUS_SENSE_BAD = 0 ∧ t.live 98 = false ∧
    Frame s t [.grn] [F.BANK_STATUS_V_BANK, F.GOV_STATUS_SENSE_BAD, F.FLT_LIVE_LIVE]) ∧
  (∀ (mv : Int) (s : State), s.pwr.hold = true → (mv < -50 ∨ 1000 < mv) → Answers (.bankSenseSample mv) s fun t =>
    t.grn.samples = [] ∧ t.get F.GOV_STATUS_SENSE_BAD = 1 ∧ t.get F.BANK_ENERGY_E_USABLE_J = 0 ∧ t.live 98 = true ∧
    Frame s t raiseParts ([F.BANK_ENERGY_E_USABLE_J, F.GOV_STATUS_SENSE_BAD] ++ raiseFields)) ∧
  (∀ (v0 : BitVec 16) (s : State) (f : Firing), s.get F.FT_STATUS_STATE = Ft.running → s.backgroundRuns = true →
    s.cal.firings.find? (fun f => f.target == 6) = some f → s.grnServes = true →
    s.flag F.GOV_STATUS_SENSE_BAD = false → s.grn.measure = none → Answers (.capacitanceMeasurement v0) s fun t =>
      t.grn = { s.grn with measure := some ⟨v0.toNat, s.now, none⟩ } ∧ t.pwr = { s.pwr with bankTest := true } ∧
      t.cal.firings = s.cal.firings.filter (fun g => g != f) ∧ Frame s t [.grn, .pwr, .cal] []) ∧
  (∀ (v1 : BitVec 16) (s : State) (v0 t0 : Nat), s.grn.measure = some ⟨v0, t0, none⟩ → t0 + 10000000 ≤ s.now →
    Answers (.measurementV1Sample v1) s fun t =>
      t.grn = { s.grn with measure := some ⟨v0, t0, some v1.toNat⟩ } ∧ Frame s t [.grn] []) ∧
  (∀ (s : State) (v0 t0 v1 : Nat), s.grn.measure = some ⟨v0, t0, some v1⟩ → s.pwr.hold = true →
    100 * s.bankMv ≤ 98 * v1 → s.bankMv < v1 → s.now ≤ t0 + 60000000000 →
    let c := s.testMa * (s.now - t0 - 10000000) / ((v1 - s.bankMv) * 10000000)
    let nom := s.get F.BANK_CFG_C_NOM
    (nom ≤ 4 * c → c ≤ 4 * nom → Answers .measurementT2 s fun t =>
      t.get F.BANK_STATUS_C_MEAS = c % 2 ^ F.BANK_STATUS_C_MEAS.width ∧ t.get F.BANK_STATUS_MEAS_VALID = 1 ∧
      (s.testMa ≠ 0 → v1 ≤ v0 →
        t.get F.BANK_STATUS_ESR_MOHM = (v0 - v1) * 1000 / s.testMa % 2 ^ F.BANK_STATUS_ESR_MOHM.width) ∧
      t.live 99 = decide (c * 10 < nom * 8) ∧ t.grn.measure = none ∧ t.pwr.bankTest = false) ∧
    ((4 * c < nom ∨ 4 * nom < c) → Answers .measurementT2 s fun t =>
      t.get F.BANK_STATUS_MEAS_FAIL = 1 ∧ t.sticky 100 = true ∧
      t.get F.BANK_STATUS_C_MEAS = s.get F.BANK_STATUS_C_MEAS ∧
      t.get F.BANK_STATUS_ESR_MOHM = s.get F.BANK_STATUS_ESR_MOHM ∧ t.grn.measure = none ∧ t.pwr.bankTest = false)) ∧
  ∀ (s : State) (m : Measure), s.grn.measure = some m → s.pwr.hold = true → m.at_ + 60000000000 ≤ s.now →
    Answers .measurementTimeout s fun t =>
      t.get F.BANK_STATUS_MEAS_FAIL = 1 ∧ t.sticky 100 = true ∧ t.grn.measure = none ∧ t.pwr.bankTest = false ∧
      Frame s t raiseParts (F.BANK_STATUS_MEAS_FAIL :: raiseFields)

/-- R343; R350; R351; R352; R353; R438. The governor makes E_USABLE_J and BUDGET what R350 computes from the bank and the vault; source 97 is live while
the dirty bytes exceed BUDGET, and the high level is on above WIN_HI_PCT percent of it. When a reservation can
be granted, the oldest waiter gets it: a CXL.mem write is accepted as its line and completed. The oldest
landing-buffer line whose page is restored drains; where both copies fail its place in DRAM is poisoned and
source 109 is raised, and no dirty bit changes. Completions of: governorRecompute, reservationGrant,
landingBufferDrain. -/
def Obligations.TheGovernorGrantsAndLinesDrain : Prop :=
  (∀ s : State, s.pwr.hold = true → Answers .governorRecompute s fun t =>
    t.get F.BANK_ENERGY_E_USABLE_J = s.usableMj / 1000 % 2 ^ F.BANK_ENERGY_E_USABLE_J.width ∧
    t.grn.budget = s.budgetOf s.usableMj ∧ t.grn.dirty = s.grn.dirty ∧ t.grn.landing = s.grn.landing ∧
    t.live 97 = decide (s.budgetOf s.usableMj < s.dirtyBytes) ∧
    (s.grn.config.winHiPct * s.budgetOf s.usableMj < s.dirtyBytes * 100 → t.get F.GOV_STATUS_HIGH = 1)) ∧
  (∀ s : State, s.canReserve = false → Answers .reservationGrant s fun t => Frame s t [] []) ∧
  (∀ (s : State) (w : Waiter) (rest : List Waiter), s.canReserve = true → s.grn.waiters = w :: rest → w ≠ .cxl →
    Answers .reservationGrant s fun t =>
      t.grn = { s.grn with waiters := rest, granted := s.grn.granted ++ [w], reserved := s.grn.reserved + 1 } ∧
      Frame s t [.grn] []) ∧
  (∀ (s : State) (rest : List Waiter) (hpa line : Nat) (data : Line) (poison : Bool) (more : List CxlWait), s.canReserve = true → s.grn.waiters = .cxl :: rest →
    s.link.waiting = ⟨.cmp hpa, line, data, poison⟩ :: more → Answers .reservationGrant s fun t =>
      Output.cxlCmp hpa ∈ t.out ∧ t.landed line = some ⟨line, data, poison⟩ ∧ t.grn.waiters = rest ∧
      t.link.waiting = more ∧ t.grn.dirty.mem (line / 64) = true) ∧
  ∀ (s : State) (l : LandLine) (check : CopyCheck), s.pwr.hold = true → s.grn.landing.find? s.drains = some l →
    (106, 0) ∉ s.hub.armed → Answers (.landingBufferDrain check) s fun t =>
      t.grn.landing = s.grn.landing.erase l ∧ t.grn.dirty = s.grn.dirty ∧
      (check ≠ .bothBad → s.dpaServes (grnBase + 64 * l.line) true = true →
        t.readLine (grnBase + 64 * l.line) = (l.data, l.poison)) ∧
      (check = .oneBad → t.sticky 106 = true) ∧
      (check = .bothBad → (t.readLine (grnBase + 64 * l.line)).2 = true ∧ t.sticky 109 = true)

/-- R353; R354; R355; R357; R359; R360; R377; R385; R34. While pre-copy runs with room, more than 64 erased positions in the ring, and no GUARD or RESTORE descriptor
waiting for its die, the next page is in flight and its full unit stands in the open segment or the sealed one.
Where only a rebase runs, its next page is copied. A low pass takes its firing's pages unless the high level
holds; the seal timer seals after 100 ms. A trailer that verifies makes its segment part of the chain and clears
the dirty bits of its pages that no write reached since; one that does not clears none. A finished rebase writes
a record that names its slot and first sequence number; with no copy readable source 105 is raised. Completions
of: winnowerPageCopy, winnowerLowPass, winnowerSealTimer, trailerReadBack, rebaseDone. -/
def Obligations.TheWinnowerCopiesAndSeals : Prop :=
  (∀ (s : State) (p : Nat), s.grnServes = true → s.grn.closed = false → s.precopying = true →
    s.urgentWaits s.winnowDie = false →
    s.grn.inflight.length < 2048 → s.ringUsed + 64 < s.ringSize → s.winnowNext = some p → Answers .winnowerPageCopy s fun t =>
      t.grn.inflight = s.grn.inflight ++ [(p, false)] ∧ t.grn.dirty = s.grn.dirty ∧
      (∃ g : Segment, (g ∈ t.grn.sealing ∨ ∃ t0, t.grn.openSeg = some (g, t0)) ∧ fullUnit p (s.windowPage p) ∈ g.units) ∧
      t.get F.WIN_STATUS_POS = (if p + 1 < s.windowPages then p + 1 else 0) % 2 ^ F.WIN_STATUS_POS.width) ∧
  (∀ (s : State) (b : Rebase), s.grnServes = true → s.grn.closed = false → s.precopying = false →
    s.grn.rebase = some b → s.urgentWaits (b.seg.seq % 64) = false → b.nextPage < s.windowPages → Answers .winnowerPageCopy s fun t =>
      (∃ c : Rebase, t.grn.rebase = some c ∧ c.nextPage = b.nextPage + 1 ∧ c.slot = b.slot ∧ c.seqS = b.seqS) ∧
      t.grn.dirty = s.grn.dirty) ∧
  (∀ (s : State) (f : Firing), s.grn.pass = none → s.get F.FT_STATUS_STATE = Ft.running →
    s.backgroundRuns = true → s.cal.firings.find? (fun f => f.target == 7) = some f → Answers .winnowerLowPass s fun t =>
      t.cal.firings = s.cal.firings.filter (fun g => g != f) ∧
      (s.flag F.GOV_STATUS_HIGH = true → t.grn = s.grn) ∧
      (s.flag F.GOV_STATUS_HIGH = false → s.grnServes = true → s.grn.closed = false → f.arg ≠ 0 →
        t.grn = { s.grn with pass := some (f.arg * 256) }) ∧ Frame s t [.grn, .cal] []) ∧
  (∀ (s : State) (g : Segment) (t0 : Nat), s.grn.openSeg = some (g, t0) → t0 + 100000000 ≤ s.now →
    Answers .winnowerSealTimer s fun t =>
      t.grn = { s.grn with openSeg := none, sealing := s.grn.sealing ++ [g] } ∧ Frame s t [.grn] []) ∧
  (∀ (s : State) (g : Segment) (rest : List Segment), s.grn.sealing = g :: rest → (144, 0) ∉ s.hub.armed →
    s.urgentWaits (g.seq % s.ringPositions % 64) = false →
    (Answers (.trailerReadBack true .passes) s fun t =>
      { g with verdict := .verified, ft := s.ftCopy } ∈ t.grn.deltas ∧
      (∀ p : Nat, p ∈ g.units.map (·.page) → (p, true) ∉ s.grn.inflight → t.grn.dirty.mem p = false) ∧
      ∀ p : Nat, (p ∉ g.units.map (·.page) ∨ (p, true) ∈ s.grn.inflight) →
        t.grn.dirty.mem p = s.grn.dirty.mem p) ∧
    Answers (.trailerReadBack false .passes) s fun t =>
      { g with verdict := .damaged, ft := s.ftCopy } ∈ t.grn.deltas ∧ t.grn.dirty = s.grn.dirty) ∧
  ∀ (s : State) (b : Rebase), s.grn.rebase = some b → s.windowPages ≤ b.nextPage →
    (∀ w : CopyResult, (w = .both ∨ w = .one false ∨ w = .one true) → Answers (.rebaseDone w) s fun t =>
      (∃ r : ChainRecord, t.chainRecord = some r ∧ r.event = 4 ∧ r.baseSlot = b.slot ∧ r.chainFirst = b.seqS ∧
        r.gen = ((s.chainRecord.map (·.gen)).getD 0) + 1) ∧
      (∀ g ∈ t.grn.deltas, b.seqS ≤ g.seq ∨ g.verdict = .erased)) ∧
    (s.pwr.hold = true → ∀ c : Dword, Answers (.rebaseDone (.neither c)) s fun t =>
      t.sticky 105 = true ∧ t.latched = true ∧ t.chainRecord = s.chainRecord)

/-- R362; R363; R364; R365; R346; R377; R452; R516; R517; R520; R521. An armed detection that fires sets source 96 and HOLD_SEL and ends a measurement; in LAZY or READY a dump begins
with cause 1 and ingress closed; one that does not fire changes nothing. When the lines of restored pages have
drained, the DUMP_OPEN record is written; each segment takes the next dirty pages in ascending order; when none
is left the record seals the dump, the dirty map is empty, and with power still gone the state is SEALED.
Parking then shows PARKED. VHOLD_COLLAPSE while DUMPING raises source 104 and latches FAILED with cause 6. Power
that returns releases HOLD_SEL, and from PARKED service resumes with HOLD_RETURN set. Completions of:
powerFailDetection, dumpDrainDone, dumpSegmentSealed, dumpSealed, parkDone, vholdCollapse, powerReturned. -/
def Obligations.PowerFailureDumps : Prop :=
  (∀ (mv vinNs pulseNs : Nat) (s : State), s.pwr.hold = true → s.pwr.armed = true → s.pwr.failed = false →
    detects mv vinNs pulseNs = true → Answers (.powerFailDetection mv vinNs pulseNs) s fun t =>
      t.pwr.failed = true ∧ t.pwr.bankTest = false ∧ t.grn.measure = none ∧ t.sticky 96 = true ∧
      (s.grnServes = true → t.grnState = Grn.dumping ∧ t.get F.GRN_STATE_CAUSE = 1 ∧ t.grn.closed = true ∧
        t.pwr.failedInDump = true ∧ t.pwr.holdSel = true ∧ t.grn.fetches = [])) ∧
  (∀ (mv vinNs pulseNs : Nat) (s : State), (s.pwr.hold = false ∨ s.pwr.armed = false ∨ s.pwr.failed = true ∨
    detects mv vinNs pulseNs = false) → Answers (.powerFailDetection mv vinNs pulseNs) s fun t => Frame s t [] []) ∧
  (∀ (s : State) (d : Dump) (w : CopyResult), s.grn.dump = some d → d.opened = false →
    s.grn.landing.any s.drains = false → s.groupUp .h = true → (w = .both ∨ w = .one false ∨ w = .one true) →
    Answers (.dumpDrainDone w) s fun t =>
      t.grn.dump = some { d with opened := true, first := s.grn.nextSeq, nextPage := 0 } ∧
      (∃ r : ChainRecord, t.chainRecord = some r ∧ r.event = 2 ∧ r.dumpFirst = s.grn.nextSeq) ∧
      (s.pwr.failedInDump = true → t.pwr.mainEn = false ∧ t.pwr.main = false) ∧ t.grn.dirty = s.grn.dirty) ∧
  (∀ (s : State) (d : Dump), s.grn.dump = some d → d.opened = true → s.ringUsed < s.ringSize →
    let pages := s.dirtyFrom segPages d.nextPage
    pages ≠ [] → Answers .dumpSegmentSealed s fun t =>
      t.grn.dump = some { d with nextPage := pages.getLastD 0 + 1 } ∧
      (∃ g ∈ t.grn.deltas, g.seq = s.grn.nextSeq ∧ g.verdict = .verified ∧ g.units.map (·.page) = pages) ∧
      t.grn.dirty = s.grn.dirty) ∧
  (∀ (s : State) (d : Dump) (w : CopyResult), s.grn.dump = some d → d.opened = true →
    s.grn.dirty.firstFrom d.nextPage = none → (w = .both ∨ w = .one false ∨ w = .one true) →
    Answers (.dumpSealed w) s fun t =>
      t.grn.dirty = [] ∧ t.grn.dump = none ∧ t.pwr.failedInDump = false ∧
      (∃ r : ChainRecord, t.chainRecord = some r ∧ r.event = 3 ∧ r.dumpFirst = d.first ∧
        (d.first ≠ s.grn.nextSeq → r.dumpLast = s.grn.nextSeq - 1)) ∧
      (d.inFailed = false → s.pwr.failedInDump = true → s.pwr.failed = true → t.grnState = Grn.sealed)) ∧
  (∀ s : State, s.pwr.failed = true → s.pwr.main = false → s.grn.dump = none → s.grnState = Grn.sealed →
    Answers .parkDone s fun t => t.grnState = Grn.parked ∧ t.flash = { s.flash with off := true } ∧ t.grn = s.grn) ∧
  (∀ s : State, s.pwr.hold = true → s.grnState = Grn.dumping → s.latched = false → Answers .vholdCollapse s fun t =>
    t.grnState = Grn.failed ∧ t.get F.GRN_STATE_CAUSE = 6 ∧ t.sticky 104 = true ∧ t.latched = true ∧
    t.get F.FLT_PERSIST_SOURCE = 104 ∧ t.grn.dump = none) ∧
  ∀ s : State, s.pwr.failed = true → Answers .powerReturned s fun t =>
    t.pwr.failed = false ∧ t.pwr.holdSel = false ∧
    (s.grnState = Grn.parked → t.get F.GRN_STATE_HOLD_RETURN = 1 ∧ t.pwr.mainEn = true ∧ t.flash.off = false ∧
      (s.grn.channelDump = false → t.grnState = s.serviceState ∧ t.grn.closed = false)) ∧
    (s.grnState ≠ Grn.parked → s.grn.dump ≠ none → t.pwr.mainEn = s.pwr.mainEn) ∧
    (s.grnState ≠ Grn.parked → s.grn.dump = none → t.pwr.mainEn = true)

/-- R33; R34; R35; R356; R371; R373; R374; R375. LOCATING of a chain that IVS[0] can hold marks every page of the window unrestored and ends in LAZY; of one it
cannot hold, in HELD with cause 4. A background fetch takes the next unrestored page that is not being fetched.
A fetch that completes in the HOLD domain with power present takes its page off the restore map and off the
fetches; a page that was not readable is counted as lost. While background activities run and no GUARD
descriptor waits, a vault patrol slice takes its firing at target 4; a failing unit that holds the newest copy
of a restored page makes the page dirty again, and raises source 101 the first time. Completions of:
locatingDone, backgroundRestoreFetch, fetchComplete, vaultScrubSlice. -/
def Obligations.TheWindowIsRestored : Prop :=
  (∀ (bad : List Nat) (s : State), s.grnState = Grn.locating → s.grn.config.windowLen ≤ s.granaryCapacity →
    4096 ≤ s.grn.config.windowLen → Answers (.locatingDone bad) s fun t =>
      t.grnState = Grn.lazy ∧ t.grn.unrestored = PageSet.full s.windowPages ∧ t.grn.closed = false) ∧
  (∀ (bad : List Nat) (s : State), s.grnState = Grn.locating → s.granaryCapacity < s.grn.config.windowLen →
    Answers (.locatingDone bad) s fun t =>
      t.grnState = Grn.heldState ∧ t.get F.GRN_STATE_CAUSE = 4 ∧ t.grn.unrestored = s.grn.unrestored) ∧
  (∀ (s : State) (p : Nat), s.grnState = Grn.lazy → s.grn.closed = false →
    pickFetch s.grn.unrestored s.grn.fetches (s.grn.fetches.length + 1) 0 = some p →
    Answers .backgroundRestoreFetch s fun t =>
      t.grn = { s.grn with fetches := s.grn.fetches ++ [⟨p, false⟩] } ∧ Frame s t [.grn, .flash] []) ∧
  (∀ (page : BitVec 28) (ok : Bool) (w : CopyResult) (s : State), s.pwr.hold = true → s.pwr.failed = false →
    s.fetchRuns page.toNat = true → s.grn.unrestored.mem page.toNat = true →
    Answers (.fetchComplete page ok w) s fun t =>
      t.grn.unrestored.mem page.toNat = false ∧ (∀ f ∈ t.grn.fetches, f.page ≠ page.toNat) ∧ (ok = false → t.grn.lost.mem page.toNat = true)) ∧
  ∀ (failed : List SegUnit) (s : State) (f : Firing), s.get F.FT_STATUS_STATE = Ft.running → s.backgroundRuns = true →
    s.grn.unrestored = [] → s.waitingDescs.any (fun p => queueClass p.1 == 0) = false →
    s.cal.firings.find? (fun f => f.target == 4) = some f →
    (failed = [] ∨ 2 < f.arg ∨ s.groupUp .h = false ∨ s.flash.off = true → Answers (.vaultScrubSlice failed) s fun t =>
      t.cal.firings = s.cal.firings.filter (fun g => g != f) ∧ Frame s t [.cal] []) ∧
    (∀ (seq unit : Nat) (g : Segment) (u : VaultUnit), failed = [⟨seq, unit⟩] → f.arg ≤ 2 → s.groupUp .h = true →
      s.flash.off = false → s.areaSegment f.arg seq = some g → g.kind ≠ .manifest → unit < segPages →
      g.units[unit]? = some u → s.newestIn f.arg seq u.page = true → Answers (.vaultScrubSlice failed) s fun t =>
        t.grn.dirty.mem u.page = true ∧ ((f.arg, seq) ∉ s.grn.reported → t.sticky 101 = true))

/-- R28; R340; R341; R368; R377. With its 64-byte block there: one with a field out of range completes with INVALID_FIELD and the field's offset,
and an operation the state word forbids completes with STATE_CONFLICT; neither changes the configuration. With a
record written, CREATE and FORMAT put the new configuration in force, empty the landing buffer and the dirty
map, begin LOCATING and complete OK; TUNE puts it in force and completes OK. RESUME in SEALED returns to service
and completes OK. GRANARY_DUMP in LAZY or READY, before a power failure and not LATCHED, makes the state DUMPING
with cause 2 and completes OK; otherwise it sets REFUSED and completes with STATE_CONFLICT. Completions of:
granaryCreate, granaryTune, granaryFormat, granaryResume, granaryDump. -/
def Obligations.GranaryConfiguration : Prop :=
  (∀ (m : Mailbox) (x : Transfer) (w : CopyResult) (s : State) (a : Accepted),
    s.begins m (isOp Op.granaryConfig) a → ∀ (v : State) (b : List Byte), s.brings a 64 x v b →
    let turnedAway : GrnOp → Instr → Prop := fun op c =>
      (∀ off : Nat, leField b 5 1 = op.code → v.grnBlockFault op b = some off → Ends c s v a CC.invalidField off) ∧
      (leField b 5 1 = op.code → v.grnBlockFault op b = none →
        v.grnPermits op (v.grnNewConfig op b).windowLen = false → Answers c s fun t =>
          Completed v a CC.stateConflict 0 t ∧ Frame v t (cplParts v a) (F.GRN_STATE_REFUSED :: cplFields v a))
    turnedAway .create (.granaryCreate m x w) ∧ turnedAway .tune (.granaryTune m x w) ∧
    turnedAway .format (.granaryFormat m x w) ∧ turnedAway .resume (.granaryResume m x)) ∧
  (∀ (m : Mailbox) (x : Transfer) (w : CopyResult) (s : State) (a : Accepted),
    s.begins m (isOp Op.granaryConfig) a → (w = .both ∨ w = .one false ∨ w = .one true) →
    ∀ (v : State) (b : List Byte), s.brings a 64 x v b →
    let made : GrnOp → Instr → Prop := fun op c => leField b 5 1 = op.code → v.grnBlockFault op b = none →
      v.grnPermits op (v.grnNewConfig op b).windowLen = true → Answers c s fun t =>
        t.grn.config = v.grnNewConfig op b ∧ (op ≠ .tune → t.grnState = Grn.locating ∧ t.grn.landing = [] ∧
          t.grn.dirty = []) ∧ Completed v a CC.ok 0 t
    made .create (.granaryCreate m x w) ∧ made .tune (.granaryTune m x w) ∧ made .format (.granaryFormat m x w)) ∧
  (∀ (m : Mailbox) (x : Transfer) (s : State) (a : Accepted),
    s.begins m (isOp Op.granaryConfig) a → ∀ (v : State) (b : List Byte), s.brings a 64 x v b → leField b 5 1 = 3 →
    v.grnBlockFault .resume b = none → v.grnState = Grn.sealed → v.pwr.failed = false → v.grn.channelDump = false →
    v.ringBad a = false → Answers (.granaryResume m x) s fun t =>
      t.grnState = v.serviceState ∧ t.grn.closed = false ∧ t.grn.landing = v.grn.landing ∧ t.grn.dirty = v.grn.dirty ∧
      Completed v a CC.ok 0 t) ∧
  ∀ (m : Mailbox) (s : State) (a : Accepted), s.begins m (isOp Op.granaryDump) a →
    let may := s.grnServes && !s.pwr.failed && !s.latched
    (may = true → Answers (.granaryDump m) s fun t =>
      t.grnState = Grn.dumping ∧ t.get F.GRN_STATE_CAUSE = 2 ∧ t.get F.GRN_STATE_REQ_SRC = 1 ∧ t.grn.closed = true ∧
      Completed s a CC.ok 0 t) ∧
    (may = false → Answers (.granaryDump m) s fun t =>
      t.get F.GRN_STATE_REFUSED = 1 ∧ Completed s a CC.stateConflict 0 t ∧
      Frame s t (cplParts s a) (F.GRN_STATE_REFUSED :: cplFields s a))

/-- R384; R385; R389; R390; R397; R400. A doorbell of an enabled ADMIN queue takes TAIL, fetches its new descriptors behind those waiting and moves HEAD
to TAIL; other queues ignore it. FLASH_SUBMIT, its 64 bytes there, queues its descriptor where its length agrees
with ARG1, else it completes with LENGTH_MISMATCH. With the controller up and the die free, the die's next
descriptor, when the command serves its operation and it passes the checks, leaves its queue and runs from now
on; an erase has its block ERASING and its intent in the journal first. A FLASH_SUBMIT descriptor that fails a
check completes its command with FLASH_ERROR and the failing code. Completions of: flqDoorbell, flashSubmit,
flashRead, flashProgram, flashErase, readParam. -/
def Obligations.FlashDescriptorsAreServed : Prop :=
  (∀ (q : BitVec 5) (tail : BitVec 10) (s : State), s.groupUp .h = true → 20 ≤ q.toNat → q.toNat < 24 →
    s.getN F.FLQ_CFG_EN q.toNat ≠ 0 →
    let size := 2 ^ max 4 (min 10 (s.getN F.FLQ_CFG_SIZE_LOG q.toNat))
    let head := s.getN F.FLQ_PTRS_HEAD q.toNat % size
    Answers (.flqDoorbell q tail) s fun t =>
      t.getN F.FLQ_PTRS_TAIL q.toNat = tail.toNat ∧
      t.getN F.FLQ_PTRS_HEAD q.toNat = tail.toNat % size % 2 ^ F.FLQ_PTRS_HEAD.width ∧
      t.flash.fetched = s.flash.fetched ++ (List.range ((tail.toNat % size + size - head) % size)).map
        (fun i => (q.toNat, (s.dramRead (s.getN F.FLQ_SQ_BASE_BASE q.toNat * 4096 + 64 * ((head + i) % size)) false).1)) ∧
      { t.flash with fetched := s.flash.fetched } = s.flash ∧ t.dram.cells = s.dram.cells ∧
      Frame s t [.flash, .dram] [F.FLQ_PTRS_TAIL, F.FLQ_PTRS_HEAD, F.DMC_STATUS_PD, F.DMC_STATUS_SR]) ∧
  (∀ (q : BitVec 5) (tail : BitVec 10) (s : State), s.groupUp .h = true → 20 ≤ q.toNat → q.toNat < 24 →
    s.getN F.FLQ_CFG_EN q.toNat = 0 → Answers (.flqDoorbell q tail) s fun t =>
      t.getN F.FLQ_PTRS_TAIL q.toNat = tail.toNat ∧ Frame s t [] [F.FLQ_PTRS_TAIL]) ∧
  (∀ (q : BitVec 5) (tail : BitVec 10) (s : State), (q.toNat < 20 ∨ 24 ≤ q.toNat) →
    Answers (.flqDoorbell q tail) s fun t => Frame s t [] []) ∧
  (∀ (m : Mailbox) (x : Transfer) (s : State) (a : Accepted), s.begins m (isOp Op.flashSubmit) a →
    ∀ (v : State) (b : List Byte), s.brings a 64 x v b →
    let d : Line := BitVec.ofNat 512 (ofLeBytes b)
    (descLen d = cmdArg a.cmd 1 → Answers (.flashSubmit m x) s fun t =>
      t.flash = { v.flash with fetched := v.flash.fetched ++ [(32, d)] } ∧
      (∃ c ∈ t.mbx.accepted, c.id = a.id ∧ c.begun = true) ∧ Frame v t [.mbx, .flash] []) ∧
    (descLen d ≠ cmdArg a.cmd 1 → Ends (.flashSubmit m x) s v a CC.lengthMismatch (cmdArg a.cmd 1))) ∧
  (∀ (die : BitVec 6) (s : State) (q : Nat) (d : Line), s.groupUp .h = true → s.flash.off = false →
    s.pickDesc die.toNat = some (q, d) → s.descCheck q d = none → s.flash.running.get? die.toNat = none →
    s.flash.held.get? die.toNat = none →
    let starts : Instr → Prop := fun c => Answers c s fun t =>
      (∃ o : DieOp, t.flash.running.get? die.toNat = some o ∧ o.queue = q ∧ o.desc = d ∧ o.start = s.now) ∧
      t.flash.fetched = s.flash.fetched.erase (q, d) ∧ t.flash.pages = s.flash.pages ∧
      Frame s t [.flash] [F.FLV_STATUS_INCOMPLETE, F.FLC_STATUS_BUSY, F.FLC_STATUS_SUSP]
    (descOp d = FlashOp.read → starts (.flashRead die)) ∧ (descOp d = FlashOp.program → starts (.flashProgram die)) ∧
    (descOp d = FlashOp.readParam → starts (.readParam die)) ∧
    (descOp d = FlashOp.erase → starts (.flashErase die) ∧ (descPlanes d = 0 →
      Answers (.flashErase die) s fun t =>
        let pb := s.descPhysBlock d (descBlock d)
        t.flash.blocks.get? (4096 * die.toNat + pb) = some .erasing ∧
        ∃ e ∈ t.journalEntries, e.op = 1 ∧ e.block = pb ∧ e.ch = die.toNat % 16 ∧ e.die = die.toNat / 16))) ∧
  ∀ (die : BitVec 6) (s : State) (d : Line) (code : Nat) (a : Accepted), s.groupUp .h = true → s.flash.off = false →
    s.pickDesc die.toNat = some (32, d) → s.descCheck 32 d = some code → descOp d = FlashOp.erase →
    s.mbx.accepted.find? (fun a => a.begun && cmdOpcode a.cmd == Op.flashSubmit) = some a →
    Answers (.flashErase die) s fun t =>
      Completed s a CC.flashError (descTag d + code * 2 ^ 16) t ∧ t.flash.running = s.flash.running

/-- R390; R391; R392; R394; R395; R400; R401; R402; R408. On one plane, with no suspended operation and no relocation waiting: an erase that passes leaves its block FREE
with an ERASE_DONE entry waiting; a program that passes leaves the page's data in the cells and the block OPEN
at the next page, or FULL; a FLASH_SUBMIT read whose sectors all decode delivers their bytes to the host (shown
without ATS) and completes OK. The die then runs nothing. A die busy for 20 ms is reset: it runs and holds
nothing, its TIMEOUT bit is set and source 132 is raised. The journal takes the entries that wait (shown up to
the 1,020 of a page), and VCCQ_LOW follows the supply. Completions of: flashCompletion, dieTimeout,
eraseDoneJournal, vccqLowChange. -/
def Obligations.FlashOperationsEnd : Prop :=
  (∀ (die : BitVec 6) (r : FlashOutcome) (s : State) (o : DieOp), s.flash.running.get? die.toNat = some o →
    s.flash.held.get? die.toNat = none → s.flash.relocate = [] → descPlanes o.desc = 0 →
    let pb := s.descPhysBlock o.desc (descBlock o.desc)
    (descOp o.desc = FlashOp.erase → bitOf r.failed.toNat (pb % 4) = false → Answers (.flashCompletion die r) s fun t =>
      t.flash.running.get? die.toNat = none ∧ t.flash.blocks.get? (4096 * die.toNat + pb) = some .free ∧
      (∃ e, (e, s.now) ∈ t.flash.waitingDone ∧ e.op = 2 ∧ e.block = pb) ∧
      ∀ p ∈ t.flash.pages, p.1 / 1536 ≠ 4096 * die.toNat + pb) ∧
    (∀ g : FlashPage, descOp o.desc = FlashOp.program → o.pages = [g] → bitOf r.failed.toNat (pb % 4) = false →
      Answers (.flashCompletion die r) s fun t =>
        t.flash.running.get? die.toNat = none ∧
        t.flash.pages.get? (1536 * (4096 * die.toNat + pb) + descPage o.desc) = some g ∧
        t.flash.blocks.get? (4096 * die.toNat + pb) =
          some (if 1536 ≤ descPage o.desc + 1 then .full else .open_ (descPage o.desc + 1))) ∧
    (∀ a : Accepted, descOp o.desc = FlashOp.read → o.queue = 32 → descRaw o.desc = false → s.atsOn = false →
      s.linkClosed = false → inDevice (cmdArg a.cmd 0) = false → s.ctxCheck (s.mailboxCtx a.mb) (cmdArg a.cmd 0) = none →
      a.waits = [] →
      let secs := s.readSectors die.toNat o.desc r.sectorErr.toNat
      (∀ x ∈ secs, x.fails = false ∧ x.known.isSome = true) →
      s.mbx.accepted.find? (fun a => a.begun && cmdOpcode a.cmd == Op.flashSubmit) = some a →
      Answers (.flashCompletion die r) s fun t =>
        let b := secs.flatMap (fun x => (x.known.map (·.1)).getD [])
        t.sentBytes s (s.mailboxCtx a.mb) (cmdArg a.cmd 0) (pagesOf (cmdArg a.cmd 0) b.length) b ∧
        t.flash.running.get? die.toNat = none ∧ Completed s a CC.ok 0 t)) ∧
  (∀ (die : BitVec 6) (s : State) (o : DieOp), s.flash.running.get? die.toNat = some o → s.pwr.hold = true →
    o.since + 20000000 ≤ s.now → Answers (.dieTimeout die) s fun t =>
      t.flash.running.get? die.toNat = none ∧ t.flash.held.get? die.toNat = none ∧
      bitOf (t.getN F.FLC_STATUS_TIMEOUT (die.toNat % 16)) (die.toNat / 16) = true ∧ t.sticky 132 = true) ∧
  (∀ s : State, s.groupUp .h = true → s.flash.waitingDone.length ≤ 1020 → Answers .eraseDoneJournal s fun t =>
    t.flash.waitingDone = [] ∧ (∀ e ∈ s.flash.waitingDone, e.1 ∈ t.journalEntries) ∧
    { t.flash with journal := s.flash.journal, waitingDone := s.flash.waitingDone } = s.flash ∧
    (s.journalNext.2 % 1536 ≠ 0 → s.flash.journal <+: t.flash.journal) ∧ Frame s t [.flash] []) ∧
  ∀ (low : Bool) (s : State), s.groupUp .h = true → Answers (.vccqLowChange low) s fun t =>
    t.flag F.FLV_STATUS_VCCQ_LOW = low ∧ Frame s t [] [F.FLV_STATUS_VCCQ_LOW]

/-- R308; R309; R314; R315; R318; R319; R321; R329; R330. A bank whose rank's refresh may still wait takes the request that R308 picks out of its queue; a CXL.mem read of
a sound line is answered with the line while the device takes requests, and a task whose read proves
uncorrectable is told so. A request that has waited AGE_NS is promoted and nothing else in the queue changes. A
refresh that is due sets the next one's time, counts toward 8,192 and closes the rank's rows. An idle rank
enters power-down after PD_NS and self-refresh after SR_US, a Granary rank only without dirty pages. Completions
of: dramRequest, agePromotion, refresh, powerDownEntry, selfRefreshEntry. -/
def Obligations.DramBanksAreServedAndRefreshed : Prop :=
  (∀ (b : BankId) (ecc : EccOutcome) (s : State) (r : DramReq), s.channelUp b.ch.val = true →
    s.refreshOverdue b.ch.val b.rank.toNat = false →
    pickRequest (s.dram.queue.filter (fun r => r.bank == b)) (s.openRow b) = some r →
    Answers (.dramRequest b ecc) s fun t =>
      t.dram.queue = s.dram.queue.erase r ∧
      (∀ tag : Nat, s.linkClosed = false → r.kind = .cxlRead tag → ecc = .clean → (64, b.ch.val) ∉ s.hub.armed → (65, b.ch.val) ∉ s.hub.armed →
        Output.cxlData tag (s.readLine r.dpa).1 (s.readLine r.dpa).2 ∈ t.out) ∧
      (∀ (id : Nat) (k : Task), r.kind = .read (some id) → ecc = .uncorrectable → (s.decodeDpa r.dpa).isSome = true →
        (64, b.ch.val) ∉ s.hub.armed → (65, b.ch.val) ∉ s.hub.armed → s.task? id = some k →
        ∃ j : Task, t.task? id = some j ∧ j.spoilt = some (if grnBase ≤ r.dpa then 3 else 2)) ∧
      (r.kind = .write ∨ ecc ≠ .uncorrectable → t.dram.cells = s.dram.cells ∧ t.dram.poison = s.dram.poison)) ∧
  (∀ (b : BankId) (ecc : EccOutcome) (s : State), (s.channelUp b.ch.val = false ∨
    s.refreshOverdue b.ch.val b.rank.toNat = true) → Answers (.dramRequest b ecc) s fun t => Frame s t [] []) ∧
  (∀ (b : BankId) (s : State) (r : DramReq),
    s.dram.queue.find? (fun r => r.bank == b && r.cls != .guard && !r.promoted &&
      decide (r.at_ + max 250 (s.getN F.DMC_ARBCFG_AGE_NS b.ch.val) ≤ s.now)) = some r →
    Answers (.agePromotion b) s fun t =>
      t.dram = { s.dram with queue := s.dram.queue.map (fun x => if x == r then { x with promoted := true } else x) } ∧
      Frame s t (.dram :: raiseParts) ([F.DMC_PROMOTE_CNT_COUNT, F.DMC_PROMOTE_CNT_SAT] ++ raiseFields)) ∧
  (∀ (ch : Fin 12) (rank : BitVec 2) (s : State), s.rankRefreshed ch.val rank.toNat = true →
    let k := rankKey ch.val rank.toNat
    let due := s.dram.refNext.getD k s.now
    let n := s.dram.refCount.getD k 0 + 1
    due ≤ s.now → Answers (.refresh ch rank) s fun t =>
      t.dram.refNext.get? k = some (due + (if s.getN F.DMC_REFCFG_HOT ch.val = 1 then 1950 else 3900)) ∧
      t.dram.refCount.get? k = some (if 8192 ≤ n then 0 else n) ∧
      (∀ p ∈ t.dram.openRows, ¬ (p.1.ch = ch ∧ p.1.rank = rank)) ∧
      t.dram.cells = s.dram.cells ∧ t.dram.queue = s.dram.queue ∧ Frame s t [.dram] []) ∧
  ∀ (ch : Fin 12) (rank : BitVec 2) (s : State),
    (s.getN F.DMC_PWRCFG_PD_NS ch.val ≠ 0 → bitOf (s.getN F.DMC_STATUS_SR ch.val) rank.toNat = false →
      s.idleFor ch.val rank.toNat (s.getN F.DMC_PWRCFG_PD_NS ch.val) = true → Answers (.powerDownEntry ch rank) s fun t =>
        bitOf (t.getN F.DMC_STATUS_PD ch.val) rank.toNat = true ∧ Frame s t [] [F.DMC_STATUS_PD]) ∧
    (s.getN F.DMC_PWRCFG_SR_US ch.val ≠ 0 →
      s.idleFor ch.val rank.toNat (s.getN F.DMC_PWRCFG_SR_US ch.val * 1000) = true →
      ((4 ≤ ch.val ∨ s.rankDirty ch.val rank.toNat = false) → Answers (.selfRefreshEntry ch rank) s fun t =>
        bitOf (t.getN F.DMC_STATUS_SR ch.val) rank.toNat = true ∧ bitOf (t.getN F.DMC_STATUS_PD ch.val) rank.toNat = false ∧
        Frame s t [] [F.DMC_STATUS_PD, F.DMC_STATUS_SR]) ∧
      (ch.val < 4 → s.rankDirty ch.val rank.toNat = true → Answers (.selfRefreshEntry ch rank) s fun t => Frame s t [] []))

/-- R317; R324; R325; R326; R327; R333; R334; R336. A RETRAIN command and a drift beyond the limit start a retraining of a rank in service on a channel that runs
none; a retraining firing of a named rank does so and leaves its target. A passing check ends it; a failing one
is tried again, and the third fails the channel, raising source 69. RETIRE of an active rank with a spare starts
its migration from unit 0, without one it raises source 68. A unit copy moves UNIT on; the last gives the spare
the rank's number, marks the rank RETIRED and raises source 67. A parity error counts, raises source 66 and logs
type 3. Completions of: retrain, dqsOscillatorRead, retrainingSlot, retrainingEnd, retire, migrationUnitCopy,
caParityError. -/
def Obligations.RanksAreTrainedAndRetired : Prop :=
  (∀ (ch : Fin 12) (rank : BitVec 2) (s : State), s.mayRetrain ch.val rank.toNat = true →
    let started : Instr → Prop := fun c => Answers c s fun t =>
      t.dram.retraining.get? ch.val = some ⟨rank.toNat, 0, false⟩ ∧ t.getN F.DMC_STATUS_RETRAINING ch.val = 1 ∧
      t.dram.cells = s.dram.cells ∧ Frame s t [.dram] [F.DMC_STATUS_RETRAINING, F.DMC_STATUS_PD, F.DMC_STATUS_SR]
    started (.retrain ch rank) ∧ started (.dqsOscillatorRead ch rank true)) ∧
  (∀ (ch : Fin 12) (rank : BitVec 2) (s : State), Answers (.dqsOscillatorRead ch rank false) s fun t => Frame s t [] []) ∧
  (∀ (s : State) (f : Firing), s.get F.FT_STATUS_STATE = Ft.running → s.cal.firings.find? (fun f => f.target == 5) = some f →
    f.arg < 0x80 → f.arg % 16 < 12 → s.mayRetrain (f.arg % 16) (f.arg / 16 % 4) = true →
    Answers .retrainingSlot s fun t =>
      t.dram.retraining.get? (f.arg % 16) = some ⟨f.arg / 16 % 4, 0, bitOf f.arg 6⟩ ∧
      t.cal.firings = s.cal.firings.filter (fun g => g != f)) ∧
  (∀ (ch : Fin 12) (s : State) (r : Retraining), s.dram.retraining.get? ch.val = some r → r.zqOnly = false →
    (Answers (.retrainingEnd ch true) s fun t =>
      t.dram.retraining.get? ch.val = none ∧ t.getN F.DMC_STATUS_RETRAINING ch.val = 0) ∧
    (r.attempts < 2 → Answers (.retrainingEnd ch false) s fun t =>
      t.dram.retraining.get? ch.val = some { r with attempts := r.attempts + 1 } ∧ Frame s t [.dram] []) ∧
    (2 ≤ r.attempts → s.pwr.hold = true → Answers (.retrainingEnd ch false) s fun t =>
      t.getN F.DMC_CHCFG_STATE ch.val = Ch.failed ∧ t.getN F.DMC_CHCFG_ACTIVE_RANKS ch.val = 0 ∧ t.sticky 69 = true)) ∧
  (∀ (ch : Fin 12) (rank : BitVec 2) (s : State), s.channelUp ch.val = true →
    s.rankInService ch.val rank.toNat = true → rankState (s.rankByte ch.val rank.toNat) = Rank.active →
    let spare := (List.range 4).find? (fun p => rankPresent (s.rankByte ch.val p) && rankState (s.rankByte ch.val p) == Rank.spare)
    (∀ p : Nat, spare = some p → s.getN F.DMC_MIGRATE_ACTIVE ch.val ≠ 1 → Answers (.retire ch rank) s fun t =>
      rankState (t.rankByte ch.val rank.toNat) = Rank.migratingOut ∧ rankState (t.rankByte ch.val p) = Rank.migratingIn ∧
      t.getN F.DMC_MIGRATE_ACTIVE ch.val = 1 ∧ t.getN F.DMC_MIGRATE_FROM ch.val = rank.toNat ∧
      t.getN F.DMC_MIGRATE_TO ch.val = p ∧ t.getN F.DMC_MIGRATE_UNIT ch.val = 0) ∧
    (spare = none → s.pwr.hold = true → Answers (.retire ch rank) s fun t =>
      t.sticky 68 = true ∧ Frame s t raiseParts raiseFields)) ∧
  (∀ (ch : Fin 12) (s : State), s.channelUp ch.val = true → s.getN F.DMC_MIGRATE_ACTIVE ch.val = 1 →
    s.getN F.DMC_MIGRATE_PAUSED ch.val = 0 →
    let u := s.getN F.DMC_MIGRATE_UNIT ch.val + 1
    (u < 2 ^ (s.rankLog ch.val - 12) → u < 2 ^ F.DMC_MIGRATE_UNIT.width → Answers (.migrationUnitCopy ch) s fun t =>
      t.getN F.DMC_MIGRATE_UNIT ch.val = u ∧
      Frame s t [.dram] [F.DMC_MIGRATE_UNIT, F.DMC_STATUS_PD, F.DMC_STATUS_SR]) ∧
    (2 ^ (s.rankLog ch.val - 12) ≤ u → s.pwr.hold = true →
      s.getN F.DMC_MIGRATE_FROM ch.val < 4 → s.getN F.DMC_MIGRATE_TO ch.val < 4 →
      s.getN F.DMC_MIGRATE_FROM ch.val ≠ s.getN F.DMC_MIGRATE_TO ch.val → Answers (.migrationUnitCopy ch) s fun t =>
        rankState (t.rankByte ch.val (s.getN F.DMC_MIGRATE_FROM ch.val)) = Rank.retired ∧
        rankState (t.rankByte ch.val (s.getN F.DMC_MIGRATE_TO ch.val)) = Rank.active ∧
        rankLogical (t.rankByte ch.val (s.getN F.DMC_MIGRATE_TO ch.val)) =
          rankLogical (s.rankByte ch.val (s.getN F.DMC_MIGRATE_FROM ch.val)) ∧
        t.getN F.DMC_MIGRATE_ACTIVE ch.val = 0 ∧ t.sticky 67 = true)) ∧
  ∀ (ch : Fin 12) (rank : BitVec 2) (s : State), s.channelUp ch.val = true →
    s.rankInService ch.val rank.toNat = true → s.pwr.hold = true → Answers (.caParityError ch rank false) s fun t =>
      t.sticky 66 = true ∧ t.getN F.DMC_ERRLOG_TYPE ch.val = 3 ∧
      t.dram.parity.get? (rankKey ch.val rank.toNat) =
        some ((s.now :: s.dram.parity.getD (rankKey ch.val rank.toNat) []).take 8)

/-- R34; R35; R304; R305; R318; R338; R438. A readable sensor of a present DIMM is stored; above 85 degrees HOT sets, and source 71's condition is live. A
DRAM patrol slice over the channels of its ARG, none with a GUARD request waiting, leaves its target; an SRAM
slice raises the source of what it finds and an uncorrectable dirty-map block has every page of it dirty. A
write of an unlocked IVS[k].CFG, k not 0, is valid exactly when VALID is written and the conditions of R304 and
R305 hold, and shows STATE 1 then, else 0; a locked set and IVS[0] stay as they are. Completions of:
dimmSensorRead, dramScrubSlice, sramScrubSlice, ivsCfgWrite. -/
def Obligations.ScrubbingSensorsAndSets : Prop :=
  (∀ (ch : Fin 12) (v w : BitVec 16) (s : State), s.channelUp ch.val = true → s.pwr.hold = true → s.dimms ch.val = 1 →
    v ≠ 0x8000 → Answers (.dimmSensorRead ch [some v, some w]) s fun t =>
      t.getN F.DMC_TEMP_DIMM0 ch.val = v.toNat ∧
      (340 < toSigned 16 v.toNat → t.getN F.DMC_REFCFG_HOT ch.val = 1 ∧ t.getN F.DMC_STATUS_HOT ch.val =
        (if s.getN F.DMC_REFCFG_HOT ch.val = 1 then s.getN F.DMC_STATUS_HOT ch.val else 1) ∧
        (s.getN F.DMC_REFCFG_HOT ch.val ≠ 1 → t.live 71 = true)) ∧
      (toSigned 16 v.toNat < 320 → t.getN F.DMC_REFCFG_HOT ch.val = 0 ∧ t.getN F.DMC_STATUS_HOT ch.val = 0)) ∧
  (∀ (ch : Fin 12) (l : List (Option (BitVec 16))) (s : State), l.length ≠ 2 →
    exec (.dimmSensorRead ch l) s = .fault .illFormed) ∧
  (∀ (found : List LineFinding) (s : State) (f : Firing), s.get F.FT_STATUS_STATE = Ft.running → s.backgroundRuns = true →
    s.cal.firings.find? (fun f => f.target == 2) = some f → s.patrolMayRead = true →
    Answers (.dramScrubSlice found) s fun t =>
      t.cal.firings = s.cal.firings.filter (fun g => g != f) ∧
      (f.arg % 4096 = 0 → Frame s t [.cal] [])) ∧
  (∀ (found : SramFinding) (s : State) (f : Firing), found.ok = true → s.mainUp = true →
    s.get F.FT_STATUS_STATE = Ft.running → s.backgroundRuns = true →
    s.cal.firings.find? (fun f => f.target == 3) = some f → Answers (.sramScrubSlice found) s fun t =>
      (∀ d : BitVec 2, found = .poolCorrected d → t.sticky 39 = true) ∧
      (∀ l : Nat, found = .landingCopy l → t.sticky 106 = true) ∧ (found = .dirtyMapCorrected → t.sticky 107 = true) ∧
      (∀ b : BitVec 13, found = .dirtyMapLost b → t.sticky 108 = true ∧ ∀ p : Nat, 32768 * b.toNat ≤ p →
        p < 32768 * b.toNat + 32768 → p < s.windowPages → t.grn.dirty.mem p = true)) ∧
  ∀ (n : BitVec 3) (v : Dword) (s : State),
    (s.mainUp = true → n ≠ 0 → s.getN F.IVS_CFG_LOCK n.toNat ≠ 1 → Answers (.ivsCfgWrite n v) s fun t =>
      t.getN F.IVS_CFG_VALID n.toNat = natOfBool (bitOf v.toNat 0 && t.ivsValid n.toNat (t.ivs n.toNat)) ∧
      t.getN F.IVS_CFG_STATE n.toNat = t.getN F.IVS_CFG_VALID n.toNat ∧
      t.getN F.IVS_CFG_WAYS n.toNat = bitsOf v.toNat 18 15 ∧ t.getN F.IVS_CFG_GRAIN_LOG n.toNat = bitsOf v.toNat 23 19 ∧
      t.getN F.IVS_CFG_CH_BASE n.toNat = bitsOf v.toNat 31 24 ∧ t.getN F.IVS_CFG_CHLIST n.toNat = bitsOf v.toNat 63 32 ∧
      t.getN F.IVS_CFG_LOCK n.toNat = bitsOf v.toNat 9 9 ∧
      Frame s t [] [F.IVS_CFG_CHLIST, F.IVS_CFG_CH_BASE, F.IVS_CFG_GRAIN_LOG, F.IVS_CFG_WAYS, F.IVS_CFG_VOL,
        F.IVS_CFG_VALID, F.IVS_CFG_STATE, F.IVS_CFG_LOCK]) ∧
    ((s.mainUp = false ∨ n = 0 ∨ s.getN F.IVS_CFG_LOCK n.toNat = 1) →
      Answers (.ivsCfgWrite n v) s fun t => Frame s t [] [])

/-- R275. Host software changes CTX[n].CFG only by its own write (REGISTER_WRITE leaves its fields alone), and only while
no pair and no loaded plan uses the context: the fields then hold the value's bits, but for EN of context 0, and
every other context stays. A write while the context has users changes nothing and records no event. CREATE_PAIR
naming a context whose EN is clear completes with INVALID_FIELD and RESULT 36, the byte offset of CTX within the
command. Completions of: ctxCfgWrite. -/
def Obligations.ContextsAreConfigured : Prop :=
  (∀ (n : BitVec 8) (v : Dword) (s : State), s.groupUp .fn = true → s.ctxUsers n.toNat = 0 →
    Answers (.ctxCfgWrite n v) s fun t =>
      t.getN F.CTX_CFG_PASID_EN n.toNat = bitsOf v.toNat 30 30 ∧ t.getN F.CTX_CFG_PRI_EN n.toNat = bitsOf v.toNat 29 29 ∧
      t.getN F.CTX_CFG_PASID n.toNat = bitsOf v.toNat 19 0 ∧
      t.getN F.CTX_CFG_EN n.toNat = (if n = 0 then s.getN F.CTX_CFG_EN 0 else bitsOf v.toNat 31 31) ∧
      (∀ k : BitVec 8, k ≠ n → ∀ f ∈ [F.CTX_CFG_EN, F.CTX_CFG_PASID_EN, F.CTX_CFG_PRI_EN, F.CTX_CFG_PASID],
        t.getN f k.toNat = s.getN f k.toNat) ∧
      Frame s t [] [F.CTX_CFG_EN, F.CTX_CFG_PASID_EN, F.CTX_CFG_PRI_EN, F.CTX_CFG_PASID]) ∧
  (∀ (n : BitVec 8) (v : Dword) (s : State), s.ctxUsers n.toNat ≠ 0 →
    Answers (.ctxCfgWrite n v) s fun t => Frame s t [] []) ∧
  (∀ (w : RegWriter) (o : BitVec 24) (z : AccessSize) (v : Dword) (s : State), Answers (.registerWrite w o z v) s fun t =>
    ∀ f ∈ [F.CTX_CFG_EN, F.CTX_CFG_PASID_EN, F.CTX_CFG_PRI_EN, F.CTX_CFG_PASID], ∀ n : Nat, t.getN f n = s.getN f n) ∧
  ∀ (m : Mailbox) (s : State) (a : Accepted), s.begins m (isOp Op.createPair) a →
    s.ctxEnabled (pairArgs a.cmd).ctx = false → Ends (.createPair m) s s a CC.invalidField 36

/-- R285; R286; R287; R288; R291; R293; R295. Data of a tiller's read is gathered, and with its last byte belongs to the task. A failed or timed-out read of a
mailbox completes its command with DMA_ERROR, raising the AER error's source and source 49; of a tiller it stops
the task with the code of R295. A translation that an invalidation of pages it covers has overtaken is asked for
again; a granted one fills the IOTLB and its waiters go on; one that grants too little becomes a page request
where that may be sent, else HOST_FAULT. A page response of success asks for the translation again, of invalid
request stops with HOST_FAULT detail 3, any other is a response failure; where nothing waits for the page any
more the response only ends its group; an answer out of time is detail 5. An answer to nothing outstanding
changes nothing. Completions of: hostReadCompletion, completionTimeout, translationCompletion, prgResponse,
pageResponseTimeout. -/
def Obligations.HostAnswersReachTheirRequesters : Prop :=
  (∀ (n : BitVec 7) (b : List Byte) (x : HostRead) (s : State), tillerOk n = true → s.groupUp .ln = true →
    (s.tiller n.toNat).read = some x →
    let got := (x.got ++ b).take x.len
    let u := s.readData n.toNat x b
    Runs (.hostReadCompletion (.tiller n) (.data b)) s u.schedule ∧
    (got.length < x.len → ((u.tiller n.toNat).read.map (fun y => (y.got, y.addr, y.len))) = some (got, x.addr, x.len)) ∧
    (x.len ≤ got.length → (u.tiller n.toNat).read = none ∧ ∀ k : Task, x.task.bind s.task? = some k →
      u.task? k.id = some { k with data := k.data ++ [⟨x.ctx, x.addr, got⟩] })) ∧
  (∀ (n : BitVec 7) (x : HostRead) (s : State), tillerOk n = true → s.groupUp .ln = true →
    (s.tiller n.toNat).read = some x →
    Runs (.hostReadCompletion (.tiller n) .poisoned) s
      ((s.reportAer .poisonedTlp 18).readFails n.toNat x 0x0406 1).schedule ∧
    (∀ ca : Bool, Runs (.hostReadCompletion (.tiller n) (.aborted ca)) s
      ((s.reportAer .completionError 19).readFails n.toNat x 0x0408 (if ca then 2 else 1)).schedule) ∧
    Runs (.completionTimeout (.tiller n)) s
      ((s.reportAer .completionError 19).readFails n.toNat x 0x0407 0).schedule) ∧
  (∀ (m : Mailbox) (s : State) (a : Accepted), s.groupUp .ln = true → s.readingCmd m = some a →
    (∀ x ∈ s.eng.appends, x.id ≠ a.id) →
    let fails : Instr → Nat → LinkErrorKind → Nat → Prop := fun c source kind code => Answers c s fun t =>
      Completed s a CC.dmaError 49 t ∧ t.sticky source = true ∧ t.sticky 49 = true ∧ Output.aer kind ∈ t.out ∧
      t.get F.TLU_FAULT_ADDR_KIND = dmaKind code ∧
      Frame s t (.mbx :: raiseParts) ([F.TLU_FAULT_ADDR_KIND, F.TLU_FAULT_ADDR_GRANARY, F.TLU_FAULT_ADDR_CTX,
        F.TLU_FAULT_ADDR_ADDR] ++ raiseFields ++ completeFields)
    fails (.hostReadCompletion (.mailbox m) .poisoned) 18 .poisonedTlp 0x0406 ∧
    (∀ ca : Bool, fails (.hostReadCompletion (.mailbox m) (.aborted ca)) 19 .completionError 0x0408) ∧
    fails (.completionTimeout (.mailbox m)) 19 .completionError 0x0407) ∧
  (∀ (id : Nat) (answer : TransAnswer) (s : State), (∀ r ∈ s.eng.tlu.reqs.take 64, r.id ≠ id) →
    Answers (.translationCompletion id answer) s fun t => Frame s t [] []) ∧
  (∀ (id : Nat) (r : TransReq) (s : State), (s.eng.tlu.reqs.take 64).find? (fun r => r.id == id) = some r →
    let u := (s.mapTlu (fun t => { t with reqs := t.reqs.filter (fun x => x.id != id) })).sendNextTrans
    (∀ answer : TransAnswer, r.overtaken answer = true → Answers (.translationCompletion id answer) s fun t =>
      Output.transReq r.id (s.viaAsk r.ctx) r.page r.write ∈ t.out ∧ t.eng = (s.mapTlu (fun q => { q with
        reqs := q.reqs.map (fun x => if x.id = id then { x with stale := [] } else x) })).eng ∧ Frame s t [.eng] []) ∧
    ((∀ (frame : BitVec 52) (log : BitVec 6) (read write g : Bool), r.overtaken (.granted frame log read write g) = false →
        ((if r.write then write else read) = true → Runs (.translationCompletion id (.granted frame log read write g)) s
          (((u.fillHost r frame.toNat log.toNat read write).resumeWait (.trans id)).schedule)) ∧
        ((if r.write then write else read) = false → Runs (.translationCompletion id (.granted frame log read write g)) s
          (u.denied r).schedule)) ∧
      (r.overtaken .denied = false → Runs (.translationCompletion id .denied) s (u.denied r).schedule) ∧
      (r.overtaken .aborted = false →
        Runs (.translationCompletion id .aborted) s (u.stopWait (.trans id) r.ctx r.page 1).schedule) ∧
      (r.second = true → u.denied r = u.stopWait (.trans r.id) r.ctx r.page 6) ∧
      (r.second = false → u.priOn r.ctx = false → u.denied r = u.stopWait (.trans r.id) r.ctx r.page 2) ∧
      (r.second = false → u.priOn r.ctx = true → u.denied r = u.pageRequest r))) ∧
  (∀ (ctx : BitVec 8) (page : BitVec 52) (g : PageGroup) (s : State),
    s.eng.tlu.groups.find? (fun g => g.ctx == ctx.toNat && g.page == page.toNat && g.sentAt.isSome) = some g →
    let w : PageWait := .group ctx.toNat page.toNat
    let u := s.dropGroup ctx.toNat page.toNat
    let r := u.requestTrans ctx.toNat page.toNat g.write true
    (u.awaited w = true → Runs (.prgResponse ctx page 0) s ((r.1.moveWait w (.trans r.2)).nextGroup)) ∧
    Runs (.prgResponse ctx page 1) s (((u.stopWait w ctx.toNat page.toNat 3).nextGroup).schedule) ∧
    (∀ code : BitVec 4, 1 < code.toNat → s.awaited w = true → Runs (.prgResponse ctx page code) s s.prgFailure.schedule) ∧
    ∀ code : BitVec 4, code ≠ 1 → u.awaited w = false → s.awaited w = false →
      Runs (.prgResponse ctx page code) s u.nextGroup) ∧
  (∀ (ctx : BitVec 8) (page : BitVec 52) (code : BitVec 4) (s : State),
    s.eng.tlu.groups.find? (fun g => g.ctx == ctx.toNat && g.page == page.toNat && g.sentAt.isSome) = none →
    Answers (.prgResponse ctx page code) s fun t => Frame s t [] []) ∧
  ∀ (ctx : BitVec 8) (page : BitVec 52) (g : PageGroup) (sent : Nat) (s : State),
    s.eng.tlu.groups.find? (fun g => g.ctx == ctx.toNat && g.page == page.toNat) = some g → g.sentAt = some sent →
    let ms := s.get F.TLU_CTL_PRI_TO_MS
    ((ms = 0 ∨ s.now < sent + ms * 1000000) → Answers (.pageResponseTimeout ctx page) s fun t => Frame s t [] []) ∧
    (ms ≠ 0 → sent + ms * 1000000 ≤ s.now → Runs (.pageResponseTimeout ctx page) s
      ((((s.dropGroup ctx.toNat page.toNat).stopWait (.group ctx.toNat page.toNat) ctx.toNat page.toNat 5).nextGroup).schedule))

/-- R284; R287; R288; R15; R501; R502; R506. An ATS invalidation drops every host entry of its context that meets its range, leaves the range with every
outstanding translation of the context, and waits for its completion, which is sent once no host read in the
range is outstanding. TLU_INVAL drops the device-region or Granary entries of its range, or all of the kind.
Setting PRI Enable again clears PRI_STOPPED and source 50's live bit. A register write changes no read-only or
write-only field, no field of a group that is down, and for the host no privileged one; a read-write field that
it covers takes the bits written. Completions of: atsInvalidationRequest, atsInvalidationComplete, tluInval,
priEnableToggle, registerWrite. -/
def Obligations.TranslationsAreInvalidated : Prop :=
  (∀ (ctx : BitVec 8) (first : BitVec 52) (log : BitVec 6) (tag : BitVec 5) (s : State), s.groupUp .ln = true →
    s.eng.tlu.invals.length < 32 →
    let page := first.toNat / 2 ^ log.toNat * 2 ^ log.toNat
    Answers (.atsInvalidationRequest ctx first log tag) s fun t =>
      (∀ e ∈ t.eng.tlu.tlb, ¬ (e.kind = .host ctx.toNat ∧ e.meets page log.toNat = true)) ∧
      (∀ e ∈ s.eng.tlu.tlb, ¬ (e.kind = .host ctx.toNat ∧ e.meets page log.toNat = true) → e ∈ t.eng.tlu.tlb) ∧
      (∀ r ∈ t.eng.tlu.reqs.take 64, r.ctx = ctx.toNat → (page, log.toNat) ∈ r.stale) ∧
      t.eng.tlu.reqs.map (fun r => (r.id, r.ctx, r.page)) = s.eng.tlu.reqs.map (fun r => (r.id, r.ctx, r.page)) ∧
      t.eng.tlu.invals = s.eng.tlu.invals ++ [⟨tag.toNat, ctx.toNat, page, log.toNat⟩] ∧
      { t.eng with tlu := s.eng.tlu } = s.eng ∧ Frame s t [.eng] []) ∧
  (∀ (tag : BitVec 5) (i : Inval) (s : State), s.eng.tlu.invals.find? (fun i => i.tag == tag.toNat) = some i →
    (s.readsIn i = true → Answers (.atsInvalidationComplete tag) s fun t => Frame s t [] []) ∧
    (s.readsIn i = false → Answers (.atsInvalidationComplete tag) s fun t =>
      Output.invalDone i.tag ∈ t.out ∧ t.eng.tlu.invals = s.eng.tlu.invals.erase i ∧
      Frame s t (.eng :: raiseParts) ([F.TLU_INVAL_CNT_COUNT, F.TLU_INVAL_CNT_SAT] ++ raiseFields))) ∧
  (∀ (v : Dword) (s : State), s.mainUp = true →
    let page := bitsOf v.toNat 63 12
    let log := bitsOf v.toNat 11 4
    let kind : Option TlbKind := if bitsOf v.toNat 1 0 = 1 then some .device else
      if bitsOf v.toNat 1 0 = 2 then some .granary else none
    Answers (.tluInval v) s fun t =>
      (∀ e : TlbEntry, e ∈ t.eng.tlu.tlb ↔ e ∈ s.eng.tlu.tlb ∧ ¬ (some e.kind = kind ∧ (log = 255 ∨ e.meets page log = true))) ∧
      { t.eng with tlu := s.eng.tlu } = s.eng ∧ Frame s t [.eng] []) ∧
  (∀ (ats : Bool) (s : State), s.groupUp .fn = true → Answers (.priEnableToggle ats) s fun t =>
    t.link.atsEnable = ats ∧ t.link.priEnable = true ∧ t.get F.TLU_STATUS_PRI_STOPPED = 0 ∧ t.live 50 = false ∧
    (∀ n : Nat, n < 256 → n ≠ 50 → t.live n = s.live n) ∧
    { t.link with atsEnable := s.link.atsEnable, priEnable := s.link.priEnable, pba := s.link.pba } = s.link ∧
    Frame s t [.link] [F.TLU_STATUS_PRI_STOPPED, F.FLT_LIVE_LIVE]) ∧
  ∀ (w : RegWriter) (o : BitVec 24) (z : AccessSize) (v : Dword) (s : State),
    let len : Nat := match z with
      | .four => 4
      | .eight => 8
    (Answers (.registerWrite w o z v) s fun t => Frame s t [.link] allFields ∧
      ∀ f ∈ allFields, f.outside settleFields → ∀ i : Nat, i < f.count →
        (f.access = .ro ∨ f.access = .wo ∨ (f.priv = true ∧ w = .host) ∨ s.groupUp (f.group i) = false) →
        t.getN f i = s.getN f i) ∧
    ((match w with
      | .host => s.linkUp
      | .firmware => s.mainUp) = true → o.toNat % len = 0 → ¬ (0xE00000 ≤ o.toNat ∧ o.toNat < 0xE01000) →
      ∀ f ∈ allFields, f.outside settleFields → f.access = .rw → f.outside ownCommand → ∀ i : Nat, i < 8192 →
        fieldInstance f o.toNat = some i → (f.priv = false ∨ w = .firmware) → s.groupUp (f.group i) = true →
        s.writable f i o.toNat (v.toNat % 2 ^ (8 * len)) = true →
        let m := fieldWrite f i o.toNat len (v.toNat % 2 ^ (8 * len))
        m.1 ≠ 0 → Answers (.registerWrite w o z v) s fun t =>
          t.getN f i = (s.getN f i - (s.getN f i &&& m.1) + m.2) % 2 ^ f.width)

/-- R142; R151; R154; R155; R165; R170; R172; R182; R245. A load ends with LENGTH_MISMATCH where the image declares another length, NOT_READY where it needs the Granary
and that is not lazily ready, IMAGE_INVALID and the number of the first check that fails, RESOURCE_LIMIT and the
step that fails, else OK with the plan's handle, the plan LOADED in the slot claimed; with VALIDATE it answers
the reservation and claims nothing. A handle that names no plan gives NO_SUCH_OBJECT to every command that takes
one. PLAN_START wants the length of its parameter block and a LOADED plan, names the offset of the first value
not accepted, and else starts the plan with the values patched in. PLAN_STATUS delivers the 256 bytes of R182.
Completions of: planLoad, planLoadValidate, planStart, planStatus. -/
def Obligations.PlansAreLoadedAndStarted : Prop :=
  (∀ (m : Mailbox) (x : Transfer) (heads : List Transfer) (validate : Bool) (s : State) (a : Accepted),
    s.begins m (fun c => isOp Op.planLoad c && bitOf (cmdArg c 0) 0 == validate) a →
    let c : Instr := if validate then .planLoadValidate m x heads else .planLoad m x heads
    ReadsDeclared c s s a 192 imgLen x fun w b =>
      let i := parseImage b
      let ctx := w.mailboxCtx a.mb
      let own := match w.slotOf a with
        | some k => some k
        | none => w.emptySlot
      let back : State → State := fun t => { t with eng := { t.eng with tables := w.eng.tables } }
      let ends : Nat → Nat → Prop := fun code result => Answers c s fun t =>
        Completed w a code result t ∧ Frame w t (.grn :: cplParts w a) (cplFields w a)
      let needs := bitOf (leField b 6 2) 1 && !w.flag F.RDY_STATUS_GRN_LAZY
      (needs = true → Ends c s w a CC.notReady w.rdyWord) ∧
      (needs = false →
        (∀ k : Nat, imageFail b = some k → k < 12 → ends CC.imageInvalid k) ∧
        ((imageFail b = none ∨ imageFail b = some 12) →
          (∀ u : State, w.attachAll a (own.getD 256) heads [] i.tables = .fails u →
            Runs c s ((back u).failLoad a CC.imageInvalid 11)) ∧
          (∀ (u : State) (q : PageWait), w.attachAll a (own.getD 256) heads [] i.tables = .wait u q →
            Runs c s ((back u).parkCmd a [q])) ∧
          (∀ u : State, w.attachAll a (own.getD 256) heads [] i.tables = .ended u → Runs c s (back u)) ∧
          ∀ (t : State) (l : List MemWrite), w.attachAll a (own.getD 256) heads [] i.tables = .ok t l →
            let u := back t
            (imageFail b = some 12 → Runs c s (u.failLoad a CC.imageInvalid 12)) ∧
            (imageFail b = none →
              (u.shapeAccepted i = false → Runs c s (u.failLoad a CC.imageInvalid 13)) ∧
              (u.shapeAccepted i = true → u.bind i = none → Runs c s (u.failLoad a CC.imageInvalid 14)) ∧
              (u.shapeAccepted i = true → ∀ (v : State) (g : Binding), u.bind i = some (v, g) →
                (validate = true → Ends c s u a CC.ok (v.reservation i g.nodes)) ∧
                (validate = false →
                  (∀ k : Nat, v.claim i own (v.reservation i g.nodes) = .error k → Runs c s (u.failLoad a CC.resourceLimit k)) ∧
                  ∀ r : Claims, v.claim i own (v.reservation i g.nodes) = .ok r →
                    let q : State := { v with eng := { v.eng with tables := t.eng.tables } }
                    ∀ (p : State) (n : List MemWrite) (e : Unit), q.performWrites a.waiter ctx l = (p, n, .ok e) →
                      let z := p.putPlan i (loadedPlan i ctx (mailboxNumber a.mb) g r) r
                      (∃ y, z.plan? r.slot = some y ∧ y.state = .loaded ∧ y.image = i ∧ y.resv = v.reservation i g.nodes) ∧
                      Ends c s z a CC.ok (z.handleOf r.slot))))))) ∧
  (∀ (m : Mailbox) (s : State) (a : Accepted),
    let absent : Instr → Nat → (Line → Bool) → Prop := fun c k p => s.begins m p a →
      s.handlePlan (cmdArg a.cmd k) = none → Ends c s s a CC.noSuchObject 0
    absent (.planCancel m) 0 (isOp Op.planCancel) ∧
    absent (.planUnload m) 0 (isOp Op.planUnload) ∧ absent (.planStatus m) 0 (isOp Op.planStatus) ∧
    absent (.flowRelease m) 0 (fun c => isOp Op.flowRelease c && cmdArg c 2 == 0) ∧
    absent (.flowCancel m) 0 (fun c => isOp Op.flowRelease c && cmdArg c 2 == 1) ∧
    absent (.bindVector m) 1 (fun c => isOp Op.bindVector c && !bitOf (cmdArg c 3) 0) ∧
    absent (.unbindVector m) 1 (fun c => isOp Op.bindVector c && bitOf (cmdArg c 3) 0)) ∧
  (∀ (m : Mailbox) (x : Transfer) (s : State) (a : Accepted), s.begins m (isOp Op.planStart) a →
    let c : Instr := .planStart m x
    let goes : State → List Byte → Prop := fun w b =>
      (w.handlePlan (cmdArg a.cmd 0) = none → Ends c s w a CC.noSuchObject 0) ∧
      ∀ (slot : Nat) (p : Plan), w.handlePlan (cmdArg a.cmd 0) = some (slot, p) →
        let n := p.image.params.length
        let need := if n = 0 then 0 else 16 + 16 * n
        (cmdLen a.cmd ≠ need → Ends c s w a CC.lengthMismatch need) ∧
        (cmdLen a.cmd = need → p.state ≠ .loaded → Ends c s w a CC.stateConflict 0) ∧
        (cmdLen a.cmd = need → p.state = .loaded →
          (n = 0 → Runs c s (w.startPlan a slot p p.image)) ∧
          (n ≠ 0 →
            (∀ o : Nat, blockHeaderFail b n = some o → Ends c s w a CC.invalidField o) ∧
            (blockHeaderFail b n = none →
              (∀ o : Nat, p.image.withParams b = .error o → Ends c s w a CC.invalidField o) ∧
              ∀ i : Image, p.image.withParams b = .ok i → Runs c s (w.startPlan a slot p i))))
    (cmdLen a.cmd = 0 →
      (s.notReady a.cmd = true → Ends c s s a CC.notReady s.rdyWord) ∧ (s.notReady a.cmd = false → goes s [])) ∧
    (cmdLen a.cmd ≠ 0 → ReadsDeclared c s s a 16 (fun h => leField h 8 4) x goes)) ∧
  ∀ (m : Mailbox) (s : State) (a : Accepted), s.begins m (isOp Op.planStatus) a →
    ∀ (slot : Nat) (p : Plan), s.handlePlan (cmdArg a.cmd 0) = some (slot, p) →
    (s.statusBytes slot p).length = 256 ∧ Delivers (.planStatus m) s a (s.statusBytes slot p)

/-- R108; R133; R157; R174; R175; R176; R177; R178; R260; R265. PLAN_CANCEL of a LOADED plan completes OK; of a RUNNING one it tears the plan down for ABORTED with RESULT 1 and
waits; of a CANCELLING one it waits too. The teardown ends when no read of the plan is outstanding. PLAN_UNLOAD
completes OK only for a LOADED plan, whose slot is then empty. BIND_VECTOR records the one vector of an event,
and its unbinding removes it. FLOW_RELEASE of a flow that is held and can be released lets its stopped tasks go
on; with ARG2 = 1 it ends the plan with PLAN_FAILED and the first error. SPILL_CONFIG sets the size only while
every plan is LOADED. An APPEND_BLOCK without its table, column or declared length ends by name, else it begins.
Completions of: planCancel, teardownComplete, planUnload, bindVector, unbindVector, flowRelease, flowCancel,
spillConfig, appendBlock. -/
def Obligations.PlansEndAndFlowsAreReleased : Prop :=
  (∀ (m : Mailbox) (s : State) (a : Accepted), s.begins m (isOp Op.planCancel) a →
    ∀ (slot : Nat) (p : Plan), s.handlePlan (cmdArg a.cmd 0) = some (slot, p) →
    (p.state = .loaded → Ends (.planCancel m) s s a CC.ok 0) ∧
    (p.state = .cancelling → Answers (.planCancel m) s fun t =>
      t.plan? slot = some { p with cancels := p.cancels ++ [a.id] } ∧
      (∀ k : Nat, k ≠ slot → t.plan? k = s.plan? k) ∧ Frame s t [.mbx, .eng] []) ∧
    (p.state = .running → ∀ q : Plan, (s.tearDown slot (CC.aborted, 1)).plan? slot = some q →
      Runs (.planCancel m) s ((((s.tearDown slot (CC.aborted, 1)).begin a).setPlan slot
        { q with cancels := q.cancels ++ [a.id] }).schedule))) ∧
  (∀ (slot : BitVec 8) (s : State),
    (∀ p : Plan, s.plan? slot.toNat = some p → p.state = .cancelling → s.planReads slot.toNat = false →
      Runs (.teardownComplete slot) s (s.endTeardown slot.toNat).schedule) ∧
    ((∀ p : Plan, s.plan? slot.toNat = some p → p.state = .cancelling → s.planReads slot.toNat = true) →
      Answers (.teardownComplete slot) s fun t => Frame s t [] [])) ∧
  (∀ (m : Mailbox) (s : State) (a : Accepted), s.begins m (isOp Op.planUnload) a →
    ∀ (slot : Nat) (p : Plan), s.handlePlan (cmdArg a.cmd 0) = some (slot, p) →
    (p.state ≠ .loaded → Ends (.planUnload m) s s a CC.stateConflict 0) ∧
    (p.state = .loaded →
      let u := (s.unload slot p).endDetached
      u.plan? slot = none ∧ Runs (.planUnload m) s (u.complete a CC.ok 0))) ∧
  (∀ (m : Mailbox) (s : State) (remove : Bool) (a : Accepted),
    s.begins m (fun c => isOp Op.bindVector c && bitOf (cmdArg c 3) 0 == remove) a →
    ∀ (slot : Nat) (p : Plan), s.handlePlan (cmdArg a.cmd 1) = some (slot, p) →
      let ev := cmdArg a.cmd 2
      let l := if remove then p.binds.erase ev else p.binds.set ev (cmdArg a.cmd 0)
      Answers (if remove then .unbindVector m else .bindVector m) s fun t =>
        t.plan? slot = some { p with binds := l } ∧ (∀ k : Nat, k ≠ slot → t.plan? k = s.plan? k) ∧
        Completed s a CC.ok 0 t ∧ Frame s t (.eng :: cplParts s a) (cplFields s a)) ∧
  (∀ (m : Mailbox) (s : State) (cancel : Bool) (a : Accepted),
    s.begins m (fun c => isOp Op.flowRelease c && cmdArg c 2 == natOfBool cancel) a →
    ∀ (slot : Nat) (p : Plan), s.handlePlan (cmdArg a.cmd 0) = some (slot, p) →
    let c : Instr := if cancel then .flowCancel m else .flowRelease m
    let ends : Nat → Prop := fun code => Ends c s s a code 0
    (p.locate (cmdArg a.cmd 1 % 65536) = none → ends CC.noSuchObject) ∧
    ∀ op i : Nat, p.locate (cmdArg a.cmd 1 % 65536) = some (op, i) →
      (((p.run op).flow i).held = false → ends CC.stateConflict) ∧
      (((p.run op).flow i).held = true →
        (cancel = false → s.unreleasable p slot op i = true → ends CC.stateConflict) ∧
        (cancel = false → s.unreleasable p slot op i = false →
          Runs c s (((s.releaseFlow slot op i).schedule).complete a CC.ok 0)) ∧
        (cancel = true → p.state ≠ .running → ends CC.stateConflict) ∧
        (cancel = true → p.state = .running →
          (∀ t ∈ s.eng.tasks, ¬ (t.plan = slot ∧ t.op = op ∧ t.index = i ∧ t.state = .stopped)) →
          Runs c s (((s.tearDown slot (CC.planFailed, p.firstErr % 65536 + p.firstHeld * 65536)).schedule).complete a
            CC.ok 0)) ∧
        (cancel = true → p.state = .running → ∀ k : Task,
          s.eng.tasks.find? (fun t => t.plan == slot && t.op == op && t.index == i && t.state == .stopped) = some k →
          Runs c s ((((s.traceTask Ev.release k 1).tearDown slot
            (CC.planFailed, p.firstErr % 65536 + p.firstHeld * 65536)).schedule).complete a CC.ok 0)))) ∧
  (∀ (m : Mailbox) (s : State) (a : Accepted), s.begins m (isOp Op.spillConfig) a →
    (∀ q ∈ s.eng.plans, q.2.state ≠ .loaded → Ends (.spillConfig m) s s a CC.stateConflict 0) ∧
    ((∀ q ∈ s.eng.plans, q.2.state = .loaded) →
      Runs (.spillConfig m) s (((s.set F.SCH_SPILL_SIZE_MIB (cmdArg a.cmd 0)).settleQuota).complete a CC.ok 0))) ∧
  ∀ (m : Mailbox) (x : Transfer) (s : State) (a : Accepted),
    let g := s.eng.appends.foldl State.goOnAppend s
    let c : Instr := .appendBlock m x
    let col := cmdArg a.cmd 1 % 65536
    g.begins m (isOp Op.appendBlock) a →
    (g.canStage = false → Runs c s g) ∧
    (g.canStage = true → ReadsDeclared c s g a 96 (blockLength a) x fun w b =>
      (w.table? (cmdArg a.cmd 0) = none → Ends c s w a CC.noSuchObject 0) ∧
      ∀ t : Attached, w.table? (cmdArg a.cmd 0) = some t →
        (t.decl.role ≠ Role.ingest → Ends c s w a CC.noSuchObject 0) ∧
        (t.decl.role = Role.ingest → t.decl.types.length ≤ col → Ends c s w a CC.invalidField 24) ∧
        (t.decl.role = Role.ingest → col < t.decl.types.length →
          let y : Append := ⟨a.id, b, none, false⟩
          let q := (w.begin a).mapEng (fun e => { e with appends := insertAppend y e.appends })
          Runs c s (q.goOnAppend y) ∧
          (w.eng.appends = [] → w.appendsEnd = false → a.waits = [] → ∀ (v : State) (old : Accepted0),
            q.acceptedBlock t col (blockHead b).firstRow = (v, .ok old) →
            (∀ e : BlockErr, checkAppend t col old b (v.flag F.CBV_CTL_CRC_REQ) = .error e →
              Runs c s ((v.rejectBlock e (0x80 + mailboxNumber m)).endAppend y a CC.blockInvalid (e.word 0))) ∧
            (checkAppend t col old b (v.flag F.CBV_CTL_CRC_REQ) = .ok () →
              (old.bytes.isSome = true → Runs c s ((v.bump C.cbvChecked).endAppend y a CC.ok 0)) ∧
              (old.bytes = none → t.opened.all (fun o => o.firstRow == (blockHead b).firstRow) = true →
                (∀ k : Nat, t.full b.length t.columnsLeft = some k → Runs c s (v.areaFull y t)) ∧
                (t.full b.length t.columnsLeft = none →
                  let r := t.append col b
                  let z : Append := { y with job := some ⟨t, r.2, (blockHead b).rows, 0⟩ }
                  let u := ((v.bump C.cbvChecked).setTable r.1).setAppend z
                  r.2.all (fun l => !l.lines.any (u.lineAhead a)) = true →
                  ∀ (p : State) (n : List MemWrite) (e : Unit),
                    u.performWrites a.waiter (u.mailboxCtx a.mb) r.2 = (p, n, .ok e) →
                    Runs c s (p.endAppend z a CC.ok 0)))))))

/-- R198; R228; R252; R254; R256; R257; R258; R267; R268. The tillers that have become idle pull in ascending order, each the first eligible task that it serves; a tiller
that is busy or not live pulls none. At a yield point the output goes first; a task asked to yield parks READY,
one whose next item finds no credit parks for its culm, and one held by the quota waits for it. A task that has
pushed everything ends: it leaves its tiller, its slot and unused credits go back, it is counted, and end of
stream follows. A READY INGEST or BACKGROUND task that has waited longer than STARVE_MS is promoted once.
HELD_FLOW_SEARCH finds the lowest held flow of the plan from FROM upward, or none (FLOW and ERR are then free).
EN of the trace rising clears both pointers. A window-close firing that need not stay pending is accepted or
discarded, while field time runs. Completions of: taskDispatch, yieldPoint, taskEnd, starvationPromotion,
heldFlowSearch, traceEnable, windowCloseAccept. -/
def Obligations.TasksAreDispatchedAndEnd : Prop :=
  (∀ (n : BitVec 7) (s : State), tillerOk n = true →
    ((s.dispatching = false ∨ s.idle n.toNat = false ∨ s.live? n.toNat = false) →
      Answers (.taskDispatch n) s fun t => Frame s t [] []) ∧
    (s.dispatching = true → s.idle n.toNat = true → s.live? n.toNat = true →
      let v := (s.freshTillers.filter (fun i => decide (i < n.toNat))).foldl State.pull s
      let u := v.setTiller n.toNat { v.tiller n.toNat with fresh := false }
      (∀ k : Task, u.eligibleTasks.find? (fun k => (u.servers k).contains n.toNat) = some k →
        Runs (.taskDispatch n) s (u.dispatch k n.toNat).schedule) ∧
      ((∀ k ∈ u.eligibleTasks, n.toNat ∉ u.servers k) → Runs (.taskDispatch n) s u.schedule))) ∧
  (∀ (n : BitVec 7) (s : State), tillerOk n = true →
    (s.serviced n.toNat = none → Answers (.yieldPoint n) s fun t => Frame s t [] []) ∧
    ∀ k : Task, s.serviced n.toNat = some k → ∀ v : Task, (s.drain k).task? k.id = some v → v.state = .running →
      let u := s.drain k
      (v.asked = true → Runs (.yieldPoint n) s ((u.park v .ready 0).schedule)) ∧
      (v.asked = false → v.todo = [] → Runs (.yieldPoint n) s u.schedule) ∧
      (v.asked = false → v.todo ≠ [] →
        (∀ c : Nat, u.wantsCredit v = some c → Runs (.yieldPoint n) s ((u.parkCredit v c).schedule)) ∧
        (u.wantsCredit v = none → Runs (.yieldPoint n) s
          (((u.park v .waitCredit 1).mapEng (fun e => { e with quotaWaits := e.quotaWaits ++ [v.id] })).schedule)))) ∧
  (∀ (n : BitVec 7) (s : State), tillerOk n = true → ∀ k : Task, s.serviced n.toNat = some k →
    ((k.done = false ∨ k.todo ≠ [] ∨ k.fills ≠ []) → Answers (.taskEnd n) s fun t => Frame s t [] []) ∧
    (k.done = true → k.todo = [] → k.fills = [] →
      let a := ((s.traceTask Ev.finish k (k.pushed.foldl (· + ·) 0)).leaveTiller k).removeTask k
      let b := k.gifts.foldl (fun u g => u.releaseBuffer g.1 g.2) a
      (∀ x ∈ a.eng.tasks, x.id ≠ k.id) ∧
      ∀ p : Plan, b.plan? k.plan = some p →
        let c := b.setPlan k.plan { p with tasksDone := min (2 ^ 48 - 1) (p.tasksDone + 1) }
        let d := if k.tkind = 1 then c.issueScan k.plan k.op else c
        Runs (.taskEnd n) s ((d.settleOps k.plan).settleQuota.schedule))) ∧
  (∀ (slot : BitVec 13) (s : State) (k : Task), s.eng.tasks.find? (fun t => t.slot == some slot.toNat) = some k →
    let ms := s.get F.SCH_CTL_STARVE_MS
    let u : Task := { k with promoted := true }
    (s.dispatching = true → k.state = .ready → k.promoted = false → 2 ≤ k.cls → ms ≠ 0 →
      k.readyAt + ms * 1000000 < s.now →
      u.effective = k.cls - 1 ∧ Runs (.starvationPromotion slot) s
        (((s.setTask u).bump C.schPromote).traceTask Ev.promote u u.effective).schedule) ∧
    ((s.dispatching = false ∨ k.state ≠ .ready ∨ k.promoted = true ∨ k.cls < 2 ∨ ms = 0 ∨
        s.now ≤ k.readyAt + ms * 1000000) →
      Answers (.starvationPromotion slot) s fun t => Frame s t [] [])) ∧
  (∀ (v : Word) (p : Plan) (s : State), s.mainUp = true → s.plan? (bitsOf v.toNat 31 24) = some p →
    let start := bitsOf v.toNat 15 0
    let err : Nat → Option Nat := fun f => (p.locate f).bind (fun x =>
      if ((p.run x.1).flow x.2).held then some ((p.run x.1).flow x.2).err else none)
    let shown : State → Prop := fun t => t.get F.SCH_HELD_FLOW_BUSY = 0 ∧
      t.get F.SCH_HELD_FIND_PLAN = bitsOf v.toNat 31 24 ∧ t.get F.SCH_HELD_FIND_FROM = start ∧
      Frame s t [] [F.SCH_HELD_FIND_PLAN, F.SCH_HELD_FIND_FROM, F.SCH_HELD_FLOW_BUSY, F.SCH_HELD_FLOW_FOUND,
        F.SCH_HELD_FLOW_FLOW, F.SCH_HELD_ERR_ERR]
    (∀ i e : Nat, i < p.flowCount → start ≤ p.flowBase + i → err (p.flowBase + i) = some e →
      (∀ j : Nat, j < i → start ≤ p.flowBase + j → err (p.flowBase + j) = none) →
      Answers (.heldFlowSearch v) s fun t => t.get F.SCH_HELD_FLOW_FOUND = 1 ∧
        t.get F.SCH_HELD_FLOW_FLOW = (p.flowBase + i) % 2 ^ F.SCH_HELD_FLOW_FLOW.width ∧
        t.get F.SCH_HELD_ERR_ERR = e % 2 ^ F.SCH_HELD_ERR_ERR.width ∧ shown t) ∧
    ((∀ i : Nat, i < p.flowCount → start ≤ p.flowBase + i → err (p.flowBase + i) = none) →
      Answers (.heldFlowSearch v) s fun t => t.get F.SCH_HELD_FLOW_FOUND = 0 ∧ shown t)) ∧
  (∀ (v : Word) (s : State), s.mainUp = true → Answers (.traceEnable v) s fun t =>
    t.get F.SCH_TRACE_CTL_EVENTS = bitsOf v.toNat 23 8 ∧ t.get F.SCH_TRACE_CTL_EN = bitsOf v.toNat 7 7 ∧
    t.get F.SCH_TRACE_CTL_WRAP = bitsOf v.toNat 6 6 ∧ t.get F.SCH_TRACE_CTL_SIZE_LOG = bitsOf v.toNat 4 0 ∧
    (let rises := bitOf v.toNat 7 && !s.flag F.SCH_TRACE_CTL_EN
     t.get F.SCH_TRACE_PTRS_WR = (if rises then 0 else s.get F.SCH_TRACE_PTRS_WR) ∧
     t.get F.SCH_TRACE_PTRS_RD = (if rises then 0 else s.get F.SCH_TRACE_PTRS_RD)) ∧
    Frame s t [] [F.SCH_TRACE_CTL_EVENTS, F.SCH_TRACE_CTL_EN, F.SCH_TRACE_CTL_WRAP, F.SCH_TRACE_CTL_SIZE_LOG,
      F.SCH_TRACE_PTRS_WR, F.SCH_TRACE_PTRS_RD]) ∧
  ∀ s : State,
    ((s.get F.FT_STATUS_STATE ≠ Ft.running ∨ s.tillersRun = false ∨ ∀ f ∈ s.cal.firings, f.target = 1 → (s.firingCase f).stays = true) →
      Answers .windowCloseAccept s fun t => Frame s t [] []) ∧
    (s.get F.FT_STATUS_STATE = Ft.running → s.tillersRun = true → ∀ f : Firing,
      s.cal.firings.find? (fun f => f.target == 1 && !(s.firingCase f).stays) = some f →
      let c : Calendar := { s.cal with firings := s.cal.firings.filter (fun g => g != f) }
      let u : State := { s with cal := c }
      (∀ slot op : Nat, s.firingCase f = .accept slot op → Runs .windowCloseAccept s (u.acceptFiring slot op)) ∧
      (s.firingCase f = .discard → Answers .windowCloseAccept s fun t => t.cal = c ∧ Frame s t [.cal] []))

/-- R197; R200; R202; R213; R215; R217; R218; R219; R220; R223; R228; R232. On an existing tiller each operator's command steps a task of its own kind and leaves any other alone. A batch
goes row by row through FILTER's and COMPUTE's program, HASH_JOIN's build or probe, SORT, the aggregations,
WINDOW_AGG, TOPK or EXCHANGE; a row that fails stops the task with its code and row, a poisoned buffer with
HW_FAULT; a mark is passed on or dropped; the block end ends the task's input. With no reference the task parks.
What a flow has spilled is read back where its work needs it: the table of a join, the partitions, the runs of a
sort, merged 16 at a time while more are left. MERGE checks each batch against its run and outputs what no run
can precede. A close task and the end-of-stream work output what the flow holds. SORT only reorders its rows,
and TOPK keeps at most K. Completions of: filterBatch, computeBatch, hashJoinBuild, hashJoinProbe, sortRun,
hashAggTask, sortedAggTask, windowAggDataTask, topkTask, exchangeTask, mergeTask, closeTask, endOfStreamWork. -/
def Obligations.BlockTasksTakeTheirInput : Prop :=
  (∀ n : BitVec 7, tillerOk n = true →
    StepsTask (.filterBatch n) n.toNat (isBlock Kind.filter) (TakesInput progRow passMark noLast) ∧
    StepsTask (.computeBatch n) n.toNat (isBlock Kind.compute) (TakesInput progRow passMark noLast) ∧
    StepsTask (.hashJoinBuild n) n.toNat (fun k o => isBlock Kind.hashJoin k o && k.port == 0)
      (fun s k u =>
        ((s.opRec k).unique = true →
          ReadsBack 0 (fun st => st.tagged 0) (fun table => TakesInput (buildRow table) dropMark noLast) s k u) ∧
        ((s.opRec k).unique = false → TakesInput (buildRow []) dropMark noLast s k u)) ∧
    StepsTask (.hashJoinProbe n) n.toNat (fun k o => isBlock Kind.hashJoin k o && k.port == 1)
      (fun s k u =>
        ((s.st k).mode = 2 → ((s.st k).split = true → TakesInput splitRow dropMark noLast s k u) ∧
          ((s.st k).split = false → ∃ then_ : State → State, u = s.splitTable k then_ ∧
            ∀ v, TakesInput splitRow dropMark noLast v k (then_ v))) ∧
        ((s.st k).mode ≠ 2 → (∀ table : List Row, k.scratch = some table → TakesInput (probeRow table) dropMark noLast s k u) ∧
          (k.scratch = none → u = s.withTable k fun v table => v.setTask { k with scratch := some table, data := [] }))) ∧
    StepsTask (.sortRun n) n.toNat (isBlock Kind.sort) (TakesInput sortRow dropMark noLast) ∧
    StepsTask (.hashAggTask n) n.toNat (isBlock Kind.hashAgg) (TakesInput aggRow dropMark noLast) ∧
    StepsTask (.sortedAggTask n) n.toNat (isBlock Kind.sortedAgg) (TakesInput sortedAggRow dropMark noLast) ∧
    StepsTask (.windowAggDataTask n) n.toNat (isBlock Kind.windowAgg)
      (Counting fun s k u =>
        let closes := (s.opRec k).timeData && (s.nextRef k).any (fun r => r.2.kind == .blockEnd)
        (closes = true → LoadsParts (fun rows => TakesInput windowRow dropMark (windowLast rows)) s k u) ∧
        (closes = false → TakesInput windowRow dropMark noLast s k u)) ∧
    StepsTask (.topkTask n) n.toNat (isBlock Kind.topk) (TakesInput topRow topMark noLast)) ∧
  (∀ n : BitVec 7, tillerOk n = true →
    StepsTask (.exchangeTask n) n.toNat (isBlock Kind.exchange) (fun s k u =>
      ((s.opRec k).broadcast = false → TakesInput exchangeRow passMark noLast s k u) ∧
      ((s.opRec k).broadcast = true →
        (s.nextRef k = none → u = s.park k .waitInput 2) ∧
        (∀ (c : Nat) (r : Ref), s.nextRef k = some (c, r) → r.kind ≠ .data → TakesInput exchangeRow passMark noLast s k u) ∧
        ∀ (c : Nat) (r : Ref) (b : Batch), s.nextRef k = some (c, r) → r.kind = .data → r.batch = some b →
          (s.eng.poisoned.contains b.buf = true → u = s.stopHw k 3) ∧
          (s.eng.poisoned.contains b.buf = false → u = (s.consume k c r false).setTask { k with
            todo := k.todo ++ (s.opRec k).dataPorts.map (fun p => OutItem.batch p b.tag b.rows),
            row := k.row + b.rows.length }))) ∧
    StepsTask (.mergeTask n) n.toNat (isBlock Kind.merge) (fun s k u =>
      (s.nextRef k = none → u = s.park k .waitInput 2) ∧
      ∀ (p : Plan) (c : Nat) (r : Ref), s.plan? k.plan = some p → s.nextRef k = some (c, r) →
        let cmp := compareRows (s.schemaIn k k.port) (p.opAt k.op).sortKeys
        let st := (s.flow k.plan k.op k.index).st
        let runs := if st.runs.isEmpty then
            (p.mergeRuns k.op).map (fun x => (⟨x.1, x.2, [], none⟩ : MergeRun)) else st.runs
        (∀ b : Batch, r.kind = .data → r.batch = some b →
          let last := (runs.find? (fun x => x.port == k.port && x.flow == r.flow)).bind (·.last)
          (s.eng.poisoned.contains b.buf = true → u = s.stopHw k 3) ∧
          (s.eng.poisoned.contains b.buf = false →
            (∀ i : Nat, unsorted cmp 0 last b.rows = some i → u = s.stopOp k Err.notSorted k.port (k.row + i)) ∧
            (unsorted cmp 0 last b.rows = none →
              let more := runs.map (fun x => if x.port = k.port ∧ x.flow = r.flow then
                (⟨x.port, x.flow, x.waiting ++ [⟨c, b.buf, b.rows⟩], b.rows.getLast?⟩ : MergeRun) else x)
              let q := ((s.mapFlow k.plan k.op k.index (fun f => { f with st := { f.st with runs := more } })).consume k c r
                true).mergeNow k false
              u = q.1.setTask { k with todo := k.todo ++ q.2, row := k.row + b.rows.length }))) ∧
        (r.kind = .mark → u = s.consume k c r false) ∧
        (r.kind = .blockEnd →
          let q := s.mergeNow k false
          u = (q.1.consume k c r false).setTask (Task.finish { k with todo := k.todo ++ q.2 } (p.opAt k.op))))) ∧
  (∀ n : BitVec 7, tillerOk n = true →
    StepsTask (.closeTask n) n.toNat (fun k o => o.kind == Kind.windowAgg && k.tkind == 2)
      (Counting (LoadsParts fun rows => DoesOwnWork (fun s k w => s.closeAt k k.arg rows w))) ∧
    StepsTask (.endOfStreamWork n) n.toNat (fun k o => k.tkind == 3 && o.kind != Kind.materialize) (fun s k u =>
      let o := s.opRec k
      let earlier := (s.tasksOf k.plan k.op).any (fun v => v.tkind == 3 && decide (v.seq < k.seq))
      (o.kind = Kind.hashJoin → earlier = true → u = s) ∧
      (o.kind = Kind.merge →
        u = (s.mergeNow k true).1.setTask (Task.finish { k with todo := k.todo ++ (s.mergeNow k true).2 } o)) ∧
      (o.kind = Kind.hashJoin → earlier = false →
        ReadsBack 0 (fun st => (st.tagged 1).filter (fun c => c.part == k.part)) (fun table =>
          ReadsBack 1 (fun _ => ((s.st k).tagged 2).filter (fun c => c.part == k.part)) (fun probes =>
            DoesOwnWork (fun v k w => (probes ++ ((v.st k).parts.filter (fun x => x.1 == k.part)).map (·.2)).foldl
              (fun w r => v.probeOne k table w r) w))) s k u) ∧
      (o.kind = Kind.sort →
        let st := s.st k
        let schema := s.schemaIn k 0
        let runs := st.sortRuns
        let few := decide (runs.length + natOfBool (!st.rows.isEmpty) ≤ 16)
        (few = true → ReadsBack 0 (fun _ => runs.flatMap (·.2)) (fun l => DoesOwnWork (fun _ _ w =>
          { w with out := (sortRows schema o.sortKeys (l ++ w.st.rows)).map (OutItem.row 0 0 0),
                   st := { w.st with rows := [], chunks := [] } })) s k u) ∧
        (few = false →
          ((runs.drop st.klog).take 16 = [] → u = s.mapSt k (fun st => { st with mode := st.mode + 1, klog := 0 })) ∧
          ∀ (r : Nat × List Chunk) (rs : List (Nat × List Chunk)), (runs.drop st.klog).take 16 = r :: rs →
            (rs = [] → u = s.mapSt k (fun st => { st with klog := st.klog + 1 })) ∧
            (rs ≠ [] →
              let old := r.2 ++ rs.flatMap (·.2)
              ReadsBack 0 (fun _ => old) (fun l v k u => u = v.spillRows k [(0, r.1, schema, sortRows schema o.sortKeys l)]
                (fun cs st => { st with klog := st.klog + 1, chunks := st.chunks.filter (fun c => !old.contains c) ++ cs })
                (fun v => v.setTask { k with data := [] })) s k u))) ∧
      (o.kind ≠ Kind.merge → o.kind ≠ Kind.hashJoin → o.kind ≠ Kind.sort →
        Counting (LoadsParts fun rows => DoesOwnWork (drainWork rows)) s k u))) ∧
  (∀ (schema : List (Nat × Nat)) (ks : List SortKey) (rows : List Row), (sortRows schema ks rows).Perm rows) ∧
  ∀ (schema : List (Nat × Nat)) (ks : List SortKey) (k : Nat) (r : Row) (l : List Row),
    (topInsert schema ks k r l).length ≤ k ∧ ∀ x ∈ topInsert schema ks k r l, x = r ∨ x ∈ l

/-- R207; R209; R210; R234; R235; R237. A stripe task reads the head of its table; at or past its STRIPES the task has no rows; below, it has the rows
of its stripe, in order and with their row numbers, each column decoded once and kept while the task waits, or
ends as a read or check of the stripe ends; then the operator issues its next tasks. A poll that is due takes
STRIPES of a valid host head as the new end, and of no other head. MATERIALIZE goes on with the stripe it is
writing, begins the one that is due, flushes at end of stream, or takes rows into the open range as far as it
has room. Completions of: scanStripeTask, scanFollowPoll, materializeStripeWrite. -/
def Obligations.TablesAreScannedAndWritten : Prop :=
  (∀ n : BitVec 7, tillerOk n = true →
    StepsTask (.scanStripeTask n) n.toNat (fun k o => o.kind == Kind.scan && k.tkind == 1) (fun s k u =>
      ∀ (p : Plan) (d : TableDecl), s.plan? k.plan = some p → p.image.tables[(p.opAt k.op).table]? = some d →
        let o := p.opAt k.op
        (∀ cur : ScanCursor, k.scan = some cur → u = s.scanCols k o d cur ((o.scanFetch d).drop cur.cols.length)) ∧
        (k.scan = none →
          (∀ (w : State) (e : StepEnd), s.scanHead k d = (w, .error e) → u = w.endStep k e) ∧
          ∀ (w : State) (n : Nat), s.scanHead k d = (w, .ok n) →
            let v := if (p.run k.op).stop = none then w.mapRun k.plan k.op (fun r => { r with stop := some n }) else w
            (n ≤ k.arg → u = v.scanDone k []) ∧
            (k.arg < n →
              (∀ (x : State) (e : StepEnd), v.scanFind k o d = (x, .error e) → u = x.endStep k e) ∧
              (∀ x : State, v.scanFind k o d = (x, .ok none) → u = x.scanDone k []) ∧
              ∀ (x : State) (cur : ScanCursor), v.scanFind k o d = (x, .ok (some cur)) →
                u = x.scanCols { k with data := [] } o d cur (o.scanFetch d))))) ∧
  (∀ (s : State) (k : Task) (o : OpRec) (d : TableDecl) (cur : ScanCursor) (c : Nat) (cs : List Nat),
    let x := stripeRec cur.record d.types.length
    let b := s.scanBlock { k with scan := some cur } d cur.at_ x c
    (∀ (w : State) (vs : List Value), b = (w, .ok vs) → s.scanCols k o d cur (c :: cs) =
      w.scanCols { k with data := [] } o d { cur with cols := cur.cols ++ [vs], value := 0 } cs) ∧
    ∀ (w : State) (q : PageWait), b = (w, .error (.park q)) →
      let v : Task := { k with scan := some { cur with value := w.faultValue k d cur.at_ x c } }
      s.scanCols k o d cur (c :: cs) = (w.setTask v).park { v with waits := [q] } .waitPage 3) ∧
  (∀ (o : OpRec) (d : TableDecl) (x : StripeRec) (cols : List (List Value)),
    (o.scanRowTs = false → (scanOut o d x cols).map (·.1) = (List.range x.rows).map (x.first + ·)) ∧
    ∀ r ∈ scanOut o d x cols, x.first ≤ r.1 ∧ r.1 < x.first + x.rows ∧ r.2.length = min o.scanCols.length cols.length) ∧
  (∀ (slot : BitVec 8) (op : BitVec 10) (p : Plan) (d : TableDecl) (b : List Byte) (s : State), s.plan? slot.toNat = some p →
    let o := p.opAt op.toNat
    let r := p.run op.toNat
    let due := s.tillersRun && p.state == .running && o.kind == Kind.scan && o.scanFollow &&
      decide (r.polled + 1000 * o.pollUs ≤ s.now)
    let u := s.mapRun slot.toNat op.toNat (fun r => { r with polled := s.now })
    (due = false → Answers (.scanFollowPoll slot op (.bytes b)) s fun t => Frame s t [] []) ∧
    (due = true → p.image.tables[o.table]? = some d → d.loc = 2 →
      (headFail d b = none → Runs (.scanFollowPoll slot op (.bytes b)) s
        (((u.mapRun slot.toNat op.toNat (fun r => { r with stop := some (max (leField b 8 8) (r.stop.getD 0)) })).issueScan
          slot.toNat op.toNat).schedule)) ∧
      (headFail d b ≠ none → Runs (.scanFollowPoll slot op (.bytes b)) s u) ∧
      ∀ (c : BitVec 16) (e : Byte), Runs (.scanFollowPoll slot op (.stopped c e)) s u)) ∧
  (∀ n : BitVec 7, tillerOk n = true →
    StepsTask (.materializeStripeWrite n) n.toNat (fun _ o => o.kind == Kind.materialize) (fun s k u =>
      let st := (s.flow k.plan k.op 0).st
      let o := s.opRec k
      (∀ j : WriteJob, st.job = some j → u = s.goOnStripe k j) ∧
      (st.job = none →
        (∀ port : Nat, s.stripeDue k o = some port → u = s.beginStripe k port) ∧
        (s.stripeDue k o = none →
          (k.tkind = 3 → st.ranges.getD k.port [] = [] → u = s.setTask { k with done := true }) ∧
          (k.tkind = 3 → st.ranges.getD k.port [] ≠ [] → u = s.setTask { k with part := 2 ^ k.port }) ∧
          let g : Task := { k with part := 0 }
          (k.tkind ≠ 3 → s.nextRef g = none → u = s.park g .waitInput 2) ∧
          ∀ (p : Plan) (c : Nat) (r : Ref) (b : Batch), k.tkind ≠ 3 → s.plan? k.plan = some p →
            s.nextRef g = some (c, r) → r.kind = .data → r.batch = some b →
            (s.eng.poisoned.contains b.buf = true → u = s.stopHw g 3) ∧
            (s.eng.poisoned.contains b.buf = false →
              ∃ with_ : State → List Row → State,
                u = orEnd (s.readStrings g ((p.opAt k.op).stringCols (s.schemaIn g k.port) k.port) (k.row + k.inBatch)
                  (b.rows.drop k.inBatch)) g with_ ∧
                ∀ (x : State) (rows : List Row),
                  let q := takeRows (x.flow k.plan k.op 0).st k.port (p.opAt k.op).blockRows rows
                  let v := x.mapFlow k.plan k.op 0 (fun f => { f with st := q.1 })
                  (k.inBatch + q.2 < b.rows.length → with_ x rows = v.setTask { g with inBatch := k.inBatch + q.2, data := [] }) ∧
                  (b.rows.length ≤ k.inBatch + q.2 → with_ x rows = (v.consume g c r false).setTask
                    { g with inBatch := 0, row := k.row + b.rows.length, data := [] })))))) ∧
  ∀ (st : FlowState) (port room : Nat) (rows : List Row), port < st.ranges.length →
    (st.ranges.getD port []).length ≤ room →
    let q := takeRows st port room rows
    q.1.ranges.getD port [] = st.ranges.getD port [] ++ rows.take q.2 ∧ (q.1.ranges.getD port []).length ≤ room ∧
    q.2 ≤ rows.length

/-- R481; R484; R486; R489; R525. While the core answers: SET_ENDPOINT_ID with an ID of 8 to 254 assigns it, any other value changes nothing; the
other control messages change nothing and are answered with the ID, the UUID, version 1.3 of the base protocol
and of control messages, the two message types, and the PCI vendor ID at selector 0. Nothing is sent while the
core does not answer. A read of the alert response address is answered only while ALERT_N is driven low, and
clears every alert where this part wins. An SMBus timeout aborts the transaction. Byte layouts are those of
DSP0236 (log entry 7); the vendor type's version and command set are free. Completions of: setEndpointId,
getEndpointId, getEndpointUuid, getMctpVersionSupport, getMessageTypeSupport, getVendorDefinedMessageSupport,
alertResponseAddressRead, smbusTimeout. -/
def Obligations.MctpControlIsAnswered : Prop :=
  (∀ s : State, s.answering = true →
    let eid : Byte := BitVec.ofNat 8 (s.get F.MGT_STATUS_EID)
    let sends : Instr → Nat → List Byte → Prop := fun c code body => Answers c s fun t =>
      Output.mctp 0 0 (0#8 :: BitVec.ofNat 8 code :: body) ∈ t.out ∧ Frame s t [] []
    (∀ m : MctpControl, m.operation.toNat ≤ 1 → 8 ≤ m.eid.toNat → m.eid.toNat ≤ 254 →
      Answers (.setEndpointId m) s fun t => t.get F.MGT_STATUS_EID = m.eid.toNat ∧
        Output.mctp 0 0 (0#8 :: 1#8 :: [0#8, 0#8, m.eid, 0#8]) ∈ t.out ∧ Frame s t [] [F.MGT_STATUS_EID]) ∧
    (∀ m : MctpControl, (1 < m.operation.toNat ∨ m.eid.toNat < 8 ∨ m.eid.toNat = 255) →
      sends (.setEndpointId m) 0x01 [2#8, 0x10#8, eid, 0#8]) ∧
    sends .getEndpointId 0x02 [0#8, eid, 0#8, 0#8] ∧
    sends .getEndpointUuid 0x03 (0#8 :: beBytes 16 Config.uuid.toNat) ∧
    (∀ y : Byte, (y = 0xFF#8 ∨ y = 0#8) → sends (.getMctpVersionSupport y) 0x04 [0#8, 1#8, 0xF1#8, 0xF3#8, 0xFF#8, 0#8]) ∧
    (∃ v : Nat, sends (.getMctpVersionSupport 0x7E#8) 0x04 ([0#8, 1#8] ++ leBytes 4 v)) ∧
    (∀ y : Byte, y ≠ 0xFF#8 → y ≠ 0#8 → y ≠ 0x7E#8 → sends (.getMctpVersionSupport y) 0x04 [0x80#8]) ∧
    sends .getMessageTypeSupport 0x05 [0#8, 2#8, 0#8, 0x7E#8] ∧
    (∃ v : Nat, sends (.getVendorDefinedMessageSupport 0#8) 0x06
      ([0#8, 0xFF#8, 0#8] ++ beBytes 2 Config.pciVendorId.toNat ++ leBytes 2 v)) ∧
    (∀ y : Byte, y ≠ 0#8 → sends (.getVendorDefinedMessageSupport y) 0x06 [2#8]) ∧
    (Answers .smbusTimeout s fun t => Output.smbusAbort ∈ t.out ∧ Frame s t [] [])) ∧
  (∀ s : State, s.answering = true → s.alertN = true →
    (Answers (.alertResponseAddressRead false) s fun t =>
      Output.alertResponse (s.get F.MGT_STATUS_ADDR) ∈ t.out ∧ Frame s t [] []) ∧
    (s.statusFollows → Answers (.alertResponseAddressRead true) s fun t =>
      Output.alertResponse (s.get F.MGT_STATUS_ADDR) ∈ t.out ∧ t.get F.MGT_ALERT_TEMP = 0 ∧ t.get F.MGT_ALERT_READY = 0 ∧
      t.get F.MGT_ALERT_GRANARY = 0 ∧ t.get F.MGT_ALERT_FAULT = 0 ∧
      Frame s t [] [F.MGT_ALERT_TEMP, F.MGT_ALERT_READY, F.MGT_ALERT_GRANARY, F.MGT_ALERT_FAULT])) ∧
  ∀ s : State, s.answering = false →
    (∀ m : MctpControl, Answers (.setEndpointId m) s fun t => Frame s t [] []) ∧
    ∀ c ∈ [Instr.getEndpointId, .getEndpointUuid, .getMessageTypeSupport, .smbusTimeout, .alertResponseAddressRead true],
      Answers c s fun t => Frame s t [] []

/-- R466; R485; R487; R488; R489; R490; R492; R493; R494; R495; R496; R497. A vendor message to this endpoint is answered with the completion code of its first failing check and no
payload, changing nothing; one that passes is answered with its command's payload: identity, status (clearing
the alerts), faults, history, sensors, ring records. CLEAR_FAULTS clears what has no live bit. SET_TELEMETRY
commits or clears its entry. FORCE_DUMP is a requested dump with source 2, refused unless lazily ready or ready,
before a power failure and not latched, FORCE_RESET a chip reset asked for unless latched. While the core is in
block reset up to four messages wait. A sensor refresh shows the reading, 0x8000 where there is none, or that
the supply is off. A due sample writes one record for each set, or counts what it skips; TEL_IDX fetches a
record; EN rising restarts the sequence. Completions of: getIdentity, getStatus, getFaults, getHistory,
clearFaults, getSensors, getTelemetry, setTelemetry, forceDump, forceReset, undefinedVendorCommand,
sensorRefresh, telemetrySample, telIdxFetch, telemetryEnable. -/
def Obligations.VendorMessagesAndTelemetry : Prop :=
  (∀ (c : VendorMsg → Instr) (n : Nat), (c, n) ∈ [(Instr.getIdentity, 1), (.getStatus, 2), (.getFaults, 3), (.getHistory, 4),
      (.clearFaults, 5), (.getSensors, 6), (.getTelemetry, 7), (.setTelemetry, 8), (.forceDump, 9), (.forceReset, 10)] →
    ∀ (m : VendorMsg) (s : State), s.pwr.aux = true → m.command.toNat = n →
      (m.dest = 0#8 ∨ m.dest.toNat = s.get F.MGT_STATUS_EID) →
      let len := [0, 0, 0, 2, 40, 2, 8, 24, 0, 0].getD (n - 1) 0
      let reply : Nat → List Byte → Output := fun cc p => Output.mctp m.source.toNat m.tag.toNat
        (0x7E#8 :: beBytes 2 Config.pciVendorId.toNat ++ [1#8, m.command ||| 0x80#8, BitVec.ofNat 8 cc, 0#8] ++
          leBytes 2 p.length ++ p)
      let head := m.version = 1#8 ∧ m.rsvd = 0#8 ∧ m.cc = 0#8
      (s.hub.mgmtReset = true → s.mgt.queue.length < 4 → Answers (c m) s fun t =>
        t.mgt = { s.mgt with queue := s.mgt.queue ++ [m] } ∧ Frame s t [.mgt] []) ∧
      (s.hub.mgmtReset = true → 4 ≤ s.mgt.queue.length → Answers (c m) s fun t =>
        Output.smbusNack ∈ t.out ∧ Frame s t [] []) ∧
      (s.hub.mgmtReset = false →
        (¬ head → Answers (c m) s fun t => reply 2 [] ∈ t.out ∧ Frame s t [] []) ∧
        (head → m.payload.length < len → Answers (c m) s fun t => reply 3 [] ∈ t.out ∧ Frame s t [] []) ∧
        (head → m.payload.length = len → m.len.toNat = len →
          (n = 1 → Answers (c m) s fun t =>
            reply 0 (if s.mgt.identity.isEmpty then List.replicate 128 0#8 else s.mgt.identity) ∈ t.out ∧ Frame s t [] []) ∧
          (n = 2 → Answers (c m) s fun t =>
            reply 0 (leBytes 4 s.reportedReady ++ leBytes 4 s.statusFlags ++ leBytes 8 s.reportedGrn ++ leBytes 4 s.persistWord ++
              leBytes 4 s.causeWord ++ leBytes 4 s.alerts ++ List.replicate 4 0#8) ∈ t.out ∧
            (s.statusFollows → t.alerts = 0) ∧
            Frame s t [] [F.MGT_ALERT_TEMP, F.MGT_ALERT_READY, F.MGT_ALERT_GRANARY, F.MGT_ALERT_FAULT]) ∧
          (n = 3 → s.pwr.hold = true → Answers (c m) s fun t =>
            reply 0 ((List.range 4).flatMap (fun k => leBytes 8 (s.getN F.FLT_STICKY_STICKY k)) ++
              (List.range 4).flatMap (fun k => leBytes 8 (s.getN F.FLT_LIVE_LIVE k)) ++ s.firstWords.flatMap (leBytes 8)) ∈
              t.out ∧ Frame s t [] []) ∧
          (n ∈ [4, 5, 9, 10] → s.pwr.hold = false →
            (n = 4 → msgArg m 0 1 < 64 ∧ 1 ≤ msgArg m 1 1 ∧ msgArg m 1 1 ≤ 16) →
            (n = 5 → msgArg m 32 1 < 2 ∧ msgArg m 33 7 = 0) →
            Answers (c m) s fun t => reply 4 [] ∈ t.out ∧ Frame s t [] []) ∧
          (n = 4 → s.pwr.hold = true → msgArg m 0 1 < 64 → 1 ≤ msgArg m 1 1 → msgArg m 1 1 ≤ 16 → Answers (c m) s fun t =>
            reply 0 ((List.range (msgArg m 1 1)).flatMap (fun i => s.historyBytes ((msgArg m 0 1 + i) % 64))) ∈ t.out ∧
            Frame s t [] []) ∧
          (n = 5 → s.pwr.hold = true → msgArg m 32 1 < 2 → msgArg m 33 7 = 0 → Answers (c m) s fun t =>
            reply 0 [] ∈ t.out ∧ (msgArg m 32 1 = 1 → t.get F.FLT_FIRST3_VALID = 0) ∧
            (∀ k : Nat, k < 256 → t.sticky k = (s.sticky k && (s.live k || !bitOf (msgArg m (8 * (k / 64)) 8) (k % 64)))) ∧
            Frame s t [] [F.FLT_STICKY_STICKY, F.FLT_FIRST3_VALID]) ∧
          (n = 6 → msgArg m 0 1 < 64 → 1 ≤ msgArg m 1 1 → msgArg m 0 1 + msgArg m 1 1 ≤ 64 → Answers (c m) s fun t =>
            reply 0 ((List.range (msgArg m 1 1)).flatMap (fun i => leBytes 2 (s.getN F.SNS_VALUE (msgArg m 0 1 + i)) ++
              leBytes 1 (s.getN F.SNS_STATUS (msgArg m 0 1 + i)) ++ [0#8])) ∈ t.out ∧ Frame s t [] []) ∧
          (n = 7 → 1 ≤ msgArg m 4 1 → msgArg m 4 1 ≤ 7 → msgArg m 5 3 = 0 →
            let ready := s.pwr.main && s.flag F.RDY_STATUS_DRAM
            Answers (c m) s fun t => (if ready then reply 0 ((List.range (msgArg m 4 1)).flatMap (fun i =>
              s.telRecord ((msgArg m 0 4 + i) % 2 ^ 32))) else reply 4 []) ∈ t.out ∧ Frame s t [] []) ∧
          (n = 8 → s.pwr.main = true → 992 ≤ msgArg m 0 2 → msgArg m 0 2 ≤ 1023 → msgArg m 3 1 < 2 → msgArg m 4 4 = 0 →
            let i := msgArg m 0 2
            let e := telImage (msgArg m 8 8) (msgArg m 16 8) (msgArg m 2 1) (msgArg m 3 1 == 1)
            let u := s.commitImage (.management e) i e
            let r := u.get F.CAL_CMD_RESULT
            Runs (c m) s ((if r = 0 then u.keepEntry i e else u).emit (reply 0 [BitVec.ofNat 8 r, 0#8, 0#8, 0#8]))) ∧
          (n = 9 → s.pwr.hold = true → Answers (c m) s fun t =>
            let may := s.grnServes && !s.pwr.failed && !s.latched
            (∃ w : Nat, reply (if may then 0 else 5) (leBytes 8 w) ∈ t.out) ∧
            (may = true → t.grnState = Grn.dumping ∧ t.get F.GRN_STATE_CAUSE = 2 ∧ t.get F.GRN_STATE_REQ_SRC = 2) ∧
            (may = false → t.get F.GRN_STATE_REFUSED = 1 ∧ t.grnState = s.grnState)) ∧
          (n = 10 → s.pwr.hold = true → Answers (c m) s fun t =>
            (s.latched = true → reply 5 (leBytes 4 s.persistWord) ∈ t.out ∧ Frame s t [] []) ∧
            (s.latched = false → reply (if s.grnState = Grn.dumping then 6 else 0) (leBytes 4 (s.get F.RST_CAUSE_COUNT)) ∈ t.out ∧
              (s.grnState ≠ Grn.dumping → s.pwr.request = none → t.pwr.request = some ⟨2, 0, false, true⟩) ∧
              Frame s t [.pwr] []))))) ∧
  (∀ (m : VendorMsg) (s : State), s.pwr.aux = true → s.hub.mgmtReset = false →
    (m.command = 0#8 ∨ 10 < m.command.toNat) → (m.dest = 0#8 ∨ m.dest.toNat = s.get F.MGT_STATUS_EID) →
    Answers (.undefinedVendorCommand m) s fun t => Output.mctp m.source.toNat m.tag.toNat
      (0x7E#8 :: beBytes 2 Config.pciVendorId.toNat ++ [1#8, m.command ||| 0x80#8, 1#8, 0#8, 0#8, 0#8]) ∈ t.out ∧
      Frame s t [] []) ∧
  (∀ (k : BitVec 6) (v : Option (BitVec 16)) (s : State), s.answering = true →
    (sensorDomain k.toNat = none → Answers (.sensorRefresh k v) s fun t =>
      t.getN F.SNS_STATUS k.toNat = 2 ∧ t.getN F.SNS_VALUE k.toNat = 0x8000 ∧ Frame s t [] [F.SNS_STATUS, F.SNS_VALUE]) ∧
    ∀ d : Domain, sensorDomain k.toNat = some d →
      (s.domainUp d = false → Answers (.sensorRefresh k v) s fun t =>
        t.getN F.SNS_STATUS k.toNat = (if s.getN F.SNS_STATUS k.toNat = 2 then 2 else 1) ∧
        t.getN F.SNS_VALUE k.toNat = s.getN F.SNS_VALUE k.toNat ∧ Frame s t [] [F.SNS_STATUS]) ∧
      (s.domainUp d = true → Answers (.sensorRefresh k v) s fun t =>
        (∀ x : Nat, s.sensorValue k.toNat v = some x → t.getN F.SNS_STATUS k.toNat = 0 ∧
          t.getN F.SNS_VALUE k.toNat = x % 2 ^ 16) ∧
        (s.sensorValue k.toNat v = none → t.getN F.SNS_STATUS k.toNat = 2 ∧ t.getN F.SNS_VALUE k.toNat = 0x8000) ∧
        Frame s t (.mgt :: raiseParts) ([F.SNS_STATUS, F.SNS_VALUE, F.MGT_ALERT_TEMP] ++ raiseFields))) ∧
  (∀ s : State, s.takeSlot 8 = none → Answers .telemetrySample s fun t => Frame s t [] []) ∧
  (∀ s : State, ∀ (f : Firing) (u : State), s.takeSlot 8 = some (f, u) →
    let sets := (List.range 4).filter (bitOf f.arg)
    ((u.flag F.TEL_CTL_EN && u.flag F.RDY_STATUS_DRAM) = true →
      Runs .telemetrySample s (sets.foldl (fun t k => t.writeTel f k) u)) ∧
    ((u.flag F.TEL_CTL_EN && u.flag F.RDY_STATUS_DRAM) = false →
      Runs .telemetrySample s (u.bumpTimes C.telSkip sets.length))) ∧
  (∀ (v : Word) (s : State), s.mainUp = true → Answers (.telIdxFetch v) s fun t =>
    t.get F.TEL_IDX_SEQ = v.toNat ∧
    (∀ i : Nat, i < 16 → t.getN F.TEL_REC_DATA i = leField ((s.set F.TEL_IDX_SEQ v.toNat).telRecord v.toNat) (8 * i) 8) ∧
    Frame s t [] [F.TEL_IDX_SEQ, F.TEL_REC_DATA]) ∧
  ∀ (v : Word) (s : State), s.mainUp = true → Answers (.telemetryEnable v) s fun t =>
    t.get F.TEL_CTL_EN = bitsOf v.toNat 5 5 ∧ t.get F.TEL_CTL_SIZE_LOG = bitsOf v.toNat 4 0 ∧
    t.mgt = (if bitsOf v.toNat 5 5 = 1 ∧ s.get F.TEL_CTL_EN = 0 then { s.mgt with telSeq := 0 } else s.mgt) ∧
    Frame s t [.mgt] [F.TEL_CTL_EN, F.TEL_CTL_SIZE_LOG]
end

