-- ==== Sys2Proof/Laws/State.lean ====
section
/-!
SUPPORT. What each update of the state leaves alone: one lemma per field per update, true by computation.
-/

namespace Sys2Proof.Machine

/-! `State.setN` -/

@[simp] theorem State.setN_pending (s : State) (f : Field) (n v : Nat) : (s.setN f n v).pending = s.pending := by cases s; rfl
@[simp] theorem State.setN_now (s : State) (f : Field) (n v : Nat) : (s.setN f n v).now = s.now := by cases s; rfl
@[simp] theorem State.setN_freeCtr (s : State) (f : Field) (n v : Nat) : (s.setN f n v).freeCtr = s.freeCtr := by cases s; rfl
@[simp] theorem State.setN_out (s : State) (f : Field) (n v : Nat) : (s.setN f n v).out = s.out := by cases s; rfl
@[simp] theorem State.setN_pwr (s : State) (f : Field) (n v : Nat) : (s.setN f n v).pwr = s.pwr := by cases s; rfl
@[simp] theorem State.setN_ft (s : State) (f : Field) (n v : Nat) : (s.setN f n v).ft = s.ft := by cases s; rfl
@[simp] theorem State.setN_cal (s : State) (f : Field) (n v : Nat) : (s.setN f n v).cal = s.cal := by cases s; rfl
@[simp] theorem State.setN_link (s : State) (f : Field) (n v : Nat) : (s.setN f n v).link = s.link := by cases s; rfl
@[simp] theorem State.setN_hub (s : State) (f : Field) (n v : Nat) : (s.setN f n v).hub = s.hub := by cases s; rfl
@[simp] theorem State.setN_mgt (s : State) (f : Field) (n v : Nat) : (s.setN f n v).mgt = s.mgt := by cases s; rfl
@[simp] theorem State.setN_mbx (s : State) (f : Field) (n v : Nat) : (s.setN f n v).mbx = s.mbx := by cases s; rfl
@[simp] theorem State.setN_grn (s : State) (f : Field) (n v : Nat) : (s.setN f n v).grn = s.grn := by cases s; rfl
@[simp] theorem State.setN_dram (s : State) (f : Field) (n v : Nat) : (s.setN f n v).dram = s.dram := by cases s; rfl
@[simp] theorem State.setN_flash (s : State) (f : Field) (n v : Nat) : (s.setN f n v).flash = s.flash := by cases s; rfl
@[simp] theorem State.setN_dge (s : State) (f : Field) (n v : Nat) : (s.setN f n v).dge = s.dge := by cases s; rfl
@[simp] theorem State.setN_eng (s : State) (f : Field) (n v : Nat) : (s.setN f n v).eng = s.eng := by cases s; rfl

/-! `State.set` -/

@[simp] theorem State.set_pending (s : State) (f : Field) (v : Nat) : (s.set f v).pending = s.pending := by cases s; rfl
@[simp] theorem State.set_now (s : State) (f : Field) (v : Nat) : (s.set f v).now = s.now := by cases s; rfl
@[simp] theorem State.set_freeCtr (s : State) (f : Field) (v : Nat) : (s.set f v).freeCtr = s.freeCtr := by cases s; rfl
@[simp] theorem State.set_out (s : State) (f : Field) (v : Nat) : (s.set f v).out = s.out := by cases s; rfl
@[simp] theorem State.set_pwr (s : State) (f : Field) (v : Nat) : (s.set f v).pwr = s.pwr := by cases s; rfl
@[simp] theorem State.set_ft (s : State) (f : Field) (v : Nat) : (s.set f v).ft = s.ft := by cases s; rfl
@[simp] theorem State.set_cal (s : State) (f : Field) (v : Nat) : (s.set f v).cal = s.cal := by cases s; rfl
@[simp] theorem State.set_link (s : State) (f : Field) (v : Nat) : (s.set f v).link = s.link := by cases s; rfl
@[simp] theorem State.set_hub (s : State) (f : Field) (v : Nat) : (s.set f v).hub = s.hub := by cases s; rfl
@[simp] theorem State.set_mgt (s : State) (f : Field) (v : Nat) : (s.set f v).mgt = s.mgt := by cases s; rfl
@[simp] theorem State.set_mbx (s : State) (f : Field) (v : Nat) : (s.set f v).mbx = s.mbx := by cases s; rfl
@[simp] theorem State.set_grn (s : State) (f : Field) (v : Nat) : (s.set f v).grn = s.grn := by cases s; rfl
@[simp] theorem State.set_dram (s : State) (f : Field) (v : Nat) : (s.set f v).dram = s.dram := by cases s; rfl
@[simp] theorem State.set_flash (s : State) (f : Field) (v : Nat) : (s.set f v).flash = s.flash := by cases s; rfl
@[simp] theorem State.set_dge (s : State) (f : Field) (v : Nat) : (s.set f v).dge = s.dge := by cases s; rfl
@[simp] theorem State.set_eng (s : State) (f : Field) (v : Nat) : (s.set f v).eng = s.eng := by cases s; rfl

/-! `State.setFlag` -/

@[simp] theorem State.setFlag_pending (s : State) (f : Field) (b : Bool) : (s.setFlag f b).pending = s.pending := by cases s; rfl
@[simp] theorem State.setFlag_now (s : State) (f : Field) (b : Bool) : (s.setFlag f b).now = s.now := by cases s; rfl
@[simp] theorem State.setFlag_freeCtr (s : State) (f : Field) (b : Bool) : (s.setFlag f b).freeCtr = s.freeCtr := by cases s; rfl
@[simp] theorem State.setFlag_out (s : State) (f : Field) (b : Bool) : (s.setFlag f b).out = s.out := by cases s; rfl
@[simp] theorem State.setFlag_pwr (s : State) (f : Field) (b : Bool) : (s.setFlag f b).pwr = s.pwr := by cases s; rfl
@[simp] theorem State.setFlag_ft (s : State) (f : Field) (b : Bool) : (s.setFlag f b).ft = s.ft := by cases s; rfl
@[simp] theorem State.setFlag_cal (s : State) (f : Field) (b : Bool) : (s.setFlag f b).cal = s.cal := by cases s; rfl
@[simp] theorem State.setFlag_link (s : State) (f : Field) (b : Bool) : (s.setFlag f b).link = s.link := by cases s; rfl
@[simp] theorem State.setFlag_hub (s : State) (f : Field) (b : Bool) : (s.setFlag f b).hub = s.hub := by cases s; rfl
@[simp] theorem State.setFlag_mgt (s : State) (f : Field) (b : Bool) : (s.setFlag f b).mgt = s.mgt := by cases s; rfl
@[simp] theorem State.setFlag_mbx (s : State) (f : Field) (b : Bool) : (s.setFlag f b).mbx = s.mbx := by cases s; rfl
@[simp] theorem State.setFlag_grn (s : State) (f : Field) (b : Bool) : (s.setFlag f b).grn = s.grn := by cases s; rfl
@[simp] theorem State.setFlag_dram (s : State) (f : Field) (b : Bool) : (s.setFlag f b).dram = s.dram := by cases s; rfl
@[simp] theorem State.setFlag_flash (s : State) (f : Field) (b : Bool) : (s.setFlag f b).flash = s.flash := by cases s; rfl
@[simp] theorem State.setFlag_dge (s : State) (f : Field) (b : Bool) : (s.setFlag f b).dge = s.dge := by cases s; rfl
@[simp] theorem State.setFlag_eng (s : State) (f : Field) (b : Bool) : (s.setFlag f b).eng = s.eng := by cases s; rfl

/-! `State.setBit64` -/

@[simp] theorem State.setBit64_pending (s : State) (f : Field) (n : Nat) (b : Bool) : (s.setBit64 f n b).pending = s.pending := by simp [State.setBit64]
@[simp] theorem State.setBit64_now (s : State) (f : Field) (n : Nat) (b : Bool) : (s.setBit64 f n b).now = s.now := by simp [State.setBit64]
@[simp] theorem State.setBit64_freeCtr (s : State) (f : Field) (n : Nat) (b : Bool) : (s.setBit64 f n b).freeCtr = s.freeCtr := by simp [State.setBit64]
@[simp] theorem State.setBit64_out (s : State) (f : Field) (n : Nat) (b : Bool) : (s.setBit64 f n b).out = s.out := by simp [State.setBit64]
@[simp] theorem State.setBit64_pwr (s : State) (f : Field) (n : Nat) (b : Bool) : (s.setBit64 f n b).pwr = s.pwr := by simp [State.setBit64]
@[simp] theorem State.setBit64_ft (s : State) (f : Field) (n : Nat) (b : Bool) : (s.setBit64 f n b).ft = s.ft := by simp [State.setBit64]
@[simp] theorem State.setBit64_cal (s : State) (f : Field) (n : Nat) (b : Bool) : (s.setBit64 f n b).cal = s.cal := by simp [State.setBit64]
@[simp] theorem State.setBit64_link (s : State) (f : Field) (n : Nat) (b : Bool) : (s.setBit64 f n b).link = s.link := by simp [State.setBit64]
@[simp] theorem State.setBit64_hub (s : State) (f : Field) (n : Nat) (b : Bool) : (s.setBit64 f n b).hub = s.hub := by simp [State.setBit64]
@[simp] theorem State.setBit64_mgt (s : State) (f : Field) (n : Nat) (b : Bool) : (s.setBit64 f n b).mgt = s.mgt := by simp [State.setBit64]
@[simp] theorem State.setBit64_mbx (s : State) (f : Field) (n : Nat) (b : Bool) : (s.setBit64 f n b).mbx = s.mbx := by simp [State.setBit64]
@[simp] theorem State.setBit64_grn (s : State) (f : Field) (n : Nat) (b : Bool) : (s.setBit64 f n b).grn = s.grn := by simp [State.setBit64]
@[simp] theorem State.setBit64_dram (s : State) (f : Field) (n : Nat) (b : Bool) : (s.setBit64 f n b).dram = s.dram := by simp [State.setBit64]
@[simp] theorem State.setBit64_flash (s : State) (f : Field) (n : Nat) (b : Bool) : (s.setBit64 f n b).flash = s.flash := by simp [State.setBit64]
@[simp] theorem State.setBit64_dge (s : State) (f : Field) (n : Nat) (b : Bool) : (s.setBit64 f n b).dge = s.dge := by simp [State.setBit64]
@[simp] theorem State.setBit64_eng (s : State) (f : Field) (n : Nat) (b : Bool) : (s.setBit64 f n b).eng = s.eng := by simp [State.setBit64]

/-! `State.clearLive` -/

@[simp] theorem State.clearLive_pending (s : State) (n : Nat) : (s.clearLive n).pending = s.pending := by simp [State.clearLive]
@[simp] theorem State.clearLive_now (s : State) (n : Nat) : (s.clearLive n).now = s.now := by simp [State.clearLive]
@[simp] theorem State.clearLive_freeCtr (s : State) (n : Nat) : (s.clearLive n).freeCtr = s.freeCtr := by simp [State.clearLive]
@[simp] theorem State.clearLive_out (s : State) (n : Nat) : (s.clearLive n).out = s.out := by simp [State.clearLive]
@[simp] theorem State.clearLive_pwr (s : State) (n : Nat) : (s.clearLive n).pwr = s.pwr := by simp [State.clearLive]
@[simp] theorem State.clearLive_ft (s : State) (n : Nat) : (s.clearLive n).ft = s.ft := by simp [State.clearLive]
@[simp] theorem State.clearLive_cal (s : State) (n : Nat) : (s.clearLive n).cal = s.cal := by simp [State.clearLive]
@[simp] theorem State.clearLive_link (s : State) (n : Nat) : (s.clearLive n).link = s.link := by simp [State.clearLive]
@[simp] theorem State.clearLive_hub (s : State) (n : Nat) : (s.clearLive n).hub = s.hub := by simp [State.clearLive]
@[simp] theorem State.clearLive_mgt (s : State) (n : Nat) : (s.clearLive n).mgt = s.mgt := by simp [State.clearLive]
@[simp] theorem State.clearLive_mbx (s : State) (n : Nat) : (s.clearLive n).mbx = s.mbx := by simp [State.clearLive]
@[simp] theorem State.clearLive_grn (s : State) (n : Nat) : (s.clearLive n).grn = s.grn := by simp [State.clearLive]
@[simp] theorem State.clearLive_dram (s : State) (n : Nat) : (s.clearLive n).dram = s.dram := by simp [State.clearLive]
@[simp] theorem State.clearLive_flash (s : State) (n : Nat) : (s.clearLive n).flash = s.flash := by simp [State.clearLive]
@[simp] theorem State.clearLive_dge (s : State) (n : Nat) : (s.clearLive n).dge = s.dge := by simp [State.clearLive]
@[simp] theorem State.clearLive_eng (s : State) (n : Nat) : (s.clearLive n).eng = s.eng := by simp [State.clearLive]

/-! `State.captureFirst` -/

@[simp] theorem State.captureFirst_pending (s : State) (r : FaultRecord) : (s.captureFirst r).pending = s.pending := by simp [State.captureFirst]
@[simp] theorem State.captureFirst_now (s : State) (r : FaultRecord) : (s.captureFirst r).now = s.now := by simp [State.captureFirst]
@[simp] theorem State.captureFirst_freeCtr (s : State) (r : FaultRecord) : (s.captureFirst r).freeCtr = s.freeCtr := by simp [State.captureFirst]
@[simp] theorem State.captureFirst_out (s : State) (r : FaultRecord) : (s.captureFirst r).out = s.out := by simp [State.captureFirst]
@[simp] theorem State.captureFirst_pwr (s : State) (r : FaultRecord) : (s.captureFirst r).pwr = s.pwr := by simp [State.captureFirst]
@[simp] theorem State.captureFirst_ft (s : State) (r : FaultRecord) : (s.captureFirst r).ft = s.ft := by simp [State.captureFirst]
@[simp] theorem State.captureFirst_cal (s : State) (r : FaultRecord) : (s.captureFirst r).cal = s.cal := by simp [State.captureFirst]
@[simp] theorem State.captureFirst_link (s : State) (r : FaultRecord) : (s.captureFirst r).link = s.link := by simp [State.captureFirst]
@[simp] theorem State.captureFirst_hub (s : State) (r : FaultRecord) : (s.captureFirst r).hub = s.hub := by simp [State.captureFirst]
@[simp] theorem State.captureFirst_mgt (s : State) (r : FaultRecord) : (s.captureFirst r).mgt = s.mgt := by simp [State.captureFirst]
@[simp] theorem State.captureFirst_mbx (s : State) (r : FaultRecord) : (s.captureFirst r).mbx = s.mbx := by simp [State.captureFirst]
@[simp] theorem State.captureFirst_grn (s : State) (r : FaultRecord) : (s.captureFirst r).grn = s.grn := by simp [State.captureFirst]
@[simp] theorem State.captureFirst_dram (s : State) (r : FaultRecord) : (s.captureFirst r).dram = s.dram := by simp [State.captureFirst]
@[simp] theorem State.captureFirst_flash (s : State) (r : FaultRecord) : (s.captureFirst r).flash = s.flash := by simp [State.captureFirst]
@[simp] theorem State.captureFirst_dge (s : State) (r : FaultRecord) : (s.captureFirst r).dge = s.dge := by simp [State.captureFirst]
@[simp] theorem State.captureFirst_eng (s : State) (r : FaultRecord) : (s.captureFirst r).eng = s.eng := by simp [State.captureFirst]

/-! `State.setMask` -/

@[simp] theorem State.setMask_pending (s : State) (n m : Nat) : (s.setMask n m).pending = s.pending := by simp [State.setMask]
@[simp] theorem State.setMask_now (s : State) (n m : Nat) : (s.setMask n m).now = s.now := by simp [State.setMask]
@[simp] theorem State.setMask_freeCtr (s : State) (n m : Nat) : (s.setMask n m).freeCtr = s.freeCtr := by simp [State.setMask]
@[simp] theorem State.setMask_out (s : State) (n m : Nat) : (s.setMask n m).out = s.out := by simp [State.setMask]
@[simp] theorem State.setMask_pwr (s : State) (n m : Nat) : (s.setMask n m).pwr = s.pwr := by simp [State.setMask]
@[simp] theorem State.setMask_ft (s : State) (n m : Nat) : (s.setMask n m).ft = s.ft := by simp [State.setMask]
@[simp] theorem State.setMask_cal (s : State) (n m : Nat) : (s.setMask n m).cal = s.cal := by simp [State.setMask]
@[simp] theorem State.setMask_link (s : State) (n m : Nat) : (s.setMask n m).link = s.link := by simp [State.setMask]
@[simp] theorem State.setMask_hub (s : State) (n m : Nat) : (s.setMask n m).hub = s.hub := by simp [State.setMask]
@[simp] theorem State.setMask_mgt (s : State) (n m : Nat) : (s.setMask n m).mgt = s.mgt := by simp [State.setMask]
@[simp] theorem State.setMask_mbx (s : State) (n m : Nat) : (s.setMask n m).mbx = s.mbx := by simp [State.setMask]
@[simp] theorem State.setMask_grn (s : State) (n m : Nat) : (s.setMask n m).grn = s.grn := by simp [State.setMask]
@[simp] theorem State.setMask_dram (s : State) (n m : Nat) : (s.setMask n m).dram = s.dram := by simp [State.setMask]
@[simp] theorem State.setMask_flash (s : State) (n m : Nat) : (s.setMask n m).flash = s.flash := by simp [State.setMask]
@[simp] theorem State.setMask_dge (s : State) (n m : Nat) : (s.setMask n m).dge = s.dge := by simp [State.setMask]
@[simp] theorem State.setMask_eng (s : State) (n m : Nat) : (s.setMask n m).eng = s.eng := by simp [State.setMask]

/-! `State.advanceLimit` -/

@[simp] theorem State.advanceLimit_pending (s : State) (n : Nat) : (s.advanceLimit n).pending = s.pending := by simp [State.advanceLimit]
@[simp] theorem State.advanceLimit_now (s : State) (n : Nat) : (s.advanceLimit n).now = s.now := by simp [State.advanceLimit]
@[simp] theorem State.advanceLimit_freeCtr (s : State) (n : Nat) : (s.advanceLimit n).freeCtr = s.freeCtr := by simp [State.advanceLimit]
@[simp] theorem State.advanceLimit_out (s : State) (n : Nat) : (s.advanceLimit n).out = s.out := by simp [State.advanceLimit]
@[simp] theorem State.advanceLimit_pwr (s : State) (n : Nat) : (s.advanceLimit n).pwr = s.pwr := by simp [State.advanceLimit]
@[simp] theorem State.advanceLimit_ft (s : State) (n : Nat) : (s.advanceLimit n).ft = s.ft := by simp [State.advanceLimit]
@[simp] theorem State.advanceLimit_cal (s : State) (n : Nat) : (s.advanceLimit n).cal = s.cal := by simp [State.advanceLimit]
@[simp] theorem State.advanceLimit_link (s : State) (n : Nat) : (s.advanceLimit n).link = s.link := by simp [State.advanceLimit]
@[simp] theorem State.advanceLimit_hub (s : State) (n : Nat) : (s.advanceLimit n).hub = s.hub := by simp [State.advanceLimit]
@[simp] theorem State.advanceLimit_mgt (s : State) (n : Nat) : (s.advanceLimit n).mgt = s.mgt := by simp [State.advanceLimit]
@[simp] theorem State.advanceLimit_mbx (s : State) (n : Nat) : (s.advanceLimit n).mbx = s.mbx := by simp [State.advanceLimit]
@[simp] theorem State.advanceLimit_grn (s : State) (n : Nat) : (s.advanceLimit n).grn = s.grn := by simp [State.advanceLimit]
@[simp] theorem State.advanceLimit_dram (s : State) (n : Nat) : (s.advanceLimit n).dram = s.dram := by simp [State.advanceLimit]
@[simp] theorem State.advanceLimit_flash (s : State) (n : Nat) : (s.advanceLimit n).flash = s.flash := by simp [State.advanceLimit]
@[simp] theorem State.advanceLimit_dge (s : State) (n : Nat) : (s.advanceLimit n).dge = s.dge := by simp [State.advanceLimit]
@[simp] theorem State.advanceLimit_eng (s : State) (n : Nat) : (s.advanceLimit n).eng = s.eng := by simp [State.advanceLimit]

/-! `State.dropInflight` -/

@[simp] theorem State.dropInflight_pending (s : State) (n : Nat) : (s.dropInflight n).pending = s.pending := by simp [State.dropInflight]
@[simp] theorem State.dropInflight_now (s : State) (n : Nat) : (s.dropInflight n).now = s.now := by simp [State.dropInflight]
@[simp] theorem State.dropInflight_freeCtr (s : State) (n : Nat) : (s.dropInflight n).freeCtr = s.freeCtr := by simp [State.dropInflight]
@[simp] theorem State.dropInflight_out (s : State) (n : Nat) : (s.dropInflight n).out = s.out := by simp [State.dropInflight]
@[simp] theorem State.dropInflight_pwr (s : State) (n : Nat) : (s.dropInflight n).pwr = s.pwr := by simp [State.dropInflight]
@[simp] theorem State.dropInflight_ft (s : State) (n : Nat) : (s.dropInflight n).ft = s.ft := by simp [State.dropInflight]
@[simp] theorem State.dropInflight_cal (s : State) (n : Nat) : (s.dropInflight n).cal = s.cal := by simp [State.dropInflight]
@[simp] theorem State.dropInflight_link (s : State) (n : Nat) : (s.dropInflight n).link = s.link := by simp [State.dropInflight]
@[simp] theorem State.dropInflight_hub (s : State) (n : Nat) : (s.dropInflight n).hub = s.hub := by simp [State.dropInflight]
@[simp] theorem State.dropInflight_mgt (s : State) (n : Nat) : (s.dropInflight n).mgt = s.mgt := by simp [State.dropInflight]
@[simp] theorem State.dropInflight_mbx (s : State) (n : Nat) : (s.dropInflight n).mbx = s.mbx := by simp [State.dropInflight]
@[simp] theorem State.dropInflight_grn (s : State) (n : Nat) : (s.dropInflight n).grn = s.grn := by simp [State.dropInflight]
@[simp] theorem State.dropInflight_dram (s : State) (n : Nat) : (s.dropInflight n).dram = s.dram := by simp [State.dropInflight]
@[simp] theorem State.dropInflight_flash (s : State) (n : Nat) : (s.dropInflight n).flash = s.flash := by simp [State.dropInflight]
@[simp] theorem State.dropInflight_dge (s : State) (n : Nat) : (s.dropInflight n).dge = s.dge := by simp [State.dropInflight]
@[simp] theorem State.dropInflight_eng (s : State) (n : Nat) : (s.dropInflight n).eng = s.eng := by simp [State.dropInflight]

/-! `State.captureFault` -/

@[simp] theorem State.captureFault_pending (s : State) (code ctx addr : Nat) (g : Bool) : (s.captureFault code ctx addr g).pending = s.pending := by simp [State.captureFault, State.setAll, List.foldl]
@[simp] theorem State.captureFault_now (s : State) (code ctx addr : Nat) (g : Bool) : (s.captureFault code ctx addr g).now = s.now := by simp [State.captureFault, State.setAll, List.foldl]
@[simp] theorem State.captureFault_freeCtr (s : State) (code ctx addr : Nat) (g : Bool) : (s.captureFault code ctx addr g).freeCtr = s.freeCtr := by simp [State.captureFault, State.setAll, List.foldl]
@[simp] theorem State.captureFault_out (s : State) (code ctx addr : Nat) (g : Bool) : (s.captureFault code ctx addr g).out = s.out := by simp [State.captureFault, State.setAll, List.foldl]
@[simp] theorem State.captureFault_pwr (s : State) (code ctx addr : Nat) (g : Bool) : (s.captureFault code ctx addr g).pwr = s.pwr := by simp [State.captureFault, State.setAll, List.foldl]
@[simp] theorem State.captureFault_ft (s : State) (code ctx addr : Nat) (g : Bool) : (s.captureFault code ctx addr g).ft = s.ft := by simp [State.captureFault, State.setAll, List.foldl]
@[simp] theorem State.captureFault_cal (s : State) (code ctx addr : Nat) (g : Bool) : (s.captureFault code ctx addr g).cal = s.cal := by simp [State.captureFault, State.setAll, List.foldl]
@[simp] theorem State.captureFault_link (s : State) (code ctx addr : Nat) (g : Bool) : (s.captureFault code ctx addr g).link = s.link := by simp [State.captureFault, State.setAll, List.foldl]
@[simp] theorem State.captureFault_hub (s : State) (code ctx addr : Nat) (g : Bool) : (s.captureFault code ctx addr g).hub = s.hub := by simp [State.captureFault, State.setAll, List.foldl]
@[simp] theorem State.captureFault_mgt (s : State) (code ctx addr : Nat) (g : Bool) : (s.captureFault code ctx addr g).mgt = s.mgt := by simp [State.captureFault, State.setAll, List.foldl]
@[simp] theorem State.captureFault_mbx (s : State) (code ctx addr : Nat) (g : Bool) : (s.captureFault code ctx addr g).mbx = s.mbx := by simp [State.captureFault, State.setAll, List.foldl]
@[simp] theorem State.captureFault_grn (s : State) (code ctx addr : Nat) (g : Bool) : (s.captureFault code ctx addr g).grn = s.grn := by simp [State.captureFault, State.setAll, List.foldl]
@[simp] theorem State.captureFault_dram (s : State) (code ctx addr : Nat) (g : Bool) : (s.captureFault code ctx addr g).dram = s.dram := by simp [State.captureFault, State.setAll, List.foldl]
@[simp] theorem State.captureFault_flash (s : State) (code ctx addr : Nat) (g : Bool) : (s.captureFault code ctx addr g).flash = s.flash := by simp [State.captureFault, State.setAll, List.foldl]
@[simp] theorem State.captureFault_dge (s : State) (code ctx addr : Nat) (g : Bool) : (s.captureFault code ctx addr g).dge = s.dge := by simp [State.captureFault, State.setAll, List.foldl]
@[simp] theorem State.captureFault_eng (s : State) (code ctx addr : Nat) (g : Bool) : (s.captureFault code ctx addr g).eng = s.eng := by simp [State.captureFault, State.setAll, List.foldl]

/-! `State.setAll` -/

@[simp] theorem State.setAll_pending (s : State) (l : List (Field × Nat)) : (s.setAll l).pending = s.pending := by
  induction l generalizing s with
  | nil => rfl
  | cons p l ih => simpa [State.setAll] using ih (s.set p.1 p.2)
@[simp] theorem State.setAll_now (s : State) (l : List (Field × Nat)) : (s.setAll l).now = s.now := by
  induction l generalizing s with
  | nil => rfl
  | cons p l ih => simpa [State.setAll] using ih (s.set p.1 p.2)
@[simp] theorem State.setAll_freeCtr (s : State) (l : List (Field × Nat)) : (s.setAll l).freeCtr = s.freeCtr := by
  induction l generalizing s with
  | nil => rfl
  | cons p l ih => simpa [State.setAll] using ih (s.set p.1 p.2)
@[simp] theorem State.setAll_out (s : State) (l : List (Field × Nat)) : (s.setAll l).out = s.out := by
  induction l generalizing s with
  | nil => rfl
  | cons p l ih => simpa [State.setAll] using ih (s.set p.1 p.2)
@[simp] theorem State.setAll_pwr (s : State) (l : List (Field × Nat)) : (s.setAll l).pwr = s.pwr := by
  induction l generalizing s with
  | nil => rfl
  | cons p l ih => simpa [State.setAll] using ih (s.set p.1 p.2)
@[simp] theorem State.setAll_ft (s : State) (l : List (Field × Nat)) : (s.setAll l).ft = s.ft := by
  induction l generalizing s with
  | nil => rfl
  | cons p l ih => simpa [State.setAll] using ih (s.set p.1 p.2)
@[simp] theorem State.setAll_cal (s : State) (l : List (Field × Nat)) : (s.setAll l).cal = s.cal := by
  induction l generalizing s with
  | nil => rfl
  | cons p l ih => simpa [State.setAll] using ih (s.set p.1 p.2)
@[simp] theorem State.setAll_link (s : State) (l : List (Field × Nat)) : (s.setAll l).link = s.link := by
  induction l generalizing s with
  | nil => rfl
  | cons p l ih => simpa [State.setAll] using ih (s.set p.1 p.2)
@[simp] theorem State.setAll_hub (s : State) (l : List (Field × Nat)) : (s.setAll l).hub = s.hub := by
  induction l generalizing s with
  | nil => rfl
  | cons p l ih => simpa [State.setAll] using ih (s.set p.1 p.2)
@[simp] theorem State.setAll_mgt (s : State) (l : List (Field × Nat)) : (s.setAll l).mgt = s.mgt := by
  induction l generalizing s with
  | nil => rfl
  | cons p l ih => simpa [State.setAll] using ih (s.set p.1 p.2)
@[simp] theorem State.setAll_mbx (s : State) (l : List (Field × Nat)) : (s.setAll l).mbx = s.mbx := by
  induction l generalizing s with
  | nil => rfl
  | cons p l ih => simpa [State.setAll] using ih (s.set p.1 p.2)
@[simp] theorem State.setAll_grn (s : State) (l : List (Field × Nat)) : (s.setAll l).grn = s.grn := by
  induction l generalizing s with
  | nil => rfl
  | cons p l ih => simpa [State.setAll] using ih (s.set p.1 p.2)
@[simp] theorem State.setAll_dram (s : State) (l : List (Field × Nat)) : (s.setAll l).dram = s.dram := by
  induction l generalizing s with
  | nil => rfl
  | cons p l ih => simpa [State.setAll] using ih (s.set p.1 p.2)
@[simp] theorem State.setAll_flash (s : State) (l : List (Field × Nat)) : (s.setAll l).flash = s.flash := by
  induction l generalizing s with
  | nil => rfl
  | cons p l ih => simpa [State.setAll] using ih (s.set p.1 p.2)
@[simp] theorem State.setAll_dge (s : State) (l : List (Field × Nat)) : (s.setAll l).dge = s.dge := by
  induction l generalizing s with
  | nil => rfl
  | cons p l ih => simpa [State.setAll] using ih (s.set p.1 p.2)
@[simp] theorem State.setAll_eng (s : State) (l : List (Field × Nat)) : (s.setAll l).eng = s.eng := by
  induction l generalizing s with
  | nil => rfl
  | cons p l ih => simpa [State.setAll] using ih (s.set p.1 p.2)

/-! `State.emit` -/

@[simp] theorem State.emit_pending (s : State) (o : Output) : (s.emit o).pending = s.pending := by cases s; rfl
@[simp] theorem State.emit_now (s : State) (o : Output) : (s.emit o).now = s.now := by cases s; rfl
@[simp] theorem State.emit_freeCtr (s : State) (o : Output) : (s.emit o).freeCtr = s.freeCtr := by cases s; rfl
@[simp] theorem State.emit_regs (s : State) (o : Output) : (s.emit o).regs = s.regs := by cases s; rfl
@[simp] theorem State.emit_pwr (s : State) (o : Output) : (s.emit o).pwr = s.pwr := by cases s; rfl
@[simp] theorem State.emit_ft (s : State) (o : Output) : (s.emit o).ft = s.ft := by cases s; rfl
@[simp] theorem State.emit_cal (s : State) (o : Output) : (s.emit o).cal = s.cal := by cases s; rfl
@[simp] theorem State.emit_link (s : State) (o : Output) : (s.emit o).link = s.link := by cases s; rfl
@[simp] theorem State.emit_hub (s : State) (o : Output) : (s.emit o).hub = s.hub := by cases s; rfl
@[simp] theorem State.emit_mgt (s : State) (o : Output) : (s.emit o).mgt = s.mgt := by cases s; rfl
@[simp] theorem State.emit_mbx (s : State) (o : Output) : (s.emit o).mbx = s.mbx := by cases s; rfl
@[simp] theorem State.emit_grn (s : State) (o : Output) : (s.emit o).grn = s.grn := by cases s; rfl
@[simp] theorem State.emit_dram (s : State) (o : Output) : (s.emit o).dram = s.dram := by cases s; rfl
@[simp] theorem State.emit_flash (s : State) (o : Output) : (s.emit o).flash = s.flash := by cases s; rfl
@[simp] theorem State.emit_dge (s : State) (o : Output) : (s.emit o).dge = s.dge := by cases s; rfl
@[simp] theorem State.emit_eng (s : State) (o : Output) : (s.emit o).eng = s.eng := by cases s; rfl

/-! `State.fresh` -/

@[simp] theorem State.fresh_pending (s : State) : (s.fresh.2).pending = s.pending := by cases s; rfl
@[simp] theorem State.fresh_now (s : State) : (s.fresh.2).now = s.now := by cases s; rfl
@[simp] theorem State.fresh_out (s : State) : (s.fresh.2).out = s.out := by cases s; rfl
@[simp] theorem State.fresh_regs (s : State) : (s.fresh.2).regs = s.regs := by cases s; rfl
@[simp] theorem State.fresh_pwr (s : State) : (s.fresh.2).pwr = s.pwr := by cases s; rfl
@[simp] theorem State.fresh_ft (s : State) : (s.fresh.2).ft = s.ft := by cases s; rfl
@[simp] theorem State.fresh_cal (s : State) : (s.fresh.2).cal = s.cal := by cases s; rfl
@[simp] theorem State.fresh_link (s : State) : (s.fresh.2).link = s.link := by cases s; rfl
@[simp] theorem State.fresh_hub (s : State) : (s.fresh.2).hub = s.hub := by cases s; rfl
@[simp] theorem State.fresh_mgt (s : State) : (s.fresh.2).mgt = s.mgt := by cases s; rfl
@[simp] theorem State.fresh_mbx (s : State) : (s.fresh.2).mbx = s.mbx := by cases s; rfl
@[simp] theorem State.fresh_grn (s : State) : (s.fresh.2).grn = s.grn := by cases s; rfl
@[simp] theorem State.fresh_dram (s : State) : (s.fresh.2).dram = s.dram := by cases s; rfl
@[simp] theorem State.fresh_flash (s : State) : (s.fresh.2).flash = s.flash := by cases s; rfl
@[simp] theorem State.fresh_dge (s : State) : (s.fresh.2).dge = s.dge := by cases s; rfl
@[simp] theorem State.fresh_eng (s : State) : (s.fresh.2).eng = s.eng := by cases s; rfl

/-! `State.writeLine` -/

@[simp] theorem State.writeLine_pending (s : State) (a : Nat) (l : Line) (p : Bool) : (s.writeLine a l p).pending = s.pending := by cases s; rfl
@[simp] theorem State.writeLine_now (s : State) (a : Nat) (l : Line) (p : Bool) : (s.writeLine a l p).now = s.now := by cases s; rfl
@[simp] theorem State.writeLine_freeCtr (s : State) (a : Nat) (l : Line) (p : Bool) : (s.writeLine a l p).freeCtr = s.freeCtr := by cases s; rfl
@[simp] theorem State.writeLine_out (s : State) (a : Nat) (l : Line) (p : Bool) : (s.writeLine a l p).out = s.out := by cases s; rfl
@[simp] theorem State.writeLine_regs (s : State) (a : Nat) (l : Line) (p : Bool) : (s.writeLine a l p).regs = s.regs := by cases s; rfl
@[simp] theorem State.writeLine_pwr (s : State) (a : Nat) (l : Line) (p : Bool) : (s.writeLine a l p).pwr = s.pwr := by cases s; rfl
@[simp] theorem State.writeLine_ft (s : State) (a : Nat) (l : Line) (p : Bool) : (s.writeLine a l p).ft = s.ft := by cases s; rfl
@[simp] theorem State.writeLine_cal (s : State) (a : Nat) (l : Line) (p : Bool) : (s.writeLine a l p).cal = s.cal := by cases s; rfl
@[simp] theorem State.writeLine_link (s : State) (a : Nat) (l : Line) (p : Bool) : (s.writeLine a l p).link = s.link := by cases s; rfl
@[simp] theorem State.writeLine_hub (s : State) (a : Nat) (l : Line) (p : Bool) : (s.writeLine a l p).hub = s.hub := by cases s; rfl
@[simp] theorem State.writeLine_mgt (s : State) (a : Nat) (l : Line) (p : Bool) : (s.writeLine a l p).mgt = s.mgt := by cases s; rfl
@[simp] theorem State.writeLine_mbx (s : State) (a : Nat) (l : Line) (p : Bool) : (s.writeLine a l p).mbx = s.mbx := by cases s; rfl
@[simp] theorem State.writeLine_grn (s : State) (a : Nat) (l : Line) (p : Bool) : (s.writeLine a l p).grn = s.grn := by cases s; rfl
@[simp] theorem State.writeLine_flash (s : State) (a : Nat) (l : Line) (p : Bool) : (s.writeLine a l p).flash = s.flash := by cases s; rfl
@[simp] theorem State.writeLine_dge (s : State) (a : Nat) (l : Line) (p : Bool) : (s.writeLine a l p).dge = s.dge := by cases s; rfl
@[simp] theorem State.writeLine_eng (s : State) (a : Nat) (l : Line) (p : Bool) : (s.writeLine a l p).eng = s.eng := by cases s; rfl

/-! `State.poisonLine` -/

@[simp] theorem State.poisonLine_pending (s : State) (a : Nat) : (s.poisonLine a).pending = s.pending := by cases s; rfl
@[simp] theorem State.poisonLine_now (s : State) (a : Nat) : (s.poisonLine a).now = s.now := by cases s; rfl
@[simp] theorem State.poisonLine_freeCtr (s : State) (a : Nat) : (s.poisonLine a).freeCtr = s.freeCtr := by cases s; rfl
@[simp] theorem State.poisonLine_out (s : State) (a : Nat) : (s.poisonLine a).out = s.out := by cases s; rfl
@[simp] theorem State.poisonLine_regs (s : State) (a : Nat) : (s.poisonLine a).regs = s.regs := by cases s; rfl
@[simp] theorem State.poisonLine_pwr (s : State) (a : Nat) : (s.poisonLine a).pwr = s.pwr := by cases s; rfl
@[simp] theorem State.poisonLine_ft (s : State) (a : Nat) : (s.poisonLine a).ft = s.ft := by cases s; rfl
@[simp] theorem State.poisonLine_cal (s : State) (a : Nat) : (s.poisonLine a).cal = s.cal := by cases s; rfl
@[simp] theorem State.poisonLine_link (s : State) (a : Nat) : (s.poisonLine a).link = s.link := by cases s; rfl
@[simp] theorem State.poisonLine_hub (s : State) (a : Nat) : (s.poisonLine a).hub = s.hub := by cases s; rfl
@[simp] theorem State.poisonLine_mgt (s : State) (a : Nat) : (s.poisonLine a).mgt = s.mgt := by cases s; rfl
@[simp] theorem State.poisonLine_mbx (s : State) (a : Nat) : (s.poisonLine a).mbx = s.mbx := by cases s; rfl
@[simp] theorem State.poisonLine_grn (s : State) (a : Nat) : (s.poisonLine a).grn = s.grn := by cases s; rfl
@[simp] theorem State.poisonLine_flash (s : State) (a : Nat) : (s.poisonLine a).flash = s.flash := by cases s; rfl
@[simp] theorem State.poisonLine_dge (s : State) (a : Nat) : (s.poisonLine a).dge = s.dge := by cases s; rfl
@[simp] theorem State.poisonLine_eng (s : State) (a : Nat) : (s.poisonLine a).eng = s.eng := by cases s; rfl

/-! `State.setPair` -/

@[simp] theorem State.setPair_pending (s : State) (n : Nat) (p : Pair) : (s.setPair n p).pending = s.pending := by cases s; rfl
@[simp] theorem State.setPair_now (s : State) (n : Nat) (p : Pair) : (s.setPair n p).now = s.now := by cases s; rfl
@[simp] theorem State.setPair_freeCtr (s : State) (n : Nat) (p : Pair) : (s.setPair n p).freeCtr = s.freeCtr := by cases s; rfl
@[simp] theorem State.setPair_out (s : State) (n : Nat) (p : Pair) : (s.setPair n p).out = s.out := by cases s; rfl
@[simp] theorem State.setPair_regs (s : State) (n : Nat) (p : Pair) : (s.setPair n p).regs = s.regs := by cases s; rfl
@[simp] theorem State.setPair_pwr (s : State) (n : Nat) (p : Pair) : (s.setPair n p).pwr = s.pwr := by cases s; rfl
@[simp] theorem State.setPair_ft (s : State) (n : Nat) (p : Pair) : (s.setPair n p).ft = s.ft := by cases s; rfl
@[simp] theorem State.setPair_cal (s : State) (n : Nat) (p : Pair) : (s.setPair n p).cal = s.cal := by cases s; rfl
@[simp] theorem State.setPair_link (s : State) (n : Nat) (p : Pair) : (s.setPair n p).link = s.link := by cases s; rfl
@[simp] theorem State.setPair_hub (s : State) (n : Nat) (p : Pair) : (s.setPair n p).hub = s.hub := by cases s; rfl
@[simp] theorem State.setPair_mgt (s : State) (n : Nat) (p : Pair) : (s.setPair n p).mgt = s.mgt := by cases s; rfl
@[simp] theorem State.setPair_grn (s : State) (n : Nat) (p : Pair) : (s.setPair n p).grn = s.grn := by cases s; rfl
@[simp] theorem State.setPair_dram (s : State) (n : Nat) (p : Pair) : (s.setPair n p).dram = s.dram := by cases s; rfl
@[simp] theorem State.setPair_flash (s : State) (n : Nat) (p : Pair) : (s.setPair n p).flash = s.flash := by cases s; rfl
@[simp] theorem State.setPair_dge (s : State) (n : Nat) (p : Pair) : (s.setPair n p).dge = s.dge := by cases s; rfl
@[simp] theorem State.setPair_eng (s : State) (n : Nat) (p : Pair) : (s.setPair n p).eng = s.eng := by cases s; rfl

/-! `State.endHold` -/

@[simp] theorem State.endHold_pending (s : State) (n : Nat) : (s.endHold n).pending = s.pending := by simp [State.endHold]
@[simp] theorem State.endHold_now (s : State) (n : Nat) : (s.endHold n).now = s.now := by simp [State.endHold]
@[simp] theorem State.endHold_freeCtr (s : State) (n : Nat) : (s.endHold n).freeCtr = s.freeCtr := by simp [State.endHold]
@[simp] theorem State.endHold_out (s : State) (n : Nat) : (s.endHold n).out = s.out := by simp [State.endHold]
@[simp] theorem State.endHold_regs (s : State) (n : Nat) : (s.endHold n).regs = s.regs := by simp [State.endHold]
@[simp] theorem State.endHold_pwr (s : State) (n : Nat) : (s.endHold n).pwr = s.pwr := by simp [State.endHold]
@[simp] theorem State.endHold_ft (s : State) (n : Nat) : (s.endHold n).ft = s.ft := by simp [State.endHold]
@[simp] theorem State.endHold_cal (s : State) (n : Nat) : (s.endHold n).cal = s.cal := by simp [State.endHold]
@[simp] theorem State.endHold_link (s : State) (n : Nat) : (s.endHold n).link = s.link := by simp [State.endHold]
@[simp] theorem State.endHold_hub (s : State) (n : Nat) : (s.endHold n).hub = s.hub := by simp [State.endHold]
@[simp] theorem State.endHold_mgt (s : State) (n : Nat) : (s.endHold n).mgt = s.mgt := by simp [State.endHold]
@[simp] theorem State.endHold_grn (s : State) (n : Nat) : (s.endHold n).grn = s.grn := by simp [State.endHold]
@[simp] theorem State.endHold_dram (s : State) (n : Nat) : (s.endHold n).dram = s.dram := by simp [State.endHold]
@[simp] theorem State.endHold_flash (s : State) (n : Nat) : (s.endHold n).flash = s.flash := by simp [State.endHold]
@[simp] theorem State.endHold_dge (s : State) (n : Nat) : (s.endHold n).dge = s.dge := by simp [State.endHold]
@[simp] theorem State.endHold_eng (s : State) (n : Nat) : (s.endHold n).eng = s.eng := by simp [State.endHold]

/-! `State.holdCpl` -/

@[simp] theorem State.holdCpl_pending (s : State) (n : Nat) (c : Cpl) : (s.holdCpl n c).pending = s.pending := by simp [State.holdCpl]
@[simp] theorem State.holdCpl_now (s : State) (n : Nat) (c : Cpl) : (s.holdCpl n c).now = s.now := by simp [State.holdCpl]
@[simp] theorem State.holdCpl_freeCtr (s : State) (n : Nat) (c : Cpl) : (s.holdCpl n c).freeCtr = s.freeCtr := by simp [State.holdCpl]
@[simp] theorem State.holdCpl_out (s : State) (n : Nat) (c : Cpl) : (s.holdCpl n c).out = s.out := by simp [State.holdCpl]
@[simp] theorem State.holdCpl_regs (s : State) (n : Nat) (c : Cpl) : (s.holdCpl n c).regs = s.regs := by simp [State.holdCpl]
@[simp] theorem State.holdCpl_pwr (s : State) (n : Nat) (c : Cpl) : (s.holdCpl n c).pwr = s.pwr := by simp [State.holdCpl]
@[simp] theorem State.holdCpl_ft (s : State) (n : Nat) (c : Cpl) : (s.holdCpl n c).ft = s.ft := by simp [State.holdCpl]
@[simp] theorem State.holdCpl_cal (s : State) (n : Nat) (c : Cpl) : (s.holdCpl n c).cal = s.cal := by simp [State.holdCpl]
@[simp] theorem State.holdCpl_link (s : State) (n : Nat) (c : Cpl) : (s.holdCpl n c).link = s.link := by simp [State.holdCpl]
@[simp] theorem State.holdCpl_hub (s : State) (n : Nat) (c : Cpl) : (s.holdCpl n c).hub = s.hub := by simp [State.holdCpl]
@[simp] theorem State.holdCpl_mgt (s : State) (n : Nat) (c : Cpl) : (s.holdCpl n c).mgt = s.mgt := by simp [State.holdCpl]
@[simp] theorem State.holdCpl_grn (s : State) (n : Nat) (c : Cpl) : (s.holdCpl n c).grn = s.grn := by simp [State.holdCpl]
@[simp] theorem State.holdCpl_dram (s : State) (n : Nat) (c : Cpl) : (s.holdCpl n c).dram = s.dram := by simp [State.holdCpl]
@[simp] theorem State.holdCpl_flash (s : State) (n : Nat) (c : Cpl) : (s.holdCpl n c).flash = s.flash := by simp [State.holdCpl]
@[simp] theorem State.holdCpl_dge (s : State) (n : Nat) (c : Cpl) : (s.holdCpl n c).dge = s.dge := by simp [State.holdCpl]
@[simp] theorem State.holdCpl_eng (s : State) (n : Nat) (c : Cpl) : (s.holdCpl n c).eng = s.eng := by simp [State.holdCpl]

/-! `State.emptyHeld` -/

@[simp] theorem State.emptyHeld_pending (s : State) (n : Nat) : (s.emptyHeld n).pending = s.pending := by simp [State.emptyHeld]
@[simp] theorem State.emptyHeld_now (s : State) (n : Nat) : (s.emptyHeld n).now = s.now := by simp [State.emptyHeld]
@[simp] theorem State.emptyHeld_freeCtr (s : State) (n : Nat) : (s.emptyHeld n).freeCtr = s.freeCtr := by simp [State.emptyHeld]
@[simp] theorem State.emptyHeld_out (s : State) (n : Nat) : (s.emptyHeld n).out = s.out := by simp [State.emptyHeld]
@[simp] theorem State.emptyHeld_regs (s : State) (n : Nat) : (s.emptyHeld n).regs = s.regs := by simp [State.emptyHeld]
@[simp] theorem State.emptyHeld_pwr (s : State) (n : Nat) : (s.emptyHeld n).pwr = s.pwr := by simp [State.emptyHeld]
@[simp] theorem State.emptyHeld_ft (s : State) (n : Nat) : (s.emptyHeld n).ft = s.ft := by simp [State.emptyHeld]
@[simp] theorem State.emptyHeld_cal (s : State) (n : Nat) : (s.emptyHeld n).cal = s.cal := by simp [State.emptyHeld]
@[simp] theorem State.emptyHeld_link (s : State) (n : Nat) : (s.emptyHeld n).link = s.link := by simp [State.emptyHeld]
@[simp] theorem State.emptyHeld_hub (s : State) (n : Nat) : (s.emptyHeld n).hub = s.hub := by simp [State.emptyHeld]
@[simp] theorem State.emptyHeld_mgt (s : State) (n : Nat) : (s.emptyHeld n).mgt = s.mgt := by simp [State.emptyHeld]
@[simp] theorem State.emptyHeld_grn (s : State) (n : Nat) : (s.emptyHeld n).grn = s.grn := by simp [State.emptyHeld]
@[simp] theorem State.emptyHeld_dram (s : State) (n : Nat) : (s.emptyHeld n).dram = s.dram := by simp [State.emptyHeld]
@[simp] theorem State.emptyHeld_flash (s : State) (n : Nat) : (s.emptyHeld n).flash = s.flash := by simp [State.emptyHeld]
@[simp] theorem State.emptyHeld_dge (s : State) (n : Nat) : (s.emptyHeld n).dge = s.dge := by simp [State.emptyHeld]
@[simp] theorem State.emptyHeld_eng (s : State) (n : Nat) : (s.emptyHeld n).eng = s.eng := by simp [State.emptyHeld]

/-! `State.enterError` -/

@[simp] theorem State.enterError_pending (s : State) (n c : Nat) : (s.enterError n c).pending = s.pending := by simp [State.enterError]
@[simp] theorem State.enterError_now (s : State) (n c : Nat) : (s.enterError n c).now = s.now := by simp [State.enterError]
@[simp] theorem State.enterError_freeCtr (s : State) (n c : Nat) : (s.enterError n c).freeCtr = s.freeCtr := by simp [State.enterError]
@[simp] theorem State.enterError_out (s : State) (n c : Nat) : (s.enterError n c).out = s.out := by simp [State.enterError]
@[simp] theorem State.enterError_pwr (s : State) (n c : Nat) : (s.enterError n c).pwr = s.pwr := by simp [State.enterError]
@[simp] theorem State.enterError_ft (s : State) (n c : Nat) : (s.enterError n c).ft = s.ft := by simp [State.enterError]
@[simp] theorem State.enterError_cal (s : State) (n c : Nat) : (s.enterError n c).cal = s.cal := by simp [State.enterError]
@[simp] theorem State.enterError_link (s : State) (n c : Nat) : (s.enterError n c).link = s.link := by simp [State.enterError]
@[simp] theorem State.enterError_hub (s : State) (n c : Nat) : (s.enterError n c).hub = s.hub := by simp [State.enterError]
@[simp] theorem State.enterError_mgt (s : State) (n c : Nat) : (s.enterError n c).mgt = s.mgt := by simp [State.enterError]
@[simp] theorem State.enterError_grn (s : State) (n c : Nat) : (s.enterError n c).grn = s.grn := by simp [State.enterError]
@[simp] theorem State.enterError_dram (s : State) (n c : Nat) : (s.enterError n c).dram = s.dram := by simp [State.enterError]
@[simp] theorem State.enterError_flash (s : State) (n c : Nat) : (s.enterError n c).flash = s.flash := by simp [State.enterError]
@[simp] theorem State.enterError_dge (s : State) (n c : Nat) : (s.enterError n c).dge = s.dge := by simp [State.enterError]
@[simp] theorem State.enterError_eng (s : State) (n c : Nat) : (s.enterError n c).eng = s.eng := by simp [State.enterError]

/-! `State.forget` -/

@[simp] theorem State.forget_pending (s : State) (id : Nat) : (s.forget id).pending = s.pending := by cases s; rfl
@[simp] theorem State.forget_now (s : State) (id : Nat) : (s.forget id).now = s.now := by cases s; rfl
@[simp] theorem State.forget_freeCtr (s : State) (id : Nat) : (s.forget id).freeCtr = s.freeCtr := by cases s; rfl
@[simp] theorem State.forget_out (s : State) (id : Nat) : (s.forget id).out = s.out := by cases s; rfl
@[simp] theorem State.forget_regs (s : State) (id : Nat) : (s.forget id).regs = s.regs := by cases s; rfl
@[simp] theorem State.forget_pwr (s : State) (id : Nat) : (s.forget id).pwr = s.pwr := by cases s; rfl
@[simp] theorem State.forget_ft (s : State) (id : Nat) : (s.forget id).ft = s.ft := by cases s; rfl
@[simp] theorem State.forget_cal (s : State) (id : Nat) : (s.forget id).cal = s.cal := by cases s; rfl
@[simp] theorem State.forget_link (s : State) (id : Nat) : (s.forget id).link = s.link := by cases s; rfl
@[simp] theorem State.forget_hub (s : State) (id : Nat) : (s.forget id).hub = s.hub := by cases s; rfl
@[simp] theorem State.forget_mgt (s : State) (id : Nat) : (s.forget id).mgt = s.mgt := by cases s; rfl
@[simp] theorem State.forget_grn (s : State) (id : Nat) : (s.forget id).grn = s.grn := by cases s; rfl
@[simp] theorem State.forget_dram (s : State) (id : Nat) : (s.forget id).dram = s.dram := by cases s; rfl
@[simp] theorem State.forget_flash (s : State) (id : Nat) : (s.forget id).flash = s.flash := by cases s; rfl
@[simp] theorem State.forget_dge (s : State) (id : Nat) : (s.forget id).dge = s.dge := by cases s; rfl
@[simp] theorem State.forget_eng (s : State) (id : Nat) : (s.forget id).eng = s.eng := by cases s; rfl

/-! `State.update` -/

@[simp] theorem State.update_pending (s : State) (a : Accepted) : (s.update a).pending = s.pending := by cases s; rfl
@[simp] theorem State.update_now (s : State) (a : Accepted) : (s.update a).now = s.now := by cases s; rfl
@[simp] theorem State.update_freeCtr (s : State) (a : Accepted) : (s.update a).freeCtr = s.freeCtr := by cases s; rfl
@[simp] theorem State.update_out (s : State) (a : Accepted) : (s.update a).out = s.out := by cases s; rfl
@[simp] theorem State.update_regs (s : State) (a : Accepted) : (s.update a).regs = s.regs := by cases s; rfl
@[simp] theorem State.update_pwr (s : State) (a : Accepted) : (s.update a).pwr = s.pwr := by cases s; rfl
@[simp] theorem State.update_ft (s : State) (a : Accepted) : (s.update a).ft = s.ft := by cases s; rfl
@[simp] theorem State.update_cal (s : State) (a : Accepted) : (s.update a).cal = s.cal := by cases s; rfl
@[simp] theorem State.update_link (s : State) (a : Accepted) : (s.update a).link = s.link := by cases s; rfl
@[simp] theorem State.update_hub (s : State) (a : Accepted) : (s.update a).hub = s.hub := by cases s; rfl
@[simp] theorem State.update_mgt (s : State) (a : Accepted) : (s.update a).mgt = s.mgt := by cases s; rfl
@[simp] theorem State.update_grn (s : State) (a : Accepted) : (s.update a).grn = s.grn := by cases s; rfl
@[simp] theorem State.update_dram (s : State) (a : Accepted) : (s.update a).dram = s.dram := by cases s; rfl
@[simp] theorem State.update_flash (s : State) (a : Accepted) : (s.update a).flash = s.flash := by cases s; rfl
@[simp] theorem State.update_dge (s : State) (a : Accepted) : (s.update a).dge = s.dge := by cases s; rfl
@[simp] theorem State.update_eng (s : State) (a : Accepted) : (s.update a).eng = s.eng := by cases s; rfl

/-! `State.begin` -/

@[simp] theorem State.begin_pending (s : State) (a : Accepted) : (s.begin a).pending = s.pending := by simp [State.begin]
@[simp] theorem State.begin_now (s : State) (a : Accepted) : (s.begin a).now = s.now := by simp [State.begin]
@[simp] theorem State.begin_freeCtr (s : State) (a : Accepted) : (s.begin a).freeCtr = s.freeCtr := by simp [State.begin]
@[simp] theorem State.begin_out (s : State) (a : Accepted) : (s.begin a).out = s.out := by simp [State.begin]
@[simp] theorem State.begin_regs (s : State) (a : Accepted) : (s.begin a).regs = s.regs := by simp [State.begin]
@[simp] theorem State.begin_pwr (s : State) (a : Accepted) : (s.begin a).pwr = s.pwr := by simp [State.begin]
@[simp] theorem State.begin_ft (s : State) (a : Accepted) : (s.begin a).ft = s.ft := by simp [State.begin]
@[simp] theorem State.begin_cal (s : State) (a : Accepted) : (s.begin a).cal = s.cal := by simp [State.begin]
@[simp] theorem State.begin_link (s : State) (a : Accepted) : (s.begin a).link = s.link := by simp [State.begin]
@[simp] theorem State.begin_hub (s : State) (a : Accepted) : (s.begin a).hub = s.hub := by simp [State.begin]
@[simp] theorem State.begin_mgt (s : State) (a : Accepted) : (s.begin a).mgt = s.mgt := by simp [State.begin]
@[simp] theorem State.begin_grn (s : State) (a : Accepted) : (s.begin a).grn = s.grn := by simp [State.begin]
@[simp] theorem State.begin_dram (s : State) (a : Accepted) : (s.begin a).dram = s.dram := by simp [State.begin]
@[simp] theorem State.begin_flash (s : State) (a : Accepted) : (s.begin a).flash = s.flash := by simp [State.begin]
@[simp] theorem State.begin_dge (s : State) (a : Accepted) : (s.begin a).dge = s.dge := by simp [State.begin]
@[simp] theorem State.begin_eng (s : State) (a : Accepted) : (s.begin a).eng = s.eng := by simp [State.begin]

/-! `State.abandonSegments` -/

@[simp] theorem State.abandonSegments_pending (s : State) : (s.abandonSegments).pending = s.pending := by cases s; rfl
@[simp] theorem State.abandonSegments_now (s : State) : (s.abandonSegments).now = s.now := by cases s; rfl
@[simp] theorem State.abandonSegments_freeCtr (s : State) : (s.abandonSegments).freeCtr = s.freeCtr := by cases s; rfl
@[simp] theorem State.abandonSegments_out (s : State) : (s.abandonSegments).out = s.out := by cases s; rfl
@[simp] theorem State.abandonSegments_regs (s : State) : (s.abandonSegments).regs = s.regs := by cases s; rfl
@[simp] theorem State.abandonSegments_pwr (s : State) : (s.abandonSegments).pwr = s.pwr := by cases s; rfl
@[simp] theorem State.abandonSegments_ft (s : State) : (s.abandonSegments).ft = s.ft := by cases s; rfl
@[simp] theorem State.abandonSegments_cal (s : State) : (s.abandonSegments).cal = s.cal := by cases s; rfl
@[simp] theorem State.abandonSegments_link (s : State) : (s.abandonSegments).link = s.link := by cases s; rfl
@[simp] theorem State.abandonSegments_hub (s : State) : (s.abandonSegments).hub = s.hub := by cases s; rfl
@[simp] theorem State.abandonSegments_mgt (s : State) : (s.abandonSegments).mgt = s.mgt := by cases s; rfl
@[simp] theorem State.abandonSegments_mbx (s : State) : (s.abandonSegments).mbx = s.mbx := by cases s; rfl
@[simp] theorem State.abandonSegments_dram (s : State) : (s.abandonSegments).dram = s.dram := by cases s; rfl
@[simp] theorem State.abandonSegments_flash (s : State) : (s.abandonSegments).flash = s.flash := by cases s; rfl
@[simp] theorem State.abandonSegments_dge (s : State) : (s.abandonSegments).dge = s.dge := by cases s; rfl
@[simp] theorem State.abandonSegments_eng (s : State) : (s.abandonSegments).eng = s.eng := by cases s; rfl

/-! `State.setDigest` -/

@[simp] theorem State.setDigest_pending (s : State) (d : Digest) : (s.setDigest d).pending = s.pending := by cases s; simp [State.setDigest]
@[simp] theorem State.setDigest_now (s : State) (d : Digest) : (s.setDigest d).now = s.now := by cases s; simp [State.setDigest]
@[simp] theorem State.setDigest_freeCtr (s : State) (d : Digest) : (s.setDigest d).freeCtr = s.freeCtr := by cases s; simp [State.setDigest]
@[simp] theorem State.setDigest_out (s : State) (d : Digest) : (s.setDigest d).out = s.out := by cases s; simp [State.setDigest]
@[simp] theorem State.setDigest_pwr (s : State) (d : Digest) : (s.setDigest d).pwr = s.pwr := by cases s; simp [State.setDigest]
@[simp] theorem State.setDigest_ft (s : State) (d : Digest) : (s.setDigest d).ft = s.ft := by cases s; simp [State.setDigest]
@[simp] theorem State.setDigest_cal (s : State) (d : Digest) : (s.setDigest d).cal = s.cal := by cases s; simp [State.setDigest]
@[simp] theorem State.setDigest_link (s : State) (d : Digest) : (s.setDigest d).link = s.link := by cases s; simp [State.setDigest]
@[simp] theorem State.setDigest_hub (s : State) (d : Digest) : (s.setDigest d).hub = s.hub := by cases s; simp [State.setDigest]
@[simp] theorem State.setDigest_mgt (s : State) (d : Digest) : (s.setDigest d).mgt = s.mgt := by cases s; simp [State.setDigest]
@[simp] theorem State.setDigest_mbx (s : State) (d : Digest) : (s.setDigest d).mbx = s.mbx := by cases s; simp [State.setDigest]
@[simp] theorem State.setDigest_grn (s : State) (d : Digest) : (s.setDigest d).grn = s.grn := by cases s; simp [State.setDigest]
@[simp] theorem State.setDigest_dram (s : State) (d : Digest) : (s.setDigest d).dram = s.dram := by cases s; simp [State.setDigest]
@[simp] theorem State.setDigest_flash (s : State) (d : Digest) : (s.setDigest d).flash = s.flash := by cases s; simp [State.setDigest]
@[simp] theorem State.setDigest_eng (s : State) (d : Digest) : (s.setDigest d).eng = s.eng := by cases s; simp [State.setDigest]

/-! `State.setFt` -/

@[simp] theorem State.setFt_pending (s : State) (t : TimeBlock) : (s.setFt t).pending = s.pending := by cases s; rfl
@[simp] theorem State.setFt_now (s : State) (t : TimeBlock) : (s.setFt t).now = s.now := by cases s; rfl
@[simp] theorem State.setFt_freeCtr (s : State) (t : TimeBlock) : (s.setFt t).freeCtr = s.freeCtr := by cases s; rfl
@[simp] theorem State.setFt_out (s : State) (t : TimeBlock) : (s.setFt t).out = s.out := by cases s; rfl
@[simp] theorem State.setFt_regs (s : State) (t : TimeBlock) : (s.setFt t).regs = s.regs := by cases s; rfl
@[simp] theorem State.setFt_pwr (s : State) (t : TimeBlock) : (s.setFt t).pwr = s.pwr := by cases s; rfl
@[simp] theorem State.setFt_cal (s : State) (t : TimeBlock) : (s.setFt t).cal = s.cal := by cases s; rfl
@[simp] theorem State.setFt_link (s : State) (t : TimeBlock) : (s.setFt t).link = s.link := by cases s; rfl
@[simp] theorem State.setFt_hub (s : State) (t : TimeBlock) : (s.setFt t).hub = s.hub := by cases s; rfl
@[simp] theorem State.setFt_mgt (s : State) (t : TimeBlock) : (s.setFt t).mgt = s.mgt := by cases s; rfl
@[simp] theorem State.setFt_mbx (s : State) (t : TimeBlock) : (s.setFt t).mbx = s.mbx := by cases s; rfl
@[simp] theorem State.setFt_grn (s : State) (t : TimeBlock) : (s.setFt t).grn = s.grn := by cases s; rfl
@[simp] theorem State.setFt_dram (s : State) (t : TimeBlock) : (s.setFt t).dram = s.dram := by cases s; rfl
@[simp] theorem State.setFt_flash (s : State) (t : TimeBlock) : (s.setFt t).flash = s.flash := by cases s; rfl
@[simp] theorem State.setFt_dge (s : State) (t : TimeBlock) : (s.setFt t).dge = s.dge := by cases s; rfl
@[simp] theorem State.setFt_eng (s : State) (t : TimeBlock) : (s.setFt t).eng = s.eng := by cases s; rfl

/-! `State.setEntry` -/

@[simp] theorem State.setEntry_pending (s : State) (i : Nat) (e : Option CalEntry) : (s.setEntry i e).pending = s.pending := by cases s; rfl
@[simp] theorem State.setEntry_now (s : State) (i : Nat) (e : Option CalEntry) : (s.setEntry i e).now = s.now := by cases s; rfl
@[simp] theorem State.setEntry_freeCtr (s : State) (i : Nat) (e : Option CalEntry) : (s.setEntry i e).freeCtr = s.freeCtr := by cases s; rfl
@[simp] theorem State.setEntry_out (s : State) (i : Nat) (e : Option CalEntry) : (s.setEntry i e).out = s.out := by cases s; rfl
@[simp] theorem State.setEntry_regs (s : State) (i : Nat) (e : Option CalEntry) : (s.setEntry i e).regs = s.regs := by cases s; rfl
@[simp] theorem State.setEntry_pwr (s : State) (i : Nat) (e : Option CalEntry) : (s.setEntry i e).pwr = s.pwr := by cases s; rfl
@[simp] theorem State.setEntry_ft (s : State) (i : Nat) (e : Option CalEntry) : (s.setEntry i e).ft = s.ft := by cases s; rfl
@[simp] theorem State.setEntry_link (s : State) (i : Nat) (e : Option CalEntry) : (s.setEntry i e).link = s.link := by cases s; rfl
@[simp] theorem State.setEntry_hub (s : State) (i : Nat) (e : Option CalEntry) : (s.setEntry i e).hub = s.hub := by cases s; rfl
@[simp] theorem State.setEntry_mgt (s : State) (i : Nat) (e : Option CalEntry) : (s.setEntry i e).mgt = s.mgt := by cases s; rfl
@[simp] theorem State.setEntry_mbx (s : State) (i : Nat) (e : Option CalEntry) : (s.setEntry i e).mbx = s.mbx := by cases s; rfl
@[simp] theorem State.setEntry_grn (s : State) (i : Nat) (e : Option CalEntry) : (s.setEntry i e).grn = s.grn := by cases s; rfl
@[simp] theorem State.setEntry_dram (s : State) (i : Nat) (e : Option CalEntry) : (s.setEntry i e).dram = s.dram := by cases s; rfl
@[simp] theorem State.setEntry_flash (s : State) (i : Nat) (e : Option CalEntry) : (s.setEntry i e).flash = s.flash := by cases s; rfl
@[simp] theorem State.setEntry_dge (s : State) (i : Nat) (e : Option CalEntry) : (s.setEntry i e).dge = s.dge := by cases s; rfl
@[simp] theorem State.setEntry_eng (s : State) (i : Nat) (e : Option CalEntry) : (s.setEntry i e).eng = s.eng := by cases s; rfl

/-! `State.mapEng` -/

@[simp] theorem State.mapEng_pending (s : State) (g : Engine → Engine) : (s.mapEng g).pending = s.pending := by cases s; rfl
@[simp] theorem State.mapEng_now (s : State) (g : Engine → Engine) : (s.mapEng g).now = s.now := by cases s; rfl
@[simp] theorem State.mapEng_freeCtr (s : State) (g : Engine → Engine) : (s.mapEng g).freeCtr = s.freeCtr := by cases s; rfl
@[simp] theorem State.mapEng_out (s : State) (g : Engine → Engine) : (s.mapEng g).out = s.out := by cases s; rfl
@[simp] theorem State.mapEng_regs (s : State) (g : Engine → Engine) : (s.mapEng g).regs = s.regs := by cases s; rfl
@[simp] theorem State.mapEng_pwr (s : State) (g : Engine → Engine) : (s.mapEng g).pwr = s.pwr := by cases s; rfl
@[simp] theorem State.mapEng_ft (s : State) (g : Engine → Engine) : (s.mapEng g).ft = s.ft := by cases s; rfl
@[simp] theorem State.mapEng_cal (s : State) (g : Engine → Engine) : (s.mapEng g).cal = s.cal := by cases s; rfl
@[simp] theorem State.mapEng_link (s : State) (g : Engine → Engine) : (s.mapEng g).link = s.link := by cases s; rfl
@[simp] theorem State.mapEng_hub (s : State) (g : Engine → Engine) : (s.mapEng g).hub = s.hub := by cases s; rfl
@[simp] theorem State.mapEng_mgt (s : State) (g : Engine → Engine) : (s.mapEng g).mgt = s.mgt := by cases s; rfl
@[simp] theorem State.mapEng_mbx (s : State) (g : Engine → Engine) : (s.mapEng g).mbx = s.mbx := by cases s; rfl
@[simp] theorem State.mapEng_grn (s : State) (g : Engine → Engine) : (s.mapEng g).grn = s.grn := by cases s; rfl
@[simp] theorem State.mapEng_dram (s : State) (g : Engine → Engine) : (s.mapEng g).dram = s.dram := by cases s; rfl
@[simp] theorem State.mapEng_flash (s : State) (g : Engine → Engine) : (s.mapEng g).flash = s.flash := by cases s; rfl
@[simp] theorem State.mapEng_dge (s : State) (g : Engine → Engine) : (s.mapEng g).dge = s.dge := by cases s; rfl

/-! `State.mapTlu` -/

@[simp] theorem State.mapTlu_pending (s : State) (g : Tlu → Tlu) : (s.mapTlu g).pending = s.pending := by simp [State.mapTlu]
@[simp] theorem State.mapTlu_now (s : State) (g : Tlu → Tlu) : (s.mapTlu g).now = s.now := by simp [State.mapTlu]
@[simp] theorem State.mapTlu_freeCtr (s : State) (g : Tlu → Tlu) : (s.mapTlu g).freeCtr = s.freeCtr := by simp [State.mapTlu]
@[simp] theorem State.mapTlu_out (s : State) (g : Tlu → Tlu) : (s.mapTlu g).out = s.out := by simp [State.mapTlu]
@[simp] theorem State.mapTlu_regs (s : State) (g : Tlu → Tlu) : (s.mapTlu g).regs = s.regs := by simp [State.mapTlu]
@[simp] theorem State.mapTlu_pwr (s : State) (g : Tlu → Tlu) : (s.mapTlu g).pwr = s.pwr := by simp [State.mapTlu]
@[simp] theorem State.mapTlu_ft (s : State) (g : Tlu → Tlu) : (s.mapTlu g).ft = s.ft := by simp [State.mapTlu]
@[simp] theorem State.mapTlu_cal (s : State) (g : Tlu → Tlu) : (s.mapTlu g).cal = s.cal := by simp [State.mapTlu]
@[simp] theorem State.mapTlu_link (s : State) (g : Tlu → Tlu) : (s.mapTlu g).link = s.link := by simp [State.mapTlu]
@[simp] theorem State.mapTlu_hub (s : State) (g : Tlu → Tlu) : (s.mapTlu g).hub = s.hub := by simp [State.mapTlu]
@[simp] theorem State.mapTlu_mgt (s : State) (g : Tlu → Tlu) : (s.mapTlu g).mgt = s.mgt := by simp [State.mapTlu]
@[simp] theorem State.mapTlu_mbx (s : State) (g : Tlu → Tlu) : (s.mapTlu g).mbx = s.mbx := by simp [State.mapTlu]
@[simp] theorem State.mapTlu_grn (s : State) (g : Tlu → Tlu) : (s.mapTlu g).grn = s.grn := by simp [State.mapTlu]
@[simp] theorem State.mapTlu_dram (s : State) (g : Tlu → Tlu) : (s.mapTlu g).dram = s.dram := by simp [State.mapTlu]
@[simp] theorem State.mapTlu_flash (s : State) (g : Tlu → Tlu) : (s.mapTlu g).flash = s.flash := by simp [State.mapTlu]
@[simp] theorem State.mapTlu_dge (s : State) (g : Tlu → Tlu) : (s.mapTlu g).dge = s.dge := by simp [State.mapTlu]

/-! `State.setTask` -/

@[simp] theorem State.setTask_pending (s : State) (t : Task) : (s.setTask t).pending = s.pending := by simp [State.setTask]
@[simp] theorem State.setTask_now (s : State) (t : Task) : (s.setTask t).now = s.now := by simp [State.setTask]
@[simp] theorem State.setTask_freeCtr (s : State) (t : Task) : (s.setTask t).freeCtr = s.freeCtr := by simp [State.setTask]
@[simp] theorem State.setTask_out (s : State) (t : Task) : (s.setTask t).out = s.out := by simp [State.setTask]
@[simp] theorem State.setTask_regs (s : State) (t : Task) : (s.setTask t).regs = s.regs := by simp [State.setTask]
@[simp] theorem State.setTask_pwr (s : State) (t : Task) : (s.setTask t).pwr = s.pwr := by simp [State.setTask]
@[simp] theorem State.setTask_ft (s : State) (t : Task) : (s.setTask t).ft = s.ft := by simp [State.setTask]
@[simp] theorem State.setTask_cal (s : State) (t : Task) : (s.setTask t).cal = s.cal := by simp [State.setTask]
@[simp] theorem State.setTask_link (s : State) (t : Task) : (s.setTask t).link = s.link := by simp [State.setTask]
@[simp] theorem State.setTask_hub (s : State) (t : Task) : (s.setTask t).hub = s.hub := by simp [State.setTask]
@[simp] theorem State.setTask_mgt (s : State) (t : Task) : (s.setTask t).mgt = s.mgt := by simp [State.setTask]
@[simp] theorem State.setTask_mbx (s : State) (t : Task) : (s.setTask t).mbx = s.mbx := by simp [State.setTask]
@[simp] theorem State.setTask_grn (s : State) (t : Task) : (s.setTask t).grn = s.grn := by simp [State.setTask]
@[simp] theorem State.setTask_dram (s : State) (t : Task) : (s.setTask t).dram = s.dram := by simp [State.setTask]
@[simp] theorem State.setTask_flash (s : State) (t : Task) : (s.setTask t).flash = s.flash := by simp [State.setTask]
@[simp] theorem State.setTask_dge (s : State) (t : Task) : (s.setTask t).dge = s.dge := by simp [State.setTask]

/-! `State.setTiller` -/

@[simp] theorem State.setTiller_pending (s : State) (n : Nat) (t : Tiller) : (s.setTiller n t).pending = s.pending := by simp [State.setTiller]
@[simp] theorem State.setTiller_now (s : State) (n : Nat) (t : Tiller) : (s.setTiller n t).now = s.now := by simp [State.setTiller]
@[simp] theorem State.setTiller_freeCtr (s : State) (n : Nat) (t : Tiller) : (s.setTiller n t).freeCtr = s.freeCtr := by simp [State.setTiller]
@[simp] theorem State.setTiller_out (s : State) (n : Nat) (t : Tiller) : (s.setTiller n t).out = s.out := by simp [State.setTiller]
@[simp] theorem State.setTiller_regs (s : State) (n : Nat) (t : Tiller) : (s.setTiller n t).regs = s.regs := by simp [State.setTiller]
@[simp] theorem State.setTiller_pwr (s : State) (n : Nat) (t : Tiller) : (s.setTiller n t).pwr = s.pwr := by simp [State.setTiller]
@[simp] theorem State.setTiller_ft (s : State) (n : Nat) (t : Tiller) : (s.setTiller n t).ft = s.ft := by simp [State.setTiller]
@[simp] theorem State.setTiller_cal (s : State) (n : Nat) (t : Tiller) : (s.setTiller n t).cal = s.cal := by simp [State.setTiller]
@[simp] theorem State.setTiller_link (s : State) (n : Nat) (t : Tiller) : (s.setTiller n t).link = s.link := by simp [State.setTiller]
@[simp] theorem State.setTiller_hub (s : State) (n : Nat) (t : Tiller) : (s.setTiller n t).hub = s.hub := by simp [State.setTiller]
@[simp] theorem State.setTiller_mgt (s : State) (n : Nat) (t : Tiller) : (s.setTiller n t).mgt = s.mgt := by simp [State.setTiller]
@[simp] theorem State.setTiller_mbx (s : State) (n : Nat) (t : Tiller) : (s.setTiller n t).mbx = s.mbx := by simp [State.setTiller]
@[simp] theorem State.setTiller_grn (s : State) (n : Nat) (t : Tiller) : (s.setTiller n t).grn = s.grn := by simp [State.setTiller]
@[simp] theorem State.setTiller_dram (s : State) (n : Nat) (t : Tiller) : (s.setTiller n t).dram = s.dram := by simp [State.setTiller]
@[simp] theorem State.setTiller_flash (s : State) (n : Nat) (t : Tiller) : (s.setTiller n t).flash = s.flash := by simp [State.setTiller]
@[simp] theorem State.setTiller_dge (s : State) (n : Nat) (t : Tiller) : (s.setTiller n t).dge = s.dge := by simp [State.setTiller]

/-! `State.setCulm` -/

@[simp] theorem State.setCulm_pending (s : State) (n : Nat) (c : Culm) : (s.setCulm n c).pending = s.pending := by simp [State.setCulm]
@[simp] theorem State.setCulm_now (s : State) (n : Nat) (c : Culm) : (s.setCulm n c).now = s.now := by simp [State.setCulm]
@[simp] theorem State.setCulm_freeCtr (s : State) (n : Nat) (c : Culm) : (s.setCulm n c).freeCtr = s.freeCtr := by simp [State.setCulm]
@[simp] theorem State.setCulm_out (s : State) (n : Nat) (c : Culm) : (s.setCulm n c).out = s.out := by simp [State.setCulm]
@[simp] theorem State.setCulm_regs (s : State) (n : Nat) (c : Culm) : (s.setCulm n c).regs = s.regs := by simp [State.setCulm]
@[simp] theorem State.setCulm_pwr (s : State) (n : Nat) (c : Culm) : (s.setCulm n c).pwr = s.pwr := by simp [State.setCulm]
@[simp] theorem State.setCulm_ft (s : State) (n : Nat) (c : Culm) : (s.setCulm n c).ft = s.ft := by simp [State.setCulm]
@[simp] theorem State.setCulm_cal (s : State) (n : Nat) (c : Culm) : (s.setCulm n c).cal = s.cal := by simp [State.setCulm]
@[simp] theorem State.setCulm_link (s : State) (n : Nat) (c : Culm) : (s.setCulm n c).link = s.link := by simp [State.setCulm]
@[simp] theorem State.setCulm_hub (s : State) (n : Nat) (c : Culm) : (s.setCulm n c).hub = s.hub := by simp [State.setCulm]
@[simp] theorem State.setCulm_mgt (s : State) (n : Nat) (c : Culm) : (s.setCulm n c).mgt = s.mgt := by simp [State.setCulm]
@[simp] theorem State.setCulm_mbx (s : State) (n : Nat) (c : Culm) : (s.setCulm n c).mbx = s.mbx := by simp [State.setCulm]
@[simp] theorem State.setCulm_grn (s : State) (n : Nat) (c : Culm) : (s.setCulm n c).grn = s.grn := by simp [State.setCulm]
@[simp] theorem State.setCulm_dram (s : State) (n : Nat) (c : Culm) : (s.setCulm n c).dram = s.dram := by simp [State.setCulm]
@[simp] theorem State.setCulm_flash (s : State) (n : Nat) (c : Culm) : (s.setCulm n c).flash = s.flash := by simp [State.setCulm]
@[simp] theorem State.setCulm_dge (s : State) (n : Nat) (c : Culm) : (s.setCulm n c).dge = s.dge := by simp [State.setCulm]

/-! `State.withPending` -/

@[simp] theorem State.withPending_now (s : State) (q : List Instr) : (s.withPending q).now = s.now := by cases s; rfl
@[simp] theorem State.withPending_freeCtr (s : State) (q : List Instr) : (s.withPending q).freeCtr = s.freeCtr := by cases s; rfl
@[simp] theorem State.withPending_out (s : State) (q : List Instr) : (s.withPending q).out = s.out := by cases s; rfl
@[simp] theorem State.withPending_regs (s : State) (q : List Instr) : (s.withPending q).regs = s.regs := by cases s; rfl
@[simp] theorem State.withPending_pwr (s : State) (q : List Instr) : (s.withPending q).pwr = s.pwr := by cases s; rfl
@[simp] theorem State.withPending_ft (s : State) (q : List Instr) : (s.withPending q).ft = s.ft := by cases s; rfl
@[simp] theorem State.withPending_cal (s : State) (q : List Instr) : (s.withPending q).cal = s.cal := by cases s; rfl
@[simp] theorem State.withPending_link (s : State) (q : List Instr) : (s.withPending q).link = s.link := by cases s; rfl
@[simp] theorem State.withPending_hub (s : State) (q : List Instr) : (s.withPending q).hub = s.hub := by cases s; rfl
@[simp] theorem State.withPending_mgt (s : State) (q : List Instr) : (s.withPending q).mgt = s.mgt := by cases s; rfl
@[simp] theorem State.withPending_mbx (s : State) (q : List Instr) : (s.withPending q).mbx = s.mbx := by cases s; rfl
@[simp] theorem State.withPending_grn (s : State) (q : List Instr) : (s.withPending q).grn = s.grn := by cases s; rfl
@[simp] theorem State.withPending_dram (s : State) (q : List Instr) : (s.withPending q).dram = s.dram := by cases s; rfl
@[simp] theorem State.withPending_flash (s : State) (q : List Instr) : (s.withPending q).flash = s.flash := by cases s; rfl
@[simp] theorem State.withPending_dge (s : State) (q : List Instr) : (s.withPending q).dge = s.dge := by cases s; rfl
@[simp] theorem State.withPending_eng (s : State) (q : List Instr) : (s.withPending q).eng = s.eng := by cases s; rfl

@[simp] theorem State.emit_out (s : State) (o : Output) : (s.emit o).out = o :: s.out := rfl
@[simp] theorem State.withPending_pending (s : State) (q : List Instr) : (s.withPending q).pending = q := rfl
@[simp] theorem State.setFt_ft (s : State) (t : TimeBlock) : (s.setFt t).ft = t := rfl
@[simp] theorem State.setDigest_dge (s : State) (d : Digest) : (s.setDigest d).dge = d := rfl
@[simp] theorem State.mapEng_eng (s : State) (g : Engine → Engine) : (s.mapEng g).eng = g s.eng := rfl
@[simp] theorem State.setPair_accepted (s : State) (n : Nat) (p : Pair) : (s.setPair n p).mbx.accepted = s.mbx.accepted := rfl

end Sys2Proof.Machine
end

