-- ==== Sys2Proof/Laws/Ops.lean ====
section
/-!
SUPPORT. What the shared operations over registers, vectors and memory do: a register read after a write, what a signal
touches, and that every memory operation keeps the canonical form.
-/

namespace Sys2Proof.Machine

/-! ### Registers -/

theorem Field.key_ne_of_id {f g : Field} (h : f.id ≠ g.id) (n m : Nat) : f.key n ≠ g.key m := by
  unfold Field.key; omega

theorem Field.key_ne_of_index {f : Field} {n m : Nat} (h : n % 8192 ≠ m % 8192) : f.key n ≠ f.key m := by
  unfold Field.key; omega

@[simp] theorem State.getN_setN_self (s : State) (f : Field) (n v : Nat) :
    (s.setN f n v).getN f n = v % 2 ^ f.width := by
  simp [State.getN, State.setN]

theorem State.getN_setN_of_id (s : State) {f g : Field} (h : f.id ≠ g.id) (n v m : Nat) :
    (s.setN f n v).getN g m = s.getN g m := by
  simp only [State.getN, State.setN]
  exact Store.getD_put_ne _ (Field.key_ne_of_id h n m) _ _ _

theorem State.getN_setN_of_index (s : State) (f : Field) {n m : Nat} (h : n % 8192 ≠ m % 8192) (v : Nat) :
    (s.setN f n v).getN f m = s.getN f m := by
  simp only [State.getN, State.setN]
  exact Store.getD_put_ne _ (Field.key_ne_of_index h) _ _ _

theorem State.getN_congr {s t : State} (h : s.regs = t.regs) (f : Field) (n : Nat) : s.getN f n = t.getN f n := by
  simp [State.getN, h]

theorem State.get_congr {s t : State} (h : s.regs = t.regs) (f : Field) : s.get f = t.get f := State.getN_congr h f 0

@[simp] theorem State.get_set_self (s : State) (f : Field) (v : Nat) : (s.set f v).get f = v % 2 ^ f.width :=
  State.getN_setN_self s f 0 v

theorem State.get_set_of_id (s : State) {f g : Field} (h : f.id ≠ g.id) (v : Nat) : (s.set f v).get g = s.get g :=
  State.getN_setN_of_id s h 0 v 0

@[simp] theorem State.getN_emit (s : State) (o : Output) (f : Field) (n : Nat) : (s.emit o).getN f n = s.getN f n := rfl

/-! ### Signals (R79, R80) -/

/-- What a signal can do: send one message, or set one pending bit, or nothing. -/
theorem State.signal_cases (s : State) (v : Nat) :
    s.signal v = s ∨ s.signal v = s.emit (.msix v) ∨
      (s.signal v = { s with link := { s.link with pba := v :: s.link.pba } } ∧ v ∉ s.link.pba) := by
  unfold State.signal
  split
  · exact .inl rfl
  · split
    · exact .inl rfl
    · split
      · split
        · exact .inl rfl
        · exact .inr (.inr ⟨rfl, by assumption⟩)
      · exact .inr (.inl rfl)

@[simp] theorem State.signal_regs (s : State) (v : Nat) : (s.signal v).regs = s.regs := by
  rcases s.signal_cases v with h | h | ⟨h, -⟩ <;> simp [h]

@[simp] theorem State.getN_signal (s : State) (v : Nat) (f : Field) (n : Nat) : (s.signal v).getN f n = s.getN f n :=
  State.getN_congr (s.signal_regs v) f n

/-- A vector that is in range, not one of 5 to 7, and not masked, is sent while the link block is up (R79, R80). -/
theorem State.signal_sent (s : State) (v : Nat) (hv : ¬ (5 ≤ v ∧ v ≤ 7 ∨ 256 ≤ v)) (up : s.groupUp .ln = true)
    (open_ : (s.msixEntry v).masked = false) : s.signal v = s.emit (.msix v) := by
  simp [State.signal, hv, up, open_]

/-- A masked vector's event is kept as a pending bit (R80). -/
theorem State.signal_held_pending (s : State) (v : Nat) (hv : ¬ (5 ≤ v ∧ v ≤ 7 ∨ 256 ≤ v)) (up : s.groupUp .ln = true)
    (masked : (s.msixEntry v).masked = true) : v ∈ (s.signal v).link.pba ∧ (s.signal v).out = s.out := by
  simp only [State.signal, hv, up, masked, if_false, if_true]
  by_cases h : v ∈ s.link.pba <;> simp [h]

/-! ### Memory (R306, R310, R316) -/

/-- Every key of a canonical store lies above a bound. -/
def Store.above {α : Type} (m : Store α) (b : Nat) : Prop := ∀ p ∈ m, b < p.1

theorem Store.wf_cons_iff {α : Type} (k : Nat) (v : α) (m : Store α) :
    Store.wf ((k, v) :: m) = true ↔ Store.above m k ∧ Store.wf m = true := by
  induction m generalizing k v with
  | nil => simp [Store.wf, Store.above]
  | cons p m ih =>
    obtain ⟨q, w⟩ := p
    have h := ih q w
    simp only [Store.wf, Bool.and_eq_true, decide_eq_true_eq]
    constructor
    · rintro ⟨hk, hw⟩
      refine ⟨?_, hw⟩
      intro r hr
      rcases List.mem_cons.1 hr with rfl | hr
      · exact hk
      · exact Nat.lt_trans hk ((h.1 hw).1 r hr)
    · rintro ⟨ha, hw⟩
      exact ⟨ha (q, w) (by simp), hw⟩

theorem Store.above_set {α : Type} (m : Store α) (b q : Nat) (w : α) (h : Store.above m b) (hq : b < q) :
    Store.above (Store.set m q w) b := by
  induction m with
  | nil => intro p hp; simp [Store.set] at hp; simpa [hp] using hq
  | cons x m ih =>
    obtain ⟨k, v⟩ := x
    have hk : b < k := h (k, v) (by simp)
    have hm : Store.above m b := fun p hp => h p (by simp [hp])
    intro p hp
    simp only [Store.set] at hp
    split at hp
    · rcases List.mem_cons.1 hp with rfl | hp
      · exact hq
      · exact h p hp
    · split at hp
      · rcases List.mem_cons.1 hp with rfl | hp
        · exact hq
        · exact hm p hp
      · rcases List.mem_cons.1 hp with rfl | hp
        · exact hk
        · exact ih hm p hp

/-- Storing under a key keeps the canonical form. -/
theorem Store.wf_set {α : Type} (m : Store α) (q : Nat) (w : α) (h : Store.wf m = true) :
    Store.wf (Store.set m q w) = true := by
  induction m with
  | nil => rfl
  | cons x m ih =>
    obtain ⟨k, v⟩ := x
    have hm := (Store.wf_cons_iff k v m).1 h
    simp only [Store.set]
    split
    · rename_i hlt
      refine (Store.wf_cons_iff q w _).2 ⟨?_, h⟩
      intro p hp
      rcases List.mem_cons.1 hp with rfl | hp
      · exact hlt
      · exact Nat.lt_trans hlt (hm.1 p hp)
    · split
      · rename_i heq
        subst heq
        exact (Store.wf_cons_iff k w m).2 hm
      · rename_i h1 h2
        exact (Store.wf_cons_iff k v _).2 ⟨Store.above_set m k q w hm.1 (by omega), ih hm.2⟩

/-- Removing keys keeps the canonical form. -/
theorem Store.wf_filter {α : Type} (m : Store α) (p : Nat × α → Bool) (h : Store.wf m = true) :
    Store.wf (m.filter p : Store α) = true := by
  induction m with
  | nil => rfl
  | cons x m ih =>
    obtain ⟨k, v⟩ := x
    have hm := (Store.wf_cons_iff k v m).1 h
    simp only [List.filter]
    split
    · refine (Store.wf_cons_iff k v _).2 ⟨?_, ih hm.2⟩
      intro q hq
      exact hm.1 q (List.mem_filter.1 hq).1
    · exact ih hm.2

theorem Store.mem_set {α : Type} {m : Store α} {q : Nat} {w : α} {p : Nat × α} (h : p ∈ Store.set m q w) :
    p ∈ m ∨ p = (q, w) := by
  induction m with
  | nil => simp [Store.set] at h; exact .inr h
  | cons x m ih =>
    obtain ⟨k, v⟩ := x
    simp only [Store.set] at h
    split at h
    · rcases List.mem_cons.1 h with h | h
      · exact .inr h
      · exact .inl h
    · split at h
      · rcases List.mem_cons.1 h with h | h
        · exact .inr h
        · exact .inl (by simp [h])
      · rcases List.mem_cons.1 h with h | h
        · exact .inl (by simp [h])
        · rcases ih h with h | h
          · exact .inl (by simp [h])
          · exact .inr h

/-- Writing one byte keeps the canonical form of memory. -/
theorem Memory.wf_write (m : List Host.Cell) (a : Nat) (b : Byte) (h : Memory.wf m = true) :
    Memory.wf (Memory.write m a b) = true := by
  simp only [Memory.wf, Bool.and_eq_true, List.all_eq_true] at h ⊢
  simp only [Memory.write, Store.put]
  split
  · refine ⟨Store.wf_filter m _ h.1, ?_⟩
    intro p hp
    exact h.2 p (List.mem_filter.1 hp).1
  · rename_i hb
    refine ⟨Store.wf_set m a b h.1, ?_⟩
    intro p hp
    rcases Store.mem_set hp with hp | rfl
    · exact h.2 p hp
    · simpa using hb

/-- Writing bytes keeps the canonical form of memory. -/
theorem Memory.wf_writeBytes (bs : List Byte) (m : List Host.Cell) (a : Nat) (h : Memory.wf m = true) :
    Memory.wf (Memory.writeBytes m a bs) = true := by
  induction bs generalizing m a with
  | nil => exact h
  | cons b bs ih => exact ih _ _ (Memory.wf_write m a b h)

/-- A line write keeps the canonical form of memory. -/
theorem State.wf_writeLine (s : State) (dpa : Nat) (l : Line) (p : Bool) (h : Memory.wf s.dram.cells = true) :
    Memory.wf (s.writeLine dpa l p).dram.cells = true := Memory.wf_writeBytes _ _ _ h

/-- Memory at reset is in canonical form. -/
theorem State.reset_wf : Memory.wf State.reset.dram.cells = true := rfl

/-- A byte reads as it was last written. -/
theorem Memory.read_write_self (m : List Host.Cell) (a : Nat) (b : Byte) : Memory.read (Memory.write m a b) a = b := by
  simp [Memory.read, Memory.write]

/-- A write of one byte leaves every other byte as it was. -/
theorem Memory.read_write_ne (m : List Host.Cell) {a c : Nat} (h : a ≠ c) (b : Byte) :
    Memory.read (Memory.write m a b) c = Memory.read m c := by
  simp only [Memory.read, Memory.write]
  exact Store.getD_put_ne _ h _ _ _

/-- A write of bytes leaves every byte outside it as it was. -/
theorem Memory.read_writeBytes_outside (bs : List Byte) (m : List Host.Cell) (a c : Nat)
    (h : c < a ∨ a + bs.length ≤ c) : Memory.read (Memory.writeBytes m a bs) c = Memory.read m c := by
  induction bs generalizing m a with
  | nil => rfl
  | cons b bs ih =>
    simp only [List.length_cons] at h
    rw [Memory.writeBytes, ih _ _ (by omega), Memory.read_write_ne _ (by omega)]

end Sys2Proof.Machine
end

