-- ==== Sys2Proof/Laws/Flags.lean ====
section
/-!
SUPPORT. What the computations that commands share can do: fault events and their reactions (R441 to R453), counters
(R458), and the settling of the live status at the end of a command (R465, R489, R29). Each leaves most of the state
alone; the lemmas say which part.
-/

namespace Sys2Proof.Machine

/-! `State.signal` -/

@[simp] theorem State.signal_pending (s : State) (v : Nat) : (s.signal v).pending = s.pending := by
  rcases s.signal_cases v with h | h | ⟨h, -⟩ <;> simp [h]
@[simp] theorem State.signal_now (s : State) (v : Nat) : (s.signal v).now = s.now := by
  rcases s.signal_cases v with h | h | ⟨h, -⟩ <;> simp [h]
@[simp] theorem State.signal_freeCtr (s : State) (v : Nat) : (s.signal v).freeCtr = s.freeCtr := by
  rcases s.signal_cases v with h | h | ⟨h, -⟩ <;> simp [h]
@[simp] theorem State.signal_pwr (s : State) (v : Nat) : (s.signal v).pwr = s.pwr := by
  rcases s.signal_cases v with h | h | ⟨h, -⟩ <;> simp [h]
@[simp] theorem State.signal_ft (s : State) (v : Nat) : (s.signal v).ft = s.ft := by
  rcases s.signal_cases v with h | h | ⟨h, -⟩ <;> simp [h]
@[simp] theorem State.signal_cal (s : State) (v : Nat) : (s.signal v).cal = s.cal := by
  rcases s.signal_cases v with h | h | ⟨h, -⟩ <;> simp [h]
@[simp] theorem State.signal_hub (s : State) (v : Nat) : (s.signal v).hub = s.hub := by
  rcases s.signal_cases v with h | h | ⟨h, -⟩ <;> simp [h]
@[simp] theorem State.signal_mgt (s : State) (v : Nat) : (s.signal v).mgt = s.mgt := by
  rcases s.signal_cases v with h | h | ⟨h, -⟩ <;> simp [h]
@[simp] theorem State.signal_mbx (s : State) (v : Nat) : (s.signal v).mbx = s.mbx := by
  rcases s.signal_cases v with h | h | ⟨h, -⟩ <;> simp [h]
@[simp] theorem State.signal_grn (s : State) (v : Nat) : (s.signal v).grn = s.grn := by
  rcases s.signal_cases v with h | h | ⟨h, -⟩ <;> simp [h]
@[simp] theorem State.signal_dram (s : State) (v : Nat) : (s.signal v).dram = s.dram := by
  rcases s.signal_cases v with h | h | ⟨h, -⟩ <;> simp [h]
@[simp] theorem State.signal_flash (s : State) (v : Nat) : (s.signal v).flash = s.flash := by
  rcases s.signal_cases v with h | h | ⟨h, -⟩ <;> simp [h]
@[simp] theorem State.signal_dge (s : State) (v : Nat) : (s.signal v).dge = s.dge := by
  rcases s.signal_cases v with h | h | ⟨h, -⟩ <;> simp [h]
@[simp] theorem State.signal_eng (s : State) (v : Nat) : (s.signal v).eng = s.eng := by
  rcases s.signal_cases v with h | h | ⟨h, -⟩ <;> simp [h]

/-- A property of states that each step of a fold keeps, the fold keeps. -/
theorem State.foldl_keeps {α β : Type} (get : State → β) (step : State → α → State) (l : List α)
    (h : ∀ s a, get (step s a) = get s) (s : State) : get (l.foldl step s) = get s := by
  induction l generalizing s with
  | nil => rfl
  | cons a l ih => rw [List.foldl_cons, ih, h]

/-! `State.pauseMigrations` -/

@[simp] theorem State.pauseMigrations_pending (s : State) : s.pauseMigrations.pending = s.pending :=
  State.foldl_keeps State.pending _ _ (fun s a => by split <;> simp) s
@[simp] theorem State.pauseMigrations_now (s : State) : s.pauseMigrations.now = s.now :=
  State.foldl_keeps State.now _ _ (fun s a => by split <;> simp) s
@[simp] theorem State.pauseMigrations_freeCtr (s : State) : s.pauseMigrations.freeCtr = s.freeCtr :=
  State.foldl_keeps State.freeCtr _ _ (fun s a => by split <;> simp) s
@[simp] theorem State.pauseMigrations_out (s : State) : s.pauseMigrations.out = s.out :=
  State.foldl_keeps State.out _ _ (fun s a => by split <;> simp) s
@[simp] theorem State.pauseMigrations_pwr (s : State) : s.pauseMigrations.pwr = s.pwr :=
  State.foldl_keeps State.pwr _ _ (fun s a => by split <;> simp) s
@[simp] theorem State.pauseMigrations_ft (s : State) : s.pauseMigrations.ft = s.ft :=
  State.foldl_keeps State.ft _ _ (fun s a => by split <;> simp) s
@[simp] theorem State.pauseMigrations_cal (s : State) : s.pauseMigrations.cal = s.cal :=
  State.foldl_keeps State.cal _ _ (fun s a => by split <;> simp) s
@[simp] theorem State.pauseMigrations_link (s : State) : s.pauseMigrations.link = s.link :=
  State.foldl_keeps State.link _ _ (fun s a => by split <;> simp) s
@[simp] theorem State.pauseMigrations_hub (s : State) : s.pauseMigrations.hub = s.hub :=
  State.foldl_keeps State.hub _ _ (fun s a => by split <;> simp) s
@[simp] theorem State.pauseMigrations_mgt (s : State) : s.pauseMigrations.mgt = s.mgt :=
  State.foldl_keeps State.mgt _ _ (fun s a => by split <;> simp) s
@[simp] theorem State.pauseMigrations_mbx (s : State) : s.pauseMigrations.mbx = s.mbx :=
  State.foldl_keeps State.mbx _ _ (fun s a => by split <;> simp) s
@[simp] theorem State.pauseMigrations_grn (s : State) : s.pauseMigrations.grn = s.grn :=
  State.foldl_keeps State.grn _ _ (fun s a => by split <;> simp) s
@[simp] theorem State.pauseMigrations_dram (s : State) : s.pauseMigrations.dram = s.dram :=
  State.foldl_keeps State.dram _ _ (fun s a => by split <;> simp) s
@[simp] theorem State.pauseMigrations_flash (s : State) : s.pauseMigrations.flash = s.flash :=
  State.foldl_keeps State.flash _ _ (fun s a => by split <;> simp) s
@[simp] theorem State.pauseMigrations_dge (s : State) : s.pauseMigrations.dge = s.dge :=
  State.foldl_keeps State.dge _ _ (fun s a => by split <;> simp) s
@[simp] theorem State.pauseMigrations_eng (s : State) : s.pauseMigrations.eng = s.eng :=
  State.foldl_keeps State.eng _ _ (fun s a => by split <;> simp) s

/-! `State.openDump` -/

@[simp] theorem State.openDump_pending (s : State) (a b : Bool) : (s.openDump a b).pending = s.pending := by
  cases s; rfl
@[simp] theorem State.openDump_now (s : State) (a b : Bool) : (s.openDump a b).now = s.now := by
  cases s; rfl
@[simp] theorem State.openDump_freeCtr (s : State) (a b : Bool) : (s.openDump a b).freeCtr = s.freeCtr := by
  cases s; rfl
@[simp] theorem State.openDump_out (s : State) (a b : Bool) : (s.openDump a b).out = s.out := by
  cases s; rfl
@[simp] theorem State.openDump_regs (s : State) (a b : Bool) : (s.openDump a b).regs = s.regs := by
  cases s; rfl
@[simp] theorem State.openDump_pwr (s : State) (a b : Bool) : (s.openDump a b).pwr = s.pwr := by
  cases s; rfl
@[simp] theorem State.openDump_ft (s : State) (a b : Bool) : (s.openDump a b).ft = s.ft := by
  cases s; rfl
@[simp] theorem State.openDump_cal (s : State) (a b : Bool) : (s.openDump a b).cal = s.cal := by
  cases s; rfl
@[simp] theorem State.openDump_link (s : State) (a b : Bool) : (s.openDump a b).link = s.link := by
  cases s; rfl
@[simp] theorem State.openDump_hub (s : State) (a b : Bool) : (s.openDump a b).hub = s.hub := by
  cases s; rfl
@[simp] theorem State.openDump_mgt (s : State) (a b : Bool) : (s.openDump a b).mgt = s.mgt := by
  cases s; rfl
@[simp] theorem State.openDump_mbx (s : State) (a b : Bool) : (s.openDump a b).mbx = s.mbx := by
  cases s; rfl
@[simp] theorem State.openDump_dram (s : State) (a b : Bool) : (s.openDump a b).dram = s.dram := by
  cases s; rfl
@[simp] theorem State.openDump_flash (s : State) (a b : Bool) : (s.openDump a b).flash = s.flash := by
  cases s; rfl
@[simp] theorem State.openDump_dge (s : State) (a b : Bool) : (s.openDump a b).dge = s.dge := by
  cases s; rfl
@[simp] theorem State.openDump_eng (s : State) (a b : Bool) : (s.openDump a b).eng = s.eng := by
  cases s; rfl

/-! `State.countEvent` -/

@[simp] theorem State.countEvent_pending (s : State) : (s.countEvent).pending = s.pending := by
  cases s; rfl
@[simp] theorem State.countEvent_now (s : State) : (s.countEvent).now = s.now := by
  cases s; rfl
@[simp] theorem State.countEvent_freeCtr (s : State) : (s.countEvent).freeCtr = s.freeCtr := by
  cases s; rfl
@[simp] theorem State.countEvent_out (s : State) : (s.countEvent).out = s.out := by
  cases s; rfl
@[simp] theorem State.countEvent_regs (s : State) : (s.countEvent).regs = s.regs := by
  cases s; rfl
@[simp] theorem State.countEvent_pwr (s : State) : (s.countEvent).pwr = s.pwr := by
  cases s; rfl
@[simp] theorem State.countEvent_ft (s : State) : (s.countEvent).ft = s.ft := by
  cases s; rfl
@[simp] theorem State.countEvent_cal (s : State) : (s.countEvent).cal = s.cal := by
  cases s; rfl
@[simp] theorem State.countEvent_link (s : State) : (s.countEvent).link = s.link := by
  cases s; rfl
@[simp] theorem State.countEvent_mgt (s : State) : (s.countEvent).mgt = s.mgt := by
  cases s; rfl
@[simp] theorem State.countEvent_mbx (s : State) : (s.countEvent).mbx = s.mbx := by
  cases s; rfl
@[simp] theorem State.countEvent_grn (s : State) : (s.countEvent).grn = s.grn := by
  cases s; rfl
@[simp] theorem State.countEvent_dram (s : State) : (s.countEvent).dram = s.dram := by
  cases s; rfl
@[simp] theorem State.countEvent_flash (s : State) : (s.countEvent).flash = s.flash := by
  cases s; rfl
@[simp] theorem State.countEvent_dge (s : State) : (s.countEvent).dge = s.dge := by
  cases s; rfl
@[simp] theorem State.countEvent_eng (s : State) : (s.countEvent).eng = s.eng := by
  cases s; rfl

/-! `State.setIntake` -/

@[simp] theorem State.setIntake_pending (s : State) (l : List FaultRecord) : (s.setIntake l).pending = s.pending := by
  cases s; rfl
@[simp] theorem State.setIntake_now (s : State) (l : List FaultRecord) : (s.setIntake l).now = s.now := by
  cases s; rfl
@[simp] theorem State.setIntake_freeCtr (s : State) (l : List FaultRecord) : (s.setIntake l).freeCtr = s.freeCtr := by
  cases s; rfl
@[simp] theorem State.setIntake_out (s : State) (l : List FaultRecord) : (s.setIntake l).out = s.out := by
  cases s; rfl
@[simp] theorem State.setIntake_regs (s : State) (l : List FaultRecord) : (s.setIntake l).regs = s.regs := by
  cases s; rfl
@[simp] theorem State.setIntake_pwr (s : State) (l : List FaultRecord) : (s.setIntake l).pwr = s.pwr := by
  cases s; rfl
@[simp] theorem State.setIntake_ft (s : State) (l : List FaultRecord) : (s.setIntake l).ft = s.ft := by
  cases s; rfl
@[simp] theorem State.setIntake_cal (s : State) (l : List FaultRecord) : (s.setIntake l).cal = s.cal := by
  cases s; rfl
@[simp] theorem State.setIntake_link (s : State) (l : List FaultRecord) : (s.setIntake l).link = s.link := by
  cases s; rfl
@[simp] theorem State.setIntake_mgt (s : State) (l : List FaultRecord) : (s.setIntake l).mgt = s.mgt := by
  cases s; rfl
@[simp] theorem State.setIntake_mbx (s : State) (l : List FaultRecord) : (s.setIntake l).mbx = s.mbx := by
  cases s; rfl
@[simp] theorem State.setIntake_grn (s : State) (l : List FaultRecord) : (s.setIntake l).grn = s.grn := by
  cases s; rfl
@[simp] theorem State.setIntake_dram (s : State) (l : List FaultRecord) : (s.setIntake l).dram = s.dram := by
  cases s; rfl
@[simp] theorem State.setIntake_flash (s : State) (l : List FaultRecord) : (s.setIntake l).flash = s.flash := by
  cases s; rfl
@[simp] theorem State.setIntake_dge (s : State) (l : List FaultRecord) : (s.setIntake l).dge = s.dge := by
  cases s; rfl
@[simp] theorem State.setIntake_eng (s : State) (l : List FaultRecord) : (s.setIntake l).eng = s.eng := by
  cases s; rfl

/-! `State.pushRecord` -/

@[simp] theorem State.pushRecord_pending (s : State) (r : FaultRecord) : (s.pushRecord r).pending = s.pending := by
  cases s; rfl
@[simp] theorem State.pushRecord_now (s : State) (r : FaultRecord) : (s.pushRecord r).now = s.now := by
  cases s; rfl
@[simp] theorem State.pushRecord_freeCtr (s : State) (r : FaultRecord) : (s.pushRecord r).freeCtr = s.freeCtr := by
  cases s; rfl
@[simp] theorem State.pushRecord_out (s : State) (r : FaultRecord) : (s.pushRecord r).out = s.out := by
  cases s; rfl
@[simp] theorem State.pushRecord_regs (s : State) (r : FaultRecord) : (s.pushRecord r).regs = s.regs := by
  cases s; rfl
@[simp] theorem State.pushRecord_pwr (s : State) (r : FaultRecord) : (s.pushRecord r).pwr = s.pwr := by
  cases s; rfl
@[simp] theorem State.pushRecord_ft (s : State) (r : FaultRecord) : (s.pushRecord r).ft = s.ft := by
  cases s; rfl
@[simp] theorem State.pushRecord_cal (s : State) (r : FaultRecord) : (s.pushRecord r).cal = s.cal := by
  cases s; rfl
@[simp] theorem State.pushRecord_link (s : State) (r : FaultRecord) : (s.pushRecord r).link = s.link := by
  cases s; rfl
@[simp] theorem State.pushRecord_mgt (s : State) (r : FaultRecord) : (s.pushRecord r).mgt = s.mgt := by
  cases s; rfl
@[simp] theorem State.pushRecord_mbx (s : State) (r : FaultRecord) : (s.pushRecord r).mbx = s.mbx := by
  cases s; rfl
@[simp] theorem State.pushRecord_grn (s : State) (r : FaultRecord) : (s.pushRecord r).grn = s.grn := by
  cases s; rfl
@[simp] theorem State.pushRecord_dram (s : State) (r : FaultRecord) : (s.pushRecord r).dram = s.dram := by
  cases s; rfl
@[simp] theorem State.pushRecord_flash (s : State) (r : FaultRecord) : (s.pushRecord r).flash = s.flash := by
  cases s; rfl
@[simp] theorem State.pushRecord_dge (s : State) (r : FaultRecord) : (s.pushRecord r).dge = s.dge := by
  cases s; rfl
@[simp] theorem State.pushRecord_eng (s : State) (r : FaultRecord) : (s.pushRecord r).eng = s.eng := by
  cases s; rfl

/-! `State.closeIngress` -/

@[simp] theorem State.closeIngress_pending (s : State) : (s.closeIngress).pending = s.pending := by
  cases s; rfl
@[simp] theorem State.closeIngress_now (s : State) : (s.closeIngress).now = s.now := by
  cases s; rfl
@[simp] theorem State.closeIngress_freeCtr (s : State) : (s.closeIngress).freeCtr = s.freeCtr := by
  cases s; rfl
@[simp] theorem State.closeIngress_out (s : State) : (s.closeIngress).out = s.out := by
  cases s; rfl
@[simp] theorem State.closeIngress_regs (s : State) : (s.closeIngress).regs = s.regs := by
  cases s; rfl
@[simp] theorem State.closeIngress_pwr (s : State) : (s.closeIngress).pwr = s.pwr := by
  cases s; rfl
@[simp] theorem State.closeIngress_ft (s : State) : (s.closeIngress).ft = s.ft := by
  cases s; rfl
@[simp] theorem State.closeIngress_cal (s : State) : (s.closeIngress).cal = s.cal := by
  cases s; rfl
@[simp] theorem State.closeIngress_link (s : State) : (s.closeIngress).link = s.link := by
  cases s; rfl
@[simp] theorem State.closeIngress_hub (s : State) : (s.closeIngress).hub = s.hub := by
  cases s; rfl
@[simp] theorem State.closeIngress_mgt (s : State) : (s.closeIngress).mgt = s.mgt := by
  cases s; rfl
@[simp] theorem State.closeIngress_mbx (s : State) : (s.closeIngress).mbx = s.mbx := by
  cases s; rfl
@[simp] theorem State.closeIngress_dram (s : State) : (s.closeIngress).dram = s.dram := by
  cases s; rfl
@[simp] theorem State.closeIngress_flash (s : State) : (s.closeIngress).flash = s.flash := by
  cases s; rfl
@[simp] theorem State.closeIngress_dge (s : State) : (s.closeIngress).dge = s.dge := by
  cases s; rfl
@[simp] theorem State.closeIngress_eng (s : State) : (s.closeIngress).eng = s.eng := by
  cases s; rfl

/-! `State.addCxlEvent` -/

@[simp] theorem State.addCxlEvent_pending (s : State) (l n i : Nat) : (s.addCxlEvent l n i).pending = s.pending := by
  cases s; rfl
@[simp] theorem State.addCxlEvent_now (s : State) (l n i : Nat) : (s.addCxlEvent l n i).now = s.now := by
  cases s; rfl
@[simp] theorem State.addCxlEvent_freeCtr (s : State) (l n i : Nat) : (s.addCxlEvent l n i).freeCtr = s.freeCtr := by
  cases s; rfl
@[simp] theorem State.addCxlEvent_out (s : State) (l n i : Nat) : (s.addCxlEvent l n i).out = s.out := by
  cases s; rfl
@[simp] theorem State.addCxlEvent_regs (s : State) (l n i : Nat) : (s.addCxlEvent l n i).regs = s.regs := by
  cases s; rfl
@[simp] theorem State.addCxlEvent_pwr (s : State) (l n i : Nat) : (s.addCxlEvent l n i).pwr = s.pwr := by
  cases s; rfl
@[simp] theorem State.addCxlEvent_ft (s : State) (l n i : Nat) : (s.addCxlEvent l n i).ft = s.ft := by
  cases s; rfl
@[simp] theorem State.addCxlEvent_cal (s : State) (l n i : Nat) : (s.addCxlEvent l n i).cal = s.cal := by
  cases s; rfl
@[simp] theorem State.addCxlEvent_hub (s : State) (l n i : Nat) : (s.addCxlEvent l n i).hub = s.hub := by
  cases s; rfl
@[simp] theorem State.addCxlEvent_mgt (s : State) (l n i : Nat) : (s.addCxlEvent l n i).mgt = s.mgt := by
  cases s; rfl
@[simp] theorem State.addCxlEvent_mbx (s : State) (l n i : Nat) : (s.addCxlEvent l n i).mbx = s.mbx := by
  cases s; rfl
@[simp] theorem State.addCxlEvent_grn (s : State) (l n i : Nat) : (s.addCxlEvent l n i).grn = s.grn := by
  cases s; rfl
@[simp] theorem State.addCxlEvent_dram (s : State) (l n i : Nat) : (s.addCxlEvent l n i).dram = s.dram := by
  cases s; rfl
@[simp] theorem State.addCxlEvent_flash (s : State) (l n i : Nat) : (s.addCxlEvent l n i).flash = s.flash := by
  cases s; rfl
@[simp] theorem State.addCxlEvent_dge (s : State) (l n i : Nat) : (s.addCxlEvent l n i).dge = s.dge := by
  cases s; rfl
@[simp] theorem State.addCxlEvent_eng (s : State) (l n i : Nat) : (s.addCxlEvent l n i).eng = s.eng := by
  cases s; rfl

/-! `State.beginDump` -/

@[simp] theorem State.beginDump_pending (s : State) (c : Nat) (p : Bool) : (s.beginDump c p).pending = s.pending := by
  unfold State.beginDump; split <;> simp
@[simp] theorem State.beginDump_now (s : State) (c : Nat) (p : Bool) : (s.beginDump c p).now = s.now := by
  unfold State.beginDump; split <;> simp
@[simp] theorem State.beginDump_freeCtr (s : State) (c : Nat) (p : Bool) : (s.beginDump c p).freeCtr = s.freeCtr := by
  unfold State.beginDump; split <;> simp
@[simp] theorem State.beginDump_out (s : State) (c : Nat) (p : Bool) : (s.beginDump c p).out = s.out := by
  unfold State.beginDump; split <;> simp
@[simp] theorem State.beginDump_pwr (s : State) (c : Nat) (p : Bool) : (s.beginDump c p).pwr = s.pwr := by
  unfold State.beginDump; split <;> simp
@[simp] theorem State.beginDump_ft (s : State) (c : Nat) (p : Bool) : (s.beginDump c p).ft = s.ft := by
  unfold State.beginDump; split <;> simp
@[simp] theorem State.beginDump_cal (s : State) (c : Nat) (p : Bool) : (s.beginDump c p).cal = s.cal := by
  unfold State.beginDump; split <;> simp
@[simp] theorem State.beginDump_link (s : State) (c : Nat) (p : Bool) : (s.beginDump c p).link = s.link := by
  unfold State.beginDump; split <;> simp
@[simp] theorem State.beginDump_hub (s : State) (c : Nat) (p : Bool) : (s.beginDump c p).hub = s.hub := by
  unfold State.beginDump; split <;> simp
@[simp] theorem State.beginDump_mgt (s : State) (c : Nat) (p : Bool) : (s.beginDump c p).mgt = s.mgt := by
  unfold State.beginDump; split <;> simp
@[simp] theorem State.beginDump_mbx (s : State) (c : Nat) (p : Bool) : (s.beginDump c p).mbx = s.mbx := by
  unfold State.beginDump; split <;> simp
@[simp] theorem State.beginDump_dram (s : State) (c : Nat) (p : Bool) : (s.beginDump c p).dram = s.dram := by
  unfold State.beginDump; split <;> simp
@[simp] theorem State.beginDump_flash (s : State) (c : Nat) (p : Bool) : (s.beginDump c p).flash = s.flash := by
  unfold State.beginDump; split <;> simp
@[simp] theorem State.beginDump_dge (s : State) (c : Nat) (p : Bool) : (s.beginDump c p).dge = s.dge := by
  unfold State.beginDump; split <;> simp
@[simp] theorem State.beginDump_eng (s : State) (c : Nat) (p : Bool) : (s.beginDump c p).eng = s.eng := by
  unfold State.beginDump; split <;> simp

/-! `State.requestDump` -/

@[simp] theorem State.requestDump_pending (s : State) (n : Nat) : ((s.requestDump n).2).pending = s.pending := by
  unfold State.requestDump; split <;> simp
@[simp] theorem State.requestDump_now (s : State) (n : Nat) : ((s.requestDump n).2).now = s.now := by
  unfold State.requestDump; split <;> simp
@[simp] theorem State.requestDump_freeCtr (s : State) (n : Nat) : ((s.requestDump n).2).freeCtr = s.freeCtr := by
  unfold State.requestDump; split <;> simp
@[simp] theorem State.requestDump_out (s : State) (n : Nat) : ((s.requestDump n).2).out = s.out := by
  unfold State.requestDump; split <;> simp
@[simp] theorem State.requestDump_pwr (s : State) (n : Nat) : ((s.requestDump n).2).pwr = s.pwr := by
  unfold State.requestDump; split <;> simp
@[simp] theorem State.requestDump_ft (s : State) (n : Nat) : ((s.requestDump n).2).ft = s.ft := by
  unfold State.requestDump; split <;> simp
@[simp] theorem State.requestDump_cal (s : State) (n : Nat) : ((s.requestDump n).2).cal = s.cal := by
  unfold State.requestDump; split <;> simp
@[simp] theorem State.requestDump_link (s : State) (n : Nat) : ((s.requestDump n).2).link = s.link := by
  unfold State.requestDump; split <;> simp
@[simp] theorem State.requestDump_hub (s : State) (n : Nat) : ((s.requestDump n).2).hub = s.hub := by
  unfold State.requestDump; split <;> simp
@[simp] theorem State.requestDump_mgt (s : State) (n : Nat) : ((s.requestDump n).2).mgt = s.mgt := by
  unfold State.requestDump; split <;> simp
@[simp] theorem State.requestDump_mbx (s : State) (n : Nat) : ((s.requestDump n).2).mbx = s.mbx := by
  unfold State.requestDump; split <;> simp
@[simp] theorem State.requestDump_dram (s : State) (n : Nat) : ((s.requestDump n).2).dram = s.dram := by
  unfold State.requestDump; split <;> simp
@[simp] theorem State.requestDump_flash (s : State) (n : Nat) : ((s.requestDump n).2).flash = s.flash := by
  unfold State.requestDump; split <;> simp
@[simp] theorem State.requestDump_dge (s : State) (n : Nat) : ((s.requestDump n).2).dge = s.dge := by
  unfold State.requestDump; split <;> simp
@[simp] theorem State.requestDump_eng (s : State) (n : Nat) : ((s.requestDump n).2).eng = s.eng := by
  unfold State.requestDump; split <;> simp

/-! `State.requestChipReset` -/

@[simp] theorem State.requestChipReset_pending (s : State) (r : ResetReq) : (s.requestChipReset r).pending = s.pending := by
  unfold State.requestChipReset; split_ifs <;> rfl
@[simp] theorem State.requestChipReset_now (s : State) (r : ResetReq) : (s.requestChipReset r).now = s.now := by
  unfold State.requestChipReset; split_ifs <;> rfl
@[simp] theorem State.requestChipReset_freeCtr (s : State) (r : ResetReq) : (s.requestChipReset r).freeCtr = s.freeCtr := by
  unfold State.requestChipReset; split_ifs <;> rfl
@[simp] theorem State.requestChipReset_out (s : State) (r : ResetReq) : (s.requestChipReset r).out = s.out := by
  unfold State.requestChipReset; split_ifs <;> rfl
@[simp] theorem State.requestChipReset_regs (s : State) (r : ResetReq) : (s.requestChipReset r).regs = s.regs := by
  unfold State.requestChipReset; split_ifs <;> rfl
@[simp] theorem State.requestChipReset_ft (s : State) (r : ResetReq) : (s.requestChipReset r).ft = s.ft := by
  unfold State.requestChipReset; split_ifs <;> rfl
@[simp] theorem State.requestChipReset_cal (s : State) (r : ResetReq) : (s.requestChipReset r).cal = s.cal := by
  unfold State.requestChipReset; split_ifs <;> rfl
@[simp] theorem State.requestChipReset_link (s : State) (r : ResetReq) : (s.requestChipReset r).link = s.link := by
  unfold State.requestChipReset; split_ifs <;> rfl
@[simp] theorem State.requestChipReset_hub (s : State) (r : ResetReq) : (s.requestChipReset r).hub = s.hub := by
  unfold State.requestChipReset; split_ifs <;> rfl
@[simp] theorem State.requestChipReset_mgt (s : State) (r : ResetReq) : (s.requestChipReset r).mgt = s.mgt := by
  unfold State.requestChipReset; split_ifs <;> rfl
@[simp] theorem State.requestChipReset_mbx (s : State) (r : ResetReq) : (s.requestChipReset r).mbx = s.mbx := by
  unfold State.requestChipReset; split_ifs <;> rfl
@[simp] theorem State.requestChipReset_grn (s : State) (r : ResetReq) : (s.requestChipReset r).grn = s.grn := by
  unfold State.requestChipReset; split_ifs <;> rfl
@[simp] theorem State.requestChipReset_dram (s : State) (r : ResetReq) : (s.requestChipReset r).dram = s.dram := by
  unfold State.requestChipReset; split_ifs <;> rfl
@[simp] theorem State.requestChipReset_flash (s : State) (r : ResetReq) : (s.requestChipReset r).flash = s.flash := by
  unfold State.requestChipReset; split_ifs <;> rfl
@[simp] theorem State.requestChipReset_dge (s : State) (r : ResetReq) : (s.requestChipReset r).dge = s.dge := by
  unfold State.requestChipReset; split_ifs <;> rfl
@[simp] theorem State.requestChipReset_eng (s : State) (r : ResetReq) : (s.requestChipReset r).eng = s.eng := by
  unfold State.requestChipReset; split_ifs <;> rfl

/-! `State.bumpQuiet` -/

@[simp] theorem State.bumpQuiet_pending (s : State) (c : Counter) (n : Nat) : ((s.bumpQuiet c n).2).pending = s.pending := by
  unfold State.bumpQuiet; split_ifs <;> simp
@[simp] theorem State.bumpQuiet_now (s : State) (c : Counter) (n : Nat) : ((s.bumpQuiet c n).2).now = s.now := by
  unfold State.bumpQuiet; split_ifs <;> simp
@[simp] theorem State.bumpQuiet_freeCtr (s : State) (c : Counter) (n : Nat) : ((s.bumpQuiet c n).2).freeCtr = s.freeCtr := by
  unfold State.bumpQuiet; split_ifs <;> simp
@[simp] theorem State.bumpQuiet_out (s : State) (c : Counter) (n : Nat) : ((s.bumpQuiet c n).2).out = s.out := by
  unfold State.bumpQuiet; split_ifs <;> simp
@[simp] theorem State.bumpQuiet_pwr (s : State) (c : Counter) (n : Nat) : ((s.bumpQuiet c n).2).pwr = s.pwr := by
  unfold State.bumpQuiet; split_ifs <;> simp
@[simp] theorem State.bumpQuiet_ft (s : State) (c : Counter) (n : Nat) : ((s.bumpQuiet c n).2).ft = s.ft := by
  unfold State.bumpQuiet; split_ifs <;> simp
@[simp] theorem State.bumpQuiet_cal (s : State) (c : Counter) (n : Nat) : ((s.bumpQuiet c n).2).cal = s.cal := by
  unfold State.bumpQuiet; split_ifs <;> simp
@[simp] theorem State.bumpQuiet_link (s : State) (c : Counter) (n : Nat) : ((s.bumpQuiet c n).2).link = s.link := by
  unfold State.bumpQuiet; split_ifs <;> simp
@[simp] theorem State.bumpQuiet_hub (s : State) (c : Counter) (n : Nat) : ((s.bumpQuiet c n).2).hub = s.hub := by
  unfold State.bumpQuiet; split_ifs <;> simp
@[simp] theorem State.bumpQuiet_mgt (s : State) (c : Counter) (n : Nat) : ((s.bumpQuiet c n).2).mgt = s.mgt := by
  unfold State.bumpQuiet; split_ifs <;> simp
@[simp] theorem State.bumpQuiet_mbx (s : State) (c : Counter) (n : Nat) : ((s.bumpQuiet c n).2).mbx = s.mbx := by
  unfold State.bumpQuiet; split_ifs <;> simp
@[simp] theorem State.bumpQuiet_grn (s : State) (c : Counter) (n : Nat) : ((s.bumpQuiet c n).2).grn = s.grn := by
  unfold State.bumpQuiet; split_ifs <;> simp
@[simp] theorem State.bumpQuiet_dram (s : State) (c : Counter) (n : Nat) : ((s.bumpQuiet c n).2).dram = s.dram := by
  unfold State.bumpQuiet; split_ifs <;> simp
@[simp] theorem State.bumpQuiet_flash (s : State) (c : Counter) (n : Nat) : ((s.bumpQuiet c n).2).flash = s.flash := by
  unfold State.bumpQuiet; split_ifs <;> simp
@[simp] theorem State.bumpQuiet_dge (s : State) (c : Counter) (n : Nat) : ((s.bumpQuiet c n).2).dge = s.dge := by
  unfold State.bumpQuiet; split_ifs <;> simp
@[simp] theorem State.bumpQuiet_eng (s : State) (c : Counter) (n : Nat) : ((s.bumpQuiet c n).2).eng = s.eng := by
  unfold State.bumpQuiet; split_ifs <;> simp

/-! `State.writeHistory` -/

@[simp] theorem State.writeHistory_pending (s : State) (i : Nat) (r : FaultRecord) : (s.writeHistory i r).pending = s.pending := by
  simp [State.writeHistory]
@[simp] theorem State.writeHistory_now (s : State) (i : Nat) (r : FaultRecord) : (s.writeHistory i r).now = s.now := by
  simp [State.writeHistory]
@[simp] theorem State.writeHistory_freeCtr (s : State) (i : Nat) (r : FaultRecord) : (s.writeHistory i r).freeCtr = s.freeCtr := by
  simp [State.writeHistory]
@[simp] theorem State.writeHistory_out (s : State) (i : Nat) (r : FaultRecord) : (s.writeHistory i r).out = s.out := by
  simp [State.writeHistory]
@[simp] theorem State.writeHistory_pwr (s : State) (i : Nat) (r : FaultRecord) : (s.writeHistory i r).pwr = s.pwr := by
  simp [State.writeHistory]
@[simp] theorem State.writeHistory_ft (s : State) (i : Nat) (r : FaultRecord) : (s.writeHistory i r).ft = s.ft := by
  simp [State.writeHistory]
@[simp] theorem State.writeHistory_cal (s : State) (i : Nat) (r : FaultRecord) : (s.writeHistory i r).cal = s.cal := by
  simp [State.writeHistory]
@[simp] theorem State.writeHistory_link (s : State) (i : Nat) (r : FaultRecord) : (s.writeHistory i r).link = s.link := by
  simp [State.writeHistory]
@[simp] theorem State.writeHistory_hub (s : State) (i : Nat) (r : FaultRecord) : (s.writeHistory i r).hub = s.hub := by
  simp [State.writeHistory]
@[simp] theorem State.writeHistory_mgt (s : State) (i : Nat) (r : FaultRecord) : (s.writeHistory i r).mgt = s.mgt := by
  simp [State.writeHistory]
@[simp] theorem State.writeHistory_mbx (s : State) (i : Nat) (r : FaultRecord) : (s.writeHistory i r).mbx = s.mbx := by
  simp [State.writeHistory]
@[simp] theorem State.writeHistory_grn (s : State) (i : Nat) (r : FaultRecord) : (s.writeHistory i r).grn = s.grn := by
  simp [State.writeHistory]
@[simp] theorem State.writeHistory_dram (s : State) (i : Nat) (r : FaultRecord) : (s.writeHistory i r).dram = s.dram := by
  simp [State.writeHistory]
@[simp] theorem State.writeHistory_flash (s : State) (i : Nat) (r : FaultRecord) : (s.writeHistory i r).flash = s.flash := by
  simp [State.writeHistory]
@[simp] theorem State.writeHistory_dge (s : State) (i : Nat) (r : FaultRecord) : (s.writeHistory i r).dge = s.dge := by
  simp [State.writeHistory]
@[simp] theorem State.writeHistory_eng (s : State) (i : Nat) (r : FaultRecord) : (s.writeHistory i r).eng = s.eng := by
  simp [State.writeHistory]

/-! `State.enterHistory` -/

@[simp] theorem State.enterHistory_pending (s : State) : (s.enterHistory).pending = s.pending := by
  unfold State.enterHistory; split <;> simp
@[simp] theorem State.enterHistory_now (s : State) : (s.enterHistory).now = s.now := by
  unfold State.enterHistory; split <;> simp
@[simp] theorem State.enterHistory_freeCtr (s : State) : (s.enterHistory).freeCtr = s.freeCtr := by
  unfold State.enterHistory; split <;> simp
@[simp] theorem State.enterHistory_out (s : State) : (s.enterHistory).out = s.out := by
  unfold State.enterHistory; split <;> simp
@[simp] theorem State.enterHistory_pwr (s : State) : (s.enterHistory).pwr = s.pwr := by
  unfold State.enterHistory; split <;> simp
@[simp] theorem State.enterHistory_ft (s : State) : (s.enterHistory).ft = s.ft := by
  unfold State.enterHistory; split <;> simp
@[simp] theorem State.enterHistory_cal (s : State) : (s.enterHistory).cal = s.cal := by
  unfold State.enterHistory; split <;> simp
@[simp] theorem State.enterHistory_link (s : State) : (s.enterHistory).link = s.link := by
  unfold State.enterHistory; split <;> simp
@[simp] theorem State.enterHistory_mgt (s : State) : (s.enterHistory).mgt = s.mgt := by
  unfold State.enterHistory; split <;> simp
@[simp] theorem State.enterHistory_mbx (s : State) : (s.enterHistory).mbx = s.mbx := by
  unfold State.enterHistory; split <;> simp
@[simp] theorem State.enterHistory_grn (s : State) : (s.enterHistory).grn = s.grn := by
  unfold State.enterHistory; split <;> simp
@[simp] theorem State.enterHistory_dram (s : State) : (s.enterHistory).dram = s.dram := by
  unfold State.enterHistory; split <;> simp
@[simp] theorem State.enterHistory_flash (s : State) : (s.enterHistory).flash = s.flash := by
  unfold State.enterHistory; split <;> simp
@[simp] theorem State.enterHistory_dge (s : State) : (s.enterHistory).dge = s.dge := by
  unfold State.enterHistory; split <;> simp
@[simp] theorem State.enterHistory_eng (s : State) : (s.enterHistory).eng = s.eng := by
  unfold State.enterHistory; split <;> simp

/-! `State.makeRoom` -/

@[simp] theorem State.makeRoom_pending (s : State) : (s.makeRoom).pending = s.pending := by
  unfold State.makeRoom; split <;> simp
@[simp] theorem State.makeRoom_now (s : State) : (s.makeRoom).now = s.now := by
  unfold State.makeRoom; split <;> simp
@[simp] theorem State.makeRoom_freeCtr (s : State) : (s.makeRoom).freeCtr = s.freeCtr := by
  unfold State.makeRoom; split <;> simp
@[simp] theorem State.makeRoom_out (s : State) : (s.makeRoom).out = s.out := by
  unfold State.makeRoom; split <;> simp
@[simp] theorem State.makeRoom_pwr (s : State) : (s.makeRoom).pwr = s.pwr := by
  unfold State.makeRoom; split <;> simp
@[simp] theorem State.makeRoom_ft (s : State) : (s.makeRoom).ft = s.ft := by
  unfold State.makeRoom; split <;> simp
@[simp] theorem State.makeRoom_cal (s : State) : (s.makeRoom).cal = s.cal := by
  unfold State.makeRoom; split <;> simp
@[simp] theorem State.makeRoom_link (s : State) : (s.makeRoom).link = s.link := by
  unfold State.makeRoom; split <;> simp
@[simp] theorem State.makeRoom_mgt (s : State) : (s.makeRoom).mgt = s.mgt := by
  unfold State.makeRoom; split <;> simp
@[simp] theorem State.makeRoom_mbx (s : State) : (s.makeRoom).mbx = s.mbx := by
  unfold State.makeRoom; split <;> simp
@[simp] theorem State.makeRoom_grn (s : State) : (s.makeRoom).grn = s.grn := by
  unfold State.makeRoom; split <;> simp
@[simp] theorem State.makeRoom_dram (s : State) : (s.makeRoom).dram = s.dram := by
  unfold State.makeRoom; split <;> simp
@[simp] theorem State.makeRoom_flash (s : State) : (s.makeRoom).flash = s.flash := by
  unfold State.makeRoom; split <;> simp
@[simp] theorem State.makeRoom_dge (s : State) : (s.makeRoom).dge = s.dge := by
  unfold State.makeRoom; split <;> simp
@[simp] theorem State.makeRoom_eng (s : State) : (s.makeRoom).eng = s.eng := by
  unfold State.makeRoom; split <;> simp

/-! `State.skipRecord` -/

@[simp] theorem State.skipRecord_pending (s : State) : (s.skipRecord).pending = s.pending := by
  simp [State.skipRecord]
@[simp] theorem State.skipRecord_now (s : State) : (s.skipRecord).now = s.now := by
  simp [State.skipRecord]
@[simp] theorem State.skipRecord_freeCtr (s : State) : (s.skipRecord).freeCtr = s.freeCtr := by
  simp [State.skipRecord]
@[simp] theorem State.skipRecord_out (s : State) : (s.skipRecord).out = s.out := by
  simp [State.skipRecord]
@[simp] theorem State.skipRecord_pwr (s : State) : (s.skipRecord).pwr = s.pwr := by
  simp [State.skipRecord]
@[simp] theorem State.skipRecord_ft (s : State) : (s.skipRecord).ft = s.ft := by
  simp [State.skipRecord]
@[simp] theorem State.skipRecord_cal (s : State) : (s.skipRecord).cal = s.cal := by
  simp [State.skipRecord]
@[simp] theorem State.skipRecord_link (s : State) : (s.skipRecord).link = s.link := by
  simp [State.skipRecord]
@[simp] theorem State.skipRecord_mgt (s : State) : (s.skipRecord).mgt = s.mgt := by
  simp [State.skipRecord]
@[simp] theorem State.skipRecord_mbx (s : State) : (s.skipRecord).mbx = s.mbx := by
  simp [State.skipRecord]
@[simp] theorem State.skipRecord_grn (s : State) : (s.skipRecord).grn = s.grn := by
  simp [State.skipRecord]
@[simp] theorem State.skipRecord_dram (s : State) : (s.skipRecord).dram = s.dram := by
  simp [State.skipRecord]
@[simp] theorem State.skipRecord_flash (s : State) : (s.skipRecord).flash = s.flash := by
  simp [State.skipRecord]
@[simp] theorem State.skipRecord_dge (s : State) : (s.skipRecord).dge = s.dge := by
  simp [State.skipRecord]
@[simp] theorem State.skipRecord_eng (s : State) : (s.skipRecord).eng = s.eng := by
  simp [State.skipRecord]

/-! `State.takeRecord` -/

@[simp] theorem State.takeRecord_pending (s : State) (r : FaultRecord) (b : Bool) : (s.takeRecord r b).pending = s.pending := by
  unfold State.takeRecord; split <;> simp
@[simp] theorem State.takeRecord_now (s : State) (r : FaultRecord) (b : Bool) : (s.takeRecord r b).now = s.now := by
  unfold State.takeRecord; split <;> simp
@[simp] theorem State.takeRecord_freeCtr (s : State) (r : FaultRecord) (b : Bool) : (s.takeRecord r b).freeCtr = s.freeCtr := by
  unfold State.takeRecord; split <;> simp
@[simp] theorem State.takeRecord_out (s : State) (r : FaultRecord) (b : Bool) : (s.takeRecord r b).out = s.out := by
  unfold State.takeRecord; split <;> simp
@[simp] theorem State.takeRecord_pwr (s : State) (r : FaultRecord) (b : Bool) : (s.takeRecord r b).pwr = s.pwr := by
  unfold State.takeRecord; split <;> simp
@[simp] theorem State.takeRecord_ft (s : State) (r : FaultRecord) (b : Bool) : (s.takeRecord r b).ft = s.ft := by
  unfold State.takeRecord; split <;> simp
@[simp] theorem State.takeRecord_cal (s : State) (r : FaultRecord) (b : Bool) : (s.takeRecord r b).cal = s.cal := by
  unfold State.takeRecord; split <;> simp
@[simp] theorem State.takeRecord_link (s : State) (r : FaultRecord) (b : Bool) : (s.takeRecord r b).link = s.link := by
  unfold State.takeRecord; split <;> simp
@[simp] theorem State.takeRecord_mgt (s : State) (r : FaultRecord) (b : Bool) : (s.takeRecord r b).mgt = s.mgt := by
  unfold State.takeRecord; split <;> simp
@[simp] theorem State.takeRecord_mbx (s : State) (r : FaultRecord) (b : Bool) : (s.takeRecord r b).mbx = s.mbx := by
  unfold State.takeRecord; split <;> simp
@[simp] theorem State.takeRecord_grn (s : State) (r : FaultRecord) (b : Bool) : (s.takeRecord r b).grn = s.grn := by
  unfold State.takeRecord; split <;> simp
@[simp] theorem State.takeRecord_dram (s : State) (r : FaultRecord) (b : Bool) : (s.takeRecord r b).dram = s.dram := by
  unfold State.takeRecord; split <;> simp
@[simp] theorem State.takeRecord_flash (s : State) (r : FaultRecord) (b : Bool) : (s.takeRecord r b).flash = s.flash := by
  unfold State.takeRecord; split <;> simp
@[simp] theorem State.takeRecord_dge (s : State) (r : FaultRecord) (b : Bool) : (s.takeRecord r b).dge = s.dge := by
  unfold State.takeRecord; split <;> simp
@[simp] theorem State.takeRecord_eng (s : State) (r : FaultRecord) (b : Bool) : (s.takeRecord r b).eng = s.eng := by
  unfold State.takeRecord; split <;> simp

/-! `State.markSource` -/

@[simp] theorem State.markSource_pending (s : State) (i : SourceInfo) (n : Nat) : (s.markSource i n).pending = s.pending := by
  unfold State.markSource; split <;> simp
@[simp] theorem State.markSource_now (s : State) (i : SourceInfo) (n : Nat) : (s.markSource i n).now = s.now := by
  unfold State.markSource; split <;> simp
@[simp] theorem State.markSource_freeCtr (s : State) (i : SourceInfo) (n : Nat) : (s.markSource i n).freeCtr = s.freeCtr := by
  unfold State.markSource; split <;> simp
@[simp] theorem State.markSource_out (s : State) (i : SourceInfo) (n : Nat) : (s.markSource i n).out = s.out := by
  unfold State.markSource; split <;> simp
@[simp] theorem State.markSource_pwr (s : State) (i : SourceInfo) (n : Nat) : (s.markSource i n).pwr = s.pwr := by
  unfold State.markSource; split <;> simp
@[simp] theorem State.markSource_ft (s : State) (i : SourceInfo) (n : Nat) : (s.markSource i n).ft = s.ft := by
  unfold State.markSource; split <;> simp
@[simp] theorem State.markSource_cal (s : State) (i : SourceInfo) (n : Nat) : (s.markSource i n).cal = s.cal := by
  unfold State.markSource; split <;> simp
@[simp] theorem State.markSource_link (s : State) (i : SourceInfo) (n : Nat) : (s.markSource i n).link = s.link := by
  unfold State.markSource; split <;> simp
@[simp] theorem State.markSource_hub (s : State) (i : SourceInfo) (n : Nat) : (s.markSource i n).hub = s.hub := by
  unfold State.markSource; split <;> simp
@[simp] theorem State.markSource_mgt (s : State) (i : SourceInfo) (n : Nat) : (s.markSource i n).mgt = s.mgt := by
  unfold State.markSource; split <;> simp
@[simp] theorem State.markSource_mbx (s : State) (i : SourceInfo) (n : Nat) : (s.markSource i n).mbx = s.mbx := by
  unfold State.markSource; split <;> simp
@[simp] theorem State.markSource_grn (s : State) (i : SourceInfo) (n : Nat) : (s.markSource i n).grn = s.grn := by
  unfold State.markSource; split <;> simp
@[simp] theorem State.markSource_dram (s : State) (i : SourceInfo) (n : Nat) : (s.markSource i n).dram = s.dram := by
  unfold State.markSource; split <;> simp
@[simp] theorem State.markSource_flash (s : State) (i : SourceInfo) (n : Nat) : (s.markSource i n).flash = s.flash := by
  unfold State.markSource; split <;> simp
@[simp] theorem State.markSource_dge (s : State) (i : SourceInfo) (n : Nat) : (s.markSource i n).dge = s.dge := by
  unfold State.markSource; split <;> simp
@[simp] theorem State.markSource_eng (s : State) (i : SourceInfo) (n : Nat) : (s.markSource i n).eng = s.eng := by
  unfold State.markSource; split <;> simp

/-! `State.captureSevere` -/

@[simp] theorem State.captureSevere_pending (s : State) (b : Bool) (r : FaultRecord) : (s.captureSevere b r).pending = s.pending := by
  unfold State.captureSevere; split <;> simp
@[simp] theorem State.captureSevere_now (s : State) (b : Bool) (r : FaultRecord) : (s.captureSevere b r).now = s.now := by
  unfold State.captureSevere; split <;> simp
@[simp] theorem State.captureSevere_freeCtr (s : State) (b : Bool) (r : FaultRecord) : (s.captureSevere b r).freeCtr = s.freeCtr := by
  unfold State.captureSevere; split <;> simp
@[simp] theorem State.captureSevere_out (s : State) (b : Bool) (r : FaultRecord) : (s.captureSevere b r).out = s.out := by
  unfold State.captureSevere; split <;> simp
@[simp] theorem State.captureSevere_pwr (s : State) (b : Bool) (r : FaultRecord) : (s.captureSevere b r).pwr = s.pwr := by
  unfold State.captureSevere; split <;> simp
@[simp] theorem State.captureSevere_ft (s : State) (b : Bool) (r : FaultRecord) : (s.captureSevere b r).ft = s.ft := by
  unfold State.captureSevere; split <;> simp
@[simp] theorem State.captureSevere_cal (s : State) (b : Bool) (r : FaultRecord) : (s.captureSevere b r).cal = s.cal := by
  unfold State.captureSevere; split <;> simp
@[simp] theorem State.captureSevere_link (s : State) (b : Bool) (r : FaultRecord) : (s.captureSevere b r).link = s.link := by
  unfold State.captureSevere; split <;> simp
@[simp] theorem State.captureSevere_hub (s : State) (b : Bool) (r : FaultRecord) : (s.captureSevere b r).hub = s.hub := by
  unfold State.captureSevere; split <;> simp
@[simp] theorem State.captureSevere_mgt (s : State) (b : Bool) (r : FaultRecord) : (s.captureSevere b r).mgt = s.mgt := by
  unfold State.captureSevere; split <;> simp
@[simp] theorem State.captureSevere_mbx (s : State) (b : Bool) (r : FaultRecord) : (s.captureSevere b r).mbx = s.mbx := by
  unfold State.captureSevere; split <;> simp
@[simp] theorem State.captureSevere_grn (s : State) (b : Bool) (r : FaultRecord) : (s.captureSevere b r).grn = s.grn := by
  unfold State.captureSevere; split <;> simp
@[simp] theorem State.captureSevere_dram (s : State) (b : Bool) (r : FaultRecord) : (s.captureSevere b r).dram = s.dram := by
  unfold State.captureSevere; split <;> simp
@[simp] theorem State.captureSevere_flash (s : State) (b : Bool) (r : FaultRecord) : (s.captureSevere b r).flash = s.flash := by
  unfold State.captureSevere; split <;> simp
@[simp] theorem State.captureSevere_dge (s : State) (b : Bool) (r : FaultRecord) : (s.captureSevere b r).dge = s.dge := by
  unfold State.captureSevere; split <;> simp
@[simp] theorem State.captureSevere_eng (s : State) (b : Bool) (r : FaultRecord) : (s.captureSevere b r).eng = s.eng := by
  unfold State.captureSevere; split <;> simp

/-! `State.captureEvent` -/

@[simp] theorem State.captureEvent_pending (s : State) (i : SourceInfo) (n inst word : Nat) (b : Bool) : (s.captureEvent i n inst word b).pending = s.pending := by
  simp [State.captureEvent]
@[simp] theorem State.captureEvent_now (s : State) (i : SourceInfo) (n inst word : Nat) (b : Bool) : (s.captureEvent i n inst word b).now = s.now := by
  simp [State.captureEvent]
@[simp] theorem State.captureEvent_freeCtr (s : State) (i : SourceInfo) (n inst word : Nat) (b : Bool) : (s.captureEvent i n inst word b).freeCtr = s.freeCtr := by
  simp [State.captureEvent]
@[simp] theorem State.captureEvent_out (s : State) (i : SourceInfo) (n inst word : Nat) (b : Bool) : (s.captureEvent i n inst word b).out = s.out := by
  simp [State.captureEvent]
@[simp] theorem State.captureEvent_pwr (s : State) (i : SourceInfo) (n inst word : Nat) (b : Bool) : (s.captureEvent i n inst word b).pwr = s.pwr := by
  simp [State.captureEvent]
@[simp] theorem State.captureEvent_ft (s : State) (i : SourceInfo) (n inst word : Nat) (b : Bool) : (s.captureEvent i n inst word b).ft = s.ft := by
  simp [State.captureEvent]
@[simp] theorem State.captureEvent_cal (s : State) (i : SourceInfo) (n inst word : Nat) (b : Bool) : (s.captureEvent i n inst word b).cal = s.cal := by
  simp [State.captureEvent]
@[simp] theorem State.captureEvent_link (s : State) (i : SourceInfo) (n inst word : Nat) (b : Bool) : (s.captureEvent i n inst word b).link = s.link := by
  simp [State.captureEvent]
@[simp] theorem State.captureEvent_mgt (s : State) (i : SourceInfo) (n inst word : Nat) (b : Bool) : (s.captureEvent i n inst word b).mgt = s.mgt := by
  simp [State.captureEvent]
@[simp] theorem State.captureEvent_mbx (s : State) (i : SourceInfo) (n inst word : Nat) (b : Bool) : (s.captureEvent i n inst word b).mbx = s.mbx := by
  simp [State.captureEvent]
@[simp] theorem State.captureEvent_grn (s : State) (i : SourceInfo) (n inst word : Nat) (b : Bool) : (s.captureEvent i n inst word b).grn = s.grn := by
  simp [State.captureEvent]
@[simp] theorem State.captureEvent_dram (s : State) (i : SourceInfo) (n inst word : Nat) (b : Bool) : (s.captureEvent i n inst word b).dram = s.dram := by
  simp [State.captureEvent]
@[simp] theorem State.captureEvent_flash (s : State) (i : SourceInfo) (n inst word : Nat) (b : Bool) : (s.captureEvent i n inst word b).flash = s.flash := by
  simp [State.captureEvent]
@[simp] theorem State.captureEvent_dge (s : State) (i : SourceInfo) (n inst word : Nat) (b : Bool) : (s.captureEvent i n inst word b).dge = s.dge := by
  simp [State.captureEvent]
@[simp] theorem State.captureEvent_eng (s : State) (i : SourceInfo) (n inst word : Nat) (b : Bool) : (s.captureEvent i n inst word b).eng = s.eng := by
  simp [State.captureEvent]

/-! `State.setCore` -/

@[simp] theorem State.setCore_pending (s : State) (c : Nat) (x : CoreState) : (s.setCore c x).pending = s.pending := by
  unfold State.setCore; split <;> rfl
@[simp] theorem State.setCore_now (s : State) (c : Nat) (x : CoreState) : (s.setCore c x).now = s.now := by
  unfold State.setCore; split <;> rfl
@[simp] theorem State.setCore_freeCtr (s : State) (c : Nat) (x : CoreState) : (s.setCore c x).freeCtr = s.freeCtr := by
  unfold State.setCore; split <;> rfl
@[simp] theorem State.setCore_out (s : State) (c : Nat) (x : CoreState) : (s.setCore c x).out = s.out := by
  unfold State.setCore; split <;> rfl
@[simp] theorem State.setCore_regs (s : State) (c : Nat) (x : CoreState) : (s.setCore c x).regs = s.regs := by
  unfold State.setCore; split <;> rfl
@[simp] theorem State.setCore_pwr (s : State) (c : Nat) (x : CoreState) : (s.setCore c x).pwr = s.pwr := by
  unfold State.setCore; split <;> rfl
@[simp] theorem State.setCore_ft (s : State) (c : Nat) (x : CoreState) : (s.setCore c x).ft = s.ft := by
  unfold State.setCore; split <;> rfl
@[simp] theorem State.setCore_cal (s : State) (c : Nat) (x : CoreState) : (s.setCore c x).cal = s.cal := by
  unfold State.setCore; split <;> rfl
@[simp] theorem State.setCore_link (s : State) (c : Nat) (x : CoreState) : (s.setCore c x).link = s.link := by
  unfold State.setCore; split <;> rfl
@[simp] theorem State.setCore_mgt (s : State) (c : Nat) (x : CoreState) : (s.setCore c x).mgt = s.mgt := by
  unfold State.setCore; split <;> rfl
@[simp] theorem State.setCore_mbx (s : State) (c : Nat) (x : CoreState) : (s.setCore c x).mbx = s.mbx := by
  unfold State.setCore; split <;> rfl
@[simp] theorem State.setCore_grn (s : State) (c : Nat) (x : CoreState) : (s.setCore c x).grn = s.grn := by
  unfold State.setCore; split <;> rfl
@[simp] theorem State.setCore_dram (s : State) (c : Nat) (x : CoreState) : (s.setCore c x).dram = s.dram := by
  unfold State.setCore; split <;> rfl
@[simp] theorem State.setCore_flash (s : State) (c : Nat) (x : CoreState) : (s.setCore c x).flash = s.flash := by
  unfold State.setCore; split <;> rfl
@[simp] theorem State.setCore_dge (s : State) (c : Nat) (x : CoreState) : (s.setCore c x).dge = s.dge := by
  unfold State.setCore; split <;> rfl
@[simp] theorem State.setCore_eng (s : State) (c : Nat) (x : CoreState) : (s.setCore c x).eng = s.eng := by
  unfold State.setCore; split <;> rfl

/-! `State.trap` -/

@[simp] theorem State.trap_pending (s : State) (n inst : Nat) : (s.trap n inst).pending = s.pending := by
  unfold State.trap; split
  · rfl
  · dsimp only; split <;> simp
@[simp] theorem State.trap_now (s : State) (n inst : Nat) : (s.trap n inst).now = s.now := by
  unfold State.trap; split
  · rfl
  · dsimp only; split <;> simp
@[simp] theorem State.trap_freeCtr (s : State) (n inst : Nat) : (s.trap n inst).freeCtr = s.freeCtr := by
  unfold State.trap; split
  · rfl
  · dsimp only; split <;> simp
@[simp] theorem State.trap_regs (s : State) (n inst : Nat) : (s.trap n inst).regs = s.regs := by
  unfold State.trap; split
  · rfl
  · dsimp only; split <;> simp
@[simp] theorem State.trap_pwr (s : State) (n inst : Nat) : (s.trap n inst).pwr = s.pwr := by
  unfold State.trap; split
  · rfl
  · dsimp only; split <;> simp
@[simp] theorem State.trap_ft (s : State) (n inst : Nat) : (s.trap n inst).ft = s.ft := by
  unfold State.trap; split
  · rfl
  · dsimp only; split <;> simp
@[simp] theorem State.trap_cal (s : State) (n inst : Nat) : (s.trap n inst).cal = s.cal := by
  unfold State.trap; split
  · rfl
  · dsimp only; split <;> simp
@[simp] theorem State.trap_link (s : State) (n inst : Nat) : (s.trap n inst).link = s.link := by
  unfold State.trap; split
  · rfl
  · dsimp only; split <;> simp
@[simp] theorem State.trap_mgt (s : State) (n inst : Nat) : (s.trap n inst).mgt = s.mgt := by
  unfold State.trap; split
  · rfl
  · dsimp only; split <;> simp
@[simp] theorem State.trap_mbx (s : State) (n inst : Nat) : (s.trap n inst).mbx = s.mbx := by
  unfold State.trap; split
  · rfl
  · dsimp only; split <;> simp
@[simp] theorem State.trap_grn (s : State) (n inst : Nat) : (s.trap n inst).grn = s.grn := by
  unfold State.trap; split
  · rfl
  · dsimp only; split <;> simp
@[simp] theorem State.trap_dram (s : State) (n inst : Nat) : (s.trap n inst).dram = s.dram := by
  unfold State.trap; split
  · rfl
  · dsimp only; split <;> simp
@[simp] theorem State.trap_flash (s : State) (n inst : Nat) : (s.trap n inst).flash = s.flash := by
  unfold State.trap; split
  · rfl
  · dsimp only; split <;> simp
@[simp] theorem State.trap_dge (s : State) (n inst : Nat) : (s.trap n inst).dge = s.dge := by
  unfold State.trap; split
  · rfl
  · dsimp only; split <;> simp
@[simp] theorem State.trap_eng (s : State) (n inst : Nat) : (s.trap n inst).eng = s.eng := by
  unfold State.trap; split
  · rfl
  · dsimp only; split <;> simp

/-! `State.reactVector` -/

@[simp] theorem State.reactVector_pending (s : State) (b : Bool) : (s.reactVector b).pending = s.pending := by
  unfold State.reactVector; split <;> simp
@[simp] theorem State.reactVector_now (s : State) (b : Bool) : (s.reactVector b).now = s.now := by
  unfold State.reactVector; split <;> simp
@[simp] theorem State.reactVector_freeCtr (s : State) (b : Bool) : (s.reactVector b).freeCtr = s.freeCtr := by
  unfold State.reactVector; split <;> simp
@[simp] theorem State.reactVector_regs (s : State) (b : Bool) : (s.reactVector b).regs = s.regs := by
  unfold State.reactVector; split <;> simp
@[simp] theorem State.reactVector_pwr (s : State) (b : Bool) : (s.reactVector b).pwr = s.pwr := by
  unfold State.reactVector; split <;> simp
@[simp] theorem State.reactVector_ft (s : State) (b : Bool) : (s.reactVector b).ft = s.ft := by
  unfold State.reactVector; split <;> simp
@[simp] theorem State.reactVector_cal (s : State) (b : Bool) : (s.reactVector b).cal = s.cal := by
  unfold State.reactVector; split <;> simp
@[simp] theorem State.reactVector_hub (s : State) (b : Bool) : (s.reactVector b).hub = s.hub := by
  unfold State.reactVector; split <;> simp
@[simp] theorem State.reactVector_mgt (s : State) (b : Bool) : (s.reactVector b).mgt = s.mgt := by
  unfold State.reactVector; split <;> simp
@[simp] theorem State.reactVector_mbx (s : State) (b : Bool) : (s.reactVector b).mbx = s.mbx := by
  unfold State.reactVector; split <;> simp
@[simp] theorem State.reactVector_grn (s : State) (b : Bool) : (s.reactVector b).grn = s.grn := by
  unfold State.reactVector; split <;> simp
@[simp] theorem State.reactVector_dram (s : State) (b : Bool) : (s.reactVector b).dram = s.dram := by
  unfold State.reactVector; split <;> simp
@[simp] theorem State.reactVector_flash (s : State) (b : Bool) : (s.reactVector b).flash = s.flash := by
  unfold State.reactVector; split <;> simp
@[simp] theorem State.reactVector_dge (s : State) (b : Bool) : (s.reactVector b).dge = s.dge := by
  unfold State.reactVector; split <;> simp
@[simp] theorem State.reactVector_eng (s : State) (b : Bool) : (s.reactVector b).eng = s.eng := by
  unfold State.reactVector; split <;> simp

/-! `State.reactAlert` -/

@[simp] theorem State.reactAlert_pending (s : State) (b : Bool) : (s.reactAlert b).pending = s.pending := by
  unfold State.reactAlert; split <;> simp
@[simp] theorem State.reactAlert_now (s : State) (b : Bool) : (s.reactAlert b).now = s.now := by
  unfold State.reactAlert; split <;> simp
@[simp] theorem State.reactAlert_freeCtr (s : State) (b : Bool) : (s.reactAlert b).freeCtr = s.freeCtr := by
  unfold State.reactAlert; split <;> simp
@[simp] theorem State.reactAlert_out (s : State) (b : Bool) : (s.reactAlert b).out = s.out := by
  unfold State.reactAlert; split <;> simp
@[simp] theorem State.reactAlert_pwr (s : State) (b : Bool) : (s.reactAlert b).pwr = s.pwr := by
  unfold State.reactAlert; split <;> simp
@[simp] theorem State.reactAlert_ft (s : State) (b : Bool) : (s.reactAlert b).ft = s.ft := by
  unfold State.reactAlert; split <;> simp
@[simp] theorem State.reactAlert_cal (s : State) (b : Bool) : (s.reactAlert b).cal = s.cal := by
  unfold State.reactAlert; split <;> simp
@[simp] theorem State.reactAlert_link (s : State) (b : Bool) : (s.reactAlert b).link = s.link := by
  unfold State.reactAlert; split <;> simp
@[simp] theorem State.reactAlert_hub (s : State) (b : Bool) : (s.reactAlert b).hub = s.hub := by
  unfold State.reactAlert; split <;> simp
@[simp] theorem State.reactAlert_mgt (s : State) (b : Bool) : (s.reactAlert b).mgt = s.mgt := by
  unfold State.reactAlert; split <;> simp
@[simp] theorem State.reactAlert_mbx (s : State) (b : Bool) : (s.reactAlert b).mbx = s.mbx := by
  unfold State.reactAlert; split <;> simp
@[simp] theorem State.reactAlert_grn (s : State) (b : Bool) : (s.reactAlert b).grn = s.grn := by
  unfold State.reactAlert; split <;> simp
@[simp] theorem State.reactAlert_dram (s : State) (b : Bool) : (s.reactAlert b).dram = s.dram := by
  unfold State.reactAlert; split <;> simp
@[simp] theorem State.reactAlert_flash (s : State) (b : Bool) : (s.reactAlert b).flash = s.flash := by
  unfold State.reactAlert; split <;> simp
@[simp] theorem State.reactAlert_dge (s : State) (b : Bool) : (s.reactAlert b).dge = s.dge := by
  unfold State.reactAlert; split <;> simp
@[simp] theorem State.reactAlert_eng (s : State) (b : Bool) : (s.reactAlert b).eng = s.eng := by
  unfold State.reactAlert; split <;> simp

/-! `State.reactTrap` -/

@[simp] theorem State.reactTrap_pending (s : State) (b : Bool) (n i : Nat) : (s.reactTrap b n i).pending = s.pending := by
  unfold State.reactTrap; split <;> simp
@[simp] theorem State.reactTrap_now (s : State) (b : Bool) (n i : Nat) : (s.reactTrap b n i).now = s.now := by
  unfold State.reactTrap; split <;> simp
@[simp] theorem State.reactTrap_freeCtr (s : State) (b : Bool) (n i : Nat) : (s.reactTrap b n i).freeCtr = s.freeCtr := by
  unfold State.reactTrap; split <;> simp
@[simp] theorem State.reactTrap_regs (s : State) (b : Bool) (n i : Nat) : (s.reactTrap b n i).regs = s.regs := by
  unfold State.reactTrap; split <;> simp
@[simp] theorem State.reactTrap_pwr (s : State) (b : Bool) (n i : Nat) : (s.reactTrap b n i).pwr = s.pwr := by
  unfold State.reactTrap; split <;> simp
@[simp] theorem State.reactTrap_ft (s : State) (b : Bool) (n i : Nat) : (s.reactTrap b n i).ft = s.ft := by
  unfold State.reactTrap; split <;> simp
@[simp] theorem State.reactTrap_cal (s : State) (b : Bool) (n i : Nat) : (s.reactTrap b n i).cal = s.cal := by
  unfold State.reactTrap; split <;> simp
@[simp] theorem State.reactTrap_link (s : State) (b : Bool) (n i : Nat) : (s.reactTrap b n i).link = s.link := by
  unfold State.reactTrap; split <;> simp
@[simp] theorem State.reactTrap_mgt (s : State) (b : Bool) (n i : Nat) : (s.reactTrap b n i).mgt = s.mgt := by
  unfold State.reactTrap; split <;> simp
@[simp] theorem State.reactTrap_mbx (s : State) (b : Bool) (n i : Nat) : (s.reactTrap b n i).mbx = s.mbx := by
  unfold State.reactTrap; split <;> simp
@[simp] theorem State.reactTrap_grn (s : State) (b : Bool) (n i : Nat) : (s.reactTrap b n i).grn = s.grn := by
  unfold State.reactTrap; split <;> simp
@[simp] theorem State.reactTrap_dram (s : State) (b : Bool) (n i : Nat) : (s.reactTrap b n i).dram = s.dram := by
  unfold State.reactTrap; split <;> simp
@[simp] theorem State.reactTrap_flash (s : State) (b : Bool) (n i : Nat) : (s.reactTrap b n i).flash = s.flash := by
  unfold State.reactTrap; split <;> simp
@[simp] theorem State.reactTrap_dge (s : State) (b : Bool) (n i : Nat) : (s.reactTrap b n i).dge = s.dge := by
  unfold State.reactTrap; split <;> simp
@[simp] theorem State.reactTrap_eng (s : State) (b : Bool) (n i : Nat) : (s.reactTrap b n i).eng = s.eng := by
  unfold State.reactTrap; split <;> simp

/-! `State.reactDump` -/

@[simp] theorem State.reactDump_pending (s : State) (b : Bool) : (s.reactDump b).pending = s.pending := by
  unfold State.reactDump; split <;> simp
@[simp] theorem State.reactDump_now (s : State) (b : Bool) : (s.reactDump b).now = s.now := by
  unfold State.reactDump; split <;> simp
@[simp] theorem State.reactDump_freeCtr (s : State) (b : Bool) : (s.reactDump b).freeCtr = s.freeCtr := by
  unfold State.reactDump; split <;> simp
@[simp] theorem State.reactDump_out (s : State) (b : Bool) : (s.reactDump b).out = s.out := by
  unfold State.reactDump; split <;> simp
@[simp] theorem State.reactDump_pwr (s : State) (b : Bool) : (s.reactDump b).pwr = s.pwr := by
  unfold State.reactDump; split <;> simp
@[simp] theorem State.reactDump_ft (s : State) (b : Bool) : (s.reactDump b).ft = s.ft := by
  unfold State.reactDump; split <;> simp
@[simp] theorem State.reactDump_cal (s : State) (b : Bool) : (s.reactDump b).cal = s.cal := by
  unfold State.reactDump; split <;> simp
@[simp] theorem State.reactDump_link (s : State) (b : Bool) : (s.reactDump b).link = s.link := by
  unfold State.reactDump; split <;> simp
@[simp] theorem State.reactDump_hub (s : State) (b : Bool) : (s.reactDump b).hub = s.hub := by
  unfold State.reactDump; split <;> simp
@[simp] theorem State.reactDump_mgt (s : State) (b : Bool) : (s.reactDump b).mgt = s.mgt := by
  unfold State.reactDump; split <;> simp
@[simp] theorem State.reactDump_mbx (s : State) (b : Bool) : (s.reactDump b).mbx = s.mbx := by
  unfold State.reactDump; split <;> simp
@[simp] theorem State.reactDump_dram (s : State) (b : Bool) : (s.reactDump b).dram = s.dram := by
  unfold State.reactDump; split <;> simp
@[simp] theorem State.reactDump_flash (s : State) (b : Bool) : (s.reactDump b).flash = s.flash := by
  unfold State.reactDump; split <;> simp
@[simp] theorem State.reactDump_dge (s : State) (b : Bool) : (s.reactDump b).dge = s.dge := by
  unfold State.reactDump; split <;> simp
@[simp] theorem State.reactDump_eng (s : State) (b : Bool) : (s.reactDump b).eng = s.eng := by
  unfold State.reactDump; split <;> simp

/-! `State.reactReset` -/

@[simp] theorem State.reactReset_pending (s : State) (b : Bool) (n : Nat) : (s.reactReset b n).pending = s.pending := by
  unfold State.reactReset; split <;> simp
@[simp] theorem State.reactReset_now (s : State) (b : Bool) (n : Nat) : (s.reactReset b n).now = s.now := by
  unfold State.reactReset; split <;> simp
@[simp] theorem State.reactReset_freeCtr (s : State) (b : Bool) (n : Nat) : (s.reactReset b n).freeCtr = s.freeCtr := by
  unfold State.reactReset; split <;> simp
@[simp] theorem State.reactReset_out (s : State) (b : Bool) (n : Nat) : (s.reactReset b n).out = s.out := by
  unfold State.reactReset; split <;> simp
@[simp] theorem State.reactReset_regs (s : State) (b : Bool) (n : Nat) : (s.reactReset b n).regs = s.regs := by
  unfold State.reactReset; split <;> simp
@[simp] theorem State.reactReset_ft (s : State) (b : Bool) (n : Nat) : (s.reactReset b n).ft = s.ft := by
  unfold State.reactReset; split <;> simp
@[simp] theorem State.reactReset_cal (s : State) (b : Bool) (n : Nat) : (s.reactReset b n).cal = s.cal := by
  unfold State.reactReset; split <;> simp
@[simp] theorem State.reactReset_link (s : State) (b : Bool) (n : Nat) : (s.reactReset b n).link = s.link := by
  unfold State.reactReset; split <;> simp
@[simp] theorem State.reactReset_hub (s : State) (b : Bool) (n : Nat) : (s.reactReset b n).hub = s.hub := by
  unfold State.reactReset; split <;> simp
@[simp] theorem State.reactReset_mgt (s : State) (b : Bool) (n : Nat) : (s.reactReset b n).mgt = s.mgt := by
  unfold State.reactReset; split <;> simp
@[simp] theorem State.reactReset_mbx (s : State) (b : Bool) (n : Nat) : (s.reactReset b n).mbx = s.mbx := by
  unfold State.reactReset; split <;> simp
@[simp] theorem State.reactReset_grn (s : State) (b : Bool) (n : Nat) : (s.reactReset b n).grn = s.grn := by
  unfold State.reactReset; split <;> simp
@[simp] theorem State.reactReset_dram (s : State) (b : Bool) (n : Nat) : (s.reactReset b n).dram = s.dram := by
  unfold State.reactReset; split <;> simp
@[simp] theorem State.reactReset_flash (s : State) (b : Bool) (n : Nat) : (s.reactReset b n).flash = s.flash := by
  unfold State.reactReset; split <;> simp
@[simp] theorem State.reactReset_dge (s : State) (b : Bool) (n : Nat) : (s.reactReset b n).dge = s.dge := by
  unfold State.reactReset; split <;> simp
@[simp] theorem State.reactReset_eng (s : State) (b : Bool) (n : Nat) : (s.reactReset b n).eng = s.eng := by
  unfold State.reactReset; split <;> simp

/-! `State.react` -/

@[simp] theorem State.react_pending (s : State) (n inst : Nat) (b : Bool) : (s.react n inst b).pending = s.pending := by
  simp [State.react]
@[simp] theorem State.react_now (s : State) (n inst : Nat) (b : Bool) : (s.react n inst b).now = s.now := by
  simp [State.react]
@[simp] theorem State.react_freeCtr (s : State) (n inst : Nat) (b : Bool) : (s.react n inst b).freeCtr = s.freeCtr := by
  simp [State.react]
@[simp] theorem State.react_ft (s : State) (n inst : Nat) (b : Bool) : (s.react n inst b).ft = s.ft := by
  simp [State.react]
@[simp] theorem State.react_cal (s : State) (n inst : Nat) (b : Bool) : (s.react n inst b).cal = s.cal := by
  simp [State.react]
@[simp] theorem State.react_mgt (s : State) (n inst : Nat) (b : Bool) : (s.react n inst b).mgt = s.mgt := by
  simp [State.react]
@[simp] theorem State.react_mbx (s : State) (n inst : Nat) (b : Bool) : (s.react n inst b).mbx = s.mbx := by
  simp [State.react]
@[simp] theorem State.react_dram (s : State) (n inst : Nat) (b : Bool) : (s.react n inst b).dram = s.dram := by
  simp [State.react]
@[simp] theorem State.react_flash (s : State) (n inst : Nat) (b : Bool) : (s.react n inst b).flash = s.flash := by
  simp [State.react]
@[simp] theorem State.react_dge (s : State) (n inst : Nat) (b : Bool) : (s.react n inst b).dge = s.dge := by
  simp [State.react]
@[simp] theorem State.react_eng (s : State) (n inst : Nat) (b : Bool) : (s.react n inst b).eng = s.eng := by
  simp [State.react]

/-! `State.failDump` -/

@[simp] theorem State.failDump_pending (s : State) : (s.failDump).pending = s.pending := by
  cases s; rfl
@[simp] theorem State.failDump_now (s : State) : (s.failDump).now = s.now := by
  cases s; rfl
@[simp] theorem State.failDump_freeCtr (s : State) : (s.failDump).freeCtr = s.freeCtr := by
  cases s; rfl
@[simp] theorem State.failDump_out (s : State) : (s.failDump).out = s.out := by
  cases s; rfl
@[simp] theorem State.failDump_regs (s : State) : (s.failDump).regs = s.regs := by
  cases s; rfl
@[simp] theorem State.failDump_pwr (s : State) : (s.failDump).pwr = s.pwr := by
  cases s; rfl
@[simp] theorem State.failDump_ft (s : State) : (s.failDump).ft = s.ft := by
  cases s; rfl
@[simp] theorem State.failDump_cal (s : State) : (s.failDump).cal = s.cal := by
  cases s; rfl
@[simp] theorem State.failDump_link (s : State) : (s.failDump).link = s.link := by
  cases s; rfl
@[simp] theorem State.failDump_hub (s : State) : (s.failDump).hub = s.hub := by
  cases s; rfl
@[simp] theorem State.failDump_mgt (s : State) : (s.failDump).mgt = s.mgt := by
  cases s; rfl
@[simp] theorem State.failDump_mbx (s : State) : (s.failDump).mbx = s.mbx := by
  cases s; rfl
@[simp] theorem State.failDump_dram (s : State) : (s.failDump).dram = s.dram := by
  cases s; rfl
@[simp] theorem State.failDump_flash (s : State) : (s.failDump).flash = s.flash := by
  cases s; rfl
@[simp] theorem State.failDump_dge (s : State) : (s.failDump).dge = s.dge := by
  cases s; rfl
@[simp] theorem State.failDump_eng (s : State) : (s.failDump).eng = s.eng := by
  cases s; rfl

/-! `State.latchPersist` -/

@[simp] theorem State.latchPersist_pending (s : State) (n : Nat) : (s.latchPersist n).pending = s.pending := by
  unfold State.latchPersist; split <;> simp
@[simp] theorem State.latchPersist_now (s : State) (n : Nat) : (s.latchPersist n).now = s.now := by
  unfold State.latchPersist; split <;> simp
@[simp] theorem State.latchPersist_freeCtr (s : State) (n : Nat) : (s.latchPersist n).freeCtr = s.freeCtr := by
  unfold State.latchPersist; split <;> simp
@[simp] theorem State.latchPersist_out (s : State) (n : Nat) : (s.latchPersist n).out = s.out := by
  unfold State.latchPersist; split <;> simp
@[simp] theorem State.latchPersist_pwr (s : State) (n : Nat) : (s.latchPersist n).pwr = s.pwr := by
  unfold State.latchPersist; split <;> simp
@[simp] theorem State.latchPersist_ft (s : State) (n : Nat) : (s.latchPersist n).ft = s.ft := by
  unfold State.latchPersist; split <;> simp
@[simp] theorem State.latchPersist_cal (s : State) (n : Nat) : (s.latchPersist n).cal = s.cal := by
  unfold State.latchPersist; split <;> simp
@[simp] theorem State.latchPersist_link (s : State) (n : Nat) : (s.latchPersist n).link = s.link := by
  unfold State.latchPersist; split <;> simp
@[simp] theorem State.latchPersist_hub (s : State) (n : Nat) : (s.latchPersist n).hub = s.hub := by
  unfold State.latchPersist; split <;> simp
@[simp] theorem State.latchPersist_mgt (s : State) (n : Nat) : (s.latchPersist n).mgt = s.mgt := by
  unfold State.latchPersist; split <;> simp
@[simp] theorem State.latchPersist_mbx (s : State) (n : Nat) : (s.latchPersist n).mbx = s.mbx := by
  unfold State.latchPersist; split <;> simp
@[simp] theorem State.latchPersist_dram (s : State) (n : Nat) : (s.latchPersist n).dram = s.dram := by
  unfold State.latchPersist; split <;> simp
@[simp] theorem State.latchPersist_flash (s : State) (n : Nat) : (s.latchPersist n).flash = s.flash := by
  unfold State.latchPersist; split <;> simp
@[simp] theorem State.latchPersist_dge (s : State) (n : Nat) : (s.latchPersist n).dge = s.dge := by
  unfold State.latchPersist; split <;> simp
@[simp] theorem State.latchPersist_eng (s : State) (n : Nat) : (s.latchPersist n).eng = s.eng := by
  unfold State.latchPersist; split <;> simp

/-! `State.latchIf` -/

@[simp] theorem State.latchIf_pending (s : State) (b : Bool) (n : Nat) : (s.latchIf b n).pending = s.pending := by
  unfold State.latchIf; split <;> simp
@[simp] theorem State.latchIf_now (s : State) (b : Bool) (n : Nat) : (s.latchIf b n).now = s.now := by
  unfold State.latchIf; split <;> simp
@[simp] theorem State.latchIf_freeCtr (s : State) (b : Bool) (n : Nat) : (s.latchIf b n).freeCtr = s.freeCtr := by
  unfold State.latchIf; split <;> simp
@[simp] theorem State.latchIf_out (s : State) (b : Bool) (n : Nat) : (s.latchIf b n).out = s.out := by
  unfold State.latchIf; split <;> simp
@[simp] theorem State.latchIf_pwr (s : State) (b : Bool) (n : Nat) : (s.latchIf b n).pwr = s.pwr := by
  unfold State.latchIf; split <;> simp
@[simp] theorem State.latchIf_ft (s : State) (b : Bool) (n : Nat) : (s.latchIf b n).ft = s.ft := by
  unfold State.latchIf; split <;> simp
@[simp] theorem State.latchIf_cal (s : State) (b : Bool) (n : Nat) : (s.latchIf b n).cal = s.cal := by
  unfold State.latchIf; split <;> simp
@[simp] theorem State.latchIf_link (s : State) (b : Bool) (n : Nat) : (s.latchIf b n).link = s.link := by
  unfold State.latchIf; split <;> simp
@[simp] theorem State.latchIf_hub (s : State) (b : Bool) (n : Nat) : (s.latchIf b n).hub = s.hub := by
  unfold State.latchIf; split <;> simp
@[simp] theorem State.latchIf_mgt (s : State) (b : Bool) (n : Nat) : (s.latchIf b n).mgt = s.mgt := by
  unfold State.latchIf; split <;> simp
@[simp] theorem State.latchIf_mbx (s : State) (b : Bool) (n : Nat) : (s.latchIf b n).mbx = s.mbx := by
  unfold State.latchIf; split <;> simp
@[simp] theorem State.latchIf_dram (s : State) (b : Bool) (n : Nat) : (s.latchIf b n).dram = s.dram := by
  unfold State.latchIf; split <;> simp
@[simp] theorem State.latchIf_flash (s : State) (b : Bool) (n : Nat) : (s.latchIf b n).flash = s.flash := by
  unfold State.latchIf; split <;> simp
@[simp] theorem State.latchIf_dge (s : State) (b : Bool) (n : Nat) : (s.latchIf b n).dge = s.dge := by
  unfold State.latchIf; split <;> simp
@[simp] theorem State.latchIf_eng (s : State) (b : Bool) (n : Nat) : (s.latchIf b n).eng = s.eng := by
  unfold State.latchIf; split <;> simp

/-! `State.signalEvent` -/

@[simp] theorem State.signalEvent_pending (s : State) (l : Nat) : (s.signalEvent l).pending = s.pending := by
  unfold State.signalEvent; split <;> simp
@[simp] theorem State.signalEvent_now (s : State) (l : Nat) : (s.signalEvent l).now = s.now := by
  unfold State.signalEvent; split <;> simp
@[simp] theorem State.signalEvent_freeCtr (s : State) (l : Nat) : (s.signalEvent l).freeCtr = s.freeCtr := by
  unfold State.signalEvent; split <;> simp
@[simp] theorem State.signalEvent_regs (s : State) (l : Nat) : (s.signalEvent l).regs = s.regs := by
  unfold State.signalEvent; split <;> simp
@[simp] theorem State.signalEvent_pwr (s : State) (l : Nat) : (s.signalEvent l).pwr = s.pwr := by
  unfold State.signalEvent; split <;> simp
@[simp] theorem State.signalEvent_ft (s : State) (l : Nat) : (s.signalEvent l).ft = s.ft := by
  unfold State.signalEvent; split <;> simp
@[simp] theorem State.signalEvent_cal (s : State) (l : Nat) : (s.signalEvent l).cal = s.cal := by
  unfold State.signalEvent; split <;> simp
@[simp] theorem State.signalEvent_hub (s : State) (l : Nat) : (s.signalEvent l).hub = s.hub := by
  unfold State.signalEvent; split <;> simp
@[simp] theorem State.signalEvent_mgt (s : State) (l : Nat) : (s.signalEvent l).mgt = s.mgt := by
  unfold State.signalEvent; split <;> simp
@[simp] theorem State.signalEvent_mbx (s : State) (l : Nat) : (s.signalEvent l).mbx = s.mbx := by
  unfold State.signalEvent; split <;> simp
@[simp] theorem State.signalEvent_grn (s : State) (l : Nat) : (s.signalEvent l).grn = s.grn := by
  unfold State.signalEvent; split <;> simp
@[simp] theorem State.signalEvent_dram (s : State) (l : Nat) : (s.signalEvent l).dram = s.dram := by
  unfold State.signalEvent; split <;> simp
@[simp] theorem State.signalEvent_flash (s : State) (l : Nat) : (s.signalEvent l).flash = s.flash := by
  unfold State.signalEvent; split <;> simp
@[simp] theorem State.signalEvent_dge (s : State) (l : Nat) : (s.signalEvent l).dge = s.dge := by
  unfold State.signalEvent; split <;> simp
@[simp] theorem State.signalEvent_eng (s : State) (l : Nat) : (s.signalEvent l).eng = s.eng := by
  unfold State.signalEvent; split <;> simp

/-! `State.logCxlEvent` -/

@[simp] theorem State.logCxlEvent_pending (s : State) (i : SourceInfo) (n inst : Nat) : (s.logCxlEvent i n inst).pending = s.pending := by
  unfold State.logCxlEvent; split
  · rfl
  · simp only [State.signalEvent_pending, State.addCxlEvent_pending]
@[simp] theorem State.logCxlEvent_now (s : State) (i : SourceInfo) (n inst : Nat) : (s.logCxlEvent i n inst).now = s.now := by
  unfold State.logCxlEvent; split
  · rfl
  · simp only [State.signalEvent_now, State.addCxlEvent_now]
@[simp] theorem State.logCxlEvent_freeCtr (s : State) (i : SourceInfo) (n inst : Nat) : (s.logCxlEvent i n inst).freeCtr = s.freeCtr := by
  unfold State.logCxlEvent; split
  · rfl
  · simp only [State.signalEvent_freeCtr, State.addCxlEvent_freeCtr]
@[simp] theorem State.logCxlEvent_regs (s : State) (i : SourceInfo) (n inst : Nat) : (s.logCxlEvent i n inst).regs = s.regs := by
  unfold State.logCxlEvent; split
  · rfl
  · simp only [State.signalEvent_regs, State.addCxlEvent_regs]
@[simp] theorem State.logCxlEvent_pwr (s : State) (i : SourceInfo) (n inst : Nat) : (s.logCxlEvent i n inst).pwr = s.pwr := by
  unfold State.logCxlEvent; split
  · rfl
  · simp only [State.signalEvent_pwr, State.addCxlEvent_pwr]
@[simp] theorem State.logCxlEvent_ft (s : State) (i : SourceInfo) (n inst : Nat) : (s.logCxlEvent i n inst).ft = s.ft := by
  unfold State.logCxlEvent; split
  · rfl
  · simp only [State.signalEvent_ft, State.addCxlEvent_ft]
@[simp] theorem State.logCxlEvent_cal (s : State) (i : SourceInfo) (n inst : Nat) : (s.logCxlEvent i n inst).cal = s.cal := by
  unfold State.logCxlEvent; split
  · rfl
  · simp only [State.signalEvent_cal, State.addCxlEvent_cal]
@[simp] theorem State.logCxlEvent_hub (s : State) (i : SourceInfo) (n inst : Nat) : (s.logCxlEvent i n inst).hub = s.hub := by
  unfold State.logCxlEvent; split
  · rfl
  · simp only [State.signalEvent_hub, State.addCxlEvent_hub]
@[simp] theorem State.logCxlEvent_mgt (s : State) (i : SourceInfo) (n inst : Nat) : (s.logCxlEvent i n inst).mgt = s.mgt := by
  unfold State.logCxlEvent; split
  · rfl
  · simp only [State.signalEvent_mgt, State.addCxlEvent_mgt]
@[simp] theorem State.logCxlEvent_mbx (s : State) (i : SourceInfo) (n inst : Nat) : (s.logCxlEvent i n inst).mbx = s.mbx := by
  unfold State.logCxlEvent; split
  · rfl
  · simp only [State.signalEvent_mbx, State.addCxlEvent_mbx]
@[simp] theorem State.logCxlEvent_grn (s : State) (i : SourceInfo) (n inst : Nat) : (s.logCxlEvent i n inst).grn = s.grn := by
  unfold State.logCxlEvent; split
  · rfl
  · simp only [State.signalEvent_grn, State.addCxlEvent_grn]
@[simp] theorem State.logCxlEvent_dram (s : State) (i : SourceInfo) (n inst : Nat) : (s.logCxlEvent i n inst).dram = s.dram := by
  unfold State.logCxlEvent; split
  · rfl
  · simp only [State.signalEvent_dram, State.addCxlEvent_dram]
@[simp] theorem State.logCxlEvent_flash (s : State) (i : SourceInfo) (n inst : Nat) : (s.logCxlEvent i n inst).flash = s.flash := by
  unfold State.logCxlEvent; split
  · rfl
  · simp only [State.signalEvent_flash, State.addCxlEvent_flash]
@[simp] theorem State.logCxlEvent_dge (s : State) (i : SourceInfo) (n inst : Nat) : (s.logCxlEvent i n inst).dge = s.dge := by
  unfold State.logCxlEvent; split
  · rfl
  · simp only [State.signalEvent_dge, State.addCxlEvent_dge]
@[simp] theorem State.logCxlEvent_eng (s : State) (i : SourceInfo) (n inst : Nat) : (s.logCxlEvent i n inst).eng = s.eng := by
  unfold State.logCxlEvent; split
  · rfl
  · simp only [State.signalEvent_eng, State.addCxlEvent_eng]

/-! `State.raiseCore` -/

@[simp] theorem State.raiseCore_pending (s : State) (n inst word : Nat) (b : Bool) : (s.raiseCore n inst word b).pending = s.pending := by
  unfold State.raiseCore; split <;> simp
@[simp] theorem State.raiseCore_now (s : State) (n inst word : Nat) (b : Bool) : (s.raiseCore n inst word b).now = s.now := by
  unfold State.raiseCore; split <;> simp
@[simp] theorem State.raiseCore_freeCtr (s : State) (n inst word : Nat) (b : Bool) : (s.raiseCore n inst word b).freeCtr = s.freeCtr := by
  unfold State.raiseCore; split <;> simp
@[simp] theorem State.raiseCore_ft (s : State) (n inst word : Nat) (b : Bool) : (s.raiseCore n inst word b).ft = s.ft := by
  unfold State.raiseCore; split <;> simp
@[simp] theorem State.raiseCore_cal (s : State) (n inst word : Nat) (b : Bool) : (s.raiseCore n inst word b).cal = s.cal := by
  unfold State.raiseCore; split <;> simp
@[simp] theorem State.raiseCore_mgt (s : State) (n inst word : Nat) (b : Bool) : (s.raiseCore n inst word b).mgt = s.mgt := by
  unfold State.raiseCore; split <;> simp
@[simp] theorem State.raiseCore_mbx (s : State) (n inst word : Nat) (b : Bool) : (s.raiseCore n inst word b).mbx = s.mbx := by
  unfold State.raiseCore; split <;> simp
@[simp] theorem State.raiseCore_dram (s : State) (n inst word : Nat) (b : Bool) : (s.raiseCore n inst word b).dram = s.dram := by
  unfold State.raiseCore; split <;> simp
@[simp] theorem State.raiseCore_flash (s : State) (n inst word : Nat) (b : Bool) : (s.raiseCore n inst word b).flash = s.flash := by
  unfold State.raiseCore; split <;> simp
@[simp] theorem State.raiseCore_dge (s : State) (n inst word : Nat) (b : Bool) : (s.raiseCore n inst word b).dge = s.dge := by
  unfold State.raiseCore; split <;> simp
@[simp] theorem State.raiseCore_eng (s : State) (n inst word : Nat) (b : Bool) : (s.raiseCore n inst word b).eng = s.eng := by
  unfold State.raiseCore; split <;> simp

/-! `State.raiseSaturated` -/

@[simp] theorem State.raiseSaturated_pending (s : State) (c : Counter) (n : Nat) : (s.raiseSaturated c n).pending = s.pending := by
  unfold State.raiseSaturated; split <;> simp
@[simp] theorem State.raiseSaturated_now (s : State) (c : Counter) (n : Nat) : (s.raiseSaturated c n).now = s.now := by
  unfold State.raiseSaturated; split <;> simp
@[simp] theorem State.raiseSaturated_freeCtr (s : State) (c : Counter) (n : Nat) : (s.raiseSaturated c n).freeCtr = s.freeCtr := by
  unfold State.raiseSaturated; split <;> simp
@[simp] theorem State.raiseSaturated_ft (s : State) (c : Counter) (n : Nat) : (s.raiseSaturated c n).ft = s.ft := by
  unfold State.raiseSaturated; split <;> simp
@[simp] theorem State.raiseSaturated_cal (s : State) (c : Counter) (n : Nat) : (s.raiseSaturated c n).cal = s.cal := by
  unfold State.raiseSaturated; split <;> simp
@[simp] theorem State.raiseSaturated_mgt (s : State) (c : Counter) (n : Nat) : (s.raiseSaturated c n).mgt = s.mgt := by
  unfold State.raiseSaturated; split <;> simp
@[simp] theorem State.raiseSaturated_mbx (s : State) (c : Counter) (n : Nat) : (s.raiseSaturated c n).mbx = s.mbx := by
  unfold State.raiseSaturated; split <;> simp
@[simp] theorem State.raiseSaturated_dram (s : State) (c : Counter) (n : Nat) : (s.raiseSaturated c n).dram = s.dram := by
  unfold State.raiseSaturated; split <;> simp
@[simp] theorem State.raiseSaturated_flash (s : State) (c : Counter) (n : Nat) : (s.raiseSaturated c n).flash = s.flash := by
  unfold State.raiseSaturated; split <;> simp
@[simp] theorem State.raiseSaturated_dge (s : State) (c : Counter) (n : Nat) : (s.raiseSaturated c n).dge = s.dge := by
  unfold State.raiseSaturated; split <;> simp
@[simp] theorem State.raiseSaturated_eng (s : State) (c : Counter) (n : Nat) : (s.raiseSaturated c n).eng = s.eng := by
  unfold State.raiseSaturated; split <;> simp

/-! `State.bumpN` -/

@[simp] theorem State.bumpN_pending (s : State) (c : Counter) (n : Nat) : (s.bumpN c n).pending = s.pending := by
  unfold State.bumpN; dsimp only; split <;> simp
@[simp] theorem State.bumpN_now (s : State) (c : Counter) (n : Nat) : (s.bumpN c n).now = s.now := by
  unfold State.bumpN; dsimp only; split <;> simp
@[simp] theorem State.bumpN_freeCtr (s : State) (c : Counter) (n : Nat) : (s.bumpN c n).freeCtr = s.freeCtr := by
  unfold State.bumpN; dsimp only; split <;> simp
@[simp] theorem State.bumpN_ft (s : State) (c : Counter) (n : Nat) : (s.bumpN c n).ft = s.ft := by
  unfold State.bumpN; dsimp only; split <;> simp
@[simp] theorem State.bumpN_cal (s : State) (c : Counter) (n : Nat) : (s.bumpN c n).cal = s.cal := by
  unfold State.bumpN; dsimp only; split <;> simp
@[simp] theorem State.bumpN_mgt (s : State) (c : Counter) (n : Nat) : (s.bumpN c n).mgt = s.mgt := by
  unfold State.bumpN; dsimp only; split <;> simp
@[simp] theorem State.bumpN_mbx (s : State) (c : Counter) (n : Nat) : (s.bumpN c n).mbx = s.mbx := by
  unfold State.bumpN; dsimp only; split <;> simp
@[simp] theorem State.bumpN_dram (s : State) (c : Counter) (n : Nat) : (s.bumpN c n).dram = s.dram := by
  unfold State.bumpN; dsimp only; split <;> simp
@[simp] theorem State.bumpN_flash (s : State) (c : Counter) (n : Nat) : (s.bumpN c n).flash = s.flash := by
  unfold State.bumpN; dsimp only; split <;> simp
@[simp] theorem State.bumpN_dge (s : State) (c : Counter) (n : Nat) : (s.bumpN c n).dge = s.dge := by
  unfold State.bumpN; dsimp only; split <;> simp
@[simp] theorem State.bumpN_eng (s : State) (c : Counter) (n : Nat) : (s.bumpN c n).eng = s.eng := by
  unfold State.bumpN; dsimp only; split <;> simp

/-! `State.bump` -/

@[simp] theorem State.bump_pending (s : State) (c : Counter) : (s.bump c).pending = s.pending := by
  simp [State.bump]
@[simp] theorem State.bump_now (s : State) (c : Counter) : (s.bump c).now = s.now := by
  simp [State.bump]
@[simp] theorem State.bump_freeCtr (s : State) (c : Counter) : (s.bump c).freeCtr = s.freeCtr := by
  simp [State.bump]
@[simp] theorem State.bump_ft (s : State) (c : Counter) : (s.bump c).ft = s.ft := by
  simp [State.bump]
@[simp] theorem State.bump_cal (s : State) (c : Counter) : (s.bump c).cal = s.cal := by
  simp [State.bump]
@[simp] theorem State.bump_mgt (s : State) (c : Counter) : (s.bump c).mgt = s.mgt := by
  simp [State.bump]
@[simp] theorem State.bump_mbx (s : State) (c : Counter) : (s.bump c).mbx = s.mbx := by
  simp [State.bump]
@[simp] theorem State.bump_dram (s : State) (c : Counter) : (s.bump c).dram = s.dram := by
  simp [State.bump]
@[simp] theorem State.bump_flash (s : State) (c : Counter) : (s.bump c).flash = s.flash := by
  simp [State.bump]
@[simp] theorem State.bump_dge (s : State) (c : Counter) : (s.bump c).dge = s.dge := by
  simp [State.bump]
@[simp] theorem State.bump_eng (s : State) (c : Counter) : (s.bump c).eng = s.eng := by
  simp [State.bump]

/-! `State.bumpTimes` -/

@[simp] theorem State.bumpTimes_pending (s : State) (c : Counter) (k : Nat) : (s.bumpTimes c k).pending = s.pending := by
  induction k generalizing s with
  | zero => rfl
  | succ k ih => simp [State.bumpTimes, ih]
@[simp] theorem State.bumpTimes_now (s : State) (c : Counter) (k : Nat) : (s.bumpTimes c k).now = s.now := by
  induction k generalizing s with
  | zero => rfl
  | succ k ih => simp [State.bumpTimes, ih]
@[simp] theorem State.bumpTimes_freeCtr (s : State) (c : Counter) (k : Nat) : (s.bumpTimes c k).freeCtr = s.freeCtr := by
  induction k generalizing s with
  | zero => rfl
  | succ k ih => simp [State.bumpTimes, ih]
@[simp] theorem State.bumpTimes_ft (s : State) (c : Counter) (k : Nat) : (s.bumpTimes c k).ft = s.ft := by
  induction k generalizing s with
  | zero => rfl
  | succ k ih => simp [State.bumpTimes, ih]
@[simp] theorem State.bumpTimes_cal (s : State) (c : Counter) (k : Nat) : (s.bumpTimes c k).cal = s.cal := by
  induction k generalizing s with
  | zero => rfl
  | succ k ih => simp [State.bumpTimes, ih]
@[simp] theorem State.bumpTimes_mgt (s : State) (c : Counter) (k : Nat) : (s.bumpTimes c k).mgt = s.mgt := by
  induction k generalizing s with
  | zero => rfl
  | succ k ih => simp [State.bumpTimes, ih]
@[simp] theorem State.bumpTimes_mbx (s : State) (c : Counter) (k : Nat) : (s.bumpTimes c k).mbx = s.mbx := by
  induction k generalizing s with
  | zero => rfl
  | succ k ih => simp [State.bumpTimes, ih]
@[simp] theorem State.bumpTimes_dram (s : State) (c : Counter) (k : Nat) : (s.bumpTimes c k).dram = s.dram := by
  induction k generalizing s with
  | zero => rfl
  | succ k ih => simp [State.bumpTimes, ih]
@[simp] theorem State.bumpTimes_flash (s : State) (c : Counter) (k : Nat) : (s.bumpTimes c k).flash = s.flash := by
  induction k generalizing s with
  | zero => rfl
  | succ k ih => simp [State.bumpTimes, ih]
@[simp] theorem State.bumpTimes_dge (s : State) (c : Counter) (k : Nat) : (s.bumpTimes c k).dge = s.dge := by
  induction k generalizing s with
  | zero => rfl
  | succ k ih => simp [State.bumpTimes, ih]
@[simp] theorem State.bumpTimes_eng (s : State) (c : Counter) (k : Nat) : (s.bumpTimes c k).eng = s.eng := by
  induction k generalizing s with
  | zero => rfl
  | succ k ih => simp [State.bumpTimes, ih]

/-! `State.raiseWith` -/

@[simp] theorem State.raiseWith_pending (s : State) (n inst word : Nat) (b : Bool) : (s.raiseWith n inst word b).pending = s.pending := by
  unfold State.raiseWith; split_ifs <;> simp
@[simp] theorem State.raiseWith_now (s : State) (n inst word : Nat) (b : Bool) : (s.raiseWith n inst word b).now = s.now := by
  unfold State.raiseWith; split_ifs <;> simp
@[simp] theorem State.raiseWith_freeCtr (s : State) (n inst word : Nat) (b : Bool) : (s.raiseWith n inst word b).freeCtr = s.freeCtr := by
  unfold State.raiseWith; split_ifs <;> simp
@[simp] theorem State.raiseWith_ft (s : State) (n inst word : Nat) (b : Bool) : (s.raiseWith n inst word b).ft = s.ft := by
  unfold State.raiseWith; split_ifs <;> simp
@[simp] theorem State.raiseWith_cal (s : State) (n inst word : Nat) (b : Bool) : (s.raiseWith n inst word b).cal = s.cal := by
  unfold State.raiseWith; split_ifs <;> simp
@[simp] theorem State.raiseWith_mgt (s : State) (n inst word : Nat) (b : Bool) : (s.raiseWith n inst word b).mgt = s.mgt := by
  unfold State.raiseWith; split_ifs <;> simp
@[simp] theorem State.raiseWith_mbx (s : State) (n inst word : Nat) (b : Bool) : (s.raiseWith n inst word b).mbx = s.mbx := by
  unfold State.raiseWith; split_ifs <;> simp
@[simp] theorem State.raiseWith_dram (s : State) (n inst word : Nat) (b : Bool) : (s.raiseWith n inst word b).dram = s.dram := by
  unfold State.raiseWith; split_ifs <;> simp
@[simp] theorem State.raiseWith_flash (s : State) (n inst word : Nat) (b : Bool) : (s.raiseWith n inst word b).flash = s.flash := by
  unfold State.raiseWith; split_ifs <;> simp
@[simp] theorem State.raiseWith_dge (s : State) (n inst word : Nat) (b : Bool) : (s.raiseWith n inst word b).dge = s.dge := by
  unfold State.raiseWith; split_ifs <;> simp
@[simp] theorem State.raiseWith_eng (s : State) (n inst word : Nat) (b : Bool) : (s.raiseWith n inst word b).eng = s.eng := by
  unfold State.raiseWith; split_ifs <;> simp

/-! `State.raise` -/

@[simp] theorem State.raise_pending (s : State) (n inst word : Nat) : (s.raise n inst word).pending = s.pending := by
  simp [State.raise]
@[simp] theorem State.raise_now (s : State) (n inst word : Nat) : (s.raise n inst word).now = s.now := by
  simp [State.raise]
@[simp] theorem State.raise_freeCtr (s : State) (n inst word : Nat) : (s.raise n inst word).freeCtr = s.freeCtr := by
  simp [State.raise]
@[simp] theorem State.raise_ft (s : State) (n inst word : Nat) : (s.raise n inst word).ft = s.ft := by
  simp [State.raise]
@[simp] theorem State.raise_cal (s : State) (n inst word : Nat) : (s.raise n inst word).cal = s.cal := by
  simp [State.raise]
@[simp] theorem State.raise_mgt (s : State) (n inst word : Nat) : (s.raise n inst word).mgt = s.mgt := by
  simp [State.raise]
@[simp] theorem State.raise_mbx (s : State) (n inst word : Nat) : (s.raise n inst word).mbx = s.mbx := by
  simp [State.raise]
@[simp] theorem State.raise_dram (s : State) (n inst word : Nat) : (s.raise n inst word).dram = s.dram := by
  simp [State.raise]
@[simp] theorem State.raise_flash (s : State) (n inst word : Nat) : (s.raise n inst word).flash = s.flash := by
  simp [State.raise]
@[simp] theorem State.raise_dge (s : State) (n inst word : Nat) : (s.raise n inst word).dge = s.dge := by
  simp [State.raise]
@[simp] theorem State.raise_eng (s : State) (n inst word : Nat) : (s.raise n inst word).eng = s.eng := by
  simp [State.raise]

/-! `State.raiseLive` -/

@[simp] theorem State.raiseLive_pending (s : State) (n inst word : Nat) : (s.raiseLive n inst word).pending = s.pending := by
  unfold State.raiseLive; split <;> simp
@[simp] theorem State.raiseLive_now (s : State) (n inst word : Nat) : (s.raiseLive n inst word).now = s.now := by
  unfold State.raiseLive; split <;> simp
@[simp] theorem State.raiseLive_freeCtr (s : State) (n inst word : Nat) : (s.raiseLive n inst word).freeCtr = s.freeCtr := by
  unfold State.raiseLive; split <;> simp
@[simp] theorem State.raiseLive_ft (s : State) (n inst word : Nat) : (s.raiseLive n inst word).ft = s.ft := by
  unfold State.raiseLive; split <;> simp
@[simp] theorem State.raiseLive_cal (s : State) (n inst word : Nat) : (s.raiseLive n inst word).cal = s.cal := by
  unfold State.raiseLive; split <;> simp
@[simp] theorem State.raiseLive_mgt (s : State) (n inst word : Nat) : (s.raiseLive n inst word).mgt = s.mgt := by
  unfold State.raiseLive; split <;> simp
@[simp] theorem State.raiseLive_mbx (s : State) (n inst word : Nat) : (s.raiseLive n inst word).mbx = s.mbx := by
  unfold State.raiseLive; split <;> simp
@[simp] theorem State.raiseLive_dram (s : State) (n inst word : Nat) : (s.raiseLive n inst word).dram = s.dram := by
  unfold State.raiseLive; split <;> simp
@[simp] theorem State.raiseLive_flash (s : State) (n inst word : Nat) : (s.raiseLive n inst word).flash = s.flash := by
  unfold State.raiseLive; split <;> simp
@[simp] theorem State.raiseLive_dge (s : State) (n inst word : Nat) : (s.raiseLive n inst word).dge = s.dge := by
  unfold State.raiseLive; split <;> simp
@[simp] theorem State.raiseLive_eng (s : State) (n inst word : Nat) : (s.raiseLive n inst word).eng = s.eng := by
  unfold State.raiseLive; split <;> simp

/-! `State.resumeBackground` -/

@[simp] theorem State.resumeBackground_pending (s : State) (st : Nat) : (s.resumeBackground st).pending = s.pending := by
  unfold State.resumeBackground; split <;> rfl
@[simp] theorem State.resumeBackground_now (s : State) (st : Nat) : (s.resumeBackground st).now = s.now := by
  unfold State.resumeBackground; split <;> rfl
@[simp] theorem State.resumeBackground_freeCtr (s : State) (st : Nat) : (s.resumeBackground st).freeCtr = s.freeCtr := by
  unfold State.resumeBackground; split <;> rfl
@[simp] theorem State.resumeBackground_out (s : State) (st : Nat) : (s.resumeBackground st).out = s.out := by
  unfold State.resumeBackground; split <;> rfl
@[simp] theorem State.resumeBackground_regs (s : State) (st : Nat) : (s.resumeBackground st).regs = s.regs := by
  unfold State.resumeBackground; split <;> rfl
@[simp] theorem State.resumeBackground_pwr (s : State) (st : Nat) : (s.resumeBackground st).pwr = s.pwr := by
  unfold State.resumeBackground; split <;> rfl
@[simp] theorem State.resumeBackground_ft (s : State) (st : Nat) : (s.resumeBackground st).ft = s.ft := by
  unfold State.resumeBackground; split <;> rfl
@[simp] theorem State.resumeBackground_cal (s : State) (st : Nat) : (s.resumeBackground st).cal = s.cal := by
  unfold State.resumeBackground; split <;> rfl
@[simp] theorem State.resumeBackground_link (s : State) (st : Nat) : (s.resumeBackground st).link = s.link := by
  unfold State.resumeBackground; split <;> rfl
@[simp] theorem State.resumeBackground_hub (s : State) (st : Nat) : (s.resumeBackground st).hub = s.hub := by
  unfold State.resumeBackground; split <;> rfl
@[simp] theorem State.resumeBackground_mgt (s : State) (st : Nat) : (s.resumeBackground st).mgt = s.mgt := by
  unfold State.resumeBackground; split <;> rfl
@[simp] theorem State.resumeBackground_mbx (s : State) (st : Nat) : (s.resumeBackground st).mbx = s.mbx := by
  unfold State.resumeBackground; split <;> rfl
@[simp] theorem State.resumeBackground_dram (s : State) (st : Nat) : (s.resumeBackground st).dram = s.dram := by
  unfold State.resumeBackground; split <;> rfl
@[simp] theorem State.resumeBackground_flash (s : State) (st : Nat) : (s.resumeBackground st).flash = s.flash := by
  unfold State.resumeBackground; split <;> rfl
@[simp] theorem State.resumeBackground_dge (s : State) (st : Nat) : (s.resumeBackground st).dge = s.dge := by
  unfold State.resumeBackground; split <;> rfl
@[simp] theorem State.resumeBackground_eng (s : State) (st : Nat) : (s.resumeBackground st).eng = s.eng := by
  unfold State.resumeBackground; split <;> rfl

/-! `State.setGrn` -/

@[simp] theorem State.setGrn_pending (s : State) (st : Nat) : (s.setGrn st).pending = s.pending := by
  unfold State.setGrn; split <;> simp
@[simp] theorem State.setGrn_now (s : State) (st : Nat) : (s.setGrn st).now = s.now := by
  unfold State.setGrn; split <;> simp
@[simp] theorem State.setGrn_freeCtr (s : State) (st : Nat) : (s.setGrn st).freeCtr = s.freeCtr := by
  unfold State.setGrn; split <;> simp
@[simp] theorem State.setGrn_ft (s : State) (st : Nat) : (s.setGrn st).ft = s.ft := by
  unfold State.setGrn; split <;> simp
@[simp] theorem State.setGrn_cal (s : State) (st : Nat) : (s.setGrn st).cal = s.cal := by
  unfold State.setGrn; split <;> simp
@[simp] theorem State.setGrn_mgt (s : State) (st : Nat) : (s.setGrn st).mgt = s.mgt := by
  unfold State.setGrn; split <;> simp
@[simp] theorem State.setGrn_mbx (s : State) (st : Nat) : (s.setGrn st).mbx = s.mbx := by
  unfold State.setGrn; split <;> simp
@[simp] theorem State.setGrn_dram (s : State) (st : Nat) : (s.setGrn st).dram = s.dram := by
  unfold State.setGrn; split <;> simp
@[simp] theorem State.setGrn_flash (s : State) (st : Nat) : (s.setGrn st).flash = s.flash := by
  unfold State.setGrn; split <;> simp
@[simp] theorem State.setGrn_dge (s : State) (st : Nat) : (s.setGrn st).dge = s.dge := by
  unfold State.setGrn; split <;> simp
@[simp] theorem State.setGrn_eng (s : State) (st : Nat) : (s.setGrn st).eng = s.eng := by
  unfold State.setGrn; split <;> simp

/-! ### The live status -/

@[simp] theorem LiveField.follow_pending (new s : State) (l : LiveField) : (l.follow new s).pending = s.pending := by
  unfold LiveField.follow; dsimp only; split_ifs <;> simp
@[simp] theorem LiveField.follow_now (new s : State) (l : LiveField) : (l.follow new s).now = s.now := by
  unfold LiveField.follow; dsimp only; split_ifs <;> simp
@[simp] theorem LiveField.follow_freeCtr (new s : State) (l : LiveField) : (l.follow new s).freeCtr = s.freeCtr := by
  unfold LiveField.follow; dsimp only; split_ifs <;> simp
@[simp] theorem LiveField.follow_out (new s : State) (l : LiveField) : (l.follow new s).out = s.out := by
  unfold LiveField.follow; dsimp only; split_ifs <;> simp
@[simp] theorem LiveField.follow_pwr (new s : State) (l : LiveField) : (l.follow new s).pwr = s.pwr := by
  unfold LiveField.follow; dsimp only; split_ifs <;> simp
@[simp] theorem LiveField.follow_ft (new s : State) (l : LiveField) : (l.follow new s).ft = s.ft := by
  unfold LiveField.follow; dsimp only; split_ifs <;> simp
@[simp] theorem LiveField.follow_cal (new s : State) (l : LiveField) : (l.follow new s).cal = s.cal := by
  unfold LiveField.follow; dsimp only; split_ifs <;> simp
@[simp] theorem LiveField.follow_link (new s : State) (l : LiveField) : (l.follow new s).link = s.link := by
  unfold LiveField.follow; dsimp only; split_ifs <;> simp
@[simp] theorem LiveField.follow_hub (new s : State) (l : LiveField) : (l.follow new s).hub = s.hub := by
  unfold LiveField.follow; dsimp only; split_ifs <;> simp
@[simp] theorem LiveField.follow_mgt (new s : State) (l : LiveField) : (l.follow new s).mgt = s.mgt := by
  unfold LiveField.follow; dsimp only; split_ifs <;> simp
@[simp] theorem LiveField.follow_mbx (new s : State) (l : LiveField) : (l.follow new s).mbx = s.mbx := by
  unfold LiveField.follow; dsimp only; split_ifs <;> simp
@[simp] theorem LiveField.follow_grn (new s : State) (l : LiveField) : (l.follow new s).grn = s.grn := by
  unfold LiveField.follow; dsimp only; split_ifs <;> simp
@[simp] theorem LiveField.follow_dram (new s : State) (l : LiveField) : (l.follow new s).dram = s.dram := by
  unfold LiveField.follow; dsimp only; split_ifs <;> simp
@[simp] theorem LiveField.follow_flash (new s : State) (l : LiveField) : (l.follow new s).flash = s.flash := by
  unfold LiveField.follow; dsimp only; split_ifs <;> simp
@[simp] theorem LiveField.follow_dge (new s : State) (l : LiveField) : (l.follow new s).dge = s.dge := by
  unfold LiveField.follow; dsimp only; split_ifs <;> simp
@[simp] theorem LiveField.follow_eng (new s : State) (l : LiveField) : (l.follow new s).eng = s.eng := by
  unfold LiveField.follow; dsimp only; split_ifs <;> simp

@[simp] theorem State.followAll_pending (new s : State) (ls : List LiveField) :
    (ls.foldl (LiveField.follow new) s).pending = s.pending :=
  State.foldl_keeps State.pending _ _ (fun s a => by simp) s
@[simp] theorem State.followAll_now (new s : State) (ls : List LiveField) :
    (ls.foldl (LiveField.follow new) s).now = s.now :=
  State.foldl_keeps State.now _ _ (fun s a => by simp) s
@[simp] theorem State.followAll_freeCtr (new s : State) (ls : List LiveField) :
    (ls.foldl (LiveField.follow new) s).freeCtr = s.freeCtr :=
  State.foldl_keeps State.freeCtr _ _ (fun s a => by simp) s
@[simp] theorem State.followAll_out (new s : State) (ls : List LiveField) :
    (ls.foldl (LiveField.follow new) s).out = s.out :=
  State.foldl_keeps State.out _ _ (fun s a => by simp) s
@[simp] theorem State.followAll_pwr (new s : State) (ls : List LiveField) :
    (ls.foldl (LiveField.follow new) s).pwr = s.pwr :=
  State.foldl_keeps State.pwr _ _ (fun s a => by simp) s
@[simp] theorem State.followAll_ft (new s : State) (ls : List LiveField) :
    (ls.foldl (LiveField.follow new) s).ft = s.ft :=
  State.foldl_keeps State.ft _ _ (fun s a => by simp) s
@[simp] theorem State.followAll_cal (new s : State) (ls : List LiveField) :
    (ls.foldl (LiveField.follow new) s).cal = s.cal :=
  State.foldl_keeps State.cal _ _ (fun s a => by simp) s
@[simp] theorem State.followAll_link (new s : State) (ls : List LiveField) :
    (ls.foldl (LiveField.follow new) s).link = s.link :=
  State.foldl_keeps State.link _ _ (fun s a => by simp) s
@[simp] theorem State.followAll_hub (new s : State) (ls : List LiveField) :
    (ls.foldl (LiveField.follow new) s).hub = s.hub :=
  State.foldl_keeps State.hub _ _ (fun s a => by simp) s
@[simp] theorem State.followAll_mgt (new s : State) (ls : List LiveField) :
    (ls.foldl (LiveField.follow new) s).mgt = s.mgt :=
  State.foldl_keeps State.mgt _ _ (fun s a => by simp) s
@[simp] theorem State.followAll_mbx (new s : State) (ls : List LiveField) :
    (ls.foldl (LiveField.follow new) s).mbx = s.mbx :=
  State.foldl_keeps State.mbx _ _ (fun s a => by simp) s
@[simp] theorem State.followAll_grn (new s : State) (ls : List LiveField) :
    (ls.foldl (LiveField.follow new) s).grn = s.grn :=
  State.foldl_keeps State.grn _ _ (fun s a => by simp) s
@[simp] theorem State.followAll_dram (new s : State) (ls : List LiveField) :
    (ls.foldl (LiveField.follow new) s).dram = s.dram :=
  State.foldl_keeps State.dram _ _ (fun s a => by simp) s
@[simp] theorem State.followAll_flash (new s : State) (ls : List LiveField) :
    (ls.foldl (LiveField.follow new) s).flash = s.flash :=
  State.foldl_keeps State.flash _ _ (fun s a => by simp) s
@[simp] theorem State.followAll_dge (new s : State) (ls : List LiveField) :
    (ls.foldl (LiveField.follow new) s).dge = s.dge :=
  State.foldl_keeps State.dge _ _ (fun s a => by simp) s
@[simp] theorem State.followAll_eng (new s : State) (ls : List LiveField) :
    (ls.foldl (LiveField.follow new) s).eng = s.eng :=
  State.foldl_keeps State.eng _ _ (fun s a => by simp) s

/-! `State.settleCal` -/

@[simp] theorem State.settleCal_pending (old s : State) : (State.settleCal old s).pending = s.pending := by
  unfold State.settleCal; split <;> simp
@[simp] theorem State.settleCal_now (old s : State) : (State.settleCal old s).now = s.now := by
  unfold State.settleCal; split <;> simp
@[simp] theorem State.settleCal_freeCtr (old s : State) : (State.settleCal old s).freeCtr = s.freeCtr := by
  unfold State.settleCal; split <;> simp
@[simp] theorem State.settleCal_out (old s : State) : (State.settleCal old s).out = s.out := by
  unfold State.settleCal; split <;> simp
@[simp] theorem State.settleCal_pwr (old s : State) : (State.settleCal old s).pwr = s.pwr := by
  unfold State.settleCal; split <;> simp
@[simp] theorem State.settleCal_ft (old s : State) : (State.settleCal old s).ft = s.ft := by
  unfold State.settleCal; split <;> simp
@[simp] theorem State.settleCal_cal (old s : State) : (State.settleCal old s).cal = s.cal := by
  unfold State.settleCal; split <;> simp
@[simp] theorem State.settleCal_link (old s : State) : (State.settleCal old s).link = s.link := by
  unfold State.settleCal; split <;> simp
@[simp] theorem State.settleCal_hub (old s : State) : (State.settleCal old s).hub = s.hub := by
  unfold State.settleCal; split <;> simp
@[simp] theorem State.settleCal_mgt (old s : State) : (State.settleCal old s).mgt = s.mgt := by
  unfold State.settleCal; split <;> simp
@[simp] theorem State.settleCal_mbx (old s : State) : (State.settleCal old s).mbx = s.mbx := by
  unfold State.settleCal; split <;> simp
@[simp] theorem State.settleCal_grn (old s : State) : (State.settleCal old s).grn = s.grn := by
  unfold State.settleCal; split <;> simp
@[simp] theorem State.settleCal_dram (old s : State) : (State.settleCal old s).dram = s.dram := by
  unfold State.settleCal; split <;> simp
@[simp] theorem State.settleCal_flash (old s : State) : (State.settleCal old s).flash = s.flash := by
  unfold State.settleCal; split <;> simp
@[simp] theorem State.settleCal_dge (old s : State) : (State.settleCal old s).dge = s.dge := by
  unfold State.settleCal; split <;> simp
@[simp] theorem State.settleCal_eng (old s : State) : (State.settleCal old s).eng = s.eng := by
  unfold State.settleCal; split <;> simp

/-! `State.settleReady` -/

@[simp] theorem State.settleReady_pending (old s : State) : (State.settleReady old s).pending = s.pending := by
  unfold State.settleReady; split
  · rfl
  · split <;> simp
@[simp] theorem State.settleReady_now (old s : State) : (State.settleReady old s).now = s.now := by
  unfold State.settleReady; split
  · rfl
  · split <;> simp
@[simp] theorem State.settleReady_freeCtr (old s : State) : (State.settleReady old s).freeCtr = s.freeCtr := by
  unfold State.settleReady; split
  · rfl
  · split <;> simp
@[simp] theorem State.settleReady_pwr (old s : State) : (State.settleReady old s).pwr = s.pwr := by
  unfold State.settleReady; split
  · rfl
  · split <;> simp
@[simp] theorem State.settleReady_ft (old s : State) : (State.settleReady old s).ft = s.ft := by
  unfold State.settleReady; split
  · rfl
  · split <;> simp
@[simp] theorem State.settleReady_cal (old s : State) : (State.settleReady old s).cal = s.cal := by
  unfold State.settleReady; split
  · rfl
  · split <;> simp
@[simp] theorem State.settleReady_hub (old s : State) : (State.settleReady old s).hub = s.hub := by
  unfold State.settleReady; split
  · rfl
  · split <;> simp
@[simp] theorem State.settleReady_mgt (old s : State) : (State.settleReady old s).mgt = s.mgt := by
  unfold State.settleReady; split
  · rfl
  · split <;> simp
@[simp] theorem State.settleReady_mbx (old s : State) : (State.settleReady old s).mbx = s.mbx := by
  unfold State.settleReady; split
  · rfl
  · split <;> simp
@[simp] theorem State.settleReady_grn (old s : State) : (State.settleReady old s).grn = s.grn := by
  unfold State.settleReady; split
  · rfl
  · split <;> simp
@[simp] theorem State.settleReady_dram (old s : State) : (State.settleReady old s).dram = s.dram := by
  unfold State.settleReady; split
  · rfl
  · split <;> simp
@[simp] theorem State.settleReady_flash (old s : State) : (State.settleReady old s).flash = s.flash := by
  unfold State.settleReady; split
  · rfl
  · split <;> simp
@[simp] theorem State.settleReady_dge (old s : State) : (State.settleReady old s).dge = s.dge := by
  unfold State.settleReady; split
  · rfl
  · split <;> simp
@[simp] theorem State.settleReady_eng (old s : State) : (State.settleReady old s).eng = s.eng := by
  unfold State.settleReady; split
  · rfl
  · split <;> simp

/-! `State.copyGrn` -/

@[simp] theorem State.copyGrn_pending (old s : State) : (State.copyGrn old s).pending = s.pending := by
  unfold State.copyGrn; split <;> simp
@[simp] theorem State.copyGrn_now (old s : State) : (State.copyGrn old s).now = s.now := by
  unfold State.copyGrn; split <;> simp
@[simp] theorem State.copyGrn_freeCtr (old s : State) : (State.copyGrn old s).freeCtr = s.freeCtr := by
  unfold State.copyGrn; split <;> simp
@[simp] theorem State.copyGrn_out (old s : State) : (State.copyGrn old s).out = s.out := by
  unfold State.copyGrn; split <;> simp
@[simp] theorem State.copyGrn_regs (old s : State) : (State.copyGrn old s).regs = s.regs := by
  unfold State.copyGrn; split <;> simp
@[simp] theorem State.copyGrn_pwr (old s : State) : (State.copyGrn old s).pwr = s.pwr := by
  unfold State.copyGrn; split <;> simp
@[simp] theorem State.copyGrn_ft (old s : State) : (State.copyGrn old s).ft = s.ft := by
  unfold State.copyGrn; split <;> simp
@[simp] theorem State.copyGrn_cal (old s : State) : (State.copyGrn old s).cal = s.cal := by
  unfold State.copyGrn; split <;> simp
@[simp] theorem State.copyGrn_link (old s : State) : (State.copyGrn old s).link = s.link := by
  unfold State.copyGrn; split <;> simp
@[simp] theorem State.copyGrn_mgt (old s : State) : (State.copyGrn old s).mgt = s.mgt := by
  unfold State.copyGrn; split <;> simp
@[simp] theorem State.copyGrn_mbx (old s : State) : (State.copyGrn old s).mbx = s.mbx := by
  unfold State.copyGrn; split <;> simp
@[simp] theorem State.copyGrn_grn (old s : State) : (State.copyGrn old s).grn = s.grn := by
  unfold State.copyGrn; split <;> simp
@[simp] theorem State.copyGrn_dram (old s : State) : (State.copyGrn old s).dram = s.dram := by
  unfold State.copyGrn; split <;> simp
@[simp] theorem State.copyGrn_flash (old s : State) : (State.copyGrn old s).flash = s.flash := by
  unfold State.copyGrn; split <;> simp
@[simp] theorem State.copyGrn_dge (old s : State) : (State.copyGrn old s).dge = s.dge := by
  unfold State.copyGrn; split <;> simp
@[simp] theorem State.copyGrn_eng (old s : State) : (State.copyGrn old s).eng = s.eng := by
  unfold State.copyGrn; split <;> simp

/-! `State.alertGrn` -/

@[simp] theorem State.alertGrn_pending (old s : State) : (State.alertGrn old s).pending = s.pending := by
  unfold State.alertGrn; split <;> simp
@[simp] theorem State.alertGrn_now (old s : State) : (State.alertGrn old s).now = s.now := by
  unfold State.alertGrn; split <;> simp
@[simp] theorem State.alertGrn_freeCtr (old s : State) : (State.alertGrn old s).freeCtr = s.freeCtr := by
  unfold State.alertGrn; split <;> simp
@[simp] theorem State.alertGrn_out (old s : State) : (State.alertGrn old s).out = s.out := by
  unfold State.alertGrn; split <;> simp
@[simp] theorem State.alertGrn_pwr (old s : State) : (State.alertGrn old s).pwr = s.pwr := by
  unfold State.alertGrn; split <;> simp
@[simp] theorem State.alertGrn_ft (old s : State) : (State.alertGrn old s).ft = s.ft := by
  unfold State.alertGrn; split <;> simp
@[simp] theorem State.alertGrn_cal (old s : State) : (State.alertGrn old s).cal = s.cal := by
  unfold State.alertGrn; split <;> simp
@[simp] theorem State.alertGrn_link (old s : State) : (State.alertGrn old s).link = s.link := by
  unfold State.alertGrn; split <;> simp
@[simp] theorem State.alertGrn_hub (old s : State) : (State.alertGrn old s).hub = s.hub := by
  unfold State.alertGrn; split <;> simp
@[simp] theorem State.alertGrn_mgt (old s : State) : (State.alertGrn old s).mgt = s.mgt := by
  unfold State.alertGrn; split <;> simp
@[simp] theorem State.alertGrn_mbx (old s : State) : (State.alertGrn old s).mbx = s.mbx := by
  unfold State.alertGrn; split <;> simp
@[simp] theorem State.alertGrn_grn (old s : State) : (State.alertGrn old s).grn = s.grn := by
  unfold State.alertGrn; split <;> simp
@[simp] theorem State.alertGrn_dram (old s : State) : (State.alertGrn old s).dram = s.dram := by
  unfold State.alertGrn; split <;> simp
@[simp] theorem State.alertGrn_flash (old s : State) : (State.alertGrn old s).flash = s.flash := by
  unfold State.alertGrn; split <;> simp
@[simp] theorem State.alertGrn_dge (old s : State) : (State.alertGrn old s).dge = s.dge := by
  unfold State.alertGrn; split <;> simp
@[simp] theorem State.alertGrn_eng (old s : State) : (State.alertGrn old s).eng = s.eng := by
  unfold State.alertGrn; split <;> simp

/-! `State.signalGrn` -/

@[simp] theorem State.signalGrn_pending (old s : State) : (State.signalGrn old s).pending = s.pending := by
  unfold State.signalGrn; split <;> simp
@[simp] theorem State.signalGrn_now (old s : State) : (State.signalGrn old s).now = s.now := by
  unfold State.signalGrn; split <;> simp
@[simp] theorem State.signalGrn_freeCtr (old s : State) : (State.signalGrn old s).freeCtr = s.freeCtr := by
  unfold State.signalGrn; split <;> simp
@[simp] theorem State.signalGrn_regs (old s : State) : (State.signalGrn old s).regs = s.regs := by
  unfold State.signalGrn; split <;> simp
@[simp] theorem State.signalGrn_pwr (old s : State) : (State.signalGrn old s).pwr = s.pwr := by
  unfold State.signalGrn; split <;> simp
@[simp] theorem State.signalGrn_ft (old s : State) : (State.signalGrn old s).ft = s.ft := by
  unfold State.signalGrn; split <;> simp
@[simp] theorem State.signalGrn_cal (old s : State) : (State.signalGrn old s).cal = s.cal := by
  unfold State.signalGrn; split <;> simp
@[simp] theorem State.signalGrn_hub (old s : State) : (State.signalGrn old s).hub = s.hub := by
  unfold State.signalGrn; split <;> simp
@[simp] theorem State.signalGrn_mgt (old s : State) : (State.signalGrn old s).mgt = s.mgt := by
  unfold State.signalGrn; split <;> simp
@[simp] theorem State.signalGrn_mbx (old s : State) : (State.signalGrn old s).mbx = s.mbx := by
  unfold State.signalGrn; split <;> simp
@[simp] theorem State.signalGrn_grn (old s : State) : (State.signalGrn old s).grn = s.grn := by
  unfold State.signalGrn; split <;> simp
@[simp] theorem State.signalGrn_dram (old s : State) : (State.signalGrn old s).dram = s.dram := by
  unfold State.signalGrn; split <;> simp
@[simp] theorem State.signalGrn_flash (old s : State) : (State.signalGrn old s).flash = s.flash := by
  unfold State.signalGrn; split <;> simp
@[simp] theorem State.signalGrn_dge (old s : State) : (State.signalGrn old s).dge = s.dge := by
  unfold State.signalGrn; split <;> simp
@[simp] theorem State.signalGrn_eng (old s : State) : (State.signalGrn old s).eng = s.eng := by
  unfold State.signalGrn; split <;> simp

/-! `State.settleGrn` -/

@[simp] theorem State.settleGrn_pending (old s : State) : (State.settleGrn old s).pending = s.pending := by
  unfold State.settleGrn; simp
@[simp] theorem State.settleGrn_now (old s : State) : (State.settleGrn old s).now = s.now := by
  unfold State.settleGrn; simp
@[simp] theorem State.settleGrn_freeCtr (old s : State) : (State.settleGrn old s).freeCtr = s.freeCtr := by
  unfold State.settleGrn; simp
@[simp] theorem State.settleGrn_pwr (old s : State) : (State.settleGrn old s).pwr = s.pwr := by
  unfold State.settleGrn; simp
@[simp] theorem State.settleGrn_ft (old s : State) : (State.settleGrn old s).ft = s.ft := by
  unfold State.settleGrn; simp
@[simp] theorem State.settleGrn_cal (old s : State) : (State.settleGrn old s).cal = s.cal := by
  unfold State.settleGrn; simp
@[simp] theorem State.settleGrn_mgt (old s : State) : (State.settleGrn old s).mgt = s.mgt := by
  unfold State.settleGrn; simp
@[simp] theorem State.settleGrn_mbx (old s : State) : (State.settleGrn old s).mbx = s.mbx := by
  unfold State.settleGrn; simp
@[simp] theorem State.settleGrn_grn (old s : State) : (State.settleGrn old s).grn = s.grn := by
  unfold State.settleGrn; simp
@[simp] theorem State.settleGrn_dram (old s : State) : (State.settleGrn old s).dram = s.dram := by
  unfold State.settleGrn; simp
@[simp] theorem State.settleGrn_flash (old s : State) : (State.settleGrn old s).flash = s.flash := by
  unfold State.settleGrn; simp
@[simp] theorem State.settleGrn_dge (old s : State) : (State.settleGrn old s).dge = s.dge := by
  unfold State.settleGrn; simp
@[simp] theorem State.settleGrn_eng (old s : State) : (State.settleGrn old s).eng = s.eng := by
  unfold State.settleGrn; simp

/-! `State.settleFirst` -/

@[simp] theorem State.settleFirst_pending (old s : State) : (State.settleFirst old s).pending = s.pending := by
  unfold State.settleFirst; split <;> simp
@[simp] theorem State.settleFirst_now (old s : State) : (State.settleFirst old s).now = s.now := by
  unfold State.settleFirst; split <;> simp
@[simp] theorem State.settleFirst_freeCtr (old s : State) : (State.settleFirst old s).freeCtr = s.freeCtr := by
  unfold State.settleFirst; split <;> simp
@[simp] theorem State.settleFirst_out (old s : State) : (State.settleFirst old s).out = s.out := by
  unfold State.settleFirst; split <;> simp
@[simp] theorem State.settleFirst_regs (old s : State) : (State.settleFirst old s).regs = s.regs := by
  unfold State.settleFirst; split <;> simp
@[simp] theorem State.settleFirst_pwr (old s : State) : (State.settleFirst old s).pwr = s.pwr := by
  unfold State.settleFirst; split <;> simp
@[simp] theorem State.settleFirst_ft (old s : State) : (State.settleFirst old s).ft = s.ft := by
  unfold State.settleFirst; split <;> simp
@[simp] theorem State.settleFirst_cal (old s : State) : (State.settleFirst old s).cal = s.cal := by
  unfold State.settleFirst; split <;> simp
@[simp] theorem State.settleFirst_link (old s : State) : (State.settleFirst old s).link = s.link := by
  unfold State.settleFirst; split <;> simp
@[simp] theorem State.settleFirst_mgt (old s : State) : (State.settleFirst old s).mgt = s.mgt := by
  unfold State.settleFirst; split <;> simp
@[simp] theorem State.settleFirst_mbx (old s : State) : (State.settleFirst old s).mbx = s.mbx := by
  unfold State.settleFirst; split <;> simp
@[simp] theorem State.settleFirst_grn (old s : State) : (State.settleFirst old s).grn = s.grn := by
  unfold State.settleFirst; split <;> simp
@[simp] theorem State.settleFirst_dram (old s : State) : (State.settleFirst old s).dram = s.dram := by
  unfold State.settleFirst; split <;> simp
@[simp] theorem State.settleFirst_flash (old s : State) : (State.settleFirst old s).flash = s.flash := by
  unfold State.settleFirst; split <;> simp
@[simp] theorem State.settleFirst_dge (old s : State) : (State.settleFirst old s).dge = s.dge := by
  unfold State.settleFirst; split <;> simp
@[simp] theorem State.settleFirst_eng (old s : State) : (State.settleFirst old s).eng = s.eng := by
  unfold State.settleFirst; split <;> simp

/-! `State.settleLive` -/

@[simp] theorem State.settleLive_pending (s : State) : (s.settleLive).pending = s.pending := by
  rw [State.settleLive]; simp
@[simp] theorem State.settleLive_now (s : State) : (s.settleLive).now = s.now := by
  rw [State.settleLive]; simp
@[simp] theorem State.settleLive_freeCtr (s : State) : (s.settleLive).freeCtr = s.freeCtr := by
  rw [State.settleLive]; simp
@[simp] theorem State.settleLive_out (s : State) : (s.settleLive).out = s.out := by
  rw [State.settleLive]; simp
@[simp] theorem State.settleLive_pwr (s : State) : (s.settleLive).pwr = s.pwr := by
  rw [State.settleLive]; simp
@[simp] theorem State.settleLive_ft (s : State) : (s.settleLive).ft = s.ft := by
  rw [State.settleLive]; simp
@[simp] theorem State.settleLive_cal (s : State) : (s.settleLive).cal = s.cal := by
  rw [State.settleLive]; simp
@[simp] theorem State.settleLive_link (s : State) : (s.settleLive).link = s.link := by
  rw [State.settleLive]; simp
@[simp] theorem State.settleLive_hub (s : State) : (s.settleLive).hub = s.hub := by
  rw [State.settleLive]; simp
@[simp] theorem State.settleLive_mgt (s : State) : (s.settleLive).mgt = s.mgt := by
  rw [State.settleLive]; simp
@[simp] theorem State.settleLive_mbx (s : State) : (s.settleLive).mbx = s.mbx := by
  rw [State.settleLive]; simp
@[simp] theorem State.settleLive_grn (s : State) : (s.settleLive).grn = s.grn := by
  rw [State.settleLive]; simp
@[simp] theorem State.settleLive_dram (s : State) : (s.settleLive).dram = s.dram := by
  rw [State.settleLive]; simp
@[simp] theorem State.settleLive_flash (s : State) : (s.settleLive).flash = s.flash := by
  rw [State.settleLive]; simp
@[simp] theorem State.settleLive_dge (s : State) : (s.settleLive).dge = s.dge := by
  rw [State.settleLive]; simp
@[simp] theorem State.settleLive_eng (s : State) : (s.settleLive).eng = s.eng := by
  rw [State.settleLive]; simp

/-! `State.settle` -/

@[simp] theorem State.settle_pending (old new : State) : (State.settle old new).pending = new.pending := by
  rw [State.settle]; simp
@[simp] theorem State.settle_now (old new : State) : (State.settle old new).now = new.now := by
  rw [State.settle]; simp
@[simp] theorem State.settle_freeCtr (old new : State) : (State.settle old new).freeCtr = new.freeCtr := by
  rw [State.settle]; simp
@[simp] theorem State.settle_pwr (old new : State) : (State.settle old new).pwr = new.pwr := by
  rw [State.settle]; simp
@[simp] theorem State.settle_ft (old new : State) : (State.settle old new).ft = new.ft := by
  rw [State.settle]; simp
@[simp] theorem State.settle_cal (old new : State) : (State.settle old new).cal = new.cal := by
  rw [State.settle]; simp
@[simp] theorem State.settle_mgt (old new : State) : (State.settle old new).mgt = new.mgt := by
  rw [State.settle]; simp
@[simp] theorem State.settle_mbx (old new : State) : (State.settle old new).mbx = new.mbx := by
  rw [State.settle]; simp
@[simp] theorem State.settle_grn (old new : State) : (State.settle old new).grn = new.grn := by
  rw [State.settle]; simp
@[simp] theorem State.settle_dram (old new : State) : (State.settle old new).dram = new.dram := by
  rw [State.settle]; simp
@[simp] theorem State.settle_flash (old new : State) : (State.settle old new).flash = new.flash := by
  rw [State.settle]; simp
@[simp] theorem State.settle_dge (old new : State) : (State.settle old new).dge = new.dge := by
  rw [State.settle]; simp
@[simp] theorem State.settle_eng (old new : State) : (State.settle old new).eng = new.eng := by
  rw [State.settle]; simp


end Sys2Proof.Machine
end

