-- ==== Sys2Proof/Laws/Registers.lean ====
section
/-!
SUPPORT. Which register fields the shared computations write: a fault event (R441 to R453) and the settling of the live
status (R465, R489) leave every field outside their own lists as it was, and after the settling each live field holds
what the state gives it.
-/

namespace Sys2Proof.Machine

theorem State.foldl_getN {α : Type} (step : State → α → State) (g : Field) (m : Nat) (l : List α)
    (h : ∀ s a, (step s a).getN g m = s.getN g m) (s : State) : (l.foldl step s).getN g m = s.getN g m :=
  State.foldl_keeps (fun s => s.getN g m) step l h s

theorem State.getN_same {s t : State} (h : t.regs = s.regs) (g : Field) (m : Nat) : t.getN g m = s.getN g m :=
  State.getN_congr h g m

theorem State.setSticky_getN (s : State) (n : Nat) (b : Bool) {g : Field} (h : g.outside raiseFields) (m : Nat) :
    (s.setBit64 F.FLT_STICKY_STICKY n b).getN g m = s.getN g m := by
  simp only [Field.outside, raiseFields, List.forall_mem_cons] at h
  simp [State.setBit64, State.getN_setN_of_id, h]

theorem State.setLive_getN (s : State) (n : Nat) (b : Bool) {g : Field} (h : g.outside raiseFields) (m : Nat) :
    (s.setBit64 F.FLT_LIVE_LIVE n b).getN g m = s.getN g m := by
  simp only [Field.outside, raiseFields, List.forall_mem_cons] at h
  simp [State.setBit64, State.getN_setN_of_id, h]

theorem State.clearLive_getN (s : State) (n : Nat) {g : Field} (h : g.outside raiseFields) (m : Nat) :
    (s.clearLive n).getN g m = s.getN g m := by
  exact State.setLive_getN s n false h m

theorem State.captureFirst_getN (s : State) (r : FaultRecord) {g : Field} (h : g.outside raiseFields) (m : Nat) :
    (s.captureFirst r).getN g m = s.getN g m := by
  simp only [Field.outside, raiseFields, List.forall_mem_cons] at h
  simp [State.captureFirst, State.set, State.getN_setN_of_id, h]

theorem State.writeHistory_getN (s : State) (i : Nat) (r : FaultRecord) {g : Field} (h : g.outside raiseFields) (m : Nat) :
    (s.writeHistory i r).getN g m = s.getN g m := by
  simp only [Field.outside, raiseFields, List.forall_mem_cons] at h
  simp [State.writeHistory, State.set, State.getN_setN_of_id, h]

theorem State.enterHistory_getN (s : State) {g : Field} (h : g.outside raiseFields) (m : Nat) :
    (s.enterHistory).getN g m = s.getN g m := by
  unfold State.enterHistory
  split
  · rfl
  · exact (State.getN_same (State.setIntake_regs _ _) g m).trans (State.writeHistory_getN _ _ _ h m)

theorem State.pauseMigrations_getN (s : State) {g : Field} (h : g.outside raiseFields) (m : Nat) :
    (s.pauseMigrations).getN g m = s.getN g m := by
  simp only [Field.outside, raiseFields, List.forall_mem_cons] at h
  refine State.foldl_getN _ g m _ (fun s a => ?_) s
  split
  · simp [State.getN_setN_of_id, h]
  · rfl

theorem State.beginDump_getN (s : State) (c : Nat) (p : Bool) {g : Field} (h : g.outside raiseFields) (m : Nat) :
    (s.beginDump c p).getN g m = s.getN g m := by
  have hs := h F.GRN_STATE_STATE (by simp [raiseFields])
  have hc := h F.GRN_STATE_CAUSE (by simp [raiseFields])
  unfold State.beginDump
  split
  · exact (State.pauseMigrations_getN _ h m).trans (State.getN_same (by simp) g m)
  · refine (State.getN_setN_of_id _ hc _ _ m).trans ((State.getN_setN_of_id _ hs _ _ m).trans ?_)
    exact (State.pauseMigrations_getN _ h m).trans (State.getN_same (by simp) g m)

theorem State.requestDump_getN (s : State) (n : Nat) {g : Field} (h : g.outside raiseFields) (m : Nat) :
    ((s.requestDump n).2).getN g m = s.getN g m := by
  have hq := h F.GRN_STATE_REQ_SRC (by simp [raiseFields])
  have hr := h F.GRN_STATE_REFUSED (by simp [raiseFields])
  unfold State.requestDump
  split
  · refine (State.getN_setN_of_id _ hr _ _ m).trans ((State.getN_setN_of_id _ hq _ _ m).trans ?_)
    exact State.beginDump_getN s 2 false h m
  · exact State.getN_setN_of_id _ hr _ _ m

/-- A counter's quiet increment writes only its own fields. -/
theorem State.bumpQuiet_getN (s : State) (c : Counter) (n : Nat) {g : Field} (hc : c.count.id ≠ g.id)
    (hs : c.sat.id ≠ g.id) (m : Nat) : (s.bumpQuiet c n).2.getN g m = s.getN g m := by
  unfold State.bumpQuiet
  split_ifs <;> simp [State.getN_setN_of_id, hc, hs]

theorem State.bumpFault_getN (s : State) (n : Nat) {g : Field} (h : g.outside raiseFields) (m : Nat) :
    ((s.bumpQuiet C.faultCount n).2).getN g m = s.getN g m := by
  exact State.bumpQuiet_getN s _ n (h F.FLT_SRC_COUNT_COUNT (by simp [raiseFields]))
    (h F.FLT_SRC_COUNT_SAT (by simp [raiseFields])) m

theorem State.makeRoom_getN (s : State) {g : Field} (h : g.outside raiseFields) (m : Nat) :
    (s.makeRoom).getN g m = s.getN g m := by
  unfold State.makeRoom
  split
  · rfl
  · exact State.enterHistory_getN s h m

theorem State.skipRecord_getN (s : State) {g : Field} (h : g.outside raiseFields) (m : Nat) :
    (s.skipRecord).getN g m = s.getN g m := by
  refine (State.getN_same (t := s.skipRecord) rfl g m).trans ?_
  exact State.bumpQuiet_getN s _ 0 (h F.FLT_HIST_SKIP_CNT_COUNT (by simp [raiseFields]))
    (h F.FLT_HIST_SKIP_CNT_SAT (by simp [raiseFields])) m

theorem State.takeRecord_getN (s : State) (r : FaultRecord) (b : Bool) {g : Field} (h : g.outside raiseFields) (m : Nat) :
    (s.takeRecord r b).getN g m = s.getN g m := by
  unfold State.takeRecord
  split
  · exact (State.getN_same (by simp) g m).trans (State.makeRoom_getN s h m)
  · exact State.skipRecord_getN s h m

theorem State.markSource_getN (s : State) (i : SourceInfo) (n : Nat) {g : Field} (h : g.outside raiseFields) (m : Nat) :
    (s.markSource i n).getN g m = s.getN g m := by
  unfold State.markSource
  split
  · exact (State.setLive_getN _ n true h m).trans (State.setSticky_getN s n true h m)
  · exact State.setSticky_getN s n true h m

theorem State.captureSevere_getN (s : State) (b : Bool) (r : FaultRecord) {g : Field} (h : g.outside raiseFields) (m : Nat) :
    (s.captureSevere b r).getN g m = s.getN g m := by
  unfold State.captureSevere
  split
  · exact State.captureFirst_getN _ _ h m
  · rfl

theorem State.captureEvent_getN (s : State) (i : SourceInfo) (n inst word : Nat) (b : Bool) {g : Field} (h : g.outside raiseFields) (m : Nat) :
    (s.captureEvent i n inst word b).getN g m = s.getN g m := by
  unfold State.captureEvent
  exact (State.takeRecord_getN _ _ _ h m).trans ((State.captureSevere_getN _ _ _ h m).trans
    ((State.getN_same (by simp) g m).trans (State.markSource_getN s i n h m)))

theorem State.reactAlert_getN (s : State) (b : Bool) {g : Field} (h : g.outside raiseFields) (m : Nat) :
    (s.reactAlert b).getN g m = s.getN g m := by
  unfold State.reactAlert
  split
  · exact State.getN_setN_of_id s (h F.MGT_ALERT_FAULT (by simp [raiseFields])) 0 1 m
  · rfl

theorem State.reactDump_getN (s : State) (b : Bool) {g : Field} (h : g.outside raiseFields) (m : Nat) :
    (s.reactDump b).getN g m = s.getN g m := by
  unfold State.reactDump
  split
  · exact State.requestDump_getN s 3 h m
  · rfl

theorem State.react_getN (s : State) (n inst : Nat) (b : Bool) {g : Field} (h : g.outside raiseFields) (m : Nat) :
    (s.react n inst b).getN g m = s.getN g m := by
  unfold State.react
  refine (State.getN_same (State.reactReset_regs _ _ _) g m).trans ((State.reactDump_getN _ _ h m).trans ?_)
  refine (State.getN_same (State.reactTrap_regs _ _ _ _) g m).trans ((State.reactAlert_getN _ _ h m).trans ?_)
  exact State.getN_same (State.reactVector_regs _ _) g m

theorem State.latchPersist_getN (s : State) (n : Nat) {g : Field} (h : g.outside raiseFields) (m : Nat) :
    (s.latchPersist n).getN g m = s.getN g m := by
  have h1 := h F.FLT_PERSIST_LATCHED (by simp [raiseFields])
  have h2 := h F.FLT_PERSIST_SOURCE (by simp [raiseFields])
  have h3 := h F.GRN_STATE_STATE (by simp [raiseFields])
  have h4 := h F.GRN_STATE_CAUSE (by simp [raiseFields])
  unfold State.latchPersist
  split
  · rfl
  · refine (State.getN_same (State.failDump_regs _) g m).trans ?_
    refine (State.getN_same (State.closeIngress_regs _) g m).trans ((State.clearLive_getN _ 103 h m).trans ?_)
    refine (State.getN_setN_of_id _ h4 _ _ m).trans ((State.getN_setN_of_id _ h3 _ _ m).trans ?_)
    exact (State.getN_setN_of_id _ h2 _ _ m).trans (State.getN_setN_of_id _ h1 _ _ m)

theorem State.latchIf_getN (s : State) (b : Bool) (n : Nat) {g : Field} (h : g.outside raiseFields) (m : Nat) :
    (s.latchIf b n).getN g m = s.getN g m := by
  unfold State.latchIf
  split
  · exact State.latchPersist_getN s n h m
  · rfl

theorem State.raiseCore_getN (s : State) (n inst word : Nat) (b : Bool) {g : Field} (h : g.outside raiseFields) (m : Nat) :
    (s.raiseCore n inst word b).getN g m = s.getN g m := by
  unfold State.raiseCore
  split
  · rfl
  · refine (State.react_getN _ _ _ _ h m).trans ((State.latchIf_getN _ _ _ h m).trans ?_)
    exact (State.getN_same (State.logCxlEvent_regs _ _ _ _) g m).trans (State.captureEvent_getN _ _ _ _ _ _ h m)

theorem State.raiseSaturated_getN (s : State) (c : Counter) (n : Nat) {g : Field} (h : g.outside raiseFields) (m : Nat) :
    (s.raiseSaturated c n).getN g m = s.getN g m := by
  unfold State.raiseSaturated
  split
  · rfl
  · exact (State.raiseCore_getN _ _ _ _ _ h m).trans (State.bumpFault_getN s 0 h m)

/-- A counter's increment writes only its own fields and those of a fault event. -/
theorem State.bumpN_getN (s : State) (c : Counter) (n : Nat) {g : Field} (h : g.outside raiseFields)
    (hc : c.count.id ≠ g.id) (hs : c.sat.id ≠ g.id) (m : Nat) : (s.bumpN c n).getN g m = s.getN g m := by
  unfold State.bumpN
  simp only
  split
  · exact (State.raiseSaturated_getN _ c n h m).trans (State.bumpQuiet_getN s c n hc hs m)
  · exact State.bumpQuiet_getN s c n hc hs m

theorem State.bump_getN (s : State) (c : Counter) {g : Field} (h : g.outside raiseFields)
    (hc : c.count.id ≠ g.id) (hs : c.sat.id ≠ g.id) (m : Nat) : (s.bump c).getN g m = s.getN g m :=
  State.bumpN_getN s c 0 h hc hs m

theorem State.bumpTimes_getN (c : Counter) (k : Nat) (s : State) {g : Field} (h : g.outside raiseFields)
    (hc : c.count.id ≠ g.id) (hs : c.sat.id ≠ g.id) (m : Nat) : (s.bumpTimes c k).getN g m = s.getN g m := by
  induction k generalizing s with
  | zero => rfl
  | succ k ih => exact (ih _).trans (State.bump_getN s c h hc hs m)

theorem State.raiseWith_getN (s : State) (n inst word : Nat) (b : Bool) {g : Field} (h : g.outside raiseFields) (m : Nat) :
    (s.raiseWith n inst word b).getN g m = s.getN g m := by
  have hf : C.faultCount.count.id ≠ g.id := h F.FLT_SRC_COUNT_COUNT (by simp [raiseFields])
  have hs : C.faultCount.sat.id ≠ g.id := h F.FLT_SRC_COUNT_SAT (by simp [raiseFields])
  unfold State.raiseWith
  split
  · rfl
  · refine (State.raiseCore_getN _ _ _ _ _ h m).trans ?_
    split
    · exact State.bumpFault_getN s 0 h m
    · exact State.bumpN_getN s _ n h hf hs m

theorem State.raise_getN (s : State) (n inst word : Nat) {g : Field} (h : g.outside raiseFields) (m : Nat) :
    (s.raise n inst word).getN g m = s.getN g m := by
  exact State.raiseWith_getN s n inst word false h m

theorem State.raiseLive_getN (s : State) (n inst word : Nat) {g : Field} (h : g.outside raiseFields) (m : Nat) :
    (s.raiseLive n inst word).getN g m = s.getN g m := by
  unfold State.raiseLive
  split
  · rfl
  · exact State.raise_getN s n inst word h m

theorem State.setGrn_getN (s : State) (st : Nat) {g : Field} (h : g.outside raiseFields) (m : Nat) :
    (s.setGrn st).getN g m = s.getN g m := by
  have hs : F.GRN_STATE_STATE.id ≠ g.id := h F.GRN_STATE_STATE (by simp [raiseFields])
  unfold State.setGrn
  split
  · exact (State.raiseLive_getN _ _ _ _ h m).trans (State.getN_setN_of_id s hs 0 st m)
  · refine (State.getN_same (State.resumeBackground_regs _ _) g m).trans ?_
    exact (State.clearLive_getN _ _ h m).trans (State.getN_setN_of_id s hs 0 st m)

/-! ### The settling -/

theorem LiveField.follow_getN (new s : State) (l : LiveField) {g : Field} (h : l.field.id ≠ g.id) (m : Nat) :
    (l.follow new s).getN g m = s.getN g m := by
  unfold LiveField.follow
  simp only
  split_ifs <;> simp [State.getN_setN_of_id, h]

theorem State.followAll_getN (new : State) (ls : List LiveField) {g : Field} (h : ∀ l ∈ ls, l.field.id ≠ g.id) (m : Nat)
    (s : State) : (ls.foldl (LiveField.follow new) s).getN g m = s.getN g m := by
  induction ls generalizing s with
  | nil => rfl
  | cons l ls ih =>
    rw [List.foldl_cons, ih (fun l hl => h l (by simp [hl])), LiveField.follow_getN new s l (h l (by simp))]

/-- What a live field shows in a state. -/
def LiveField.shown (new : State) (l : LiveField) : Nat :=
  if new.groupUp (l.field.group l.index) then l.value new % 2 ^ l.field.width else l.field.reset l.index

/-- A reset value fits its field. -/
def LiveField.fits (l : LiveField) : Prop := l.field.reset l.index < 2 ^ l.field.width

theorem LiveField.follow_self (new s : State) (l : LiveField) (hr : l.fits) :
    (l.follow new s).getN l.field l.index = l.shown new := by
  unfold LiveField.fits at hr
  unfold LiveField.follow LiveField.shown
  simp only
  cases new.groupUp (l.field.group l.index)
  · simp only [Bool.false_eq_true, if_false]
    split
    · assumption
    · rw [State.getN_setN_self, Nat.mod_eq_of_lt hr]
  · simp only [if_true]
    split
    · assumption
    · rw [State.getN_setN_self, Nat.mod_mod]

theorem State.followAll_live (new : State) (ls : List LiveField) (hd : ls.Pairwise (fun a b => a.field.id ≠ b.field.id))
    (s : State) (l : LiveField) (hl : l ∈ ls) (hr : l.fits) :
    (ls.foldl (LiveField.follow new) s).getN l.field l.index = l.shown new := by
  induction ls generalizing s with
  | nil => simp at hl
  | cons a ls ih =>
    have hd' := List.pairwise_cons.1 hd
    rw [List.foldl_cons]
    rcases List.mem_cons.1 hl with rfl | hl
    · rw [State.followAll_getN new ls (fun b hb => (hd'.1 b hb).symm), LiveField.follow_self _ _ _ hr]
    · exact ih hd'.2 _ hl

/-- No two live fields are the same. -/
theorem live_distinct : (readyLive ++ statusLive).Pairwise (fun a b => a.field.id ≠ b.field.id) := by
  simp only [readyLive, statusLive]
  decide

theorem State.settleCal_getN (old s : State) {g : Field} (h : F.RDY_STATUS_CAL.id ≠ g.id) (m : Nat) :
    (State.settleCal old s).getN g m = s.getN g m := by
  unfold State.settleCal
  split
  · exact State.getN_setN_of_id s h 0 0 m
  · rfl

theorem State.settleReady_getN (old s : State) {g : Field} (h : F.MGT_ALERT_READY.id ≠ g.id) (m : Nat) :
    (State.settleReady old s).getN g m = s.getN g m := by
  unfold State.settleReady
  split
  · rfl
  · rw [State.getN_signal]
    split
    · exact State.getN_setN_of_id s h 0 1 m
    · rfl

theorem State.copyGrn_getN (old s : State) (g : Field) (m : Nat) : (State.copyGrn old s).getN g m = s.getN g m := by
  unfold State.copyGrn
  split <;> rfl

theorem State.alertGrn_getN (old s : State) {g : Field} (h : F.MGT_ALERT_GRANARY.id ≠ g.id) (m : Nat) :
    (State.alertGrn old s).getN g m = s.getN g m := by
  unfold State.alertGrn
  split
  · rfl
  · exact State.getN_setN_of_id s h 0 1 m

theorem State.signalGrn_getN (old s : State) (g : Field) (m : Nat) : (State.signalGrn old s).getN g m = s.getN g m := by
  unfold State.signalGrn
  split
  · rfl
  · simp

theorem State.settleFirst_getN (old s : State) (g : Field) (m : Nat) :
    (State.settleFirst old s).getN g m = s.getN g m := by
  unfold State.settleFirst
  split <;> rfl

/-- What the settling does to a field that is neither CAL nor an alert: only the live step touches it. -/
theorem State.settle_getN_live (old new : State) {g : Field} (h1 : F.RDY_STATUS_CAL.id ≠ g.id)
    (h2 : F.MGT_ALERT_READY.id ≠ g.id) (h3 : F.MGT_ALERT_GRANARY.id ≠ g.id) (m : Nat) :
    (State.settle old new).getN g m = new.settleLive.getN g m := by
  rw [State.settle, State.settleFirst_getN, State.settleGrn, State.signalGrn_getN, State.alertGrn_getN _ _ h3,
    State.copyGrn_getN, State.settleReady_getN _ _ h2, State.settleCal_getN _ _ h1]

/-- The settling leaves every field outside its list as the command left it. -/
theorem State.settle_getN (old new : State) {g : Field} (h : g.outside settleFields) (m : Nat) :
    (State.settle old new).getN g m = new.getN g m := by
  have h1 := h F.RDY_STATUS_CAL (by simp [settleFields])
  have h2 := h F.MGT_ALERT_READY (by simp [settleFields])
  have h3 := h F.MGT_ALERT_GRANARY (by simp [settleFields])
  rw [State.settle_getN_live old new h1 h2 h3 m, State.settleLive]
  refine State.followAll_getN new _ (fun l hl => h l.field ?_) m new
  simp only [settleFields, List.mem_append, List.mem_map]
  exact .inl ⟨l, by simpa using hl, rfl⟩

/-- After a command every live field shows what the state gives it (R465, R506). -/
theorem State.settle_live (old new : State) (l : LiveField) (hl : l ∈ readyLive ++ statusLive) (hr : l.fits)
    (h1 : F.RDY_STATUS_CAL.id ≠ l.field.id) (h2 : F.MGT_ALERT_READY.id ≠ l.field.id)
    (h3 : F.MGT_ALERT_GRANARY.id ≠ l.field.id) :
    (State.settle old new).getN l.field l.index = l.shown new := by
  rw [State.settle_getN_live old new h1 h2 h3]
  exact State.followAll_live new _ live_distinct new l hl hr

end Sys2Proof.Machine
end

