-- ==== Sys2Proof/Laws/Mailbox.lean ====
section
/-!
SUPPORT. What completing a command does (R94, R95, R107, R113): it is accepted no more, its completion is in ADM_CPL, on
the pair's ring or held for it, and nothing outside the mailboxes, the fault hub and what a fault event may touch changes.
-/

namespace Sys2Proof.Machine

/-! `State.firePair` -/

@[simp] theorem State.firePair_pending (s : State) (n : Nat) : (s.firePair n).pending = s.pending := by
  simp [State.firePair]
@[simp] theorem State.firePair_now (s : State) (n : Nat) : (s.firePair n).now = s.now := by
  simp [State.firePair]
@[simp] theorem State.firePair_freeCtr (s : State) (n : Nat) : (s.firePair n).freeCtr = s.freeCtr := by
  simp [State.firePair]
@[simp] theorem State.firePair_regs (s : State) (n : Nat) : (s.firePair n).regs = s.regs := by
  simp [State.firePair]
@[simp] theorem State.firePair_pwr (s : State) (n : Nat) : (s.firePair n).pwr = s.pwr := by
  simp [State.firePair]
@[simp] theorem State.firePair_ft (s : State) (n : Nat) : (s.firePair n).ft = s.ft := by
  simp [State.firePair]
@[simp] theorem State.firePair_cal (s : State) (n : Nat) : (s.firePair n).cal = s.cal := by
  simp [State.firePair]
@[simp] theorem State.firePair_hub (s : State) (n : Nat) : (s.firePair n).hub = s.hub := by
  simp [State.firePair]
@[simp] theorem State.firePair_mgt (s : State) (n : Nat) : (s.firePair n).mgt = s.mgt := by
  simp [State.firePair]
@[simp] theorem State.firePair_grn (s : State) (n : Nat) : (s.firePair n).grn = s.grn := by
  simp [State.firePair]
@[simp] theorem State.firePair_dram (s : State) (n : Nat) : (s.firePair n).dram = s.dram := by
  simp [State.firePair]
@[simp] theorem State.firePair_flash (s : State) (n : Nat) : (s.firePair n).flash = s.flash := by
  simp [State.firePair]
@[simp] theorem State.firePair_dge (s : State) (n : Nat) : (s.firePair n).dge = s.dge := by
  simp [State.firePair]
@[simp] theorem State.firePair_eng (s : State) (n : Nat) : (s.firePair n).eng = s.eng := by
  simp [State.firePair]

/-! `State.coalesce` -/

@[simp] theorem State.coalesce_pending (s : State) (n : Nat) (b : Bool) : (s.coalesce n b).pending = s.pending := by
  unfold State.coalesce; split
  · rfl
  · dsimp only; split <;> simp
@[simp] theorem State.coalesce_now (s : State) (n : Nat) (b : Bool) : (s.coalesce n b).now = s.now := by
  unfold State.coalesce; split
  · rfl
  · dsimp only; split <;> simp
@[simp] theorem State.coalesce_freeCtr (s : State) (n : Nat) (b : Bool) : (s.coalesce n b).freeCtr = s.freeCtr := by
  unfold State.coalesce; split
  · rfl
  · dsimp only; split <;> simp
@[simp] theorem State.coalesce_regs (s : State) (n : Nat) (b : Bool) : (s.coalesce n b).regs = s.regs := by
  unfold State.coalesce; split
  · rfl
  · dsimp only; split <;> simp
@[simp] theorem State.coalesce_pwr (s : State) (n : Nat) (b : Bool) : (s.coalesce n b).pwr = s.pwr := by
  unfold State.coalesce; split
  · rfl
  · dsimp only; split <;> simp
@[simp] theorem State.coalesce_ft (s : State) (n : Nat) (b : Bool) : (s.coalesce n b).ft = s.ft := by
  unfold State.coalesce; split
  · rfl
  · dsimp only; split <;> simp
@[simp] theorem State.coalesce_cal (s : State) (n : Nat) (b : Bool) : (s.coalesce n b).cal = s.cal := by
  unfold State.coalesce; split
  · rfl
  · dsimp only; split <;> simp
@[simp] theorem State.coalesce_hub (s : State) (n : Nat) (b : Bool) : (s.coalesce n b).hub = s.hub := by
  unfold State.coalesce; split
  · rfl
  · dsimp only; split <;> simp
@[simp] theorem State.coalesce_mgt (s : State) (n : Nat) (b : Bool) : (s.coalesce n b).mgt = s.mgt := by
  unfold State.coalesce; split
  · rfl
  · dsimp only; split <;> simp
@[simp] theorem State.coalesce_grn (s : State) (n : Nat) (b : Bool) : (s.coalesce n b).grn = s.grn := by
  unfold State.coalesce; split
  · rfl
  · dsimp only; split <;> simp
@[simp] theorem State.coalesce_dram (s : State) (n : Nat) (b : Bool) : (s.coalesce n b).dram = s.dram := by
  unfold State.coalesce; split
  · rfl
  · dsimp only; split <;> simp
@[simp] theorem State.coalesce_flash (s : State) (n : Nat) (b : Bool) : (s.coalesce n b).flash = s.flash := by
  unfold State.coalesce; split
  · rfl
  · dsimp only; split <;> simp
@[simp] theorem State.coalesce_dge (s : State) (n : Nat) (b : Bool) : (s.coalesce n b).dge = s.dge := by
  unfold State.coalesce; split
  · rfl
  · dsimp only; split <;> simp
@[simp] theorem State.coalesce_eng (s : State) (n : Nat) (b : Bool) : (s.coalesce n b).eng = s.eng := by
  unfold State.coalesce; split
  · rfl
  · dsimp only; split <;> simp

/-! `State.pairError` -/

@[simp] theorem State.pairError_pending (s : State) (n c : Nat) : (s.pairError n c).pending = s.pending := by
  unfold State.pairError; split <;> simp
@[simp] theorem State.pairError_now (s : State) (n c : Nat) : (s.pairError n c).now = s.now := by
  unfold State.pairError; split <;> simp
@[simp] theorem State.pairError_freeCtr (s : State) (n c : Nat) : (s.pairError n c).freeCtr = s.freeCtr := by
  unfold State.pairError; split <;> simp
@[simp] theorem State.pairError_ft (s : State) (n c : Nat) : (s.pairError n c).ft = s.ft := by
  unfold State.pairError; split <;> simp
@[simp] theorem State.pairError_cal (s : State) (n c : Nat) : (s.pairError n c).cal = s.cal := by
  unfold State.pairError; split <;> simp
@[simp] theorem State.pairError_mgt (s : State) (n c : Nat) : (s.pairError n c).mgt = s.mgt := by
  unfold State.pairError; split <;> simp
@[simp] theorem State.pairError_dram (s : State) (n c : Nat) : (s.pairError n c).dram = s.dram := by
  unfold State.pairError; split <;> simp
@[simp] theorem State.pairError_flash (s : State) (n c : Nat) : (s.pairError n c).flash = s.flash := by
  unfold State.pairError; split <;> simp
@[simp] theorem State.pairError_dge (s : State) (n c : Nat) : (s.pairError n c).dge = s.dge := by
  unfold State.pairError; split <;> simp
@[simp] theorem State.pairError_eng (s : State) (n c : Nat) : (s.pairError n c).eng = s.eng := by
  unfold State.pairError; split <;> simp

/-! `State.takeEntry` -/

@[simp] theorem State.takeEntry_pending (s : State) (n : Nat) (c : Cpl) : (s.takeEntry n c).pending = s.pending := by
  simp [State.takeEntry]
@[simp] theorem State.takeEntry_now (s : State) (n : Nat) (c : Cpl) : (s.takeEntry n c).now = s.now := by
  simp [State.takeEntry]
@[simp] theorem State.takeEntry_freeCtr (s : State) (n : Nat) (c : Cpl) : (s.takeEntry n c).freeCtr = s.freeCtr := by
  simp [State.takeEntry]
@[simp] theorem State.takeEntry_pwr (s : State) (n : Nat) (c : Cpl) : (s.takeEntry n c).pwr = s.pwr := by
  simp [State.takeEntry]
@[simp] theorem State.takeEntry_ft (s : State) (n : Nat) (c : Cpl) : (s.takeEntry n c).ft = s.ft := by
  simp [State.takeEntry]
@[simp] theorem State.takeEntry_cal (s : State) (n : Nat) (c : Cpl) : (s.takeEntry n c).cal = s.cal := by
  simp [State.takeEntry]
@[simp] theorem State.takeEntry_link (s : State) (n : Nat) (c : Cpl) : (s.takeEntry n c).link = s.link := by
  simp [State.takeEntry]
@[simp] theorem State.takeEntry_hub (s : State) (n : Nat) (c : Cpl) : (s.takeEntry n c).hub = s.hub := by
  simp [State.takeEntry]
@[simp] theorem State.takeEntry_mgt (s : State) (n : Nat) (c : Cpl) : (s.takeEntry n c).mgt = s.mgt := by
  simp [State.takeEntry]
@[simp] theorem State.takeEntry_grn (s : State) (n : Nat) (c : Cpl) : (s.takeEntry n c).grn = s.grn := by
  simp [State.takeEntry]
@[simp] theorem State.takeEntry_dram (s : State) (n : Nat) (c : Cpl) : (s.takeEntry n c).dram = s.dram := by
  simp [State.takeEntry]
@[simp] theorem State.takeEntry_flash (s : State) (n : Nat) (c : Cpl) : (s.takeEntry n c).flash = s.flash := by
  simp [State.takeEntry]
@[simp] theorem State.takeEntry_dge (s : State) (n : Nat) (c : Cpl) : (s.takeEntry n c).dge = s.dge := by
  simp [State.takeEntry]
@[simp] theorem State.takeEntry_eng (s : State) (n : Nat) (c : Cpl) : (s.takeEntry n c).eng = s.eng := by
  simp [State.takeEntry]

/-! `State.writeCpl` -/

@[simp] theorem State.writeCpl_pending (s : State) (n : Nat) (c : Cpl) : (s.writeCpl n c).pending = s.pending := by
  simp [State.writeCpl]
@[simp] theorem State.writeCpl_now (s : State) (n : Nat) (c : Cpl) : (s.writeCpl n c).now = s.now := by
  simp [State.writeCpl]
@[simp] theorem State.writeCpl_freeCtr (s : State) (n : Nat) (c : Cpl) : (s.writeCpl n c).freeCtr = s.freeCtr := by
  simp [State.writeCpl]
@[simp] theorem State.writeCpl_pwr (s : State) (n : Nat) (c : Cpl) : (s.writeCpl n c).pwr = s.pwr := by
  simp [State.writeCpl]
@[simp] theorem State.writeCpl_ft (s : State) (n : Nat) (c : Cpl) : (s.writeCpl n c).ft = s.ft := by
  simp [State.writeCpl]
@[simp] theorem State.writeCpl_cal (s : State) (n : Nat) (c : Cpl) : (s.writeCpl n c).cal = s.cal := by
  simp [State.writeCpl]
@[simp] theorem State.writeCpl_hub (s : State) (n : Nat) (c : Cpl) : (s.writeCpl n c).hub = s.hub := by
  simp [State.writeCpl]
@[simp] theorem State.writeCpl_mgt (s : State) (n : Nat) (c : Cpl) : (s.writeCpl n c).mgt = s.mgt := by
  simp [State.writeCpl]
@[simp] theorem State.writeCpl_grn (s : State) (n : Nat) (c : Cpl) : (s.writeCpl n c).grn = s.grn := by
  simp [State.writeCpl]
@[simp] theorem State.writeCpl_dram (s : State) (n : Nat) (c : Cpl) : (s.writeCpl n c).dram = s.dram := by
  simp [State.writeCpl]
@[simp] theorem State.writeCpl_flash (s : State) (n : Nat) (c : Cpl) : (s.writeCpl n c).flash = s.flash := by
  simp [State.writeCpl]
@[simp] theorem State.writeCpl_dge (s : State) (n : Nat) (c : Cpl) : (s.writeCpl n c).dge = s.dge := by
  simp [State.writeCpl]
@[simp] theorem State.writeCpl_eng (s : State) (n : Nat) (c : Cpl) : (s.writeCpl n c).eng = s.eng := by
  simp [State.writeCpl]

/-! `State.admComplete` -/

@[simp] theorem State.admComplete_pending (s : State) (a b c : Nat) (q : Bool) : (s.admComplete a b c q).pending = s.pending := by
  unfold State.admComplete; split <;> simp
@[simp] theorem State.admComplete_now (s : State) (a b c : Nat) (q : Bool) : (s.admComplete a b c q).now = s.now := by
  unfold State.admComplete; split <;> simp
@[simp] theorem State.admComplete_freeCtr (s : State) (a b c : Nat) (q : Bool) : (s.admComplete a b c q).freeCtr = s.freeCtr := by
  unfold State.admComplete; split <;> simp
@[simp] theorem State.admComplete_pwr (s : State) (a b c : Nat) (q : Bool) : (s.admComplete a b c q).pwr = s.pwr := by
  unfold State.admComplete; split <;> simp
@[simp] theorem State.admComplete_ft (s : State) (a b c : Nat) (q : Bool) : (s.admComplete a b c q).ft = s.ft := by
  unfold State.admComplete; split <;> simp
@[simp] theorem State.admComplete_cal (s : State) (a b c : Nat) (q : Bool) : (s.admComplete a b c q).cal = s.cal := by
  unfold State.admComplete; split <;> simp
@[simp] theorem State.admComplete_hub (s : State) (a b c : Nat) (q : Bool) : (s.admComplete a b c q).hub = s.hub := by
  unfold State.admComplete; split <;> simp
@[simp] theorem State.admComplete_mgt (s : State) (a b c : Nat) (q : Bool) : (s.admComplete a b c q).mgt = s.mgt := by
  unfold State.admComplete; split <;> simp
@[simp] theorem State.admComplete_mbx (s : State) (a b c : Nat) (q : Bool) : (s.admComplete a b c q).mbx = s.mbx := by
  unfold State.admComplete; split <;> simp
@[simp] theorem State.admComplete_grn (s : State) (a b c : Nat) (q : Bool) : (s.admComplete a b c q).grn = s.grn := by
  unfold State.admComplete; split <;> simp
@[simp] theorem State.admComplete_dram (s : State) (a b c : Nat) (q : Bool) : (s.admComplete a b c q).dram = s.dram := by
  unfold State.admComplete; split <;> simp
@[simp] theorem State.admComplete_flash (s : State) (a b c : Nat) (q : Bool) : (s.admComplete a b c q).flash = s.flash := by
  unfold State.admComplete; split <;> simp
@[simp] theorem State.admComplete_dge (s : State) (a b c : Nat) (q : Bool) : (s.admComplete a b c q).dge = s.dge := by
  unfold State.admComplete; split <;> simp
@[simp] theorem State.admComplete_eng (s : State) (a b c : Nat) (q : Bool) : (s.admComplete a b c q).eng = s.eng := by
  unfold State.admComplete; split <;> simp

/-! `State.clearPair` -/

@[simp] theorem State.clearPair_pending (s : State) (n : Nat) : (s.clearPair n).pending = s.pending := by
  simp [State.clearPair, List.foldl]
@[simp] theorem State.clearPair_now (s : State) (n : Nat) : (s.clearPair n).now = s.now := by
  simp [State.clearPair, List.foldl]
@[simp] theorem State.clearPair_freeCtr (s : State) (n : Nat) : (s.clearPair n).freeCtr = s.freeCtr := by
  simp [State.clearPair, List.foldl]
@[simp] theorem State.clearPair_out (s : State) (n : Nat) : (s.clearPair n).out = s.out := by
  simp [State.clearPair, List.foldl]
@[simp] theorem State.clearPair_pwr (s : State) (n : Nat) : (s.clearPair n).pwr = s.pwr := by
  simp [State.clearPair, List.foldl]
@[simp] theorem State.clearPair_ft (s : State) (n : Nat) : (s.clearPair n).ft = s.ft := by
  simp [State.clearPair, List.foldl]
@[simp] theorem State.clearPair_cal (s : State) (n : Nat) : (s.clearPair n).cal = s.cal := by
  simp [State.clearPair, List.foldl]
@[simp] theorem State.clearPair_link (s : State) (n : Nat) : (s.clearPair n).link = s.link := by
  simp [State.clearPair, List.foldl]
@[simp] theorem State.clearPair_hub (s : State) (n : Nat) : (s.clearPair n).hub = s.hub := by
  simp [State.clearPair, List.foldl]
@[simp] theorem State.clearPair_mgt (s : State) (n : Nat) : (s.clearPair n).mgt = s.mgt := by
  simp [State.clearPair, List.foldl]
@[simp] theorem State.clearPair_grn (s : State) (n : Nat) : (s.clearPair n).grn = s.grn := by
  simp [State.clearPair, List.foldl]
@[simp] theorem State.clearPair_dram (s : State) (n : Nat) : (s.clearPair n).dram = s.dram := by
  simp [State.clearPair, List.foldl]
@[simp] theorem State.clearPair_flash (s : State) (n : Nat) : (s.clearPair n).flash = s.flash := by
  simp [State.clearPair, List.foldl]
@[simp] theorem State.clearPair_dge (s : State) (n : Nat) : (s.clearPair n).dge = s.dge := by
  simp [State.clearPair, List.foldl]
@[simp] theorem State.clearPair_eng (s : State) (n : Nat) : (s.clearPair n).eng = s.eng := by
  simp [State.clearPair, List.foldl]

/-! `State.endDelete` -/

@[simp] theorem State.endDelete_pending (s : State) (n : Nat) : (s.endDelete n).pending = s.pending := by
  unfold State.endDelete; split <;> simp
@[simp] theorem State.endDelete_now (s : State) (n : Nat) : (s.endDelete n).now = s.now := by
  unfold State.endDelete; split <;> simp
@[simp] theorem State.endDelete_freeCtr (s : State) (n : Nat) : (s.endDelete n).freeCtr = s.freeCtr := by
  unfold State.endDelete; split <;> simp
@[simp] theorem State.endDelete_pwr (s : State) (n : Nat) : (s.endDelete n).pwr = s.pwr := by
  unfold State.endDelete; split <;> simp
@[simp] theorem State.endDelete_ft (s : State) (n : Nat) : (s.endDelete n).ft = s.ft := by
  unfold State.endDelete; split <;> simp
@[simp] theorem State.endDelete_cal (s : State) (n : Nat) : (s.endDelete n).cal = s.cal := by
  unfold State.endDelete; split <;> simp
@[simp] theorem State.endDelete_hub (s : State) (n : Nat) : (s.endDelete n).hub = s.hub := by
  unfold State.endDelete; split <;> simp
@[simp] theorem State.endDelete_mgt (s : State) (n : Nat) : (s.endDelete n).mgt = s.mgt := by
  unfold State.endDelete; split <;> simp
@[simp] theorem State.endDelete_grn (s : State) (n : Nat) : (s.endDelete n).grn = s.grn := by
  unfold State.endDelete; split <;> simp
@[simp] theorem State.endDelete_dram (s : State) (n : Nat) : (s.endDelete n).dram = s.dram := by
  unfold State.endDelete; split <;> simp
@[simp] theorem State.endDelete_flash (s : State) (n : Nat) : (s.endDelete n).flash = s.flash := by
  unfold State.endDelete; split <;> simp
@[simp] theorem State.endDelete_dge (s : State) (n : Nat) : (s.endDelete n).dge = s.dge := by
  unfold State.endDelete; split <;> simp
@[simp] theorem State.endDelete_eng (s : State) (n : Nat) : (s.endDelete n).eng = s.eng := by
  unfold State.endDelete; split <;> simp

/-! `State.flushFire` -/

@[simp] theorem State.flushFire_pending (s : State) (n : Nat) : (s.flushFire n).pending = s.pending := by
  unfold State.flushFire; split <;> simp
@[simp] theorem State.flushFire_now (s : State) (n : Nat) : (s.flushFire n).now = s.now := by
  unfold State.flushFire; split <;> simp
@[simp] theorem State.flushFire_freeCtr (s : State) (n : Nat) : (s.flushFire n).freeCtr = s.freeCtr := by
  unfold State.flushFire; split <;> simp
@[simp] theorem State.flushFire_regs (s : State) (n : Nat) : (s.flushFire n).regs = s.regs := by
  unfold State.flushFire; split <;> simp
@[simp] theorem State.flushFire_pwr (s : State) (n : Nat) : (s.flushFire n).pwr = s.pwr := by
  unfold State.flushFire; split <;> simp
@[simp] theorem State.flushFire_ft (s : State) (n : Nat) : (s.flushFire n).ft = s.ft := by
  unfold State.flushFire; split <;> simp
@[simp] theorem State.flushFire_cal (s : State) (n : Nat) : (s.flushFire n).cal = s.cal := by
  unfold State.flushFire; split <;> simp
@[simp] theorem State.flushFire_hub (s : State) (n : Nat) : (s.flushFire n).hub = s.hub := by
  unfold State.flushFire; split <;> simp
@[simp] theorem State.flushFire_mgt (s : State) (n : Nat) : (s.flushFire n).mgt = s.mgt := by
  unfold State.flushFire; split <;> simp
@[simp] theorem State.flushFire_grn (s : State) (n : Nat) : (s.flushFire n).grn = s.grn := by
  unfold State.flushFire; split <;> simp
@[simp] theorem State.flushFire_dram (s : State) (n : Nat) : (s.flushFire n).dram = s.dram := by
  unfold State.flushFire; split <;> simp
@[simp] theorem State.flushFire_flash (s : State) (n : Nat) : (s.flushFire n).flash = s.flash := by
  unfold State.flushFire; split <;> simp
@[simp] theorem State.flushFire_dge (s : State) (n : Nat) : (s.flushFire n).dge = s.dge := by
  unfold State.flushFire; split <;> simp
@[simp] theorem State.flushFire_eng (s : State) (n : Nat) : (s.flushFire n).eng = s.eng := by
  unfold State.flushFire; split <;> simp

/-! `State.finishDrain` -/

@[simp] theorem State.finishDrain_pending (s : State) (n : Nat) : (s.finishDrain n).pending = s.pending := by
  unfold State.finishDrain; split <;> simp
@[simp] theorem State.finishDrain_now (s : State) (n : Nat) : (s.finishDrain n).now = s.now := by
  unfold State.finishDrain; split <;> simp
@[simp] theorem State.finishDrain_freeCtr (s : State) (n : Nat) : (s.finishDrain n).freeCtr = s.freeCtr := by
  unfold State.finishDrain; split <;> simp
@[simp] theorem State.finishDrain_pwr (s : State) (n : Nat) : (s.finishDrain n).pwr = s.pwr := by
  unfold State.finishDrain; split <;> simp
@[simp] theorem State.finishDrain_ft (s : State) (n : Nat) : (s.finishDrain n).ft = s.ft := by
  unfold State.finishDrain; split <;> simp
@[simp] theorem State.finishDrain_cal (s : State) (n : Nat) : (s.finishDrain n).cal = s.cal := by
  unfold State.finishDrain; split <;> simp
@[simp] theorem State.finishDrain_hub (s : State) (n : Nat) : (s.finishDrain n).hub = s.hub := by
  unfold State.finishDrain; split <;> simp
@[simp] theorem State.finishDrain_mgt (s : State) (n : Nat) : (s.finishDrain n).mgt = s.mgt := by
  unfold State.finishDrain; split <;> simp
@[simp] theorem State.finishDrain_grn (s : State) (n : Nat) : (s.finishDrain n).grn = s.grn := by
  unfold State.finishDrain; split <;> simp
@[simp] theorem State.finishDrain_dram (s : State) (n : Nat) : (s.finishDrain n).dram = s.dram := by
  unfold State.finishDrain; split <;> simp
@[simp] theorem State.finishDrain_flash (s : State) (n : Nat) : (s.finishDrain n).flash = s.flash := by
  unfold State.finishDrain; split <;> simp
@[simp] theorem State.finishDrain_dge (s : State) (n : Nat) : (s.finishDrain n).dge = s.dge := by
  unfold State.finishDrain; split <;> simp
@[simp] theorem State.finishDrain_eng (s : State) (n : Nat) : (s.finishDrain n).eng = s.eng := by
  unfold State.finishDrain; split <;> simp

/-! `State.dropAll` -/

@[simp] theorem State.dropAll_pending (s : State) (n k : Nat) : (s.dropAll n k).pending = s.pending :=
  State.foldl_keeps State.pending _ _ (fun s a => by simp) s
@[simp] theorem State.dropAll_now (s : State) (n k : Nat) : (s.dropAll n k).now = s.now :=
  State.foldl_keeps State.now _ _ (fun s a => by simp) s
@[simp] theorem State.dropAll_freeCtr (s : State) (n k : Nat) : (s.dropAll n k).freeCtr = s.freeCtr :=
  State.foldl_keeps State.freeCtr _ _ (fun s a => by simp) s
@[simp] theorem State.dropAll_out (s : State) (n k : Nat) : (s.dropAll n k).out = s.out :=
  State.foldl_keeps State.out _ _ (fun s a => by simp) s
@[simp] theorem State.dropAll_pwr (s : State) (n k : Nat) : (s.dropAll n k).pwr = s.pwr :=
  State.foldl_keeps State.pwr _ _ (fun s a => by simp) s
@[simp] theorem State.dropAll_ft (s : State) (n k : Nat) : (s.dropAll n k).ft = s.ft :=
  State.foldl_keeps State.ft _ _ (fun s a => by simp) s
@[simp] theorem State.dropAll_cal (s : State) (n k : Nat) : (s.dropAll n k).cal = s.cal :=
  State.foldl_keeps State.cal _ _ (fun s a => by simp) s
@[simp] theorem State.dropAll_link (s : State) (n k : Nat) : (s.dropAll n k).link = s.link :=
  State.foldl_keeps State.link _ _ (fun s a => by simp) s
@[simp] theorem State.dropAll_hub (s : State) (n k : Nat) : (s.dropAll n k).hub = s.hub :=
  State.foldl_keeps State.hub _ _ (fun s a => by simp) s
@[simp] theorem State.dropAll_mgt (s : State) (n k : Nat) : (s.dropAll n k).mgt = s.mgt :=
  State.foldl_keeps State.mgt _ _ (fun s a => by simp) s
@[simp] theorem State.dropAll_mbx (s : State) (n k : Nat) : (s.dropAll n k).mbx = s.mbx :=
  State.foldl_keeps State.mbx _ _ (fun s a => by simp) s
@[simp] theorem State.dropAll_grn (s : State) (n k : Nat) : (s.dropAll n k).grn = s.grn :=
  State.foldl_keeps State.grn _ _ (fun s a => by simp) s
@[simp] theorem State.dropAll_dram (s : State) (n k : Nat) : (s.dropAll n k).dram = s.dram :=
  State.foldl_keeps State.dram _ _ (fun s a => by simp) s
@[simp] theorem State.dropAll_flash (s : State) (n k : Nat) : (s.dropAll n k).flash = s.flash :=
  State.foldl_keeps State.flash _ _ (fun s a => by simp) s
@[simp] theorem State.dropAll_dge (s : State) (n k : Nat) : (s.dropAll n k).dge = s.dge :=
  State.foldl_keeps State.dge _ _ (fun s a => by simp) s
@[simp] theorem State.dropAll_eng (s : State) (n k : Nat) : (s.dropAll n k).eng = s.eng :=
  State.foldl_keeps State.eng _ _ (fun s a => by simp) s

/-! `State.cqFails` -/

@[simp] theorem State.cqFails_pending (s : State) (n : Nat) : (s.cqFails n).pending = s.pending := by
  simp [State.cqFails]
@[simp] theorem State.cqFails_now (s : State) (n : Nat) : (s.cqFails n).now = s.now := by
  simp [State.cqFails]
@[simp] theorem State.cqFails_freeCtr (s : State) (n : Nat) : (s.cqFails n).freeCtr = s.freeCtr := by
  simp [State.cqFails]
@[simp] theorem State.cqFails_ft (s : State) (n : Nat) : (s.cqFails n).ft = s.ft := by
  simp [State.cqFails]
@[simp] theorem State.cqFails_cal (s : State) (n : Nat) : (s.cqFails n).cal = s.cal := by
  simp [State.cqFails]
@[simp] theorem State.cqFails_mgt (s : State) (n : Nat) : (s.cqFails n).mgt = s.mgt := by
  simp [State.cqFails]
@[simp] theorem State.cqFails_dram (s : State) (n : Nat) : (s.cqFails n).dram = s.dram := by
  simp [State.cqFails]
@[simp] theorem State.cqFails_flash (s : State) (n : Nat) : (s.cqFails n).flash = s.flash := by
  simp [State.cqFails]
@[simp] theorem State.cqFails_dge (s : State) (n : Nat) : (s.cqFails n).dge = s.dge := by
  simp [State.cqFails]
@[simp] theorem State.cqFails_eng (s : State) (n : Nat) : (s.cqFails n).eng = s.eng := by
  simp [State.cqFails]

/-! `State.pairComplete` -/

@[simp] theorem State.pairComplete_pending (s : State) (n : Nat) (c : Cpl) : (s.pairComplete n c).pending = s.pending := by
  unfold State.pairComplete; split_ifs <;> simp
@[simp] theorem State.pairComplete_now (s : State) (n : Nat) (c : Cpl) : (s.pairComplete n c).now = s.now := by
  unfold State.pairComplete; split_ifs <;> simp
@[simp] theorem State.pairComplete_freeCtr (s : State) (n : Nat) (c : Cpl) : (s.pairComplete n c).freeCtr = s.freeCtr := by
  unfold State.pairComplete; split_ifs <;> simp
@[simp] theorem State.pairComplete_ft (s : State) (n : Nat) (c : Cpl) : (s.pairComplete n c).ft = s.ft := by
  unfold State.pairComplete; split_ifs <;> simp
@[simp] theorem State.pairComplete_cal (s : State) (n : Nat) (c : Cpl) : (s.pairComplete n c).cal = s.cal := by
  unfold State.pairComplete; split_ifs <;> simp
@[simp] theorem State.pairComplete_mgt (s : State) (n : Nat) (c : Cpl) : (s.pairComplete n c).mgt = s.mgt := by
  unfold State.pairComplete; split_ifs <;> simp
@[simp] theorem State.pairComplete_dram (s : State) (n : Nat) (c : Cpl) : (s.pairComplete n c).dram = s.dram := by
  unfold State.pairComplete; split_ifs <;> simp
@[simp] theorem State.pairComplete_flash (s : State) (n : Nat) (c : Cpl) : (s.pairComplete n c).flash = s.flash := by
  unfold State.pairComplete; split_ifs <;> simp
@[simp] theorem State.pairComplete_dge (s : State) (n : Nat) (c : Cpl) : (s.pairComplete n c).dge = s.dge := by
  unfold State.pairComplete; split_ifs <;> simp
@[simp] theorem State.pairComplete_eng (s : State) (n : Nat) (c : Cpl) : (s.pairComplete n c).eng = s.eng := by
  unfold State.pairComplete; split_ifs <;> simp

/-! `State.complete` -/

@[simp] theorem State.complete_pending (s : State) (a : Accepted) (x y : Nat) : (s.complete a x y).pending = s.pending := by
  unfold State.complete; split <;> simp
@[simp] theorem State.complete_now (s : State) (a : Accepted) (x y : Nat) : (s.complete a x y).now = s.now := by
  unfold State.complete; split <;> simp
@[simp] theorem State.complete_freeCtr (s : State) (a : Accepted) (x y : Nat) : (s.complete a x y).freeCtr = s.freeCtr := by
  unfold State.complete; split <;> simp
@[simp] theorem State.complete_ft (s : State) (a : Accepted) (x y : Nat) : (s.complete a x y).ft = s.ft := by
  unfold State.complete; split <;> simp
@[simp] theorem State.complete_cal (s : State) (a : Accepted) (x y : Nat) : (s.complete a x y).cal = s.cal := by
  unfold State.complete; split <;> simp
@[simp] theorem State.complete_mgt (s : State) (a : Accepted) (x y : Nat) : (s.complete a x y).mgt = s.mgt := by
  unfold State.complete; split <;> simp
@[simp] theorem State.complete_dram (s : State) (a : Accepted) (x y : Nat) : (s.complete a x y).dram = s.dram := by
  unfold State.complete; split <;> simp
@[simp] theorem State.complete_flash (s : State) (a : Accepted) (x y : Nat) : (s.complete a x y).flash = s.flash := by
  unfold State.complete; split <;> simp
@[simp] theorem State.complete_dge (s : State) (a : Accepted) (x y : Nat) : (s.complete a x y).dge = s.dge := by
  unfold State.complete; split <;> simp
@[simp] theorem State.complete_eng (s : State) (a : Accepted) (x y : Nat) : (s.complete a x y).eng = s.eng := by
  unfold State.complete; split <;> simp

/-! ### Which fields completing writes -/

theorem State.setAll_getN (l : List (Field × Nat)) (g : Field) (h : ∀ p ∈ l, p.1.id ≠ g.id) (m : Nat) (s : State) :
    (s.setAll l).getN g m = s.getN g m := by
  induction l generalizing s with
  | nil => rfl
  | cons p l ih =>
    have := ih (fun q hq => h q (by simp [hq])) (s.set p.1 p.2)
    simp only [State.setAll, List.foldl_cons] at this ⊢
    rw [this]
    exact State.getN_setN_of_id s (h p (by simp)) 0 p.2 m

theorem State.dropInflight_getN (s : State) (n : Nat) {g : Field} (h : g.outside completeFields) (m : Nat) :
    (s.dropInflight n).getN g m = s.getN g m := by
  have h1 := h F.MBX_STATE_INFLIGHT (by simp [completeFields])
  have h2 := h F.MBX_PTRS_LIMIT (by simp [completeFields])
  unfold State.dropInflight State.advanceLimit
  rw [State.getN_setN_of_id _ h2, State.getN_setN_of_id _ h1]

theorem State.writeCpl_getN (s : State) (n : Nat) (c : Cpl) {g : Field} (h : g.outside completeFields) (m : Nat) :
    (s.writeCpl n c).getN g m = s.getN g m := by
  have h1 := h F.MBX_PTRS_CQ_TAIL (by simp [completeFields])
  unfold State.writeCpl State.takeEntry
  refine (State.getN_same (State.coalesce_regs _ _ _) g m).trans ((State.getN_same (State.setPair_regs _ _ _) g m).trans ?_)
  rw [State.getN_setN_of_id _ h1, State.getN_emit, State.dropInflight_getN s n h]

theorem State.admComplete_getN (s : State) (a b c : Nat) (q : Bool) {g : Field} (h : g.outside completeFields) (m : Nat) :
    (s.admComplete a b c q).getN g m = s.getN g m := by
  have h1 := h F.ADM_CPL_CPL (by simp [completeFields])
  have h2 := h F.ADM_STATUS_BUSY (by simp [completeFields])
  have h3 := h F.ADM_STATUS_DONE (by simp [completeFields])
  unfold State.admComplete
  split
  · exact State.setAll_getN _ g (by simp [h1, h2, h3]) m s
  · rw [State.getN_signal]
    exact State.setAll_getN _ g (by simp [h1, h2, h3]) m s

theorem State.clearPair_getN (s : State) (n : Nat) {g : Field} (h : g.outside completeFields) (m : Nat) :
    (s.clearPair n).getN g m = s.getN g m := by
  have hf : ∀ (l : List Field) (t : State), (∀ f ∈ l, f.id ≠ g.id) →
      (l.foldl (fun s f => s.setN f n 0) t).getN g m = t.getN g m := by
    intro l
    induction l with
    | nil => intro t _; rfl
    | cons f l ih =>
      intro t hl
      rw [List.foldl_cons, ih _ (fun x hx => hl x (by simp [hx])), State.getN_setN_of_id _ (hl f (by simp))]
  unfold State.clearPair
  refine (hf _ _ (fun f hf => h f ?_)).trans (State.getN_same rfl g m)
  simp only [completeFields, List.mem_cons] at hf ⊢
  tauto

theorem State.endDelete_getN (s : State) (n : Nat) {g : Field} (h : g.outside completeFields) (m : Nat) :
    (s.endDelete n).getN g m = s.getN g m := by
  unfold State.endDelete
  split
  · exact (State.admComplete_getN _ _ _ _ _ h m).trans (State.getN_same (State.forget_regs _ _) g m)
  · rfl

theorem State.finishDrain_getN (s : State) (n : Nat) {g : Field} (h : g.outside completeFields) (m : Nat) :
    (s.finishDrain n).getN g m = s.getN g m := by
  unfold State.finishDrain
  split
  · exact (State.endDelete_getN _ _ h m).trans ((State.clearPair_getN _ _ h m).trans
      (State.getN_same (State.flushFire_regs _ _) g m))
  · rfl

theorem State.dropAll_getN (s : State) (n k : Nat) {g : Field} (h : g.outside completeFields) (m : Nat) :
    (s.dropAll n k).getN g m = s.getN g m :=
  State.foldl_getN _ g m _ (fun t _ => State.dropInflight_getN t n h m) s

theorem State.pairError_getN (s : State) (n c : Nat) {g : Field} (hr : g.outside raiseFields)
    (h : g.outside completeFields) (m : Nat) : (s.pairError n c).getN g m = s.getN g m := by
  have h1 := h F.MBX_STATE_STATE (by simp [completeFields])
  have h2 := h F.MBX_STATE_ERR_CAUSE (by simp [completeFields])
  unfold State.pairError
  split
  · refine (State.raise_getN _ _ _ _ hr m).trans ?_
    unfold State.enterError
    rw [State.getN_setN_of_id _ h1, State.getN_setN_of_id _ h2]
    exact State.getN_same (State.endHold_regs _ _) g m
  · rfl

theorem State.cqFails_getN (s : State) (n : Nat) {g : Field} (hr : g.outside raiseFields) (h : g.outside completeFields)
    (m : Nat) : (s.cqFails n).getN g m = s.getN g m := by
  unfold State.cqFails
  exact (State.finishDrain_getN _ _ h m).trans ((State.dropAll_getN _ _ _ h m).trans
    ((State.getN_same (State.emptyHeld_regs _ _) g m).trans (State.pairError_getN s n 3 hr h m)))

/-- Completing a command leaves every register field outside the lists of completions and fault events alone. -/
theorem State.complete_getN (s : State) (a : Accepted) (x y : Nat) {g : Field} (hr : g.outside raiseFields)
    (h : g.outside completeFields) (m : Nat) : (s.complete a x y).getN g m = s.getN g m := by
  have hf : (s.forget a.id).getN g m = s.getN g m := State.getN_same (State.forget_regs _ _) g m
  unfold State.complete
  split
  · exact (State.admComplete_getN _ _ _ _ _ h m).trans hf
  · unfold State.pairComplete
    split_ifs
    · exact (State.finishDrain_getN _ _ h m).trans ((State.dropInflight_getN _ _ h m).trans hf)
    · exact (State.cqFails_getN _ _ hr h m).trans ((State.getN_same (State.holdCpl_regs _ _ _) g m).trans hf)
    · exact (State.getN_same (State.holdCpl_regs _ _ _) g m).trans hf
    · exact (State.finishDrain_getN _ _ h m).trans ((State.writeCpl_getN _ _ _ h m).trans hf)

/-! ### The accepted commands -/

@[simp] theorem State.forget_accepted (s : State) (id : Nat) :
    (s.forget id).mbx.accepted = s.mbx.accepted.filter (fun a => a.id ≠ id) := rfl

theorem State.clearPair_accepted (s : State) (n : Nat) : (s.clearPair n).mbx.accepted = s.mbx.accepted := by
  simp [State.clearPair, List.foldl]

@[simp] theorem State.firePair_accepted (s : State) (n : Nat) : (s.firePair n).mbx.accepted = s.mbx.accepted := by
  simp [State.firePair]

theorem State.finishDrain_accepted (s : State) (n : Nat) :
    ∀ b ∈ (s.finishDrain n).mbx.accepted, b ∈ s.mbx.accepted := by
  intro b hb
  have hs : (s.flushFire n).mbx.accepted = s.mbx.accepted := by
    unfold State.flushFire; split <;> simp
  unfold State.finishDrain at hb
  split at hb
  · unfold State.endDelete at hb
    split at hb
    · simp only [State.admComplete_mbx, State.forget_accepted, State.clearPair_accepted, hs] at hb
      exact (List.mem_filter.1 hb).1
    · simpa [State.clearPair_accepted, hs] using hb
  · exact hb

@[simp] theorem State.coalesce_accepted (s : State) (n : Nat) (b : Bool) :
    (s.coalesce n b).mbx.accepted = s.mbx.accepted := by
  unfold State.coalesce
  split
  · rfl
  · dsimp only; split <;> simp

@[simp] theorem State.pairError_accepted (s : State) (n c : Nat) : (s.pairError n c).mbx.accepted = s.mbx.accepted := by
  unfold State.pairError
  split
  · simp [State.enterError, State.endHold]
  · rfl

/-- A completed command is accepted no more. -/
theorem State.complete_forgets (s : State) (a : Accepted) (x y : Nat) :
    ∀ b ∈ (s.complete a x y).mbx.accepted, b.id ≠ a.id := by
  have hf : ∀ b ∈ (s.forget a.id).mbx.accepted, b.id ≠ a.id := by
    intro b hb; simpa using (List.mem_filter.1 hb).2
  intro b hb
  unfold State.complete at hb
  split at hb
  · exact hf b (by simpa using hb)
  · unfold State.pairComplete at hb
    split_ifs at hb
    · exact hf b (by simpa using State.finishDrain_accepted _ _ b hb)
    · have := State.finishDrain_accepted _ _ b hb
      exact hf b (by simpa [State.emptyHeld, State.holdCpl] using this)
    · exact hf b (by simpa [State.holdCpl] using hb)
    · have := State.finishDrain_accepted _ _ b hb
      exact hf b (by simpa [State.writeCpl, State.takeEntry] using this)

/-! ### What has been sent stays sent -/

theorem State.signal_out_mono (s : State) (v : Nat) {o : Output} (h : o ∈ s.out) : o ∈ (s.signal v).out := by
  rcases s.signal_cases v with e | e | ⟨e, -⟩ <;> simp [e, h]

theorem State.coalesce_out_mono (s : State) (n : Nat) (b : Bool) {o : Output} (h : o ∈ s.out) :
    o ∈ (s.coalesce n b).out := by
  unfold State.coalesce
  split
  · exact h
  · dsimp only
    split
    · exact State.signal_out_mono _ _ (by simpa using h)
    · simpa using h

theorem State.admComplete_out_mono (s : State) (a b c : Nat) (q : Bool) {o : Output} (h : o ∈ s.out) :
    o ∈ (s.admComplete a b c q).out := by
  unfold State.admComplete
  split
  · simpa using h
  · exact State.signal_out_mono _ _ (by simpa using h)

theorem State.finishDrain_out_mono (s : State) (n : Nat) {o : Output} (h : o ∈ s.out) : o ∈ (s.finishDrain n).out := by
  have hf : o ∈ (s.flushFire n).out := by
    unfold State.flushFire
    split
    · exact h
    · exact State.signal_out_mono _ _ (by simpa using h)
  unfold State.finishDrain
  split
  · unfold State.endDelete
    split
    · exact State.admComplete_out_mono _ _ _ _ _ (by simpa using hf)
    · simpa using hf
  · exact h

/-- The settling keeps everything that has been sent. -/
theorem State.settle_out_mono (old new : State) {o : Output} (h : o ∈ new.out) : o ∈ (State.settle old new).out := by
  have h1 : o ∈ (State.settleReady old (State.settleCal old new.settleLive)).out := by
    unfold State.settleReady
    split
    · simpa using h
    · refine State.signal_out_mono _ _ ?_
      split <;> simpa using h
  rw [State.settle]
  simp only [State.settleFirst_out, State.settleGrn, State.signalGrn]
  split
  · simpa using h1
  · exact State.signal_out_mono _ _ (by simpa using h1)

/-! ### The completion itself -/

theorem State.writeCpl_sent (s : State) (n : Nat) (c : Cpl) : (s.writeCpl n c).sentCpl n c.seq c.status c.result := by
  refine ⟨(s.dropInflight n).getN F.MBX_PTRS_CQ_TAIL n,
    (s.dropInflight n).via ((s.dropInflight n).getN F.MBX_STATE_CTX n), (s.dropInflight n).cqLink n,
    natOfBool ((s.dropInflight n).pair n).phase,
    (s.dropInflight n).getN F.MBX_PTRS_HEAD n, (s.dropInflight n).getN F.MBX_PTRS_LIMIT n, ?_⟩
  refine State.coalesce_out_mono _ _ _ ?_
  simp [State.takeEntry, State.entryOf]

@[simp] theorem State.pair_setPair (s : State) (n : Nat) (p : Pair) : (s.setPair n p).pair n = p := by
  simp [State.pair, State.setPair, Store.getD]

theorem State.pair_congr {s t : State} (h : s.mbx = t.mbx) (n : Nat) : s.pair n = t.pair n := by
  simp [State.pair, h]

theorem State.admComplete_adm (s : State) (seq st r : Nat) (q : Bool) :
    (s.admComplete seq st r q).get F.ADM_CPL_CPL = (cplEntry seq st 0 0 0 r).toNat ∧
      (s.admComplete seq st r q).get F.ADM_STATUS_BUSY = 0 ∧ (s.admComplete seq st r q).get F.ADM_STATUS_DONE = 1 := by
  have e : ∀ f, (s.admComplete seq st r q).get f = (s.setAll [(F.ADM_CPL_CPL, (cplEntry seq st 0 0 0 r).toNat),
      (F.ADM_STATUS_BUSY, 0), (F.ADM_STATUS_DONE, 1)]).get f := by
    intro f
    unfold State.admComplete
    split
    · rfl
    · exact State.getN_signal _ _ _ _
  have hw : F.ADM_CPL_CPL.width = 128 := rfl
  simp only [e, State.setAll, List.foldl]
  refine ⟨?_, ?_, ?_⟩
  · rw [State.get_set_of_id _ (by decide), State.get_set_of_id _ (by decide), State.get_set_self, hw,
      Nat.mod_eq_of_lt (BitVec.isLt _)]
  · rw [State.get_set_of_id _ (by decide), State.get_set_self, Nat.zero_mod]
  · rw [State.get_set_self]
    rfl

/-- What completing a command in `s` leaves, seen through the settling and from any earlier state `u` of the same
mailboxes. -/
theorem State.complete_completed (old u s : State) (a : Accepted) (st r : Nat) (hm : s.mbx = u.mbx)
    (hc : ∀ n, s.cqStopped n = u.cqStopped n) (hr : ∀ n, s.cqUnreachable n = u.cqUnreachable n) :
    Completed u a st r (State.settle old (s.complete a st r)) := by
  have hs : ∀ g : Field, g.outside settleFields →
      (State.settle old (s.complete a st r)).get g = (s.complete a st r).get g := fun g hg =>
    State.settle_getN _ _ hg 0
  refine ⟨by simpa using State.complete_forgets s a st r, ?_⟩
  cases hmb : a.mb with
  | admin =>
    simp only
    have he : s.complete a st r = (s.forget a.id).admComplete (cmdSeq a.cmd) st r (cmdNoIrq a.cmd) := by
      unfold State.complete; rw [hmb]
    rw [hs _ (by simp only [Field.outside, settleFields, readyLive, statusLive]; decide),
      hs _ (by simp only [Field.outside, settleFields, readyLive, statusLive]; decide),
      hs _ (by simp only [Field.outside, settleFields, readyLive, statusLive]; decide), he]
    exact State.admComplete_adm _ _ _ _ _
  | pair n =>
    simp only
    have he : s.complete a st r =
        (s.forget a.id).pairComplete n.val ⟨cmdSeq a.cmd, st, r, cmdNoIrq a.cmd⟩ := by
      unfold State.complete; rw [hmb]
    have hp : (s.forget a.id).pair n.val = u.pair n.val := by simp [State.pair, State.forget, hm]
    have hq : (s.forget a.id).cqStopped n.val = u.cqStopped n.val := hc n.val
    have hu : (s.forget a.id).cqUnreachable n.val = u.cqUnreachable n.val := hr n.val
    by_cases h1 : u.cqStopped n.val = true
    · exact .inl h1
    by_cases h2 : u.cqUnreachable n.val = true
    · exact .inr (.inl h2)
    refine .inr (.inr ?_)
    rw [he]
    unfold State.pairComplete
    rw [hq, hu, if_neg h1, if_neg h2]
    split
    · left
      rw [State.pair_congr (t := (s.forget a.id).holdCpl n.val _) (State.settle_mbx _ _)]
      simp [State.holdCpl]
    · right
      obtain ⟨i, via, ad, fl, hd, lm, ho⟩ :=
        State.writeCpl_sent (s.forget a.id) n.val ⟨cmdSeq a.cmd, st, r, cmdNoIrq a.cmd⟩
      exact ⟨i, via, ad, fl, hd, lm, State.settle_out_mono _ _ (State.finishDrain_out_mono _ _ ho)⟩


/-- A mailbox's read of host memory, once its address is reached, brings what the host delivers, padded or cut to its length. -/
theorem State.mailRead_host {s u : State} {a : Accepted} {addr n : Nat} {frames : List Nat} (b : List Byte) (hn : n ≠ 0)
    (hd : inDevice addr = false) (h : s.reach (placeOf 1 (s.mailboxCtx a.mb) addr) n false = (u, .ok frames)) :
    s.mailRead a addr n (.bytes b) = .bytes ((u.readPieces addr n frames).foldl
      (fun v q => v.emit (.hostRead (v.via (placeOf 1 (s.mailboxCtx a.mb) addr).ctx) q.1 q.2)) u) (fitBytes n b) := by
  simp only [State.mailRead, h, hd, if_neg hn]
  rfl

end Sys2Proof.Machine
end

