-- ==== Sys2Proof/Laws/Frame.lean ====
section
/-!
SUPPORT. Frames of the shared operations, and how frames compose: each lemma says which parts and registers an operation
can touch at all.
-/

namespace Sys2Proof.Machine

theorem Part.same_refl (s : State) (p : Part) : p.same s s := by cases p <;> rfl

theorem Part.same_trans {s t u : State} {p : Part} (h : p.same s t) (k : p.same t u) : p.same s u := by
  cases p <;> exact Eq.trans k h

theorem Field.outside_append {g : Field} {k l : List Field} : g.outside (k ++ l) ↔ g.outside k ∧ g.outside l := by
  simp only [Field.outside, List.mem_append]
  exact ⟨fun h => ⟨fun f hf => h f (.inl hf), fun f hf => h f (.inr hf)⟩, fun h f hf => hf.elim (h.1 f) (h.2 f)⟩

theorem Frame.refl (s : State) (ps : List Part) (fs : List Field) : Frame s s ps fs :=
  ⟨rfl, rfl, fun p _ => Part.same_refl s p, fun _ _ _ => rfl⟩

/-- Frames compose. -/
theorem Frame.trans {s t u : State} {ps : List Part} {fs : List Field} (h : Frame s t ps fs) (k : Frame t u ps fs) :
    Frame s u ps fs :=
  ⟨k.1.trans h.1, k.2.1.trans h.2.1, fun p hp => Part.same_trans (h.2.2.1 p hp) (k.2.2.1 p hp),
    fun g hg n => (k.2.2.2 g hg n).trans (h.2.2.2 g hg n)⟩

/-- A frame may be widened. -/
theorem Frame.mono {s t : State} {ps qs : List Part} {fs gs : List Field} (h : Frame s t ps fs) (hp : ∀ p ∈ ps, p ∈ qs)
    (hf : ∀ f ∈ fs, f ∈ gs) : Frame s t qs gs := by
  refine ⟨h.1, h.2.1, fun p hq => h.2.2.1 p (fun hm => hq (hp p hm)), fun g hg n => h.2.2.2 g ?_ n⟩
  have := Field.outside_append.1 hg
  exact Field.outside_append.2 ⟨this.1, fun f hm => this.2 f (hf f hm)⟩

/-- Writing one field keeps everything but that field. -/
theorem Frame.setN (s : State) (f : Field) (n v : Nat) {ps : List Part} {fs : List Field} (h : f ∈ fs) :
    Frame s (s.setN f n v) ps fs := by
  refine ⟨State.setN_now _ _ _ _, State.setN_pending _ _ _ _, fun p _ => ?_, fun g hg m => ?_⟩
  · cases p <;> simp [Part.same]
  · exact State.getN_setN_of_id s ((Field.outside_append.1 hg).2 f h) n v m

theorem Frame.set (s : State) (f : Field) (v : Nat) {ps : List Part} {fs : List Field} (h : f ∈ fs) :
    Frame s (s.set f v) ps fs := Frame.setN s f 0 v h

theorem Frame.emit (s : State) (o : Output) (ps : List Part) (fs : List Field) : Frame s (s.emit o) ps fs :=
  ⟨rfl, rfl, fun p _ => by cases p <;> rfl, fun _ _ _ => rfl⟩

theorem Frame.fresh (s : State) (ps : List Part) (fs : List Field) : Frame s s.fresh.2 ps fs :=
  ⟨rfl, rfl, fun p _ => by cases p <;> rfl, fun _ _ _ => rfl⟩

theorem Frame.signal (s : State) (v : Nat) (ps : List Part) (fs : List Field) : Frame s (s.signal v) ps fs := by
  refine ⟨by simp, by simp, fun p _ => ?_, fun g _ n => State.getN_signal s v g n⟩
  cases p <;> simp only [Part.same, State.signal_pwr, State.signal_ft, State.signal_cal, State.signal_hub, State.signal_mgt,
    State.signal_mbx, State.signal_grn, State.signal_dram, State.signal_flash, State.signal_dge, State.signal_eng]
  rcases s.signal_cases v with h | h | ⟨h, -⟩ <;> simp [h]

/-- A fault event keeps everything outside its own parts and fields. -/
theorem Frame.raise (s : State) (n inst word : Nat) {ps : List Part} {fs : List Field} (hp : ∀ p ∈ raiseParts, p ∈ ps)
    (hf : ∀ f ∈ raiseFields, f ∈ fs) : Frame s (s.raise n inst word) ps fs := by
  refine Frame.mono (ps := raiseParts) (fs := raiseFields) ⟨State.raise_now _ _ _ _, State.raise_pending _ _ _ _, ?_, ?_⟩ hp hf
  · intro p h
    cases p with
    | pwr => exact absurd (by decide) h
    | link => exact absurd (by decide) h
    | hub => exact absurd (by decide) h
    | grn => exact absurd (by decide) h
    | ft => exact State.raise_ft _ _ _ _
    | cal => exact State.raise_cal _ _ _ _
    | mgt => exact State.raise_mgt _ _ _ _
    | mbx => exact State.raise_mbx _ _ _ _
    | dram => exact State.raise_dram _ _ _ _
    | flash => exact State.raise_flash _ _ _ _
    | dge => exact State.raise_dge _ _ _ _
    | eng => exact State.raise_eng _ _ _ _
  · intro g hg m
    exact State.raise_getN s n inst word (Field.outside_append.1 hg).2 m

/-- The hub without the AUX copies. -/
def Hub.withoutCopies (h : Hub) : Hub := { h with auxGrn := 0, auxFirst := [] }

/-- The link without the pending bits. -/
def Link.withoutPba (l : Link) : Link := { l with pba := [] }

theorem State.signal_link_core (s : State) (v : Nat) : (s.signal v).link.withoutPba = s.link.withoutPba := by
  rcases s.signal_cases v with h | h | ⟨h, -⟩ <;> rw [h] <;> rfl

theorem State.settleReady_link_core (old s : State) : (State.settleReady old s).link.withoutPba = s.link.withoutPba := by
  unfold State.settleReady
  split
  · rfl
  · rw [State.signal_link_core]
    split
    · rw [State.set_link]
    · rfl

theorem State.settle_link_core (old s : State) : (State.settle old s).link.withoutPba = s.link.withoutPba := by
  have h : ∀ t, (State.signalGrn old t).link.withoutPba = t.link.withoutPba := fun t => by
    unfold State.signalGrn
    split
    · rfl
    · exact State.signal_link_core t 2
  rw [State.settle, State.settleFirst_link, State.settleGrn, h, State.alertGrn_link, State.copyGrn_link,
    State.settleReady_link_core, State.settleCal_link, State.settleLive_link]

theorem State.settle_hub_core (old s : State) : (State.settle old s).hub.withoutCopies = s.hub.withoutCopies := by
  have h1 : ∀ t, (State.settleFirst old t).hub.withoutCopies = t.hub.withoutCopies := fun t => by
    unfold State.settleFirst
    split <;> rfl
  have h2 : ∀ t, (State.copyGrn old t).hub.withoutCopies = t.hub.withoutCopies := fun t => by
    unfold State.copyGrn
    split <;> rfl
  rw [State.settle, h1, State.settleGrn, State.signalGrn_hub, State.alertGrn_hub, h2, State.settleReady_hub,
    State.settleCal_hub, State.settleLive_hub]

/-- The settling keeps everything but what follows the state. -/
theorem Frame.settle (old s : State) (ps : List Part) (fs : List Field) : Frame s (State.settle old s) ps fs := by
  refine ⟨State.settle_now _ _, State.settle_pending _ _, fun p _ => ?_,
    fun g hg n => State.settle_getN old s (Field.outside_append.1 hg).1 n⟩
  cases p with
  | link => exact State.settle_link_core old s
  | hub => exact State.settle_hub_core old s
  | pwr => exact State.settle_pwr _ _
  | ft => exact State.settle_ft _ _
  | cal => exact State.settle_cal _ _
  | mgt => exact State.settle_mgt _ _
  | mbx => exact State.settle_mbx _ _
  | grn => exact State.settle_grn _ _
  | dram => exact State.settle_dram _ _
  | flash => exact State.settle_flash _ _
  | dge => exact State.settle_dge _ _
  | eng => exact State.settle_eng _ _

/-- The frame of a command: what its effect may touch, and the settling. -/
theorem Frame.done {s u : State} (old : State) {ps : List Part} {fs : List Field} (h : Frame s u ps fs) :
    Frame s (State.settle old u) ps fs := h.trans (Frame.settle old u ps fs)

/-- What a function of the mailboxes alone keeps. -/
theorem Frame.ofMbx {s t : State} (hr : t.regs = s.regs) (hm : { t with mbx := s.mbx, out := s.out } = s)
    {ps : List Part} (h : .mbx ∈ ps) (fs : List Field) : Frame s t ps fs := by
  have e : ∀ {α : Type} (f : State → α), f { t with mbx := s.mbx, out := s.out } = f s := fun f => congrArg f hm
  refine ⟨e State.now, e State.pending, fun p hp => ?_, fun g _ n => State.getN_same hr g n⟩
  cases p with
  | mbx => exact absurd h hp
  | pwr => exact e State.pwr
  | ft => exact e State.ft
  | cal => exact e State.cal
  | link => exact congrArg (fun l : Link => { l with pba := [] }) (e State.link)
  | hub => exact congrArg (fun l : Hub => { l with auxGrn := 0, auxFirst := [] }) (e State.hub)
  | mgt => exact e State.mgt
  | grn => exact e State.grn
  | dram => exact e State.dram
  | flash => exact e State.flash
  | dge => exact e State.dge
  | eng => exact e State.eng

theorem Frame.forget (s : State) (id : Nat) {ps : List Part} (h : .mbx ∈ ps) (fs : List Field) :
    Frame s (s.forget id) ps fs := Frame.ofMbx (s := s) (t := s.forget id) rfl (by cases s; rfl) h fs

theorem Frame.setPair (s : State) (n : Nat) (p : Pair) {ps : List Part} (h : .mbx ∈ ps) (fs : List Field) :
    Frame s (s.setPair n p) ps fs := Frame.ofMbx (s := s) (t := s.setPair n p) rfl (by cases s; rfl) h fs

theorem Frame.setAll (l : List (Field × Nat)) {ps : List Part} {fs : List Field} (h : ∀ p ∈ l, p.1 ∈ fs) (s : State) :
    Frame s (s.setAll l) ps fs := by
  induction l generalizing s with
  | nil => exact Frame.refl s ps fs
  | cons p l ih =>
    exact (Frame.set s p.1 p.2 (h p (by simp))).trans (ih (fun q hq => h q (by simp [hq])) _)

theorem Frame.foldl {α : Type} {ps : List Part} {fs : List Field} (step : State → α → State) (l : List α)
    (h : ∀ a ∈ l, ∀ s, Frame s (step s a) ps fs) (s : State) : Frame s (l.foldl step s) ps fs := by
  induction l generalizing s with
  | nil => exact Frame.refl s ps fs
  | cons a l ih => exact (h a (by simp) s).trans (ih (fun b hb => h b (by simp [hb])) (step s a))

section Completion

variable {ps : List Part} {fs : List Field}

theorem Frame.admComplete (hf : ∀ f ∈ completeFields, f ∈ fs) (s : State) (a b c : Nat) (q : Bool) :
    Frame s (s.admComplete a b c q) ps fs := by
  have h : ∀ p ∈ [(F.ADM_CPL_CPL, (cplEntry a b 0 0 0 c).toNat), (F.ADM_STATUS_BUSY, 0), (F.ADM_STATUS_DONE, 1)],
      p.1 ∈ fs := by
    intro p hm
    refine hf _ ?_
    simp only [List.mem_cons, List.not_mem_nil, or_false] at hm
    rcases hm with rfl | rfl | rfl <;> simp [completeFields]
  unfold State.admComplete
  split
  · exact Frame.setAll _ h s
  · exact (Frame.setAll _ h s).trans (Frame.signal _ _ _ _)

theorem Frame.dropInflight (hf : ∀ f ∈ completeFields, f ∈ fs) (s : State) (n : Nat) :
    Frame s (s.dropInflight n) ps fs :=
  (Frame.setN s _ _ _ (hf _ (by simp [completeFields]))).trans (Frame.setN _ _ _ _ (hf _ (by simp [completeFields])))

theorem Frame.coalesce (hp : Part.mbx ∈ ps) (s : State) (n : Nat) (b : Bool) : Frame s (s.coalesce n b) ps fs := by
  unfold State.coalesce
  split
  · exact Frame.refl s ps fs
  · dsimp only
    split
    · exact (Frame.setPair s _ _ hp fs).trans (Frame.signal _ _ _ _)
    · exact Frame.setPair s _ _ hp fs

theorem Frame.writeCpl (hp : Part.mbx ∈ ps) (hf : ∀ f ∈ completeFields, f ∈ fs) 
    (s : State) (n : Nat) (c : Cpl) : Frame s (s.writeCpl n c) ps fs := by
  unfold State.writeCpl State.takeEntry
  exact (Frame.dropInflight hf s n).trans ((Frame.emit _ _ _ _).trans
    ((Frame.setN _ _ _ _ (hf _ (by simp [completeFields]))).trans ((Frame.setPair _ _ _ hp fs).trans
      (Frame.coalesce hp _ _ _))))

theorem Frame.finishDrain (hp : Part.mbx ∈ ps) (hf : ∀ f ∈ completeFields, f ∈ fs) 
    (s : State) (n : Nat) : Frame s (s.finishDrain n) ps fs := by
  have h1 : Frame s (s.flushFire n) ps fs := by
    unfold State.flushFire
    split
    · exact Frame.refl s ps fs
    · exact (Frame.setPair s _ _ hp fs).trans (Frame.signal _ _ _ _)
  have h2 : ∀ t : State, Frame t (t.clearPair n) ps fs := fun t => by
    unfold State.clearPair
    have hs : Frame t { t with mbx := { t.mbx with pairs := t.mbx.pairs.erase n } } ps fs :=
      Frame.ofMbx (s := t) (t := { t with mbx := { t.mbx with pairs := t.mbx.pairs.erase n } }) rfl (by cases t; rfl) hp fs
    refine hs.trans (Frame.foldl _ _ (fun f hm u => Frame.setN u f n 0 (hf f ?_)) _)
    simp only [completeFields, List.mem_cons] at hm ⊢
    tauto
  have h3 : ∀ t : State, Frame t (t.endDelete n) ps fs := fun t => by
    unfold State.endDelete
    split
    · exact (Frame.forget t _ hp fs).trans (Frame.admComplete hf _ _ _ _ _)
    · exact Frame.refl t ps fs
  unfold State.finishDrain
  split
  · exact h1.trans ((h2 _).trans (h3 _))
  · exact Frame.refl s ps fs

end Completion

/-- The frame of completing a command (R94, R113). -/
theorem Frame.complete (s : State) (a : Accepted) (st r : Nat) :
    Frame s (s.complete a st r) (cplParts s a) (cplFields s a) := by
  unfold State.complete
  have hm : .mbx ∈ cplParts s a := by unfold cplParts; split <;> simp
  have hc : ∀ f ∈ completeFields, f ∈ cplFields s a := by
    intro f h; unfold cplFields; split <;> simp [h]
  split
  · exact (Frame.forget s _ hm _).trans (Frame.admComplete hc _ _ _ _ _)
  · rename_i n he
    have hb : (s.forget a.id).pair n.val = s.pair n.val := rfl
    refine (Frame.forget s a.id hm _).trans ?_
    unfold State.pairComplete
    rw [hb]
    split_ifs with h1 h2
    · exact (Frame.dropInflight hc _ _).trans (Frame.finishDrain hm hc _ _)
    · have hbad : s.ringBad a = true := by
        rw [State.ringBad, he]
        exact h2
      have hr : ∀ p ∈ raiseParts, p ∈ cplParts s a := by intro p h; simp [cplParts, hbad, h]
      have hrf : ∀ f ∈ raiseFields, f ∈ cplFields s a := by intro f h; simp [cplFields, hbad, h]
      have hset : ∀ t : State, ∀ p, Frame t (t.setPair n.val p) (cplParts s a) (cplFields s a) := fun t p =>
        Frame.setPair t _ p hm _
      have hpe : ∀ t : State, Frame t (t.pairError n.val 3) (cplParts s a) (cplFields s a) := fun t => by
        unfold State.pairError
        split
        · refine Frame.trans ?_ (Frame.raise _ _ _ _ hr hrf)
          unfold State.enterError State.endHold
          exact (hset t _).trans ((Frame.setN _ _ _ _ (hc _ (by simp [completeFields]))).trans
            (Frame.setN _ _ _ _ (hc _ (by simp [completeFields]))))
        · exact Frame.refl t _ _
      unfold State.holdCpl State.cqFails State.emptyHeld State.dropAll
      exact (hset _ _).trans ((hpe _).trans ((hset _ _).trans
        ((Frame.foldl _ _ (fun _ _ t => Frame.dropInflight hc t _) _).trans (Frame.finishDrain hm hc _ _))))
    · exact Frame.setPair _ _ _ hm _
    · exact (Frame.writeCpl hm hc _ _ _).trans (Frame.finishDrain hm hc _ _)

end Sys2Proof.Machine
end

