-- ==== Sys2Proof/Laws/Options.lean ====
section
/-!
SUPPORT. Option records (R411): the length of a digest, and what sealing a record's digest into it keeps.
-/

namespace Sys2Proof.Machine

set_option Elab.async false

theorem leBytes_length (n : Nat) : ∀ v, (leBytes n v).length = n := by
  induction n with
  | zero => intro v; rfl
  | succ n ih => intro v; simp [leBytes, ih]

theorem beBytes_length (n v : Nat) : (beBytes n v).length = n := by
  simp [beBytes, leBytes_length]

theorem ShaAlg.blocks_length (al : ShaAlg) (n : Nat) : ∀ (h : List Nat) (t : List Byte), h.length = 8 →
    (al.blocks n h t).length = 8 := by
  induction n with
  | zero => intro h t k; exact k
  | succ n ih => intro h t _; exact ih _ _ rfl

/-- A digest has the bytes that its algorithm gives (R415). -/
theorem ShaAlg.hash_length (al : ShaAlg) (m : List Byte) : (al.hash m).length = al.outLen := by
  have h := ShaAlg.blocks_length al ((m ++ al.pad m.length).length / al.block) al.init (m ++ al.pad m.length)
    (by cases al <;> rfl)
  have e : ∀ l : List Nat, (l.flatMap (beBytes (al.width / 8))).length = l.length * (al.width / 8) := by
    intro l
    induction l with
    | nil => simp
    | cons a l ih => simp [List.flatMap_cons, ih, beBytes_length, Nat.succ_mul, Nat.add_comm]
  simp only [ShaAlg.hash, ShaAlg.finish, List.length_take, e, h]
  cases al <;> rfl

/-- A record with its DIGEST. -/
def withDigest (r : List Byte) : List Byte := r.take 0x10 ++ recordDigest r ++ r.drop 0x30

theorem recordDigest_length (r : List Byte) : (recordDigest r).length = 32 := ShaAlg.hash_length .sha256 _

theorem withDigest_length (r : List Byte) (h : 48 ≤ r.length) : (withDigest r).length = r.length := by
  simp only [withDigest, List.length_append, List.length_take, List.length_drop, recordDigest_length]
  omega

/-- Bytes beyond the digest are the record's. -/
theorem withDigest_drop (r : List Byte) (h : 16 ≤ r.length) (k : Nat) (hk : 48 ≤ k) : (withDigest r).drop k = r.drop k := by
  have e : (r.take 0x10 ++ recordDigest r).length = 48 := by
    simp only [List.length_append, List.length_take, recordDigest_length]
    omega
  rw [withDigest, List.drop_append, List.drop_of_length_le (by omega), e, List.nil_append, List.drop_drop]
  congr 1
  omega

/-- Bytes before the digest are the record's. -/
theorem withDigest_take (r : List Byte) (h : 16 ≤ r.length) (k : Nat) (hk : k ≤ 16) : (withDigest r).take k = r.take k := by
  rw [withDigest, List.append_assoc, List.take_append, List.take_take, List.length_take]
  rw [show k - min 16 r.length = 0 by omega, List.take_zero, List.append_nil, Nat.min_eq_left hk]

theorem withDigest_high (r : List Byte) (h : 16 ≤ r.length) (k n : Nat) (hk : 48 ≤ k) :
    sliceBytes (withDigest r) k n = sliceBytes r k n := by
  rw [sliceBytes, withDigest_drop r h k hk, sliceBytes]

theorem withDigest_low (r : List Byte) (h : 16 ≤ r.length) (k n : Nat) (hk : k + n ≤ 16) :
    sliceBytes (withDigest r) k n = sliceBytes r k n := by
  have e : ∀ l : List Byte, sliceBytes l k n = ((l.take 16).drop k).take n := by
    intro l
    rw [sliceBytes, List.drop_take, List.take_take, Nat.min_eq_left (by omega)]
  rw [e, e, withDigest_take r h 16 (Nat.le_refl 16)]

/-- The digest field holds the digest. -/
theorem withDigest_digest (r : List Byte) (h : 16 ≤ r.length) : sliceBytes (withDigest r) 0x10 32 = recordDigest r := by
  have e : (r.take 0x10).length = 16 := by rw [List.length_take]; omega
  rw [sliceBytes, withDigest, List.append_assoc, List.drop_append, e, List.drop_of_length_le (by omega), List.nil_append,
    Nat.sub_self, List.drop_zero, List.take_append, recordDigest_length, Nat.sub_self, List.take_zero, List.append_nil,
    List.take_of_length_le (Nat.le_of_eq (recordDigest_length r))]

/-- DIGEST is computed as if it were zero, so that writing it leaves it right (R411). -/
theorem recordDigest_withDigest (r : List Byte) (h : 16 ≤ r.length) : recordDigest (withDigest r) = recordDigest r := by
  rw [recordDigest, recordDigest, putField, putField, withDigest_take r h 16 (Nat.le_refl 16),
    withDigest_drop r h 48 (Nat.le_refl 48)]

/-- A sealed record is valid where its head says so (R412). -/
theorem recordValid_withDigest (r : List Byte) (h : r.length = 4096) (h0 : leField r 0 4 = 0x544F5053)
    (h1 : leField r 4 1 = 1) (h2 : leField r 6 2 = 4096) : recordValid (withDigest r) = true := by
  have hl : 16 ≤ r.length := by omega
  simp only [recordValid, withDigest_length r (by omega), h, leField, withDigest_low r hl 0 4 (by omega),
    withDigest_low r hl 4 1 (by omega), withDigest_low r hl 6 2 (by omega), recordDigest_withDigest r hl,
    withDigest_digest r hl]
  simp only [leField] at h0 h1 h2
  simp [h0, h1, h2]

/-- The conditions of a record but its digest (R411, R413). -/
def otherFaults (r : List Byte) : List Bool :=
  [leField r 0 4 != 0x544F5053, leField r 4 1 != 1, leField r 6 2 != 4096,
    (List.range 64).any (fun i => recordSet r (0x40 + i) && !optionFields.contains (0x40 + i)) || leField r 0x38 8 != 0,
    recordSet r 0x50 && !recordShapeOk r] ++
  optionReserved.map (fun p => (leField r p.1 1 &&& p.2) != 0) ++
  optionRanges.map (fun p =>
    recordSet r p.1 && !(decide (p.2.2.1 ≤ leField r p.1 p.2.1) && decide (leField r p.1 p.2.1 ≤ p.2.2.2))) ++
  (List.range 256).map (fun n =>
    maskInvalid n (leField r (0x100 + 2 * n) 2) || (leField r (0x100 + 2 * n) 2 != 0xFFFF && (sourceInfo n).isNone))

/-- A sealed record in which nothing else fails has no fault (R413). -/
theorem optionFaults_withDigest (r : List Byte) (h : 16 ≤ r.length) (ok : ∀ b ∈ otherFaults r, b = false) :
    optionFaults (withDigest r) = [] := by
  have hi : ∀ k n, 48 ≤ k → leField (withDigest r) k n = leField r k n := fun k n hk => by
    rw [leField, withDigest_high r h k n hk, leField]
  have lo : ∀ k n, k + n ≤ 16 → leField (withDigest r) k n = leField r k n := fun k n hk => by
    rw [leField, withDigest_low r h k n hk, leField]
  have hs : recordSet (withDigest r) = recordSet r := funext fun k => by
    rw [recordSet, recordSet, hi 0x30 16 (by omega)]
  have hp : recordShapeOk (withDigest r) = recordShapeOk r := by
    rw [recordShapeOk, recordShapeOk, withDigest_high r h 0x50 8 (by omega)]
  have hr : ∀ p ∈ optionReserved, leField (withDigest r) p.1 1 = leField r p.1 1 := fun p hm => by
    have : ∀ q ∈ optionReserved, q.1 = 5 ∨ 48 ≤ q.1 := by decide +kernel
    rcases this p hm with e | e
    · rw [e]
      exact lo 5 1 (by omega)
    · exact hi p.1 1 e
  have hg : ∀ p ∈ optionRanges, leField (withDigest r) p.1 p.2.1 = leField r p.1 p.2.1 := fun p hm => by
    have : ∀ q ∈ optionRanges, 48 ≤ q.1 := by decide +kernel
    exact hi p.1 p.2.1 (this p hm)
  simp only [otherFaults, List.mem_append, List.mem_cons, List.not_mem_nil, or_false] at ok
  rw [optionFaults, List.map_eq_nil_iff, List.filter_eq_nil_iff]
  intro x hx
  simp only [List.mem_append, List.mem_cons, List.not_mem_nil, or_false, List.mem_map, or_assoc] at hx
  rcases hx with rfl | rfl | rfl | rfl | rfl | rfl | ⟨p, hm, rfl⟩ | ⟨p, hm, rfl⟩ | ⟨n, hm, rfl⟩
  · simp only [lo 0 4 (by omega)]
    simpa using ok _ (.inl (.inl (.inl (.inl rfl))))
  · simp only [lo 4 1 (by omega)]
    simpa using ok _ (.inl (.inl (.inl (.inr (.inl rfl)))))
  · simp only [lo 6 2 (by omega)]
    simpa using ok _ (.inl (.inl (.inl (.inr (.inr (.inl rfl))))))
  · simp [recordDigest_withDigest r h, withDigest_digest r h]
  · simp only [hs, hi 0x38 8 (by omega)]
    rw [ok _ (.inl (.inl (.inl (.inr (.inr (.inr (.inl rfl)))))))]
    decide
  · simp only [hs, hp]
    rw [ok _ (.inl (.inl (.inl (.inr (.inr (.inr (.inr rfl)))))))]
    decide
  · simp only [hr p hm]
    rw [ok _ (.inl (.inl (.inr (List.mem_map.2 ⟨p, hm, rfl⟩))))]
    decide
  · simp only [hg p hm, hs]
    rw [ok _ (.inl (.inr (List.mem_map.2 ⟨p, hm, rfl⟩)))]
    decide
  · simp only [hi (0x100 + 2 * n) 2 (by omega)]
    rw [ok _ (.inr (List.mem_map.2 ⟨n, hm, rfl⟩))]
    decide

/-! ### The record without fields -/

theorem ofLeBytes_zeros (n : Nat) : ofLeBytes (List.replicate n 0#8) = 0 := by
  induction n with
  | zero => rfl
  | succ n ih => simp [List.replicate_succ, ofLeBytes, ih]

theorem emptyRecord_length : emptyRecord.length = 4096 := by
  simp only [emptyRecord, List.length_append, leBytes_length, List.length_cons, List.length_nil, List.length_replicate]

theorem emptyRecord_drop (k : Nat) (h : 8 ≤ k) :
    emptyRecord.drop k = List.replicate (256 - k) 0#8 ++ List.replicate (512 - (k - 256)) 0xFF#8 ++
      List.replicate (3328 - (k - 768)) 0#8 := by
  have e : (leBytes 4 0x544F5053 ++ [1#8, 0#8] ++ leBytes 2 4096).length = 8 := by
    simp only [List.length_append, leBytes_length, List.length_cons, List.length_nil]
  rw [emptyRecord, List.drop_append, List.drop_append, List.drop_append, List.drop_of_length_le (by omega)]
  simp only [List.length_append, e, List.length_replicate, List.drop_replicate, List.nil_append]
  rw [show 248 - (k - 8) = 256 - k by omega, show k - (8 + 248) = k - 256 by omega,
    show k - (8 + 248 + 512) = k - 768 by omega]

/-- Outside its head and its masks it is zero. -/
theorem emptyRecord_zero (k n : Nat) (h : 8 ≤ k) (hn : k + n ≤ 256 ∨ 768 ≤ k) : leField emptyRecord k n = 0 := by
  rw [leField, sliceBytes, emptyRecord_drop k h]
  rcases hn with hn | hn
  · rw [List.append_assoc, List.take_append, List.take_replicate, List.length_replicate,
      show n - (256 - k) = 0 by omega, List.take_zero, List.append_nil]
    exact ofLeBytes_zeros _
  · rw [show 256 - k = 0 by omega, show 512 - (k - 256) = 0 by omega]
    simp only [List.replicate_zero, List.nil_append, List.take_replicate]
    exact ofLeBytes_zeros _

/-- Its masks are all ones. -/
theorem emptyRecord_mask (n : Nat) (h : n < 256) : leField emptyRecord (0x100 + 2 * n) 2 = 0xFFFF := by
  rw [leField, sliceBytes, emptyRecord_drop _ (by omega), show 256 - (0x100 + 2 * n) = 0 by omega, List.replicate_zero,
    List.nil_append, List.take_append, List.take_replicate, List.length_replicate,
    show 2 - (512 - (0x100 + 2 * n - 256)) = 0 by omega, List.take_zero, List.append_nil,
    show min 2 (512 - (0x100 + 2 * n - 256)) = 2 by omega]
  rfl

theorem emptyRecord_head : leField emptyRecord 0 4 = 0x544F5053 ∧ leField emptyRecord 4 1 = 1 ∧
    leField emptyRecord 5 1 = 0 ∧ leField emptyRecord 6 2 = 4096 := by
  decide +kernel

/-- Nothing fails in it but its digest, which is not yet written (R413). -/
theorem emptyRecord_faults : optionFaults (withDigest emptyRecord) = [] := by
  have hl := emptyRecord_length
  refine optionFaults_withDigest emptyRecord (by omega) fun b hb => ?_
  have hs : ∀ k, recordSet emptyRecord k = false := fun k => by
    rw [recordSet, emptyRecord_zero 0x30 16 (by omega) (by omega)]
    simp [bitOf]
  obtain ⟨h0, h1, h2, h3⟩ := emptyRecord_head
  simp only [otherFaults, List.mem_append, List.mem_cons, List.not_mem_nil, or_false, List.mem_map, or_assoc, h0, h1, h3,
    hs, emptyRecord_zero 0x38 8 (by omega) (by omega)] at hb
  rcases hb with rfl | rfl | rfl | rfl | rfl | ⟨p, hm, rfl⟩ | ⟨p, hm, rfl⟩ | ⟨n, hm, rfl⟩
  · rfl
  · rfl
  · rfl
  · simp
  · rfl
  · have : ∀ q ∈ optionReserved, q.1 = 5 ∨ 8 ≤ q.1 ∧ (q.1 + 1 ≤ 256 ∨ 768 ≤ q.1) := by decide +kernel
    rcases this p hm with e | e
    · rw [e, h2]
      simp
    · rw [emptyRecord_zero p.1 1 e.1 e.2]
      simp
  · rfl
  · have : ∀ k, k < 256 → maskInvalid k 0xFFFF = false := by decide +kernel
    have hn := List.mem_range.1 hm
    rw [emptyRecord_mask n hn, this n hn]
    rfl

end Sys2Proof.Machine
end

