-- ==== Sys2Proof/Laws/Tasks.lean ====
section
/-!
SUPPORT. The steps of tasks: what `runStep` does, case by case, and what a block task and a task without input make of
their work.
-/

namespace Sys2Proof.Machine

/-- A command whose effect is one step of a task does what `StepsTask` says, where `work` tells what the task's own work
makes of the state. -/
theorem StepsTask.of_runStep {c : Instr} {n : Nat} {fits : Task → OpRec → Bool} {f : State → Task → State}
    {work : State → Task → State → Prop} (hc : ∀ s, exec c s = done s (s.runStep n fits f))
    (hw : ∀ s k, work s k (f s k)) : StepsTask c n fits work := by
  intro s
  have still : s.runStep n fits f = s → Answers c s fun t => Frame s t [] [] := fun h =>
    ⟨_, by rw [hc, h]; rfl, Frame.settle s s [] []⟩
  have run : ∀ u, s.runStep n fits f = u → Runs c s u := fun u h => by rw [Runs, hc, h]; rfl
  refine ⟨fun h => still (by rw [State.runStep, h]), fun k hk => ⟨fun hf => still ?_, fun hf => ⟨fun ht => run _ ?_,
    fun ht => ⟨fun d hd => run _ ?_, ?_⟩⟩⟩⟩
  · simp [State.runStep, hk, hf]
  · simp [State.runStep, hk, hf, ht]
  · simp [State.runStep, hk, hf, ht, hd]
  · intro hp d v hv
    have hd : s.runStep n fits f =
        if !v.todo.isEmpty || v.done || v.state ≠ .running then d.schedule else (f d v).stepped v.id := by
      simp only [State.runStep, hk, hf, ht, hp, Bool.not_true, Bool.false_eq_true, if_false, Option.isSome_none]
      rw [show ((s.tillerChecks n k).2.drainYield k).task? k.id = some v from hv]
      rfl
    refine ⟨fun h => run _ ?_, fun h1 h2 h3 => ⟨f d v, hw d v, run _ ?_⟩⟩
    · rw [hd, if_pos]
      rcases h with h | h | h <;> simp [h]
    · rw [hd, if_neg]
      simp [h1, h2, h3]

/-- The step of a tiller that exists. -/
theorem StepsTask.of_tiller {c : Instr} {t : BitVec 7} {fits : Task → OpRec → Bool} {f : State → Task → State}
    {work : State → Task → State → Prop} (ht : tillerOk t = true)
    (hc : ∀ s, exec c s = if tillerOk t then done s (s.runStep t.toNat fits f) else .fault .illFormed)
    (hw : ∀ s k, work s k (f s k)) : StepsTask c t.toNat fits work :=
  StepsTask.of_runStep (fun s => by rw [hc, if_pos ht]) hw

/-- The work of a step either fails at a row or ends. -/
theorem EndsWork.of_match (s : State) (k : Task) (w : Work) (failing : Nat → Task) (next : State) :
    EndsWork s k w failing next (match w.fail with
      | some e =>
        (s.setTask { failing e.1 with todo := (failing e.1).todo ++ w.out }).stopOp
          { failing e.1 with todo := (failing e.1).todo ++ w.out } e.2.1 e.2.2 (k.row + e.1)
      | none => next) := by
  refine ⟨fun h => by rw [h], fun i code detail h => by rw [h]⟩

/-- What a block task makes of the next reference of its input block. -/
theorem State.takeInput_takes (row : State → Task → RowWork) (mark last : State → Task → Work → Work) (s : State)
    (k : Task) : TakesInput row mark last s k (s.takeInput k row mark last) := by
  refine ⟨fun h => by rw [State.takeInput, h], fun c r h => ?_⟩
  refine ⟨_, by rw [State.takeInput, h], fun v => ⟨fun b hk hb => ⟨fun hp => ?_, fun hp => ?_⟩, fun hk => ?_, fun hk => ?_⟩⟩
  · simp only [hk, hb, hp, if_true]
  · simp only [hk, hb, hp, Bool.false_eq_true, if_false]
    exact ⟨_, rfl, fun x rows => EndsWork.of_match _ _ _ _ _⟩
  · simp only [hk]
    exact EndsWork.of_match _ _ _ (fun _ => k) _
  · simp only [hk]
    exact EndsWork.of_match _ _ _ (fun _ => k) _

/-- What a task without input makes of its work. -/
theorem State.ownWork_does (f : State → Task → Work → Work) (s : State) (k : Task) :
    DoesOwnWork f s k (s.ownWork k f) := by
  simp only [DoesOwnWork, State.ownWork]
  exact EndsWork.of_match _ _ _ (fun _ => k) _

/-- Work on rows read back from the work area. -/
theorem State.withChunks_reads {port : Nat} {chunks : FlowState → List Chunk} {work : List Row → State → Task → State → Prop}
    {s : State} {k : Task} (f : State → List Row → State) (h : ∀ v rows, work rows v k (f v rows)) :
    ReadsBack port chunks work s k (s.withChunks k port (chunks (s.st k)) f) := ⟨f, rfl, h⟩

/-- Work on the rows in the partitions of a flow. -/
theorem State.withParts_loads {work : List (Nat × Row) → State → Task → State → Prop} {s : State} {k : Task}
    (f : State → List (Nat × Row) → State) (h : ∀ v rows, work rows v k (f v rows)) :
    LoadsParts work s k (s.withParts k f) := ⟨f, rfl, h⟩

/-- The windows that a task's work closed are counted. -/
theorem State.counting_counts {work : State → Task → State → Prop} {s : State} {k : Task} {g : State → State}
    (h : work s k (g s)) : Counting work s k (s.counting k g) := ⟨g s, h, rfl⟩

end Sys2Proof.Machine
end

