-- ==== Sys2Proof/Tests/Slice0.lean ====
section
/-!
SUPPORT. Tests: commands that no sender can form, small steps whose results are worked out by hand from the manual, and
for every statement states and operands that meet the hypotheses of its clauses.
-/

namespace Sys2Proof.Tests

set_option Elab.async false

open Sys2Proof.Machine

/-! ### Small states -/

/-- A 64-byte Darsum command (R97). -/
def line (op flags seq len addr : Nat) (args : List Nat) : Line :=
  BitVec.ofNat 512 (op + flags * 2 ^ 8 + seq * 2 ^ 16 + len * 2 ^ 32 + addr * 2 ^ 64 +
    (args.zipIdx.map (fun a => a.1 * 2 ^ (128 + 64 * a.2))).foldl (· + ·) 0)

/-- An accepted command that has not begun. -/
def acc (m : Mailbox) (l : Line) : Accepted := Accepted.new 5 m l

/-- The part powered, out of reset, with the link at its slots. -/
def on : State :=
  { State.reset with
    pwr := { State.reset.pwr with aux := true, hold := true, main := true, perst := false, holdSel := true, mainEn := true } }

/-- With one accepted command. -/
def withCmd (s : State) (a : Accepted) : State := { s with mbx := { s.mbx with accepted := [a] } }

/-- With other supplies, pins or requests. -/
def pw (s : State) (f : Power → Power) : State := { s with pwr := f s.pwr }

/-- The part in service: firmware, vault, pairs, engine and DRAM ready, the link up, field time running, the window LAZY. -/
def live : State :=
  on.setAll [(F.HL_STATUS_LINK_UP, 1), (F.RDY_STATUS_FW, 1), (F.RDY_STATUS_VAULT, 1), (F.RDY_STATUS_PAIRS, 1),
    (F.RDY_STATUS_DRAM, 1), (F.RDY_STATUS_ENGINE, 1), (F.DGE_STATUS_READY, 1), (F.FT_STATUS_STATE, 1),
    (F.GRN_STATE_STATE, 2), (F.ADM_STATUS_READY, 1)]

/-- Pair 3 in service. -/
def P3 : Mailbox := .pair 3

/-- With pair 3 ACTIVE, its rings at 4096 and 8192, and one command in flight. -/
def pairUp (s : State) : State :=
  (((s.setN F.MBX_STATE_STATE 3 1).setN F.MBX_STATE_WINDOW 3 16).setN F.MBX_STATE_INFLIGHT 3 1).setPair 3
    { Pair.blank with sqBase := 4096, cqBase := 8192 }

/-- What a mailbox's read brings satisfies a condition. -/
def gives (r : MailRead) (f : State → List Byte → Bool) : Bool :=
  match r with
  | .bytes v b => f v b
  | _ => false

/-- An access passes, and a condition holds of what it leaves. -/
def reaches {α : Type} (r : State × Dma α) (f : State → α → Bool) : Bool :=
  match r with
  | (u, .ok a) => f u a
  | _ => false

/-- An access parks. -/
def parks {α : Type} (r : State × Dma α) : Bool :=
  match r with
  | (_, .park _) => true
  | _ => false

/-- An access is stopped. -/
def stops {α : Type} (r : State × Dma α) : Bool :=
  match r with
  | (_, .stop _ _) => true
  | _ => false

/-- The bytes that a command's data begins with come, and satisfy a condition. -/
def brings (s : State) (a : Accepted) (n : Nat) (x : Transfer) (f : State → List Byte → Bool) : Bool :=
  if a.inline then f s (leBytes n (s.get F.ADM_DATA_DATA)) else gives (s.mailRead a (cmdAddr a.cmd) n x) f

/-- A command's data declares its own length and comes whole, and a condition holds of it. -/
def declares (s : State) (a : Accepted) (size : Nat) (want : List Byte → Nat) (b : List Byte) (f : State → List Byte → Bool) :
    Bool :=
  brings s a size (.bytes b) fun v h => want h == cmdLen a.cmd && !v.notReady a.cmd && brings v a (cmdLen a.cmd) (.bytes b) f

/-- A command's data waits for a translation. -/
def dataWaits (s : State) (a : Accepted) (n : Nat) : Bool :=
  match s.mailRead a (cmdAddr a.cmd) n (.bytes []) with
  | .wait _ _ => true
  | _ => false

/-- The address of a command's data is reached, so that it is for the host to fail the read. -/
def dataReached (s : State) (a : Accepted) (n : Nat) : Bool :=
  !a.inline && !inDevice (cmdAddr a.cmd) && n != 0 &&
    reaches (s.reach (placeOf 1 (s.mailboxCtx a.mb) (cmdAddr a.cmd)) n false) (fun _ _ => true)

/-- With host addresses translated under ATS, of which none is known yet. -/
def atsUp (s : State) : State := { s.set F.TLU_CTL_ATS_USE 1 with link := { s.link with atsEnable := true } }

/-- With ingress closed for a power failure. -/
def closed (s : State) : State := { pw s (fun p => { p with failed := true }) with grn := { s.grn with closed := true } }

/-- A chip reset that DEVICE_RESET asked for. -/
def request : ResetReq := { req := 1, source := 0, device := true, loadCommitted := false }

/-- An entry of a telemetry set. -/
def telEntry : CalEntry :=
  { instant := 5, period := 10, target := 8, action := 0, arg := 3, late := false, missed := 0, past := false }

/-- A fault record. -/
def record : FaultRecord := ⟨1, 2, 3, 4, 5, 6, 7, 8⟩

/-! ### Commands that no sender can form -/

theorem test_ingest_of_part_of_a_line : (Instr.ingest .admin ⟨0, .bytes [1#8]⟩).wellFormed = false := by decide
theorem test_window_of_a_period_more : (Instr.refWindowEnd 1000).wellFormed = false ∧ (Instr.refWindowEnd (-999)).wellFormed = true := by
  decide
theorem test_sensor_of_three_bytes : (Instr.dimmSensorRead 0 [none, some 5#16, none]).wellFormed = false := by decide
theorem test_clearing_256_events :
    (Instr.clearEventRecords 0 false (List.replicate 256 0#16)).wellFormed = false := by decide +kernel
theorem test_scrub_of_buffer_24576 : (Instr.sramScrubSlice (.poolUncorrectable 24576#15)).wellFormed = false := by decide
theorem test_read_for_tiller_96 : (Instr.hostReadCompletion (.tiller 96#7) (.data [])).wellFormed = false := by decide
theorem test_timeout_of_tiller_127 : (Instr.completionTimeout (.tiller 127#7)).wellFormed = false := by decide

/-- No task command names a tiller past 95 (R183). -/
theorem test_tasks_of_tiller_96 :
    ∀ c ∈ [Instr.taskDispatch, .yieldPoint, .taskEnd, .scanStripeTask, .filterBatch, .computeBatch, .hashJoinBuild,
      .hashJoinProbe, .sortRun, .mergeTask, .hashAggTask, .sortedAggTask, .windowAggDataTask, .closeTask, .endOfStreamWork,
      .topkTask, .exchangeTask, .materializeStripeWrite], (c 96#7).wellFormed = false ∧ (c 95#7).wellFormed = true := by
  simp only [List.forall_mem_cons]
  decide

/-- Such a command stops where it is run. -/
theorem test_task_of_tiller_96_stops : step (State.reset.withPending [.filterBatch 96#7]) = .fault .illFormed := by rfl

/-! ### Power and resets -/

/-- An event that waits is the step's. -/
theorem witness_FrontCommandRuns : State.reset.pending = [] := rfl

theorem witness_CommandsStopOnlyIllFormed :
    (Instr.filterBatch 95#7).wellFormed = true ∧ (Instr.filterBatch 96#7).wellFormed = false ∧ State.reset.wellFormed ∧
    (State.reset.withPending [.filterBatch 95#7]).wellFormed := by
  refine ⟨by decide, by decide, fun c h => absurd h (by simp [State.reset]), fun c h => ?_⟩
  have e : c ∈ [Instr.filterBatch 95#7] := h
  rw [List.mem_singleton.1 e]
  decide

theorem witness_EveryStepKeepsStatusFollowing :
    let s := (pw State.reset (fun p => { p with aux := true })).setAll [(F.MGT_STATUS_ANSWERING, 1)]
    s.statusFollows ∧ step s = .next { s with now := 1 } :=
  ⟨by constructor <;> (unfold State.shows; decide +kernel), rfl⟩

/-- RDY_STATUS.LINK follows the link; a power failure starts a dump. -/
theorem witness_ReadyAndGranaryChangesSetAlerts :
    (∃ t, exec .perstNDeassert live = .next t ∧ t.pwr.aux = true ∧ t.rdyWord ≠ live.rdyWord) ∧
    ∃ t, exec (.powerFailDetection 0 1000000 1000000) (pw live (fun p => { p with armed := true })) = .next t ∧
      t.pwr.aux = true ∧ t.grnState ≠ live.grnState :=
  ⟨⟨_, rfl, by decide +kernel, by decide +kernel⟩, ⟨_, rfl, by decide +kernel, by decide +kernel⟩⟩

/-- AUX off; PERST_N; HOLD good; a live link; an idle group; a junction hot since 5 ns at 100,005 ns. -/
theorem witness_SupplyPinsAndModes :
    State.reset.pwr.aux = false ∧ live.pwr.hold = true ∧ (live.linkUp = true ∧ live.pwr.d3hot = false) ∧
    (let s := { live.set F.PWR_GATE_EN 1 with now := 10000000, eng := { live.eng with up := true } }
     s.groupUp .fn = true ∧ s.eng.up = true ∧ s.flag F.PWR_GATE_EN = true ∧ s.groupIdle 0 = true ∧ s.groupIdle 11 = true) ∧
    (let s := { live with mgt := { live.mgt with hotSince := [(1, 5)] }, now := 100005 }
     s.pwr.aux = true ∧ s.pwr.thermtrip = false ∧
     s.mgt.hotSince.any (fun p => decide (p.2 + 100000 ≤ s.now)) = true ∧ s.groupUp .fn = true) := by
  decide +kernel

theorem witness_PowerGoodBringsUp :
    (let s := pw State.reset (fun p => { p with aux := true })
     s.pwr.aux = true ∧ s.pwr.hold = false) ∧
    (let s := pw on (fun p => { p with main := false })
     s.pwr.hold = true ∧ s.pwr.mainEn = true ∧ s.pwr.main = false) ∧
    State.reset.pwr.hold = false ∧
    (let s := pw live (fun p => { p with d3hot := true })
     s.linkUp = true ∧ s.pwr.d3hot = true) := by
  decide +kernel

theorem witness_FirmwareLoadSetsReadiness :
    let s := on.setAll [(F.RDY_STATUS_VAULT, 1), (F.DGE_STATUS_READY, 1)]
    s.mainUp = true ∧ s.flag F.RDY_STATUS_VAULT = true ∧ s.flag F.DGE_STATUS_READY = true ∧
    s.flag F.RDY_STATUS_FW = false ∧ s.flag F.RDY_STATUS_RECOVERY = false ∧ FirmwareCheck.second ≠ .neither := by
  decide +kernel

theorem witness_ResetsReachTheirGroups : live.linkUp = true ∧ live.mainUp = true ∧ live.pwr.perst = false := by
  decide +kernel

/-- A request that may begin; one that is deferred; one that waits for a dump; groups held; ingress closed. -/
theorem witness_ChipResetHoldsAndReopens :
    (let s := pw live (fun p => { p with request := some request })
     s.pwr.hold = true ∧ s.latched = false ∧ s.grnState ≠ Grn.dumping ∧ (s.pwr.failed && !s.pwr.main) = false ∧
     s.pwr.request = some request) ∧
    (let s := pw live (fun p => { p with deferred := some request })
     s.pwr.hold = true ∧ s.latched = false ∧ s.grnState ≠ Grn.dumping ∧ (s.pwr.failed && !s.pwr.main) = false ∧
     s.pwr.deferred = some request) ∧
    (let s := pw (live.set F.GRN_STATE_STATE Grn.dumping) (fun p => { p with request := some request })
     s.pwr.request = some request ∧ s.pwr.hold = true ∧ s.latched = false ∧ s.grnState = Grn.dumping) ∧
    (let s := pw live (fun p => { p with held := true })
     s.pwr.hold = true ∧ s.pwr.held = true) ∧
    (let s := pw live (fun p => { p with chipReset := true })
     s.pwr.chipReset = true ∧ s.pwr.held = false ∧ s.flag F.RDY_STATUS_VAULT = true ∧ s.pwr.failed = false ∧
     s.grn.dump = none ∧ s.grnServes = true) := by
  decide +kernel

theorem witness_PowerLossLosesState : on.pwr.hold = true ∧ on.pwr.aux = true := by decide +kernel

/-- Before the calendar is rebuilt; after it, with a telemetry entry to commit and with none. -/
theorem witness_FirmwareRebuildsTheCalendar :
    (live.mainUp = true ∧ live.flag F.RDY_STATUS_FW = true ∧ live.get F.FT_STATUS_STATE = Ft.running ∧
      live.flag F.RDY_STATUS_CAL = false) ∧
    (let s := live.setAll [(F.RDY_STATUS_CAL, 1), (F.RDY_STATUS_MGMT, 1)]
     s.answering = true ∧ s.mainUp = true ∧ s.flag F.RDY_STATUS_CAL = true ∧ s.mgt.committed = []) := by
  decide +kernel

/-! ### Mailboxes -/

/-- BUSY; a GO with SEQ 5, where 0 is expected, and with SEQ 0, of a command that passes every check, of one too long and of an opcode
of no command; an ACTIVE pair of 16 entries: tail 5 within LIMIT 5 and 6 beyond it; ingress closed. -/
theorem witness_DoorbellsFollowTheirRules :
    (let s := live.set F.ADM_STATUS_BUSY 1
     s.groupUp .fn = true ∧ s.linkClosed = false ∧ s.flag F.ADM_STATUS_BUSY = true) ∧
    (on.groupUp .fn = true ∧ on.flag F.ADM_STATUS_READY = false) ∧
    (let s := live.set F.ADM_CMD_CMD (2 ^ 16 * 5)
     s.groupUp .fn = true ∧ s.flag F.ADM_STATUS_BUSY = false ∧ s.flag F.ADM_STATUS_READY = true ∧
     cmdSeq (BitVec.ofNat 512 (s.get F.ADM_CMD_CMD)) ≠ s.mbx.admSeq) ∧
    (cmdSeq (line Op.identify 0 0 4096 4096 []) = live.mbx.admSeq ∧
     live.checkCmd .admin (line Op.identify 0 0 4096 4096 []) = .passed ∧
     live.checkCmd .admin (line Op.identify 0 0 4096 0 []) = .failed CC.lengthMismatch (some 2048)) ∧
    (closed live).linkClosed = true ∧
    (let s := ((pairUp live).setPair 3 { Pair.blank with sqLog := 4, cqLog := 4 }).setN F.MBX_PTRS_LIMIT 3 5
     s.groupUp .fn = true ∧ s.getN F.MBX_STATE_STATE 3 = Mbx.active ∧ s.tailBeyond 3 5 = false ∧ s.tailBeyond 3 6 = true ∧
     s.tailBeyond 3 16 = true ∧ s.getN F.MBX_STATE_STATE 3 ≠ Mbx.disabled ∧ s.getN F.MBX_STATE_STATE 63 ≠ Mbx.active ∧
     s.getN F.MBX_STATE_STATE 63 = Mbx.disabled) := by
  decide +kernel

/-- A command offered by the pair whose turn it is, fetched, waiting for a translation, and from a ring out of reach; one that passes
every check with the SEQ expected, and one that passes with another; a held pair, its opcode one that the quota holds; an opcode that
is not defined; a spill record that is lost. -/
theorem witness_AcceptanceAndItsFailures :
    (let s := ((pairUp live).setN F.MBX_PTRS_TAIL 3 1)
     let c := line Op.identify 0 0 4096 4096 []
     let offers := fun (s : State) => s.groupUp .fn && s.flag F.RDY_STATUS_FW && !s.acceptStopped && !s.linkClosed && s.pairOffers 3 &&
       s.pairTurn 3
     offers s = true ∧ offers (atsUp s) = true ∧ parks ((atsUp s).sqFetch 3) = true ∧
     offers (s.setPair 3 { s.pair 3 with sqBase := 2 ^ 46 }) = true ∧
     stops ((s.setPair 3 { s.pair 3 with sqBase := 2 ^ 46 }).sqFetch 3) = true ∧
     reaches (s.sqFetch 3) (fun u _ => !u.settleQuota.quotaHolds c && !u.settleQuota.governorHolds c &&
       decide (u.settleQuota.checkCmd P3 c = .passed)) = true ∧
     cmdSeq c = s.getN F.MBX_STATE_EXP_SEQ 3 ∧ cmdSeq (line Op.identify 0 5 4096 4096 []) ≠ s.getN F.MBX_STATE_EXP_SEQ 3 ∧
     reaches (s.sqFetch 3) (fun u _ => u.settleQuota.governorHolds (line Op.ingest 0 0 64 4096 [0, 1])) = true) ∧
    (let a := acc P3 (line 0x77 0 0 0 0 [])
     (withCmd (pairUp live) a).mbx.accepted.find? (fun a => a.mb == P3 && !knownOpcodes.contains (cmdOpcode a.cmd)) =
       some a) ∧
    (let a := { acc .admin (line Op.identify 0 0 4096 4096 []) with record := some 0 }
     (withCmd live a).nextCmd .admin (isOp Op.identify) = some a ∧ (withCmd live a).checkRecord 0 ≠ 0 ∧ live.pwr.hold = true) := by
  decide +kernel

/-- A completion held for a ring with room, whose address is reached, and waits for a translation; a vector that has waited. -/
theorem witness_CompletionsThatWait :
    (let s := (pairUp live).setPair 3 { Pair.blank with held := [⟨1, 2, 3, false⟩], cqLog := 4 }
     (s.pair 3).held = [⟨1, 2, 3, false⟩] ∧ s.cqFull 3 = false ∧ s.linkClosed = false ∧ (s.pair 63).held = [] ∧
     reaches (s.hostReach (s.getN F.MBX_STATE_CTX 3) (s.cqAddr 3) 16 true) (fun _ _ => true) = true ∧ (atsUp s).linkClosed = false ∧
     ((atsUp s).pair 3).held = [⟨1, 2, 3, false⟩] ∧ (atsUp s).cqFull 3 = false ∧
     parks ((atsUp s).hostReach ((atsUp s).getN F.MBX_STATE_CTX 3) ((atsUp s).cqAddr 3) 16 true) = true) ∧
    (let s := { (live.setPair 63 { Pair.blank with firstAt := some 0, coalTime := 1, unsignalled := 1 }) with
        now := 1000, link := { live.link with msix := [(71, ⟨0, 0, false⟩)] } }
     (s.pair 63).firstAt = some 0 ∧ 0 + 1000 * (s.pair 63).coalTime ≤ s.now ∧ s.groupUp .ln = true ∧
     (s.msixEntry 71).masked = false) := by
  decide +kernel

theorem witness_IdentityAndFirmwareUpdate :
    (let a := acc .admin (line Op.identify 0 0 4096 0 [])
     (withCmd live a).begins .admin (isOp Op.identify) a ∧ a.inline = true) ∧
    (let a := acc P3 (line Op.identify 0 3 4096 8192 [])
     let s := withCmd (pairUp live) a
     s.begins P3 (isOp Op.identify) a ∧ a.inline = false ∧ inDevice (cmdAddr a.cmd) = false ∧
     reaches (s.reach (placeOf 1 (s.mailboxCtx P3) 8192) 4096 true) (fun _ _ => true) = true) ∧
    (let a := acc P3 (line Op.fwDownload 0 0 2 8192 [4096])
     let s := withCmd (pairUp live) a
     s.begins P3 (isOp Op.fwDownload) a ∧ a.inline = false ∧
     gives (s.mailRead a 8192 2 (.bytes [7#8, 8#8])) (fun _ b => b == [7#8, 8#8]) = true) ∧
    (let a := acc .admin (line Op.fwCommit 0 0 0 0 [])
     (withCmd live a).begins .admin (isOp Op.fwCommit) a) := by
  decide +kernel

theorem witness_DeviceResetIsAskedFor :
    (let a := acc .admin (line Op.deviceReset 0 0 0 0 [1])
     let s := withCmd live a
     s.begins .admin (fun c => isOp Op.deviceReset c && bitOf (cmdArg c 0) 0 == true) a ∧ s.latched = false ∧
     s.mbx.accepted.all (fun b => b.mb == .admin) = true ∧ a.mb = .admin ∧ s.pwr.request = none ∧ s.pwr.deferred = none) ∧
    (let a := acc .admin (line Op.deviceReset 0 0 0 0 [0])
     let s := withCmd (live.set F.FLT_PERSIST_LATCHED 1) a
     s.begins .admin (fun c => isOp Op.deviceReset c && bitOf (cmdArg c 0) 0 == false) a ∧ s.latched = true) := by
  decide +kernel

/-- A command's data can be read twice from the same address, `n` bytes and then `k`, and is ready in between. -/
def readsTwice (s : State) (a : Accepted) (addr n k : Nat) : Bool :=
  let p := placeOf 1 (s.mailboxCtx a.mb) addr
  reaches (s.reach p n false) fun u frames =>
    let v := (u.readPieces addr n frames).foldl (fun v q => v.emit (.hostRead (v.via p.ctx) q.1 q.2)) u
    !v.notReady a.cmd && reaches (v.reach (placeOf 1 (v.mailboxCtx a.mb) addr) k false) fun _ _ => true

theorem readsTwice_reads {s : State} {a : Accepted} {addr n k : Nat} (b : List Byte) (hn : n ≠ 0) (hk : k ≠ 0)
    (hd : inDevice addr = false) (h : readsTwice s a addr n k = true) :
    ∃ v w, s.mailRead a addr n (.bytes b) = .bytes v (fitBytes n b) ∧ v.notReady a.cmd = false ∧
      v.mailRead a addr k (.bytes b) = .bytes w (fitBytes k b) := by
  simp only [readsTwice, reaches] at h
  split at h
  next u frames e =>
    simp only [Bool.and_eq_true, Bool.not_eq_true'] at h
    obtain ⟨h1, h2⟩ := h
    split at h2
    next y fr e2 => exact ⟨_, _, State.mailRead_host b hn hd e, h1, State.mailRead_host b hk hd e2⟩
    next => exact absurd h2 (by simp)
  next => exact absurd h (by simp)

/-- A vault whose copy 0 holds one record. -/
def vaultOf (s : State) (r : List Byte) : State :=
  { s with flash := { s.flash with pages := [(0, { data := r ++ List.replicate 12288 0#8, tags := List.replicate 4 0 })], np := [(0, 1)] } }

theorem vaultOf_newest (s : State) (r : List Byte) (hb : s.flash.blocks = []) (h : r.length = 4096)
    (hv : recordValid r = true) : (vaultOf s r).optionNewest 0 0 = some r := by
  have e : (vaultOf s r).optionPages (optionDie 0) = [(r ++ List.replicate 12288 0#8).take 4096] := by
    simp [-List.reduceReplicate, vaultOf, State.optionPages, State.optionSkipped, State.optionCurrent, State.optionFill, State.optionPage, hb, optionDie,
      Store.getD, Store.get?, List.range_succ]
  rw [State.optionNewest, e, List.take_append, h, Nat.sub_self, List.take_zero, List.append_nil,
    List.take_of_length_le (by omega)]
  simp [hv]

/-- A record that copy 0 holds; a record without faults, and one of 8 bytes with many, the first at offset 0. -/
theorem witness_OptionAreaCommands :
    (let a := acc .admin (line Op.optionRead 0 0 4096 0 [0])
     let s := vaultOf (withCmd live a) (withDigest emptyRecord)
     s.begins .admin (isOp Op.optionRead) a ∧ s.optionNewest (cmdArg a.cmd 0) 0 = some (withDigest emptyRecord)) ∧
    (let a := acc P3 (line Op.optionWrite 0 0 4096 8192 [])
     let b := withDigest emptyRecord
     let s := withCmd (pairUp live) a
     s.begins P3 (isOp Op.optionWrite) a ∧ ∃ v w, s.brings a 64 (.bytes b) v (fitBytes 64 b) ∧
       leField (fitBytes 64 b) 6 2 = cmdLen a.cmd ∧ v.notReady a.cmd = false ∧ v.brings a (cmdLen a.cmd) (.bytes b) w b ∧
       optionFaults b = []) ∧
    (let a := acc P3 (line Op.optionWrite 0 0 8 8192 [])
     let b := leBytes 8 (8 * 2 ^ 48)
     let s := withCmd (pairUp live) a
     s.begins P3 (isOp Op.optionWrite) a ∧ a.inline = false ∧ gives (s.mailRead a 8192 64 (.bytes b)) (fun v h =>
       leField h 6 2 == 8 && !v.notReady a.cmd && gives (v.mailRead a 8192 8 (.bytes b)) (fun _ b =>
         (optionFaults b).head? == some 0)) = true) ∧
    (let a := acc P3 (line Op.optionWrite 0 0 8 8192 [])
     let s := withCmd (pairUp live) a
     gives (s.mailRead a 8192 64 (.bytes [])) (fun _ h => leField h 6 2 != 8) = true) := by
  have hl := emptyRecord_length
  have hh := emptyRecord_head
  have hd : (withDigest emptyRecord).length = 4096 := (withDigest_length _ (by omega)).trans hl
  have hc : cmdLen (acc P3 (line Op.optionWrite 0 0 4096 8192 [])).cmd = 4096 := by decide +kernel
  have ha : cmdAddr (acc P3 (line Op.optionWrite 0 0 4096 8192 [])).cmd = 8192 := by decide +kernel
  have hi : (acc P3 (line Op.optionWrite 0 0 4096 8192 [])).inline = false := by decide +kernel
  have hn : cmdArg (acc .admin (line Op.optionRead 0 0 4096 0 [0])).cmd 0 = 0 := by decide +kernel
  have cut : leField (fitBytes 64 (withDigest emptyRecord)) 6 2 = 4096 := by
    have e : fitBytes 64 (withDigest emptyRecord) = (withDigest emptyRecord).take 64 := by
      rw [fitBytes, hd]
      simp
    rw [e, leField, sliceBytes, List.drop_take, List.take_take, show min 2 (64 - 6) = 2 from rfl, ← sliceBytes,
      withDigest_low _ (by omega) 6 2 (by omega)]
    exact hh.2.2.2
  have all : fitBytes 4096 (withDigest emptyRecord) = withDigest emptyRecord := by
    rw [fitBytes, hd]
    simp [List.take_of_length_le (Nat.le_of_eq hd)]
  have go : ∀ (s : State) (a : Accepted), a.inline = false → cmdAddr a.cmd = 8192 → cmdLen a.cmd = 4096 →
      readsTwice s a 8192 64 4096 = true → ∃ v w, s.brings a 64 (.bytes (withDigest emptyRecord)) v
        (fitBytes 64 (withDigest emptyRecord)) ∧ v.notReady a.cmd = false ∧
        v.brings a 4096 (.bytes (withDigest emptyRecord)) w (withDigest emptyRecord) := fun s a hi ha hc h => by
    obtain ⟨v, w, h1, h2, h3⟩ := readsTwice_reads (withDigest emptyRecord) (by omega) (by omega) rfl h
    exact ⟨v, w, .inr ⟨hi, ha ▸ h1⟩, h2, .inr ⟨hi, by rw [ha, h3, all]⟩⟩
  refine ⟨⟨by decide +kernel, ?_⟩, ⟨by decide +kernel, ?_⟩, by decide +kernel, by decide +kernel⟩
  · rw [hn]
    exact vaultOf_newest _ _ rfl hd (recordValid_withDigest _ hl hh.1 hh.2.1 hh.2.2.2)
  · obtain ⟨v, w, h1, h2, h3⟩ := go (withCmd (pairUp live) (acc P3 (line Op.optionWrite 0 0 4096 8192 []))) _ hi ha hc
      (by decide +kernel)
    exact ⟨v, w, h1, cut.trans hc.symm, h2, hc.symm ▸ h3, emptyRecord_faults⟩

/-- Context 2 enabled; pair 3 to be made of 16 entries, DISABLED and existing, and with 5 windows of 4095 already there;
DELETE_PAIR of a pair with commands in flight and with none, of one that drains, and of none. -/
theorem witness_PairsAreMadeAndDrained :
    let c := acc .admin (line Op.createPair 0 0 0 0 [0x1000, 0x2000, 3 + 4 * 2 ^ 8 + 4 * 2 ^ 12 + 15 * 2 ^ 16 + 2 ^ 28 + 2 * 2 ^ 32])
    let d := acc .admin (line Op.deletePair 0 0 0 0 [3])
    let s := withCmd (live.setN F.CTX_CFG_EN 2 1) c
    let full := (List.range 4).foldl (fun s n => s.setN F.MBX_STATE_WINDOW (10 + n) 4095) s
    (s.begins .admin (isOp Op.createPair) c ∧ s.ctxEnabled (pairArgs c.cmd).ctx = true ∧
      s.getN F.MBX_STATE_STATE (pairArgs c.cmd).number = Mbx.disabled ∧ s.windowSum + (pairArgs c.cmd).window ≤ 16384) ∧
    (pairUp s).getN F.MBX_STATE_STATE (pairArgs c.cmd).number ≠ Mbx.disabled ∧
    (full.getN F.MBX_STATE_STATE (pairArgs c.cmd).number = Mbx.disabled ∧
      16384 < full.windowSum + (pairArgs c.cmd).window) ∧
    ((withCmd (pairUp live) d).begins .admin (isOp Op.deletePair) d ∧ cmdArg d.cmd 0 % 64 = 3 ∧
      (withCmd (pairUp live) d).getN F.MBX_STATE_STATE 3 = Mbx.active ∧
      (withCmd (pairUp live) d).getN F.MBX_STATE_INFLIGHT 3 ≠ 0) ∧
    (let idle := (withCmd (pairUp live) d).setN F.MBX_STATE_INFLIGHT 3 0
     idle.begins .admin (isOp Op.deletePair) d ∧ idle.getN F.MBX_STATE_STATE 3 = Mbx.active ∧
      idle.getN F.MBX_STATE_INFLIGHT 3 = 0 ∧ d.mb = .admin ∧
      idle.mbx.accepted.any (fun b => b.begun && isOp Op.deletePair b.cmd) = false) ∧
    (let draining := (withCmd (pairUp live) d).setN F.MBX_STATE_STATE 3 Mbx.draining
     draining.begins .admin (isOp Op.deletePair) d ∧ draining.getN F.MBX_STATE_STATE 3 = Mbx.draining) ∧
    ((withCmd live d).begins .admin (isOp Op.deletePair) d ∧
      (withCmd live d).getN F.MBX_STATE_STATE 3 = Mbx.disabled) := by
  decide +kernel

/-- With entries of the calendar taken. -/
def calendarOf (l : List Nat) (s : State) : State :=
  { s with cal := { s.cal with entries := l.map (fun i => (i, telEntry)) } }

theorem has_taken (i : Nat) (l : List Nat) (h : i ∈ l) : Store.has (l.map (fun k => (k, telEntry))) i = true := by
  induction l with
  | nil => simp at h
  | cons k l ih =>
    by_cases e : k = i
    · simp [Store.has, Store.get?, e]
    · simpa [Store.has, Store.get?, e] using ih ((List.mem_cons.1 h).resolve_left (fun g => e g.symm))

theorem calendarOf_place (l : List Nat) (s : State) (t : Nat) (h : ∀ i < 992, i ∈ l)
    (hp : (calendarOf l s).pacingEntry t = none) :
    ((calendarOf l s).pacingEntry t).orElse (fun _ => (calendarOf l s).freeEntries.head?) = none := by
  have e : (calendarOf l s).freeEntries = [] := by
    rw [State.freeEntries, List.filter_eq_nil_iff]
    intro i hi
    have := has_taken i l (h i (List.mem_range.1 hi))
    simp [calendarOf, this]
  rw [hp, e]
  rfl

/-- With no place left. -/
theorem witness_PacingFindsNoPlace :
    let a := acc .admin (line Op.setPacing 0 0 0 0 [3, 500, 77, 9])
    let s := calendarOf (List.range 992) (withCmd live a)
    s.begins .admin (isOp Op.setPacing) a ∧ (s.pacingEntry 3).orElse (fun _ => s.freeEntries.head?) = none :=
  ⟨by decide +kernel, calendarOf_place _ _ _ (fun _ h => List.mem_range.2 h) (by decide +kernel)⟩

/-- A setting at the first free entry, and at the entry the target has; a period of 0; FT_LOAD of no whole second
and of one. -/
theorem witness_PacingSettingsAreStored :
    let a := acc .admin (line Op.setPacing 0 0 0 0 [3, 500, 77, 9])
    let z := acc .admin (line Op.setPacing 0 0 0 0 [3, 0, 77, 9])
    let f := acc .admin (line Op.ftLoad 0 0 0 0 [12345])
    let s := withCmd live a
    let p := { s with cal := { s.cal with entries := [(4, { telEntry with target := 3 })] } }
    (s.begins .admin (isOp Op.setPacing) a ∧ cmdArg a.cmd 1 ≠ 0 ∧
      (s.pacingEntry 3).orElse (fun _ => s.freeEntries.head?) = some 0 ∧ s.ringBad a = false) ∧
    (p.begins .admin (isOp Op.setPacing) a ∧
      (p.pacingEntry 3).orElse (fun _ => p.freeEntries.head?) = some 4) ∧
    ((withCmd p z).begins .admin (isOp Op.setPacing) z ∧ cmdArg z.cmd 1 = 0 ∧ (withCmd p z).pacingEntry 3 = some 4) ∧
    ((withCmd live f).begins .admin (isOp Op.ftLoad) f ∧ (withCmd live f).ft.pending = none ∧ (withCmd live f).ftCommand = none ∧
      cmdArg f.cmd 0 % second ≠ 0) ∧
    (let g := acc .admin (line Op.ftLoad 0 0 0 0 [5 * second])
     (withCmd live g).begins .admin (isOp Op.ftLoad) g ∧ cmdArg g.cmd 0 % second = 0) := by
  decide +kernel

/-- A window of 256 MiB, restored, with a budget of one page, and an INGEST of two lines at page 1 that has accepted `k`. -/
def ingesting (k : Nat) (budget : Nat) : State :=
  let s := withCmd (pairUp live) { acc P3 (line Op.ingest 0 3 128 0x4000 [4096, 2]) with progress := k }
  { s with grn := { s.grn with budget := budget, config := { s.grn.config with windowLen := 2 ^ 28 } } }

/-- HELD; all lines accepted; the last line with a reservation granted before, granted at once, and with none to be had; a line whose
page can not be accessed; a transfer that stops; a line that an earlier INGEST of the pair has still to write. -/
theorem witness_IngestAcceptsLines :
    let a := { acc P3 (line Op.ingest 0 3 128 0x4000 [4096, 2]) with progress := 1 }
    let b : Accepted := { a with begun := true }
    let x : Transfer := .bytes (List.replicate 64 7#8)
    let begins := fun (s : State) => (s.ingestCmd P3 3).any (fun q => q.record.isNone && s.canStage && decide (q.progress ≤ 2))
    let free := fun (s : State) => s.grnState != Grn.heldState && s.grnState != Grn.failed
    let reads := fun (s : State) (f : State → Bool) => decide (s.ingestCmd P3 3 = some a) && s.canStage && free s &&
      gives (s.mailRead b (0x4000 + 64) (ingestPart a x) x) (fun v d => decide (d.length = 64) && f v)
    let lands := fun (f : State → Bool) (v : State) => !v.lineAhead b 65 &&
      reaches (v.reach (placeOf 0 0 (4096 + 64)) 64 true) (fun u _ => f u)
    let granted := fun (s : State) => { s with grn := { s.grn with granted := [a.waiter] } }
    let other := { acc P3 (line Op.ingest 0 2 64 0x4000 [4096 + 64, 1]) with id := 4, begun := true }
    let two := fun (s : State) => { s with mbx := { s.mbx with accepted := [other, a] } }
    x.wholeLines = true ∧ ingestLines a = a.progress + 1 ∧ (cmdArg a.cmd 0 + 64 * a.progress) % 64 = 0 ∧
    begins (ingesting 2 4096) = true ∧ free (ingesting 2 4096) = true ∧
    begins ((ingesting 1 4096).set F.GRN_STATE_STATE Grn.heldState) = true ∧
    reads (granted (ingesting 1 0)) (lands (fun u => u.grn.granted.contains a.waiter && !u.grn.closed)) = true ∧
    reads (ingesting 1 4096) (lands (fun u => !u.grn.granted.contains a.waiter && u.canReserve && u.grn.waiters.isEmpty)) = true ∧
    reads (ingesting 1 0) (lands (fun u => !u.grn.granted.contains a.waiter && !u.canReserve)) = true ∧
    reads (two (ingesting 1 4096)) (fun v => v.lineAhead b 65) = true ∧
    reads { ingesting 1 4096 with grn := { (ingesting 1 4096).grn with unrestored := [(0, 65536)] } } (fun v =>
      !v.lineAhead b 65 && parks (v.reach (placeOf 0 0 (4096 + 64)) 64 true)) = true ∧
    (match (ingesting 1 4096).mailRead b (0x4000 + 64) (ingestPart a (.stopped 0x0408 1)) (.stopped 0x0408 1) with
      | .ended _ => true
      | _ => false) = true := by
  decide +kernel

/-! ### Faults -/

/-- A source whose mask may be written; all of them locked; a source that does not exist, and HOLD down. -/
theorem witness_FaultMasksAreWritten :
    let a := acc .admin (line Op.faultConfig 0 0 0 0 [22, 3])
    let s := withCmd live a
    let l := withCmd (live.set F.FLT_CTL_LOCK 1) a
    (s.begins .admin (isOp Op.faultConfig) a ∧ s.maskLocked 22 = false) ∧
    (l.begins .admin (isOp Op.faultConfig) a ∧ l.maskLocked 22 = true) ∧
    (live.pwr.hold = true ∧ (sourceInfo 22).isSome = true ∧ maskInvalid 22 3 = false ∧ live.maskLocked 22 = false) ∧
    ((sourceInfo 255).isSome = false ∧ State.reset.pwr.hold = false) := by
  decide +kernel

theorem witness_CheckersAreArmed :
    let a := acc .admin (line Op.faultInject 0 0 0 0 [16, 0])
    let s := withCmd live a
    let l := withCmd (live.set F.FLT_PERSIST_LATCHED 1) a
    (s.begins .admin (isOp Op.faultInject) a ∧ s.latched = false ∧ s.ringBad a = false) ∧
    (l.begins .admin (isOp Op.faultInject) a ∧ l.latched = true) ∧
    (live.pwr.hold = true ∧ live.flag F.FLT_CTL_INJ_DIS = false ∧ 0 < sourceCheckers 16) ∧
    ((live.set F.FLT_CTL_INJ_DIS 1).flag F.FLT_CTL_INJ_DIS = true ∧ sourceCheckers 16 ≤ 255) := by
  decide +kernel

/-- The history queue at its last entry. -/
theorem witness_StickyAndFirstCaptureAreCleared :
    let s := { live.set F.FLT_HIST_PTRS_WR 63 with hub := { live.hub with intake := [record] } }
    s.pwr.hold = true ∧ s.hub.intake = [record] ∧ s.get F.FLT_HIST_PTRS_WR < 64 ∧ live.hub.intake = [] := by
  decide +kernel

theorem witness_AnEventIsCaptured : live.pwr.hold = true ∧ live.linkUp = true := by decide +kernel

/-- A core that runs; one trapped for 250 us; one in block reset, with the command it had begun; the management core. -/
theorem witness_CoresAreTrappedAndReset :
    let hub := fun (s : State) (f : Hub → Hub) => { s with hub := f s.hub }
    let trapped := { hub live (fun h => { h with core1 := .trapped 5 }) with now := 250005 }
    let reset := withCmd (hub (pairUp live) (fun h => { h with core2 := .blockReset 5 }))
      { acc P3 (line Op.identify 0 0 0 0 []) with begun := true }
    (live.mainUp = true ∧ live.core 2 = .running) ∧
    (trapped.mainUp = true ∧ trapped.core 1 = .trapped 5 ∧ 5 + 250000 ≤ trapped.now ∧ trapped.hub.lastCoreReset = none) ∧
    (reset.core 2 = .blockReset 5 ∧
      reset.mbx.accepted.find? (fun a => a.id == 5 && a.begun) =
        some { acc P3 (line Op.identify 0 0 0 0 []) with begun := true }) ∧
    (live.pwr.aux = true ∧ live.pwr.hold = true ∧ live.hub.mgmtReset = false ∧ bitOf (live.maskOf 3) 3 = true) ∧
    live.mgt.queue = [] := by
  decide +kernel

/-! ### The link and CXL -/

/-- The link in CXL mode, the window of 256 MiB at HPA 0, and room in the budget. -/
def cxl : State :=
  let s := live.setAll [(F.HL_STATUS_WIDTH, 5), (F.HL_STATUS_SPEED, 5), (F.HL_STATUS_MODE, 2), (F.HL_CTL_CXL_EN, 1)]
  { s with
    link := { s.link with hdm0 := ⟨true, false, 0, 2 ^ 28, 1, 256⟩ }
    grn := { s.grn with config := { s.grn.config with windowLen := 2 ^ 28 }, budget := 2 ^ 30 } }

/-- The link block up, at width and speed 0 and 7; PERST_N low; the block down; the link up. -/
theorem witness_TheLinkTrainsAndDrops :
    (on.groupUp .ln = true ∧ on.pwr.perst = false ∧ (7#3 : BitVec 3) ≠ 0) ∧
    (pw on (fun p => { p with perst := true })).pwr.perst = true ∧ State.reset.groupUp .ln = false ∧
    (live.linkUp = true ∧ live.pwr.perst = false) := by
  decide +kernel

/-- Vector 4 masked; a settled state with vector 255 pending, and vectors that are not. -/
theorem witness_MaskedVectorsPend :
    (live.groupUp .ln = true ∧ ¬ (5 ≤ 4 ∧ 4 ≤ 7) ∧ (live.msixEntry 4).masked = true) ∧
    (let s := State.settle live { live with link := { live.link with pba := [255] } }
     s.groupUp .ln = true ∧ 255 ∈ s.link.pba ∧ 8 ∉ s.link.pba ∧ s.get F.RDY_STATUS_LINK = 1 ∧ s.get F.CAL_FREE_FREE = 1024) := by
  decide +kernel

/-- Decoder 1 committed at 2^28, with its set of 256 MiB in device DRAM at DPA 2^30. -/
def volatile : State :=
  { ((cxl.setN F.IVS_CFG_VALID 2 1).setN F.IVS_CFG_VOL 2 1).setN F.IVS_BASE_GIB 2 1 with
    link := { cxl.link with hdm1 := ⟨true, false, 2 ^ 28, 2 ^ 28, 1, 256⟩ } }

/-- A write with a reservation at once, and one that waits, and one that waits behind another; a read of line 1, which is
landing, of a page that is not restored, which can be fetched or cannot, and of a line in DRAM; decoder 1's first line, its
last, and an address past it. -/
theorem witness_CxlMemoryTraffic :
    (cxl.cxlUp = true ∧ cxl.linkClosed = false ∧ cxl.link.hdm0.maps (2 ^ 28 - 1) = true ∧ cxl.canReserve = true ∧
      cxl.grn.waiters = []) ∧
    (let s := { cxl with grn := { cxl.grn with budget := 0 } }
     s.cxlUp = true ∧ s.linkClosed = false ∧ s.link.hdm0.maps 0 = true ∧ s.canReserve = false) ∧
    (let s := { cxl with grn := { cxl.grn with landing := [⟨1, 7, true⟩] } }
     s.cxlUp = true ∧ s.linkClosed = false ∧ s.link.hdm0.maps 64 = true ∧ s.landed (s.link.hdm0.offset 64 / 64) = some ⟨1, 7, true⟩) ∧
    (let s := { cxl with grn := { cxl.grn with unrestored := [(0, 3)] } }
     s.cxlUp = true ∧ s.linkClosed = false ∧ s.link.hdm0.maps 64 = true ∧ s.landed (s.link.hdm0.offset 64 / 64) = none ∧
     s.grn.unrestored.mem (s.link.hdm0.offset 64 / 64 * 64 / 4096) = true ∧ s.canFetch = true ∧
     (let h := s.set F.GRN_STATE_STATE 6
      h.cxlUp = true ∧ h.linkClosed = false ∧ h.landed 1 = none ∧ h.grn.unrestored.mem 0 = true ∧ h.canFetch = false)) ∧
    (cxl.landed 1 = none ∧ cxl.grn.unrestored.mem 0 = false) ∧
    (let s := { cxl with grn := { cxl.grn with waiters := [.cxl] } }
     s.cxlUp = true ∧ s.linkClosed = false ∧ s.link.hdm0.maps 0 = true ∧ s.canReserve = true ∧ s.grn.waiters ≠ []) ∧
    (volatile.cxlUp = true ∧ volatile.linkClosed = false ∧ volatile.volatileBase = some (2 ^ 30) ∧
      (∀ a ∈ [2 ^ 28, 2 ^ 29 - 1], volatile.link.hdm0.maps a = false ∧ volatile.link.hdm1.maps a = true) ∧
      volatile.link.hdm0.maps (2 ^ 29) = false ∧ volatile.link.hdm1.maps (2 ^ 29) = false) := by
  decide +kernel

theorem witness_DecodersCommitOrFail :
    (cxl.cxlUp = true ∧ cxl.linkClosed = false) ∧ live.cxlUp = false ∧ (closed cxl).linkClosed = true := by
  decide +kernel

/-- The mailbox answering, with the operands at their bounds; a scan kept and none; and not answering. -/
theorem witness_CxlMailboxAnswersReads :
    let id := BitVec.ofNat 128 celUuid
    (cxl.cxlAnswers = true ∧ (3#8 : BitVec 8).toNat ≤ 3 ∧ 3 < (4#8 : BitVec 8).toNat ∧ id.toNat = celUuid ∧
      (90#32 : Word).toNat + (6#32 : Word).toNat ≤ 96 ∧ 96 < (91#32 : Word).toNat + (6#32 : Word).toNat ∧
      (131071#32 : Word).toNat + (1#32 : Word).toNat ≤ 131072 ∧ 131072 < (131072#32 : Word).toNat + (1#32 : Word).toNat ∧
      cxl.windowOffset (2 ^ 28 - 64) = some (2 ^ 28 - 64) ∧ cxl.windowOffset (2 ^ 28) = none ∧ cxl.link.scan = none ∧
      0x4306 ∉ cxlOpcodes) ∧
    ({ cxl with link := { cxl.link with scan := some ⟨0, 1, true, [3]⟩ } } : State).link.scan = some ⟨0, 1, true, [3]⟩ ∧
    cxl.linkClosed = false ∧
    (let s := cxl.set F.RDY_STATUS_FW 0
     s.cxlAnswers = false ∧ s.cxlUp = true ∧ s.linkClosed = false) ∧
    (live.cxlAnswers = false ∧ live.cxlUp = false) ∧
    ((closed (cxl.set F.RDY_STATUS_FW 0)).cxlAnswers = false ∧ (closed (cxl.set F.RDY_STATUS_FW 0)).linkClosed = true) := by
  decide +kernel

/-- An event record to clear by its handle 2 and a handle 9 that none has; bytes at the end of the label area. -/
theorem witness_CxlMailboxKeepsWhatIsSet :
    let s := { cxl with link := { cxl.link with events := [⟨3, 2, 2, 3, 4⟩] } }
    s.cxlAnswers = true ∧ s.linkClosed = false ∧ (3#8 : BitVec 8).toNat ≤ 3 ∧ 3 < (4#8 : BitVec 8).toNat ∧
    (∃ e ∈ s.link.events, e.log = 3 ∧ e.handle = (2#16 : BitVec 16).toNat) ∧
    (∀ e ∈ s.link.events, e.log = 3 → e.handle ≠ 9) ∧
    ([1#8, 2#8] : List Byte).length = 2 ∧ 131070 + 2 ≤ 131072 ∧ 131072 < 131071 + 2 ∧
    s.windowOffset 64 = some 64 ∧ s.canReserve = true ∧ s.grn.waiters = [] ∧ s.windowOffset (2 ^ 28) = none ∧
    (let b := { s with grn := { s.grn with budget := 0 } }
     b.cxlAnswers = true ∧ b.linkClosed = false ∧ b.windowOffset 64 = some 64 ∧ b.canReserve = false) := by
  decide +kernel

/-! ### Field time and the calendar -/

/-- With other field time. -/
def ft (s : State) (f : TimeBlock → TimeBlock) : State := { s with ft := f s.ft }

/-- Field time running at 7 s and 300 ns, the reference qualified, at device time 5 s. -/
def timed : State :=
  let s := live.setAll [(F.FT_STATUS_REF_OK, 1), (F.FT_STATUS_PPS_LOCK, 1)]
  { ft s (fun f => { f with windows := true, count := 7000000300, good := 99, edgeAt := 4999999000, windowAt := 4999000000 }) with
    now := 5000000000 }

/-- An FT_LOAD in progress with its load, armed 2 s ago. -/
def ftLoading : State :=
  ft (withCmd timed { acc .admin (line Op.ftLoad 0 0 0 0 [8000000000]) with begun := true })
    (fun f => { f with pending := some ⟨8000000000, 3000000000, true⟩ })

/-- Running, before and after a window's end, and stopped; the hundredth good window, one edge short; a window two edges
short, after a good one and after a bad one; 1 us without an edge; another REF_SEL. -/
theorem witness_TheReferenceCountsAndQualifies :
    let edges := fun (n b : Nat) => ft timed (fun f => { f with windowEdges := n, bad := b })
    (timed.mainUp = true ∧ timed.ft.windows = true ∧ timed.get F.FT_STATUS_STATE = Ft.running) ∧
    (ft timed (fun f => { f with windowAt := 4999000001 })).now < 4999000001 + 1000000 ∧
    (on.mainUp = true ∧ on.get F.FT_STATUS_STATE ≠ Ft.running) ∧
    (timed.ft.windowAt + 1000000 ≤ timed.now ∧ (edges 9999 0).inTolerance 0 = true ∧ (edges 10001 0).inTolerance 0 = true ∧
      (edges 9998 0).inTolerance 999 = false ∧ (edges 9999 0).inTolerance (-1) = false ∧ (edges 10001 0).inTolerance (-999) = true ∧
      99 ≤ (edges 9999 0).ft.good ∧ ((edges 9999 0).set F.FT_STATUS_REF_OK 0).flag F.FT_STATUS_REF_OK = false) ∧
    ((edges 9998 0).inTolerance 0 = false ∧ (edges 9998 0).ft.bad = 0 ∧ (edges 10002 0).inTolerance 0 = false) ∧
    ((edges 9998 1).mainUp = true ∧ (edges 9998 1).flag F.FT_STATUS_REF_OK = true ∧ (edges 9998 1).ft.windows = true ∧
      (edges 9998 1).ft.windowAt + 1000000 ≤ (edges 9998 1).now ∧ (edges 9998 1).inTolerance 0 = false ∧ 1 ≤ (edges 9998 1).ft.bad) ∧
    timed.ft.edgeAt + 1000 ≤ timed.now ∧ timed.get F.FT_CTL_REF_SEL ≠ natOfBool (bitOf (16#32 : Word).toNat 4) := by
  decide +kernel

/-- An error of 300 ns, of 100 us and of 100,001 ns, at REJ_RUN 255; 1.1 s without an edge; loads at and below the count, 2 s
after arming. -/
theorem witness_PpsSteersAndLoads :
    let at_ := fun (n : Nat) => ft timed (fun f => { f with count := n })
    let err := fun (s : State) => (s.ft.count : Int) - (nearestSecond s.ft.count : Int)
    let armed := fun (v : Nat) => ft timed (fun f => { f with count := 7000000000, pending := some ⟨v, 3000000000, true⟩ })
    (timed.mainUp = true ∧ true ≠ timed.flag F.FT_CTL_PPS_POL ∧ timed.ft.pending = none ∧
      timed.get F.FT_STATUS_STATE = Ft.running) ∧
    err timed = 300 ∧ err (at_ 7000100000) = 100000 ∧ err (at_ 6999900000) = -100000 ∧ 100000 < err (at_ 7000100001) ∧
    ((at_ 7000100001).set F.FT_STATUS_PPS_REJ_RUN 255).rejLimit ≤ min 255 (255 + 1) ∧
    timed.ft.ppsMark + 1100000000 ≤ timed.ft.count ∧
    ((armed 7000000000).mainUp = true ∧ (armed 7000000000).ft.pending = some ⟨7000000000, 3000000000, true⟩ ∧
      (armed 7000000000).now ≤ 3000000000 + 2000000000 ∧ (armed 7000000000).flag F.FT_STATUS_REF_OK = true ∧
      (armed 7000000000).ft.count ≤ 7000000000 ∧ 7000000000 % 1000000000 = 0) ∧
    ((armed 6000000000).ft.pending = some ⟨6000000000, 3000000000, true⟩ ∧ 6000000000 < (armed 6000000000).ft.count ∧
      (armed 6000000000).ftCommand = none) ∧
    (ftLoading.ft.pending = some ⟨8000000000, 3000000000, true⟩ ∧ ftLoading.ft.count ≤ 8000000000 ∧
      8000000000 % 1000000000 = 0 ∧ ftLoading.now ≤ 3000000000 + 2000000000 ∧ ftLoading.ftCommand.isSome = true) := by
  decide +kernel

theorem witness_LoadsAreArmedAndExpire :
    (timed.mainUp = true ∧ timed.ft.pending = none ∧ timed.get F.FT_LOAD_VALUE % 1000000000 = 0) ∧
    (timed.set F.FT_LOAD_VALUE 999999999).get F.FT_LOAD_VALUE % 1000000000 ≠ 0 ∧
    (let s := ft timed (fun f => { f with pending := some ⟨8000000000, 3000000001, true⟩ })
     s.ft.pending = some ⟨8000000000, 3000000001, true⟩ ∧ s.now < 3000000001 + 2000000000) ∧
    (let s := ft timed (fun f => { f with pending := some ⟨8000000000, 3000000000, false⟩ })
     s.ft.pending = some ⟨8000000000, 3000000000, false⟩ ∧ 3000000000 + 2000000000 ≤ s.now ∧ s.ftCommand = none) ∧
    (ftLoading.mainUp = true ∧ 3000000000 + 2000000000 ≤ ftLoading.now ∧ ftLoading.ftCommand.isSome = true) ∧
    Requester.host 1 ≠ .host 2 := by
  decide +kernel

/-- A commit of a telemetry entry and one that is forbidden; one due entry, one-shot and late and periodic, with its
firing pending and not; a firing of target 9. -/
theorem witness_CalendarEntriesAreKeptAndFire :
    let cal := fun (e : CalEntry) (fs : List Firing) =>
      { timed with cal := { timed.cal with entries := [(3, e)], firings := fs, evaluated := some 6999999 } }
    let once : CalEntry := { telEntry with instant := 7000000, period := 0 }
    let often : CalEntry := { telEntry with instant := 6999998, period := 1 }
    let firing : Firing := { index := 3, target := 8, action := 0, arg := 7, late := false, at_ := 5 }
    timed.mainUp = true ∧ commitAllowed (.management ⟨0, 0, 0, 0⟩) 992 8 = true ∧
    commitAllowed (.management ⟨0, 0, 0, 0⟩) 991 8 = false ∧
    ((cal once []).get F.FT_STATUS_STATE = Ft.running ∧ (cal once []).pwr.failed = false ∧
      (cal once []).awaitsEvaluation = true ∧
      (cal once []).cal.entries.filter (fun p => p.2.instant ≤ (cal once []).ft.count / 1000) = [(3, once)] ∧
      (cal once []).cal.entries.get? 3 = some once ∧ once.period = 0 ∧ (cal once []).cal.firings = []) ∧
    ((cal often [firing]).cal.entries.filter (fun p => p.2.instant ≤ (cal often []).ft.count / 1000) = [(3, often)] ∧
      (cal often [firing]).cal.entries.get? 3 = some often ∧ often.period ≠ 0 ∧
      decide (often.instant + 1 < (cal often []).ft.count / 1000) = true ∧ (∃ f ∈ (cal often [firing]).cal.firings, f.index = 3 ∧ f.target = often.target) ∧
      (∀ f ∈ (cal often [{ firing with target := 1 }]).cal.firings, f.index = 3 → f.target ≠ often.target) ∧
      (cal often [{ firing with target := 9 }]).cal.firings.find? (fun f => f.target == 9) = some { firing with target := 9 }) := by
  decide +kernel

/-! ### The digest engine -/

/-- With another digest engine. -/
def dg (s : State) (f : Digest → Digest) : State := { s with dge := f s.dge }

/-- A slot with two chaining values. -/
def slot : KeySlot := ⟨.sha256, [1, 2, 3, 4, 5, 6, 7, 8], [2, 2, 3, 4, 5, 6, 7, 8]⟩

/-- A digest of command `id` with `n` bytes to go. -/
def digesting (id n : Nat) : DigestCtx := ⟨id, .sha256, ShaAlg.sha256.init, n, none, List.replicate n 3#8, true⟩

/-- An inline key of 2 bytes for slot 7 and one from host memory for slot 1; a slot filled and empty; MR0 to be read; MR15
unlocked and MR0 locked. -/
theorem witness_KeysAndMeasurements :
    (let a := acc .admin (line Op.keyLoad 0 3 2 0 [7, 2])
     let s := withCmd (live.set F.ADM_DATA_DATA 0x0102) a
     s.begins .admin (isOp Op.keyLoad) a ∧ brings s a 2 (.bytes []) (fun _ b => b == [2#8, 1#8]) = true ∧
     ShaAlg.ofCode (cmdArg a.cmd 1) = some .sha512 ∧ 1 ≤ cmdArg a.cmd 0 ∧ cmdArg a.cmd 0 ≤ 7 ∧ a.inline = true) ∧
    (let a := acc P3 (line Op.keyLoad 0 3 2 8192 [1, 0])
     let s := withCmd (pairUp live) a
     s.begins P3 (isOp Op.keyLoad) a ∧ brings s a 2 (.bytes [9#8, 1#8]) (fun _ b => b == [9#8, 1#8]) = true ∧
     ShaAlg.ofCode (cmdArg a.cmd 1) = some .sha256) ∧
    (let a := acc .admin (line Op.keyDiscard 0 3 0 0 [1])
     let s := dg (withCmd live a) (fun d => { d with slots := [(1, slot)] })
     s.begins .admin (isOp Op.keyDiscard) a ∧ (s.dge.slots.get? (cmdArg a.cmd 0)).isSome = true ∧
     (withCmd live a).dge.slots.get? (cmdArg a.cmd 0) = none) ∧
    (let a := acc .admin (line Op.mrRead 0 3 64 0 [0])
     (withCmd live a).begins .admin (isOp Op.mrRead) a) ∧
    (let a := acc P3 (line Op.mrExtend 0 3 64 8192 [15])
     let s := withCmd (pairUp live) a
     s.begins P3 (isOp Op.mrExtend) a ∧ cmdArg a.cmd 0 < 16 ∧ s.mrLocked (cmdArg a.cmd 0) = false ∧
     brings s a 64 (.bytes [1#8]) (fun _ b => b.length == 64) = true) ∧
    (let a := acc P3 (line Op.mrExtend 0 3 64 8192 [0])
     let s := withCmd (pairUp (live.set F.MR_LOCK_BOOT_LOCK 15)) a
     s.begins P3 (isOp Op.mrExtend) a ∧ s.mrLocked (cmdArg a.cmd 0) = true) := by
  decide +kernel

/-- Plain and keyed messages with a free context and with none, and one whose page is missing; the wrong algorithm; an empty
slot; a freed context; units of 128 bytes and a rest of 127, whose value can be written. -/
theorem witness_DigestsRunThroughContexts :
    (let a := acc .admin (line Op.digest 0 3 64 0x4000 [0, 0xFF, 0x9000])
     let s := withCmd live a
     let six := (List.range 6).map (fun i => (i, digesting (100 + i) 3))
     let plain := fun c => isOp Op.digest c && cmdArg c 1 == 0xFF
     s.begins .admin plain a ∧ s.contextOf a.id = none ∧ ShaAlg.ofCode (cmdArg a.cmd 0) = some .sha256 ∧
     brings s a 64 (.bytes [1#8]) (fun v b => v.freeContext == some 0 && v.dge.waiting.isEmpty && b.length == 64) = true ∧
     (let full := dg s (fun d => { d with contexts := six })
      full.begins .admin plain a ∧ full.contextOf a.id = none ∧
      brings full a 64 (.bytes []) (fun v _ => v.freeContext.isNone) = true) ∧
     (let w := atsUp s
      w.begins .admin plain a ∧ w.contextOf a.id = none ∧ a.inline = false ∧ dataWaits w a 64 = true)) ∧
    (let a := acc .admin (line Op.digest 0 3 64 0x4000 [0, 1, 0x9000])
     let b := acc .admin (line Op.digest 0 3 64 0x4000 [2, 1, 0x9000])
     let s := dg (withCmd live a) (fun d => { d with slots := [(1, slot)] })
     let t := dg (withCmd live b) (fun d => { d with slots := [(1, slot)] })
     let keyed := fun c => isOp Op.digest c && cmdArg c 1 != 0xFF
     s.begins .admin keyed a ∧ s.contextOf a.id = none ∧ s.dge.slots.get? (cmdArg a.cmd 1) = some slot ∧
     (145, cmdArg a.cmd 1 - 1) ∉ s.hub.armed ∧ cmdArg a.cmd 0 = slot.alg.code ∧
     brings s a 64 (.bytes []) (fun v _ => v.freeContext == some 0 && v.dge.waiting.isEmpty) = true ∧
     s.pwr.hold = true ∧ t.begins .admin keyed b ∧ t.contextOf b.id = none ∧ cmdArg b.cmd 0 ≠ slot.alg.code ∧
     (withCmd live a).dge.slots.get? (cmdArg a.cmd 1) = none) ∧
    (let s := dg live (fun d => { d with contexts := [(0, digesting 6 3)], waiting := [digesting 5 3] })
     s.freeContext = some 1 ∧ s.dge.waiting = [digesting 5 3]) ∧
    (let a := acc .admin (line Op.digest 0 3 64 0x4000 [0, 0xFF, 0x9000])
     let s := fun (n : Nat) => dg (withCmd live a) (fun d => { d with contexts := [(5, digesting 5 n)] })
     (s 128).dge.next = some 5 ∧ ((s 128).dge.contexts.get? 5).map (fun c => decide (128 ≤ c.data.length)) = some true ∧
     ((s 127).dge.contexts.get? 5).map (fun c => decide (c.data.length < 128)) = some true ∧
     (s 127).mbx.accepted.find? (fun a => a.id == 5) = some a ∧ inDevice (cmdArg a.cmd 2) = false ∧
     (let u := State.bumpTimes { s 127 with dge := { (s 127).dge with last := 5 } } C.dgeUnit (digesting 5 127).units
      reaches (u.reach (placeOf 1 (u.mailboxCtx a.mb) (cmdArg a.cmd 2)) 64 true) (fun _ _ => true) = true)) := by
  decide +kernel

/-- Each command that a stopped transfer ends, on a pair: its address is reached, so that the host can fail the read. An address
beyond 2^46, where the read ends at once. -/
theorem witness_StoppedTransfersEndCommands :
    let at_ := fun (op : Nat) (args : List Nat) => withCmd (pairUp live) (acc P3 (line op 0 3 64 8192 args))
    let a := fun (op : Nat) (args : List Nat) => acc P3 (line op 0 3 64 8192 args)
    let far := acc P3 (line Op.fwDownload 0 3 64 (2 ^ 48) [0])
    live.pwr.hold = true ∧
    ((at_ Op.fwDownload [0]).begins P3 (isOp Op.fwDownload) (a Op.fwDownload [0]) ∧
      dataReached (at_ Op.fwDownload [0]) (a Op.fwDownload [0]) 64 = true) ∧
    ((at_ Op.keyLoad [1, 0]).begins P3 (isOp Op.keyLoad) (a Op.keyLoad [1, 0]) ∧
      dataReached (at_ Op.keyLoad [1, 0]) (a Op.keyLoad [1, 0]) 64 = true) ∧
    ((at_ Op.digest [0, 0xFF]).begins P3 (fun c => isOp Op.digest c && cmdArg c 1 == 0xFF) (a Op.digest [0, 0xFF]) ∧
      (ShaAlg.ofCode (cmdArg (a Op.digest [0, 0xFF]).cmd 0)).isSome = true ∧
      dataReached (at_ Op.digest [0, 0xFF]) (a Op.digest [0, 0xFF]) 64 = true) ∧
    ((at_ Op.mrExtend [15]).begins P3 (isOp Op.mrExtend) (a Op.mrExtend [15]) ∧
      (at_ Op.mrExtend [15]).mrLocked 15 = false ∧ dataReached (at_ Op.mrExtend [15]) (a Op.mrExtend [15]) 64 = true) ∧
    ((at_ Op.granaryConfig [3]).begins P3 (isOp Op.granaryConfig) (a Op.granaryConfig [3]) ∧
      dataReached (at_ Op.granaryConfig [3]) (a Op.granaryConfig [3]) 64 = true) ∧
    (match (withCmd (pairUp live) far).mailRead far (cmdAddr far.cmd) 64 (.bytes []) with
     | .ended _ => true
     | _ => false) = true := by
  decide +kernel
/-! ### The Granary -/

/-- With another Granary. -/
def gr (s : State) (f : Granary → Granary) : State := { s with grn := f s.grn }

/-- A window of 256 MiB, LAZY, with interleave set 0 over it, field time at 7 s and room in the budget. -/
def window : State :=
  let s := live.setAll [(F.IVS_BASE_GIB, grnBase / 2 ^ 30), (F.IVS_SIZE_GIB, 1), (F.IVS_CFG_VALID, 1), (F.IVS_CFG_WAYS, 1),
    (F.IVS_CFG_GRAIN_LOG, 8)]
  { gr s (fun g => { g with budget := 2 ^ 30, config := { g.config with windowLen := 2 ^ 28, winHiPct := 50 } }) with
    now := 100000000000 }

/-- A firing that has reached its target. -/
def fired (s : State) (target arg : Nat) : State :=
  { s with cal := { s.cal with firings := [⟨3, target, 0, arg, false, 5⟩] } }

/-- A segment of page 0. -/
def segment : Segment :=
  { seq := 0, kind := .winnow, gen := 1, windowLen := 2 ^ 28, ft := 0, units := [fullUnit 0 []], verdict := .erased }

/-- Samples at both bounds and beyond; a measurement started, at 10 ms, at 0.98 of V1 with a capacitance that is in range and
one that is not, and at 60 s. -/
theorem witness_TheBankIsSensedAndMeasured :
    let m := fun (v0 t0 : Nat) (v1 : Option Nat) => gr window (fun g => { g with measure := some ⟨v0, t0, v1⟩, samples := [44100] })
    let c := 2500 * (100000000000 - 90000000000 - 10000000) / ((45000 - 44100) * 10000000)
    (window.pwr.hold = true ∧ (-50 : Int) ≤ 1000 ∧ (-51 : Int) < -50 ∧ (1000 : Int) < 1001) ∧
    ((fired window 6 0).get F.FT_STATUS_STATE = Ft.running ∧ (fired window 6 0).backgroundRuns = true ∧
      (fired window 6 0).cal.firings.find? (fun f => f.target == 6) = some ⟨3, 6, 0, 0, false, 5⟩ ∧
      (fired window 6 0).grnServes = true ∧ (fired window 6 0).flag F.GOV_STATUS_SENSE_BAD = false ∧
      (fired window 6 0).grn.measure = none) ∧
    (let s := (m 50000 99990000000 none).set F.BANK_CFG_I_TEST 50
     s.grn.measure = some ⟨50000, 99990000000, none⟩ ∧ 99990000000 + 10000000 ≤ s.now) ∧
    (let s := (m 50000 90000000000 (some 45000)).setAll [(F.BANK_CFG_I_TEST, 50), (F.BANK_CFG_C_NOM, 4 * c)]
     s.grn.measure = some ⟨50000, 90000000000, some 45000⟩ ∧ s.pwr.hold = true ∧ 100 * s.bankMv ≤ 98 * 45000 ∧
     s.bankMv < 45000 ∧ s.testMa ≠ 0 ∧ s.now ≤ 90000000000 + 60000000000 ∧
     s.testMa * (s.now - 90000000000 - 10000000) / ((45000 - s.bankMv) * 10000000) = c ∧
     s.get F.BANK_CFG_C_NOM ≤ 4 * c ∧ c ≤ 4 * s.get F.BANK_CFG_C_NOM) ∧
    (let s := (m 50000 90000000000 (some 45000)).setAll [(F.BANK_CFG_I_TEST, 50), (F.BANK_CFG_C_NOM, 4 * c + 1)]
     s.grn.measure = some ⟨50000, 90000000000, some 45000⟩ ∧ 4 * c < s.get F.BANK_CFG_C_NOM) ∧
    ((m 50000 40000000000 none).grn.measure = some ⟨50000, 40000000000, none⟩ ∧
      40000000000 + 60000000000 ≤ (m 50000 40000000000 none).now) := by
  decide +kernel

/-- A grant to a mailbox, to a CXL write, and to none; lines whose place in DRAM serves. -/
theorem witness_TheGovernorGrantsAndLinesDrain :
    window.pwr.hold = true ∧ (gr window (fun g => { g with budget := 0 })).canReserve = false ∧
    (let s := gr window (fun g => { g with dirty := [(0, 3)], config := { g.config with winHiPct := 90 } })
     s.grn.config.winHiPct * s.budgetOf s.usableMj < s.dirtyBytes * 100) ∧
    (let s := gr window (fun g => { g with waiters := [.mailbox 64 5] })
     s.canReserve = true ∧ s.grn.waiters = [.mailbox 64 5] ∧ Waiter.mailbox 64 5 ≠ .cxl) ∧
    (let s := { gr window (fun g => { g with waiters := [.cxl] }) with
        link := { window.link with waiting := [⟨.cmp (2 ^ 28 - 64), 4194303, 7, true⟩] } }
     s.canReserve = true ∧ s.grn.waiters = [.cxl] ∧ s.link.waiting = [⟨.cmp (2 ^ 28 - 64), 4194303, 7, true⟩]) ∧
    (let s := gr window (fun g => { g with landing := [⟨6401, 1, false⟩, ⟨5, 2, true⟩], unrestored := [(100, 101)] })
     s.pwr.hold = true ∧ s.grn.landing.find? s.drains = some ⟨5, 2, true⟩ ∧ (106, 0) ∉ s.hub.armed ∧
     CopyCheck.oneBad ≠ .bothBad ∧ s.dpaServes (grnBase + 64 * 5) true = true) := by
  decide +kernel

/-- A page to copy; a rebase alone; low passes with the high level and without; a full segment time; trailers; the end of a
rebase. -/
theorem witness_TheWinnowerCopiesAndSeals :
    (let s := gr window (fun g => { g with dirty := [(0, 3), (7, 9)], inflight := [(0, true)], pass := some 1 })
     s.grnServes = true ∧ s.grn.closed = false ∧ s.precopying = true ∧ s.urgentWaits s.winnowDie = false ∧
     s.grn.inflight.length < 2048 ∧ s.ringUsed + 64 < s.ringSize ∧ s.winnowNext = some 1) ∧
    (let b : Rebase := ⟨1, 65535, 5, { segment with kind := .base }, []⟩
     let s := gr window (fun g => { g with rebase := some b })
     s.grnServes = true ∧ s.grn.closed = false ∧ s.precopying = false ∧ s.grn.rebase = some b ∧
     s.urgentWaits (b.seg.seq % 64) = false ∧ b.nextPage < s.windowPages) ∧
    (let s := fired window 7 3
     let h := s.set F.GOV_STATUS_HIGH 1
     s.grn.pass = none ∧ s.get F.FT_STATUS_STATE = Ft.running ∧ s.backgroundRuns = true ∧
     s.cal.firings.find? (fun f => f.target == 7) = some ⟨3, 7, 0, 3, false, 5⟩ ∧
     s.flag F.GOV_STATUS_HIGH = false ∧ s.grnServes = true ∧ s.grn.closed = false ∧
     h.flag F.GOV_STATUS_HIGH = true ∧
     h.grn.pass = none) ∧
    (let s := gr window (fun g => { g with openSeg := some (segment, 99900000000) })
     s.grn.openSeg = some (segment, 99900000000) ∧ 99900000000 + 100000000 ≤ s.now) ∧
    (let s := gr window (fun g => { g with sealing := [segment], inflight := [(0, false), (1, true)] })
     s.grn.sealing = [segment] ∧ (144, 0) ∉ s.hub.armed ∧
     s.urgentWaits (segment.seq % s.ringPositions % 64) = false ∧ 0 ∈ segment.units.map (·.page) ∧ (0, true) ∉ s.grn.inflight ∧
     1 ∉ segment.units.map (·.page)) ∧
    (let b : Rebase := ⟨1, 65536, 5, { segment with kind := .base }, []⟩
     let s := gr window (fun g => { g with rebase := some b })
     s.grn.rebase = some b ∧ s.windowPages ≤ b.nextPage ∧ s.pwr.hold = true) := by
  decide +kernel

/-- A dump that has drained, has pages left, and has none; SEALED without MAIN; DUMPING; power gone, in PARKED and not. -/
theorem witness_PowerFailureDumps :
    let d : Dump := { opened := false, first := 0, nextPage := 0, inFailed := false }
    let o : Dump := { opened := true, first := 4, nextPage := 2, inFailed := false }
    let dump := fun (x : Dump) (n : Nat) => pw (gr (window.set F.GRN_STATE_STATE Grn.dumping) (fun g => { g with dump := some x, nextSeq := n }))
      (fun p => { p with failed := true, failedInDump := true })
    let armed := pw window (fun p => { p with armed := true })
    (armed.pwr.hold = true ∧ armed.pwr.armed = true ∧ armed.pwr.failed = false ∧ detects 10699 5000 0 = true ∧
      detects 10900 0 200 = true ∧ armed.grnServes = true) ∧
    (detects 10900 9999 50 = false ∧ window.pwr.armed = false) ∧
    ((dump d 4).grn.dump = some d ∧ d.opened = false ∧ (dump d 4).grn.landing.any (dump d 4).drains = false ∧
      (dump d 4).groupUp .h = true ∧ (dump d 4).pwr.failedInDump = true) ∧
    (let s := gr (dump o 5) (fun g => { g with dirty := [(0, 3), (7, 9)] })
     s.grn.dump = some o ∧ o.opened = true ∧ s.ringUsed < s.ringSize ∧ s.dirtyFrom segPages o.nextPage = [2, 7, 8]) ∧
    ((dump o 5).grn.dirty.firstFrom o.nextPage = none ∧ o.first ≠ (dump o 5).grn.nextSeq ∧ o.inFailed = false ∧
      (dump o 5).pwr.failed = true) ∧
    (let s := pw (window.set F.GRN_STATE_STATE Grn.sealed) (fun p => { p with failed := true, main := false })
     s.pwr.failed = true ∧ s.pwr.main = false ∧ s.grn.dump = none ∧ s.grnState = Grn.sealed) ∧
    ((dump d 4).pwr.hold = true ∧ (dump d 4).grnState = Grn.dumping ∧ (dump d 4).latched = false) ∧
    (let s := pw (window.set F.GRN_STATE_STATE Grn.parked) (fun p => { p with failed := true, main := false })
     s.pwr.failed = true ∧ s.grnState = Grn.parked ∧ s.grn.channelDump = false) ∧
    ((dump d 4).grnState ≠ Grn.parked ∧ (dump d 4).grn.dump ≠ none) ∧
    (pw window (fun p => { p with failed := true })).grn.dump = none := by
  decide +kernel

/-- LOCATING of a window that fits its set and of one that does not; fetches of page 100; a vault patrol of an area that does
not exist, and of a unit that holds the newest copy of page 0. -/
theorem witness_TheWindowIsRestored :
    (let s := window.set F.GRN_STATE_STATE Grn.locating
     s.grnState = Grn.locating ∧ s.grn.config.windowLen ≤ s.granaryCapacity ∧ 4096 ≤ s.grn.config.windowLen ∧
     (s.set F.IVS_CFG_VALID 0).granaryCapacity < s.grn.config.windowLen) ∧
    (let s := gr window (fun g => { g with unrestored := [(100, 102)], fetches := [⟨100, false⟩] })
     s.grnState = Grn.lazy ∧ s.grn.closed = false ∧
     pickFetch s.grn.unrestored s.grn.fetches (s.grn.fetches.length + 1) 0 = some 101 ∧ s.pwr.hold = true ∧
     s.pwr.failed = false ∧ s.fetchRuns 100 = true ∧ s.grn.unrestored.mem 100 = true) ∧
    (let s := fired (gr window (fun g => { g with deltas := [{ segment with verdict := .verified }] })) 4 2
     s.get F.FT_STATUS_STATE = Ft.running ∧ s.backgroundRuns = true ∧ s.grn.unrestored = [] ∧
     s.waitingDescs.any (fun p => queueClass p.1 == 0) = false ∧
     s.cal.firings.find? (fun f => f.target == 4) = some ⟨3, 4, 0, 2, false, 5⟩ ∧ s.groupUp .h = true ∧ s.flash.off = false ∧
     s.areaSegment 2 0 = some { segment with verdict := .verified } ∧ segment.kind ≠ .manifest ∧ 0 < segPages ∧
     segment.units[0]? = some (fullUnit 0 []) ∧ s.newestIn 2 0 0 = true ∧ (2, 0) ∉ s.grn.reported ∧
     (fired window 4 3).cal.firings.find? (fun f => f.target == 4) = some ⟨3, 4, 0, 3, false, 5⟩) := by
  decide +kernel

/-- A GRANARY_CONFIG block of an operation and a length, every other field standard. -/
def grnBlock (op len : Nat) : List Byte := leBytes 64 (0x43475053 + 2 ^ 32 + op * 2 ^ 40 + len * 2 ^ 64)

/-- Blocks with a length that is no multiple of 256 MiB, an operation that the state forbids, and each that goes through;
RESUME in SEALED; GRANARY_DUMP in LAZY and in OFF. -/
theorem witness_GranaryConfiguration :
    let a := acc P3 (line Op.granaryConfig 0 3 64 8192 [])
    let s := withCmd (pairUp window) a
    let off := s.set F.GRN_STATE_STATE Grn.off
    let sealed := s.set F.GRN_STATE_STATE Grn.sealed
    let b := grnBlock
    (s.begins P3 (isOp Op.granaryConfig) a ∧ [(0, 1), (0, 2 ^ 28), (1, 0), (2, 2 ^ 30), (3, 0)].all (fun c =>
      [s, off, sealed].all (fun s => brings s a 64 (.bytes (b c.1 c.2)) (fun _ d => d == b c.1 c.2))) = true) ∧
    (leField (b 0 1) 5 1 = GrnOp.create.code ∧ s.grnBlockFault .create (b 0 1) = some 8) ∧
    (leField (b 0 (2 ^ 28)) 5 1 = GrnOp.create.code ∧ s.grnBlockFault .create (b 0 (2 ^ 28)) = none ∧
      s.grnPermits .create (s.grnNewConfig .create (b 0 (2 ^ 28))).windowLen = false) ∧
    (off.begins P3 (isOp Op.granaryConfig) a ∧ off.grnBlockFault .create (b 0 (2 ^ 28)) = none ∧
      off.grnPermits .create (off.grnNewConfig .create (b 0 (2 ^ 28))).windowLen = true) ∧
    (leField (b 1 0) 5 1 = GrnOp.tune.code ∧ s.grnBlockFault .tune (b 1 0) = none ∧
      s.grnPermits .tune (s.grnNewConfig .tune (b 1 0)).windowLen = true) ∧
    (leField (b 2 (2 ^ 30)) 5 1 = GrnOp.format.code ∧ s.grnBlockFault .format (b 2 (2 ^ 30)) = none ∧
      s.grnPermits .format (s.grnNewConfig .format (b 2 (2 ^ 30))).windowLen = true) ∧
    (leField (b 3 0) 5 1 = 3 ∧ sealed.begins P3 (isOp Op.granaryConfig) a ∧ sealed.grnBlockFault .resume (b 3 0) = none ∧
      sealed.grnState = Grn.sealed ∧ sealed.pwr.failed = false ∧ sealed.grn.channelDump = false ∧ sealed.ringBad a = false) ∧
    (let d := acc .admin (line Op.granaryDump 0 3 0 0 [])
     let may := fun (s : State) => s.grnServes && !s.pwr.failed && !s.latched
     (withCmd window d).begins .admin (isOp Op.granaryDump) d ∧ may (withCmd window d) = true ∧
     (withCmd on d).begins .admin (isOp Op.granaryDump) d ∧ may (withCmd on d) = false) := by
  decide +kernel

/-! ### Flash and DRAM -/

/-- With other flash contents, and with other DRAM contents. -/
def fl (s : State) (f : Flash → Flash) : State := { s with flash := f s.flash }
def dr (s : State) (f : Dram → Dram) : State := { s with dram := f s.dram }

/-- A flash descriptor (R388) of die FC0.D0: operation, block, sectors, planes, data address, length; tag 7. -/
def desc (op block sectors planes data len : Nat) : Line :=
  BitVec.ofNat 512 (op + 7 * 2 ^ 16 + block * 2 ^ 48 + sectors * 2 ^ 88 + planes * 2 ^ 96 + data * 2 ^ 128 + len * 2 ^ 256)

/-- A program of block 16 from the window, an erase, a read of its page 0, a READ_PARAM, and an erase of block 5 of the system area. -/
def dProgram : Line := desc 2 16 4 0 (grnBase + 0x10000) 16384
def dErase : Line := desc 3 16 4 0 0 0
def dRead : Line := desc 1 16 4 0 0x10000 16384
def dParam : Line := desc 4 0 4 0 0x10000 768
def dBad : Line := desc 3 5 4 0 0 0

/-- A descriptor of a queue in front of die 0, and one running there since device time 6. -/
def queued (q : Nat) (d : Line) (s : State) : State := fl s (fun f => { f with fetched := [(q, d)] })
def running (q : Nat) (d : Line) (gs : List FlashPage) (s : State) : State :=
  fl s (fun f => { f with running := [(0, ⟨q, d, 5, 6, false, gs⟩)] })

/-- A FLASH_SUBMIT that has begun. -/
def submit : Accepted := { acc .admin (line Op.flashSubmit 0 3 64 0x4000 [0x9000, 16384]) with begun := true }

/-- Doorbells of queue 21 enabled and not; FLASH_SUBMITs whose length agrees and does not; a read, a program, an erase
and a READ_PARAM that pass their checks; a FLASH_SUBMIT's erase of a system block. -/
theorem witness_FlashDescriptorsAreServed :
    ((window.setN F.FLQ_CFG_EN 21 1).groupUp .h = true ∧ (window.setN F.FLQ_CFG_EN 21 1).getN F.FLQ_CFG_EN 21 ≠ 0 ∧
      window.getN F.FLQ_CFG_EN 21 = 0) ∧
    (let a := { submit with begun := false }
     let s := withCmd window a
     s.begins .admin (isOp Op.flashSubmit) a ∧
     brings s a 64 (.bytes (leBytes 64 dRead.toNat)) (fun _ b =>
       descLen (BitVec.ofNat 512 (ofLeBytes b)) == cmdArg a.cmd 1) = true ∧
     brings s a 64 (.bytes (leBytes 64 dErase.toNat)) (fun _ b =>
       descLen (BitVec.ofNat 512 (ofLeBytes b)) != cmdArg a.cmd 1) = true) ∧
    (let fits := fun (q : Nat) (d : Line) => (queued q d window).groupUp .h = true ∧ (queued q d window).flash.off = false ∧
       (queued q d window).pickDesc 0 = some (q, d) ∧ (queued q d window).descCheck q d = none ∧
       (queued q d window).flash.running.get? 0 = none ∧ (queued q d window).flash.held.get? 0 = none
     fits 32 dRead ∧ descOp dRead = FlashOp.read ∧ fits 32 dParam ∧ descOp dParam = FlashOp.readParam ∧
     fits 21 dProgram ∧ descOp dProgram = FlashOp.program ∧ fits 21 dErase ∧ descOp dErase = FlashOp.erase ∧ descPlanes dErase = 0) ∧
    (let s := queued 32 dBad (withCmd window submit)
     s.groupUp .h = true ∧ s.flash.off = false ∧ s.pickDesc 0 = some (32, dBad) ∧ s.descCheck 32 dBad = some Fs.isProtected ∧ descOp dBad = FlashOp.erase ∧
     s.mbx.accepted.find? (fun a => a.begun && cmdOpcode a.cmd == Op.flashSubmit) = some submit) := by
  decide +kernel

/-- An erase and a program of one plane of block 16, and a FLASH_SUBMIT's read of its programmed page, that end; a die busy for
20 ms. -/
theorem witness_FlashOperationsEnd :
    let g : FlashPage := ⟨[9#8], [1, 2, 3, 4]⟩
    let ends := fun (q : Nat) (d : Line) (gs : List FlashPage) (s : State) =>
      (running q d gs s).flash.running.get? 0 = some ⟨q, d, 5, 6, false, gs⟩ ∧ (running q d gs s).flash.held.get? 0 = none ∧
      (running q d gs s).flash.relocate = [] ∧ descPlanes d = 0
    (ends 21 dErase [] window ∧ descOp dErase = FlashOp.erase ∧
      bitOf 0 ((running 21 dErase [] window).descPhysBlock dErase (descBlock dErase) % 4) = false) ∧
    (ends 21 dProgram [g] window ∧ descOp dProgram = FlashOp.program ∧
      bitOf 0 ((running 21 dProgram [g] window).descPhysBlock dProgram (descBlock dProgram) % 4) = false) ∧
    (let s := withCmd (fl window (fun f => { f with pages := [(1536 * 16, g)] })) submit
     ends 32 dRead [] s ∧ descOp dRead = FlashOp.read ∧ descRaw dRead = false ∧ s.atsOn = false ∧ s.linkClosed = false ∧
     inDevice (cmdArg submit.cmd 0) = false ∧ s.ctxCheck (s.mailboxCtx submit.mb) (cmdArg submit.cmd 0) = none ∧
     submit.waits = [] ∧
     (s.readSectors 0 dRead 0).all (fun x => !x.fails && x.known.isSome) = true ∧
     s.mbx.accepted.find? (fun a => a.begun && cmdOpcode a.cmd == Op.flashSubmit) = some submit) ∧
    ((running 21 dErase [] window).pwr.hold = true ∧ 6 + 20000000 ≤ window.now ∧ window.groupUp .h = true) ∧
    (let s := fl window (fun f => { f with waitingDone := [(⟨2, 1, 0, 16, 0, 0⟩, 3)] })
     s.groupUp .h = true ∧ s.flash.waitingDone.length ≤ 1020) := by
  decide +kernel

/-- Bank 0 of rank 0 of a channel, and a request for it. -/
def bank (ch : Fin 12) : BankId := ⟨ch, false, 0, 0, 0⟩
def req (ch : Fin 12) (row at_ : Nat) (k : DramKind) : DramReq := ⟨bank ch, row, 5, 64 * row, .host, k, at_, false, 0⟩

/-- Channels 0 and 5 in service with rank 0 active. -/
def memory : State :=
  let up := fun (ch : Nat) (s : State) =>
    ((s.setN F.DMC_CHCFG_STATE ch Ch.active).setN F.DMC_CHCFG_ACTIVE_RANKS ch 1).setRankByte ch 0 (mkRank Rank.active 0)
  ((up 0 (up 5 window)).setN F.DMC_CHCFG_DPC 5 1).setAll []

/-- A read and a write in a bank's queue, clean and late; a rank whose refresh is due at once; idle ranks of a Granary
channel, clean and dirty, and of another. -/
theorem witness_DramBanksAreServedAndRefreshed :
    (let s := dr memory (fun d => { d with queue := [req 5 3 1 (.cxlRead 77), req 5 4 1 .write] })
     s.channelUp 5 = true ∧ s.refreshOverdue 5 0 = false ∧
     pickRequest (s.dram.queue.filter (fun r => r.bank == bank 5)) (s.openRow (bank 5)) = some (req 5 3 1 (.cxlRead 77)) ∧
     s.linkClosed = false ∧ (64, 5) ∉ s.hub.armed ∧ (65, 5) ∉ s.hub.armed ∧
     s.dram.queue.find? (fun r => r.bank == bank 5 && r.cls != .guard && !r.promoted &&
       decide (r.at_ + max 250 (s.getN F.DMC_ARBCFG_AGE_NS 5) ≤ s.now)) = some (req 5 3 1 (.cxlRead 77))) ∧
    (State.reset.channelUp 7 = false ∧ (dr memory (fun d => { d with refNext := [(20, 5)] })).refreshOverdue 5 0 = true) ∧
    (memory.rankRefreshed 5 0 = true ∧ memory.dram.refNext.getD (rankKey 5 0) memory.now ≤ memory.now) ∧
    (let idle := fun (ch : Nat) (s : State) => s.getN F.DMC_PWRCFG_PD_NS ch ≠ 0 ∧
       bitOf (s.getN F.DMC_STATUS_SR ch) 0 = false ∧ s.idleFor ch 0 (s.getN F.DMC_PWRCFG_PD_NS ch) = true ∧
       s.getN F.DMC_PWRCFG_SR_US ch ≠ 0 ∧ s.idleFor ch 0 (s.getN F.DMC_PWRCFG_SR_US ch * 1000) = true
     idle 0 memory ∧ memory.rankDirty 0 0 = false ∧ idle 5 memory ∧
     idle 0 (gr memory (fun g => { g with dirty := [(0, 5)] })) ∧
     (gr memory (fun g => { g with dirty := [(0, 5)] })).rankDirty 0 0 = true) := by
  decide +kernel

/-- Retrainings that may start, by command and by firing, and that have tried never, once and twice; an active rank with a
spare and without one; migrations at their first and last unit. -/
theorem witness_RanksAreTrainedAndRetired :
    memory.mayRetrain 5 0 = true ∧
    ((fired memory 5 0x45).get F.FT_STATUS_STATE = Ft.running ∧ (0x45 < 0x80 ∧ 0x45 % 16 < 12) ∧
      (fired memory 5 0x45).cal.firings.find? (fun f => f.target == 5) = some ⟨3, 5, 0, 0x45, false, 5⟩ ∧
      (fired memory 5 0x45).mayRetrain (0x45 % 16) (0x45 / 16 % 4) = true) ∧
    (let t := fun (n : Nat) => dr memory (fun d => { d with retraining := [(5, ⟨0, n, false⟩)] })
     (t 0).dram.retraining.get? 5 = some ⟨0, 0, false⟩ ∧ (t 2).dram.retraining.get? 5 = some ⟨0, 2, false⟩ ∧
     (t 2).pwr.hold = true) ∧
    (let find := fun (s : State) => (List.range 4).find? (fun p => rankPresent (s.rankByte 5 p) && rankState (s.rankByte 5 p) == Rank.spare)
     let spare := memory.setRankByte 5 1 (mkRank Rank.spare 0)
     (memory.channelUp 5 = true ∧ memory.rankInService 5 0 = true ∧ rankState (memory.rankByte 5 0) = Rank.active ∧
       find memory = none ∧ memory.pwr.hold = true) ∧
     (spare.channelUp 5 = true ∧ spare.rankInService 5 0 = true ∧ rankState (spare.rankByte 5 0) = Rank.active ∧
       find spare = some 1 ∧ spare.getN F.DMC_MIGRATE_ACTIVE 5 ≠ 1)) ∧
    (let m := fun (u : Nat) => ((((memory.setN F.DMC_MIGRATE_ACTIVE 5 1).setN F.DMC_MIGRATE_FROM 5 0).setN F.DMC_MIGRATE_TO 5 1).setN
       F.DMC_MIGRATE_UNIT 5 u)
     (m 0).channelUp 5 = true ∧ (m 0).getN F.DMC_MIGRATE_ACTIVE 5 = 1 ∧ (m 0).getN F.DMC_MIGRATE_PAUSED 5 = 0 ∧
     (m 0).getN F.DMC_MIGRATE_UNIT 5 + 1 < 2 ^ ((m 0).rankLog 5 - 12) ∧
     (m 0).getN F.DMC_MIGRATE_UNIT 5 + 1 < 2 ^ F.DMC_MIGRATE_UNIT.width ∧
     2 ^ ((m (2 ^ (memory.rankLog 5 - 12) - 1)).rankLog 5 - 12) ≤ (m (2 ^ (memory.rankLog 5 - 12) - 1)).getN F.DMC_MIGRATE_UNIT 5 + 1 ∧
     (m 0).getN F.DMC_MIGRATE_FROM 5 < 4 ∧ (m 0).getN F.DMC_MIGRATE_TO 5 < 4 ∧
     (m 0).getN F.DMC_MIGRATE_FROM 5 ≠ (m 0).getN F.DMC_MIGRATE_TO 5) := by
  decide +kernel

/-- A channel with one DIMM and readings on both sides of HOT; slices with their firing; the last block of the dirty map's
first 32,768 pages; a set that may be written, a locked one and set 0. -/
theorem witness_ScrubbingSensorsAndSets :
    (memory.channelUp 5 = true ∧ memory.pwr.hold = true ∧ memory.dimms 5 = 1 ∧ (340 : Int) < toSigned 16 341 ∧
      toSigned 16 319 < (320 : Int) ∧ ([] : List (Option (BitVec 16))).length ≠ 2) ∧
    ((fired memory 2 0).get F.FT_STATUS_STATE = Ft.running ∧ (fired memory 2 0).backgroundRuns = true ∧
      (fired memory 2 0).patrolMayRead = true ∧
      (fired memory 2 0).cal.firings.find? (fun f => f.target == 2) = some ⟨3, 2, 0, 0, false, 5⟩) ∧
    (SramFinding.ok (.dirtyMapLost 1) = true ∧ (fired memory 3 0).get F.FT_STATUS_STATE = Ft.running ∧
      (fired memory 3 0).backgroundRuns = true ∧ (fired memory 3 0).mainUp = true ∧
      (fired memory 3 0).cal.firings.find? (fun f => f.target == 3) = some ⟨3, 3, 0, 0, false, 5⟩ ∧
      32768 * 1 + 32767 < memory.windowPages) ∧
    (memory.mainUp = true ∧ memory.getN F.IVS_CFG_LOCK 3 ≠ 1 ∧ (memory.setN F.IVS_CFG_LOCK 3 1).getN F.IVS_CFG_LOCK 3 = 1 ∧
      State.reset.mainUp = false) := by
  decide +kernel
/-! ### Contexts, translation and DMA -/

/-- With another engine, and with another translation unit. -/
def en (s : State) (f : Engine → Engine) : State := { s with eng := f s.eng }
def tl (s : State) (f : Tlu → Tlu) : State := s.mapTlu f

/-- A task of flow 3 of plan 0, in slot `id`. -/
def task (id : Nat) (state : TaskState) (waits : List PageWait) : Machine.Task :=
  { id := id, slot := some id, record := 0, flow := 3, plan := 0, op := 0, index := 0, tkind := 0, cls := 2, port := 0, node := 0,
    arg := 0, seq := 0, state := state, readyAt := 0, began := true, promoted := false, asked := false,
    tiller := if state = .running then some 2 else none, dispatchedAt := 0, last := 2, work := [], gifts := [], todo := [],
    fills := [], row := 0, inBatch := 0, part := 0, done := false, pushed := [], err := 0, waits := waits, data := [],
    scan := none, scratch := none, spoilt := none }

/-- Context 1 with PRI, the host's ATS and PRI enabled. -/
def shared : State :=
  let s := (window.setAll [(F.TLU_CTL_ATS_USE, 1), (F.TLU_CTL_PRI_TO_MS, 100)]).setN F.CTX_CFG_PRI_EN 1 1
  { s with link := { s.link with atsEnable := true, priEnable := true } }

/-- A context without users, one that an accepted pair uses, and a CREATE_PAIR that names a context out of use. -/
theorem witness_ContextsAreConfigured :
    (window.groupUp .fn = true ∧ window.ctxUsers 1 = 0 ∧ window.ctxUsers 0 = 0) ∧ (pairUp window).ctxUsers 0 ≠ 0 ∧
    (let a := acc .admin (line Op.createPair 0 3 0 0 [3, 0, 9 * 2 ^ 32])
     (withCmd window a).begins .admin (isOp Op.createPair) a ∧ (withCmd window a).ctxEnabled (pairArgs a.cmd).ctx = false) := by
  decide +kernel

/-- Reads of tiller 2 that need more bytes and get their last ones; a mailbox's read; requests that are stale, first and
second, of a context with PRI and one without; a page request group sent, and one older than its timeout. -/
theorem witness_HostAnswersReachTheirRequesters :
    (let x : HostRead := ⟨some 5, 0, 1, 0x8000, 8, [], [], [1, 2]⟩
     let s := en shared (fun e => { e with tillers := [(2, ⟨some 5, 0, false, some x⟩)], tasks := [task 5 .running []] })
     tillerOk 2 = true ∧ s.groupUp .ln = true ∧ (s.tiller 2).read = some x ∧ ((x.got ++ [3]).take x.len).length < x.len ∧
     x.len ≤ ((x.got ++ [3, 4, 5, 6, 7, 8]).take x.len).length ∧ x.task.bind s.task? = some (task 5 .running [])) ∧
    (let a := { acc .admin (line Op.ingest 0 3 64 0x4000 [3]) with begun := true }
     (withCmd shared a).groupUp .ln = true ∧ (withCmd shared a).readingCmd .admin = some a ∧
     (withCmd shared a).eng.appends = []) ∧
    (let r := fun (i : Nat) (second : Bool) (stale : List (Nat × Nat)) => (⟨i, 1, 9, false, second, stale⟩ : TransReq)
     let s := tl shared (fun t => { t with reqs := [r 4 false [(8, 1)], r 5 true [(10, 0)], r 6 false []] })
     (s.eng.tlu.reqs.take 64).all (fun r => r.id != 9) = true ∧
     (s.eng.tlu.reqs.take 64).find? (fun r => r.id == 4) = some (r 4 false [(8, 1)]) ∧
     (s.eng.tlu.reqs.take 64).find? (fun r => r.id == 5) = some (r 5 true [(10, 0)]) ∧
     (s.eng.tlu.reqs.take 64).find? (fun r => r.id == 6) = some (r 6 false []) ∧
     (r 4 false [(8, 1)]).overtaken .denied = true ∧ (r 5 true [(10, 0)]).overtaken .denied = false ∧
     (r 5 true [(10, 0)]).overtaken (.granted 9 2 true true false) = true ∧
     (r 5 true [(10, 0)]).overtaken (.granted 9 0 true false false) = false ∧ (r 6 false []).overtaken .aborted = false ∧
     s.priOn 1 = true ∧ (s.setN F.CTX_CFG_PRI_EN 1 0).priOn 1 = false) ∧
    (let g : PageGroup := ⟨1, 9, true, some 100⟩
     let s := tl (en shared (fun e => { e with tasks := [task 7 .waitPage [.group 1 9]] })) (fun t => { t with groups := [g] })
     s.eng.tlu.groups.find? (fun g => g.ctx == 1 && g.page == 9 && g.sentAt.isSome) = some g ∧
     s.awaited (.group 1 9) = true ∧ (s.dropGroup 1 9).awaited (.group 1 9) = true ∧
     (let alone := en s (fun e => { e with tasks := [] })
      alone.awaited (.group 1 9) = false ∧ (alone.dropGroup 1 9).awaited (.group 1 9) = false ∧
      alone.eng.tlu.groups.find? (fun g => g.ctx == 1 && g.page == 9 && g.sentAt.isSome) = some g) ∧
     g.sentAt = some 100 ∧
     shared.eng.tlu.groups.find? (fun g => g.ctx == 1 && g.page == 9 && g.sentAt.isSome) = none ∧
     s.get F.TLU_CTL_PRI_TO_MS ≠ 0 ∧ 100 + s.get F.TLU_CTL_PRI_TO_MS * 1000000 ≤ s.now ∧
     (s.set F.TLU_CTL_PRI_TO_MS 0).get F.TLU_CTL_PRI_TO_MS = 0) := by
  decide +kernel

/-- Invalidations with a read in their range and without; a register write of the firmware that reaches the
field it names. -/
theorem witness_TranslationsAreInvalidated :
    (shared.groupUp .ln = true ∧ shared.groupUp .fn = true ∧ shared.mainUp = true ∧ shared.eng.tlu.invals.length < 32) ∧
    (let i : Inval := ⟨3, 1, 8, 0⟩
     let s := tl shared (fun t => { t with invals := [i] })
     let x : HostRead := ⟨some 5, 0, 1, 0x8000, 8, [], [], []⟩
     let b := en s (fun e => { e with tillers := [(2, ⟨some 5, 0, false, some x⟩)] })
     s.eng.tlu.invals.find? (fun i => i.tag == 3) = some i ∧ s.readsIn i = false ∧ b.readsIn i = true) ∧
    (let f := F.SCH_CTL_STARVE_MS
     shared.linkUp = true ∧ shared.mainUp = true ∧ f.addr % 8 = 0 ∧ ¬ (0xE00000 ≤ f.addr ∧ f.addr < 0xE01000) ∧
     allFields.any (fun g => g.id == f.id) = true ∧ (settleFields ++ ownCommand).all (fun g => g.id != f.id) = true ∧ f.access = .rw ∧ fieldInstance f f.addr = some 0 ∧
     shared.groupUp (f.group 0) = true ∧ shared.writable f 0 f.addr 5 = true ∧
     (fieldWrite f 0 f.addr 8 5).1 ≠ 0) := by
  decide +kernel

/-- A request of a task whose read proves uncorrectable, from device DRAM and from the window. -/
theorem witness_DramBanksAreServedAndRefreshed_spoilt :
    let s := fun (r : DramReq) => en (dr memory (fun d => { d with queue := [r] })) (fun e => { e with tasks := [task 5 .running []] })
    let r := req 5 3 1 (.read (some 5))
    let w := { req 0 3 1 (.read (some 5)) with dpa := grnBase + 64 }
    (s r).channelUp 5 = true ∧ (s r).refreshOverdue 5 0 = false ∧
    pickRequest ((s r).dram.queue.filter (fun r => r.bank == bank 5)) ((s r).openRow (bank 5)) = some r ∧
    (64, 5) ∉ (s r).hub.armed ∧ (65, 5) ∉ (s r).hub.armed ∧ (s r).task? 5 = some (task 5 .running []) ∧
    ((s w).decodeDpa w.dpa).isSome = true ∧
    pickRequest ((s w).dram.queue.filter (fun r => r.bank == bank 0)) ((s w).openRow (bank 0)) = some w := by
  decide +kernel
/-! ### Plans -/

/-- Bytes with fields at offsets. -/
def put (n : Nat) (l : List (Nat × Nat)) : List Byte :=
  leBytes n ((l.map (fun p => p.2 * 2 ^ (8 * p.1))).foldl (· + ·) 0)

/-- A plan image (R143 to R148) of a SCAN of one uint32 column of INGEST table 1 and a MATERIALIZE to RESULT table 2, both
in the window, with a PARAMS section, a SHAPE section and a digest as given. -/
def planImage (params shape digest : Nat) : List Byte :=
  put 640 [
    (0, 0x4E4C5053), (4, 1), (6, 2), (8, 640), (0xC, 2), (0xE, 1), (0x10, 2), (0x12, natOfBool (params != 0)), (0x18, 0xFFFFFFFF),
    (0x30, digest), (0x50, 0x80 + 128 * 2 ^ 32), (0x58, 0x100 + 32 * 2 ^ 32), (0x60, 0x120 + 144 * 2 ^ 32),
    (0x68, if params = 0 then 0 else 0x1B0 + 16 * 2 ^ 32), (0x70, 0x1C0 + 168 * 2 ^ 32),
    (0x78, if shape = 0 then 0 else 0x268 + 8 * 2 ^ 32),
    (0x80, 0), (0x82, 1), (0x90, 1), (0x91, 2), (0x94, 2 ^ 64 - 1), (0x9C, 2 ^ 64 - 2 ^ 16), (0xA4, 0), (0xA8, 0x70), (0xAC, 0),
    (0xC0, 1), (0xC2, 0x60), (0xD1, 1), (0xD4, 2 ^ 64 - 2 ^ 16), (0xDC, 2 ^ 64 - 1), (0xE4, 0x70), (0xE8, 0x38), (0xEC, 1),
    (0x100, 0), (0x104, 1), (0x106, 4), (0x108, 16),
    (0x120, 1), (0x122, 1), (0x124, 1), (0x126, 0xFFFF), (0x128, 0), (0x130, 0x1000), (0x138, 0x10000), (0x140, 0x20000),
    (0x148, 0x1000), (0x160, 7),
    (0x168, 2), (0x16A, 2), (0x16C, 1), (0x16E, 0xFFFF), (0x170, 0x40000), (0x178, 0x41000), (0x180, 0x10000), (0x188, 0x60000),
    (0x190, 0x1000), (0x1A8, 7),
    (0x1B0, params),
    (0x1C0, 1), (0x1C4, 8), (0x1C6, 0x68), (0x1C8, 2 ^ 64 - 1), (0x1D0, 1), (0x1F0, 1), (0x228, 7),
    (0x230, 1), (0x234, 8), (0x236, 0x38), (0x238, 2 ^ 64 - 1), (0x260, 16), (0x264, 0xFFFF), (0x268, shape)]

/-- A start parameter of four bytes, uint32, over operator 0's first column list, well-formed and with a reserved byte set. -/
def parameter : Nat := 7 * 2 ^ 16 + 4 * 2 ^ 24 + 0x44 * 2 ^ 32

/-- The image without parameters, one whose parameter declaration fails check 12, and one with a SHAPE of one level of seven. -/
def image0 : List Byte :=
  planImage 0 0 99453332494723827480913297667842493650806117746837789733718194408061512947424
def image12 : List Byte :=
  planImage (parameter + 2 ^ 64) 0 14041900323492846731119528134278661473928376260574470872462676069644634683428
def imageShaped : List Byte :=
  planImage 0 0x701 4514290231840335847057949425823924199056519475614153876626691426560096179360

/-- The images' checks: none fails, check 12, none for the shaped one, and check 6 for a wrong digest. -/
theorem test_images_checked :
    imageFail image0 = none ∧ imageFail image12 = some 12 ∧ imageFail imageShaped = none ∧
    imageFail (planImage 0 0 1) = some 6 ∧ imgLen image0 = 640 := by
  decide +kernel

/-- The engine up with one node over all 96 tillers, and pair 3 in service. -/
def engine : State :=
  pairUp (en (window.set F.RDY_STATUS_GRN_LAZY 1) (fun e => { e with up := true, nodes := [(0, { Node.blank with count := 96 })] }))

/-- The plan of `image0` in slot 2, flows 0 to 2, in a state. -/
def plan (st : PlanState) : Plan :=
  loadedPlan (parseImage image0) 0 3 ⟨0, [], [0, 0]⟩ ⟨2, [0], 0, 4, []⟩ |> fun p => { p with state := st }

/-- With that plan, and with an accepted command of pair 3 on it. -/
def planned (p : Plan) (op len : Nat) (args : List Nat) : State :=
  withCmd (en engine (fun e => { e with plans := [(2, p)] })) (acc P3 (line op 0 3 len 8192 args))

/-- A PLAN_LOAD of pair 3, with tables that another plan has attached. -/
def loads (v len : Nat) : Accepted := acc P3 (line Op.planLoad 0 3 len 8192 [v])
def attached (s : State) : State := en s (fun e => { e with tables := (parseImage image0).tables.map (fun d => freshTable d 3) })

/-- What the attachment of the plan's tables leaves. -/
def attaches (s : State) (f : State → List MemWrite → Bool) : Bool :=
  match s.attachAll (loads 0 640) (s.emptySlot.getD 256) [] [] (parseImage image0).tables with
  | .ok t w => f { t with eng := { t.eng with tables := s.eng.tables } } w
  | _ => false

/-- PLAN_LOADs whose image declares another length, that are not ready, and that read their image; an image that needs the
window while it is not there; tables that fail their check, wait for a page, and are poisoned; a SHAPE that does not fit,
nodes that bind nowhere, too few buffers, and a load that goes through. -/
theorem witness_PlansAreLoadedAndStarted :
    (imageFail image0 = none ∧ imageFail image12 = some 12 ∧ imageFail imageShaped = none ∧ imageFail (planImage 0 0 1) = some 6) ∧
    let m := parseImage image0
    let at_ := fun (a : Accepted) (s : State) => withCmd s a
    let heads := fun (s : State) => s.attachAll (loads 0 640) (s.emptySlot.getD 256) [] [] m.tables
    ((at_ (loads 0 640) engine).begins P3 (fun c => isOp Op.planLoad c && bitOf (cmdArg c 0) 0 == false) (loads 0 640) ∧
      (at_ (loads 1 640) engine).begins P3 (fun c => isOp Op.planLoad c && bitOf (cmdArg c 0) 0 == true) (loads 1 640) ∧
      (at_ (loads 0 704) engine).begins P3 (fun c => isOp Op.planLoad c && bitOf (cmdArg c 0) 0 == false) (loads 0 704) ∧
      brings (at_ (loads 0 704) engine) (loads 0 704) 192 (.bytes image0) (fun _ h => imgLen h != 704) = true ∧
      brings (at_ (loads 0 640) (engine.set F.RDY_STATUS_ENGINE 0)) (loads 0 640) 192 (.bytes image0) (fun v h =>
        imgLen h == 640 && v.notReady (loads 0 640).cmd) = true) ∧
    [image0, image12, imageShaped, planImage 0 0 1].all (fun b =>
      declares (attached (at_ (loads 0 640) engine)) (loads 0 640) 192 imgLen b (fun w d => d == b &&
        !(bitOf (leField d 6 2) 1 && !w.flag F.RDY_STATUS_GRN_LAZY) && attaches w (fun _ _ => true))) = true ∧
    declares (at_ (loads 0 640) (engine.set F.RDY_STATUS_GRN_LAZY 0)) (loads 0 640) 192 imgLen image0 (fun w d => d == image0 &&
      bitOf (leField d 6 2) 1 && !w.flag F.RDY_STATUS_GRN_LAZY) = true ∧
    (match heads (en (at_ (loads 0 640) engine) (fun e => { e with tables := m.tables.map (fun d => freshTable { d with areaLen := 0x20000 } 3) })) with
      | .fails _ => true
      | _ => false) = true ∧
    (match heads (gr (at_ (loads 0 640) engine) (fun g => { g with unrestored := [(0, 4)] })) with
      | .wait _ _ => true
      | _ => false) = true ∧
    (match heads (gr (at_ (loads 0 640) engine) (fun g => { g with landing := [⟨0, 0, true⟩] })) with
      | .ended _ => true
      | _ => false) = true ∧
    attaches (attached (at_ (loads 0 640) engine)) (fun u _ =>
      u.shapeAccepted m && !u.shapeAccepted (parseImage imageShaped) && (u.bind m).isSome) = true ∧
    attaches (en (attached (at_ (loads 0 640) engine)) (fun e => { e with nodes := [] })) (fun u _ =>
      u.shapeAccepted m && (u.bind m).isNone) = true ∧
    (match (attached (at_ (loads 0 640) engine)).bind m with
      | some (v, g) => (match v.claim m v.emptySlot (v.reservation m g.nodes) with
          | .ok l => l.slot == 0
          | .error _ => false) &&
        (match (en v (fun e => { e with plans := [(2, { plan .loaded with resv := 23552 })] })).claim m (some 0) (v.reservation m g.nodes) with
          | .error k => k == 4
          | .ok _ => false)
      | none => false) = true ∧
    attaches (attached (at_ (loads 0 640) engine)) (fun u w =>
      match u.performWrites (loads 0 640).waiter (u.mailboxCtx P3) w with
      | (_, _, .ok _) => true
      | _ => false) = true :=
  ⟨⟨test_images_checked.1, test_images_checked.2.1, test_images_checked.2.2.1, test_images_checked.2.2.2.1⟩, by decide +kernel⟩

/-- Commands on a plan that is not there; PLAN_STARTs without and with parameters, of a plan that is loaded and of one that
runs, before the engine is up, and of another length; PLAN_STATUS. -/
theorem witness_PlansAreStarted :
    let c := fun (op : Nat) (args : List Nat) => acc P3 (line op 0 3 0 8192 args)
    let absent := fun (op k : Nat) (args : List Nat) (p : Line → Bool) =>
      (withCmd engine (c op args)).begins P3 p (c op args) ∧ engine.handlePlan (cmdArg (c op args).cmd k) = none
    let n := { plan .loaded with image := { (plan .loaded).image with params := [⟨0, 7, 4, 0x44⟩] } }
    let b := fun (v len : Nat) => put 32 [(0, 0x42505053), (4, 1), (6, 1), (8, len), (16, v)]
    absent Op.planStart 0 [2] (isOp Op.planStart) ∧ absent Op.planCancel 0 [2] (isOp Op.planCancel) ∧
    absent Op.planUnload 0 [2] (isOp Op.planUnload) ∧ absent Op.planStatus 0 [2] (isOp Op.planStatus) ∧
    absent Op.flowRelease 0 [2, 0, 0] (fun c => isOp Op.flowRelease c && cmdArg c 2 == 0) ∧
    absent Op.flowRelease 0 [2, 0, 1] (fun c => isOp Op.flowRelease c && cmdArg c 2 == 1) ∧
    absent Op.bindVector 1 [9, 2, 0, 0] (fun c => isOp Op.bindVector c && !bitOf (cmdArg c 3) 0) ∧
    absent Op.bindVector 1 [9, 2, 0, 1] (fun c => isOp Op.bindVector c && bitOf (cmdArg c 3) 0) ∧
    (let s := planned (plan .loaded) Op.planStart 0 [2, 2]
     let a := c Op.planStart [2, 2]
     s.begins P3 (isOp Op.planStart) a ∧ cmdLen a.cmd = 0 ∧ s.notReady a.cmd = false ∧
     (s.set F.RDY_STATUS_ENGINE 0).begins P3 (isOp Op.planStart) a ∧ (s.set F.RDY_STATUS_ENGINE 0).notReady a.cmd = true ∧
     s.handlePlan (cmdArg a.cmd 0) = some (2, plan .loaded) ∧ (plan .loaded).image.params.length = 0 ∧
     (plan .loaded).state = .loaded ∧ (plan .running).state ≠ .loaded) ∧
    (let a := acc P3 (line Op.planStart 0 3 32 8192 [2, 2])
     let s := planned n Op.planStart 32 [2, 2]
     s.begins P3 (isOp Op.planStart) a ∧ cmdLen a.cmd = 32 ∧ n.image.params.length = 1 ∧
     brings s a 16 (.bytes (b 0 48)) (fun _ h => leField h 8 4 != 32) = true ∧
     declares s a 16 (fun h => leField h 8 4) (b 0 32) (fun w d => d == b 0 32 &&
       decide (w.handlePlan (cmdArg a.cmd 0) = some (2, n))) = true ∧
     declares (planned (plan .loaded) Op.planStart 32 [2, 2]) a 16 (fun h => leField h 8 4) (b 0 32) (fun _ _ => true) = true ∧
     blockHeaderFail (b 0 32) 1 = none ∧ blockHeaderFail (put 32 [(8, 32)]) 1 = some 0 ∧
     (match n.image.withParams (b 0 32), n.image.withParams (b (2 ^ 32) 32) with
      | .ok _, .error o => o == 16
      | _, _ => false) = true) ∧
    (let s := planned (plan .running) Op.planStatus 0 [2]
     s.begins P3 (isOp Op.planStatus) (c Op.planStatus [2]) ∧
     s.handlePlan (cmdArg (c Op.planStatus [2]).cmd 0) = some (2, plan .running)) := by
  decide +kernel

/-- The plan with its first SCAN flow held. -/
def holding (st : PlanState) : Plan :=
  { plan st with ops := [{ OpRun.blank with flows := [{ FlowRun.blank with held := true, err := 0x0301 }, FlowRun.blank] },
    { OpRun.blank with flows := [FlowRun.blank] }] }

/-- PLAN_CANCEL and PLAN_UNLOAD of a plan in each state; a teardown with a read outstanding and without; bindings; SPILL_CONFIG
with and without a plan that runs. -/
theorem witness_PlansEnd :
    let on := fun (p : Plan) (op : Nat) (args : List Nat) (f : Line → Bool) =>
      decide ((planned p op 0 args).nextCmd P3 f = some (acc P3 (line op 0 3 0 8192 args))) &&
      decide ((planned p op 0 args).handlePlan (cmdArg (line op 0 3 0 8192 args) (if op = Op.bindVector then 1 else 0)) = some (2, p))
    (acc P3 0).record = none ∧ on (plan .loaded) Op.planCancel [2] (isOp Op.planCancel) = true ∧
    on (plan .cancelling) Op.planCancel [2] (isOp Op.planCancel) = true ∧
    on (plan .running) Op.planCancel [2] (isOp Op.planCancel) = true ∧
    (((planned (plan .running) Op.planCancel 0 [2]).tearDown 2 (CC.aborted, 1)).plan? 2).isSome = true ∧
    (let s := planned (plan .cancelling) Op.planStatus 0 [2]
     s.plan? 2 = some (plan .cancelling) ∧ s.planReads 2 = false ∧
     (en s (fun e => { e with tillers := [(2, ⟨none, 0, false, some ⟨none, 2, 1, 0, 8, [], [], []⟩⟩)] })).planReads 2 = true) ∧
    on (plan .running) Op.planUnload [2] (isOp Op.planUnload) = true ∧
    on (plan .loaded) Op.planUnload [2] (isOp Op.planUnload) = true ∧
    on (plan .loaded) Op.bindVector [9, 2, 0, 0] (fun c => isOp Op.bindVector c && !bitOf (cmdArg c 3) 0) = true ∧
    on (plan .loaded) Op.bindVector [9, 2, 0, 1] (fun c => isOp Op.bindVector c && bitOf (cmdArg c 3) 0) = true ∧
    on (plan .running) Op.spillConfig [2] (isOp Op.spillConfig) = true ∧
    on (plan .loaded) Op.spillConfig [2] (isOp Op.spillConfig) = true := by
  decide +kernel

/-- A block of one uint32 value from a row on. -/
def oneRow (v first : Nat) : List Byte := writeBlock 7 0 [.num v] first none

/-- An APPEND_BLOCK of pair 3 of 96 bytes, and the part with the plan's tables as changed. -/
def appends (table col : Nat) : Accepted := acc P3 (line Op.appendBlock 0 3 96 8192 [table, col])
def appending (f : Attached → Attached) (a : Accepted) : State :=
  withCmd (en engine (fun e => { e with tables := (parseImage image0).tables.map (fun d => f (freshTable d 3)) })) a

/-- An accepted block of an attached table, where it can be told. -/
def acceptedIs (s : State) (first : Nat) (f : State → Attached → Accepted0 → Bool) : Bool :=
  match s.table? 1 with
  | some t => (match s.acceptedBlock t 0 first with
    | (v, .ok old) => f v t old
    | _ => false)
  | none => false

/-- Flows that the plan has not, that are not held, that are held with and without a task to stop; APPEND_BLOCKs with no staging
buffer, of another length, not ready, to no table, to a RESULT table and of a column that is not there; a block for the wrong row, one
accepted before, one of another open row range, one without room, and one that is written. -/
theorem witness_PlansEndAndFlowsAreReleased :
    let on := fun (p : Plan) (cancel : Nat) =>
      decide ((planned p Op.flowRelease 0 [2, 0, cancel]).nextCmd P3 (fun c => isOp Op.flowRelease c && cmdArg c 2 == cancel) =
        some (acc P3 (line Op.flowRelease 0 3 0 8192 [2, 0, cancel]))) &&
      decide ((planned p Op.flowRelease 0 [2, 0, cancel]).handlePlan 2 = some (2, p))
    let stopped := { task 5 .stopped [] with plan := 2, flow := 0, err := 0x0301 }
    let p := holding .running
    (on p 0 = true ∧ on p 1 = true ∧ on (holding .loaded) 1 = true ∧
     p.locate 3 = none ∧ p.locate 0 = some (0, 0) ∧ p.locate 1 = some (0, 1) ∧ ((p.run 0).flow 0).held = true ∧
     ((p.run 0).flow 1).held = false ∧ p.state = .running ∧ (holding .loaded).state ≠ .running) ∧
    (let s := planned p Op.flowRelease 0 [2, 0, 0]
     let t := en s (fun e => { e with tasks := [stopped] })
     t.unreleasable p 2 0 0 = true ∧ s.unreleasable p 2 0 0 = false ∧ s.eng.tasks = [] ∧
     t.eng.tasks.find? (fun t => t.plan == 2 && t.op == 0 && t.index == 0 && t.state == .stopped) = some stopped) ∧
    (let a := appends 1 0
     let s := appending id a
     let big := { acc .admin (line Op.flashSubmit 0 3 64 0x4000 [0x9000, 4096 * 4096]) with begun := true, id := 4 }
     let full : State := { s with mbx := { s.mbx with accepted := [big, a] } }
     let fits := fun (s : State) => declares s a 96 (blockLength a) (oneRow 5 0) (fun w b => b == oneRow 5 0 &&
       w.eng.appends.isEmpty && !w.appendsEnd)
     s.eng.appends = [] ∧ s.begins P3 (isOp Op.appendBlock) a ∧ s.canStage = true ∧ a.waits = [] ∧ fits s = true ∧
     full.eng.appends = [] ∧ full.begins P3 (isOp Op.appendBlock) a ∧ full.canStage = false ∧
     (let short := acc P3 (line Op.appendBlock 0 3 104 8192 [1, 0])
      (appending id short).begins P3 (isOp Op.appendBlock) short ∧
      brings (appending id short) short 96 (.bytes (oneRow 5 0)) (fun _ h => blockLength short h != 104) = true) ∧
     brings (s.set F.RDY_STATUS_GRN_LAZY 0) a 96 (.bytes (oneRow 5 0)) (fun v h => blockLength a h == 96 && v.notReady a.cmd) = true ∧
     (appending id (appends 3 0)).table? 3 = none ∧
     ((appending id (appends 2 0)).table? 2).map (fun t => t.decl.role) = some Role.result ∧
     (s.table? 1).map (fun t => (t.decl.role, t.decl.types.length)) = some (Role.ingest, 1) ∧
     (appending id (appends 1 1)).begins P3 (isOp Op.appendBlock) (appends 1 1) ∧ cmdArg (appends 1 1).cmd 1 % 65536 = 1) ∧
    acceptedIs (appending id (appends 1 0)) 7 (fun v t old => (match checkAppend t 0 old (oneRow 5 7) (v.flag F.CBV_CTL_CRC_REQ) with
      | .error _ => true
      | .ok _ => false)) = true ∧
    acceptedIs (appending id (appends 1 0)) 0 (fun v t old => (match checkAppend t 0 old (oneRow 5 0) (v.flag F.CBV_CTL_CRC_REQ) with
      | .error _ => false
      | .ok _ => true) && old.bytes.isNone && t.opened.isEmpty && (t.full 96 t.columnsLeft).isNone) = true ∧
    acceptedIs (appending (fun t => { t with decl := { t.decl with areaLen := 0 } }) (appends 1 0)) 0 (fun _ t old => old.bytes.isNone &&
      t.full 96 t.columnsLeft == some 1) = true ∧
    (let b := oneRow 5 0
     let old : OpenBlock := ⟨0, 0, 1, 0, 96, 0, 0⟩
     let s := gr (appending (fun t => { t with next := [1], opened := [old] }) (appends 1 0)) (fun g => { g with landing := [
       ⟨64, BitVec.ofNat 512 (ofLeBytes (b.take 64)), false⟩, ⟨65, BitVec.ofNat 512 (ofLeBytes (b.drop 64)), false⟩] })
     acceptedIs s 0 (fun v t old => old.bytes == some b && (match checkAppend t 0 old b (v.flag F.CBV_CTL_CRC_REQ) with
       | .error _ => false
       | .ok _ => true)) = true) ∧
    acceptedIs (appending (fun t => { t with decl := { t.decl with area := 0x400, dir := 0x800 } }) (appends 1 0)) 0 (fun v t _ =>
      let r := t.append 0 (oneRow 5 0)
      let q := (v.begin (appends 1 0)).mapEng (fun e => { e with appends := [⟨5, oneRow 5 0, none, false⟩] })
      let u := ((q.bump C.cbvChecked).setTable r.1).setAppend ⟨5, oneRow 5 0, some ⟨t, r.2, 1, 0⟩, false⟩
      r.2.all (fun l => !l.lines.any (u.lineAhead (appends 1 0))) &&
      (match u.performWrites (appends 1 0).waiter (u.mailboxCtx P3) r.2 with
       | (_, _, .ok _) => true
       | _ => false)) = true := by
  decide +kernel
/-! ### The scheduler -/

/-- The plan of `image0` running on a node of eight tillers, its culm as given, one task on tiller 2. -/
def scheduled (held : List Nat) (t : Machine.Task) : State :=
  let m := parseImage image0
  en engine (fun e => { e with
    nodes := [(0, { Node.blank with count := 8 })], plans := [(2, plan .running)], tasks := [t],
    culms := [(0, { plan := 2, index := 0, decl := m.culms.headD ⟨0, 0, 0, 0, 0, 0, false, false⟩, queue := [], held := held, ended := false })],
    tillers := if t.state = .running then [(2, ⟨some 5, 0, false, none⟩)] else [] })

/-- A task of the plan's SCAN: ready, or in service. -/
def job (st : TaskState) : Machine.Task := { task 5 st [] with plan := 2, flow := 0, began := false, tkind := 1 }

/-- A tiller that pulls a task, one that finds none, and one that is busy. -/
theorem witness_TasksAreDispatched :
    let r := scheduled [] (job .ready)
    let b := scheduled [] (job .running)
    tillerOk 2 = true ∧ r.dispatching = true ∧ r.idle 2 = true ∧ r.live? 2 = true ∧ State.reset.dispatching = false ∧
    r.freshTillers.filter (fun i => decide (i < 2)) = [] ∧ b.freshTillers.filter (fun i => decide (i < 3)) = [] ∧
    b.dispatching = true ∧ b.live? 3 = true ∧
    (r.setTiller 2 { r.tiller 2 with fresh := false }).eligibleTasks.find?
      (fun k => ((r.setTiller 2 { r.tiller 2 with fresh := false }).servers k).contains 2) = some (job .ready) ∧
    (b.setTiller 3 { b.tiller 3 with fresh := false }).eligibleTasks = [] ∧ b.idle 3 = true ∧ b.idle 2 = false := by
  decide +kernel

/-- A task in service pushes what it can, is still running, and a condition holds of what that leaves. -/
def drained (s : State) (k : Machine.Task) (f : State → Machine.Task → Bool) : Bool :=
  s.serviced 2 == some k && (match (s.drain k).task? k.id with
    | some v => decide (v.state = .running) && f (s.drain k) v
    | none => false)

/-- Yield points with nothing in service, with a task asked to yield, one whose output is all pushed, one without credit and
one held by the spill quota. -/
theorem witness_TasksYield :
    let k := job .running
    let a := { k with asked := true }
    let w := { k with todo := [.row 0 0 0 []] }
    let q := { k with todo := [.mark 0] }
    (scheduled [] (job .ready)).serviced 2 = none ∧
    drained (scheduled [] a) a (fun _ v => v.asked) = true ∧
    drained (scheduled [] k) k (fun _ v => !v.asked && v.todo.isEmpty) = true ∧
    drained (scheduled (List.range 16) w) w (fun u v => !v.asked && v.todo == [.row 0 0 0 []] && u.wantsCredit v == some 0) = true ∧
    drained (en (scheduled [] q) (fun e => { e with quota := true, plans := [(2, { plan .running with cls := 2 })] })) q
      (fun u v => !v.asked && v.todo == [.mark 0] && u.wantsCredit v == none) = true := by
  decide +kernel

/-- Ends of tasks that have pushed all and that have not; tasks that have starved and not. -/
theorem witness_TasksAreDispatchedAndEnd :
    let k := job .running
    let e := { k with done := true }
    let b := scheduled [] e
    let r := scheduled [] (job .ready)
    k.done = false ∧ (scheduled [] k).serviced 2 = some k ∧ b.serviced 2 = some e ∧ e.todo = [] ∧ e.fills = [] ∧
    ((e.gifts.foldl (fun u g => u.releaseBuffer g.1 g.2)
      (((b.traceTask Ev.finish e (e.pushed.foldl (· + ·) 0)).leaveTiller e).removeTask e)).plan? e.plan).isSome = true ∧
    r.dispatching = true ∧ r.eng.tasks.find? (fun t => t.slot == some 5) = some (job .ready) ∧ (job .ready).promoted = false ∧ 2 ≤ (job .ready).cls ∧
    r.get F.SCH_CTL_STARVE_MS ≠ 0 ∧ (job .ready).readyAt + r.get F.SCH_CTL_STARVE_MS * 1000000 < r.now ∧
    b.eng.tasks.find? (fun t => t.slot == some 5) = some e ∧ e.state ≠ .ready := by
  decide +kernel

/-- Searches that find a held flow and none; window-close firings that
are discarded, that wait and that are accepted. -/
theorem witness_TheSchedulerSearchesAndAccepts :
    (let s := fun (p : Plan) => en engine (fun e => { e with plans := [(2, p)] })
     (s (holding .running)).mainUp = true ∧ bitsOf (2 * 2 ^ 24) 31 24 = 2 ∧ (s (holding .running)).plan? 2 = some (holding .running) ∧
     0 < (holding .running).flowCount ∧ (holding .running).locate 0 = some (0, 0) ∧
     (((holding .running).run 0).flow 0).held = true ∧
     ((List.range (plan .running).flowCount).all (fun i => ((plan .running).locate i).all
       (fun x => !(((plan .running).run x.1).flow x.2).held))) = true) ∧
    (let w := fun (held : Bool) => { plan .running with
       image := { (plan .running).image with ops := [{ OpRec.blank with kind := Kind.windowAgg, flows := 1 }] },
       ops := [{ OpRun.blank with flows := [{ FlowRun.blank with held := held }] }] }
     let s := fun (p : Plan) => fired (en engine (fun e => { e with plans := [(2, p)] })) 1 (2 * 65536)
     let f : Firing := ⟨3, 1, 0, 2 * 65536, false, 5⟩
     (s (w false)).get F.FT_STATUS_STATE = Ft.running ∧ (s (w false)).tillersRun = true ∧ State.reset.tillersRun = false ∧
     (s (w true)).cal.firings = [f] ∧ ((s (w true)).firingCase f).stays = true ∧
     (s (w false)).cal.firings.find? (fun g => g.target == 1 && !((s (w false)).firingCase g).stays) = some f ∧
     (s (plan .running)).cal.firings.find? (fun g => g.target == 1 && !((s (plan .running)).firingCase g).stays) = some f ∧
     (match (s (w false)).firingCase f, (s (plan .running)).firingCase f with
      | .accept a b, .discard => a == 2 && b == 0
      | _, _ => false) = true) := by
  decide +kernel
/-! ### Operators -/

/-- An operator of a kind with its input on culm 0, and its output nowhere. -/
def operator (kind : Nat) : OpRec := { OpRec.blank with kind := kind, flows := 1, ins := [0, 0, noIndex, noIndex] }

/-- A plan of one operator in slot 2 whose task is in service on tiller 2, and the references that wait on its culm. -/
def working (o : OpRec) (t : Machine.Task) (q : List Ref) (tables : List TableDecl) : State :=
  let m : Image := ⟨false, false, 0, 0, 0, [o], [⟨0, 0, 0, 0, 4, 16, false, false⟩], tables, [], []⟩
  let r := { OpRun.blank with flows := [{ FlowRun.blank with st := { FlowState.blank with ranges := [[], []] } }] }
  let p := { plan .running with image := m, nodes := [0], culms := [0], ops := [r] }
  en engine (fun e => { e with
    plans := [(2, p)], tasks := [t], tillers := [(2, ⟨some 5, 0, false, none⟩)],
    culms := [(0, { plan := 2, index := 0, decl := ⟨0, 0, 0, 0, 4, 16, false, false⟩, queue := q, held := [], ended := false })] })

/-- A task of the operator in service: its kind and port. -/
def serving (tkind port : Nat) : Machine.Task := { task 5 .running [] with plan := 2, flow := 0, tkind := tkind, port := port }

/-- A reference for that task: a batch of one row without columns in buffer 3, or another kind. -/
def reference (kind : RefKind) : Ref :=
  { kind := kind, flow := 0, count := 1, len := 0, targets := [⟨0, some 0⟩],
    batch := if kind = .data then some { part := 0, rowId := 0, tag := 0, rows := [[]], buf := 3 } else none }

/-- A step that goes as far as the task's own work: the task is in service, nothing injects, no read was spoilt, nothing waits to be
pushed. -/
def atWork (s : State) (t : Machine.Task) : Bool :=
  s.serviced 2 == some t && !(s.tillerChecks 2 t).1 && t.spoilt.isNone &&
  (((s.tillerChecks 2 t).2.drainYield t).task? t.id) == some t && t.todo.isEmpty && !t.done

/-- With the state of the task's flow changed. -/
def flowing (s : State) (f : FlowState → FlowState) : State := s.mapFlow 2 0 0 (fun r => { r with st := f r.st })

/-- Block tasks of every operator with a batch, a mark, a block end and nothing in front; a join's build with and without UNIQUE; its
probe with a table split, not split, in scratch and not there; a window operator that closes at the block's end; a broadcast; a row
that fails under UNIQUE, a poisoned buffer, a spoilt read, and tillers without a task and with another operator's. -/
theorem witness_BlockTasksTakeTheirInput :
    tillerOk 2 = true ∧ (scheduled [] (job .ready)).serviced 2 = none ∧
    ([(Kind.filter, 0), (Kind.compute, 0), (Kind.hashJoin, 0), (Kind.hashJoin, 1), (Kind.sort, 0), (Kind.hashAgg, 0),
      (Kind.sortedAgg, 0), (Kind.windowAgg, 0), (Kind.topk, 0), (Kind.exchange, 0), (Kind.merge, 0)].all (fun x =>
        let t := serving 0 x.2
        let s := working (operator x.1) t []
        isBlock x.1 t (operator x.1) && (s []).opRec t == operator x.1 && atWork (s []) t && (s []).nextRef t == none)) = true ∧
    ([RefKind.data, .blockEnd, .mark].all (fun x =>
      (working (operator Kind.sort) (serving 0 0) [reference x] []).nextRef (serving 0 0) == some (0, reference x))) = true ∧
    ([put 56 [(0x32, 1)], put 56 []].map (fun p => ({ operator Kind.hashJoin with par := p } : OpRec).unique)) = [true, false] ∧
    (let s := working (operator Kind.hashJoin) (serving 0 1) [] []
     (s.st (serving 0 1)).mode = 0 ∧ (serving 0 1).scratch = none ∧
     ((flowing s (fun f => { f with mode := 2 })).st (serving 0 1)).split = false ∧
     ((flowing s (fun f => { f with mode := 2, split := true })).st (serving 0 1)).split = true ∧
     (let k := { serving 0 1 with scratch := some [[]] }
      atWork (working (operator Kind.hashJoin) k [] []) k = true)) ∧
    (let o := { operator Kind.windowAgg with par := put 96 [(0x33, 1)] }
     o.timeData = true ∧ (operator Kind.windowAgg).timeData = false ∧
     ((working o (serving 0 0) [reference .blockEnd] []).nextRef (serving 0 0)).any (fun r => r.2.kind == .blockEnd) = true) ∧
    (let o := { operator Kind.exchange with par := put 56 [(0x30, 1)] }
     o.broadcast = true ∧ (operator Kind.exchange).broadcast = false ∧
     atWork (working o (serving 0 0) [reference .data] []) (serving 0 0) = true) ∧
    (en (working (operator Kind.sort) (serving 0 0) [reference .data] []) (fun e => { e with poisoned := [3] })).eng.poisoned.contains 3 = true ∧
    (let k := { serving 0 0 with spoilt := some 2 }
     let s := working (operator Kind.sort) k [] []
     s.serviced 2 = some k ∧ (s.tillerChecks 2 k).1 = false ∧ k.spoilt = some 2) ∧
    (let s := fun (o : OpRec) => working o (serving 0 0) [reference .data] []
     let w := fun (row : State → Machine.Task → RowWork) (o : OpRec) =>
       (Work.rows (row (s o) (serving 0 0)) 0 (Work.start (s o) FlowState.blank) [[]]).fail
     w exchangeRow (operator Kind.exchange) = none ∧ w sortRow (operator Kind.sort) = none ∧
     (w (buildRow [[]]) { operator Kind.hashJoin with par := put 56 [(0x32, 1)] }).isSome = true ∧
     isBlock Kind.filter (serving 0 0) ((s (operator Kind.sort)).opRec (serving 0 0)) = false) ∧
    ([(Kind.windowAgg, 2), (Kind.merge, 3), (Kind.hashJoin, 3), (Kind.topk, 3), (Kind.sort, 3)].all (fun x =>
      atWork (working (operator x.1) (serving x.2 0) [] []) (serving x.2 0))) = true ∧
    unsorted (fun _ _ => .lt) 0 (some []) [[]] = some 0 ∧ unsorted (fun _ _ => .eq) 0 (some []) [[]] = none := by
  decide +kernel

/-- End-of-stream work: of a join behind an earlier task of it and before all others; of a sort of one run, and of 17, at the first
run, at the last and past it. -/
theorem witness_EndOfStreamWork :
    (let t := serving 3 0
     let s := working (operator Kind.hashJoin) t [] []
     (s.tasksOf 2 0).any (fun v => v.tkind == 3 && decide (v.seq < t.seq)) = false ∧
     (let u := { t with seq := 1 }
      let v := en (working (operator Kind.hashJoin) u [] []) (fun e => { e with tasks := [u, { serving 3 0 with id := 4 }] })
      atWork v u = true ∧ (v.tasksOf 2 0).any (fun v => v.tkind == 3 && decide (v.seq < u.seq)) = true)) ∧
    (let run := fun (i : Nat) => (⟨0, i, 64 * i, [], 1⟩ : Chunk)
     let s := fun (n k : Nat) => flowing (working (operator Kind.sort) (serving 3 0) [] [])
       (fun f => { f with chunks := (List.range n).map run, klog := k })
     let runs := fun (n k : Nat) => ((((s n k).st (serving 3 0)).sortRuns.drop k).take 16).length
     decide ((((s 1 0).st (serving 3 0)).sortRuns.length + natOfBool (!((s 1 0).st (serving 3 0)).rows.isEmpty)) ≤ 16) = true ∧
     decide ((((s 17 0).st (serving 3 0)).sortRuns.length + natOfBool (!((s 17 0).st (serving 3 0)).rows.isEmpty)) ≤ 16) = false ∧
     runs 17 0 = 16 ∧ runs 17 16 = 1 ∧ runs 17 17 = 0) := by
  decide +kernel

/-- A table of LOCATION 2 with one time column, its head at 0x30000 and its directory at 0x10000. -/
def hostTable : TableDecl :=
  { id := 1, role := Role.ingest, loc := 2, timeCol := 0, head := 0x30000, area := 0x20000, areaLen := 64, dir := 0x10000,
    dirLen := 8, types := [0x0E] }

/-- A SCAN task of stripe 0 that has read the table's head, its directory entry and the stripe's record, whose times end at 5. -/
def scanning : Machine.Task :=
  { serving 1 0 with data := [⟨0, 0x30000, put 64 [(0, 0x48545053), (4, 1), (5, 1), (6, 1), (8, 1)]⟩,
    ⟨0, 0x10000, leBytes 8 0x20000⟩,
    ⟨0, 0x20000, put 64 [(0, 0x54535053), (4, 1), (6, 1), (8, 1), (0x18, 5), (0x20, 5), (48, 64), (56, 96), (60, 0x0E)]⟩] }

/-- The SCAN operator over that table from time `lo` on. -/
def scan (lo : Nat) : OpRec := { operator Kind.scan with table := 0, par := put 112 [(0x38, lo)] }

/-- The block of the time column: one row, 5. -/
def timeBlock : List Byte := writeBlock 0x0E 0 [.num 5] 0 none

/-- A scan that has read the head and finds its stripe, one whose task is past the end, one in the range and one whose times end
before it, one that has not read the head yet, one with a cursor, whose block comes, is not there yet, and lies on a page that is not
translated; a poll that is due and one that is not; MATERIALIZE with a stripe in progress, one due, and rows to take. -/
theorem witness_TablesAreScannedAndWritten :
    (let s := working (scan 5) scanning [] [hostTable]
     let o := scan 5
     atWork s scanning = true ∧ (s.plan? 2).map (fun p => p.image.tables[(p.opAt 0).table]?) = some (some hostTable) ∧
     scanning.scan = none ∧ scanning.arg = 0 ∧
     (match s.scanHead scanning hostTable, s.scanHead { scanning with data := [] } hostTable,
        s.scanFind scanning o hostTable, s.scanFind scanning (scan 6) hostTable, s.scanFind { scanning with data := [] } o hostTable with
      | (_, .ok 1), (_, .error _), (_, .ok (some _)), (_, .ok none), (_, .error _) => true
      | _, _, _, _, _ => false) = true ∧ 1 ≤ { scanning with arg := 1 }.arg) ∧
    (let rec_ := put 64 [(0, 0x54535053), (4, 1), (6, 1), (8, 1), (0x18, 5), (0x20, 5), (48, 64), (56, 96), (60, 0x0E)]
     let cur : ScanCursor := ⟨0x20000, rec_, [], 0⟩
     let k := { serving 1 0 with scan := some cur, data := [⟨0, 0x20040, timeBlock⟩] }
     let s := working (scan 5) k [] [hostTable]
     atWork s k = true ∧ timeBlock.length = 96 ∧
     (match s.scanBlock k hostTable 0x20000 (stripeRec rec_ 1) 0, s.scanBlock { k with data := [] } hostTable 0x20000 (stripeRec rec_ 1) 0,
        (atsUp s).scanBlock k hostTable 0x20000 (stripeRec rec_ 1) 0 with
      | (_, .ok [_]), (_, .error .pending), (_, .error (.park _)) => true
      | _, _, _ => false) = true) ∧
    (let o := { operator Kind.scan with table := 0, par := put 112 [(0x32, 1), (0x34, 1000)] }
     let s := working o (serving 1 0) [] [hostTable]
     o.scanFollow = true ∧ s.tillersRun = true ∧ 0 + 1000 * o.pollUs ≤ s.now ∧ (s.plan? 2).map (fun p => p.state) = some .running ∧
     headFail hostTable (put 72 [(0, 0x48545053), (4, 1), (5, 1), (6, 1), (8, 1)]) = none ∧ headFail hostTable [] = some 1 ∧
     (working (operator Kind.sort) (serving 0 0) [] [hostTable]).plan? 2 ≠ none) ∧
    (let o := { operator Kind.materialize with table := 0, par := put 56 [(0x30, 2)] }
     let t := serving 0 0
     let s := working o t [reference .data] [hostTable]
     let f := serving 3 0
     atWork s t = true ∧ o.blockRows = 2 ∧ s.stripeDue t o = none ∧
     (flowing s (fun st => { st with ranges := [[[], []], []] })).stripeDue t o = some 0 ∧
     s.nextRef { t with part := 0 } = some (0, reference .data) ∧ s.eng.poisoned.contains 3 = false ∧
     (working o t [] [hostTable]).nextRef { t with part := 0 } = none ∧
     atWork (working o f [] [hostTable]) f = true ∧ (working o f [] [hostTable]).stripeDue f o = none ∧
     ((flowing (working o f [] [hostTable]) (fun st => { st with ranges := [[[]], []] })).stripeDue f o = none) ∧
     (takeRows FlowState.blank 0 2 [[], [], []]).2 = 2 ∧
     (takeRows { FlowState.blank with ranges := [[], []] } 0 2 [[]]).2 = 1) := by
  decide +kernel
/-! ### The management plane -/

/-- A vendor request to this endpoint: its command and payload. -/
def vendor (n : Nat) (p : List Byte) : VendorMsg := ⟨0, 0x21, 3, 1, BitVec.ofNat 8 n, 0, 0, BitVec.ofNat 16 p.length, p⟩

/-- A core that answers, with ALERT_N driven or not, and one that does not answer; operands of both kinds. -/
theorem witness_MctpControlIsAnswered :
    on.answering = true ∧ State.reset.answering = false ∧
    (8 ≤ (MctpControl.mk 0 8).eid.toNat ∧ (MctpControl.mk 1 254).eid.toNat ≤ 254 ∧ (MctpControl.mk 1 255).eid.toNat = 255 ∧
      (MctpControl.mk 0 7).eid.toNat < 8 ∧ 1 < (MctpControl.mk 2 9).operation.toNat) ∧
    let s := (pw State.reset (fun p => { p with aux := true })).setAll [(F.MGT_STATUS_ANSWERING, 1), (F.MGT_ALERT_TEMP, 1)]
    s.answering = true ∧ s.alertN = true ∧ s.statusFollows :=
  ⟨by decide +kernel, by decide +kernel, by decide, by decide +kernel, by decide +kernel,
    by constructor <;> (unfold State.shows; decide +kernel)⟩

/-- With another management core. -/
def mg (s : State) (f : Mgmt → Mgmt) : State := { s with mgt := f s.mgt }

/-- With the core held in block reset. -/
def inReset (s : State) : State := { s with hub := { s.hub with mgmtReset := true } }

/-- Bytes of zeros. -/
def zeros (n : Nat) : List Byte := List.replicate n 0

/-- A core that answers and one in block reset, with room and without; each command with a whole payload, a short one and a
bad head, at the bounds of its arguments. -/
theorem witness_VendorMessagesAndTelemetry_messages :
    (on.pwr.aux = true ∧ on.hub.mgmtReset = false ∧ on.pwr.hold = true ∧ on.pwr.main = true) ∧
    ((inReset on).hub.mgmtReset = true ∧ (inReset on).mgt.queue.length < 4) ∧
    4 ≤ (mg (inReset on) (fun g => { g with queue := List.replicate 4 (vendor 1 []) })).mgt.queue.length ∧
    (∀ n ∈ List.range 12, (vendor n []).command.toNat = n ∧ (vendor n []).dest = 0 ∧ (vendor n []).version = 1 ∧
      (vendor n []).rsvd = 0 ∧ (vendor n []).cc = 0) ∧
    { vendor 1 [] with version := 2 }.version ≠ 1#8 ∧
    (vendor 8 (zeros 23)).payload.length < 24 ∧ (vendor 8 (zeros 24)).len.toNat = 24 ∧
    (let m := vendor 4 [62, 16];
      msgArg m 0 1 < 64 ∧ 1 ≤ msgArg m 1 1 ∧ msgArg m 1 1 ≤ 16) ∧
    (let m := vendor 5 (zeros 32 ++ [1] ++ zeros 7);
      m.payload.length = 40 ∧ m.len.toNat = 40 ∧ msgArg m 32 1 = 1 ∧ msgArg m 33 7 = 0) ∧
    (let m := vendor 6 [60, 4];
      msgArg m 0 1 < 64 ∧ 1 ≤ msgArg m 1 1 ∧ msgArg m 0 1 + msgArg m 1 1 ≤ 64) ∧
    (let m := vendor 7 [255, 255, 255, 255, 7, 0, 0, 0];
      1 ≤ msgArg m 4 1 ∧ msgArg m 4 1 ≤ 7 ∧ msgArg m 5 3 = 0) ∧
    (∀ b ∈ [[0xE0#8, 3#8], [0xFF#8, 3#8]], let m := vendor 8 (b ++ [1, 1] ++ zeros 20);
      m.payload.length = 24 ∧ m.len.toNat = 24 ∧ 992 ≤ msgArg m 0 2 ∧ msgArg m 0 2 ≤ 1023 ∧ msgArg m 3 1 < 2 ∧
      msgArg m 4 4 = 0) ∧
    (9#8).toNat = (on.set F.MGT_STATUS_EID 9).get F.MGT_STATUS_EID := by
  decide +kernel

/-- Supplies down, the latch set, a dump, a request that waits. -/
theorem witness_VendorMessagesAndTelemetry_commands :
    (let s := pw on (fun p => { p with hold := false });
      s.pwr.aux = true ∧ s.hub.mgmtReset = false ∧ s.pwr.hold = false) ∧
    (live.grnServes = true ∧ live.pwr.failed = false ∧ live.latched = false ∧ live.grnState ≠ Grn.dumping ∧ live.pwr.request = none) ∧
    (live.set F.FLT_PERSIST_LATCHED 1).latched = true ∧
    (let s := live.set F.GRN_STATE_STATE 4;
      s.grnServes = false ∧ s.grnState = Grn.dumping) ∧
    (live.pwr.main && live.flag F.RDY_STATUS_DRAM) = true ∧ (on.pwr.main && on.flag F.RDY_STATUS_DRAM) = false ∧
    (vendor 0 []).command = 0 ∧ 10 < (vendor 11 []).command.toNat := by
  decide +kernel

/-- A sensor that does not exist, one whose supply is off, one with and one without a reading. -/
theorem witness_VendorMessagesAndTelemetry_sensors :
    on.answering = true ∧ sensorDomain 5 = none ∧ sensorDomain 4 = some .hold ∧ sensorDomain 63 = none ∧
    sensorDomain 0 = some .main ∧ (pw on (fun p => { p with main := false })).answering = true ∧
    (pw on (fun p => { p with main := false })).domainUp .main = false ∧ on.domainUp .main = true ∧ on.domainUp .hold = true ∧
    on.sensorValue 0 (some 0x650#16) = some 0x650 ∧ on.sensorValue 0 none = none := by
  decide +kernel

/-- A sample that is due, with telemetry on and off, and none; MAIN up. -/
theorem witness_VendorMessagesAndTelemetry_samples :
    let takes := fun (s : State) (f : Firing → State → Bool) => match s.takeSlot 8 with
      | some (g, u) => f g u
      | none => false
    takes (fired (live.set F.TEL_CTL_EN 1) 8 15) (fun f u => f.arg == 15 && u.flag F.TEL_CTL_EN && u.flag F.RDY_STATUS_DRAM) = true ∧
    takes (fired live 8 1) (fun _ u => !(u.flag F.TEL_CTL_EN && u.flag F.RDY_STATUS_DRAM)) = true ∧
    (live.takeSlot 8).isNone = true ∧ live.mainUp = true ∧ live.get F.TEL_CTL_EN = 0 ∧
    (live.set F.TEL_CTL_EN 1).get F.TEL_CTL_EN = 1 := by
  decide +kernel
end Sys2Proof.Tests
end

/-! SUPPORT. Every command answers a next state brought up to date by the settling, or stops because no sender can form it. -/

namespace Sys2Proof.Machine

/-! ### Commands stop only ill-formed -/

/-- The outcome of a command that stops nowhere: a next state, brought up to date by the settling (R465). -/
def Settled (o : Host.Outcome State Fault Refusal) : Prop := ∃ old new, o = done old new

namespace Settled

variable {o f : Host.Outcome State Fault Refusal}

theorem done (old new : State) : Settled (Machine.done old new) := ⟨old, new, rfl⟩

theorem answers (h : Settled o) : ∃ t, o = .next t := by
  obtain ⟨old, new, rfl⟩ := h
  exact ⟨_, rfl⟩

theorem of_checked {ok : Bool} (h : ok = true) (ho : Settled o) : Settled (if ok then o else f) := by
  rwa [if_pos h]

theorem of_not_refused {ok : Bool} (h : ok = true) (ho : Settled o) : Settled (if !ok then f else o) := by
  rwa [h, if_neg Bool.noConfusion]

end Settled

theorem reinitialise_settled (old mid : State) : Settled (reinitialise old mid) := by
  unfold reinitialise
  dsimp only
  split
  · exact Settled.done _ _
  · split
    · exact Settled.done _ _
    · exact Settled.done old mid

theorem cxlDo_settled (s : State) (f : State → State) : Settled (cxlDo s f) := by
  unfold cxlDo
  split
  · exact Settled.done _ _
  · split <;> exact Settled.done _ _

/-- Apart from the other guarded commands: with its `let`s expanded, the kernel would seal 32,720 units to check a case split. -/
theorem execTrailerReadBack_settled (ok : Bool) (slot : SlotCheck) (s : State) :
    Settled (execTrailerReadBack ok slot s) := by
  unfold execTrailerReadBack
  split
  · exact Settled.done _ _
  · split <;> exact Settled.done _ _

/-- Each command is a tree of guards, below the check of its operands where it has one, and every leaf of the tree settles. -/
theorem exec_settled (c : Instr) (s : State) (h : c.wellFormed = true) : Settled (exec c s) := by
  unfold exec
  cases c
  all_goals dsimp only
  -- One effect, whatever the state.
  case identify | fwDownload | fwCommit | deviceReset | deviceResetLoadCommitted | optionRead | optionWrite |
       createPair | deletePair | bindVector | unbindVector | ftLoad | setPacing | planLoad | planLoadValidate |
       planStart | planCancel | planUnload | planStatus | flowRelease | flowCancel | granaryCreate | granaryTune |
       granaryFormat | granaryResume | granaryDump | flashSubmit | keyLoad | keyDiscard | digestPlain | digestHmac |
       mrRead | mrExtend | faultConfig | faultInject | spillConfig | flashRead | flashProgram | flashErase | readParam
       | perstNDeassert | getEndpointId | getEndpointUuid | getMessageTypeSupport | getIdentity | getStatus |
       getFaults | getHistory | clearFaults | getSensors | getTelemetry | setTelemetry | forceDump | forceReset |
       undefinedVendorCommand | clockLockLost =>
    exact Settled.done _ _
  -- Commands of the CXL mailbox.
  case getEventRecords | getEventInterruptPolicy | setEventInterruptPolicy | getFwInfo | getTimestamp | setTimestamp |
       getSupportedLogs | getLog | identifyMemoryDevice | getPartitionInfo | getLsa | setLsa | getHealthInfo |
       getAlertConfiguration | setAlertConfiguration | getShutdownState | setShutdownState | getPoisonList |
       injectPoison | clearPoison | scanMediaCapabilities | scanMedia | scanMediaResults =>
    exact cxlDo_settled _ _
  case cxlUnsupportedOpcode =>
    unfold execCxlUnsupportedOpcode
    split
    · exact Settled.done _ _
    · exact cxlDo_settled _ _
  -- Operands that are checked first.
  case scanStripeTask | filterBatch | computeBatch | hashJoinBuild | hashJoinProbe | sortRun | mergeTask | hashAggTask
       | sortedAggTask | windowAggDataTask | closeTask | endOfStreamWork | topkTask | exchangeTask |
       materializeStripeWrite =>
    exact Settled.of_checked h (Settled.done _ _)
  case clearEventRecords => exact Settled.of_not_refused h (cxlDo_settled _ _)
  case ingest | refWindowEnd | sramScrubSlice | hostReadCompletion | completionTimeout | taskDispatch | yieldPoint |
       taskEnd | dimmSensorRead =>
    dsimp only [execIngest, execRefWindowEnd, execSramScrubSlice, execHostReadCompletion, execCompletionTimeout,
      execTaskDispatch, execYieldPoint, execTaskEnd, execDimmSensorRead]
    refine Settled.of_not_refused h ?_
    repeat' split
    all_goals exact Settled.done _ _
  -- Guarded effects.
  case functionLevelReset | hotReset =>
    dsimp only [execFunctionLevelReset, execHotReset]
    split
    · exact Settled.done _ _
    · exact reinitialise_settled _ _
  case trailerReadBack ok slot => exact execTrailerReadBack_settled ok slot s
  all_goals
    dsimp only [execAdmDoorbellGo, execSqTailWrite, execCqHeadWrite, execCommandAccept, execInvalidOpcode,
      execHeldCompletionWrite, execCoalesceTimerExpiry, execMsixUnmask, execTeardownComplete, execAppendBlock,
      execTimeRefEdge, execTimeRefLoss, execPpsEdge, execPpsMissingTimeout, execArm, execDisarm, execArmExpiry,
      execRefSelChange, execFtNowLowRead, execFtNowHighRead, execCalendarEvaluation, execCommitEntry, execClearEntry,
      execReadEntry, execWindowCloseAccept, execDramScrubSlice, execVaultScrubSlice, execRetrainingSlot,
      execCapacitanceMeasurement, execMeasurementV1Sample, execMeasurementT2, execMeasurementTimeout,
      execWinnowerLowPass, execTelemetrySample, execFirmwareInterrupt, execLinkTraining, execCxlMemWrite,
      execCxlMemRead, execGlobalPersistentFlush, execHdmDecoderCommit, execLinkError, execSurpriseLinkDown,
      execTranslationCompletion, execPrgResponse, execPageResponseTimeout, execAtsInvalidationRequest,
      execAtsInvalidationComplete, execTluInval, execCtxCfgWrite, execStarvationPromotion, execHeldFlowSearch,
      execTraceEnable, execScanFollowPoll, execDramRequest, execAgePromotion, execRefresh, execDqsOscillatorRead,
      execRetrainingEnd, execPowerDownEntry, execSelfRefreshEntry, execCaParityError, execRetire, execRetrain,
      execMigrationUnitCopy, execIvsCfgWrite, execLandingBufferDrain, execBankSenseSample, execGovernorRecompute,
      execReservationGrant, execWinnowerPageCopy, execWinnowerSealTimer, execRebaseDone, execPowerFailDetection,
      execDumpDrainDone, execDumpSegmentSealed, execDumpSealed, execParkDone, execVholdCollapse, execPowerReturned,
      execLocatingDone, execBackgroundRestoreFetch, execFetchComplete, execFlqDoorbell, execFlashCompletion,
      execDieTimeout, execEraseDoneJournal, execVccqLowChange, execContextGrant, execHistoryEntry, execStickyClear,
      execFirstCaptureRearm, execMaskWrite, execFltInjGo, execClatosWatchdogExpiry, execNmiAckTimeout,
      execCoreRestartComplete, execManagementCoreWatchdog, execDeferredChipReset, execAuxPowerUp, execHoldPowerGood,
      execMainPowerGood, execFirmwareLoaded, execWarmReset, execChipReset, execChipResetRelease, execIngressReopen,
      execHoldPowerOnReset, execAuxRemoval, execCalendarRebuild, execTelemetryRecommit, execD3hotEntry, execD0Return,
      execGateGroupGating, execThermalTrip, execSetEndpointId, execGetMctpVersionSupport,
      execGetVendorDefinedMessageSupport, execAlertResponseAddressRead, execSensorRefresh, execSmbusTimeout,
      execTelIdxFetch, execTelemetryEnable, execRegisterWrite, execDigestUnitBoundary, execPriEnableToggle,
      execManagementCoreRestart, execPowerFailDetectionArmed]
    repeat' split
  all_goals exact Settled.done _ _

theorem exec_illFormed (c : Instr) (s : State) (h : c.wellFormed = false) : exec c s = .fault .illFormed := by
  cases c
  case scanStripeTask | filterBatch | computeBatch | hashJoinBuild | hashJoinProbe | sortRun | mergeTask | hashAggTask
       | sortedAggTask | windowAggDataTask | closeTask | endOfStreamWork | topkTask | exchangeTask |
       materializeStripeWrite =>
    exact if_neg (Bool.eq_false_iff.1 h)
  case ingest | refWindowEnd | sramScrubSlice | clearEventRecords | hostReadCompletion | completionTimeout |
       taskDispatch | yieldPoint | taskEnd | dimmSensorRead =>
    exact if_pos ((Bool.not_eq_true' _).mpr h)
  all_goals exact Bool.noConfusion h

theorem State.wellFormed.safe {s : State} (h : s.wellFormed) : s.safe := by
  unfold State.safe step
  split
  · exact ⟨_, rfl⟩
  · next c rest hp => exact (exec_settled c _ (h c (by simp [hp]))).answers

/-- Settles O2: every command settles where its operands can be formed, and its first check stops it where they cannot. -/
theorem commandsStopOnlyIllFormed : Obligations.CommandsStopOnlyIllFormed :=
  ⟨fun c s h => (exec_settled c s h).answers, exec_illFormed, fun _ h => h.safe⟩

end Sys2Proof.Machine

/-! SUPPORT. The sticky and live bits of a fault event, the status of field time, and PPS: how an edge is judged, what a rejection and
an acceptance leave, and what an armed load does at an edge. -/

namespace Sys2Proof.Machine

/-! ### Bits of 64-bit registers -/

theorem bitOf_eq_testBit (v i : Nat) : bitOf v i = v.testBit i := by
  rw [Nat.testBit_eq_decide_div_mod_eq]
  rfl

/-- What putting one bit leaves, as the bits above it, the bit, and the bits below. -/
theorem putBits_one (v i x : Nat) : putBits v i 1 x = (2 * (v / 2 ^ i / 2) + x % 2) * 2 ^ i + v % 2 ^ i := by
  have hv : v = v / 2 ^ i * 2 ^ i + v % 2 ^ i := by rw [Nat.mul_comm]; exact (Nat.div_add_mod v _).symm
  have hq : 2 * (v / 2 ^ i / 2) = v / 2 ^ i - v / 2 ^ i % 2 := by omega
  rw [putBits, pow_one, hq, Nat.add_mul, Nat.sub_mul]
  have hle : v / 2 ^ i % 2 * 2 ^ i ≤ v / 2 ^ i * 2 ^ i := Nat.mul_le_mul_right _ (Nat.mod_le _ _)
  omega

theorem bitOf_putBits_self (v i : Nat) (b : Bool) : bitOf (putBits v i 1 (natOfBool b)) i = b := by
  have hi : v % 2 ^ i / 2 ^ i = 0 := Nat.div_eq_of_lt (Nat.mod_lt _ (by positivity))
  rw [putBits_one, bitOf, Nat.mul_comm, Nat.mul_add_div (by positivity), hi]
  cases b <;> simp [natOfBool]

theorem State.bit_setBit64_self (s : State) {f : Field} (hf : f.width = 64) (n : Nat) (b : Bool) :
    bitOf ((s.setBit64 f n b).getN f (n / 64)) (n % 64) = b := by
  rw [State.setBit64, State.getN_setN_self, hf, bitOf_eq_testBit, Nat.testBit_mod_two_pow,
    decide_eq_true (Nat.mod_lt n (by decide)), Bool.true_and, ← bitOf_eq_testBit, bitOf_putBits_self]

theorem State.live_clearLive (s : State) (n : Nat) : (s.clearLive n).live n = false :=
  State.bit_setBit64_self s rfl n false


/-! ### A captured event's sticky bit stays set (R441)

Every step of a fault event after the marking of its source leaves FLT_STICKY alone. -/

theorem State.sticky_congr {s t : State} (h : t.regs = s.regs) (n : Nat) : t.sticky n = s.sticky n := by
  rw [State.sticky, State.getN_same h, State.sticky]

theorem State.sticky_setN (s : State) {f : Field} (h : f.id ≠ F.FLT_STICKY_STICKY.id) (k v n : Nat) :
    (s.setN f k v).sticky n = s.sticky n := by
  rw [State.sticky, State.getN_setN_of_id s h, State.sticky]

theorem State.sticky_set (s : State) {f : Field} (h : f.id ≠ F.FLT_STICKY_STICKY.id) (v n : Nat) :
    (s.set f v).sticky n = s.sticky n := State.sticky_setN s h 0 v n

@[simp] theorem State.sticky_clearLive (s : State) (k n : Nat) : (s.clearLive k).sticky n = s.sticky n :=
  State.sticky_setN s (by decide) _ _ n

@[simp] theorem State.sticky_captureFirst (s : State) (r : FaultRecord) (n : Nat) :
    (s.captureFirst r).sticky n = s.sticky n := by
  simp (disch := decide) only [State.captureFirst, State.sticky_set, State.sticky_setN]

@[simp] theorem State.sticky_captureSevere (s : State) (b : Bool) (r : FaultRecord) (n : Nat) :
    (s.captureSevere b r).sticky n = s.sticky n := by
  unfold State.captureSevere
  split <;> simp

theorem State.sticky_writeHistory (s : State) (i : Nat) (r : FaultRecord) (n : Nat) :
    (s.writeHistory i r).sticky n = s.sticky n := by
  simp (disch := decide) only [State.writeHistory, State.sticky_set, State.sticky_setN]

@[simp] theorem State.sticky_makeRoom (s : State) (n : Nat) : s.makeRoom.sticky n = s.sticky n := by
  unfold State.makeRoom State.enterHistory
  split
  · rfl
  · split
    · rfl
    · rw [State.sticky_congr (State.setIntake_regs _ _), State.sticky_writeHistory]

@[simp] theorem State.sticky_skipRecord (s : State) (n : Nat) : s.skipRecord.sticky n = s.sticky n := by
  show (s.bumpQuiet C.skipped 0).2.sticky n = s.sticky n
  rw [State.sticky, State.bumpQuiet_getN _ _ _ (by decide) (by decide), State.sticky]

@[simp] theorem State.sticky_takeRecord (s : State) (r : FaultRecord) (b : Bool) (n : Nat) :
    (s.takeRecord r b).sticky n = s.sticky n := by
  unfold State.takeRecord
  split
  · rw [State.sticky_congr (State.pushRecord_regs _ _), State.sticky_makeRoom]
  · exact State.sticky_skipRecord s n

theorem State.sticky_pauseMigrations (s : State) (n : Nat) : s.pauseMigrations.sticky n = s.sticky n := by
  refine State.foldl_keeps (fun t => t.sticky n) _ _ (fun t ch => ?_) s
  split
  · exact State.sticky_setN t (by decide) _ _ n
  · rfl

theorem State.sticky_beginDump (s : State) (c : Nat) (p : Bool) (n : Nat) :
    (s.beginDump c p).sticky n = s.sticky n := by
  have h : ∀ b, (s.closeIngress.abandonSegments.openDump b p).sticky n = s.sticky n := fun b =>
    State.sticky_congr (by simp) n
  unfold State.beginDump
  split
  · rw [State.sticky_pauseMigrations, h]
  · simp (disch := decide) only [State.sticky_set, State.sticky_pauseMigrations, h]

@[simp] theorem State.sticky_requestDump (s : State) (k n : Nat) : (s.requestDump k).2.sticky n = s.sticky n := by
  unfold State.requestDump
  split <;> simp (disch := decide) only [State.sticky_set, State.sticky_beginDump]

@[simp] theorem State.sticky_latchIf (s : State) (b : Bool) (k n : Nat) : (s.latchIf b k).sticky n = s.sticky n := by
  unfold State.latchIf State.latchPersist
  split
  · split
    · rfl
    · rw [State.sticky_congr (State.failDump_regs _), State.sticky_congr (State.closeIngress_regs _)]
      simp (disch := decide) only [State.sticky_clearLive, State.sticky_set]
  · rfl

@[simp] theorem State.sticky_react (s : State) (k inst : Nat) (b : Bool) (n : Nat) :
    (s.react k inst b).sticky n = s.sticky n := by
  have alert : ∀ (t : State) (c : Bool), (t.reactAlert c).sticky n = t.sticky n := fun t c => by
    unfold State.reactAlert
    split
    · exact State.sticky_set t (by decide) _ n
    · rfl
  have dump : ∀ (t : State) (c : Bool), (t.reactDump c).sticky n = t.sticky n := fun t c => by
    unfold State.reactDump
    split <;> simp
  rw [State.react, State.sticky_congr (State.reactReset_regs _ _ _), dump,
    State.sticky_congr (State.reactTrap_regs _ _ _ _), alert, State.sticky_congr (State.reactVector_regs _ _)]

theorem State.sticky_markSource (s : State) (info : SourceInfo) (n : Nat) : (s.markSource info n).sticky n = true := by
  have h : (s.setBit64 F.FLT_STICKY_STICKY n true).sticky n = true := State.bit_setBit64_self s rfl n true
  unfold State.markSource
  split
  · exact (State.sticky_setN _ (by decide) _ _ n).trans h
  · exact h

/-- An event of a listed source leaves the source's sticky bit set while the HOLD domain runs (R434, R441). -/
theorem State.sticky_raise (s : State) (hold : s.pwr.hold = true) {n : Nat} {info : SourceInfo}
    (listed : sourceInfo n = some info) (inst word : Nat) : (s.raise n inst word).sticky n = true := by
  rw [State.raise, State.raiseWith, hold, listed, if_neg (by simp)]
  simp only [State.raiseCore, listed, State.sticky_react, State.sticky_latchIf]
  rw [State.sticky_congr (State.logCxlEvent_regs _ _ _ _), State.captureEvent, State.sticky_takeRecord,
    State.sticky_captureSevere, State.sticky_congr (State.countEvent_regs _), State.sticky_markSource]

/-! ### Status of field time through the shared operations -/

/-- The fields of field time that PPS edges and loads write or judge by. -/
def timeFields : List Field :=
  [F.FT_CTL_PPS_REJ_LIM, F.FT_STATUS_PPS_REJ_RUN, F.FT_STATUS_ARM_CAUSE, F.FT_STATUS_LOAD_DONE, F.FT_STATUS_ARM_FAIL,
   F.FT_STATUS_PPS_LOST, F.FT_STATUS_PPS_LOCK, F.FT_STATUS_STATE, F.FT_PPS_ERR_ERR]

/-- The field is one of `timeFields`. -/
def Field.isTime (g : Field) : Bool := timeFields.any (fun f => f.id == g.id)

/-- A field of field time is none of a list that names none. -/
theorem Field.outside_of_isTime {g : Field} (h : g.isTime = true) {l : List Field}
    (hl : ∀ f ∈ l, f.isTime = false) : g.outside l := by
  intro f hf e
  have : f.isTime = g.isTime := by rw [Field.isTime, Field.isTime, e]
  exact Bool.noConfusion ((hl f hf).symm.trans (this.trans h))

theorem State.settle_get_time (old u : State) {g : Field} (h : g.isTime = true) :
    (State.settle old u).get g = u.get g :=
  State.settle_getN old u (Field.outside_of_isTime h (by decide)) 0

theorem State.raise_get_time (s : State) (n inst word : Nat) {g : Field} (h : g.isTime = true) :
    (s.raise n inst word).get g = s.get g :=
  State.raise_getN s n inst word (Field.outside_of_isTime h (by decide)) 0

theorem State.clearLive_get_time (s : State) (n : Nat) {g : Field} (h : g.isTime = true) :
    (s.clearLive n).get g = s.get g :=
  State.clearLive_getN s n (Field.outside_of_isTime h (by decide)) 0

theorem State.complete_get_time (s : State) (a : Accepted) (x y : Nat) {g : Field} (h : g.isTime = true) :
    (s.complete a x y).get g = s.get g :=
  State.complete_getN s a x y (Field.outside_of_isTime h (by decide)) (Field.outside_of_isTime h (by decide)) 0

@[simp] theorem State.get_setFt (s : State) (t : TimeBlock) (g : Field) : (s.setFt t).get g = s.get g := rfl

theorem State.sticky_settle (old u : State) (n : Nat) : (State.settle old u).sticky n = u.sticky n := by
  rw [State.sticky, State.settle_getN _ _ (by unfold Field.outside; decide), State.sticky]

theorem State.live_settle (old u : State) (n : Nat) : (State.settle old u).live n = u.live n := by
  rw [State.live, State.settle_getN _ _ (by unfold Field.outside; decide), State.live]

theorem Frame.setFt (s : State) (t : TimeBlock) {ps : List Part} {fs : List Field} (h : .ft ∈ ps) :
    Frame s (s.setFt t) ps fs := by
  refine ⟨rfl, rfl, fun p hp => ?_, fun _ _ _ => rfl⟩
  cases p with
  | ft => exact absurd h hp
  | _ => rfl

theorem Frame.clearLive (s : State) (n : Nat) {ps : List Part} {fs : List Field} (h : F.FLT_LIVE_LIVE ∈ fs) :
    Frame s (s.clearLive n) ps fs := Frame.setN s _ _ _ h

theorem State.hold_of_mainUp {s : State} (h : s.mainUp = true) : s.pwr.hold = true := by
  simp only [State.mainUp, State.groupUp, Bool.and_eq_true] at h
  exact h.1.1

/-! ### A rejected edge (R46, R49) -/

/-- What a rejected edge does: the run grows, and a run at the limit loses a lock that is set. -/
theorem State.ppsReject_cases (s : State) :
    let run := min 255 (s.get F.FT_STATUS_PPS_REJ_RUN + 1)
    let t := s.set F.FT_STATUS_PPS_REJ_RUN run
    (s.rejLimit ≤ run ∧ s.flag F.FT_STATUS_PPS_LOCK = true ∧
      s.ppsReject = ((t.set F.FT_STATUS_PPS_LOCK 0).set F.FT_STATUS_PPS_LOST 1).raise 9 0 0) ∨
    (¬(s.rejLimit ≤ run ∧ s.flag F.FT_STATUS_PPS_LOCK = true) ∧ s.ppsReject = t) := by
  intro run t
  have hl : t.rejLimit = s.rejLimit := by
    rw [State.rejLimit, State.get_set_of_id _ (by decide), State.rejLimit]
  have hf : t.flag F.FT_STATUS_PPS_LOCK = s.flag F.FT_STATUS_PPS_LOCK := by
    rw [State.flag, State.get_set_of_id _ (by decide), State.flag]
  have e : s.ppsReject = if s.rejLimit ≤ run && s.flag F.FT_STATUS_PPS_LOCK then
      ((t.set F.FT_STATUS_PPS_LOCK 0).set F.FT_STATUS_PPS_LOST 1).raise 9 0 0 else t := by
    rw [← hl, ← hf]
    rfl
  by_cases h : s.rejLimit ≤ run ∧ s.flag F.FT_STATUS_PPS_LOCK = true
  · exact .inl ⟨h.1, h.2, by rw [e, if_pos (by simpa using h)]⟩
  · exact .inr ⟨h, by rw [e, if_neg (by simpa using h)]⟩

@[simp] theorem State.ppsReject_ft (s : State) : s.ppsReject.ft = s.ft := by
  obtain ⟨-, -, h⟩ | ⟨-, h⟩ := s.ppsReject_cases <;> simp [h]

theorem State.ppsReject_get (s : State) {g : Field} (ht : g.isTime = true) (hr : F.FT_STATUS_PPS_REJ_RUN.id ≠ g.id)
    (hl : F.FT_STATUS_PPS_LOCK.id ≠ g.id) (ho : F.FT_STATUS_PPS_LOST.id ≠ g.id) : s.ppsReject.get g = s.get g := by
  obtain ⟨-, -, h⟩ | ⟨-, h⟩ := s.ppsReject_cases
  · rw [h, State.raise_get_time _ _ _ _ ht, State.get_set_of_id _ ho, State.get_set_of_id _ hl, State.get_set_of_id _ hr]
  · rw [h, State.get_set_of_id _ hr]

theorem State.ppsReject_run (s : State) :
    s.ppsReject.get F.FT_STATUS_PPS_REJ_RUN = min 255 (s.get F.FT_STATUS_PPS_REJ_RUN + 1) := by
  have hw : min 255 (s.get F.FT_STATUS_PPS_REJ_RUN + 1) % 2 ^ F.FT_STATUS_PPS_REJ_RUN.width =
      min 255 (s.get F.FT_STATUS_PPS_REJ_RUN + 1) := Nat.mod_eq_of_lt (by change _ < 256; omega)
  obtain ⟨-, -, h⟩ | ⟨-, h⟩ := s.ppsReject_cases
  · rw [h, State.raise_get_time _ _ _ _ (by decide), State.get_set_of_id _ (by decide), State.get_set_of_id _ (by decide),
      State.get_set_self, hw]
  · rw [h, State.get_set_self, hw]

theorem State.ppsReject_lock (s : State) : s.ppsReject.flag F.FT_STATUS_PPS_LOCK =
    (s.flag F.FT_STATUS_PPS_LOCK && decide (min 255 (s.get F.FT_STATUS_PPS_REJ_RUN + 1) < s.rejLimit)) := by
  obtain ⟨hr, -, h⟩ | ⟨hn, h⟩ := s.ppsReject_cases
  · rw [h, State.flag, State.raise_get_time _ _ _ _ (by decide), State.get_set_of_id _ (by decide), State.get_set_self,
      decide_eq_false (Nat.not_lt.2 hr), Bool.and_false]
    rfl
  · rw [h, State.flag, State.get_set_of_id _ (by decide), ← State.flag]
    cases hl : s.flag F.FT_STATUS_PPS_LOCK
    · rfl
    · rw [decide_eq_true (Nat.lt_of_not_le fun hr => hn ⟨hr, hl⟩), Bool.true_and]

/-- The run reaches the limit and PPS lock is lost: PPS_LOST sets and source 9 is raised. -/
theorem State.ppsReject_lost (s : State) (hold : s.pwr.hold = true) (hl : s.flag F.FT_STATUS_PPS_LOCK = true)
    (hr : s.rejLimit ≤ min 255 (s.get F.FT_STATUS_PPS_REJ_RUN + 1)) :
    s.ppsReject.get F.FT_STATUS_PPS_LOST = 1 ∧ s.ppsReject.sticky 9 = true := by
  obtain ⟨-, -, h⟩ | ⟨hn, -⟩ := s.ppsReject_cases
  · rw [h]
    refine ⟨?_, State.sticky_raise _ (by simpa using hold) rfl 0 0⟩
    rw [State.raise_get_time _ _ _ _ (by decide), State.get_set_self]
    rfl
  · exact absurd ⟨hr, hl⟩ hn

theorem Frame.ppsReject (s : State) {ps : List Part} {fs : List Field} (hp : ∀ p ∈ raiseParts, p ∈ ps)
    (hf : ∀ f ∈ [F.FT_STATUS_PPS_REJ_RUN, F.FT_STATUS_PPS_LOCK, F.FT_STATUS_PPS_LOST] ++ raiseFields, f ∈ fs) :
    Frame s s.ppsReject ps fs := by
  have run := Frame.set s F.FT_STATUS_PPS_REJ_RUN (min 255 (s.get F.FT_STATUS_PPS_REJ_RUN + 1)) (ps := ps)
    (hf _ (by simp))
  obtain ⟨-, -, h⟩ | ⟨-, h⟩ := s.ppsReject_cases <;> rw [h]
  · exact run.trans ((Frame.set _ _ _ (hf _ (by simp))).trans ((Frame.set _ _ _ (hf _ (by simp))).trans
      (Frame.raise _ _ _ _ hp fun f hm => hf f (List.mem_append_right _ hm))))
  · exact run

/-! ### An accepted edge (R46, R49) -/

@[simp] theorem State.ppsAccept_ft (s : State) (e : Int) : (s.ppsAccept e).ft =
    { s.ft with slew := e, slewEnd := nearestSecond s.ft.count + second } := by
  simp [State.ppsAccept]

theorem State.ppsAccept_get (s : State) (e : Int) {g : Field} (ht : g.isTime = true)
    (hr : F.FT_STATUS_PPS_REJ_RUN.id ≠ g.id) (hl : F.FT_STATUS_PPS_LOCK.id ≠ g.id) :
    (s.ppsAccept e).get g = s.get g := by
  rw [State.ppsAccept, State.get_setFt, State.clearLive_get_time _ _ ht, State.get_set_of_id _ hl, State.get_set_of_id _ hr]

theorem State.ppsAccept_run (s : State) (e : Int) : (s.ppsAccept e).get F.FT_STATUS_PPS_REJ_RUN = 0 := by
  rw [State.ppsAccept, State.get_setFt, State.clearLive_get_time _ _ (by decide), State.get_set_of_id _ (by decide),
    State.get_set_self, Nat.zero_mod]

theorem State.ppsAccept_lock (s : State) (e : Int) : (s.ppsAccept e).get F.FT_STATUS_PPS_LOCK = 1 := by
  rw [State.ppsAccept, State.get_setFt, State.clearLive_get_time _ _ (by decide), State.get_set_self]
  rfl

theorem State.ppsAccept_live (s : State) (e : Int) : (s.ppsAccept e).live 9 = false := State.live_clearLive _ 9

theorem Frame.ppsAccept (s : State) (e : Int) {ps : List Part} {fs : List Field} (hp : .ft ∈ ps)
    (hf : ∀ f ∈ [F.FT_STATUS_PPS_REJ_RUN, F.FT_STATUS_PPS_LOCK, F.FLT_LIVE_LIVE], f ∈ fs) :
    Frame s (s.ppsAccept e) ps fs :=
  (Frame.set _ _ _ (hf _ (by simp))).trans ((Frame.set _ _ _ (hf _ (by simp))).trans
    ((Frame.clearLive _ _ (hf _ (by simp))).trans (Frame.setFt _ _ hp)))

/-! ### The judgement of an edge (R46) -/

/-- The phase error of an edge that comes now: the count against the nearest whole second. -/
def State.phaseError (s : State) : Int := (s.ft.count : Int) - (nearestSecond s.ft.count : Int)

/-- The phase error is written, and the gap to the next edge starts at the count. -/
def State.measured (s : State) : State :=
  let t := s.set F.FT_PPS_ERR_ERR (ofSigned 32 s.phaseError)
  t.setFt { t.ft with ppsMark := t.ft.count }

@[simp] theorem State.measured_ft (s : State) : s.measured.ft = { s.ft with ppsMark := s.ft.count } := by
  simp [State.measured]

theorem State.measured_get (s : State) {g : Field} (h : F.FT_PPS_ERR_ERR.id ≠ g.id) : s.measured.get g = s.get g := by
  rw [State.measured, State.get_setFt, State.get_set_of_id _ h]

theorem State.measured_err (s : State) : s.measured.get F.FT_PPS_ERR_ERR = ofSigned 32 s.phaseError % 2 ^ 32 := by
  rw [State.measured, State.get_setFt, State.get_set_self]
  rfl

@[simp] theorem State.measured_pwr (s : State) : s.measured.pwr = s.pwr := by simp [State.measured]

theorem State.measured_flag (s : State) {g : Field} (h : F.FT_PPS_ERR_ERR.id ≠ g.id) : s.measured.flag g = s.flag g := by
  rw [State.flag, State.measured_get s h, State.flag]

theorem State.measured_rejLimit (s : State) : s.measured.rejLimit = s.rejLimit := by
  rw [State.rejLimit, State.measured_get s (by decide), State.rejLimit]

theorem Frame.measured (s : State) {ps : List Part} {fs : List Field} (hp : .ft ∈ ps) (hf : F.FT_PPS_ERR_ERR ∈ fs) :
    Frame s s.measured ps fs := (Frame.set s _ _ hf).trans (Frame.setFt _ _ hp)

theorem State.ppsJudge_stopped (s : State) (h : s.get F.FT_STATUS_STATE ≠ Ft.running) : s.ppsJudge = s := by
  rw [State.ppsJudge, if_pos h]

theorem State.ppsJudge_near (s : State) (h : s.get F.FT_STATUS_STATE = Ft.running)
    (near : -100000 ≤ s.phaseError ∧ s.phaseError ≤ 100000) : s.ppsJudge = s.measured.ppsAccept s.phaseError := by
  rw [State.ppsJudge, if_neg (not_not.2 h)]
  exact if_pos near

theorem State.ppsJudge_far (s : State) (h : s.get F.FT_STATUS_STATE = Ft.running)
    (far : ¬(-100000 ≤ s.phaseError ∧ s.phaseError ≤ 100000)) : s.ppsJudge = s.measured.ppsReject := by
  rw [State.ppsJudge, if_neg (not_not.2 h)]
  exact if_neg far

/-- The judgement leaves the count, the armed load, and the outcome of an earlier arm alone. -/
theorem State.ppsJudge_keeps (s : State) :
    s.ppsJudge.ft.count = s.ft.count ∧ s.ppsJudge.ft.pending = s.ft.pending ∧
      s.ppsJudge.get F.FT_STATUS_ARM_FAIL = s.get F.FT_STATUS_ARM_FAIL ∧
      s.ppsJudge.get F.FT_STATUS_ARM_CAUSE = s.get F.FT_STATUS_ARM_CAUSE := by
  by_cases hr : s.get F.FT_STATUS_STATE = Ft.running
  · by_cases hn : -100000 ≤ s.phaseError ∧ s.phaseError ≤ 100000
    · rw [State.ppsJudge_near s hr hn, State.ppsAccept_ft, State.measured_ft]
      exact ⟨rfl, rfl,
        (State.ppsAccept_get _ _ (by decide) (by decide) (by decide)).trans (State.measured_get s (by decide)),
        (State.ppsAccept_get _ _ (by decide) (by decide) (by decide)).trans (State.measured_get s (by decide))⟩
    · rw [State.ppsJudge_far s hr hn, State.ppsReject_ft, State.measured_ft]
      exact ⟨rfl, rfl,
        (State.ppsReject_get _ (by decide) (by decide) (by decide) (by decide)).trans (State.measured_get s (by decide)),
        (State.ppsReject_get _ (by decide) (by decide) (by decide) (by decide)).trans (State.measured_get s (by decide))⟩
  · rw [State.ppsJudge_stopped s hr]
    exact ⟨rfl, rfl, rfl, rfl⟩

/-! ### Loads at an edge (R53 to R55) -/

theorem exec_ppsEdge {rising : Bool} {s : State} (up : s.mainUp = true) (pol : rising ≠ s.flag F.FT_CTL_PPS_POL) :
    exec (.ppsEdge rising) s = done s s.expireLate.loadAtEdge.expireLoad.ppsJudge :=
  if_neg (by simp [up, pol])

theorem State.expireLate_of_fresh {s : State} {p : PendingLoad} (armed : s.ft.pending = some p)
    (fresh : s.now ≤ p.at_ + 2000000000) : s.expireLate = s := by
  rw [State.expireLate, armed]
  exact if_pos fresh

theorem State.expireLate_of_none {s : State} (h : s.ft.pending = none) : s.expireLate = s := by
  rw [State.expireLate, h]

theorem State.loadAtEdge_of_none {s : State} (h : s.ft.pending = none) : s.loadAtEdge = s := by
  rw [State.loadAtEdge, h]

theorem State.expireLoad_of_none {s : State} (h : s.ft.pending = none) : s.expireLoad = s := by
  rw [State.expireLoad, h]

/-- A value is the count, in RUNNING, and no load is armed any more; the calendar has not evaluated its µs. -/
def State.loaded (s : State) (v : Nat) : State :=
  let t := s.setFt { s.ft with pending := none, count := v, frac := 0, slew := 0, interpAt := s.now }
  ((({ t with cal := { t.cal with evaluated := none } }.set F.FT_STATUS_STATE Ft.running).set
    F.FT_STATUS_LOAD_DONE 1).set F.FT_STATUS_PPS_LOCK 1)

theorem State.loadAtEdge_forward {s : State} {p : PendingLoad} (armed : s.ft.pending = some p)
    (ok : s.flag F.FT_STATUS_REF_OK = true) (le : s.ft.count ≤ p.value) :
    s.loadAtEdge = (s.loaded p.value).ftCommandDone CC.ok := by
  rw [State.loadAtEdge, armed]
  exact (if_neg (by simp [ok])).trans (if_neg (Nat.not_lt.2 le))

theorem State.loadAtEdge_backward {s : State} {p : PendingLoad} (armed : s.ft.pending = some p)
    (ok : s.flag F.FT_STATUS_REF_OK = true) (lt : p.value < s.ft.count) :
    s.loadAtEdge = (s.setFt { s.ft with pending := none }).armFail 3 CC.timeNotMonotonic := by
  rw [State.loadAtEdge, armed]
  exact (if_neg (by simp [ok])).trans (if_pos lt)

theorem State.loaded_get_state (s : State) (v : Nat) : (s.loaded v).get F.FT_STATUS_STATE = Ft.running := by
  rw [State.loaded, State.get_set_of_id _ (by decide), State.get_set_of_id _ (by decide), State.get_set_self]
  rfl

theorem State.loaded_get_done (s : State) (v : Nat) : (s.loaded v).get F.FT_STATUS_LOAD_DONE = 1 := by
  rw [State.loaded, State.get_set_of_id _ (by decide), State.get_set_self]
  rfl

theorem State.loaded_ft (s : State) (v : Nat) : (s.loaded v).ft =
    { s.ft with pending := none, count := v, frac := 0, slew := 0, interpAt := s.now } := by
  simp [State.loaded]

/-! `State.ftCommandDone` -/

@[simp] theorem State.ftCommandDone_ft (s : State) (code : Nat) : (s.ftCommandDone code).ft = s.ft := by
  unfold State.ftCommandDone
  split <;> simp

@[simp] theorem State.ftCommandDone_cal (s : State) (code : Nat) : (s.ftCommandDone code).cal = s.cal := by
  unfold State.ftCommandDone
  split <;> simp

theorem State.ftCommandDone_get_time (s : State) (code : Nat) {g : Field} (h : g.isTime = true) :
    (s.ftCommandDone code).get g = s.get g := by
  unfold State.ftCommandDone
  split
  · exact State.complete_get_time _ _ _ _ h
  · rfl

/-! ### A completion seen through later changes -/

/-- The settling sends nothing but messages of vectors (R79). -/
theorem State.mem_out_of_settle {old u : State} {o : Output} (h : o ∈ (State.settle old u).out) :
    o ∈ u.out ∨ ∃ v, o = .msix v := by
  have signal : ∀ (t : State) (v : Nat), o ∈ (t.signal v).out → o ∈ t.out ∨ ∃ w, o = .msix w := fun t v ho => by
    rcases t.signal_cases v with e | e | ⟨e, -⟩ <;> rw [e] at ho
    · exact .inl ho
    · exact (List.mem_cons.1 ho).elim (fun eo => .inr ⟨v, eo⟩) .inl
    · exact .inl ho
  have ready : ∀ t : State, o ∈ (State.settleReady old t).out → o ∈ t.out ∨ ∃ w, o = .msix w := fun t ho => by
    unfold State.settleReady at ho
    split at ho
    · exact .inl ho
    · refine (signal _ _ ho).imp_left fun hi => ?_
      split at hi <;> simpa using hi
  have grn : ∀ t : State, o ∈ (State.settleGrn old t).out → o ∈ t.out ∨ ∃ w, o = .msix w := fun t ho => by
    unfold State.settleGrn State.signalGrn at ho
    split at ho
    · exact .inl (by simpa using ho)
    · exact (signal _ _ ho).imp_left fun hi => by simpa using hi
  rw [State.settle, State.settleFirst_out] at h
  rcases grn _ h with h | h
  · exact (ready _ h).imp_left fun hi => by simpa using hi
  · exact .inr h

/-- A completion stands through changes that leave the mailboxes and the admin completion alone and take back nothing sent. -/
theorem Completed.of_frame {s old u t : State} {a : Accepted} {st r : Nat} (h : Completed s a st r (State.settle old u))
    {ps : List Part} {fs : List Field} (hf : Frame u t ps fs) (hm : .mbx ∉ ps)
    (hg : ∀ g ∈ [F.ADM_CPL_CPL, F.ADM_STATUS_BUSY, F.ADM_STATUS_DONE], g.outside (settleFields ++ fs))
    (ho : ∀ o ∈ u.out, o ∈ t.out) : Completed s a st r t := by
  obtain ⟨forgotten, completion⟩ := h
  have mbx : t.mbx = (State.settle old u).mbx := (hf.2.2.1 _ hm).trans (State.settle_mbx _ _).symm
  have get : ∀ g ∈ [F.ADM_CPL_CPL, F.ADM_STATUS_BUSY, F.ADM_STATUS_DONE], t.get g = (State.settle old u).get g :=
    fun g hm => (hf.2.2.2 g (hg g hm) 0).trans
      (State.settle_getN old u (Field.outside_append.1 (hg g hm)).1 0).symm
  refine ⟨by rwa [mbx], ?_⟩
  cases hmb : a.mb with
  | admin =>
    rw [hmb] at completion
    simpa only [get _ (by simp : F.ADM_CPL_CPL ∈ _), get _ (by simp : F.ADM_STATUS_BUSY ∈ _),
      get _ (by simp : F.ADM_STATUS_DONE ∈ _)] using completion
  | pair n =>
    rw [hmb] at completion
    simp only [State.pair_congr mbx]
    refine completion.imp_right (Or.imp_right (Or.imp_right ?_))
    rintro ⟨i, via, addr, fl, hd, lm, hc⟩
    rcases State.mem_out_of_settle hc with hc | ⟨v, hv⟩
    · exact ⟨i, via, addr, fl, hd, lm, ho _ hc⟩
    · exact Output.noConfusion hv

/-! ### Edges and gaps of PPS -/

theorem nearestSecond_of_whole {v : Nat} (h : v % 1000000000 = 0) : nearestSecond v = v := by
  rw [nearestSecond, second]
  omega

/-- With no load armed, an edge is judged and nothing else. -/
theorem exec_ppsEdge_idle {rising : Bool} {s : State} (up : s.mainUp = true) (pol : rising ≠ s.flag F.FT_CTL_PPS_POL)
    (idle : s.ft.pending = none) : exec (.ppsEdge rising) s = done s s.ppsJudge := by
  rw [exec_ppsEdge up pol, State.expireLate_of_none idle, State.loadAtEdge_of_none idle, State.expireLoad_of_none idle]

theorem exec_ppsMissingTimeout {s : State} (up : s.mainUp = true) (run : s.get F.FT_STATUS_STATE = Ft.running)
    (due : s.ft.ppsMark + 1100000000 ≤ s.ft.count) : exec .ppsMissingTimeout s =
      done s (s.setFt { s.ft with ppsMark := s.ft.ppsMark + 1100000000 }).ppsReject :=
  if_pos (by simp [up, run, due])

/-- An armed load that an edge brings into force: the count is the value, and the edge is then accepted without an error. -/
theorem exec_ppsEdge_load {rising : Bool} {s : State} {p : PendingLoad} (up : s.mainUp = true)
    (pol : rising ≠ s.flag F.FT_CTL_PPS_POL) (armed : s.ft.pending = some p) (fresh : s.now ≤ p.at_ + 2000000000)
    (ok : s.flag F.FT_STATUS_REF_OK = true) (le : s.ft.count ≤ p.value) (whole : p.value % 1000000000 = 0) :
    exec (.ppsEdge rising) s = done s (((s.loaded p.value).ftCommandDone CC.ok).measured.ppsAccept 0) := by
  have ft : ((s.loaded p.value).ftCommandDone CC.ok).ft = (s.loaded p.value).ft := State.ftCommandDone_ft _ _
  have idle : ((s.loaded p.value).ftCommandDone CC.ok).ft.pending = none := by rw [ft, State.loaded_ft]
  have run : ((s.loaded p.value).ftCommandDone CC.ok).get F.FT_STATUS_STATE = Ft.running :=
    (State.ftCommandDone_get_time _ _ (by decide)).trans (State.loaded_get_state s p.value)
  have e : ((s.loaded p.value).ftCommandDone CC.ok).phaseError = 0 := by
    rw [State.phaseError, ft, State.loaded_ft]
    simp only [nearestSecond_of_whole whole, sub_self]
  rw [exec_ppsEdge up pol, State.expireLate_of_fresh armed fresh, State.loadAtEdge_forward armed ok le,
    State.expireLoad_of_none idle, State.ppsJudge_near _ run (by rw [e]; decide), e]

/-- The FT_LOAD command in progress completes OK where its load comes into force (R55). -/
theorem State.loaded_completes (old s : State) (v : Nat) {a : Accepted} (h : s.ftCommand = some a) :
    Completed s a CC.ok 0 (State.settle old ((s.loaded v).ftCommandDone CC.ok)) := by
  have mbx : (s.loaded v).mbx = s.mbx := by simp [State.loaded]
  have get : ∀ {g : Field} (n : Nat), F.FT_STATUS_STATE.id ≠ g.id → F.FT_STATUS_LOAD_DONE.id ≠ g.id →
      F.FT_STATUS_PPS_LOCK.id ≠ g.id → (s.loaded v).getN g n = s.getN g n := fun n h1 h2 h3 =>
    (State.getN_setN_of_id _ h3 _ _ n).trans ((State.getN_setN_of_id _ h2 _ _ n).trans
      (State.getN_setN_of_id _ h1 _ _ n))
  have cmd : (s.loaded v).ftCommand = some a := by rw [State.ftCommand, mbx, ← h, State.ftCommand]
  rw [State.ftCommandDone, cmd]
  refine State.complete_completed old s (s.loaded v) a CC.ok 0 mbx (fun n => ?_) (fun n => ?_)
  · rw [State.cqStopped, get n (by decide) (by decide) (by decide), State.cqStopped]
  · simp only [State.cqUnreachable, State.ctxEnabled, State.pair_congr mbx,
      get _ (by decide : F.FT_STATUS_STATE.id ≠ F.MBX_STATE_CTX.id) (by decide) (by decide),
      get _ (by decide : F.FT_STATUS_STATE.id ≠ F.CTX_CFG_EN.id) (by decide) (by decide)]

/-- An armed load that lies behind the count fails the arm; the edge is then judged as any other. -/
theorem exec_ppsEdge_backward {rising : Bool} {s : State} {p : PendingLoad} (up : s.mainUp = true)
    (pol : rising ≠ s.flag F.FT_CTL_PPS_POL) (armed : s.ft.pending = some p) (fresh : s.now ≤ p.at_ + 2000000000)
    (ok : s.flag F.FT_STATUS_REF_OK = true) (lt : p.value < s.ft.count) (free : s.ftCommand = none) :
    exec (.ppsEdge rising) s = done s ((s.setFt { s.ft with pending := none }).armFails 3).ppsJudge := by
  have cmd : ((s.setFt { s.ft with pending := none }).armFails 3).ftCommand = none := by
    rw [← free, State.ftCommand, State.armFails, State.set_mbx, State.set_mbx, State.setFt_mbx, State.ftCommand]
  have idle : ((s.setFt { s.ft with pending := none }).armFails 3).ft.pending = none := by
    rw [State.armFails, State.set_ft, State.set_ft, State.setFt_ft]
  rw [exec_ppsEdge up pol, State.expireLate_of_fresh armed fresh, State.loadAtEdge_backward armed ok lt, State.armFail,
    State.ftCommandDone, cmd, State.expireLoad_of_none idle]

/-! ### What edges and gaps leave -/

/-- An edge within 100 µs of a whole second is accepted. -/
theorem ppsEdge_accepts {rising : Bool} {s : State} (up : s.mainUp = true) (pol : rising ≠ s.flag F.FT_CTL_PPS_POL)
    (idle : s.ft.pending = none) (run : s.get F.FT_STATUS_STATE = Ft.running)
    (near : -100000 ≤ s.phaseError ∧ s.phaseError ≤ 100000) : Answers (.ppsEdge rising) s fun t =>
      t.get F.FT_PPS_ERR_ERR = ofSigned 32 s.phaseError % 2 ^ 32 ∧ t.get F.FT_STATUS_PPS_REJ_RUN = 0 ∧
      t.get F.FT_STATUS_PPS_LOCK = 1 ∧ t.live 9 = false ∧ t.ft.slew = s.phaseError ∧ t.ft.count = s.ft.count ∧
      Frame s t [.ft] [F.FT_PPS_ERR_ERR, F.FT_STATUS_PPS_REJ_RUN, F.FT_STATUS_PPS_LOCK, F.FLT_LIVE_LIVE] := by
  refine ⟨_, exec_ppsEdge_idle up pol idle, ?_⟩
  rw [State.ppsJudge_near s run near]
  refine ⟨?_, ?_, ?_, ?_, ?_, ?_, Frame.done s ((Frame.measured s (by simp) (by simp)).trans
    (Frame.ppsAccept _ _ (by simp) (by simp)))⟩
  · rw [State.settle_get_time _ _ (by decide), State.ppsAccept_get _ _ (by decide) (by decide) (by decide),
      State.measured_err]
  · rw [State.settle_get_time _ _ (by decide), State.ppsAccept_run]
  · rw [State.settle_get_time _ _ (by decide), State.ppsAccept_lock]
  · rw [State.live_settle, State.ppsAccept_live]
  · rw [State.settle_ft, State.ppsAccept_ft]
  · rw [State.settle_ft, State.ppsAccept_ft, State.measured_ft]

/-- What a rejection leaves in the status, once settled. -/
theorem ppsReject_settled (old s : State) (hold : s.pwr.hold = true) :
    let run := min 255 (s.get F.FT_STATUS_PPS_REJ_RUN + 1)
    let t := State.settle old s.ppsReject
    t.get F.FT_STATUS_PPS_REJ_RUN = run ∧
      t.flag F.FT_STATUS_PPS_LOCK = (s.flag F.FT_STATUS_PPS_LOCK && decide (run < s.rejLimit)) ∧
      (s.flag F.FT_STATUS_PPS_LOCK = true → s.rejLimit ≤ run →
        t.get F.FT_STATUS_PPS_LOST = 1 ∧ t.sticky 9 = true) ∧ t.ft = s.ft := by
  refine ⟨?_, ?_, fun lock limit => ?_, by rw [State.settle_ft, State.ppsReject_ft]⟩
  · rw [State.settle_get_time _ _ (by decide), State.ppsReject_run]
  · rw [State.flag, State.settle_get_time _ _ (by decide), ← State.flag, State.ppsReject_lock]
  · rw [State.settle_get_time _ _ (by decide), State.sticky_settle]
    exact State.ppsReject_lost s hold lock limit

/-- An edge further from every whole second is rejected. -/
theorem ppsEdge_rejects {rising : Bool} {s : State} (up : s.mainUp = true) (pol : rising ≠ s.flag F.FT_CTL_PPS_POL)
    (idle : s.ft.pending = none) (run : s.get F.FT_STATUS_STATE = Ft.running)
    (far : ¬(-100000 ≤ s.phaseError ∧ s.phaseError ≤ 100000)) :
    let n := min 255 (s.get F.FT_STATUS_PPS_REJ_RUN + 1)
    Answers (.ppsEdge rising) s fun t =>
      t.get F.FT_PPS_ERR_ERR = ofSigned 32 s.phaseError % 2 ^ 32 ∧ t.get F.FT_STATUS_PPS_REJ_RUN = n ∧
      t.flag F.FT_STATUS_PPS_LOCK = (s.flag F.FT_STATUS_PPS_LOCK && decide (n < s.rejLimit)) ∧
      (s.flag F.FT_STATUS_PPS_LOCK = true → s.rejLimit ≤ n → t.get F.FT_STATUS_PPS_LOST = 1 ∧ t.sticky 9 = true) ∧
      t.ft.count = s.ft.count ∧ t.ft.slew = s.ft.slew := by
  refine ⟨_, exec_ppsEdge_idle up pol idle, ?_⟩
  obtain ⟨hn, hlock, hlost, hft⟩ := ppsReject_settled s s.measured (by simpa using State.hold_of_mainUp up)
  rw [State.measured_get s (by decide)] at hn hlock hlost
  rw [State.measured_flag s (by decide), State.measured_rejLimit] at hlock hlost
  rw [State.ppsJudge_far s run far]
  refine ⟨?_, hn, hlock, hlost, by rw [hft, State.measured_ft], by rw [hft, State.measured_ft]⟩
  rw [State.settle_get_time _ _ (by decide), State.ppsReject_get _ (by decide) (by decide) (by decide) (by decide),
    State.measured_err]

/-- A gap of 1.1 s counts as a rejected edge. -/
theorem ppsMissingTimeout_rejects {s : State} (up : s.mainUp = true) (run : s.get F.FT_STATUS_STATE = Ft.running)
    (due : s.ft.ppsMark + 1100000000 ≤ s.ft.count) :
    let n := min 255 (s.get F.FT_STATUS_PPS_REJ_RUN + 1)
    Answers .ppsMissingTimeout s fun t =>
      t.get F.FT_STATUS_PPS_REJ_RUN = n ∧ t.ft.ppsMark = s.ft.ppsMark + 1100000000 ∧
      t.flag F.FT_STATUS_PPS_LOCK = (s.flag F.FT_STATUS_PPS_LOCK && decide (n < s.rejLimit)) ∧
      Frame s t (.ft :: raiseParts)
        ([F.FT_STATUS_PPS_REJ_RUN, F.FT_STATUS_PPS_LOCK, F.FT_STATUS_PPS_LOST] ++ raiseFields) := by
  refine ⟨_, exec_ppsMissingTimeout up run due, ?_⟩
  obtain ⟨hn, hlock, -, hft⟩ := ppsReject_settled s (s.setFt { s.ft with ppsMark := s.ft.ppsMark + 1100000000 })
    (by simpa using State.hold_of_mainUp up)
  exact ⟨hn, by rw [hft, State.setFt_ft], hlock, Frame.done s ((Frame.setFt s _ (by simp)).trans
    (Frame.ppsReject _ (fun _ hp => List.mem_cons_of_mem _ hp) fun _ hf => hf))⟩

/-- A load not behind the count comes into force at the edge. -/
theorem ppsEdge_loads {rising : Bool} {s : State} {p : PendingLoad} (up : s.mainUp = true)
    (pol : rising ≠ s.flag F.FT_CTL_PPS_POL) (armed : s.ft.pending = some p) (fresh : s.now ≤ p.at_ + 2000000000)
    (ok : s.flag F.FT_STATUS_REF_OK = true) (le : s.ft.count ≤ p.value) (whole : p.value % 1000000000 = 0) :
    Answers (.ppsEdge rising) s fun t =>
      t.ft.count = p.value ∧ t.ft.pending = none ∧ t.get F.FT_STATUS_STATE = Ft.running ∧
      t.get F.FT_STATUS_LOAD_DONE = 1 ∧ t.get F.FT_STATUS_PPS_LOCK = 1 ∧ t.cal.evaluated = none ∧
      ∀ a : Accepted, s.ftCommand = some a → Completed s a CC.ok 0 t := by
  refine ⟨_, exec_ppsEdge_load up pol armed fresh ok le whole, ?_⟩
  have get : ∀ {g : Field}, g.isTime = true → F.FT_STATUS_PPS_REJ_RUN.id ≠ g.id → F.FT_STATUS_PPS_LOCK.id ≠ g.id →
      F.FT_PPS_ERR_ERR.id ≠ g.id → (State.settle s (((s.loaded p.value).ftCommandDone CC.ok).measured.ppsAccept 0)).get g =
        (s.loaded p.value).get g := fun ht hr hl he => by
    rw [State.settle_get_time _ _ ht, State.ppsAccept_get _ _ ht hr hl, State.measured_get _ he,
      State.ftCommandDone_get_time _ _ ht]
  refine ⟨?_, ?_, ?_, ?_, ?_, ?_, fun a ha => ?_⟩
  · rw [State.settle_ft, State.ppsAccept_ft, State.measured_ft, State.ftCommandDone_ft, State.loaded_ft]
  · rw [State.settle_ft, State.ppsAccept_ft, State.measured_ft, State.ftCommandDone_ft, State.loaded_ft]
  · rw [get (by decide) (by decide) (by decide) (by decide), State.loaded_get_state]
  · rw [get (by decide) (by decide) (by decide) (by decide), State.loaded_get_done]
  · rw [State.settle_get_time _ _ (by decide), State.ppsAccept_lock]
  · simp [State.ppsAccept, State.measured, State.loaded]
  · refine Completed.of_frame (State.loaded_completes s s p.value ha) (ps := [.ft])
      (Frame.done s ((Frame.measured _ (by simp) (by simp)).trans (Frame.ppsAccept _ _ (by simp) (by simp)))) (by decide)
      (fs := [F.FT_PPS_ERR_ERR, F.FT_STATUS_PPS_REJ_RUN, F.FT_STATUS_PPS_LOCK, F.FLT_LIVE_LIVE])
      (by unfold Field.outside; decide) fun o ho => State.settle_out_mono _ _ ?_
    simpa [State.ppsAccept, State.measured] using ho

/-- A load behind the count fails the arm as BACKWARD. -/
theorem ppsEdge_failsBackward {rising : Bool} {s : State} {p : PendingLoad} (up : s.mainUp = true)
    (pol : rising ≠ s.flag F.FT_CTL_PPS_POL) (armed : s.ft.pending = some p) (fresh : s.now ≤ p.at_ + 2000000000)
    (ok : s.flag F.FT_STATUS_REF_OK = true) (lt : p.value < s.ft.count) (free : s.ftCommand = none) :
    Answers (.ppsEdge rising) s fun t =>
      t.ft.count = s.ft.count ∧ t.ft.pending = none ∧ t.get F.FT_STATUS_ARM_FAIL = 1 ∧
      t.get F.FT_STATUS_ARM_CAUSE = 3 := by
  refine ⟨_, exec_ppsEdge_backward up pol armed fresh ok lt free, ?_⟩
  obtain ⟨hcount, hpending, hfail, hcause⟩ :=
    State.ppsJudge_keeps ((s.setFt { s.ft with pending := none }).armFails 3)
  have ft : ((s.setFt { s.ft with pending := none }).armFails 3).ft = { s.ft with pending := none } := by
    rw [State.armFails, State.set_ft, State.set_ft, State.setFt_ft]
  rw [ft] at hcount hpending
  refine ⟨by rw [State.settle_ft, hcount], by rw [State.settle_ft, hpending], ?_, ?_⟩
  · rw [State.settle_get_time _ _ (by decide), hfail, State.armFails, State.get_set_of_id _ (by decide),
      State.get_set_self]
    rfl
  · rw [State.settle_get_time _ _ (by decide), hcause, State.armFails, State.get_set_self]
    rfl

/-- Settles O34: an edge is judged where no load is armed, a gap is a rejected edge, and an armed load comes into force, whose
edge is then accepted without an error, or fails the arm. -/
theorem ppsSteersAndLoads : Obligations.PpsSteersAndLoads :=
  ⟨fun _ _ up pol idle run => ⟨fun lo hi => ppsEdge_accepts up pol idle run ⟨lo, hi⟩,
      fun far => ppsEdge_rejects up pol idle run fun ⟨lo, hi⟩ => far.elim (Int.not_lt.2 lo) (Int.not_lt.2 hi)⟩,
    fun _ up run due => ppsMissingTimeout_rejects up run due,
    fun _ _ _ up pol armed fresh ok => ⟨fun le whole => ppsEdge_loads up pol armed fresh ok le whole,
      fun lt free => ppsEdge_failsBackward up pol armed fresh ok lt free⟩⟩

end Sys2Proof.Machine

/-! SUPPORT. What a fault event can do to the Granary: it leaves it as it was, begins a requested dump, or latches. A relation
between states that holds of each of these, and composes, holds of every fault event and of every completion. -/

namespace Sys2Proof.Machine

/-! ### Steps that leave the Granary as it was -/

/-- The fields by which a dump request is judged, and those that it writes (R28, R41). -/
def requestFields : List Field :=
  [F.GRN_STATE_STATE, F.GRN_STATE_CAUSE, F.GRN_STATE_REQ_SRC, F.GRN_STATE_REFUSED, F.FLT_PERSIST_LATCHED]

/-- From `s` to `t` the Granary is as it was, and so is what a dump request is judged by. -/
structure Aside (s t : State) : Prop where
  grn : t.grn = s.grn
  failed : t.pwr.failed = s.pwr.failed
  word : ∀ g ∈ requestFields, t.get g = s.get g

namespace Aside

variable {s t u : State}

theorem refl (s : State) : Aside s s := ⟨rfl, rfl, fun _ _ => rfl⟩

theorem trans (h : Aside s t) (k : Aside t u) : Aside s u :=
  ⟨k.grn.trans h.grn, k.failed.trans h.failed, fun g hg => (k.word g hg).trans (h.word g hg)⟩

theorem of_regs (grn : t.grn = s.grn) (failed : t.pwr.failed = s.pwr.failed) (regs : t.regs = s.regs) : Aside s t :=
  ⟨grn, failed, fun g _ => State.getN_same regs g 0⟩

theorem setN (s : State) {f : Field} (h : ∀ g ∈ requestFields, f.id ≠ g.id) (n v : Nat) : Aside s (s.setN f n v) :=
  ⟨by simp, by simp, fun g hg => State.getN_setN_of_id s (h g hg) n v 0⟩

theorem set (s : State) {f : Field} (h : ∀ g ∈ requestFields, f.id ≠ g.id) (v : Nat) : Aside s (s.set f v) := setN s h 0 v

theorem foldl {α : Type} (step : State → α → State) (l : List α) (h : ∀ s a, Aside s (step s a)) (s : State) :
    Aside s (l.foldl step s) :=
  List.foldlRecOn l step (motive := fun t => Aside s t) (refl s) fun t ht a _ => ht.trans (h t a)

theorem of_frame {ps : List Part} {fs : List Field} (h : Frame s t ps fs) (grn : .grn ∉ ps) (pwr : .pwr ∉ ps)
    (word : ∀ g ∈ requestFields, g.outside (settleFields ++ fs)) : Aside s t :=
  ⟨h.2.2.1 .grn grn, congrArg Power.failed (h.2.2.1 .pwr pwr), fun g hg => h.2.2.2 g (word g hg) 0⟩

/-- What the mailboxes do to end a command. -/
theorem of_mailboxes (h : Frame s t [.mbx] completeFields) : Aside s t :=
  of_frame h (by decide) (by decide) (by simp only [Field.outside]; decide)

theorem settle (old s : State) : Aside s (State.settle old s) :=
  of_frame (Frame.settle old s [] []) (by decide) (by decide) (by simp only [Field.outside]; decide)

end Aside

/-! ### The capture of an event (R441 to R446) -/

theorem Aside.bumpQuiet (s : State) (c : Counter) (n : Nat) (hc : ∀ g ∈ requestFields, c.count.id ≠ g.id)
    (hs : ∀ g ∈ requestFields, c.sat.id ≠ g.id) : Aside s (s.bumpQuiet c n).2 :=
  ⟨by simp, by simp, fun g hg => State.bumpQuiet_getN s c n (hc g hg) (hs g hg) 0⟩

theorem Aside.markSource (s : State) (i : SourceInfo) (n : Nat) : Aside s (s.markSource i n) := by
  have sticky := Aside.setN s (f := F.FLT_STICKY_STICKY) (by decide) (n / 64)
  unfold State.markSource
  split
  · exact (sticky _).trans (Aside.setN _ (by decide) _ _)
  · exact sticky _

theorem Aside.captureSevere (s : State) (b : Bool) (r : FaultRecord) : Aside s (s.captureSevere b r) := by
  unfold State.captureSevere
  split
  · exact (((((Aside.setN s (by decide) _ _).trans (Aside.setN _ (by decide) _ _)).trans (Aside.setN _ (by decide) _ _)).trans
      (Aside.set _ (by decide) _)).trans (Aside.set _ (by decide) _)).trans (Aside.set _ (by decide) _)
  · exact Aside.refl s

theorem Aside.writeHistory (s : State) (i : Nat) (r : FaultRecord) : Aside s (s.writeHistory i r) :=
  (((((Aside.setN s (by decide) _ _).trans (Aside.setN _ (by decide) _ _)).trans (Aside.setN _ (by decide) _ _)).trans
    (Aside.setN _ (by decide) _ _)).trans (Aside.set _ (by decide) _)).trans (Aside.set _ (by decide) _)

theorem Aside.enterHistory (s : State) : Aside s s.enterHistory := by
  unfold State.enterHistory
  split
  · exact Aside.refl s
  next r rest _ => exact (Aside.writeHistory s (s.get F.FLT_HIST_PTRS_WR) r).trans (Aside.of_regs (by simp) (by simp) (by simp))

theorem Aside.takeRecord (s : State) (r : FaultRecord) (b : Bool) : Aside s (s.takeRecord r b) := by
  have room : Aside s s.makeRoom := by
    unfold State.makeRoom
    split
    · exact Aside.refl s
    · exact Aside.enterHistory s
  unfold State.takeRecord
  split
  · exact room.trans (Aside.of_regs (by simp) (by simp) (by simp))
  · exact (Aside.bumpQuiet s C.skipped 0 (by decide) (by decide)).trans (Aside.of_regs rfl rfl rfl)

theorem Aside.captureEvent (s : State) (i : SourceInfo) (n inst word : Nat) (b : Bool) :
    Aside s (s.captureEvent i n inst word b) :=
  ((Aside.markSource s i n).trans (Aside.of_regs (by simp) (by simp) (by simp))).trans
    ((Aside.captureSevere _ _ _).trans (Aside.takeRecord _ _ _))

/-! ### Relations that every fault event satisfies -/

/-- Whether a source is of the class FATAL-PERSIST (R436). -/
def sourcePersists (n : Nat) : Bool := (sourceInfo n).any (·.cls == .fatalPersist)

/-- A relation that composes, and holds of what leaves the Granary as it was and of a dump request. -/
structure EventRel (R : State → State → Prop) : Prop where
  trans : ∀ {s t u}, R s t → R t u → R s u
  aside : ∀ {s t}, Aside s t → R s t
  dump : ∀ s k, R s (s.requestDump k).2

namespace EventRel

variable {R : State → State → Prop} (hR : EventRel R)
include hR

theorem refl (s : State) : R s s := hR.aside (Aside.refl s)

theorem react (s : State) (n inst : Nat) (b : Bool) : R s (s.react n inst b) := by
  have vector : ∀ (t : State) (c : Bool), Aside t (t.reactVector c) := fun t c =>
    Aside.of_regs (by simp) (by simp) (by simp)
  have alert : ∀ (t : State) (c : Bool), Aside t (t.reactAlert c) := fun t c => by
    unfold State.reactAlert
    split
    · exact Aside.set t (by decide) 1
    · exact Aside.refl t
  have trap : ∀ (t : State) (c : Bool), Aside t (t.reactTrap c n inst) := fun t c =>
    Aside.of_regs (by simp) (by simp) (by simp)
  have dump : ∀ (t : State) (c : Bool), R t (t.reactDump c) := fun t c => by
    unfold State.reactDump
    split
    · exact hR.dump t 3
    · exact hR.refl t
  have reset : ∀ (t : State) (c : Bool), Aside t (t.reactReset c n) := fun t c => by
    refine Aside.of_regs (by simp) ?_ (by simp)
    unfold State.reactReset State.requestChipReset
    split_ifs <;> rfl
  exact hR.trans (hR.trans (hR.aside (((vector s _).trans (alert _ _)).trans (trap _ _))) (dump _ _)) (hR.aside (reset _ _))

theorem raiseCore (s : State) (n inst word : Nat) (b : Bool)
    (latch : sourcePersists n = true → b = false → ∀ s : State, R s (s.latchPersist n)) : R s (s.raiseCore n inst word b) := by
  have latchIf : ∀ (info : SourceInfo) (t : State), sourceInfo n = some info →
      R t (t.latchIf (info.cls == .fatalPersist && !b) n) := fun info t hi => by
    unfold State.latchIf
    split
    next hp =>
      rw [Bool.and_eq_true, Bool.not_eq_true'] at hp
      exact latch (by rw [sourcePersists, hi]; exact hp.1) hp.2 t
    next => exact hR.refl t
  unfold State.raiseCore
  split
  · exact hR.refl s
  next info hi =>
    exact hR.trans (hR.trans (hR.aside ((Aside.captureEvent s info n inst word b).trans
      (Aside.of_regs (by simp) (by simp) (by simp)))) (latchIf info _ hi)) (hR.react _ _ _ _)

theorem bumpN (s : State) (c : Counter) (n : Nat) (hc : ∀ g ∈ requestFields, c.count.id ≠ g.id)
    (hs : ∀ g ∈ requestFields, c.sat.id ≠ g.id) : R s (s.bumpN c n) := by
  have quiet := hR.aside (Aside.bumpQuiet s c n hc hs)
  have saturated : ∀ t : State, R t (t.raiseSaturated c n) := fun t => by
    unfold State.raiseSaturated
    split
    · exact hR.refl t
    · exact hR.trans (hR.aside (Aside.bumpQuiet t C.faultCount 0 (by decide) (by decide)))
        (hR.raiseCore _ 0 _ _ _ fun h => Bool.noConfusion h)
  unfold State.bumpN
  dsimp only
  split
  · exact hR.trans quiet (saturated _)
  · exact quiet

theorem bumpTimes (c : Counter) (hc : ∀ g ∈ requestFields, c.count.id ≠ g.id)
    (hs : ∀ g ∈ requestFields, c.sat.id ≠ g.id) (k : Nat) (s : State) : R s (s.bumpTimes c k) := by
  induction k generalizing s with
  | zero => exact hR.refl s
  | succ k ih => exact hR.trans (hR.bumpN s c 0 hc hs) (ih _)

theorem raiseWith (s : State) (n inst word : Nat) (b : Bool)
    (latch : sourcePersists n = true → b = false → ∀ s : State, R s (s.latchPersist n)) : R s (s.raiseWith n inst word b) := by
  unfold State.raiseWith
  split
  · exact hR.refl s
  · refine hR.trans ?_ (hR.raiseCore _ n inst word b latch)
    split
    · exact hR.aside (Aside.bumpQuiet s C.faultCount 0 (by decide) (by decide))
    · exact hR.bumpN s C.faultCount n (by decide) (by decide)

/-- An event of a source that does not latch. -/
theorem raise (s : State) {n : Nat} (h : sourcePersists n = false) (inst word : Nat) : R s (s.raise n inst word) :=
  hR.raiseWith s n inst word false fun hp => absurd hp (by simp [h])

theorem raiseLive (s : State) {n : Nat} (h : sourcePersists n = false) (inst word : Nat) :
    R s (s.raiseLive n inst word) := by
  unfold State.raiseLive
  split
  · exact hR.refl s
  · exact hR.raise s h inst word

theorem mailboxes {s t : State} (h : Frame s t [.mbx] completeFields) : R s t := hR.aside (Aside.of_mailboxes h)

theorem pairError (s : State) (n c : Nat) : R s (s.pairError n c) := by
  have error : Frame s (s.enterError n c) [.mbx] completeFields :=
    (Frame.setPair s n _ (by simp) _).trans ((Frame.setN _ _ _ _ (by simp [completeFields])).trans
      (Frame.setN _ _ _ _ (by simp [completeFields])))
  unfold State.pairError
  split
  · exact hR.trans (hR.mailboxes error) (hR.raise _ (by decide) _ _)
  · exact hR.refl s

theorem cqFails (s : State) (n : Nat) : R s (s.cqFails n) := by
  unfold State.cqFails
  exact hR.trans (hR.pairError s n 3) (hR.mailboxes ((Frame.setPair _ _ _ (by simp) _).trans
    ((Frame.foldl _ _ (fun _ _ t => Frame.dropInflight (fun _ h => h) t _) _).trans
      (Frame.finishDrain (by simp) (fun _ h => h) _ _))))

/-- The end of a command can raise no event but that of its mailbox (R113). -/
theorem complete (s : State) (a : Accepted) (st r : Nat) : R s (s.complete a st r) := by
  have hf : ∀ f ∈ completeFields, f ∈ completeFields := fun _ h => h
  have forget : Frame s (s.forget a.id) [.mbx] completeFields := Frame.forget s a.id (by simp) _
  have hold : ∀ (t : State) (n : Nat) (c : Cpl), Frame t (t.holdCpl n c) [.mbx] completeFields := fun t n _ =>
    Frame.setPair t n _ (by simp) _
  unfold State.complete
  split
  · exact hR.mailboxes (forget.trans (Frame.admComplete hf _ _ _ _ _))
  · unfold State.pairComplete
    split_ifs
    · exact hR.mailboxes (forget.trans ((Frame.dropInflight hf _ _).trans (Frame.finishDrain (by simp) hf _ _)))
    · exact hR.trans (hR.mailboxes (forget.trans (hold _ _ _))) (hR.cqFails _ _)
    · exact hR.mailboxes (forget.trans (hold _ _ _))
    · exact hR.mailboxes (forget.trans ((Frame.writeCpl (by simp) hf _ _ _).trans (Frame.finishDrain (by simp) hf _ _)))

end EventRel

end Sys2Proof.Machine

namespace Sys2Proof.Machine

/-! ### What even a dump and a latch leave of the Granary -/

/-- The Granary but for what the start of a dump, a latch, or the keeping of the chain changes: its ingress, segments,
records, fetches and the dump itself. -/
def Granary.core (g : Granary) : Granary :=
  { g with closed := false, waiters := [], granted := [], reserved := 0, deltas := [], openSeg := none, sealing := [],
           inflight := [], pass := none, rebase := none, rec0 := [], rec1 := [], fetches := [], dump := none, quiet := false }

/-- From `s` to `t` the window's configuration and maps are as they were, and no fetch has been added. -/
structure KeepsWindow (s t : State) : Prop where
  core : t.grn.core = s.grn.core
  fetches : ∀ f ∈ t.grn.fetches, f ∈ s.grn.fetches

namespace KeepsWindow

variable {s t u : State}

theorem refl (s : State) : KeepsWindow s s := ⟨rfl, fun _ h => h⟩

theorem trans (h : KeepsWindow s t) (k : KeepsWindow t u) : KeepsWindow s u :=
  ⟨k.core.trans h.core, fun f hf => h.fetches f (k.fetches f hf)⟩

theorem of_grn (h : t.grn = s.grn) : KeepsWindow s t := ⟨by rw [h], fun f hf => by rwa [h] at hf⟩

theorem config (h : KeepsWindow s t) : t.grn.config = s.grn.config := (congrArg Granary.config h.core :)
theorem landing (h : KeepsWindow s t) : t.grn.landing = s.grn.landing := (congrArg Granary.landing h.core :)
theorem dirty (h : KeepsWindow s t) : t.grn.dirty = s.grn.dirty := (congrArg Granary.dirty h.core :)
theorem unrestored (h : KeepsWindow s t) : t.grn.unrestored = s.grn.unrestored := (congrArg Granary.unrestored h.core :)
theorem lost (h : KeepsWindow s t) : t.grn.lost = s.grn.lost := (congrArg Granary.lost h.core :)

theorem foldl {α : Type} (step : State → α → State) (l : List α) (h : ∀ s a, KeepsWindow s (step s a)) (s : State) :
    KeepsWindow s (l.foldl step s) :=
  List.foldlRecOn l step (motive := fun t => KeepsWindow s t) (refl s) fun t ht a _ => ht.trans (h t a)

end KeepsWindow

theorem State.openDump_fetches (s : State) (b p : Bool) : ∀ f ∈ (s.openDump b p).grn.fetches, f ∈ s.grn.fetches := by
  intro f hf
  cases p
  · exact (List.mem_filter.1 hf).1
  · exact absurd hf (by simp [State.openDump])

theorem KeepsWindow.openedDump (s : State) (b p : Bool) :
    KeepsWindow s (s.closeIngress.abandonSegments.openDump b p).pauseMigrations :=
  KeepsWindow.trans (t := s.closeIngress.abandonSegments.openDump b p)
    ⟨rfl, State.openDump_fetches s.closeIngress.abandonSegments b p⟩ (KeepsWindow.of_grn (by simp))

theorem KeepsWindow.beginDump (s : State) (c : Nat) (p : Bool) : KeepsWindow s (s.beginDump c p) := by
  unfold State.beginDump
  split
  · exact KeepsWindow.openedDump s true p
  · exact (KeepsWindow.openedDump s false p).trans (KeepsWindow.of_grn (by simp))

theorem KeepsWindow.requestDump (s : State) (k : Nat) : KeepsWindow s (s.requestDump k).2 := by
  unfold State.requestDump
  split
  · exact (KeepsWindow.beginDump s 2 false).trans (KeepsWindow.of_grn (by simp))
  · exact KeepsWindow.of_grn (by simp)

theorem KeepsWindow.closeIngress (s : State) : KeepsWindow s s.closeIngress := ⟨rfl, fun _ h => h⟩

theorem KeepsWindow.failDump (s : State) : KeepsWindow s s.failDump := ⟨rfl, fun _ h => h⟩

theorem KeepsWindow.latchPersist (s : State) (n : Nat) : KeepsWindow s (s.latchPersist n) := by
  unfold State.latchPersist
  split
  · exact KeepsWindow.refl s
  · exact (KeepsWindow.of_grn (by simp)).trans ((KeepsWindow.closeIngress _).trans (KeepsWindow.failDump _))

theorem KeepsWindow.eventRel : EventRel KeepsWindow where
  trans := KeepsWindow.trans
  aside h := KeepsWindow.of_grn h.grn
  dump := KeepsWindow.requestDump

theorem KeepsWindow.raiseWith (s : State) (n inst word : Nat) (b : Bool) : KeepsWindow s (s.raiseWith n inst word b) :=
  KeepsWindow.eventRel.raiseWith s n inst word b fun _ _ t => KeepsWindow.latchPersist t n

theorem KeepsWindow.raise (s : State) (n inst word : Nat) : KeepsWindow s (s.raise n inst word) :=
  KeepsWindow.raiseWith s n inst word false

/-! ### Events while no dump request is granted -/

/-- A dump request is granted (R28, R41). -/
def State.grantsDump (s : State) : Bool := s.grnServes && !s.pwr.failed && !s.latched

/-- From `s` to `t` ingress, power and the state word are as they were, but that REFUSED may have been set. -/
structure Spared (s t : State) : Prop where
  closed : t.grn.closed = s.grn.closed
  failed : t.pwr.failed = s.pwr.failed
  state : t.get F.GRN_STATE_STATE = s.get F.GRN_STATE_STATE
  cause : t.get F.GRN_STATE_CAUSE = s.get F.GRN_STATE_CAUSE
  source : t.get F.GRN_STATE_REQ_SRC = s.get F.GRN_STATE_REQ_SRC
  latched : t.get F.FLT_PERSIST_LATCHED = s.get F.FLT_PERSIST_LATCHED
  refused : s.get F.GRN_STATE_REFUSED = 1 → t.get F.GRN_STATE_REFUSED = 1

/-- From `s` to `t` they are, unless a dump request is granted in `s`. -/
def Sparing (s t : State) : Prop := s.grantsDump = false → Spared s t

theorem Spared.grantsDump {s t : State} (h : Spared s t) : t.grantsDump = s.grantsDump := by
  simp only [State.grantsDump, State.grnServes, State.grnState, State.latched, State.flag, h.state, h.failed, h.latched]

theorem State.grantsDump_of_state {s : State} {n : Nat} (h : s.grnState = n) (hl : n ≠ Grn.lazy) (hr : n ≠ Grn.ready) :
    s.grantsDump = false := by
  simp [State.grantsDump, State.grnServes, h, hl, hr]

theorem Aside.spared {s t : State} (h : Aside s t) : Spared s t where
  closed := by rw [h.grn]
  failed := h.failed
  state := h.word _ (by simp [requestFields])
  cause := h.word _ (by simp [requestFields])
  source := h.word _ (by simp [requestFields])
  latched := h.word _ (by simp [requestFields])
  refused r := (h.word F.GRN_STATE_REFUSED (by simp [requestFields])).trans r

theorem Spared.trans {s t u : State} (h : Spared s t) (k : Spared t u) : Spared s u where
  closed := k.closed.trans h.closed
  failed := k.failed.trans h.failed
  state := k.state.trans h.state
  cause := k.cause.trans h.cause
  source := k.source.trans h.source
  latched := k.latched.trans h.latched
  refused r := k.refused (h.refused r)

theorem Spared.setRefused (s : State) : Spared s (s.set F.GRN_STATE_REFUSED 1) where
  closed := by simp
  failed := by simp
  state := State.get_set_of_id s (by decide) 1
  cause := State.get_set_of_id s (by decide) 1
  source := State.get_set_of_id s (by decide) 1
  latched := State.get_set_of_id s (by decide) 1
  refused _ := State.get_set_self s F.GRN_STATE_REFUSED 1

theorem State.requestDump_of_not {s : State} (h : s.grantsDump = false) (k : Nat) :
    s.requestDump k = (false, s.set F.GRN_STATE_REFUSED 1) :=
  if_neg (Bool.eq_false_iff.1 h)

theorem Sparing.eventRel : EventRel Sparing where
  trans h k hs := (h hs).trans (k ((h hs).grantsDump.trans hs))
  aside h _ := h.spared
  dump s k hs := by rw [State.requestDump_of_not hs]; exact Spared.setRefused s

/-! ### What an event leaves of the chain -/

/-- From `s` to `t` the chain records are as they were, and the segments that have come are unsealed. -/
structure KeepsChain (s t : State) : Prop where
  rec0 : t.grn.rec0 = s.grn.rec0
  rec1 : t.grn.rec1 = s.grn.rec1
  deltas : ∃ l : List Segment, t.grn.deltas = s.grn.deltas ++ l ∧ ∀ g ∈ l, g.verdict = .erased

theorem KeepsChain.of_grn {s t : State} (h : t.grn = s.grn) : KeepsChain s t :=
  ⟨by rw [h], by rw [h], [], by rw [h, List.append_nil], fun _ hg => absurd hg List.not_mem_nil⟩

theorem KeepsChain.trans {s t u : State} (h : KeepsChain s t) (k : KeepsChain t u) : KeepsChain s u := by
  obtain ⟨l, hl, he⟩ := h.deltas
  obtain ⟨m, hm, ke⟩ := k.deltas
  exact ⟨k.rec0.trans h.rec0, k.rec1.trans h.rec1, l ++ m, by rw [hm, hl, List.append_assoc],
    fun g hg => (List.mem_append.1 hg).elim (he g) (ke g)⟩

theorem KeepsChain.openedDump (s : State) (b p : Bool) : KeepsChain s (s.closeIngress.abandonSegments.openDump b p) := by
  refine ⟨rfl, rfl, _, rfl, fun g hg => ?_⟩
  obtain ⟨_, _, rfl⟩ := List.mem_map.1 hg
  rfl

theorem KeepsChain.requestDump (s : State) (k : Nat) : KeepsChain s (s.requestDump k).2 := by
  unfold State.requestDump State.beginDump
  split
  · exact (KeepsChain.openedDump s false false).trans (KeepsChain.of_grn (by simp))
  · exact KeepsChain.of_grn (by simp)

theorem KeepsChain.eventRel : EventRel KeepsChain where
  trans := KeepsChain.trans
  aside h := KeepsChain.of_grn h.grn
  dump := KeepsChain.requestDump

theorem KeepsChain.chainRecord {s t : State} (h : KeepsChain s t) : t.chainRecord = s.chainRecord := by
  simp only [State.chainRecord, h.rec0, h.rec1]

/-- An unsealed segment holds no newest copy (R361). -/
theorem KeepsChain.newestIn {s t : State} (h : KeepsChain s t) (area seq page : Nat) :
    t.newestIn area seq page = s.newestIn area seq page := by
  obtain ⟨l, hl, erased⟩ := h.deltas
  have none : ∀ q : Segment → Bool,
      (l.filter (fun g => decide (s.chainFirst ≤ g.seq))).any (fun g => g.kind != .manifest && g.verdict != .erased && q g) =
        false := fun q => by
    rw [List.any_eq_false]
    intro g hg
    simp [erased g (List.mem_filter.1 hg).1]
  have first : t.chainFirst = s.chainFirst := by rw [State.chainFirst, h.chainRecord, State.chainFirst]
  simp only [State.newestIn, State.chainDeltas, first, h.chainRecord, hl, List.filter_append, List.any_append]
  simp only [Bool.and_assoc] at none ⊢
  rw [none, Bool.or_false]

end Sys2Proof.Machine

namespace Sys2Proof.Machine

/-! SUPPORT. The state word, chain records, levels and rebases: what each leaves of the Granary and of the mailboxes. -/

/-! ### The mailboxes' rings -/

/-- The fields by which a completion finds its ring (R113, R272). -/
def ringFields : List Field := [F.MBX_STATE_ERR_CAUSE, F.MBX_STATE_CTX, F.CTX_CFG_EN]

/-- From `s` to `t` the mailboxes are as they were, and so is where their completions go. -/
structure SameRings (s t : State) : Prop where
  mbx : t.mbx = s.mbx
  reg : ∀ g ∈ ringFields, ∀ n, t.getN g n = s.getN g n

namespace SameRings

variable {s t u : State}

theorem refl (s : State) : SameRings s s := ⟨rfl, fun _ _ _ => rfl⟩

theorem trans (h : SameRings s t) (k : SameRings t u) : SameRings s u :=
  ⟨k.mbx.trans h.mbx, fun g hg n => (k.reg g hg n).trans (h.reg g hg n)⟩

theorem of_regs (mbx : t.mbx = s.mbx) (regs : t.regs = s.regs) : SameRings s t :=
  ⟨mbx, fun g _ n => State.getN_same regs g n⟩

theorem setN (s : State) {f : Field} (h : ∀ g ∈ ringFields, f.id ≠ g.id) (n v : Nat) : SameRings s (s.setN f n v) :=
  ⟨by simp, fun g hg m => State.getN_setN_of_id s (h g hg) n v m⟩

theorem set (s : State) {f : Field} (h : ∀ g ∈ ringFields, f.id ≠ g.id) (v : Nat) : SameRings s (s.set f v) := setN s h 0 v

theorem setAll (l : List (Field × Nat)) (h : ∀ g ∈ ringFields, ∀ p ∈ l, p.1.id ≠ g.id) (s : State) :
    SameRings s (s.setAll l) :=
  ⟨by simp, fun g hg m => State.setAll_getN l g (h g hg) m s⟩

theorem foldl {α : Type} (step : State → α → State) (l : List α) (h : ∀ s a, SameRings s (step s a)) (s : State) :
    SameRings s (l.foldl step s) :=
  List.foldlRecOn l step (motive := fun t => SameRings s t) (refl s) fun t ht a _ => ht.trans (h t a)

theorem outside_raise {g : Field} (h : g ∈ ringFields) : g.outside raiseFields := by
  revert g
  unfold Field.outside
  decide

theorem raise (s : State) (n inst word : Nat) : SameRings s (s.raise n inst word) :=
  ⟨by simp, fun _ hg m => State.raise_getN s n inst word (outside_raise hg) m⟩

theorem raiseLive (s : State) (n inst word : Nat) : SameRings s (s.raiseLive n inst word) :=
  ⟨by simp, fun _ hg m => State.raiseLive_getN s n inst word (outside_raise hg) m⟩

theorem clearLive (s : State) (n : Nat) : SameRings s (s.clearLive n) :=
  ⟨by simp, fun _ hg m => State.clearLive_getN s n (outside_raise hg) m⟩

theorem setGrn (s : State) (st : Nat) : SameRings s (s.setGrn st) :=
  ⟨by simp, fun _ hg m => State.setGrn_getN s st (outside_raise hg) m⟩

theorem requestDump (s : State) (k : Nat) : SameRings s (s.requestDump k).2 :=
  ⟨by simp, fun _ hg m => State.requestDump_getN s k (outside_raise hg) m⟩

theorem cqStopped (h : SameRings s t) (n : Nat) : t.cqStopped n = s.cqStopped n := by
  rw [State.cqStopped, h.reg _ (by simp [ringFields]), State.cqStopped]

theorem cqUnreachable (h : SameRings s t) (n : Nat) : t.cqUnreachable n = s.cqUnreachable n := by
  simp only [State.cqUnreachable, State.ctxEnabled, State.pair_congr h.mbx, h.reg F.MBX_STATE_CTX (by simp [ringFields]),
    h.reg F.CTX_CFG_EN (by simp [ringFields])]

theorem ringBad (h : SameRings s t) (a : Accepted) : t.ringBad a = s.ringBad a := by
  cases hm : a.mb with
  | admin => simp only [State.ringBad, hm]
  | pair n => simp only [State.ringBad, hm, h.cqUnreachable]

/-- A command completed after work that left the mailboxes alone has completed as seen from before that work. -/
theorem completed (h : SameRings s t) (old : State) (a : Accepted) (st r : Nat) :
    Completed s a st r (State.settle old (t.complete a st r)) :=
  State.complete_completed old s t a st r h.mbx h.cqStopped h.cqUnreachable

/-- The frame of completing a command after such work. -/
theorem frame_complete (h : SameRings s t) (a : Accepted) (st r : Nat) :
    Frame t (t.complete a st r) (cplParts s a) (cplFields s a) := by
  have hp : cplParts t a = cplParts s a := by rw [cplParts, h.ringBad, cplParts]
  have hf : cplFields t a = cplFields s a := by rw [cplFields, h.ringBad, cplFields]
  rw [← hp, ← hf]
  exact Frame.complete t a st r

end SameRings

/-- With its ring in reach, a command completes without an event (R113). -/
theorem Aside.complete {s : State} {a : Accepted} (h : s.ringBad a = false) (st r : Nat) : Aside s (s.complete a st r) := by
  have f := Frame.complete s a st r
  rw [cplParts, cplFields, if_neg (by simp [h]), if_neg (by simp [h])] at f
  exact Aside.of_mailboxes f

/-! ### The state word (R377) -/

theorem Spared.of_regs {s t : State} (closed : t.grn.closed = s.grn.closed) (failed : t.pwr.failed = s.pwr.failed)
    (regs : t.regs = s.regs) : Spared s t :=
  ⟨closed, failed, State.getN_same regs _ 0, State.getN_same regs _ 0, State.getN_same regs _ 0,
    State.getN_same regs _ 0, fun r => (State.getN_same regs _ 0).trans r⟩

theorem Aside.clearLive (s : State) (n : Nat) : Aside s (s.clearLive n) := Aside.setN s (by decide) _ _

theorem KeepsWindow.resumeBackground (s : State) (st : Nat) : KeepsWindow s (s.resumeBackground st) := by
  unfold State.resumeBackground
  split
  · exact ⟨rfl, fun _ h => h⟩
  · exact KeepsWindow.refl s

theorem KeepsWindow.setGrn (s : State) (st : Nat) : KeepsWindow s (s.setGrn st) := by
  unfold State.setGrn
  split
  · exact (KeepsWindow.of_grn (by simp)).trans (KeepsWindow.eventRel.raiseLive _ (by decide) 0 0)
  · exact (KeepsWindow.of_grn (by simp)).trans (KeepsWindow.resumeBackground _ st)

theorem State.resumeBackground_closed (s : State) (st : Nat) : (s.resumeBackground st).grn.closed = s.grn.closed := by
  unfold State.resumeBackground
  split <;> rfl

theorem State.setGrn_closed (s : State) {st : Nat} (h : st ≠ Grn.heldState) : (s.setGrn st).grn.closed = s.grn.closed := by
  rw [State.setGrn, if_neg h, State.resumeBackground_closed, State.clearLive_grn, State.set_grn]

theorem State.setGrn_state (s : State) {st : Nat} (h : st ≠ Grn.heldState) (fits : st < 16) :
    (s.setGrn st).grnState = st := by
  rw [State.setGrn, if_neg h, State.grnState, State.get, State.getN_same (State.resumeBackground_regs _ _), ← State.get,
    (Aside.clearLive _ _).word _ (by simp [requestFields]), State.get_set_self]
  exact Nat.mod_eq_of_lt fits

/-! ### Segments, levels and rebases (R352 to R355) -/

/-- From `s` to `t` the segments that the winnower works on may have moved on, and nothing else of the Granary. -/
theorem KeepsWindow.sealOpen (s : State) : KeepsWindow s s.sealOpen := by
  unfold State.sealOpen
  split
  · exact ⟨rfl, fun _ h => h⟩
  · exact KeepsWindow.refl s

@[simp] theorem State.sealOpen_regs (s : State) : s.sealOpen.regs = s.regs := by
  unfold State.sealOpen
  split <;> rfl

@[simp] theorem State.sealOpen_mbx (s : State) : s.sealOpen.mbx = s.mbx := by
  unfold State.sealOpen
  split <;> rfl

@[simp] theorem State.sealOpen_pwr (s : State) : s.sealOpen.pwr = s.pwr := by
  unfold State.sealOpen
  split <;> rfl

@[simp] theorem State.sealOpen_closed (s : State) : s.sealOpen.grn.closed = s.grn.closed := by
  unfold State.sealOpen
  split <;> rfl

theorem SameRings.sealOpen (s : State) : SameRings s s.sealOpen := SameRings.of_regs s.sealOpen_mbx s.sealOpen_regs

/-- The levels: source 97 follows its condition, and the high level begins, ends, or stays (R352, R353). -/
theorem State.levels_cases (s : State) : ∃ t : State, (t = s.raiseLive 97 0 0 ∨ t = s.clearLive 97) ∧
    (s.levels = t.set F.GOV_STATUS_HIGH 1 ∨ s.levels = (t.set F.GOV_STATUS_HIGH 0).sealOpen ∨ s.levels = t) := by
  refine ⟨if s.grn.budget < s.dirtyBytes then s.raiseLive 97 0 0 else s.clearLive 97, ?_, ?_⟩
  · split
    · exact .inl rfl
    · exact .inr rfl
  · unfold State.levels
    dsimp only
    split_ifs <;> simp

theorem EventRel.levels {R : State → State → Prop} (hR : EventRel R) (hs : ∀ t : State, R t t.sealOpen) (s : State) :
    R s s.levels := by
  obtain ⟨t, ht, hl⟩ := s.levels_cases
  have first : R s t := by
    rcases ht with rfl | rfl
    · exact hR.raiseLive s (by decide) 0 0
    · exact hR.aside (Aside.clearLive s 97)
  rcases hl with h | h | h <;> rw [h]
  · exact hR.trans first (hR.aside (Aside.set _ (by decide) 1))
  · exact hR.trans first (hR.trans (hR.aside (Aside.set _ (by decide) 0)) (hs _))
  · exact first

theorem KeepsWindow.levels (s : State) : KeepsWindow s s.levels := KeepsWindow.eventRel.levels KeepsWindow.sealOpen s

theorem Sparing.levels (s : State) : Sparing s s.levels :=
  Sparing.eventRel.levels (fun _ _ => Spared.of_regs (by simp) (by simp) (by simp)) s

theorem SameRings.levels (s : State) : SameRings s s.levels := by
  obtain ⟨t, ht, hl⟩ := s.levels_cases
  have first : SameRings s t := by
    rcases ht with rfl | rfl
    · exact SameRings.raiseLive s 97 0 0
    · exact SameRings.clearLive s 97
  rcases hl with h | h | h <;> rw [h]
  · exact first.trans (SameRings.set _ (by decide) 1)
  · exact first.trans ((SameRings.set _ (by decide) 0).trans (SameRings.sealOpen _))
  · exact first

/-- A rebase that starts: the rebase itself is new. -/
def State.rebasing (s : State) (b : Rebase) : State := { s with grn := { s.grn with rebase := some b } }

/-- A rebase starts or does not (R355). -/
theorem State.startRebase_cases (s : State) :
    s.startRebase = s ∨ ∃ b : Rebase, s.startRebase = (s.sealOpen.rebasing b).set F.WIN_STATUS_REBASE_SEG 0 := by
  unfold State.startRebase
  split
  · exact .inr ⟨_, rfl⟩
  · exact .inl rfl

theorem KeepsWindow.startRebase (s : State) : KeepsWindow s s.startRebase := by
  rcases s.startRebase_cases with h | ⟨b, h⟩ <;> rw [h]
  · exact KeepsWindow.refl s
  · exact (KeepsWindow.sealOpen s).trans (KeepsWindow.trans (t := s.sealOpen.rebasing b) ⟨rfl, fun _ h => h⟩
      (KeepsWindow.of_grn (by simp)))

theorem Spared.startRebase (s : State) : Spared s s.startRebase := by
  rcases s.startRebase_cases with h | ⟨b, h⟩ <;> rw [h]
  · exact (Aside.refl s).spared
  · exact Spared.trans (t := s.sealOpen.rebasing b) (Spared.of_regs s.sealOpen_closed (congrArg Power.failed s.sealOpen_pwr)
      s.sealOpen_regs) (Aside.set _ (by decide) 0).spared

theorem SameRings.startRebase (s : State) : SameRings s s.startRebase := by
  rcases s.startRebase_cases with h | ⟨b, h⟩ <;> rw [h]
  · exact SameRings.refl s
  · exact SameRings.trans (t := s.sealOpen.rebasing b) ((SameRings.sealOpen s).trans (SameRings.of_regs rfl rfl))
      (SameRings.set _ (by decide) 0)

/-! ### Chain records (R360) -/

@[simp] theorem State.chainFields_grn (s : State) : s.chainFields.grn = s.grn := by simp [State.chainFields]

theorem SameRings.chainFields (s : State) : SameRings s s.chainFields :=
  (SameRings.set s (by decide) _).trans (SameRings.set _ (by decide) _)

theorem SameRings.sealUnits (s : State) (len k : Nat) : SameRings s (s.sealUnits len k) :=
  ⟨by simp [State.sealUnits], fun _ hg m => State.bumpTimes_getN _ _ _ (SameRings.outside_raise hg)
    (by revert hg; revert m; exact fun _ hg => (by decide : ∀ g ∈ ringFields, C.dgeUnit.count.id ≠ g.id) _ hg)
    ((by decide : ∀ g ∈ ringFields, C.dgeUnit.sat.id ≠ g.id) _ hg) m⟩

theorem EventRel.sealUnits {R : State → State → Prop} (hR : EventRel R) (s : State) (len k : Nat) :
    R s (s.sealUnits len k) := hR.bumpTimes C.dgeUnit (by decide) (by decide) _ s

@[simp] theorem State.showRecord_grn (s : State) (r : ChainRecord) : (s.showRecord r).grn = s.grn := by
  simp [State.showRecord]

theorem SameRings.showRecord (s : State) (r : ChainRecord) : SameRings s (s.showRecord r) :=
  (SameRings.setAll _ (by simp [ringFields]; decide) s).trans (SameRings.chainFields _)

/-- The records of both copies. -/
def State.withRecords (s : State) (a b : List ChainRecord) : State := { s with grn := { s.grn with rec0 := a, rec1 := b } }

/-- A record is written to one copy or both and shown, or with neither copy readable source 105 is raised (R360, R377). -/
theorem State.writeRecord_cases (s : State) (event : Nat) (f : ChainRecord → ChainRecord) (w : CopyResult) :
    (s.writeRecord event f w).2 = (s.sealUnits 4048 3).raise 105 0 0 ∨
    ∃ a b r, (s.writeRecord event f w).2 = ((s.sealUnits 4048 3).withRecords a b).showRecord r := by
  cases w with
  | neither c =>
    have failed : s.writeRecord event f (.neither c) = (false, (s.sealUnits 4048 3).raise 105 0 0) := rfl
    exact .inl (by rw [failed])
  | one c =>
    cases c
    · exact .inr ⟨_, _, _, rfl⟩
    · exact .inr ⟨_, _, _, rfl⟩
  | both => exact .inr ⟨_, _, _, rfl⟩

theorem KeepsWindow.withRecords (s : State) (a b : List ChainRecord) : KeepsWindow s (s.withRecords a b) :=
  ⟨rfl, fun _ h => h⟩

theorem KeepsWindow.writeRecord (s : State) (event : Nat) (f : ChainRecord → ChainRecord) (w : CopyResult) :
    KeepsWindow s (s.writeRecord event f w).2 := by
  have units := KeepsWindow.eventRel.sealUnits s 4048 3
  obtain h | ⟨a, b, r, h⟩ := s.writeRecord_cases event f w <;> rw [h]
  · exact units.trans (KeepsWindow.raise _ 105 0 0)
  · exact units.trans ((KeepsWindow.withRecords _ a b).trans (KeepsWindow.of_grn (State.showRecord_grn _ r)))

theorem SameRings.withRecords (s : State) (a b : List ChainRecord) : SameRings s (s.withRecords a b) :=
  SameRings.of_regs rfl rfl

theorem SameRings.writeRecord (s : State) (event : Nat) (f : ChainRecord → ChainRecord) (w : CopyResult) :
    SameRings s (s.writeRecord event f w).2 := by
  have units := SameRings.sealUnits s 4048 3
  obtain h | ⟨a, b, r, h⟩ := s.writeRecord_cases event f w <;> rw [h]
  · exact units.trans (SameRings.raise _ 105 0 0)
  · exact units.trans ((SameRings.withRecords _ a b).trans (SameRings.showRecord _ r))

theorem State.writeRecord_written (s : State) (event : Nat) (f : ChainRecord → ChainRecord) {w : CopyResult}
    (h : w = .both ∨ w = .one false ∨ w = .one true) : (s.writeRecord event f w).1 = true := by
  rcases h with rfl | rfl | rfl <;> rfl

end Sys2Proof.Machine

namespace Sys2Proof.Machine

/-! ### Commands that begin with their data there -/

theorem State.onCmd_of_begins {s : State} {m : Mailbox} {p : Line → Bool} {a : Accepted} (h : s.begins m p a)
    (k : Accepted → State) : s.onCmd m p k = k a := by
  obtain ⟨next, whole⟩ := h
  rw [State.onCmd, next]
  simp only [State.recalled]
  cases hr : a.record with
  | none => rfl
  | some n =>
    rw [hr] at whole
    exact if_pos (by simpa using whole)

theorem State.withInput_of_brings {s v : State} {a : Accepted} {n : Nat} {x : Transfer} {b : List Byte}
    (h : s.brings a n x v b) (k : State → List Byte → State) : s.withInput a n x k = k v b := by
  unfold State.withInput
  rcases h with ⟨hi, rfl, rfl⟩ | ⟨hi, hr⟩
  · rw [if_pos hi]
  · rw [if_neg (by simp [hi]), hr]

/-! ### GRANARY_CONFIG (R340, R341) -/

/-- What GRANARY_CONFIG does with a block that names its operation. -/
def State.grnRun (v : State) (a : Accepted) (op : GrnOp) (b : List Byte) (w : CopyResult) : State :=
  match v.grnBlockFault op b with
  | some off => v.complete a CC.invalidField off
  | none =>
    if !v.grnPermits op (v.grnNewConfig op b).windowLen then v.grnRefuse a
    else if op = .resume then (v.set F.GRN_STATE_REFUSED 0).returnToService.complete a CC.ok 0
    else v.applyGrnConfig a op (v.grnNewConfig op b) w

theorem State.grnConfigure_of_named {s v : State} {m : Mailbox} {op : GrnOp} {a : Accepted} {x : Transfer} {b : List Byte}
    (w : CopyResult) (begins : s.begins m (isOp Op.granaryConfig) a) (data : s.brings a 64 x v b)
    (named : leField b 5 1 = op.code) : s.grnConfigure m op x w = v.grnRun a op b w := by
  rw [State.grnConfigure, State.onCmd_of_begins begins, State.withInput_of_brings data]
  exact if_neg (by simp [named])

section Configure

variable {c : Instr} {s v : State} {m : Mailbox} {op : GrnOp} {a : Accepted} {x : Transfer} {b : List Byte} {w : CopyResult}

/-- A block with a field out of range completes INVALID_FIELD with the field's offset and does nothing else. -/
theorem grnConfigure_faults (hc : exec c s = done s (s.grnConfigure m op x w)) (begins : s.begins m (isOp Op.granaryConfig) a)
    (data : s.brings a 64 x v b) (named : leField b 5 1 = op.code) {off : Nat} (fault : v.grnBlockFault op b = some off) :
    Ends c s v a CC.invalidField off := by
  refine ⟨_, hc, ?_⟩
  rw [State.grnConfigure_of_named w begins data named, State.grnRun, fault]
  exact ⟨(SameRings.refl v).completed s a _ off, Frame.done s (Frame.complete v a _ off)⟩

/-- A refusal sets no more than REFUSED before it completes STATE_CONFLICT (R28). -/
theorem State.grnRefuse_cases (s : State) (a : Accepted) : ∃ t : State, (t = s ∨ t = s.set F.GRN_STATE_REFUSED 1) ∧
    s.grnRefuse a = t.complete a CC.stateConflict 0 := by
  unfold State.grnRefuse
  split
  · exact ⟨_, .inr rfl, rfl⟩
  · exact ⟨_, .inl rfl, rfl⟩

/-- REFUSED set, or not, and then a completion STATE_CONFLICT: nothing else changes. -/
theorem completes_refused {s t : State} (old : State) (a : Accepted) (h : t = s ∨ t = s.set F.GRN_STATE_REFUSED 1) :
    Completed s a CC.stateConflict 0 (State.settle old (t.complete a CC.stateConflict 0)) ∧
      Frame s (State.settle old (t.complete a CC.stateConflict 0)) (cplParts s a) (F.GRN_STATE_REFUSED :: cplFields s a) := by
  have rings : SameRings s t := by
    rcases h with rfl | rfl
    · exact SameRings.refl _
    · exact SameRings.set s (by decide) 1
  have refused : Frame s t (cplParts s a) (F.GRN_STATE_REFUSED :: cplFields s a) := by
    rcases h with rfl | rfl
    · exact Frame.refl _ _ _
    · exact Frame.set s _ 1 (by simp)
  exact ⟨rings.completed old a _ 0, Frame.done old (refused.trans ((rings.frame_complete a _ 0).mono (fun _ h => h)
    fun _ h => List.mem_cons_of_mem _ h))⟩

/-- An operation that the state word forbids completes STATE_CONFLICT and does nothing else but report it. -/
theorem grnConfigure_forbidden (hc : exec c s = done s (s.grnConfigure m op x w)) (begins : s.begins m (isOp Op.granaryConfig) a)
    (data : s.brings a 64 x v b) (named : leField b 5 1 = op.code) (sound : v.grnBlockFault op b = none)
    (forbidden : v.grnPermits op (v.grnNewConfig op b).windowLen = false) : Answers c s fun t =>
      Completed v a CC.stateConflict 0 t ∧ Frame v t (cplParts v a) (F.GRN_STATE_REFUSED :: cplFields v a) := by
  refine ⟨_, hc, ?_⟩
  obtain ⟨t, ht, refuse⟩ := v.grnRefuse_cases a
  rw [State.grnConfigure_of_named w begins data named, State.grnRun, sound]
  simp only [forbidden, Bool.not_false, if_true, refuse]
  exact completes_refused s a ht

/-- What a row of GRANARY_CONFIG turns away. -/
theorem grnConfigure_turnedAway (hc : exec c s = done s (s.grnConfigure m op x w))
    (begins : s.begins m (isOp Op.granaryConfig) a) (data : s.brings a 64 x v b) :
    (∀ off : Nat, leField b 5 1 = op.code → v.grnBlockFault op b = some off → Ends c s v a CC.invalidField off) ∧
    (leField b 5 1 = op.code → v.grnBlockFault op b = none → v.grnPermits op (v.grnNewConfig op b).windowLen = false →
      Answers c s fun t => Completed v a CC.stateConflict 0 t ∧
        Frame v t (cplParts v a) (F.GRN_STATE_REFUSED :: cplFields v a)) :=
  ⟨fun _ named fault => grnConfigure_faults hc begins data named fault,
    fun named sound forbidden => grnConfigure_forbidden hc begins data named sound forbidden⟩

end Configure

/-! ### A new chain (R341) -/

@[simp] theorem State.setDie_grn (s : State) (die : Nat) (r h : Option DieOp) : (s.setDie die r h).grn = s.grn := by
  simp [State.setDie]

theorem SameRings.withFlash (s : State) (f : Flash) : SameRings s { s with flash := f } := SameRings.of_regs rfl rfl

theorem SameRings.withGrn (s : State) (g : Granary) : SameRings s { s with grn := g } := SameRings.of_regs rfl rfl

theorem SameRings.setDie (s : State) (die : Nat) (r h : Option DieOp) : SameRings s (s.setDie die r h) := by
  unfold State.setDie
  exact (SameRings.withFlash s _).trans ((SameRings.setN _ (f := F.FLC_STATUS_BUSY) (by decide) _ _).trans
    (SameRings.setN _ (f := F.FLC_STATUS_SUSP) (by decide) _ _))

@[simp] theorem State.dropFetch_grn (s : State) (page : Nat) : (s.dropFetch page).grn = s.grn := by
  unfold State.dropFetch
  refine (State.foldl_keeps State.grn _ _ (fun t p => ?_) _).trans ?_
  · exact t.setDie_grn p.1 none _
  · rfl

theorem SameRings.dropFetch (s : State) (page : Nat) : SameRings s (s.dropFetch page) := by
  unfold State.dropFetch
  refine (SameRings.withFlash s _).trans (SameRings.foldl _ _ (fun t p => ?_) _)
  exact SameRings.setDie t p.1 none _

/-- The fields of GRN_LOSS, and GRN_STATE.LOSS (R375). -/
def lossFields : List (Field × Nat) :=
  [(F.GRN_LOSS_UNSEALED, 0), (F.GRN_LOSS_SEGMENT, 0), (F.GRN_LOSS_PAGE, 0), (F.GRN_LOSS_CHANNEL, 0),
   (F.GRN_LOSS_PAGES, 0), (F.GRN_LOSS_FIRST_PAGE, 0), (F.GRN_STATE_LOSS, 0)]

theorem State.clearLoss_regs (s : State) : s.clearLoss.regs = (s.setAll lossFields).regs := rfl

theorem State.clearLoss_mbx (s : State) : s.clearLoss.mbx = s.mbx := by
  show (s.setAll lossFields).mbx = s.mbx
  simp

theorem State.clearLoss_config (s : State) : s.clearLoss.grn.config = s.grn.config := by
  show (s.setAll lossFields).grn.config = s.grn.config
  simp

theorem SameRings.clearLoss (s : State) : SameRings s s.clearLoss :=
  (SameRings.setAll lossFields (by decide) s).trans
    (SameRings.of_regs (by rw [State.clearLoss_mbx, State.setAll_mbx]) s.clearLoss_regs)

@[simp] theorem State.tlbDrop_grn (s : State) (p : TlbEntry → Bool) : (s.tlbDrop p).grn = s.grn := rfl

/-- The Granary of a new chain: what it holds of the previous one is its configuration, and what no chain bears on. -/
theorem State.startChain_grn (s : State) : s.startChain.grn = { s.abandonSegments.clearLoss.grn with
    landing := [], dirty := [], unrestored := [], deltas := [], slotA := [], slotB := [], fetches := [],
    channelDump := false, reported := [] } := by
  have fetches : ∀ (l : List Fetch) (t : State), (l.foldl (fun s f => s.dropFetch f.page) t).grn = t.grn := fun l t =>
    State.foldl_keeps State.grn _ l (fun u f => u.dropFetch_grn f.page) t
  simp [State.startChain, State.setGrn, State.resumeBackground, Grn.locating, Grn.heldState, Grn.lazy, Grn.ready, fetches]

theorem State.startChain_config (s : State) : s.startChain.grn.config = s.grn.config := by
  rw [State.startChain_grn]
  exact State.clearLoss_config s.abandonSegments

theorem State.startChain_state (s : State) : s.startChain.grnState = Grn.locating :=
  State.setGrn_state _ (by decide) (by decide)

theorem SameRings.abandonSegments (s : State) : SameRings s s.abandonSegments := SameRings.of_regs (by simp) (by simp)

theorem SameRings.tlbDrop (s : State) (p : TlbEntry → Bool) : SameRings s (s.tlbDrop p) := SameRings.of_regs rfl rfl

theorem SameRings.startChain (s : State) : SameRings s s.startChain := by
  unfold State.startChain
  exact ((SameRings.abandonSegments s).trans ((SameRings.clearLoss _).trans (SameRings.tlbDrop _ _))).trans
    ((SameRings.foldl _ _ (fun t (f : Fetch) => SameRings.dropFetch t f.page) _).trans ((SameRings.withGrn _ _).trans
      (((SameRings.set _ (f := F.GRN_STATE_CAUSE) (by decide) 0).trans
        (SameRings.set _ (f := F.WIN_STATUS_POS) (by decide) 0)).trans
        ((SameRings.chainFields _).trans (SameRings.setGrn _ _)))))

end Sys2Proof.Machine

namespace Sys2Proof.Machine

/-- The configuration in force changes. -/
def State.withConfig (s : State) (cfg : GrnConfig) : State := { s with grn := { s.grn with config := cfg } }

/-- What an operation with a written record leaves before its completion. -/
def State.configured (s : State) (op : GrnOp) : State :=
  if op.sizes then (s.set F.GRN_STATE_REFUSED 0).startChain.levels
  else (s.set F.GRN_STATE_REFUSED 0).levels.startRebase

/-- With a record written, the new configuration is the base of what the operation leaves. -/
theorem State.applyGrnConfig_written (s : State) (a : Accepted) (op : GrnOp) (cfg : GrnConfig) {w : CopyResult}
    (h : w = .both ∨ w = .one false ∨ w = .one true) : ∃ t : State, KeepsWindow (s.withConfig cfg) t ∧ SameRings s t ∧
      s.applyGrnConfig a op cfg w = (t.configured op).complete a CC.ok 0 := by
  unfold State.applyGrnConfig
  dsimp only
  rw [if_pos (State.writeRecord_written _ _ _ h)]
  exact ⟨_, KeepsWindow.writeRecord _ _ _ w, (SameRings.withGrn s _).trans (SameRings.writeRecord _ _ _ w), rfl⟩

theorem SameRings.configured (s : State) (op : GrnOp) : SameRings s (s.configured op) := by
  have refused := SameRings.set s (f := F.GRN_STATE_REFUSED) (by decide) 0
  unfold State.configured
  split
  · exact refused.trans ((SameRings.startChain _).trans (SameRings.levels _))
  · exact refused.trans ((SameRings.levels _).trans (SameRings.startRebase _))

/-- CREATE and FORMAT leave an empty window that is LOCATING (R341). -/
theorem State.configured_sizes (s : State) {op : GrnOp} (h : op.sizes = true) :
    (s.configured op).grn.config = s.grn.config ∧ (s.configured op).grnState = Grn.locating ∧
      (s.configured op).grn.landing = [] ∧ (s.configured op).grn.dirty = [] := by
  rw [State.configured, if_pos h]
  have chain := (s.set F.GRN_STATE_REFUSED 0).startChain_grn
  have levels := KeepsWindow.levels (s.set F.GRN_STATE_REFUSED 0).startChain
  have locating := (s.set F.GRN_STATE_REFUSED 0).startChain_state
  have state := (Sparing.levels _ (State.grantsDump_of_state locating (by decide) (by decide))).state
  refine ⟨?_, state.trans locating, ?_, ?_⟩
  · rw [levels.config, State.startChain_config, State.set_grn]
  · rw [levels.landing, chain]
  · rw [levels.dirty, chain]

/-- TUNE leaves the configuration in force (R341). -/
theorem State.configured_tune (s : State) : (s.configured .tune).grn.config = s.grn.config := by
  have h : KeepsWindow s (s.configured .tune) := (KeepsWindow.of_grn (State.set_grn s _ 0)).trans
    ((KeepsWindow.levels _).trans (KeepsWindow.startRebase _))
  exact h.config

section Configure

variable {c : Instr} {s v : State} {m : Mailbox} {op : GrnOp} {a : Accepted} {x : Transfer} {b : List Byte} {w : CopyResult}

/-- With a record written, an operation puts its configuration in force and completes OK; CREATE and FORMAT empty the window and
begin LOCATING. -/
theorem grnConfigure_made (hc : exec c s = done s (s.grnConfigure m op x w)) (begins : s.begins m (isOp Op.granaryConfig) a)
    (written : w = .both ∨ w = .one false ∨ w = .one true) (data : s.brings a 64 x v b) (resume : op ≠ .resume)
    (named : leField b 5 1 = op.code) (sound : v.grnBlockFault op b = none)
    (permitted : v.grnPermits op (v.grnNewConfig op b).windowLen = true) : Answers c s fun t =>
      t.grn.config = v.grnNewConfig op b ∧ (op ≠ .tune → t.grnState = Grn.locating ∧ t.grn.landing = [] ∧
        t.grn.dirty = []) ∧ Completed v a CC.ok 0 t := by
  obtain ⟨t, window, rings, apply⟩ := v.applyGrnConfig_written a op (v.grnNewConfig op b) written
  have run : s.grnConfigure m op x w = (t.configured op).complete a CC.ok 0 := by
    rw [State.grnConfigure_of_named w begins data named, State.grnRun, sound]
    simp only [permitted, Bool.not_true, Bool.false_eq_true, if_false, if_neg resume, apply]
  have ended := KeepsWindow.eventRel.complete (t.configured op) a CC.ok 0
  have settled := Aside.settle (s := (t.configured op).complete a CC.ok 0) s
  refine ⟨_, hc, ?_⟩
  rw [run]
  beta_reduce
  rw [settled.grn, State.grnState, settled.spared.state, ended.config, ended.landing, ended.dirty]
  refine ⟨?_, fun tune => ?_, (rings.trans (SameRings.configured t op)).completed s a CC.ok 0⟩
  · cases op with
    | resume => exact absurd rfl resume
    | tune => rw [State.configured_tune, window.config]; rfl
    | create => rw [(t.configured_sizes (op := .create) rfl).1, window.config]; rfl
    | format => rw [(t.configured_sizes (op := .format) rfl).1, window.config]; rfl
  · have sizes : op.sizes = true := by
      cases op with
      | resume => exact absurd rfl resume
      | tune => exact absurd rfl tune
      | create | format => rfl
    obtain ⟨-, locating, landing, dirty⟩ := t.configured_sizes sizes
    exact ⟨((Sparing.eventRel.complete _ a CC.ok 0 (State.grantsDump_of_state locating (by decide) (by decide))).state).trans
      locating, landing, dirty⟩

/-! ### Return to service (R364, R368) -/

/-- Paused migrations go on (R367). -/
def State.unpaused (s : State) : State := [0, 1, 2, 3].foldl (fun s ch => s.setN F.DMC_MIGRATE_PAUSED ch 0) s

@[simp] theorem State.unpaused_grn (s : State) : s.unpaused.grn = s.grn := by simp [State.unpaused]

theorem SameRings.unpaused (s : State) : SameRings s s.unpaused :=
  SameRings.foldl _ _ (fun t ch => SameRings.setN t (by decide) ch 0) s

/-- Ingress to the Granary opens. -/
def State.openIngress (s : State) : State := { s with grn := { s.grn with closed := false } }

theorem KeepsWindow.openIngress (s : State) : KeepsWindow s s.openIngress := ⟨rfl, fun _ h => h⟩

theorem State.returnToService_eq {s : State} (h : s.grn.channelDump = false) :
    s.returnToService = (s.unpaused.openIngress.setGrn s.serviceState).startRebase := by
  have service : s.unpaused.openIngress.serviceState = s.serviceState := by
    simp only [State.serviceState, (KeepsWindow.openIngress s.unpaused).unrestored, State.unpaused_grn]
  rw [← service]
  exact if_neg (by change ¬ s.unpaused.grn.channelDump = true; simp [h])

theorem SameRings.returnToService {s : State} (h : s.grn.channelDump = false) : SameRings s s.returnToService := by
  rw [State.returnToService_eq h]
  exact (SameRings.unpaused s).trans ((SameRings.withGrn _ _).trans ((SameRings.setGrn _ _).trans (SameRings.startRebase _)))

theorem KeepsWindow.returnToService {s : State} (h : s.grn.channelDump = false) : KeepsWindow s s.returnToService := by
  rw [State.returnToService_eq h]
  exact (KeepsWindow.of_grn s.unpaused_grn).trans ((KeepsWindow.openIngress _).trans ((KeepsWindow.setGrn _ _).trans
    (KeepsWindow.startRebase _)))

/-- The state of service is LAZY or READY (R364). -/
theorem State.serviceState_cases (s : State) : s.serviceState = Grn.ready ∨ s.serviceState = Grn.lazy := by
  unfold State.serviceState
  split
  · exact .inl rfl
  · exact .inr rfl

theorem State.serviceState_serves (s : State) : s.serviceState ≠ Grn.heldState ∧ s.serviceState < 16 := by
  rcases s.serviceState_cases with h | h <;> rw [h] <;> decide

theorem State.returnToService_serves {s : State} (h : s.grn.channelDump = false) :
    s.returnToService.grnState = s.serviceState ∧ s.returnToService.grn.closed = false := by
  obtain ⟨held, fits⟩ := s.serviceState_serves
  have rebase := Spared.startRebase (s.unpaused.openIngress.setGrn s.serviceState)
  rw [State.returnToService_eq h]
  exact ⟨rebase.state.trans (State.setGrn_state _ held fits), rebase.closed.trans (State.setGrn_closed _ held)⟩

/-- RESUME returns to service and completes OK. -/
theorem granaryResume_returns (begins : s.begins m (isOp Op.granaryConfig) a) (data : s.brings a 64 x v b)
    (named : leField b 5 1 = 3) (sound : v.grnBlockFault .resume b = none) (sealed : v.grnState = Grn.sealed)
    (power : v.pwr.failed = false) (channel : v.grn.channelDump = false) (ring : v.ringBad a = false) :
    Answers (.granaryResume m x) s fun t =>
      t.grnState = v.serviceState ∧ t.grn.closed = false ∧ t.grn.landing = v.grn.landing ∧ t.grn.dirty = v.grn.dirty ∧
      Completed v a CC.ok 0 t := by
  let u := v.set F.GRN_STATE_REFUSED 0
  have run : s.grnConfigure m .resume x .both = u.returnToService.complete a CC.ok 0 := by
    have permitted : v.grnPermits .resume (v.grnNewConfig .resume b).windowLen = true := by
      simp [State.grnPermits, sealed, power]
    rw [State.grnConfigure_of_named (op := .resume) .both begins data named, State.grnRun, sound]
    simp only [permitted, Bool.not_true, Bool.false_eq_true, if_false, if_true]
    rfl
  have same : u.grn = v.grn := State.set_grn v _ 0
  have channel' : u.grn.channelDump = false := by rw [same, channel]
  have rings : SameRings v u.returnToService :=
    (SameRings.set v (by decide) 0).trans (SameRings.returnToService channel')
  have window := KeepsWindow.returnToService channel'
  obtain ⟨state, opened⟩ := State.returnToService_serves channel'
  have ended := (Aside.complete (s := u.returnToService) (a := a) (by rw [rings.ringBad, ring]) CC.ok 0).trans (Aside.settle s _)
  refine ⟨_, rfl, ?_⟩
  rw [run]
  beta_reduce
  rw [ended.grn, State.grnState, ended.spared.state, window.landing, window.dirty, same]
  exact ⟨state.trans (by simp only [State.serviceState, same]), opened, rfl, rfl, rings.completed s a CC.ok 0⟩

/-! ### GRANARY_DUMP (R368) -/

theorem State.requestDump_granted {s : State} (h : s.grantsDump = true) (k : Nat) :
    s.requestDump k = (true, ((s.beginDump 2 false).set F.GRN_STATE_REQ_SRC k).set F.GRN_STATE_REFUSED 0) :=
  if_pos h

theorem State.requestDump_dumps {s : State} (h : s.grantsDump = true) {k : Nat} (fits : k < 4) :
    (s.requestDump k).2.grnState = Grn.dumping ∧ (s.requestDump k).2.get F.GRN_STATE_CAUSE = 2 ∧
      (s.requestDump k).2.get F.GRN_STATE_REQ_SRC = k ∧ (s.requestDump k).2.grn.closed = true := by
  rw [State.requestDump_granted h, State.beginDump, if_neg (by decide)]
  refine ⟨?_, ?_, ?_, ?_⟩
  · rw [State.grnState, State.get_set_of_id _ (by decide), State.get_set_of_id _ (by decide),
      State.get_set_of_id _ (by decide), State.get_set_self]
    rfl
  · rw [State.get_set_of_id _ (by decide), State.get_set_of_id _ (by decide), State.get_set_self]
    rfl
  · rw [State.get_set_of_id _ (by decide), State.get_set_self]
    exact Nat.mod_eq_of_lt fits
  · simp only [State.set_grn, State.pauseMigrations_grn]
    rfl

theorem exec_granaryDump (begins : s.begins m (isOp Op.granaryDump) a) : exec (.granaryDump m) s =
    done s ((s.requestDump 1).2.complete a (if (s.requestDump 1).1 then CC.ok else CC.stateConflict) 0) :=
  congrArg (done s) (State.onCmd_of_begins begins _)

/-- A request that is granted makes the state DUMPING with cause 2 and completes OK. -/
theorem granaryDump_granted (begins : s.begins m (isOp Op.granaryDump) a) (may : s.grantsDump = true) :
    Answers (.granaryDump m) s fun t =>
      t.grnState = Grn.dumping ∧ t.get F.GRN_STATE_CAUSE = 2 ∧ t.get F.GRN_STATE_REQ_SRC = 1 ∧ t.grn.closed = true ∧
      Completed s a CC.ok 0 t := by
  obtain ⟨dumping, cause, source, closed⟩ := State.requestDump_dumps may (k := 1) (by decide)
  refine ⟨_, exec_granaryDump begins, ?_⟩
  have granted : (s.requestDump 1).1 = true := by rw [State.requestDump_granted may]
  rw [granted, if_pos rfl]
  have ended := (Sparing.eventRel.complete (s.requestDump 1).2 a CC.ok 0
    (State.grantsDump_of_state dumping (by decide) (by decide))).trans (Aside.settle s _).spared
  exact ⟨ended.state.trans dumping, ended.cause.trans cause, ended.source.trans source, ended.closed.trans closed,
    (SameRings.requestDump s 1).completed s a CC.ok 0⟩

/-- A request that is not granted sets REFUSED and completes STATE_CONFLICT, and nothing else changes. -/
theorem granaryDump_refused (begins : s.begins m (isOp Op.granaryDump) a) (may : s.grantsDump = false) :
    Answers (.granaryDump m) s fun t =>
      t.get F.GRN_STATE_REFUSED = 1 ∧ Completed s a CC.stateConflict 0 t ∧
      Frame s t (cplParts s a) (F.GRN_STATE_REFUSED :: cplFields s a) := by
  have set := Spared.setRefused s
  have ended := (Sparing.eventRel.complete _ a CC.stateConflict 0 (set.grantsDump.trans may)).trans (Aside.settle s _).spared
  refine ⟨_, exec_granaryDump begins, ?_⟩
  rw [State.requestDump_of_not may]
  exact ⟨ended.refused (State.get_set_self s F.GRN_STATE_REFUSED 1), completes_refused s a (.inr rfl)⟩

end Configure

/-- Settles O45: each row of GRANARY_CONFIG runs as the block that names its operation lets it, and a dump request is granted or
refused. -/
theorem granaryConfiguration : Obligations.GranaryConfiguration :=
  ⟨fun _ _ _ _ _ begins _ _ data => ⟨grnConfigure_turnedAway rfl begins data, grnConfigure_turnedAway rfl begins data,
      grnConfigure_turnedAway rfl begins data, grnConfigure_turnedAway rfl begins data⟩,
    fun _ _ _ _ _ begins written _ _ data =>
      ⟨fun named sound permitted => grnConfigure_made rfl begins written data (by decide) named sound permitted,
        fun named sound permitted => grnConfigure_made rfl begins written data (by decide) named sound permitted,
        fun named sound permitted => grnConfigure_made rfl begins written data (by decide) named sound permitted⟩,
    fun _ _ _ _ begins _ _ data named sound sealed power channel ring =>
      granaryResume_returns begins data named sound sealed power channel ring,
    fun _ _ _ begins => ⟨granaryDump_granted begins, granaryDump_refused begins⟩⟩

end Sys2Proof.Machine

/-! SUPPORT. Page sets, the sticky bits through further events, and how losses, LOCATING, fetches and the vault patrol change the
window. -/

namespace Sys2Proof.Machine

/-! ### Page sets -/

theorem PageSet.mem_insertRange (s : PageSet) {lo hi p : Nat} (hlo : lo ≤ p) (hhi : p < hi) :
    (s.insertRange lo hi).mem p = true := by
  induction s generalizing lo hi with
  | nil => simp [PageSet.insertRange, PageSet.mem, hlo, hhi]
  | cons i rest ih =>
    obtain ⟨a, b⟩ := i
    rw [PageSet.insertRange]
    split_ifs
    · exact Bool.or_eq_true_iff.2 (.inr (ih hlo hhi))
    · simp [PageSet.mem, hlo, hhi]
    · exact ih (by omega) (by omega)

@[simp] theorem PageSet.mem_insert (s : PageSet) (p : Nat) : (s.insert p).mem p = true :=
  PageSet.mem_insertRange s (Nat.le_refl p) (Nat.lt_succ_self p)

@[simp] theorem PageSet.mem_erase (s : PageSet) (p : Nat) : (s.erase p).mem p = false := by
  refine List.any_eq_false.2 fun i hi => ?_
  obtain ⟨j, -, hj⟩ := List.mem_flatMap.1 hi
  rcases List.mem_append.1 hj with h | h <;> split at h <;> simp only [List.mem_singleton, List.not_mem_nil] at h
  · simp [h]
  · simp only [h, Bool.and_eq_true, decide_eq_true_eq]
    omega

theorem PageSet.full_ne_nil {n : Nat} (h : 0 < n) : PageSet.full n ≠ [] := by
  rw [PageSet.full, if_neg (Nat.ne_of_gt h)]
  exact List.cons_ne_nil _ _

/-! ### A sticky bit stays set through further events (R441) -/

theorem bitOf_putBits_mono {v j : Nat} (i : Nat) (h : bitOf v j = true) : bitOf (putBits v i 1 (natOfBool true)) j = true := by
  rw [bitOf_eq_testBit] at h ⊢
  rw [putBits_one, Nat.mul_comm, Nat.testBit_two_pow_mul_add _ (Nat.mod_lt _ (by positivity))]
  split
  next lt => rw [Nat.testBit_mod_two_pow, h, decide_eq_true lt, Bool.and_self]
  next ge =>
    obtain ⟨k, rfl⟩ := Nat.exists_eq_add_of_le (Nat.le_of_not_lt ge)
    rw [Nat.add_sub_cancel_left]
    rw [Nat.add_comm, ← Nat.testBit_div_two_pow] at h
    cases k with
    | zero => simp [natOfBool]
    | succ k =>
      rw [Nat.testBit_succ] at h ⊢
      rwa [show (2 * (v / 2 ^ i / 2) + natOfBool true % 2) / 2 = v / 2 ^ i / 2 by simp [natOfBool]; omega]

theorem State.sticky_setBit64_mono {s : State} {k n : Nat} (hk : k < 256) (hn : n < 256) (h : s.sticky k = true) :
    (s.setBit64 F.FLT_STICKY_STICKY n true).sticky k = true := by
  rw [State.sticky] at h ⊢
  rw [State.setBit64]
  by_cases e : n / 64 = k / 64
  · rw [e, State.getN_setN_self, show F.FLT_STICKY_STICKY.width = 64 from rfl, bitOf_eq_testBit, Nat.testBit_mod_two_pow,
      decide_eq_true (Nat.mod_lt k (by decide)), Bool.true_and, ← bitOf_eq_testBit]
    exact bitOf_putBits_mono _ h
  · rw [State.getN_setN_of_index _ _ (by omega)]
    exact h

theorem State.sticky_raiseCore_mono {s : State} {k n : Nat} (hk : k < 256) (hn : n < 256) (h : s.sticky k = true)
    (inst word : Nat) (b : Bool) : (s.raiseCore n inst word b).sticky k = true := by
  have marked : ∀ info, (s.markSource info n).sticky k = true := fun info => by
    unfold State.markSource
    split
    · exact (State.sticky_setN _ (by decide) _ _ k).trans (State.sticky_setBit64_mono hk hn h)
    · exact State.sticky_setBit64_mono hk hn h
  unfold State.raiseCore
  split
  · exact h
  · rw [State.sticky_react, State.sticky_latchIf, State.sticky_congr (State.logCxlEvent_regs _ _ _ _), State.captureEvent,
      State.sticky_takeRecord, State.sticky_captureSevere, State.sticky_congr (State.countEvent_regs _), marked]

theorem State.sticky_raise_mono {s : State} {k n : Nat} (hk : k < 256) (hn : n < 256) (h : s.sticky k = true)
    (inst word : Nat) : (s.raise n inst word).sticky k = true := by
  have quiet : ∀ (t : State) (i : Nat), (t.bumpQuiet C.faultCount i).2.sticky k = t.sticky k := fun t i => by
    rw [State.sticky, State.bumpQuiet_getN _ _ _ (by decide) (by decide), State.sticky]
  have counted : (s.bumpN C.faultCount n).sticky k = true := by
    unfold State.bumpN State.raiseSaturated
    dsimp only
    split_ifs
    · rw [quiet, h]
    · exact State.sticky_raiseCore_mono hk (by decide) (by rw [quiet, quiet, h]) _ _ _
    · rw [quiet, h]
  unfold State.raise State.raiseWith
  split_ifs
  · exact h
  · exact State.sticky_raiseCore_mono hk hn (by rw [quiet, h]) _ _ _
  · exact State.sticky_raiseCore_mono hk hn counted _ _ _

theorem State.sticky_levels_mono {s : State} {k : Nat} (hk : k < 256) (h : s.sticky k = true) : s.levels.sticky k = true := by
  obtain ⟨t, ht, hl⟩ := s.levels_cases
  have first : t.sticky k = true := by
    rcases ht with rfl | rfl
    · unfold State.raiseLive
      split
      · exact h
      · exact State.sticky_raise_mono hk (by decide) h 0 0
    · rw [State.sticky_clearLive, h]
  rcases hl with e | e | e <;> rw [e]
  · rw [State.sticky_set _ (by decide), first]
  · rw [State.sticky_congr (State.sealOpen_regs _), State.sticky_set _ (by decide), first]
  · exact first

/-! ### Losses (R375) -/

/-- A lost page joins the window's losses, those of an unsealed dump apart. -/
def State.withLoss (s : State) (cause : Field) (page : Nat) : State :=
  { s with grn := { s.grn with
      lost := s.grn.lost.insert page, poisonPages := s.grn.poisonPages.insert page,
      unsealed := if cause.id = F.GRN_LOSS_UNSEALED.id then s.grn.unsealed.insert page else s.grn.unsealed } }

/-- The first loss of a restore counts a dirty shutdown. -/
def State.dirtied (s : State) : State := { s with grn := { s.grn with dirtyShutdowns := s.grn.dirtyShutdowns + 1 } }

/-- A loss counted in GRN_LOSS. -/
def State.lossCounted (s : State) (cause : Field) (page : Nat) : State :=
  (((s.set F.GRN_LOSS_PAGES (min (2 ^ 48 - 1) (s.get F.GRN_LOSS_PAGES + 1))).set F.GRN_LOSS_FIRST_PAGE
    (if s.get F.GRN_LOSS_PAGES = 0 then page else min page (s.get F.GRN_LOSS_FIRST_PAGE))).set cause 1).withLoss cause page

/-- The first loss of a restore also raises source 102. -/
theorem State.recordLoss_eq (s : State) (cause : Field) (page : Nat) :
    s.recordLoss cause page = if (s.lossCounted cause page).flag F.GRN_STATE_LOSS then s.lossCounted cause page
      else ((s.lossCounted cause page).set F.GRN_STATE_LOSS 1).dirtied.raise 102 0 0 := rfl

theorem State.recordLoss_lost (s : State) (cause : Field) (page : Nat) : (s.recordLoss cause page).grn.lost.mem page = true := by
  have counted : (s.lossCounted cause page).grn.lost.mem page = true := PageSet.mem_insert _ page
  rw [State.recordLoss_eq]
  split
  · exact counted
  · rw [(KeepsWindow.raise _ 102 0 0).lost]
    exact counted

/-! ### LOCATING (R371) -/

/-- LOCATING has marked the pages of `u` unrestored, with ingress open. -/
structure Locates (u : PageSet) (t : State) : Prop where
  state : t.grnState = Grn.locating
  unrestored : t.grn.unrestored = u
  closed : t.grn.closed = false

namespace Locates

variable {u : PageSet} {s t : State}

theorem of_regs (h : Locates u s) (unrestored : t.grn.unrestored = s.grn.unrestored) (closed : t.grn.closed = s.grn.closed)
    (state : t.grnState = s.grnState) : Locates u t :=
  ⟨state.trans h.state, unrestored.trans h.unrestored, closed.trans h.closed⟩

/-- No event begins a dump while LOCATING. -/
theorem event (h : Locates u s) (window : KeepsWindow s t) (sparing : Sparing s t) : Locates u t :=
  have spared := sparing (State.grantsDump_of_state h.state (by decide) (by decide))
  h.of_regs window.unrestored spared.closed spared.state

theorem set (h : Locates u s) {f : Field} (hf : ∀ g ∈ requestFields, f.id ≠ g.id) (v : Nat) : Locates u (s.set f v) :=
  h.event (KeepsWindow.of_grn (by simp)) fun _ => (Aside.set s hf v).spared

theorem raise (h : Locates u s) {n : Nat} (hn : sourcePersists n = false) : Locates u (s.raise n 0 0) :=
  h.event (KeepsWindow.raise s n 0 0) (Sparing.eventRel.raise s hn 0 0)

theorem withLoss (h : Locates u s) (cause : Field) (page : Nat) : Locates u (s.withLoss cause page) :=
  h.of_regs rfl rfl rfl

theorem dirtied (h : Locates u s) : Locates u s.dirtied := h.of_regs rfl rfl rfl

theorem recordLoss (h : Locates u s) {cause : Field} (hc : ∀ g ∈ requestFields, cause.id ≠ g.id) (page : Nat) :
    Locates u (s.recordLoss cause page) := by
  have counted : Locates u (s.lossCounted cause page) := (((h.set (by decide) _).set (by decide) _).set hc 1).withLoss cause page
  rw [State.recordLoss_eq]
  split
  · exact counted
  · exact (counted.set (by decide) 1).dirtied.raise (by decide)

theorem recordLosses (h : Locates u s) {cause : Field} (hc : ∀ g ∈ requestFields, cause.id ≠ g.id) (l : List Nat) :
    Locates u (l.foldl (fun t p => t.recordLoss cause p) s) :=
  List.foldlRecOn l _ h fun _ ht p _ => ht.recordLoss hc p

/-- LOCATING ends in LAZY where pages are unrestored. -/
theorem serves (h : Locates u s) (some : u ≠ []) :
    (s.setGrn s.serviceState).grnState = Grn.lazy ∧ (s.setGrn s.serviceState).grn.unrestored = u ∧
      (s.setGrn s.serviceState).grn.closed = false := by
  have lazy : s.serviceState = Grn.lazy := by
    rw [State.serviceState, h.unrestored, if_neg (by simpa using some)]
  rw [lazy]
  exact ⟨State.setGrn_state s (by decide) (by decide), (KeepsWindow.setGrn s _).unrestored.trans h.unrestored,
    (State.setGrn_closed s (by decide)).trans h.closed⟩

end Locates

/-- The segments whose trailers verified, those apart that `bad` names. -/
def State.trailersRead (s : State) (bad : List Nat) : List Segment :=
  s.grn.deltas.map fun g => if bad.contains g.seq && g.verdict == .verified then { g with verdict := .damaged } else g

/-- The window as LOCATING has found it, before the losses. -/
def State.located (s : State) (bad : List Nat) : State :=
  { s with grn := { s.grn with deltas := s.trailersRead bad, unrestored := PageSet.full s.windowPages, closed := false } }

/-- Reading the trailers begins no dump. -/
theorem Locates.located (bad : List Nat) {s : State} (locating : s.grnState = Grn.locating) (n : Nat) :
    Locates (PageSet.full s.windowPages) ((s.located bad).sealUnits 32720 n) :=
  Locates.event (s := s.located bad) ⟨locating, rfl, rfl⟩ (KeepsWindow.eventRel.sealUnits _ _ _)
    (Sparing.eventRel.sealUnits _ _ _)

theorem exec_locatingDone_fits (bad : List Nat) {s : State} (locating : s.grnState = Grn.locating)
    (fits : s.grn.config.windowLen ≤ s.granaryCapacity) : ∃ t : State, Locates (PageSet.full s.windowPages) t ∧
      exec (.locatingDone bad) s = done s (t.setGrn t.serviceState) := by
  have run : exec (.locatingDone bad) s = execLocatingDone bad s := rfl
  rw [run, execLocatingDone, if_neg (by simp [locating]), if_neg (Nat.not_lt.2 fits)]
  refine ⟨_, ?_, rfl⟩
  refine Locates.recordLosses (Locates.recordLosses ?_ (cause := F.GRN_LOSS_UNSEALED) (by decide) _)
    (cause := F.GRN_LOSS_SEGMENT) (by decide) _
  exact Locates.located bad locating _

/-- LOCATING of a chain that IVS[0] can hold ends in LAZY with every page unrestored. -/
theorem locatingDone_serves (bad : List Nat) {s : State} (locating : s.grnState = Grn.locating)
    (fits : s.grn.config.windowLen ≤ s.granaryCapacity) (page : 4096 ≤ s.grn.config.windowLen) :
    Answers (.locatingDone bad) s fun t =>
      t.grnState = Grn.lazy ∧ t.grn.unrestored = PageSet.full s.windowPages ∧ t.grn.closed = false := by
  have pages : PageSet.full s.windowPages ≠ [] := PageSet.full_ne_nil (Nat.div_pos page (by decide))
  obtain ⟨t, locates, run⟩ := exec_locatingDone_fits bad locating fits
  obtain ⟨lazy, unrestored, closed⟩ := locates.serves pages
  have settled := Aside.settle s (t.setGrn t.serviceState)
  refine ⟨_, run, settled.spared.state.trans lazy, ?_, settled.spared.closed.trans closed⟩
  rw [settled.grn, unrestored]

theorem State.setGrn_held (s : State) :
    s.setGrn Grn.heldState = (s.set F.GRN_STATE_STATE Grn.heldState).raiseLive 103 0 0 := if_pos rfl

/-- HELD is entered with the cause that was set. -/
theorem State.setGrn_held_word (s : State) : (s.setGrn Grn.heldState).grnState = Grn.heldState ∧
    (s.setGrn Grn.heldState).get F.GRN_STATE_CAUSE = s.get F.GRN_STATE_CAUSE := by
  have state : (s.set F.GRN_STATE_STATE Grn.heldState).grnState = Grn.heldState := State.get_set_self s F.GRN_STATE_STATE _
  have spared := Sparing.eventRel.raiseLive _ (n := 103) (by decide) 0 0
    (State.grantsDump_of_state state (by decide) (by decide))
  rw [State.setGrn_held]
  exact ⟨spared.state.trans state, spared.cause.trans (State.get_set_of_id s (by decide) _)⟩

/-- LOCATING of a chain that IVS[0] cannot hold ends in HELD (R371). -/
theorem locatingDone_holds (bad : List Nat) {s : State} (locating : s.grnState = Grn.locating)
    (larger : s.granaryCapacity < s.grn.config.windowLen) :
    Answers (.locatingDone bad) s fun t =>
      t.grnState = Grn.heldState ∧ t.get F.GRN_STATE_CAUSE = 4 ∧ t.grn.unrestored = s.grn.unrestored := by
  have run : exec (.locatingDone bad) s = done s ((s.set F.GRN_STATE_CAUSE 4).setGrn Grn.heldState) :=
    (if_neg (by simp [locating])).trans (if_pos larger)
  obtain ⟨state, cause⟩ := (s.set F.GRN_STATE_CAUSE 4).setGrn_held_word
  have settled := Aside.settle s ((s.set F.GRN_STATE_CAUSE 4).setGrn Grn.heldState)
  refine ⟨_, run, settled.spared.state.trans state,
    (settled.spared.cause.trans cause).trans (State.get_set_self s F.GRN_STATE_CAUSE 4), ?_⟩
  rw [settled.grn, (KeepsWindow.setGrn _ _).unrestored, State.set_grn]

end Sys2Proof.Machine

namespace Sys2Proof.Machine

/-! ### Background fetches (R373) -/

theorem Frame.queueFetch (s : State) (page : Nat) (b : Bool) {ps : List Part} (h : .flash ∈ ps) (fs : List Field) :
    Frame s (s.queueFetch page b) ps fs := by
  unfold State.queueFetch
  split
  · refine ⟨rfl, rfl, fun p hp => ?_, fun _ _ _ => rfl⟩
    cases p with
    | flash => exact absurd h hp
    | _ => rfl
  · exact Frame.refl s ps fs

@[simp] theorem State.queueFetch_grn (s : State) (page : Nat) (b : Bool) : (s.queueFetch page b).grn = s.grn := by
  unfold State.queueFetch
  split <;> rfl

/-- A fetch of a page joins those that run. -/
def State.fetching (s : State) (page : Nat) : State :=
  { s with grn := { s.grn with fetches := s.grn.fetches ++ [⟨page, false⟩] } }

theorem Frame.fetching (s : State) (page : Nat) {ps : List Part} (h : .grn ∈ ps) (fs : List Field) :
    Frame s (s.fetching page) ps fs := by
  refine ⟨rfl, rfl, fun p hp => ?_, fun _ _ _ => rfl⟩
  cases p with
  | grn => exact absurd h hp
  | _ => rfl

/-- A background fetch takes the next unrestored page that is not being fetched. -/
theorem backgroundRestoreFetch_fetches {s : State} {p : Nat} (lazy : s.grnState = Grn.lazy) (opened : s.grn.closed = false)
    (next : pickFetch s.grn.unrestored s.grn.fetches (s.grn.fetches.length + 1) 0 = some p) :
    Answers .backgroundRestoreFetch s fun t =>
      t.grn = { s.grn with fetches := s.grn.fetches ++ [⟨p, false⟩] } ∧ Frame s t [.grn, .flash] [] := by
  have run : exec .backgroundRestoreFetch s = done s ((s.fetching p).queueFetch p false) := by
    refine (if_neg (by simp [lazy, opened])).trans ?_
    rw [next]
    rfl
  refine ⟨_, run, ?_, Frame.done s ((Frame.fetching s p (by simp) _).trans (Frame.queueFetch _ p false (by simp) _))⟩
  rw [State.settle_grn, State.queueFetch_grn]
  rfl

/-! ### The vault patrol (R356) -/

section Patrol

variable {s : State} {f : Firing} (running : s.get F.FT_STATUS_STATE = Ft.running) (background : s.backgroundRuns = true)
  (restored : s.grn.unrestored = []) (unguarded : s.waitingDescs.any (fun p => queueClass p.1 == 0) = false)
  (fired : s.cal.firings.find? (fun f => f.target == 4) = some f)
include running background restored unguarded fired

/-- A slice takes its firing, and works where the vault's banks are reached. -/
theorem exec_vaultScrubSlice (failed : List SegUnit) : exec (.vaultScrubSlice failed) s =
    if f.arg ≤ 2 && s.groupUp .h && !s.flash.off then done s (failed.foldl (State.vaultFinding · f.arg) (s.dropFiring f))
    else done s (s.dropFiring f) := by
  have slot : s.takeSlot 4 = some (f, s.dropFiring f) := by
    rw [State.takeSlot, running, background, State.takeFiring, fired]
    rfl
  refine (if_neg (by simp [restored, unguarded])).trans ?_
  rw [slot]
  rfl

/-- A slice that finds nothing, or reaches nothing, takes its firing alone. -/
theorem vaultScrubSlice_quiet {failed : List SegUnit}
    (none : failed = [] ∨ 2 < f.arg ∨ s.groupUp .h = false ∨ s.flash.off = true) : Answers (.vaultScrubSlice failed) s fun t =>
      t.cal.firings = s.cal.firings.filter (fun g => g != f) ∧ Frame s t [.cal] [] := by
  have run : exec (.vaultScrubSlice failed) s = done s (s.dropFiring f) := by
    rw [exec_vaultScrubSlice running background restored unguarded fired]
    split
    next works =>
      rcases none with rfl | far | down | off
      · rfl
      · simp [Nat.not_le.2 far] at works
      · simp [down] at works
      · simp [off] at works
    next => rfl
  have taken : Frame s (s.dropFiring f) [.cal] [] := by
    refine ⟨rfl, rfl, fun p hp => ?_, fun _ _ _ => rfl⟩
    cases p with
    | cal => exact absurd (by simp) hp
    | _ => rfl
  refine ⟨_, run, ?_, Frame.done s taken⟩
  rw [State.settle_cal]
  rfl

end Patrol

/-- A segment is told of as failing. -/
def State.withReport (s : State) (area seq : Nat) : State :=
  { s with grn := { s.grn with reported := (area, seq) :: s.grn.reported } }

/-- A segment's first finding raises source 101. -/
def State.reportOnce (s : State) (area seq : Nat) : State :=
  if s.grn.reported.contains (area, seq) then s else (s.withReport area seq).raise 101 0 0

/-- A page is dirty again. -/
def State.dirtyAgain (s : State) (page : Nat) : State := { s with grn := { s.grn with dirty := s.grn.dirty.insert page } }

theorem State.reportOnce_newestIn (s : State) (area seq a q page : Nat) :
    (s.reportOnce area seq).newestIn a q page = s.newestIn a q page := by
  unfold State.reportOnce
  split
  · rfl
  · exact (KeepsChain.eventRel.raise (s.withReport area seq) (n := 101) (by decide) 0 0).newestIn a q page

theorem State.reportOnce_unrestored (s : State) (area seq : Nat) :
    (s.reportOnce area seq).grn.unrestored = s.grn.unrestored := by
  unfold State.reportOnce
  split
  · rfl
  · exact (KeepsWindow.raise (s.withReport area seq) 101 0 0).unrestored

theorem State.reportOnce_sticky {s : State} (hold : s.pwr.hold = true) {area seq : Nat} (new : (area, seq) ∉ s.grn.reported) :
    (s.reportOnce area seq).sticky 101 = true := by
  rw [State.reportOnce, if_neg (by simpa using new)]
  exact State.sticky_raise (s.withReport area seq) hold rfl 0 0

/-- A finding on a restored page's newest copy makes that page dirty again (R356). -/
theorem State.vaultFinding_dirties {s : State} {area : Nat} {f : SegUnit} {g : Segment} {u : VaultUnit}
    (segment : s.areaSegment area f.seq = some g) (data : g.kind ≠ .manifest) (whole : f.unit < segPages)
    (unit : g.units[f.unit]? = some u) (newest : s.newestIn area f.seq u.page = true) (restored : s.grn.unrestored = []) :
    s.vaultFinding area f = ((s.reportOnce area f.seq).dirtyAgain u.page).levels := by
  have found : s.vaultFinding area f = (([u.page].filter ((s.reportOnce area f.seq).newestIn area f.seq)).foldl (fun s p =>
      if s.grn.unrestored.mem p then
        (if s.grn.lost.mem p then s else s.recordLoss F.GRN_LOSS_SEGMENT p).restorePage p false
      else (s.dirtyAgain p).levels) (s.reportOnce area f.seq)) := by
    rw [State.vaultFinding, segment]
    dsimp only
    rw [if_neg data, if_neg (Nat.not_le.2 whole), unit]
    rfl
  rw [found, List.filter_singleton, State.reportOnce_newestIn, newest]
  refine if_neg ?_
  rw [State.reportOnce_unrestored, restored]
  exact Bool.false_ne_true

/-- A slice with one failing unit handles it. -/
theorem vaultScrubSlice_finds {s : State} {f : Firing} {seq unit : Nat} {g : Segment} {u : VaultUnit}
    (running : s.get F.FT_STATUS_STATE = Ft.running) (background : s.backgroundRuns = true)
    (restored : s.grn.unrestored = []) (unguarded : s.waitingDescs.any (fun p => queueClass p.1 == 0) = false)
    (fired : s.cal.firings.find? (fun f => f.target == 4) = some f) (area : f.arg ≤ 2) (up : s.groupUp .h = true)
    (on : s.flash.off = false) (segment : s.areaSegment f.arg seq = some g) (data : g.kind ≠ .manifest)
    (whole : unit < segPages) (found : g.units[unit]? = some u) (newest : s.newestIn f.arg seq u.page = true) :
    Answers (.vaultScrubSlice [⟨seq, unit⟩]) s fun t =>
      t.grn.dirty.mem u.page = true ∧ ((f.arg, seq) ∉ s.grn.reported → t.sticky 101 = true) := by
  have run : exec (.vaultScrubSlice [⟨seq, unit⟩]) s =
      done s (((s.dropFiring f).reportOnce f.arg seq).dirtyAgain u.page).levels := by
    rw [exec_vaultScrubSlice running background restored unguarded fired, if_pos (by simp [area, up, on])]
    exact congrArg (done s) (State.vaultFinding_dirties (s := s.dropFiring f) (f := ⟨seq, unit⟩) segment data whole found
      newest restored)
  have hold : s.pwr.hold = true := (Bool.and_eq_true_iff.1 up).1
  refine ⟨_, run, ?_, fun new => ?_⟩
  · rw [State.settle_grn, (KeepsWindow.levels _).dirty]
    exact PageSet.mem_insert _ u.page
  · rw [State.sticky_settle]
    exact State.sticky_levels_mono (by decide) (State.reportOnce_sticky (s := s.dropFiring f) hold new)

end Sys2Proof.Machine

namespace Sys2Proof.Machine

/-! ### Translations and host accesses leave the window (R282 to R292) -/

namespace KeepsWindow

theorem bump (s : State) {c : Counter} (hc : ∀ g ∈ requestFields, c.count.id ≠ g.id)
    (hs : ∀ g ∈ requestFields, c.sat.id ≠ g.id) : KeepsWindow s (s.bump c) := KeepsWindow.eventRel.bumpN s c 0 hc hs

theorem injected (s : State) (n inst word k : Nat) : KeepsWindow s (s.injected n inst word k).2 := by
  unfold State.injected
  split
  · exact (KeepsWindow.of_grn (by simp)).trans (KeepsWindow.raiseWith _ n inst word true)
  · exact KeepsWindow.refl s

theorem tlbLookup (s : State) (k : TlbKind) (page : Nat) : KeepsWindow s (s.tlbLookup k page).2 := by
  unfold State.tlbLookup
  split
  · dsimp only
    split
    · exact (KeepsWindow.injected s 48 0 0 0).trans ((KeepsWindow.of_grn (by simp)).trans
        (KeepsWindow.bump _ (by decide) (by decide)))
    · exact KeepsWindow.of_grn rfl
  · exact KeepsWindow.bump s (by decide) (by decide)

theorem requestTrans (s : State) (ctx page : Nat) (write second : Bool) :
    KeepsWindow s (s.requestTrans ctx page write second).1 := by
  unfold State.requestTrans
  split
  · exact KeepsWindow.refl s
  · dsimp only
    split <;> exact KeepsWindow.of_grn rfl

theorem hostPage (s : State) (ctx page : Nat) (write : Bool) : KeepsWindow s (s.hostPage ctx page write).1 := by
  have lookup := KeepsWindow.tlbLookup s (.host ctx) page
  unfold State.hostPage
  split
  · exact KeepsWindow.refl s
  · generalize s.tlbLookup (.host ctx) page = r at lookup ⊢
    obtain ⟨e | e, t⟩ := r
    · exact lookup.trans (KeepsWindow.requestTrans t ctx page write false)
    · dsimp only
      cases (if write then e.write else e.read) with
      | true => exact lookup
      | false => exact lookup.trans (KeepsWindow.requestTrans t ctx page write false)

theorem devAddr (s : State) (va : Nat) (write : Bool) : KeepsWindow s (s.devAddr va write).1 := by
  have lookup := KeepsWindow.tlbLookup s .device (va / 4096)
  have fill : ∀ (t : State) (e : TlbEntry), KeepsWindow t (t.tlbFill e) := fun _ _ => KeepsWindow.of_grn rfl
  unfold State.devAddr
  dsimp only
  split
  next e t found =>
    rw [found] at lookup
    split <;> exact lookup
  next t found =>
    rw [found] at lookup
    split
    · exact lookup
    · split <;> exact lookup.trans (fill t _)

/-- A check of several pages leaves the window where that of one page does. -/
theorem overPages {check : State → Nat → State × Dma Nat} (h : ∀ s p, KeepsWindow s (check s p).1) (ps : List Nat) (s : State) :
    KeepsWindow s (s.overPages check ps).1 := by
  induction ps generalizing s with
  | nil => exact KeepsWindow.refl s
  | cons p ps ih =>
    have first := h s p
    rw [State.overPages]
    generalize check s p = r at first ⊢
    obtain ⟨t, d⟩ := r
    cases d with
    | ok v => exact first.trans (ih t)
    | park w => exact first
    | stop c d => exact first
    | pending => exact first

theorem hostReach (s : State) (ctx addr len : Nat) (write : Bool) : KeepsWindow s (s.hostReach ctx addr len write).1 := by
  unfold State.hostReach
  split
  · exact KeepsWindow.refl s
  · exact KeepsWindow.overPages (fun t p => KeepsWindow.hostPage t ctx p write) _ s

/-- An access in a context faults no page of the window. -/
theorem reach (s : State) {p : Place} (outside : p.granary = false) (len : Nat) (write : Bool) :
    KeepsWindow s (s.reach p len write).1 := by
  unfold State.reach
  split
  · exact KeepsWindow.refl s
  · rw [if_neg (by simp [outside])]
    split
    · exact KeepsWindow.refl s
    · split
      · refine KeepsWindow.overPages (fun t pg => ?_) _ s
        have walked := KeepsWindow.devAddr t (pg * 4096) write
        generalize t.devAddr (pg * 4096) write = r at walked ⊢
        obtain ⟨u, d⟩ := r
        cases d <;> exact walked
      · exact KeepsWindow.hostReach s p.ctx p.addr len write

end KeepsWindow

@[simp] theorem State.hostSend_grn (s : State) (ctx addr : Nat) (frames : List Nat) (b : List Byte) :
    (s.hostSend ctx addr frames b).grn = s.grn := by
  unfold State.hostSend
  exact State.foldl_keeps State.grn _ _ (fun _ _ => by simp) s

/-! ### Accesses to DRAM -/

@[simp] theorem State.queueDram_grn (s : State) (dpa : Nat) (cls : DramClass) (kind : DramKind) (hint : Nat) :
    (s.queueDram dpa cls kind hint).grn = s.grn := by
  unfold State.queueDram
  split <;> simp

@[simp] theorem State.queueLines_grn (s : State) (dpas : List Nat) (cls : DramClass) (kind : DramKind) (hint : Nat) :
    (s.queueLines dpas cls kind hint).grn = s.grn :=
  State.foldl_keeps State.grn _ _ (fun _ _ => by simp) s

@[simp] theorem State.dramWrite_grn (s : State) (dpa : Nat) (l : Line) (p : Bool) (cls : DramClass) (hint : Nat) (g : Bool) :
    (s.dramWrite dpa l p cls hint g).grn = s.grn := by
  unfold State.dramWrite
  split <;> simp

namespace KeepsWindow

theorem rmwLost (s : State) (dpa : Nat) : KeepsWindow s (s.rmwLost dpa) := by
  unfold State.rmwLost
  split
  · exact KeepsWindow.eventRel.bumpN s ⟨F.DMC_RMW_LOST_CNT_COUNT, F.DMC_RMW_LOST_CNT_SAT⟩ _ (by decide) (by decide)
  · exact KeepsWindow.refl s

theorem dramWriteMasked (s : State) (dpa off : Nat) (b : List Byte) : KeepsWindow s (s.dramWriteMasked dpa off b) := by
  unfold State.dramWriteMasked
  split_ifs
  · exact KeepsWindow.refl s
  · exact KeepsWindow.rmwLost s dpa
  · exact KeepsWindow.of_grn (by simp)

theorem writeDevice (s : State) (addr : Nat) (b : List Byte) : KeepsWindow s (s.writeDevice addr b) := by
  unfold State.writeDevice
  split
  · split
    · exact KeepsWindow.of_grn (by simp)
    · exact KeepsWindow.dramWriteMasked s _ _ b
  · exact KeepsWindow.refl s

end KeepsWindow

/-! ### Commands that go on with what they owe (R105, R292) -/

namespace KeepsWindow

theorem mailStop (s : State) (a : Accepted) (addr code detail : Nat) : KeepsWindow s (s.mailStop a addr code detail) := by
  unfold State.mailStop State.dmaEnd
  exact (KeepsWindow.of_grn (by simp)).trans ((KeepsWindow.raise _ 49 _ _).trans (KeepsWindow.eventRel.complete _ a _ 49))

theorem finish (a : Accepted) (code result : Nat) (ws : List (Nat × List Byte)) (s : State) :
    KeepsWindow s (s.finish a code result ws) := by
  induction ws generalizing s with
  | nil => exact KeepsWindow.eventRel.complete s a code result
  | cons w ws ih =>
    have reached := KeepsWindow.reach s (p := placeOf 1 (s.mailboxCtx a.mb) w.1) rfl w.2.length true
    rw [State.finish]
    generalize s.reach (placeOf 1 (s.mailboxCtx a.mb) w.1) w.2.length true = r at reached ⊢
    obtain ⟨t, d⟩ := r
    cases d with
    | park q => exact reached.trans (KeepsWindow.of_grn (by simp))
    | pending => exact reached.trans (KeepsWindow.of_grn (by simp))
    | stop c d => exact reached.trans (KeepsWindow.mailStop t a w.1 c d)
    | ok frames =>
      refine reached.trans (KeepsWindow.trans ?_ (ih _))
      dsimp only
      split
      · exact KeepsWindow.foldl (fun u (q : Nat × List Byte) => u.writeDevice q.1 q.2) _
          (fun u q => KeepsWindow.writeDevice u q.1 q.2) t
      · exact KeepsWindow.of_grn (by simp)

theorem settleOwed (s : State) : KeepsWindow s s.settleOwed := by
  have goOn : ∀ (t : State) (a : Accepted), KeepsWindow t (t.goOnOwed a) := fun t a => by
    unfold State.goOnOwed
    split
    · exact KeepsWindow.finish a _ _ _ t
    · exact KeepsWindow.refl t
  have sweep : ∀ t : State, KeepsWindow t t.sweepContexts := fun t => by
    unfold State.sweepContexts
    split
    · exact KeepsWindow.refl t
    · exact KeepsWindow.of_grn (by simp)
  exact (KeepsWindow.foldl _ _ goOn s).trans (sweep _)

end KeepsWindow

/-! ### The trace (R268, R285) -/

namespace KeepsWindow

theorem writeTrace (s : State) (record : List Byte) : KeepsWindow s (s.writeTrace record).1 := by
  have dropped : ∀ t : State, KeepsWindow t (t.bump C.schDrop) := fun t => KeepsWindow.bump t (by decide) (by decide)
  unfold State.writeTrace
  dsimp only
  split
  · exact dropped s
  · generalize s.get F.SCH_TRACE_BASE_BASE * 4096 + _ = addr
    have reached := KeepsWindow.hostReach s 0 addr 32 true
    generalize s.hostReach 0 addr 32 true = r at reached ⊢
    obtain ⟨t, d⟩ := r
    cases d with
    | park w => exact reached
    | ok frames =>
      refine reached.trans (KeepsWindow.of_grn ?_)
      dsimp only
      split <;> simp
    | stop c d => exact reached.trans (dropped t)
    | pending => exact reached.trans (dropped t)

theorem drainTrace (n : Nat) (s : State) : KeepsWindow s (s.drainTrace n) := by
  induction n generalizing s with
  | zero => exact KeepsWindow.refl s
  | succ n ih =>
    unfold State.drainTrace
    split
    · exact KeepsWindow.refl s
    · split
      next r _ _ _ =>
        have written := KeepsWindow.writeTrace s r
        generalize s.writeTrace r = x at written ⊢
        obtain ⟨t, _ | w⟩ := x
        · exact written.trans (KeepsWindow.trans (t := t.popTrace) (KeepsWindow.of_grn rfl) (ih t.popTrace))
        · exact written.trans (KeepsWindow.of_grn rfl)
      next => exact KeepsWindow.refl s

theorem trace (s : State) (ev : Nat) (w : TraceWho) (arg : Nat) : KeepsWindow s (s.trace ev w arg) := by
  unfold State.trace
  dsimp only
  split_ifs
  · exact KeepsWindow.refl s
  · exact (KeepsWindow.of_grn (by simp)).trans (KeepsWindow.bump _ (by decide) (by decide))
  · exact (KeepsWindow.of_grn (by simp)).trans (KeepsWindow.drainTrace 64 _)

theorem traceTask (s : State) (ev : Nat) (t : Task) (arg : Nat) : KeepsWindow s (s.traceTask ev t arg) :=
  KeepsWindow.trace s ev t.who arg

theorem traceFree (s : State) (ev plan op arg : Nat) : KeepsWindow s (s.traceFree ev plan op arg) := by
  unfold State.traceFree
  split
  · exact KeepsWindow.refl s
  · exact KeepsWindow.trace s ev _ arg

end KeepsWindow

end Sys2Proof.Machine

namespace Sys2Proof.Machine

/-! ### Plans, flows and buffers -/

@[simp] theorem State.setPlan_grn (s : State) (slot : Nat) (p : Plan) : (s.setPlan slot p).grn = s.grn := rfl

@[simp] theorem State.mapRun_grn (s : State) (slot op : Nat) (f : OpRun → OpRun) : (s.mapRun slot op f).grn = s.grn := by
  unfold State.mapRun
  split <;> rfl

@[simp] theorem State.mapFlow_grn (s : State) (slot op i : Nat) (f : FlowRun → FlowRun) :
    (s.mapFlow slot op i f).grn = s.grn := State.mapRun_grn s slot op _

@[simp] theorem State.planEvent_grn (s : State) (slot ev : Nat) : (s.planEvent slot ev).grn = s.grn := by
  unfold State.planEvent
  split <;> simp

@[simp] theorem State.takeWork_grn (die k : Nat) (s : State) : (s.takeWork die k).2.grn = s.grn := by
  induction k generalizing s with
  | zero => rfl
  | succ k ih => exact ih _

@[simp] theorem State.wakeGroup_grn (s : State) (n : Nat) : (s.wakeGroup n).grn = s.grn := by simp [State.wakeGroup]

@[simp] theorem State.queueRecord_grn (s : State) (n : Nat) : (s.queueRecord n).grn = s.grn := by
  simp [State.queueRecord]

/-! ### The scheduler leaves the window (R252 to R264) -/

namespace KeepsWindow

theorem makeReady (s : State) (t : Task) (code : Nat) : KeepsWindow s (s.makeReady t code) :=
  (KeepsWindow.of_grn (by simp)).trans (KeepsWindow.traceTask (s.setTask { t with state := .ready }) _ _ _)

theorem holdFlow (s : State) (t : Task) (word : Nat) : KeepsWindow s (s.holdFlow t word) := by
  unfold State.holdFlow
  split
  · exact KeepsWindow.refl s
  · split
    · exact KeepsWindow.refl s
    · exact KeepsWindow.trans (KeepsWindow.trans (KeepsWindow.of_grn (by simp)) (KeepsWindow.traceTask (State.mapFlow _ _ _ _ _)
        Ev.hold t word)) (KeepsWindow.of_grn (State.planEvent_grn _ _ _))

theorem wakeQuota (s : State) : KeepsWindow s s.wakeQuota := by
  unfold State.wakeQuota
  refine KeepsWindow.foldl _ _ (fun t id => ?_) s
  split
  next k _ =>
    generalize (if k.cls = 0 then t.roomFor 1 else !t.eng.quota) = goes
    cases goes with
    | true => exact KeepsWindow.trans (KeepsWindow.of_grn (by simp)) (KeepsWindow.makeReady (t.mapEng _) k 1)
    | false => exact KeepsWindow.refl t
  · exact KeepsWindow.refl t

theorem settleQuota (s : State) : KeepsWindow s s.settleQuota := by
  have told : ∀ (g : Engine → Engine) (n : Nat), KeepsWindow s ((s.mapEng g).traceFree Ev.quota 0 0 n) := fun g n =>
    (KeepsWindow.of_grn (by simp)).trans (KeepsWindow.traceFree (s.mapEng g) _ _ _ n)
  unfold State.settleQuota
  dsimp only
  split_ifs
  · exact KeepsWindow.refl s
  · exact (told _ 1).trans ((KeepsWindow.bump _ (by decide) (by decide)).trans
      ((KeepsWindow.eventRel.raiseLive _ (by decide) 0 0).trans (KeepsWindow.wakeQuota _)))
  · exact (told _ 0).trans (KeepsWindow.trans (KeepsWindow.of_grn (State.clearLive_grn _ 42)) (KeepsWindow.wakeQuota _))
  · exact KeepsWindow.wakeQuota s

theorem refill (n : Nat) (s : State) : KeepsWindow s (State.refill n s) := by
  induction n generalizing s with
  | zero => exact KeepsWindow.refl s
  | succ n ih =>
    unfold State.refill
    dsimp only
    split
    next slot t _ _ =>
      have read : ∀ u : Task, KeepsWindow s ((s.queueRecord t.record).setTask u) := fun _ => KeepsWindow.of_grn (by simp)
      split
      · exact (read _).trans ((KeepsWindow.raise _ 43 0 _).trans ((KeepsWindow.holdFlow _ t _).trans
          ((KeepsWindow.settleQuota _).trans (ih _))))
      · exact (read _).trans ((KeepsWindow.traceTask _ Ev.refill _ _).trans ((KeepsWindow.settleQuota _).trans (ih _)))
    next => exact KeepsWindow.refl s

theorem dispatch (s : State) (t : Task) (n : Nat) : KeepsWindow s (s.dispatch t n) := by
  have tell : ∀ (u : State) (b : Bool) (f : OpRun → OpRun),
      KeepsWindow u (if b then (u.mapRun t.plan t.op f).raise 41 0 0 else u) := fun u b f => by
    split
    · exact (KeepsWindow.of_grn (by simp)).trans (KeepsWindow.raise _ 41 0 0)
    · exact KeepsWindow.refl u
  have wake : ∀ u : State, KeepsWindow u (if u.gated n then u.wakeGroup n else u) := fun u => by
    split
    · exact KeepsWindow.of_grn (by simp)
    · exact KeepsWindow.refl u
  have place : ∀ (u : State) (k : Task) (x : Tiller), KeepsWindow u ((u.setTask k).setTiller n x) := fun u k x =>
    KeepsWindow.of_grn (by simp)
  unfold State.dispatch
  split
  · exact KeepsWindow.refl s
  · dsimp only
    refine KeepsWindow.trans (KeepsWindow.trans (KeepsWindow.trans (KeepsWindow.trans (KeepsWindow.trans
      (KeepsWindow.of_grn ?supplied) (tell _ _ _)) (wake _)) (place _ _ _)) (KeepsWindow.bump _ (by decide) (by decide)))
      (KeepsWindow.traceTask _ _ _ _)
    split_ifs <;> simp

theorem placeAll (n : Nat) (s : State) : KeepsWindow s (State.placeAll n s) := by
  induction n generalizing s with
  | zero => exact KeepsWindow.refl s
  | succ n ih =>
    unfold State.placeAll
    split
    next p _ => exact (KeepsWindow.dispatch s p.1 p.2).trans (ih _)
    next => exact KeepsWindow.refl s

theorem preempt (s : State) : KeepsWindow s s.preempt := by
  unfold State.preempt
  split
  · exact KeepsWindow.refl s
  · refine KeepsWindow.foldl _ _ (fun t k => ?_) s
    dsimp only
    split
    · exact KeepsWindow.refl t
    · split
      · exact KeepsWindow.refl t
      · split
        · exact (KeepsWindow.of_grn (by simp)).trans ((KeepsWindow.bump (t.setTask _) (by decide) (by decide)).trans
            (KeepsWindow.traceTask _ Ev.yieldReq _ _))
        · exact KeepsWindow.refl t

theorem schedule (s : State) : KeepsWindow s s.schedule := by
  unfold State.schedule
  split
  · exact KeepsWindow.refl s
  · refine KeepsWindow.trans (KeepsWindow.trans (KeepsWindow.refill (s.spilled.length + 1) s) ?_) (KeepsWindow.preempt _)
    split
    · exact KeepsWindow.placeAll 96 _
    · exact KeepsWindow.refl _

end KeepsWindow

/-! ### What waits goes on (R293) -/

@[simp] theorem State.mapWaits_grn (s : State) (f : List PageWait → List PageWait) : (s.mapWaits f).grn = s.grn := rfl

theorem KeepsWindow.resumeWait (s : State) (w : PageWait) : KeepsWindow s (s.resumeWait w) := by
  unfold State.resumeWait
  refine KeepsWindow.trans (KeepsWindow.trans (KeepsWindow.trans (KeepsWindow.foldl _ _ (fun t k => ?_) s)
    (KeepsWindow.of_grn (State.mapWaits_grn _ _))) (KeepsWindow.settleOwed _)) (KeepsWindow.drainTrace 64 _)
  dsimp only
  split
  · exact KeepsWindow.makeReady t _ 3
  · exact KeepsWindow.of_grn (by simp)

theorem KeepsWindow.restoreDone (s : State) (w : CopyResult) : KeepsWindow s (s.restoreDone w) := by
  have written := KeepsWindow.writeRecord s 5 id w
  unfold State.restoreDone
  split
  · dsimp only
    split
    · exact written.trans ((KeepsWindow.setGrn _ Grn.ready).trans (KeepsWindow.startRebase _))
    · exact written
  · exact KeepsWindow.refl s

/-! ### Restored pages (R374) -/

@[simp] theorem State.toLink_grn (s : State) (o : Output) : (s.toLink o).grn = s.grn := by
  unfold State.toLink
  split <;> simp

@[simp] theorem State.answerReads_grn (s : State) (page : Nat) : (s.answerReads page).grn = s.grn := by
  unfold State.answerReads
  refine State.foldl_keeps State.grn _ _ (fun t r => ?_) _
  split
  · simp
  · unfold State.cxlReadDram
    split <;> simp

@[simp] theorem State.writePage_grn (s : State) (page : Nat) (ls : List (Line × Bool)) : (s.writePage page ls).grn = s.grn := by
  unfold State.writePage
  exact State.foldl_keeps State.grn _ _ (fun _ _ => by simp) s

end Sys2Proof.Machine

namespace Sys2Proof.Machine

/-- A restored page is off the restore map and off the fetches, and is lost where it was not readable. -/
theorem State.restorePage_grn (s : State) (page : Nat) (ok : Bool) : ∃ t : State,
    (s.restorePage page ok).grn = { t.grn with
      unrestored := t.grn.unrestored.erase page, fetches := t.grn.fetches.filter (fun f => f.page != page) } ∧
    (ok = false → t.grn.lost.mem page = true) := by
  refine ⟨_, State.answerReads_grn _ page, ?_⟩
  rintro rfl
  rw [State.writePage_grn]
  change (if (s.dropFetch page).grn.lost.mem page then s.dropFetch page
    else (s.dropFetch page).recordLoss F.GRN_LOSS_PAGE page).grn.lost.mem page = true
  split
  · assumption
  · exact State.recordLoss_lost _ _ page

/-- A fetch that completes takes its page off the restore map and off the fetches (R374). -/
theorem fetchComplete_restores (page : BitVec 28) (ok : Bool) (w : CopyResult) {s : State} (hold : s.pwr.hold = true)
    (power : s.pwr.failed = false) (runs : s.fetchRuns page.toNat = true)
    (unrestored : s.grn.unrestored.mem page.toNat = true) : Answers (.fetchComplete page ok w) s fun t =>
      t.grn.unrestored.mem page.toNat = false ∧ (∀ f ∈ t.grn.fetches, f.page ≠ page.toNat) ∧
      (ok = false → t.grn.lost.mem page.toNat = true) := by
  have run : exec (.fetchComplete page ok w) s =
      done s (((((s.restorePage page.toNat ok).resumeWait (.window page.toNat))).restoreDone w).schedule) :=
    if_neg (by simp [State.groupUp, hold, power, runs, unrestored])
  obtain ⟨t, restored, lost⟩ := s.restorePage_grn page.toNat ok
  have after : KeepsWindow (s.restorePage page.toNat ok)
      (((s.restorePage page.toNat ok).resumeWait (.window page.toNat)).restoreDone w).schedule :=
    (KeepsWindow.resumeWait _ _).trans ((KeepsWindow.restoreDone _ w).trans (KeepsWindow.schedule _))
  refine ⟨_, run, ?_, fun f hf => ?_, fun unread => ?_⟩
  · rw [State.settle_grn, after.unrestored, restored]
    exact PageSet.mem_erase _ _
  · rw [State.settle_grn] at hf
    have left := after.fetches f hf
    rw [restored] at left
    simpa using (List.mem_filter.1 left).2
  · rw [State.settle_grn, after.lost, restored]
    exact lost unread

/-- Settles O44: a step that may begin a dump, or works on commands and tasks, keeps the window's maps, so each follows from what
LOCATING, the restored page or the finding made of it. -/
theorem theWindowIsRestored : Obligations.TheWindowIsRestored := by
  refine ⟨fun bad _ locating fits page => locatingDone_serves bad locating fits page,
    fun bad _ locating larger => locatingDone_holds bad locating larger,
    fun _ _ lazy opened next => backgroundRestoreFetch_fetches lazy opened next,
    fun page ok w _ hold power runs unrestored => fetchComplete_restores page ok w hold power runs unrestored, ?_⟩
  intro failed s f running background restored unguarded fired
  refine ⟨vaultScrubSlice_quiet running background restored unguarded fired, ?_⟩
  rintro seq unit g u rfl area up on segment data whole found newest
  exact vaultScrubSlice_finds running background restored unguarded fired area up on segment data whole found newest

end Sys2Proof.Machine

/-! SUPPORT. Loads of field time: what arming, its expiry and its cancelling leave, and how FT_NOW is read in halves. -/

namespace Sys2Proof.Machine

/-! ### A completion in a state that keeps what it is judged by -/

/-- A command completes as from any earlier state of the same mailboxes, state of its ring, context and its enable. -/
theorem State.complete_of_frame (old : State) {s t : State} {ps : List Part} {fs : List Field} (hf : Frame s t ps fs)
    (hm : .mbx ∉ ps) (hg : ∀ g ∈ [F.MBX_STATE_ERR_CAUSE, F.MBX_STATE_CTX, F.CTX_CFG_EN], g.outside (settleFields ++ fs))
    (a : Accepted) (st r : Nat) : Completed s a st r (State.settle old (t.complete a st r)) := by
  have mbx : t.mbx = s.mbx := hf.2.2.1 _ hm
  have get : ∀ g ∈ [F.MBX_STATE_ERR_CAUSE, F.MBX_STATE_CTX, F.CTX_CFG_EN], ∀ n, t.getN g n = s.getN g n := fun g hm =>
    hf.2.2.2 g (hg g hm)
  refine State.complete_completed old s t a st r mbx (fun n => ?_) fun n => ?_
  · simp only [State.cqStopped, get _ (by simp : F.MBX_STATE_ERR_CAUSE ∈ _)]
  · simp only [State.cqUnreachable, State.ctxEnabled, State.pair_congr mbx, get _ (by simp : F.MBX_STATE_CTX ∈ _),
      get _ (by simp : F.CTX_CFG_EN ∈ _)]

/-! ### A failed arm (R54) -/

@[simp] theorem State.armFails_ft (s : State) (cause : Nat) : (s.armFails cause).ft = s.ft := by simp [State.armFails]

theorem State.armFails_fail (s : State) (cause : Nat) : (s.armFails cause).get F.FT_STATUS_ARM_FAIL = 1 := by
  rw [State.armFails, State.get_set_of_id _ (by decide), State.get_set_self]
  rfl

theorem State.armFails_cause (s : State) (cause : Nat) : (s.armFails cause).get F.FT_STATUS_ARM_CAUSE = cause % 2 ^ 3 := by
  rw [State.armFails, State.get_set_self]
  rfl

theorem Frame.armFails (s : State) (cause : Nat) {ps : List Part} {fs : List Field}
    (hf : ∀ f ∈ [F.FT_STATUS_ARM_FAIL, F.FT_STATUS_ARM_CAUSE], f ∈ fs) : Frame s (s.armFails cause) ps fs :=
  (Frame.set _ _ _ (hf _ (by simp))).trans (Frame.set _ _ _ (hf _ (by simp)))

/-- No load is armed any more. -/
def State.disarmed (s : State) : State := s.setFt { s.ft with pending := none }

/-- The cause of a load that no edge has taken for 2 s, and the code of its command (R54, R55). -/
def PendingLoad.cause (p : PendingLoad) : Nat := if p.refSeen then 1 else 4
def PendingLoad.code (p : PendingLoad) : Nat := if p.refSeen then CC.timeArmExpired else CC.timeRefAbsent

theorem State.failArmed_eq (s : State) (p : PendingLoad) : s.failArmed p = s.disarmed.armFail p.cause p.code := by
  unfold State.failArmed PendingLoad.cause PendingLoad.code
  split <;> rfl

theorem PendingLoad.cause_mod (p : PendingLoad) : p.cause % 2 ^ 3 = p.cause := by
  unfold PendingLoad.cause
  split <;> rfl

theorem State.expireLoad_of_fresh {s : State} (fresh : ∀ p, s.ft.pending = some p → s.now < p.at_ + 2000000000) :
    s.expireLoad = s := by
  unfold State.expireLoad
  split
  · next p armed => exact if_pos (fresh p armed)
  · rfl

theorem State.expireLoad_of_due {s : State} {p : PendingLoad} (armed : s.ft.pending = some p)
    (due : p.at_ + 2000000000 ≤ s.now) : s.expireLoad = s.disarmed.armFail p.cause p.code := by
  rw [State.expireLoad, armed, ← State.failArmed_eq]
  exact if_neg (Nat.not_lt.2 due)

theorem State.ftCommand_congr {s t : State} (h : t.mbx = s.mbx) : t.ftCommand = s.ftCommand := by
  rw [State.ftCommand, h, State.ftCommand]

/-- What a failed load leaves before its command ends. -/
theorem Frame.failedLoad (s : State) (cause : Nat) :
    Frame s (s.disarmed.armFails cause) [.ft] [F.FT_STATUS_ARM_FAIL, F.FT_STATUS_ARM_CAUSE] :=
  (Frame.setFt s _ (by simp)).trans (Frame.armFails _ _ fun _ h => h)

theorem State.ftCommand_failedLoad (s : State) (cause : Nat) : (s.disarmed.armFails cause).ftCommand = s.ftCommand :=
  State.ftCommand_congr ((Frame.failedLoad s cause).2.2.1 .mbx (by decide))

theorem State.armFail_of_free {s : State} (free : s.ftCommand = none) (cause code : Nat) :
    s.disarmed.armFail cause code = s.disarmed.armFails cause := by
  rw [State.armFail, State.ftCommandDone, State.ftCommand_failedLoad, free]

theorem State.armFail_of_command {s : State} {a : Accepted} (h : s.ftCommand = some a) (cause code : Nat) :
    s.disarmed.armFail cause code = (s.disarmed.armFails cause).complete a code 0 := by
  rw [State.armFail, State.ftCommandDone, State.ftCommand_failedLoad, h]

/-! ### ARM, DISARM and the expiry (R52 to R54) -/

theorem exec_arm {s : State} (up : s.mainUp = true)
    (fresh : ∀ p, s.ft.pending = some p → s.now < p.at_ + 2000000000) :
    exec .arm s = done s (if s.misaligned then s.armFails 2 else s.captureLoad) := by
  refine (if_neg (by simp [up])).trans ?_
  rw [State.expireLoad_of_fresh fresh]

theorem arm_captures {s : State} (up : s.mainUp = true)
    (fresh : ∀ p, s.ft.pending = some p → s.now < p.at_ + 2000000000)
    (whole : s.get F.FT_LOAD_VALUE % 1000000000 = 0) : Answers .arm s fun t =>
      t.ft.pending = some ⟨s.get F.FT_LOAD_VALUE, s.now, s.flag F.FT_STATUS_REF_OK⟩ ∧ t.ft.count = s.ft.count ∧
      Frame s t [.ft] [] := by
  refine ⟨_, exec_arm up fresh, ?_⟩
  have aligned : s.misaligned = false := decide_eq_false (not_not.2 whole)
  rw [aligned, if_neg Bool.false_ne_true]
  have ft := State.settle_ft s s.captureLoad
  exact ⟨congrArg TimeBlock.pending ft, (congrArg TimeBlock.count ft).trans rfl, Frame.done s (Frame.setFt s _ (by simp))⟩

theorem arm_fails {s : State} (up : s.mainUp = true)
    (fresh : ∀ p, s.ft.pending = some p → s.now < p.at_ + 2000000000)
    (part : s.get F.FT_LOAD_VALUE % 1000000000 ≠ 0) : Answers .arm s fun t =>
      t.get F.FT_STATUS_ARM_FAIL = 1 ∧ t.get F.FT_STATUS_ARM_CAUSE = 2 ∧ t.ft = s.ft ∧
      Frame s t [] [F.FT_STATUS_ARM_FAIL, F.FT_STATUS_ARM_CAUSE] := by
  refine ⟨_, exec_arm up fresh, ?_⟩
  have misaligned : s.misaligned = true := decide_eq_true part
  rw [misaligned, if_pos rfl]
  refine ⟨?_, ?_, ?_, Frame.done s (Frame.armFails s 2 fun _ h => h)⟩
  · rw [State.settle_get_time _ _ (by decide), State.armFails_fail]
  · rw [State.settle_get_time _ _ (by decide), State.armFails_cause]
    rfl
  · rw [State.settle_ft, State.armFails_ft]

/-- ARM_PEND follows the armed load. -/
theorem State.settle_armPend (old : State) {u : State} (h : u.ft.pending = none) :
    (State.settle old u).get F.FT_STATUS_ARM_PEND = 0 := by
  refine (State.settle_live old u ⟨F.FT_STATUS_ARM_PEND, 0, fun s => natOfBool s.ft.pending.isSome⟩
    (by simp [statusLive]) (by unfold LiveField.fits; decide) (by decide) (by decide) (by decide)).trans ?_
  simp only [LiveField.shown, h]
  exact ite_self _

theorem disarm_cancels {s : State} (up : s.mainUp = true) : Answers .disarm s fun t =>
    t.ft = { s.ft with pending := none } ∧ t.get F.FT_STATUS_ARM_PEND = 0 ∧ Frame s t [.ft] [] :=
  ⟨_, if_pos up, State.settle_ft _ _, State.settle_armPend s rfl, Frame.done s (Frame.setFt s _ (by simp))⟩

theorem exec_armExpiry {s : State} (up : s.mainUp = true) : exec .armExpiry s = done s s.expireLoad := if_pos up

theorem armExpiry_early {s : State} {p : PendingLoad} (up : s.mainUp = true) (armed : s.ft.pending = some p)
    (early : s.now < p.at_ + 2000000000) : Answers .armExpiry s fun t => Frame s t [] [] := by
  refine ⟨_, exec_armExpiry up, ?_⟩
  rw [State.expireLoad_of_fresh fun q hq => Option.some.inj (armed.symm.trans hq) ▸ early]
  exact Frame.settle s s [] []

theorem armExpiry_fails {s : State} {p : PendingLoad} (up : s.mainUp = true) (armed : s.ft.pending = some p)
    (due : p.at_ + 2000000000 ≤ s.now) (free : s.ftCommand = none) : Answers .armExpiry s fun t =>
      t.ft = { s.ft with pending := none } ∧ t.get F.FT_STATUS_ARM_FAIL = 1 ∧ t.get F.FT_STATUS_ARM_CAUSE = p.cause ∧
      Frame s t [.ft] [F.FT_STATUS_ARM_FAIL, F.FT_STATUS_ARM_CAUSE] := by
  refine ⟨_, exec_armExpiry up, ?_⟩
  rw [State.expireLoad_of_due armed due, State.armFail_of_free free]
  refine ⟨?_, ?_, ?_, Frame.done s (Frame.failedLoad s _)⟩
  · rw [State.settle_ft, State.armFails_ft]
    rfl
  · rw [State.settle_get_time _ _ (by decide), State.armFails_fail]
  · rw [State.settle_get_time _ _ (by decide), State.armFails_cause, PendingLoad.cause_mod]

theorem armExpiry_completes {s : State} {p : PendingLoad} {a : Accepted} (up : s.mainUp = true)
    (armed : s.ft.pending = some p) (due : p.at_ + 2000000000 ≤ s.now) (command : s.ftCommand = some a) :
    Answers .armExpiry s fun t => t.ft.pending = none ∧ Completed s a p.code 0 t := by
  refine ⟨_, exec_armExpiry up, ?_⟩
  rw [State.expireLoad_of_due armed due, State.armFail_of_command command]
  refine ⟨?_, State.complete_of_frame s (Frame.failedLoad s p.cause) (by decide) (by unfold Field.outside; decide) a _ 0⟩
  rw [State.settle_ft, State.complete_ft, State.armFails_ft]
  rfl

/-! ### The halves of FT_NOW (R45) -/

theorem State.ftLatch_congr {s t : State} (h : t.ft.latches = s.ft.latches) (r : Requester) : t.ftLatch r = s.ftLatch r := by
  rw [State.ftLatch, h, State.ftLatch]

theorem State.ftLatch_dropLatch_self (s : State) (r : Requester) : (s.dropLatch r).ftLatch r = none := by
  simp [State.ftLatch, State.dropLatch, List.find?_filter]

theorem State.ftLatch_dropLatch_ne (s : State) {q r : Requester} (h : q ≠ r) : (s.dropLatch r).ftLatch q = s.ftLatch q := by
  have same : ∀ p : Requester × Nat, (¬p.1 = r ∧ p.1 = q) ↔ p.1 = q := fun p => ⟨And.right, fun e => ⟨e ▸ h, e⟩⟩
  simp [State.ftLatch, State.dropLatch, List.find?_filter, same]

/-- A requester's latch holds a value, and no other does for it. -/
def State.latch (s : State) (r : Requester) (v : Nat) : State :=
  let t := s.dropLatch r
  t.setFt { t.ft with latches := (r, v) :: t.ft.latches }

theorem State.ftLatch_latch_self (s : State) (r : Requester) (v : Nat) : (s.latch r v).ftLatch r = some v := by
  simp [State.ftLatch, State.latch]

theorem State.ftLatch_latch_ne (s : State) {q r : Requester} (h : q ≠ r) (v : Nat) : (s.latch r v).ftLatch q = s.ftLatch q := by
  rw [← State.ftLatch_dropLatch_ne s h]
  simp [State.ftLatch, State.latch, h.symm]

theorem Frame.dropLatch (s : State) (r : Requester) (fs : List Field) : Frame s (s.dropLatch r) [.ft] fs :=
  Frame.setFt s _ (by simp)

theorem Frame.noteRead (s : State) (v : Nat) (fs : List Field) : Frame s (s.noteRead v) [.ft] fs := Frame.setFt s _ (by simp)

@[simp] theorem State.ftLatch_settle (old u : State) (r : Requester) : (State.settle old u).ftLatch r = u.ftLatch r :=
  State.ftLatch_congr (congrArg TimeBlock.latches (State.settle_ft old u)) r

theorem ftNowLowRead_latches (r : Requester) {s : State} (up : s.mainUp = true) : Answers (.ftNowLowRead r) s fun t =>
    Output.regRead r (s.ftRead % 2 ^ 32) ∈ t.out ∧ t.ftLatch r = some (s.ftRead / 2 ^ 32 % 2 ^ 32) ∧
    s.ftRead ≤ t.ft.floor ∧ (∀ q : Requester, q ≠ r → t.ftLatch q = s.ftLatch q) ∧ Frame s t [.ft] [] := by
  have run : exec (.ftNowLowRead r) s = done s (((s.noteRead s.ftRead).emit (.regRead r (s.ftRead % 2 ^ 32))).latch r
      (s.ftRead / 2 ^ 32 % 2 ^ 32)) := if_neg (by simp [up])
  refine ⟨_, run, State.settle_out_mono _ _ (List.mem_cons_self ..), ?_, ?_, fun q other => ?_, Frame.done s
    ((Frame.noteRead s _ _).trans ((Frame.emit _ _ _ _).trans ((Frame.dropLatch _ r _).trans (Frame.setFt _ _ (by simp)))))⟩
  · rw [State.ftLatch_settle, State.ftLatch_latch_self]
  · rw [State.settle_ft]
    exact le_max_right s.ft.floor s.ftRead
  · rw [State.ftLatch_settle, State.ftLatch_latch_ne _ other]
    rfl

/-- A requester that holds a latch is answered from it. -/
theorem exec_ftNowHighRead_held {r : Requester} {s : State} {v : Nat} (up : s.mainUp = true) (held : s.ftLatch r = some v) :
    exec (.ftNowHighRead r) s = done s ((s.dropLatch r).emit (.regRead r v)) := by
  refine (if_neg (by simp [up])).trans ?_
  rw [held]

/-- Any other requester is answered with the current high half. -/
theorem exec_ftNowHighRead_free {r : Requester} {s : State} (up : s.mainUp = true) (free : s.ftLatch r = none) :
    exec (.ftNowHighRead r) s =
      done s ((s.noteRead s.ftRead).emit (.regRead r (s.ftRead / 2 ^ 32 % 2 ^ 32))) := by
  refine (if_neg (by simp [up])).trans ?_
  rw [free]

theorem ftNowHighRead_drops (r : Requester) {s : State} (up : s.mainUp = true) : Answers (.ftNowHighRead r) s fun t =>
    Output.regRead r ((s.ftLatch r).getD (s.ftRead / 2 ^ 32 % 2 ^ 32)) ∈ t.out ∧ t.ftLatch r = none ∧
    (∀ q : Requester, q ≠ r → t.ftLatch q = s.ftLatch q) ∧ Frame s t [.ft] [] := by
  cases held : s.ftLatch r with
  | some v =>
    refine ⟨_, exec_ftNowHighRead_held up held, State.settle_out_mono _ _ (List.mem_cons_self ..), ?_, fun q other => ?_,
      Frame.done s ((Frame.dropLatch s r _).trans (Frame.emit _ _ _ _))⟩
    · exact (State.ftLatch_settle _ _ r).trans (State.ftLatch_dropLatch_self s r)
    · exact (State.ftLatch_settle _ _ q).trans (State.ftLatch_dropLatch_ne s other)
  | none =>
    exact ⟨_, exec_ftNowHighRead_free up held, State.settle_out_mono _ _ (List.mem_cons_self ..),
      (State.ftLatch_settle _ _ r).trans held, fun q _ => State.ftLatch_settle _ _ q,
      Frame.done s ((Frame.noteRead s _ _).trans (Frame.emit _ _ _ _))⟩

/-- Settles O35: an arm captures or fails alone, DISARM and the expiry leave no load armed, and a read of a half touches
the latch of its own requester. -/
theorem loadsAreArmedAndExpire : Obligations.LoadsAreArmedAndExpire :=
  ⟨fun _ up fresh => ⟨arm_captures up fresh, arm_fails up fresh⟩, fun _ up => disarm_cancels up,
    fun _ _ up armed => ⟨armExpiry_early up armed, fun due free => armExpiry_fails up armed due free,
      fun due _ command => armExpiry_completes up armed due command⟩,
    fun r _ up => ⟨ftNowLowRead_latches r up, ftNowHighRead_drops r up⟩⟩

end Sys2Proof.Machine

/-! SUPPORT. The reference: how an edge is counted, how a qualification window is judged, and what the loss of a qualified
reference leaves. -/

namespace Sys2Proof.Machine

/-! ### Fields that neither the settling nor a fault event writes -/

/-- The field is written neither by a fault event nor by the settling (R441 to R453, R465). -/
def Field.apart (g : Field) : Bool := (settleFields ++ raiseFields).all (fun f => f.id != g.id)

theorem Field.outside_of_apart {g : Field} (h : g.apart = true) : g.outside settleFields ∧ g.outside raiseFields := by
  rw [← Field.outside_append]
  intro f hf
  simpa using List.all_eq_true.1 h f hf

theorem State.settle_get_apart (old u : State) {g : Field} (h : g.apart = true) : (State.settle old u).get g = u.get g :=
  State.settle_getN old u (Field.outside_of_apart h).1 0

theorem State.raise_get_apart (s : State) (n inst word : Nat) {g : Field} (h : g.apart = true) :
    (s.raise n inst word).get g = s.get g :=
  State.raise_getN s n inst word (Field.outside_of_apart h).2 0

theorem State.clearLive_get_apart (s : State) (n : Nat) {g : Field} (h : g.apart = true) :
    (s.clearLive n).get g = s.get g :=
  State.clearLive_getN s n (Field.outside_of_apart h).2 0

/-! ### An edge (R44, R50) -/

/-- An edge is counted in its qualification window, or begins the first one (R50). -/
def TimeBlock.countEdge (b : TimeBlock) (now : Nat) : TimeBlock :=
  if b.windows = false then
    { b with windows := true, windowAt := now, windowEdges := 1, nextEdges := 0, good := 0, bad := 0 }
  else if now < b.windowAt + 1000000 then { b with windowEdges := b.windowEdges + 1 }
  else { b with nextEdges := b.nextEdges + 1 }

theorem TimeBlock.countEdge_counts (b : TimeBlock) (now : Nat) :
    (b.countEdge now).count = b.count ∧ (b.countEdge now).frac = b.frac := by
  unfold TimeBlock.countEdge
  split_ifs <;> exact ⟨rfl, rfl⟩

theorem TimeBlock.countEdge_windows (b : TimeBlock) (now : Nat) : (b.countEdge now).windows = true := by
  unfold TimeBlock.countEdge
  split_ifs with h
  · rfl
  · simpa using h
  · simpa using h

theorem TimeBlock.countEdge_edges {b : TimeBlock} (h : b.windows = true) (now : Nat) :
    (b.countEdge now).windowEdges + (b.countEdge now).nextEdges = b.windowEdges + b.nextEdges + 1 := by
  unfold TimeBlock.countEdge
  split_ifs with stopped
  · exact absurd h (by simp [stopped])
  · exact Nat.succ_add _ _
  · rfl

theorem TimeBlock.countEdge_within {b : TimeBlock} {now : Nat} (h : b.windows = true) (within : now < b.windowAt + 1000000) :
    (b.countEdge now).nextEdges = b.nextEdges := by
  rw [TimeBlock.countEdge, if_neg (by simp [h]), if_pos within]

/-- The time block once an edge has come: counted, and the interpolation starts at it (R45). -/
def TimeBlock.atEdge (b : TimeBlock) (now : Nat) : TimeBlock := { b.countEdge now with edgeAt := now, interpAt := now }

/-- The count after an edge: a running one advances (R44). -/
def State.countEdge (s : State) : State := if s.get F.FT_STATUS_STATE = Ft.running then s.advanceCount else s

/-- The window of an edge, as a step of the time block alone. -/
theorem State.setFt_countEdge (t : State) :
    (if !t.ft.windows then
        t.setFt { t.ft with windows := true, windowAt := t.now, windowEdges := 1, nextEdges := 0, good := 0, bad := 0 }
      else if t.now < t.ft.windowAt + 1000000 then t.setFt { t.ft with windowEdges := t.ft.windowEdges + 1 }
      else t.setFt { t.ft with nextEdges := t.ft.nextEdges + 1 }) = t.setFt (t.ft.countEdge t.now) := by
  simp only [TimeBlock.countEdge, apply_ite t.setFt, Bool.not_eq_true']

/-- An edge that has advanced the count is counted in its window, and the interpolation starts at it. -/
def State.markEdge (t : State) : State := t.setFt (t.ft.atEdge t.now)

theorem Frame.markEdge (t : State) (fs : List Field) : Frame t t.markEdge [.ft] fs := Frame.setFt t _ (by simp)

theorem exec_timeRefEdge {s : State} (up : s.mainUp = true) : exec .timeRefEdge s = done s s.countEdge.markEdge := by
  refine (if_neg (by simp [up])).trans (congrArg (done s) ?_)
  exact congrArg (fun t : State => t.setFt { t.ft with edgeAt := t.now, interpAt := t.now })
    (State.setFt_countEdge s.countEdge)

theorem timeRefEdge_advances {s : State} (up : s.mainUp = true) (windows : s.ft.windows = true)
    (run : s.get F.FT_STATUS_STATE = Ft.running) : Answers .timeRefEdge s fun t =>
      t.ft.count = (s.ft.count + (s.ft.frac + s.ftIncrement * s.slewFactor) / 1000000000) % 2 ^ 64 ∧
      t.ft.frac = (s.ft.frac + s.ftIncrement * s.slewFactor) % 1000000000 ∧
      t.ft.edgeAt = s.now ∧ t.ft.interpAt = s.now ∧
      t.ft.windowEdges + t.ft.nextEdges = s.ft.windowEdges + s.ft.nextEdges + 1 ∧
      (s.now < s.ft.windowAt + 1000000 → t.ft.nextEdges = s.ft.nextEdges) ∧ Frame s t [.ft] [] := by
  refine ⟨_, exec_timeRefEdge up, ?_⟩
  rw [State.countEdge, if_pos run]
  simp only [State.settle_ft]
  have running : s.advanceCount.ft.windows = true := windows
  obtain ⟨count, frac⟩ := s.advanceCount.ft.countEdge_counts s.now
  exact ⟨count, frac, rfl, rfl, TimeBlock.countEdge_edges running s.now, TimeBlock.countEdge_within running,
    Frame.done s ((Frame.setFt s _ (by simp)).trans (Frame.markEdge s.advanceCount _))⟩

theorem timeRefEdge_stopped {s : State} (up : s.mainUp = true) (stopped : s.get F.FT_STATUS_STATE ≠ Ft.running) :
    Answers .timeRefEdge s fun t =>
      t.ft.count = s.ft.count ∧ t.ft.edgeAt = s.now ∧ t.ft.windows = true ∧ Frame s t [.ft] [] := by
  refine ⟨_, exec_timeRefEdge up, ?_⟩
  rw [State.countEdge, if_neg stopped]
  simp only [State.settle_ft]
  exact ⟨(s.ft.countEdge_counts s.now).1, rfl, s.ft.countEdge_windows s.now, Frame.done s (Frame.markEdge s _)⟩

/-! ### The loss of a qualified reference (R51) -/

/-- Qualification starts anew, and the reference is lost. -/
def State.unqualified (s : State) : State :=
  ((s.setFt { s.ft with windows := false, good := 0, bad := 0 }).set F.FT_STATUS_REF_LOST 1).set F.FT_STATUS_REF_OK 0

theorem State.unqualified_get (s : State) {g : Field} (hl : F.FT_STATUS_REF_LOST.id ≠ g.id)
    (ho : F.FT_STATUS_REF_OK.id ≠ g.id) : s.unqualified.get g = s.get g := by
  rw [State.unqualified, State.get_set_of_id _ ho, State.get_set_of_id _ hl, State.get_setFt]

@[simp] theorem State.unqualified_ft (s : State) : s.unqualified.ft = { s.ft with windows := false, good := 0, bad := 0 } := by
  simp [State.unqualified]

theorem State.unqualified_ftRead (s : State) : s.unqualified.ftRead = s.ftRead := by
  have now : s.unqualified.now = s.now := by simp [State.unqualified]
  simp only [State.ftRead, State.ftIncrement, State.slewFactor, State.flag, State.unqualified_ft, now,
    State.unqualified_get s (by decide : F.FT_STATUS_REF_LOST.id ≠ F.FT_STATUS_STATE.id) (by decide),
    State.unqualified_get s (by decide : F.FT_STATUS_REF_LOST.id ≠ F.FT_CTL_REF_SEL.id) (by decide)]
  rfl

/-- A running count stops at the value that FT_NOW last reached (R45). -/
def State.stopCount (s : State) : State :=
  if s.get F.FT_STATUS_STATE = Ft.running then
    (s.setFt { s.ft with count := s.ftRead }).set F.FT_STATUS_STATE Ft.stopped
  else s

theorem State.stopCount_ft (s : State) : s.stopCount.ft =
    { s.ft with count := if s.get F.FT_STATUS_STATE = Ft.running then s.ftRead else s.ft.count } := by
  unfold State.stopCount
  split_ifs <;> simp

theorem State.stopCount_state (s : State) : s.stopCount.get F.FT_STATUS_STATE =
    if s.get F.FT_STATUS_STATE = Ft.running then Ft.stopped else s.get F.FT_STATUS_STATE := by
  unfold State.stopCount
  split_ifs
  · rw [State.get_set_self]
    rfl
  · rfl

theorem State.stopCount_get (s : State) {g : Field} (h : F.FT_STATUS_STATE.id ≠ g.id) : s.stopCount.get g = s.get g := by
  unfold State.stopCount
  split_ifs
  · rw [State.get_set_of_id _ h, State.get_setFt]
  · rfl

theorem State.stopCount_pwr (s : State) : s.stopCount.pwr = s.pwr := by
  unfold State.stopCount
  split_ifs <;> simp

theorem State.loseRef_of_qualified {s : State} (ok : s.flag F.FT_STATUS_REF_OK = true) :
    s.loseRef = s.unqualified.stopCount.raise 8 0 0 := by
  have qualified : ∀ b, (s.setFt b).flag F.FT_STATUS_REF_OK = true := fun _ => ok
  rw [State.loseRef]
  exact if_neg (by simp [qualified])

/-- From `s` to `t` a qualified reference has been lost, and a running count with it. -/
def LosesRef (s t : State) : Prop :=
  t.get F.FT_STATUS_REF_OK = 0 ∧ t.get F.FT_STATUS_REF_LOST = 1 ∧ t.sticky 8 = true ∧
  t.get F.FT_STATUS_STATE = (if s.get F.FT_STATUS_STATE = Ft.running then Ft.stopped else s.get F.FT_STATUS_STATE) ∧
  t.ft.count = (if s.get F.FT_STATUS_STATE = Ft.running then s.ftRead else s.ft.count) ∧ t.ft.windows = false

theorem State.loseRef_loses {s : State} (hold : s.pwr.hold = true) (ok : s.flag F.FT_STATUS_REF_OK = true) :
    LosesRef s s.loseRef := by
  have state : s.unqualified.get F.FT_STATUS_STATE = s.get F.FT_STATUS_STATE :=
    State.unqualified_get s (by decide) (by decide)
  have pwr : s.unqualified.stopCount.pwr.hold = true := by
    rw [State.stopCount_pwr]
    simpa [State.unqualified] using hold
  have ft : (s.unqualified.stopCount.raise 8 0 0).ft = { s.unqualified.ft with
      count := if s.get F.FT_STATUS_STATE = Ft.running then s.ftRead else s.ft.count } := by
    rw [State.raise_ft, State.stopCount_ft, state, State.unqualified_ftRead, State.unqualified_ft]
  rw [State.loseRef_of_qualified ok]
  refine ⟨?_, ?_, State.sticky_raise _ pwr rfl 0 0, ?_, by rw [ft], by rw [ft, State.unqualified_ft]⟩
  · rw [State.raise_get_apart _ _ _ _ (by decide), State.stopCount_get _ (by decide), State.unqualified, State.get_set_self,
      Nat.zero_mod]
  · rw [State.raise_get_apart _ _ _ _ (by decide), State.stopCount_get _ (by decide), State.unqualified,
      State.get_set_of_id _ (by decide), State.get_set_self]
    rfl
  · rw [State.raise_get_apart _ _ _ _ (by decide), State.stopCount_state, state]

theorem LosesRef.settle {s t : State} (h : LosesRef s t) (old : State) : LosesRef s (State.settle old t) := by
  unfold LosesRef
  rwa [State.settle_get_apart _ _ (by decide), State.settle_get_apart _ _ (by decide), State.settle_get_apart _ _ (by decide),
    State.sticky_settle, State.settle_ft]

/-- A field that the loss does not touch may be written after it. -/
theorem LosesRef.set {s t : State} (h : LosesRef s t) {f : Field}
    (hf : ∀ g ∈ [F.FT_STATUS_REF_OK, F.FT_STATUS_REF_LOST, F.FT_STATUS_STATE, F.FLT_STICKY_STICKY], f.id ≠ g.id) (v : Nat) :
    LosesRef s (t.set f v) := by
  unfold LosesRef
  rwa [State.get_set_of_id t (hf _ (by simp)), State.get_set_of_id t (hf _ (by simp)), State.get_set_of_id t (hf _ (by simp)),
    State.sticky_set t (hf _ (by simp)), State.set_ft]

/-! ### The end of a window (R50) -/

/-- The next window runs, with the edges that came after the end of the last, and the successions of good and bad ones
as given. -/
def State.nextWindow (s : State) (good bad : Nat) : State := s.setFt { s.ft with
  windowAt := s.ft.windowAt + 1000000, windowEdges := s.ft.nextEdges, nextEdges := 0, good := good, bad := bad }

/-! A reference that qualifies (R50) -/

theorem State.qualifyRef_ft (s : State) :
    s.qualifyRef.ft = { s.ft with pending := s.ft.pending.map (fun p => { p with refSeen := true }) } := by
  simp [State.qualifyRef]

theorem State.qualifyRef_ok (s : State) : s.qualifyRef.get F.FT_STATUS_REF_OK = 1 := by
  rw [State.qualifyRef, State.get_setFt, State.clearLive_get_apart _ _ (by decide), State.get_set_self]
  rfl

theorem State.qualifyRef_live (s : State) : s.qualifyRef.live 8 = false := State.live_clearLive _ 8

theorem Frame.qualifyRef (s : State) : Frame s s.qualifyRef [.ft] [F.FT_STATUS_REF_OK, F.FLT_LIVE_LIVE] :=
  (Frame.set _ _ _ (by simp)).trans ((Frame.clearLive _ _ (by simp)).trans (Frame.setFt _ _ (by simp)))

section WindowEnd

variable {part : Int} {s : State}

theorem exec_refWindowEnd (fits : part.natAbs < 1000) (up : s.mainUp = true) (windows : s.ft.windows = true)
    (ended : s.ft.windowAt + 1000000 ≤ s.now) : exec (.refWindowEnd part) s =
      if s.inTolerance part then
        done s (if s.ft.good + 1 ≥ 100 && !s.flag F.FT_STATUS_REF_OK then (s.nextWindow (s.ft.good + 1) 0).qualifyRef
          else s.nextWindow (s.ft.good + 1) 0)
      else done s (if s.ft.bad + 1 ≥ 2 then (s.nextWindow 0 (s.ft.bad + 1)).loseRef else s.nextWindow 0 (s.ft.bad + 1)) :=
  (if_neg (by simp [windowPartOk, fits])).trans (if_neg (by simp [up, windows, ended]))

/-- A window in tolerance: the hundredth in succession qualifies a reference that is not qualified. -/
theorem refWindowEnd_good (fits : part.natAbs < 1000) (up : s.mainUp = true) (windows : s.ft.windows = true)
    (ended : s.ft.windowAt + 1000000 ≤ s.now) (tolerated : s.inTolerance part = true) :
    Answers (.refWindowEnd part) s fun t =>
      t.ft.good = s.ft.good + 1 ∧ t.ft.bad = 0 ∧ t.ft.windowAt = s.ft.windowAt + 1000000 ∧
      t.ft.windowEdges = s.ft.nextEdges ∧
      t.flag F.FT_STATUS_REF_OK = (s.flag F.FT_STATUS_REF_OK || decide (99 ≤ s.ft.good)) ∧
      (99 ≤ s.ft.good → s.flag F.FT_STATUS_REF_OK = false → t.live 8 = false) ∧
      Frame s t [.ft] [F.FT_STATUS_REF_OK, F.FLT_LIVE_LIVE] := by
  refine ⟨_, (exec_refWindowEnd fits up windows ended).trans (if_pos tolerated), ?_⟩
  have next : Frame s (s.nextWindow (s.ft.good + 1) 0) [.ft] [F.FT_STATUS_REF_OK, F.FLT_LIVE_LIVE] :=
    Frame.setFt s _ (by simp)
  by_cases qualifies : 99 ≤ s.ft.good ∧ s.flag F.FT_STATUS_REF_OK = false
  · rw [if_pos (by simp [qualifies])]
    simp only [State.settle_ft, State.qualifyRef_ft]
    refine ⟨rfl, rfl, rfl, rfl, ?_, fun _ _ => ?_, Frame.done s (next.trans (Frame.qualifyRef _))⟩
    · rw [State.flag, State.settle_get_apart _ _ (by decide), State.qualifyRef_ok, decide_eq_true qualifies.1, Bool.or_true]
      rfl
    · rw [State.live_settle, State.qualifyRef_live]
  · rw [if_neg (by simpa using qualifies)]
    simp only [State.settle_ft]
    refine ⟨rfl, rfl, rfl, rfl, ?_, fun long unset => absurd ⟨long, unset⟩ qualifies, Frame.done s next⟩
    rw [State.flag, State.settle_get_apart _ _ (by decide)]
    change s.flag F.FT_STATUS_REF_OK = _
    cases ok : s.flag F.FT_STATUS_REF_OK with
    | true => rfl
    | false => rw [decide_eq_false fun long => qualifies ⟨long, ok⟩, Bool.or_false]

theorem refWindowEnd_firstBad (fits : part.natAbs < 1000) (up : s.mainUp = true) (windows : s.ft.windows = true)
    (ended : s.ft.windowAt + 1000000 ≤ s.now) (missed : s.inTolerance part = false) (first : s.ft.bad = 0) :
    Answers (.refWindowEnd part) s fun t => t.ft.good = 0 ∧ t.ft.bad = 1 ∧ Frame s t [.ft] [] := by
  refine ⟨_, (exec_refWindowEnd fits up windows ended).trans (if_neg (by simp [missed])), ?_⟩
  rw [first, if_neg (by decide)]
  simp only [State.settle_ft]
  exact ⟨rfl, rfl, Frame.done s (Frame.setFt s _ (by simp))⟩

end WindowEnd

/-! ### The ways to lose the reference (R50 to R52) -/

section Lost

variable {s : State} (up : s.mainUp = true) (ok : s.flag F.FT_STATUS_REF_OK = true)
include up ok

theorem refWindowEnd_loses {part : Int} (fits : part.natAbs < 1000) (windows : s.ft.windows = true)
    (ended : s.ft.windowAt + 1000000 ≤ s.now) (missed : s.inTolerance part = false) (again : 1 ≤ s.ft.bad) :
    Answers (.refWindowEnd part) s (LosesRef s) := by
  refine ⟨_, (exec_refWindowEnd fits up windows ended).trans (if_neg (by simp [missed])), ?_⟩
  rw [if_pos (Nat.succ_le_succ again)]
  -- The window's own bookkeeping leaves the count and what FT_NOW reads.
  have loses : LosesRef s (s.nextWindow 0 (s.ft.bad + 1)).loseRef :=
    State.loseRef_loses (s := s.nextWindow 0 (s.ft.bad + 1)) (State.hold_of_mainUp up) ok
  exact loses.settle s

theorem timeRefLoss_loses (windows : s.ft.windows = true) (silent : s.ft.edgeAt + 1000 ≤ s.now) :
    Answers .timeRefLoss s (LosesRef s) :=
  ⟨_, if_pos (by simp [up, windows, silent]), (State.loseRef_loses (State.hold_of_mainUp up) ok).settle s⟩

theorem refSelChange_loses {v : Word} (change : s.get F.FT_CTL_REF_SEL ≠ natOfBool (bitOf v.toNat 4)) :
    Answers (.refSelChange v) s fun t => LosesRef s t ∧ t.get F.FT_CTL_REF_SEL = natOfBool (bitOf v.toNat 4) := by
  refine ⟨_, if_neg (by simp [up, change]), ?_, ?_⟩
  · exact ((((State.loseRef_loses (State.hold_of_mainUp up) ok).set (by decide) _).set (by decide) _).set (by decide) _).settle s
  · rw [State.settle_get_apart _ _ (by decide), State.get_set_of_id _ (by decide), State.get_set_of_id _ (by decide),
      State.get_set_self]
    cases bitOf v.toNat 4 <;> rfl

end Lost

theorem Answers.mono {c : Instr} {s : State} {P Q : State → Prop} (h : Answers c s P) (k : ∀ t, P t → Q t) :
    Answers c s Q := by
  obtain ⟨t, run, holds⟩ := h
  exact ⟨t, run, k t holds⟩

/-- Settles O33: an edge advances a running count, a window is judged once it is over, and the three ways to lose a qualified
reference leave the same. -/
theorem theReferenceCountsAndQualifies : Obligations.TheReferenceCountsAndQualifies :=
  ⟨fun _ up windows run => timeRefEdge_advances up windows run, fun _ up stopped => timeRefEdge_stopped up stopped,
    fun _ _ fits up windows ended tolerated => refWindowEnd_good fits up windows ended tolerated,
    fun _ _ fits up windows ended missed first => refWindowEnd_firstBad fits up windows ended missed first,
    fun _ up ok => ⟨fun _ fits windows ended missed again => refWindowEnd_loses up ok fits windows ended missed again,
      fun windows silent => timeRefLoss_loses up ok windows silent,
      fun _ change => ⟨(refSelChange_loses up ok change).mono fun _ h => h.1,
        (refSelChange_loses up ok change).mono fun _ h => h.2⟩⟩⟩

end Sys2Proof.Machine

/-! SUPPORT. The calendar: how an entry is stored and read back, how a due one fires, and what a commit leaves of it. -/

namespace Sys2Proof.Machine

/-! ### Entries (R57, R62) -/

theorem Frame.withCal (s : State) (c : Calendar) {ps : List Part} (h : .cal ∈ ps) (fs : List Field) :
    Frame s { s with cal := c } ps fs := by
  refine ⟨rfl, rfl, fun p hp => ?_, fun _ _ _ => rfl⟩
  cases p with
  | cal => exact absurd h hp
  | _ => rfl

theorem Frame.setEntry (s : State) (i : Nat) (e : Option CalEntry) (fs : List Field) : Frame s (s.setEntry i e) [.cal] fs :=
  Frame.withCal s _ (by simp) fs

theorem State.setEntry_entry (s : State) (i : Nat) (e : Option CalEntry) : (s.setEntry i e).cal.entries.get? i = e := by
  cases e with
  | some e => exact Store.get?_set_self _ _ _
  | none => exact Store.get?_erase_self _ _

theorem State.setEntry_others (s : State) {i j : Nat} (h : j ≠ i) (e : Option CalEntry) :
    (s.setEntry i e).cal.entries.get? j = s.cal.entries.get? j := by
  cases e with
  | some e => exact Store.get?_set_ne _ h.symm _
  | none => exact Store.get?_erase_ne _ h.symm

theorem State.heldEntry_congr {s t : State} (h : t.cal = s.cal) (i : Nat) : t.heldEntry i = s.heldEntry i := by
  rw [State.heldEntry, h, State.heldEntry]

theorem State.heldEntry_of_valid {s : State} {i : Nat} {e : CalEntry} (h : s.cal.entries.get? i = some e) :
    s.heldEntry i = some e := by
  rw [State.heldEntry, h]

theorem State.heldEntry_of_spent {s : State} {i : Nat} {e : CalEntry} (invalid : s.cal.entries.get? i = none)
    (h : s.cal.spent.get? i = some e) : s.heldEntry i = some e := by
  rw [State.heldEntry, invalid, ← h]

/-! ### An entry that is over (R57) -/

/-- From `s` to `t` the due entry `e` at `i` is over, evaluated at the µs `us`, with `drop` firings of it dropped: a one-shot
entry is invalid, a periodic one lies past the present and has counted the periods it skipped, and the other entries stay. -/
structure Passes (s t : State) (i : Nat) (e : CalEntry) (us drop : Nat) : Prop where
  evaluated : t.cal.evaluated = s.cal.evaluated
  firings : t.cal.firings = s.cal.firings
  others : ∀ j : Nat, j ≠ i → t.cal.entries.get? j = s.cal.entries.get? j
  once : e.period = 0 → t.cal.entries.get? i = none
  held : ∃ d, t.heldEntry i = some d ∧ d.missed = min 0xFFFF (e.missed + ((us - e.instant) / e.period + drop)) ∧
    d.late = e.late ∧ (e.period ≠ 0 →
      t.cal.entries.get? i = some d ∧ d.instant = e.instant + ((us - e.instant) / e.period + 1) * e.period)

theorem State.passEntry_passes (s : State) (i : Nat) (e : CalEntry) (us drop : Nat) :
    Passes s (s.passEntry i e us drop) i e us drop := by
  by_cases once : e.period = 0
  · have pass : s.passEntry i e us drop = s.spendEntry i { e with missed := addMissed e.missed drop, past := false } :=
      if_pos once
    have invalid : (s.passEntry i e us drop).cal.entries.get? i = none := by
      rw [pass]
      exact Store.get?_erase_self _ _
    rw [pass] at invalid ⊢
    refine ⟨rfl, rfl, fun j other => Store.get?_erase_ne _ other.symm, fun _ => invalid,
      _, State.heldEntry_of_spent invalid (Store.get?_set_self _ _ _), ?_, rfl, fun periodic => absurd once periodic⟩
    rw [once, Nat.div_zero, Nat.zero_add]
    rfl
  · have pass : s.passEntry i e us drop = s.setEntry i (some (e.next us drop)) := if_neg once
    rw [pass]
    have valid := s.setEntry_entry i (some (e.next us drop))
    exact ⟨rfl, rfl, fun j other => s.setEntry_others other _, fun zero => absurd zero once,
      _, State.heldEntry_of_valid valid, rfl, rfl, fun _ => ⟨valid, rfl⟩⟩

theorem Passes.of_cal {s t u : State} {i : Nat} {e : CalEntry} {us drop : Nat} (h : Passes s t i e us drop)
    (cal : u.cal = t.cal) : Passes s u i e us drop := by
  obtain ⟨evaluated, firings, others, once, held⟩ := h
  rw [← cal] at evaluated firings others once held
  rw [← State.heldEntry_congr cal] at held
  exact ⟨evaluated, firings, others, once, held⟩

/-! ### HOLD stays powered as an event is counted -/

theorem State.react_hold (s : State) (n inst : Nat) (b : Bool) : (s.react n inst b).pwr.hold = s.pwr.hold := by
  have reset : ∀ (t : State) (c : Bool), (t.reactReset c n).pwr.hold = t.pwr.hold := fun t c => by
    unfold State.reactReset State.requestChipReset
    split_ifs <;> rfl
  rw [State.react, reset]
  simp

theorem State.raiseCore_hold (s : State) (n inst word : Nat) (b : Bool) : (s.raiseCore n inst word b).pwr.hold = s.pwr.hold := by
  unfold State.raiseCore
  split
  · rfl
  · rw [State.react_hold]
    simp

theorem State.bump_hold (s : State) (c : Counter) : (s.bump c).pwr.hold = s.pwr.hold := by
  have saturated : ∀ t : State, (t.raiseSaturated c 0).pwr.hold = t.pwr.hold := fun t => by
    unfold State.raiseSaturated
    split
    · rfl
    · rw [State.raiseCore_hold, State.bumpQuiet_pwr]
  unfold State.bump State.bumpN
  dsimp only
  split
  · rw [saturated, State.bumpQuiet_pwr]
  · rw [State.bumpQuiet_pwr]

/-! ### The firing of an entry (R57 to R59) -/

/-- A firing of the entry is pending at its target. -/
def State.stillPending (s : State) (i : Nat) (e : CalEntry) : Bool :=
  s.cal.firings.any (fun f => f.index == i && f.target == e.target)

/-- The entry fires late: more than 1 µs after its instant, or written with the instant already passed (R58). -/
def CalEntry.firesLate (e : CalEntry) (us : Nat) : Bool := e.past || decide (e.instant + 1 < us)

/-- The firing of an entry. -/
def State.firingOf (s : State) (i : Nat) (e : CalEntry) (us : Nat) : Firing :=
  ⟨i, e.target, e.action, e.arg, e.firesLate us, s.ft.count⟩

/-- The firing joins those pending, and the entry is over. -/
def State.fired (s : State) (i : Nat) (e : CalEntry) (us : Nat) : State :=
  State.passEntry { s with cal := { s.cal with firings := s.cal.firings ++ [s.firingOf i e us] } } i
    { e with late := e.late || e.firesLate us } us 0

section FireEntry

variable {s : State} {i : Nat} {e : CalEntry}

theorem State.fireEntry_of_pending (h : s.stillPending i e = true) (us : Nat) : s.fireEntry i e us = s.passEntry i e us 1 :=
  if_pos h

theorem State.fireEntry_of_free (h : s.stillPending i e = false) (us : Nat) : s.fireEntry i e us =
    if e.firesLate us then (((s.fired i e us).bump C.calFired).bump C.calLate).raise 10 0 0
    else (s.fired i e us).bump C.calFired :=
  if_neg (Bool.eq_false_iff.1 h)

theorem State.fireEntry_cal_of_free (h : s.stillPending i e = false) (us : Nat) :
    (s.fireEntry i e us).cal = (s.fired i e us).cal := by
  rw [State.fireEntry_of_free h]
  split <;> simp

theorem State.fireEntry_others (s : State) {i j : Nat} (other : j ≠ i) (e : CalEntry) (us : Nat) :
    (s.fireEntry i e us).cal.entries.get? j = s.cal.entries.get? j := by
  cases h : s.stillPending i e with
  | true =>
    rw [State.fireEntry_of_pending h]
    exact (s.passEntry_passes i e us 1).others j other
  | false =>
    rw [State.fireEntry_cal_of_free h]
    exact (State.passEntry_passes _ i _ us 0).others j other

theorem State.passEntry_keeps (s : State) (i : Nat) (e : CalEntry) (us drop : Nat) :
    (s.passEntry i e us drop).ft = s.ft ∧ (s.passEntry i e us drop).pwr = s.pwr := by
  unfold State.passEntry
  split_ifs <;> exact ⟨rfl, rfl⟩

theorem State.fired_keeps (s : State) (i : Nat) (e : CalEntry) (us : Nat) :
    (s.fired i e us).ft = s.ft ∧ (s.fired i e us).pwr = s.pwr := State.passEntry_keeps _ i _ us 0

theorem State.fireEntry_ft (s : State) (i : Nat) (e : CalEntry) (us : Nat) : (s.fireEntry i e us).ft = s.ft := by
  cases h : s.stillPending i e with
  | true =>
    rw [State.fireEntry_of_pending h]
    exact (s.passEntry_keeps i e us 1).1
  | false =>
    rw [State.fireEntry_of_free h]
    split <;> simp [(s.fired_keeps i e us).1]

/-- A late firing raises source 10 (R58). -/
theorem State.fireEntry_late (hold : s.pwr.hold = true) (free : s.stillPending i e = false) {us : Nat}
    (late : e.firesLate us = true) : (s.fireEntry i e us).sticky 10 = true := by
  rw [State.fireEntry_of_free free, if_pos late]
  refine State.sticky_raise _ ?_ rfl 0 0
  rw [State.bump_hold, State.bump_hold, (s.fired_keeps i e us).2, hold]

end FireEntry

/-! ### The evaluation (R56) -/

/-- The µs is evaluated. -/
def State.evaluatedAt (s : State) (us : Nat) : State := { s with cal := { s.cal with evaluated := some us } }

theorem exec_calendarEvaluation {s : State} {i : Nat} {e : CalEntry} (up : s.mainUp = true)
    (run : s.get F.FT_STATUS_STATE = Ft.running) (power : s.pwr.failed = false) (awaits : s.awaitsEvaluation = true)
    (due : s.cal.entries.filter (fun p => p.2.instant ≤ s.ft.count / 1000) = [(i, e)]) : exec .calendarEvaluation s =
      done s ((s.evaluatedAt (s.ft.count / 1000)).fireEntry i e (s.ft.count / 1000)) := by
  have only : (s.evaluatedAt (s.ft.count / 1000)).dueEntries (s.ft.count / 1000) = [(i, e)] := by
    change ((s.cal.entries.filter (fun p => p.2.instant ≤ s.ft.count / 1000)).foldl _ []).take 16 = _
    rw [due]
    rfl
  refine (if_neg (by simp [State.calendarFires, up, run, power, awaits])).trans ?_
  change done s (((s.evaluatedAt _).dueEntries _).foldl _ _) = _
  rw [only]
  rfl

section Evaluation

variable {s : State} {i : Nat} {e : CalEntry} (old : State) (us : Nat)

/-- The one entry due is over, whether or not its firing is dropped. -/
theorem evaluation_passes :
    let t := State.settle old ((s.evaluatedAt us).fireEntry i e us)
    t.cal.evaluated = some us ∧ (∀ j : Nat, j ≠ i → t.cal.entries.get? j = s.cal.entries.get? j) ∧
      (e.period = 0 → t.cal.entries.get? i = none) := by
  simp only [State.settle_cal]
  cases h : (s.evaluatedAt us).stillPending i e with
  | true =>
    rw [State.fireEntry_of_pending h]
    have pass := (s.evaluatedAt us).passEntry_passes i e us 1
    exact ⟨pass.evaluated, pass.others, pass.once⟩
  | false =>
    rw [State.fireEntry_cal_of_free h]
    have pass : Passes _ ((s.evaluatedAt us).fired i e us) i _ us 0 := State.passEntry_passes _ _ _ _ _
    exact ⟨pass.evaluated, pass.others, pass.once⟩

theorem evaluation_fires (hold : s.pwr.hold = true) (free : s.stillPending i e = false) :
    let t := State.settle old ((s.evaluatedAt us).fireEntry i e us)
    t.cal.firings = s.cal.firings ++ [s.firingOf i e us] ∧
    (∃ d, t.heldEntry i = some d ∧ d.missed = min 0xFFFF (e.missed + (us - e.instant) / e.period) ∧
      d.late = (e.late || e.firesLate us) ∧
      (e.period ≠ 0 →
        t.cal.entries.get? i = some d ∧ d.instant = e.instant + ((us - e.instant) / e.period + 1) * e.period)) ∧
    (e.firesLate us = true → t.sticky 10 = true) := by
  have cal : (State.settle old ((s.evaluatedAt us).fireEntry i e us)).cal = ((s.evaluatedAt us).fired i e us).cal := by
    rw [State.settle_cal, State.fireEntry_cal_of_free (s := s.evaluatedAt us) free]
  have pass : Passes _ ((s.evaluatedAt us).fired i e us) i _ us 0 := State.passEntry_passes _ _ _ _ _
  obtain ⟨-, firings, -, -, held⟩ := pass.of_cal cal
  refine ⟨firings, held, fun late => ?_⟩
  rw [State.sticky_settle]
  exact State.fireEntry_late (s := s.evaluatedAt us) hold free late

theorem evaluation_drops (pending : s.stillPending i e = true) :
    let t := State.settle old ((s.evaluatedAt us).fireEntry i e us)
    t.cal.firings = s.cal.firings ∧
    ∃ d, t.heldEntry i = some d ∧ d.missed = min 0xFFFF (e.missed + ((us - e.instant) / e.period + 1)) ∧
      (e.period ≠ 0 →
        t.cal.entries.get? i = some d ∧ d.instant = e.instant + ((us - e.instant) / e.period + 1) * e.period) := by
  have pass := (s.evaluatedAt us).passEntry_passes i e us 1
  rw [← State.fireEntry_of_pending (s := s.evaluatedAt us) pending] at pass
  obtain ⟨-, firings, -, -, d, held, missed, -, periodic⟩ := pass.of_cal (State.settle_cal old _)
  exact ⟨firings, d, held, missed, periodic⟩

end Evaluation

theorem calendarEvaluation_fires {s : State} {i : Nat} {e : CalEntry} (up : s.mainUp = true)
    (run : s.get F.FT_STATUS_STATE = Ft.running) (power : s.pwr.failed = false) (awaits : s.awaitsEvaluation = true)
    (due : s.cal.entries.filter (fun p => p.2.instant ≤ s.ft.count / 1000) = [(i, e)]) :
    let us := s.ft.count / 1000
    let k := (us - e.instant) / e.period
    let late := e.past || decide (e.instant + 1 < us)
    Answers .calendarEvaluation s fun t =>
      t.cal.evaluated = some us ∧ (∀ j : Nat, j ≠ i → t.cal.entries.get? j = s.cal.entries.get? j) ∧
      (e.period = 0 → t.cal.entries.get? i = none) ∧
      ((∀ f ∈ s.cal.firings, f.index = i → f.target ≠ e.target) →
        t.cal.firings = s.cal.firings ++ [⟨i, e.target, e.action, e.arg, late, s.ft.count⟩] ∧
        (∃ d, t.heldEntry i = some d ∧ d.missed = min 0xFFFF (e.missed + k) ∧ d.late = (e.late || late) ∧
          (e.period ≠ 0 → t.cal.entries.get? i = some d ∧ d.instant = e.instant + (k + 1) * e.period)) ∧
        (late = true → t.sticky 10 = true)) ∧
      ((∃ f ∈ s.cal.firings, f.index = i ∧ f.target = e.target) → t.cal.firings = s.cal.firings ∧
        ∃ d, t.heldEntry i = some d ∧ d.missed = min 0xFFFF (e.missed + (k + 1)) ∧
          (e.period ≠ 0 → t.cal.entries.get? i = some d ∧ d.instant = e.instant + (k + 1) * e.period)) := by
  refine ⟨_, exec_calendarEvaluation up run power awaits due, ?_⟩
  obtain ⟨evaluated, others, once⟩ := evaluation_passes (s := s) (i := i) (e := e) s (s.ft.count / 1000)
  refine ⟨evaluated, others, once, fun free => ?_, fun pending => ?_⟩
  · exact evaluation_fires s _ (State.hold_of_mainUp up) (by simpa [State.stillPending] using free)
  · exact evaluation_drops s _ (by simpa [State.stillPending] using pending)

/-! ### Commits (R62, R63) -/

/-- The old content fires first, and of no other entry. -/
theorem State.fireBefore_others (s : State) {i j : Nat} (other : j ≠ i) :
    (s.fireBefore i).cal.entries.get? j = s.cal.entries.get? j := by
  unfold State.fireBefore
  dsimp only
  split
  · split
    next p found =>
      have index : p.1 = i := by simpa using List.find?_some found
      exact s.fireEntry_others (index ▸ other) p.2 _
    next => rfl
  · rfl

theorem State.fireBefore_ft (s : State) (i : Nat) : (s.fireBefore i).ft = s.ft := by
  unfold State.fireBefore
  dsimp only
  split
  · split
    next p _ => exact s.fireEntry_ft p.1 p.2 _
    next => rfl
  · rfl

section Commit

variable (old v : State) {w : CalWriter} {i : Nat} {c : CalImage}

theorem commitImage_stores (permitted : commitAllowed w i (bitsOf c.w1.toNat 23 16) = true) :
    let u := v.fireBefore i
    let t := State.settle old (v.commitImage w i c)
    t.cal.entries.get? i = imageEntry c (u.heldEntry i) v.ft.count ∧
    (∀ j : Nat, j ≠ i → t.cal.entries.get? j = v.cal.entries.get? j) ∧ t.get F.CAL_CMD_RESULT = 0 ∧
    t.cal.firings = u.cal.firings ∧ Frame u t [.cal] [F.CAL_CMD_INDEX, F.CAL_CMD_RESULT] := by
  intro u t
  have commit : v.commitImage w i c = (u.setEntry i (imageEntry c (u.heldEntry i) v.ft.count)).set F.CAL_CMD_RESULT 0 := by
    rw [← v.fireBefore_ft i]
    exact if_pos permitted
  have cal : t.cal = (u.setEntry i (imageEntry c (u.heldEntry i) v.ft.count)).cal := by
    rw [State.settle_cal, commit, State.set_cal]
  refine ⟨?_, fun j other => ?_, ?_, ?_, ?_⟩
  · rw [cal, State.setEntry_entry]
  · rw [cal, State.setEntry_others _ other, State.fireBefore_others _ other]
  · rw [State.settle_get_apart _ _ (by decide), commit, State.get_set_self, Nat.zero_mod]
  · rw [cal]
    rfl
  · refine Frame.done old ?_
    rw [commit]
    exact (Frame.setEntry u i _ _).trans (Frame.set _ _ _ (by simp))

theorem commitImage_refuses (forbidden : commitAllowed w i (bitsOf c.w1.toNat 23 16) = false) :
    let t := State.settle old (v.commitImage w i c)
    t.get F.CAL_CMD_RESULT = 1 ∧ Frame v t [] [F.CAL_CMD_INDEX, F.CAL_CMD_RESULT] := by
  have commit : v.commitImage w i c = v.set F.CAL_CMD_RESULT 1 := if_neg (by simp [forbidden])
  rw [commit]
  refine ⟨?_, Frame.done old (Frame.set v _ _ (by simp))⟩
  rw [State.settle_get_apart _ _ (by decide), State.get_set_self]
  rfl

end Commit

theorem commitEntry_commits (w : CalWriter) (i : BitVec 10) {s : State} (up : s.mainUp = true) :
    let c := match w with
      | .firmware => s.stage
      | .management c => c
    let u := (match w with
      | .firmware => s.set F.CAL_CMD_INDEX i.toNat
      | .management _ => s).fireBefore i.toNat
    Answers (.commitEntry w i) s fun t =>
      (commitAllowed w i.toNat (bitsOf c.w1.toNat 23 16) = true →
        t.cal.entries.get? i.toNat = imageEntry c (u.heldEntry i.toNat) s.ft.count ∧
        (∀ j : Nat, j ≠ i.toNat → t.cal.entries.get? j = s.cal.entries.get? j) ∧ t.get F.CAL_CMD_RESULT = 0 ∧
        t.cal.firings = u.cal.firings ∧ Frame u t [.cal] [F.CAL_CMD_INDEX, F.CAL_CMD_RESULT]) ∧
      (commitAllowed w i.toNat (bitsOf c.w1.toNat 23 16) = false →
        t.get F.CAL_CMD_RESULT = 1 ∧ Frame s t [] [F.CAL_CMD_INDEX, F.CAL_CMD_RESULT]) := by
  cases w with
  | management c =>
    exact ⟨_, if_neg (by simp [up]), commitImage_stores s s, commitImage_refuses s s⟩
  | firmware =>
    refine ⟨_, if_neg (by simp [up]), fun permitted => ?_, fun forbidden => ?_⟩
    · have stores := commitImage_stores s (s.set F.CAL_CMD_INDEX i.toNat) permitted
      rwa [State.set_ft, State.set_cal] at stores
    · obtain ⟨result, frame⟩ := commitImage_refuses s (s.set F.CAL_CMD_INDEX i.toNat) forbidden
      exact ⟨result, (Frame.set s _ _ (by simp)).trans frame⟩

/-! ### Clearing and reading an entry (R62) -/

theorem clearEntry_clears (i : BitVec 10) {s : State} (up : s.mainUp = true) : Answers (.clearEntry i) s fun t =>
    t.cal.entries.get? i.toNat = none ∧ (∀ j : Nat, j ≠ i.toNat → t.cal.entries.get? j = s.cal.entries.get? j) ∧
    t.get F.CAL_CMD_RESULT = 0 ∧ Frame s t [.cal] [F.CAL_CMD_INDEX, F.CAL_CMD_RESULT] := by
  refine ⟨_, if_neg (by simp [up]), ?_, fun j other => ?_, ?_, Frame.done s ((Frame.set s _ _ (by simp)).trans
    ((Frame.setEntry _ _ _ _).trans (Frame.set _ _ _ (by simp))))⟩
  · rw [State.settle_cal, State.set_cal, State.setEntry_entry]
  · rw [State.settle_cal, State.set_cal, State.setEntry_others _ other, State.set_cal]
  · rw [State.settle_get_apart _ _ (by decide), State.get_set_self, Nat.zero_mod]

/-- An image in the stage registers. -/
def State.setStage (s : State) (c : CalImage) : State :=
  (((s.setN F.CAL_STAGE_ENTRY 0 c.w0.toNat).setN F.CAL_STAGE_ENTRY 1 c.w1.toNat).setN
    F.CAL_STAGE_ENTRY 2 c.w2.toNat).setN F.CAL_STAGE_ENTRY 3 c.w3.toNat

theorem State.stage_setStage (s : State) (c : CalImage) : (s.setStage c).stage = c := by
  have word : ∀ w : Dword, BitVec.ofNat 64 (w.toNat % 2 ^ F.CAL_STAGE_ENTRY.width) = w := fun w =>
    (congrArg (BitVec.ofNat 64) (Nat.mod_eq_of_lt w.isLt)).trans (by simp)
  simp (disch := decide) only [State.stage, State.setStage, State.getN_setN_self, State.getN_setN_of_index, word]

theorem State.stage_settle (old u : State) : (State.settle old u).stage = u.stage := by
  have words : ∀ n, (State.settle old u).getN F.CAL_STAGE_ENTRY n = u.getN F.CAL_STAGE_ENTRY n :=
    State.settle_getN old u (Field.outside_of_apart (by decide)).1
  simp only [State.stage, words]

theorem State.setStage_get (s : State) (c : CalImage) {g : Field} (h : F.CAL_STAGE_ENTRY.id ≠ g.id) :
    (s.setStage c).get g = s.get g := by
  simp only [State.get, State.setStage, State.getN_setN_of_id _ h]

theorem Frame.setStage (s : State) (c : CalImage) {ps : List Part} {fs : List Field} (h : F.CAL_STAGE_ENTRY ∈ fs) :
    Frame s (s.setStage c) ps fs :=
  (Frame.setN _ _ _ _ h).trans ((Frame.setN _ _ _ _ h).trans ((Frame.setN _ _ _ _ h).trans (Frame.setN _ _ _ _ h)))

theorem readEntry_stages (i : BitVec 10) {s : State} (up : s.mainUp = true) : Answers (.readEntry i) s fun t =>
    t.stage = s.entryImage i.toNat ∧ t.get F.CAL_CMD_RESULT = 0 ∧
    Frame s t [] [F.CAL_CMD_INDEX, F.CAL_CMD_RESULT, F.CAL_STAGE_ENTRY] := by
  have run : exec (.readEntry i) s = done s (((s.set F.CAL_CMD_INDEX i.toNat).set F.CAL_CMD_RESULT 0).setStage
      (s.entryImage i.toNat)) := if_neg (by simp [up])
  refine ⟨_, run, ?_, ?_, Frame.done s ((Frame.set s _ _ (by simp)).trans
    ((Frame.set _ _ _ (by simp)).trans (Frame.setStage _ _ (by simp))))⟩
  · rw [State.stage_settle, State.stage_setStage]
  · rw [State.settle_get_apart _ _ (by decide), State.setStage_get _ _ (by decide), State.get_set_self, Nat.zero_mod]

/-! ### A firing at the firmware (R61) -/

theorem firmwareInterrupt_takes {s : State} {f : Firing} (first : s.cal.firings.find? (fun f => f.target == 9) = some f) :
    Answers .firmwareInterrupt s fun t =>
      Output.fwInterrupt f.arg ∈ t.out ∧ t.cal.firings = s.cal.firings.filter (fun g => g != f) ∧
      t.cal.entries = s.cal.entries ∧ Frame s t [.cal] [] := by
  have take : s.takeFiring 9 = some (f, s.dropFiring f) := by rw [State.takeFiring, first]
  have run : exec .firmwareInterrupt s = done s ((s.dropFiring f).emit (.fwInterrupt f.arg)) := by
    change execFirmwareInterrupt s = _
    rw [execFirmwareInterrupt, take]
  refine ⟨_, run, State.settle_out_mono _ _ (List.mem_cons_self ..), ?_, ?_,
    Frame.done s ((Frame.withCal s _ (by simp) _).trans (Frame.emit _ _ _ _))⟩
  · rw [State.settle_cal]
    rfl
  · rw [State.settle_cal]
    rfl

/-- Settles O36: a commit fires the old content of its own entry alone and then stores the image; the one due entry is over once
evaluated, and its firing is pending or dropped. -/
theorem calendarEntriesAreKeptAndFire : Obligations.CalendarEntriesAreKeptAndFire :=
  ⟨fun w i _ up => commitEntry_commits w i up, fun i _ up => ⟨clearEntry_clears i up, readEntry_stages i up⟩,
    fun _ _ _ up run power awaits due _ => calendarEvaluation_fires up run power awaits due,
    fun _ _ first => firmwareInterrupt_takes first⟩

end Sys2Proof.Machine

/-! SUPPORT. The host link: the status that already follows the state stays at the settling, a masked vector's event pends, and what
a change of the link alone leaves. -/

namespace Sys2Proof.Machine

/-! ### A change of the link alone -/

theorem Frame.withLink (s : State) (l : Link) {ps : List Part} (h : .link ∈ ps) (fs : List Field) :
    Frame s { s with link := l } ps fs := by
  refine ⟨rfl, rfl, fun p hp => ?_, fun _ _ _ => rfl⟩
  cases p with
  | link => exact absurd h hp
  | _ => rfl

/-- The settling changes no part of the link but the pending bits (R80). -/
theorem State.settle_link (old u : State) (p : List Nat) :
    { (State.settle old u).link with pba := p } = { u.link with pba := p } :=
  congrArg (fun l : Link => { l with pba := p }) (State.settle_link_core old u)

theorem State.cxlUp_not_closed {s : State} (up : s.cxlUp = true) (open_ : s.linkClosed = false) :
    ¬ (!s.cxlUp || s.linkClosed) = true := by simp [up, open_]

theorem State.cxlUp_or_closed {s : State} (h : s.cxlUp = false ∨ s.linkClosed = true) :
    (!s.cxlUp || s.linkClosed) = true := by
  rcases h with h | h <;> simp [h]

/-! ### HDM decoders (R70, R71) -/

/-- A decoder after its commit: committed, or Error Not Committed. -/
def Hdm.committing (ok : Bool) (base size : Dword) (ways : BitVec 8) (g : BitVec 32) : Hdm :=
  ⟨ok, !ok, base.toNat, size.toNat, ways.toNat, g.toNat⟩

theorem Hdm.committing_eq (ok : Bool) (base size : Dword) (ways : BitVec 8) (g : BitVec 32) :
    (if ok = true then ⟨true, false, base.toNat, size.toNat, ways.toNat, g.toNat⟩
      else ⟨false, true, base.toNat, size.toNat, ways.toNat, g.toNat⟩) = Hdm.committing ok base size ways g := by
  cases ok <;> rfl

section Commit

variable {s : State} (up : s.cxlUp = true) (open_ : s.linkClosed = false) (base size : Dword) (ways : BitVec 8) (g : BitVec 32)
include up open_

theorem hdmDecoderCommit_first :
    let ok := hdmSupported size.toNat ways.toNat g.toNat && s.grnServes && decide (size.toNat = ways.toNat * s.grn.config.windowLen)
    Answers (.hdmDecoderCommit false base size ways g) s fun t =>
      t.link.hdm0 = Hdm.committing ok base size ways g ∧
      { t.link with hdm0 := s.link.hdm0, pba := s.link.pba } = s.link ∧ Frame s t [.link] [] := by
  intro ok
  have run : exec (.hdmDecoderCommit false base size ways g) s =
      done s { s with link := { s.link with hdm0 := Hdm.committing ok base size ways g } } := by
    rw [← Hdm.committing_eq]
    exact (if_neg (State.cxlUp_not_closed up open_)).trans (if_neg Bool.false_ne_true)
  have link := State.settle_link s { s with link := { s.link with hdm0 := Hdm.committing ok base size ways g } } s.link.pba
  exact ⟨_, run, (congrArg Link.hdm0 link :), congrArg (fun l : Link => { l with hdm0 := s.link.hdm0 }) link,
    Frame.done s (Frame.withLink s _ (by simp) _)⟩

theorem hdmDecoderCommit_second :
    let ok := hdmSupported size.toNat ways.toNat g.toNat && s.flag F.HL_CTL_VOL_EN && s.flag F.RDY_STATUS_DRAM
    Answers (.hdmDecoderCommit true base size ways g) s fun t =>
      t.link.hdm1 = Hdm.committing ok base size ways g ∧
      { t.link with hdm1 := s.link.hdm1, pba := s.link.pba } = s.link ∧ Frame s t [.link] [] := by
  intro ok
  have run : exec (.hdmDecoderCommit true base size ways g) s =
      done s { s with link := { s.link with hdm1 := Hdm.committing ok base size ways g } } := by
    rw [← Hdm.committing_eq]
    exact (if_neg (State.cxlUp_not_closed up open_)).trans (if_pos rfl)
  have link := State.settle_link s { s with link := { s.link with hdm1 := Hdm.committing ok base size ways g } } s.link.pba
  exact ⟨_, run, (congrArg Link.hdm1 link :), congrArg (fun l : Link => { l with hdm1 := s.link.hdm1 }) link,
    Frame.done s (Frame.withLink s _ (by simp) _)⟩

end Commit

/-- Settles O30: the commit writes one decoder, committed exactly where its conditions hold. -/
theorem decodersCommitOrFail : Obligations.DecodersCommitOrFail :=
  ⟨fun base size ways g _ up open_ =>
    ⟨hdmDecoderCommit_first up open_ base size ways g, hdmDecoderCommit_second up open_ base size ways g⟩,
    fun _ _ _ _ _ s off => ⟨_, if_pos (State.cxlUp_or_closed off), Frame.done s (Frame.refl s _ _)⟩⟩

/-! ### MSI-X vectors (R79, R80) -/

theorem State.signal_pending_again (s : State) {v : Nat} (hv : ¬ (5 ≤ v ∧ v ≤ 7 ∨ 256 ≤ v)) (up : s.groupUp .ln = true)
    (masked : (s.msixEntry v).masked = true) (pending : v ∈ s.link.pba) : s.signal v = s := by
  simp only [State.signal, hv, up, masked, pending, if_true, if_false, Bool.not_true, Bool.false_eq_true]

theorem State.signal_masked_twice (s : State) {v : Nat} (hv : ¬ (5 ≤ v ∧ v ≤ 7 ∨ 256 ≤ v)) (up : s.groupUp .ln = true)
    (masked : (s.msixEntry v).masked = true) : (s.signal v).signal v = s.signal v := by
  have held : v ∈ (s.signal v).link.pba := (State.signal_held_pending s v hv up masked).1
  rcases s.signal_cases v with e | e | ⟨e, -⟩
  · rw [e, e]
  · rw [e] at held
    rw [State.signal_pending_again s hv up masked held, State.signal_pending_again s hv up masked held]
  · rw [e] at held ⊢
    exact State.signal_pending_again _ hv up masked held

/-- The status as a list of live fields, each showing what the state gives it. -/
theorem State.statusFollows.shown {s : State} (h : s.statusFollows) :
    ∀ l ∈ readyLive ++ statusLive, s.getN l.field l.index = l.shown s := by
  simp only [readyLive, statusLive, List.cons_append, List.nil_append, List.forall_mem_cons]
  exact ⟨h.grnFull, h.grnLazy, h.ftRun, h.link, h.degraded, h.mgmt, h.admReady, h.answering, h.armPend, h.calFree, h.hdm0,
    h.hdm1, h.creditHeld, h.ingressClosed, h.throttle, h.grnThrottle, h.restorePct, h.dirtyMib, h.budgetMib, h.rebase,
    h.inFlight, h.unrestored, h.pendingFetches, h.testing, fun _ hl => absurd hl List.not_mem_nil⟩

/-- A status that follows its state already stays at the settling, which then signals nothing (R465, R489). -/
theorem State.settle_of_follows {old u : State} (regs : u.regs = old.regs) (follows : u.statusFollows) :
    State.settle old u = u := by
  have live : u.settleLive = u := by
    have shown := follows.shown
    rw [State.settleLive]
    generalize readyLive ++ statusLive = ls at shown
    induction ls with
    | nil => rfl
    | cons l ls ih =>
      have stays : l.follow u u = u := if_pos (shown l (by simp))
      rw [List.foldl_cons, stays]
      exact ih fun m hm => shown m (by simp [hm])
  have same : ∀ f n, old.getN f n = u.getN f n := fun f n => State.getN_congr regs.symm f n
  have word : ∀ fs, old.word fs = u.word fs := fun fs => by simp only [State.word, State.get, same]
  simp [State.settle, live, State.settleCal, State.settleReady, State.settleGrn, State.copyGrn, State.alertGrn,
    State.signalGrn, State.settleFirst, State.firstWords, State.rdyWord, State.grnWord, State.grnState, State.flag, State.get,
    word, same]

/-- An unmasked vector is pending no more, and its entry stays as it was but for the mask (R80). -/
def State.unmasked (s : State) (n : Nat) : State :=
  { s with link := { s.link with
      msix := s.link.msix.set n { s.msixEntry n with masked := false }, pba := s.link.pba.filter (· ≠ n) } }

theorem State.statusFollows.emit {s : State} (h : s.statusFollows) (o : Output) : (s.emit o).statusFollows := { h with }

/-- The status does not depend on the vectors' entries and pending bits. -/
theorem State.statusFollows.unmasked {s : State} (h : s.statusFollows) (n : Nat) : (s.unmasked n).statusFollows := { h with }

theorem exec_msixUnmask {s : State} (v : BitVec 8) (up : s.groupUp .ln = true) : exec (.msixUnmask v) s =
    done s (if v.toNat ∈ s.link.pba then (s.unmasked v.toNat).emit (.msix v.toNat) else s.unmasked v.toNat) := by
  have run : exec (.msixUnmask v) s = if v.toNat ∈ s.link.pba then done s ((s.unmasked v.toNat).emit (.msix v.toNat))
      else done s { s with link := { s.link with
        msix := s.link.msix.set v.toNat { s.msixEntry v.toNat with masked := false } } } := if_neg (by simp [up])
  rw [run]
  split
  · rfl
  next h =>
    have all : s.link.pba.filter (· ≠ v.toNat) = s.link.pba :=
      List.filter_eq_self.2 fun p hp => decide_eq_true fun e => h (e ▸ hp)
    rw [State.unmasked, all]

theorem msixUnmask_sends {s : State} (v : BitVec 8) (follows : s.statusFollows) (up : s.groupUp .ln = true) :
    Answers (.msixUnmask v) s fun t =>
      (t.msixEntry v.toNat).masked = false ∧ v.toNat ∉ t.link.pba ∧
      t.out = (if v.toNat ∈ s.link.pba then Output.msix v.toNat :: s.out else s.out) ∧ Frame s t [.link] [] := by
  refine ⟨_, exec_msixUnmask v up, ?_⟩
  have entry : ((s.unmasked v.toNat).msixEntry v.toNat).masked = false := by
    simp [State.msixEntry, State.unmasked, Store.getD]
  have spent : v.toNat ∉ (s.unmasked v.toNat).link.pba := by simp [State.unmasked]
  have frame : Frame s (s.unmasked v.toNat) [.link] [] := Frame.withLink s _ (by simp) _
  split
  · rw [State.settle_of_follows (old := s) (u := (s.unmasked v.toNat).emit _) rfl ((follows.unmasked _).emit _)]
    exact ⟨entry, spent, rfl, frame.trans (Frame.emit _ _ _ _)⟩
  · rw [State.settle_of_follows (old := s) (u := s.unmasked v.toNat) rfl (follows.unmasked _)]
    exact ⟨entry, spent, rfl, frame⟩

/-- Settles O28: a masked vector's second event finds its bit pending, and an unmask changes nothing that the status follows. -/
theorem maskedVectorsPend : Obligations.MaskedVectorsPend := by
  refine ⟨fun v s up used masked => ?_, fun v _ follows up => msixUnmask_sends v follows up⟩
  have hv : ¬ (5 ≤ v.toNat ∧ v.toNat ≤ 7 ∨ 256 ≤ v.toNat) := by have := v.isLt; omega
  obtain ⟨pends, silent⟩ := State.signal_held_pending s v.toNat hv up masked
  exact ⟨pends, silent, State.signal_masked_twice s hv up masked⟩

end Sys2Proof.Machine

/-! SUPPORT. Training and loss of the link: what a fault event leaves of the link and of what was sent, and how source 22 follows the
width and the speed. -/

namespace Sys2Proof.Machine

/-! ### What a fault event leaves of the link (R80, R83) -/

/-- The link but for what a fault event adds: pending bits and records of the event logs. -/
def Link.standing (l : Link) : Link := { l with pba := [], events := [], nextHandle := 0 }

/-- From `s` to `t` the link stands as it did, and all that was sent stays sent. -/
structure KeepsLink (s t : State) : Prop where
  link : t.link.standing = s.link.standing
  sent : ∀ o ∈ s.out, o ∈ t.out

namespace KeepsLink

variable {s t u : State}

theorem refl (s : State) : KeepsLink s s := ⟨rfl, fun _ h => h⟩

theorem trans (h : KeepsLink s t) (k : KeepsLink t u) : KeepsLink s u :=
  ⟨k.link.trans h.link, fun o ho => k.sent o (h.sent o ho)⟩

theorem of_same (link : t.link = s.link) (out : t.out = s.out) : KeepsLink s t :=
  ⟨by rw [link], fun o ho => by rwa [out]⟩

theorem signal (s : State) (v : Nat) : KeepsLink s (s.signal v) :=
  ⟨(congrArg (fun l : Link => { l with events := [], nextHandle := 0 }) (State.signal_link_core s v) :),
    fun _ h => State.signal_out_mono s v h⟩

theorem settle (old s : State) : KeepsLink s (State.settle old s) :=
  ⟨(congrArg (fun l : Link => { l with events := [], nextHandle := 0 }) (State.settle_link_core old s) :),
    fun _ h => State.settle_out_mono old s h⟩

theorem react (s : State) (n inst : Nat) (b : Bool) : KeepsLink s (s.react n inst b) := by
  have vector : ∀ (t : State) (c : Bool), KeepsLink t (t.reactVector c) := fun t c => by
    unfold State.reactVector
    split
    · exact signal t 1
    · exact refl t
  have trap : ∀ (t : State) (c : Bool), KeepsLink t (t.reactTrap c n inst) := fun t c => by
    refine ⟨by simp, fun o ho => ?_⟩
    unfold State.reactTrap State.trap
    split
    · split
      · exact ho
      · dsimp only
        split
        · exact ho
        · simp [ho]
    · exact ho
  have alert : ∀ (t : State) (c : Bool), KeepsLink t (t.reactAlert c) := fun t c => of_same (by simp) (by simp)
  have dump : ∀ (t : State) (c : Bool), KeepsLink t (t.reactDump c) := fun t c => of_same (by simp) (by simp)
  have reset : ∀ (t : State) (c : Bool), KeepsLink t (t.reactReset c n) := fun t c => of_same (by simp) (by simp)
  exact ((((vector s _).trans (alert _ _)).trans (trap _ _)).trans (dump _ _)).trans (reset _ _)

theorem logCxlEvent (s : State) (info : SourceInfo) (n inst : Nat) : KeepsLink s (s.logCxlEvent info n inst) := by
  have added : ∀ log, KeepsLink s (s.addCxlEvent log n inst) := fun _ => ⟨rfl, fun _ h => h⟩
  have signalled : ∀ (t : State) (log : Nat), KeepsLink t (t.signalEvent log) := fun t log => by
    unfold State.signalEvent
    split
    · exact signal t 4
    · exact refl t
  unfold State.logCxlEvent
  split
  · exact refl s
  · exact (added _).trans (signalled _ _)

theorem raiseCore (s : State) (n inst word : Nat) (b : Bool) : KeepsLink s (s.raiseCore n inst word b) := by
  unfold State.raiseCore
  split
  · exact refl s
  next info _ =>
    have captured : KeepsLink s (s.captureEvent info n inst word b) := of_same (by simp) (by simp)
    have latched : ∀ (t : State) (c : Bool), KeepsLink t (t.latchIf c n) := fun t c => of_same (by simp) (by simp)
    exact ((captured.trans (logCxlEvent _ _ _ _)).trans (latched _ _)).trans (react _ _ _ _)

theorem bumpN (s : State) (c : Counter) (n : Nat) : KeepsLink s (s.bumpN c n) := by
  have quiet : ∀ (t : State) (c : Counter) (n : Nat), KeepsLink t (t.bumpQuiet c n).2 := fun t c n =>
    of_same (by simp) (by simp)
  have saturated : ∀ t : State, KeepsLink t (t.raiseSaturated c n) := fun t => by
    unfold State.raiseSaturated
    split
    · exact refl t
    · exact (quiet _ _ _).trans (raiseCore _ _ _ _ _)
  unfold State.bumpN
  dsimp only
  split
  · exact (quiet s c n).trans (saturated _)
  · exact quiet s c n

theorem raise (s : State) (n inst word : Nat) : KeepsLink s (s.raise n inst word) := by
  unfold State.raise State.raiseWith
  split
  · exact refl s
  · refine KeepsLink.trans ?_ (raiseCore _ n inst word false)
    split
    · exact of_same (by simp) (by simp)
    · exact bumpN s _ n

end KeepsLink

/-! ### A live bit once its source is raised (R434, R441) -/

theorem State.live_setN (s : State) {f : Field} (h : f.id ≠ F.FLT_LIVE_LIVE.id) (k v n : Nat) :
    (s.setN f k v).live n = s.live n := by
  rw [State.live, State.getN_setN_of_id s h, State.live]

theorem State.live_set (s : State) {f : Field} (h : f.id ≠ F.FLT_LIVE_LIVE.id) (v n : Nat) :
    (s.set f v).live n = s.live n := State.live_setN s h 0 v n

theorem State.live_congr {s t : State} (h : t.regs = s.regs) (n : Nat) : t.live n = s.live n := by
  rw [State.live, State.getN_same h, State.live]

theorem State.live_takeRecord (s : State) (r : FaultRecord) (b : Bool) (n : Nat) :
    (s.takeRecord r b).live n = s.live n := by
  have room : s.makeRoom.live n = s.live n := by
    unfold State.makeRoom State.enterHistory
    split
    · rfl
    · split
      · rfl
      · rw [State.live_congr (State.setIntake_regs _ _)]
        simp (disch := decide) only [State.writeHistory, State.live_set, State.live_setN]
  have skipped : s.skipRecord.live n = s.live n := by
    change (s.bumpQuiet C.skipped 0).2.live n = s.live n
    rw [State.live, State.bumpQuiet_getN _ _ _ (by decide) (by decide), State.live]
  unfold State.takeRecord
  split
  · rw [State.live_congr (State.pushRecord_regs _ _), room]
  · exact skipped

theorem State.live_captureSevere (s : State) (b : Bool) (r : FaultRecord) (n : Nat) :
    (s.captureSevere b r).live n = s.live n := by
  unfold State.captureSevere State.captureFirst
  split
  · simp (disch := decide) only [State.live_set, State.live_setN]
  · rfl

theorem State.live_requestDump (s : State) (k n : Nat) : (s.requestDump k).2.live n = s.live n := by
  have paused : ∀ t : State, t.pauseMigrations.live n = t.live n := fun t => by
    refine State.foldl_keeps (fun t => t.live n) _ _ (fun t ch => ?_) t
    split
    · exact State.live_setN t (by decide) _ _ n
    · rfl
  have opened : (s.closeIngress.abandonSegments.openDump false false).live n = s.live n := State.live_congr (by simp) n
  unfold State.requestDump State.beginDump
  split
  · simp (disch := decide) only [if_false, State.live_set, paused, opened, OfNat.ofNat_ne_zero]
  · exact State.live_set s (by decide) _ n

theorem State.live_react (s : State) (k inst : Nat) (b : Bool) (n : Nat) : (s.react k inst b).live n = s.live n := by
  have alert : ∀ (t : State) (c : Bool), (t.reactAlert c).live n = t.live n := fun t c => by
    unfold State.reactAlert
    split
    · exact State.live_set t (by decide) _ n
    · rfl
  have dump : ∀ (t : State) (c : Bool), (t.reactDump c).live n = t.live n := fun t c => by
    unfold State.reactDump
    split
    · exact State.live_requestDump t 3 n
    · rfl
  rw [State.react, State.live_congr (State.reactReset_regs _ _ _), dump,
    State.live_congr (State.reactTrap_regs _ _ _ _), alert, State.live_congr (State.reactVector_regs _ _)]

/-- An event of a kind C source that does not latch leaves the source live while the HOLD domain runs. -/
theorem State.live_raise (s : State) (hold : s.pwr.hold = true) {n : Nat} {info : SourceInfo}
    (listed : sourceInfo n = some info) (kind : info.live = true) (transient : sourcePersists n = false) (inst word : Nat) :
    (s.raise n inst word).live n = true := by
  have latches : ∀ (t : State), t.latchIf (info.cls == .fatalPersist && !false) n = t := fun t => by
    rw [sourcePersists, listed, Option.any_some] at transient
    rw [transient]
    rfl
  rw [State.raise, State.raiseWith, hold, listed, if_neg (by simp)]
  simp only [State.raiseCore, listed, latches, State.live_react]
  rw [State.live_congr (State.logCxlEvent_regs _ _ _ _), State.captureEvent, State.live_takeRecord,
    State.live_captureSevere, State.live_congr (State.countEvent_regs _), State.markSource, if_pos kind]
  exact State.bit_setBit64_self _ rfl n true

/-! ### Source 22 follows the width and the speed (R81, R437) -/

/-- The condition of source 22 ends with the link at full width and speed, and begins below. -/
def State.judgeLink (s : State) (full : Bool) : State := if full then s.clearLive 22 else s.raiseLive 22 0 0

theorem State.judgeLink_full (s : State) : s.judgeLink true = s.clearLive 22 := if_pos rfl
theorem State.judgeLink_below (s : State) : s.judgeLink false = s.raiseLive 22 0 0 := if_neg Bool.false_ne_true

theorem State.live_judgeLink (s : State) (hold : s.pwr.hold = true) (full : Bool) : (s.judgeLink full).live 22 = !full := by
  cases full with
  | true => rw [State.judgeLink_full, State.live_clearLive, Bool.not_true]
  | false =>
    rw [State.judgeLink_below, State.raiseLive]
    split
    · assumption
    · exact State.live_raise s hold rfl rfl rfl 0 0

theorem State.judgeLink_get_apart (s : State) (full : Bool) {g : Field} (h : g.apart = true) :
    (s.judgeLink full).get g = s.get g := by
  cases full with
  | true => rw [State.judgeLink_full, State.clearLive_get_apart s 22 h]
  | false =>
    rw [State.judgeLink_below]
    exact State.raiseLive_getN s 22 0 0 (Field.outside_of_apart h).2 0

theorem KeepsLink.judgeLink (s : State) (full : Bool) : KeepsLink s (s.judgeLink full) := by
  cases full with
  | true =>
    rw [State.judgeLink_full]
    exact of_same (State.clearLive_link s 22) (State.clearLive_out s 22)
  | false =>
    rw [State.judgeLink_below, State.raiseLive]
    split
    · exact refl s
    · exact raise s 22 0 0

theorem Frame.judgeLink (s : State) (full : Bool) {ps : List Part} {fs : List Field} (hp : ∀ p ∈ raiseParts, p ∈ ps)
    (hf : ∀ f ∈ raiseFields, f ∈ fs) : Frame s (s.judgeLink full) ps fs := by
  cases full with
  | true =>
    rw [State.judgeLink_full]
    exact Frame.clearLive s 22 (hf _ (by simp [raiseFields]))
  | false =>
    rw [State.judgeLink_below, State.raiseLive]
    split
    · exact Frame.refl s ps fs
    · exact Frame.raise s 22 0 0 hp hf

/-! ### What the link shows (R65) -/

/-- HL_STATUS shows the link up or down, with its width, its speed and its mode. -/
def State.showsLink (t : State) (up width speed mode : Nat) : Prop :=
  t.get F.HL_STATUS_LINK_UP = up ∧ t.get F.HL_STATUS_WIDTH = width ∧ t.get F.HL_STATUS_SPEED = speed ∧
  t.get F.HL_STATUS_MODE = mode

/-- The fields that training and loss of the link write. -/
def linkFields : List Field := [F.HL_STATUS_LINK_UP, F.HL_STATUS_WIDTH, F.HL_STATUS_SPEED, F.HL_STATUS_MODE]

theorem State.showsLink.of_same {s t : State} {u w v m : Nat} (h : s.showsLink u w v m)
    (same : ∀ g : Field, g.apart = true → t.get g = s.get g) : t.showsLink u w v m := by
  unfold State.showsLink
  rwa [same F.HL_STATUS_LINK_UP (by decide), same F.HL_STATUS_WIDTH (by decide), same F.HL_STATUS_SPEED (by decide),
    same F.HL_STATUS_MODE (by decide)]

theorem State.showsLink.settle {s : State} {u w v m : Nat} (h : s.showsLink u w v m) (old : State) :
    (State.settle old s).showsLink u w v m := h.of_same fun _ hg => State.settle_get_apart old s hg

theorem State.showsLink_linkDown (s : State) : s.linkDown.dropDecoders.showsLink 0 0 0 0 := by
  change s.linkDown.showsLink 0 0 0 0
  simp (disch := decide) [State.showsLink, State.linkDown, State.setAll, State.get_set_of_id]

theorem Frame.setLink (s : State) {l : List (Field × Nat)} (h : ∀ p ∈ l, p.1 ∈ linkFields) (ps : List Part) {fs : List Field}
    (hf : ∀ f ∈ linkFields, f ∈ fs) : Frame s (s.setAll l) ps fs := Frame.setAll l (fun p hp => hf p.1 (h p hp)) s

theorem Frame.linkDown (s : State) (ps : List Part) {fs : List Field} (hf : ∀ f ∈ linkFields, f ∈ fs) :
    Frame s s.linkDown ps fs := Frame.setLink s (by simp [linkFields]) ps hf

/-! ### Training (R65, R67, R70) -/

/-- The link's registers once it has trained. -/
def State.linkAt (s : State) (w v : Nat) (cxl : Bool) : State :=
  s.setAll [(F.HL_STATUS_LINK_UP, 1), (F.HL_STATUS_WIDTH, w), (F.HL_STATUS_SPEED, v), (F.HL_STATUS_MODE, if cxl then 2 else 1)]

/-- The decoders that a training leaves committed: none outside CXL mode, and decoder 1 with VOL_EN only. -/
def Link.trained (l : Link) (cxl vol : Bool) : Link :=
  { l with hdm0 := { l.hdm0 with committed := l.hdm0.committed && cxl },
           hdm1 := { l.hdm1 with committed := l.hdm1.committed && (cxl && vol) } }

/-- The link trained to a width, a speed and a mode. -/
def State.trained (s : State) (w v : Nat) (cxl : Bool) : State :=
  { s.linkAt w v cxl with link := s.link.trained cxl (s.flag F.HL_CTL_VOL_EN) }

theorem State.trained_eq (s : State) (w v : Nat) (cxl : Bool) : s.trained w v cxl =
    if !cxl then (s.linkAt w v cxl).dropDecoders
    else if (s.linkAt w v cxl).flag F.HL_CTL_VOL_EN then s.linkAt w v cxl else (s.linkAt w v cxl).dropVolatile := by
  have link : (s.linkAt w v cxl).link = s.link := State.setAll_link s _
  have vol : (s.linkAt w v cxl).flag F.HL_CTL_VOL_EN = s.flag F.HL_CTL_VOL_EN := by
    simp (disch := decide) only [State.flag, State.linkAt, State.setAll, List.foldl_cons, List.foldl_nil, State.get_set_of_id]
  rw [vol, State.trained, ← link]
  cases cxl <;> cases s.flag F.HL_CTL_VOL_EN <;>
    simp [Link.trained, State.dropDecoders, State.dropVolatile]

theorem State.showsLink_trained (s : State) {w v : Nat} (hw : w ≤ 5) (hv : v ≤ 5) (cxl : Bool) :
    (s.trained w v cxl).showsLink 1 w v (if cxl then 2 else 1) := by
  have same : ∀ g : Field, (s.trained w v cxl).get g = (s.linkAt w v cxl).get g := fun _ => rfl
  have width : w % 2 ^ F.HL_STATUS_WIDTH.width = w := Nat.mod_eq_of_lt (Nat.lt_of_le_of_lt hw (by decide))
  have speed : v % 2 ^ F.HL_STATUS_SPEED.width = v := Nat.mod_eq_of_lt (Nat.lt_of_le_of_lt hv (by decide))
  have mode : (if cxl then 2 else 1) % 2 ^ F.HL_STATUS_MODE.width = if cxl then 2 else 1 := by cases cxl <;> rfl
  simp only [State.showsLink, same, State.linkAt, State.setAll, List.foldl_cons, List.foldl_nil]
  simp (disch := decide) only [State.get_set_of_id, State.get_set_self, width, speed, mode]
  exact ⟨rfl, trivial, trivial, trivial⟩

theorem Frame.trained (s : State) (w v : Nat) (cxl : Bool) {ps : List Part} (hp : .link ∈ ps) {fs : List Field}
    (hf : ∀ f ∈ linkFields, f ∈ fs) : Frame s (s.trained w v cxl) ps fs :=
  (Frame.setLink s (by simp [linkFields]) ps hf).trans (Frame.withLink (s.linkAt w v cxl) _ hp fs)

theorem linkCap_range (c : Nat) : 1 ≤ linkCap c ∧ linkCap c ≤ 5 := by
  unfold linkCap
  split <;> omega

/-- What the link trains to where lanes and speeds work: at most the cap, and at most 5 (R65). -/
def trainTo (found : BitVec 3) (cap : Nat) : Nat := min (min 5 found.toNat) (linkCap cap)

theorem trainTo_le (found : BitVec 3) (cap : Nat) : trainTo found cap ≤ 5 := by
  unfold trainTo
  omega

theorem trainTo_eq_zero_iff (found : BitVec 3) (cap : Nat) : trainTo found cap = 0 ↔ found = 0 := by
  have := linkCap_range cap
  have zero : found = 0 ↔ found.toNat = 0 := BitVec.toNat_inj.symm
  rw [zero]
  unfold trainTo
  omega

section Training

variable {s : State} (width speed : BitVec 3) (alternate : Bool)

theorem linkTraining_off (off : s.groupUp .ln = false ∨ s.pwr.perst = true) :
    Answers (.linkTraining width speed alternate) s fun t => Frame s t [] [] := by
  refine ⟨_, if_pos ?_, Frame.done s (Frame.refl s _ _)⟩
  rcases off with h | h <;> simp [h]

variable (up : s.groupUp .ln = true) (perst : s.pwr.perst = false)
include up perst

theorem linkTraining_down (none_ : width = 0 ∨ speed = 0) : Answers (.linkTraining width speed alternate) s fun t =>
    t.showsLink 0 0 0 0 ∧ Frame s t [.link] linkFields := by
  have zero : trainTo width (s.get F.HL_CTL_MAX_WIDTH) = 0 ∨ trainTo speed (s.get F.HL_CTL_MAX_SPEED) = 0 := by
    rwa [trainTo_eq_zero_iff, trainTo_eq_zero_iff]
  have run : exec (.linkTraining width speed alternate) s = done s s.linkDown.dropDecoders :=
    (if_neg (by simp [up, perst])).trans (if_pos zero)
  exact ⟨_, run, (State.showsLink_linkDown s).settle s, Frame.done s ((Frame.linkDown s _ fun _ h => h).trans
    (Frame.withLink s.linkDown _ (by simp) _))⟩

theorem exec_linkTraining {w v : Nat} {cxl : Bool} (hw : w = trainTo width (s.get F.HL_CTL_MAX_WIDTH))
    (hv : v = trainTo speed (s.get F.HL_CTL_MAX_SPEED)) (hc : cxl = (alternate && v == 5 && s.flag F.HL_CTL_CXL_EN))
    (works : ¬ (w = 0 ∨ v = 0)) : exec (.linkTraining width speed alternate) s =
      done s ((s.trained w v cxl).judgeLink (w == 5 && v == 5)) := by
  have judge : (s.trained w v cxl).judgeLink (w == 5 && v == 5) =
      if w = 5 ∧ v = 5 then (s.trained w v cxl).clearLive 22 else (s.trained w v cxl).raiseLive 22 0 0 :=
    if_congr (by simp) rfl rfl
  rw [judge, State.trained_eq]
  subst hw hv hc
  exact (if_neg (by simp [up, perst])).trans (if_neg works)

theorem linkTraining_trains {w v : Nat} {cxl : Bool} (hw : w = trainTo width (s.get F.HL_CTL_MAX_WIDTH))
    (hv : v = trainTo speed (s.get F.HL_CTL_MAX_SPEED)) (hc : cxl = (alternate && v == 5 && s.flag F.HL_CTL_CXL_EN))
    (lanes : width ≠ 0) (runs : speed ≠ 0) : Answers (.linkTraining width speed alternate) s fun t =>
      t.showsLink 1 w v (if cxl then 2 else 1) ∧
      t.link.standing = (s.link.trained cxl (s.flag F.HL_CTL_VOL_EN)).standing ∧
      t.live 22 = !(w == 5 && v == 5) ∧ Frame s t raiseParts (linkFields ++ raiseFields) := by
  have works : ¬ (w = 0 ∨ v = 0) := by
    rw [hw, hv, trainTo_eq_zero_iff, trainTo_eq_zero_iff]
    exact not_or.2 ⟨lanes, runs⟩
  have hold : (s.trained w v cxl).pwr.hold = true := by
    rw [State.trained, State.linkAt, State.setAll_pwr]
    simp only [State.groupUp, Bool.and_eq_true] at up
    exact up.1.1
  have shows : (s.trained w v cxl).showsLink 1 w v (if cxl then 2 else 1) :=
    State.showsLink_trained s (hw ▸ trainTo_le _ _) (hv ▸ trainTo_le _ _) cxl
  have frame : Frame s (s.trained w v cxl) raiseParts (linkFields ++ raiseFields) :=
    Frame.trained s w v cxl (by decide) fun _ h => List.mem_append_left _ h
  refine ⟨_, exec_linkTraining width speed alternate up perst hw hv hc works, ?_, ?_, ?_, ?_⟩
  · exact (shows.of_same fun _ hg => State.judgeLink_get_apart _ _ hg).settle s
  · exact ((KeepsLink.judgeLink _ _).trans (KeepsLink.settle s _)).link
  · rw [State.live_settle, State.live_judgeLink _ hold]
  · exact Frame.done s (frame.trans (Frame.judgeLink _ _ (fun _ h => h) fun _ h => List.mem_append_right _ h))

end Training

/-! ### A surprise link down (R81) -/

/-- The link has gone down unasked: reported, and raised as source 21. -/
def State.linkLost (s : State) : State := (s.linkDown.emit .aerLinkDown).raise 21 0 0

/-- The CXL.mem traffic that waited is dropped. -/
def State.dropTraffic (s : State) : State :=
  { s with link := { s.link with waiting := [], reads := [] },
           grn := { s.grn with waiters := s.grn.waiters.filter (fun w => w != .cxl) } }

theorem exec_surpriseLinkDown {s : State} (up : s.linkUp = true) (perst : s.pwr.perst = false) :
    exec .surpriseLinkDown s = done s s.linkLost.dropTraffic := by
  have held : s.pwr.held = false := by
    simp only [State.linkUp, State.groupUp, Bool.and_eq_true, Bool.not_eq_true'] at up
    exact up.1.2
  exact if_neg (by simp [up, perst, held])

theorem surpriseLinkDown_drops {s : State} (up : s.linkUp = true) (perst : s.pwr.perst = false) :
    Answers .surpriseLinkDown s fun t => t.showsLink 0 0 0 0 ∧ t.sticky 21 = true ∧ Output.aerLinkDown ∈ t.out ∧
      t.link.waiting = [] ∧ t.link.reads = [] ∧ Frame s t raiseParts (linkFields ++ raiseFields) := by
  have hold : (s.linkDown.emit .aerLinkDown).pwr.hold = true := by
    rw [State.emit_pwr, State.linkDown, State.setAll_pwr]
    simp only [State.linkUp, State.groupUp, Bool.and_eq_true] at up
    exact up.1.1.1
  have shows : s.linkLost.dropTraffic.showsLink 0 0 0 0 :=
    (State.showsLink_linkDown s).of_same (t := s.linkLost.dropTraffic) fun g hg =>
      State.raise_get_apart (s.linkDown.emit .aerLinkDown) 21 0 0 hg
  have sent : Output.aerLinkDown ∈ s.linkLost.dropTraffic.out :=
    (KeepsLink.raise (s.linkDown.emit .aerLinkDown) 21 0 0).sent _ (List.mem_cons_self ..)
  have link := State.settle_link s s.linkLost.dropTraffic []
  have down : Frame s s.linkLost raiseParts (linkFields ++ raiseFields) :=
    ((Frame.linkDown s _ fun _ h => List.mem_append_left _ h).trans (Frame.emit _ _ _ _)).trans
      (Frame.raise _ _ _ _ (fun _ h => h) fun _ h => List.mem_append_right _ h)
  have dropped : Frame s.linkLost s.linkLost.dropTraffic raiseParts (linkFields ++ raiseFields) := by
    refine ⟨rfl, rfl, fun p hp => ?_, fun _ _ _ => rfl⟩
    cases p with
    | link => exact absurd (by decide) hp
    | grn => exact absurd (by decide) hp
    | _ => rfl
  refine ⟨_, exec_surpriseLinkDown up perst, shows.settle s, ?_, State.settle_out_mono s _ sent,
    (congrArg Link.waiting link :), (congrArg Link.reads link :), Frame.done s (down.trans dropped)⟩
  rw [State.sticky_settle]
  exact State.sticky_raise (s.linkDown.emit .aerLinkDown) hold rfl 0 0

/-- Settles O27: a training writes HL_STATUS and the decoders and judges source 22; a surprise link down clears the one, raises
source 21 and drops what waited. -/
theorem theLinkTrainsAndDrops : Obligations.TheLinkTrainsAndDrops := by
  refine ⟨fun width speed alternate s up perst lanes runs => ?_, fun width speed alternate s up perst none_ => ?_,
    fun width speed alternate s off => linkTraining_off width speed alternate off, fun s up perst => ?_⟩
  · intro w v cxl
    refine (linkTraining_trains width speed alternate up perst (w := w) (v := v) (cxl := cxl) rfl rfl rfl lanes runs).mono ?_
    rintro t ⟨⟨linkUp, atWidth, atSpeed, mode⟩, link, live, frame⟩
    have hdm0 := congrArg Link.hdm0 link
    have hdm1 := congrArg Link.hdm1 link
    refine ⟨linkUp, atWidth, atSpeed, mode, fun off => ?_, fun on => ?_, live, frame⟩
    · rw [off] at hdm0 hdm1
      exact ⟨(congrArg Hdm.committed hdm0).trans (Bool.and_false _), (congrArg Hdm.committed hdm1).trans (Bool.and_false _)⟩
    · rw [on] at hdm0 hdm1
      exact ⟨by simpa [Link.standing, Link.trained] using hdm0, by simpa [Link.standing, Link.trained] using hdm1⟩
  · refine (linkTraining_down width speed alternate up perst none_).mono ?_
    rintro t ⟨⟨linkUp, atWidth, atSpeed, mode⟩, frame⟩
    exact ⟨linkUp, atWidth, atSpeed, mode, frame⟩
  · refine (surpriseLinkDown_drops up perst).mono ?_
    rintro t ⟨⟨linkUp, atWidth, atSpeed, mode⟩, dropped⟩
    exact ⟨linkUp, atWidth, atSpeed, mode, dropped⟩

end Sys2Proof.Machine

/-! SUPPORT. The CXL memory-device mailbox: what a command of it answers while the firmware runs, and what the reporting commands
report. -/

namespace Sys2Proof.Machine

/-! ### Commands of the CXL mailbox (R83) -/

/-- Command `c` completes an opcode with a code and a payload, and of the link it changes only the doorbell. -/
def Replies (s : State) (c : Instr) (op code : Nat) (p : List Byte) : Prop :=
  Answers c s fun t => Output.cxlReply op code p ∈ t.out ∧
    { t.link with pba := s.link.pba } = { s.link with doorbell := false } ∧ Frame s t [.link] []

/-- What a reporting command completes its opcode from: the doorbell answered, and `k` free values drawn. -/
def State.reporting (s : State) (k : Nat) : State :=
  { s with link := { s.link with doorbell := false }, freeCtr := s.freeCtr + k }

theorem Frame.reporting (s : State) (k : Nat) : Frame s (s.reporting k) [.link] [] := by
  refine ⟨rfl, rfl, fun p hp => ?_, fun _ _ _ => rfl⟩
  cases p with
  | link => exact absurd (by decide) hp
  | _ => rfl

section Answered

variable {s : State} (answers : s.cxlAnswers = true) (open_ : s.linkClosed = false)
include open_

theorem State.cxlReply_open (op code : Nat) (p : List Byte) :
    s.cxlReply op code p = (s.emit (.cxlReply op code p)).signal 4 := by
  rw [State.cxlReply, State.toLink, if_neg (by simp [open_])]

theorem Replies.of_run {c : Instr} {op code k : Nat} {p : List Byte}
    (run : exec c s = done s ((s.reporting k).cxlReply op code p)) : Replies s c op code p := by
  have reply : (s.reporting k).cxlReply op code p = ((s.reporting k).emit (.cxlReply op code p)).signal 4 :=
    State.cxlReply_open (s := s.reporting k) open_ op code p
  rw [reply] at run
  refine ⟨_, run, State.settle_out_mono _ _ (State.signal_out_mono _ _ (List.mem_cons_self ..)), ?_,
    Frame.done s (((Frame.reporting s k).trans (Frame.emit _ _ _ _)).trans (Frame.signal _ _ _ _))⟩
  rw [State.settle_link]
  exact congrArg (fun l : Link => { l with pba := s.link.pba }) (State.signal_link_core ((s.reporting k).emit _) 4)

include answers

theorem cxlDo_answers (f : State → State) : cxlDo s f = done s (f (s.reporting 0)) := by
  have up : s.cxlUp = true := by
    simp only [State.cxlAnswers, Bool.and_eq_true] at answers
    exact answers.1.1
  exact (if_neg (State.cxlUp_not_closed up open_)).trans (if_pos answers)

/-- A command of the mailbox that draws `k` free values and replies. -/
theorem Replies.of_do {c : Instr} {op code : Nat} {p : List Byte} {f : State → State} (k : Nat)
    {e : Host.Outcome State Fault Refusal} (arm : exec c s = e) (body : e = cxlDo s f)
    (reply : f (s.reporting 0) = (s.reporting k).cxlReply op code p) : Replies s c op code p :=
  Replies.of_run open_ (arm.trans (body.trans ((cxlDo_answers answers open_ f).trans (congrArg (done s) reply))))

end Answered

/-! ### What a report shows -/

theorem leBytes_mod (n : Nat) : ∀ v, leBytes n (v % 2 ^ (8 * n)) = leBytes n v := by
  induction n with
  | zero => exact fun _ => rfl
  | succ n ih =>
    intro v
    have head : v % 2 ^ (8 * (n + 1)) % 2 ^ 8 = v % 2 ^ 8 := Nat.mod_mod_of_dvd v (pow_dvd_pow 2 (by omega))
    have tail : v % 2 ^ (8 * (n + 1)) / 256 = v / 256 % 2 ^ (8 * n) := by
      rw [show 2 ^ (8 * (n + 1)) = 256 * 2 ^ (8 * n) by rw [Nat.mul_succ, Nat.pow_add, Nat.mul_comm],
        Nat.mod_mul_right_div_self]
    rw [leBytes, leBytes, tail, ih]
    exact congrArg (· :: _) (BitVec.eq_of_toNat_eq (by simpa using head))

/-- One entry of the Command Effects Log: an opcode and its effects, a free value (R83). -/
def effectEntry (acc : List Byte × State) (op : Nat) : List Byte × State :=
  (acc.1 ++ leBytes 2 op ++ leBytes 2 acc.2.fresh.1, acc.2.fresh.2)

/-- Each opcode of a list takes 4 bytes and one free value. -/
theorem effectEntries_length (ops : List Nat) (bytes : List Byte) (s : State) :
    (ops.foldl effectEntry (bytes, s)).1.length = bytes.length + 4 * ops.length ∧
    (ops.foldl effectEntry (bytes, s)).2 = { s with freeCtr := s.freeCtr + ops.length } := by
  induction ops generalizing bytes s with
  | nil => exact ⟨rfl, rfl⟩
  | cons op ops ih =>
    obtain ⟨length, state⟩ := ih (bytes ++ leBytes 2 op ++ leBytes 2 s.fresh.1) s.fresh.2
    refine ⟨length.trans ?_, state.trans ?_⟩
    · simp only [List.length_append, leBytes_length, List.length_cons]
      omega
    · simp only [State.fresh, List.length_cons, Nat.add_assoc, Nat.add_comm 1]

theorem State.effectsLog_reporting (s : State) :
    (s.reporting 0).effectsLog.1.length = 96 ∧ (s.reporting 0).effectsLog.2 = s.reporting 24 :=
  effectEntries_length cxlOpcodes [] (s.reporting 0)

section Reports

variable {s : State} (answers : s.cxlAnswers = true) (open_ : s.linkClosed = false)
include answers open_

theorem getEventRecords_reports (log : BitVec 8) (known : log.toNat ≤ 3) :
    Replies s (.getEventRecords log) 0x0100 Cxl.success
      (zeros 20 ++ leBytes 2 (s.link.events.filter (fun e => e.log == log.toNat)).length ++ zeros 10 ++
        (s.link.events.filter (fun e => e.log == log.toNat)).flatMap CxlEvent.bytes) :=
  Replies.of_do answers open_ 0 (e := execGetEventRecords log s) rfl rfl (if_neg (Nat.not_lt.2 known))

theorem getEventRecords_unknown (log : BitVec 8) (unknown : 3 < log.toNat) :
    Replies s (.getEventRecords log) 0x0100 Cxl.invalidInput [] :=
  Replies.of_do answers open_ 0 (e := execGetEventRecords log s) rfl rfl (if_pos unknown)

theorem getTimestamp_reports : Replies s .getTimestamp 0x0300 Cxl.success
    (leBytes 8 (s.link.stampSet + (s.now - s.link.stampAt))) := by
  rw [← leBytes_mod]
  exact Replies.of_do answers open_ 0 (e := execGetTimestamp s) rfl rfl rfl

theorem getLog_reports (id : BitVec 128) (o n : Word) (known : id.toNat = celUuid) (fits : o.toNat + n.toNat ≤ 96) :
    ∃ p : List Byte, p.length = n.toNat ∧ Replies s (.getLog id o n) 0x0401 Cxl.success p := by
  obtain ⟨length, state⟩ := s.effectsLog_reporting
  refine ⟨sliceBytes (s.reporting 0).effectsLog.1 o.toNat n.toNat, ?_,
    Replies.of_do answers open_ 24 (e := execGetLog id o n s) rfl rfl ?_⟩
  · rw [sliceBytes, List.length_take, List.length_drop, length]
    omega
  · have inside : ¬ (id.toNat ≠ celUuid ∨ 4 * cxlOpcodes.length < o.toNat + n.toNat) :=
      not_or.2 ⟨not_not.2 known, Nat.not_lt.2 fits⟩
    rw [← state]
    exact if_neg inside

theorem getLog_outside (id : BitVec 128) (o n : Word) (outside : id.toNat ≠ celUuid ∨ 96 < o.toNat + n.toNat) :
    Replies s (.getLog id o n) 0x0401 Cxl.invalidInput [] :=
  Replies.of_do answers open_ 0 (e := execGetLog id o n s) rfl rfl (if_pos outside)

theorem identifyMemoryDevice_reports : ∃ a b : Nat, Replies s .identifyMemoryDevice 0x4000 Cxl.success
    (ascii releaseName 16 ++ leBytes 8 (s.grn.config.windowLen / 2 ^ 28 + s.volatileCapacity / 2 ^ 28) ++
     leBytes 8 (s.volatileCapacity / 2 ^ 28) ++ leBytes 8 (s.grn.config.windowLen / 2 ^ 28) ++ leBytes 8 0 ++
     leBytes 8 a ++ leBytes 4 131072 ++ leBytes 5 b ++ zeros 2) := by
  refine ⟨Config.freeNat s.freeCtr, Config.freeNat (s.freeCtr + 1),
    Replies.of_do answers open_ 2 (e := execIdentifyMemoryDevice s) rfl rfl ?_⟩
  simp only [List.append_assoc]
  rfl

theorem getHealthInfo_reports : ∃ life temp : Nat, Replies s .getHealthInfo 0x4200 Cxl.success
    (zeros 1 ++ leBytes 1 (natOfBool (!s.grnServes)) ++ leBytes 1 (s.additionalStatus life temp) ++ leBytes 1 life ++ leBytes 2 temp ++
     leBytes 4 s.grn.dirtyShutdowns ++ leBytes 4 (s.correctedReads 4 8) ++ leBytes 4 (s.correctedReads 0 4)) :=
  ⟨Config.freeNat s.freeCtr, Config.freeNat (s.freeCtr + 1),
    Replies.of_do answers open_ 2 (e := execGetHealthInfo s) rfl rfl rfl⟩

theorem getAlertConfiguration_reports : ∃ life hot cold : Nat, let c := s.link.alertConfig
    Replies s .getAlertConfiguration 0x4201 Cxl.success
      (leBytes 1 (bitsOf c 10 8) ++ leBytes 1 7 ++ leBytes 1 life ++ leBytes 1 (bitsOf c 23 16) ++ leBytes 2 hot ++
       leBytes 2 cold ++ leBytes 2 (bitsOf c 47 32) ++ leBytes 2 (bitsOf c 63 48) ++ zeros 4) :=
  ⟨Config.freeNat s.freeCtr, Config.freeNat (s.freeCtr + 1), Config.freeNat (s.freeCtr + 2),
    Replies.of_do answers open_ 3 (e := execGetAlertConfiguration s) rfl rfl rfl⟩

theorem getLsa_reports (o n : Word) (fits : o.toNat + n.toNat ≤ 131072) : Replies s (.getLsa o n) 0x4102 Cxl.success
    ((List.range n.toNat).map (fun i => s.link.lsa.getD (o.toNat + i) 0)) :=
  Replies.of_do answers open_ 0 (e := execGetLsa o n s) rfl rfl (if_neg (Nat.not_lt.2 fits))

theorem getLsa_outside (o n : Word) (outside : 131072 < o.toNat + n.toNat) :
    Replies s (.getLsa o n) 0x4102 Cxl.invalidInput [] :=
  Replies.of_do answers open_ 0 (e := execGetLsa o n s) rfl rfl (if_pos outside)

theorem getPoisonList_reports (a n : Dword) {o : Nat} (inside : s.windowOffset a.toNat = some o) :
    let ls := s.poisonedLines o (o + 64 * n.toNat)
    Replies s (.getPoisonList a n) 0x4300 Cxl.success
      (zeros 10 ++ leBytes 2 ls.length ++ zeros 20 ++ ls.flatMap s.mediaRecord) := by
  intro ls
  have offset : (s.reporting 0).windowOffset a.toNat = some o := inside
  refine Replies.of_do answers open_ 0 (e := execGetPoisonList a n s) rfl rfl ?_
  dsimp only
  rw [offset]
  rfl

theorem getPoisonList_outside (a n : Dword) (outside : s.windowOffset a.toNat = none) :
    Replies s (.getPoisonList a n) 0x4300 Cxl.invalidAddress [] := by
  have offset : (s.reporting 0).windowOffset a.toNat = none := outside
  refine Replies.of_do answers open_ 0 (e := execGetPoisonList a n s) rfl rfl ?_
  dsimp only
  rw [offset]

theorem scanMediaCapabilities_reports (a n : Dword) {o : Nat} (inside : s.windowOffset a.toNat = some o) :
    ∃ v : Nat, Replies s (.scanMediaCapabilities a n) 0x4303 Cxl.success (leBytes 4 v) := by
  have offset : (s.reporting 0).windowOffset a.toNat = some o := inside
  refine ⟨Config.freeNat s.freeCtr,
    Replies.of_do answers open_ 1 (e := execScanMediaCapabilities a n s) rfl rfl ?_⟩
  dsimp only
  rw [offset]
  rfl

theorem scanMediaCapabilities_outside (a n : Dword) (outside : s.windowOffset a.toNat = none) :
    Replies s (.scanMediaCapabilities a n) 0x4303 Cxl.invalidAddress [] := by
  have offset : (s.reporting 0).windowOffset a.toNat = none := outside
  refine Replies.of_do answers open_ 0 (e := execScanMediaCapabilities a n s) rfl rfl ?_
  dsimp only
  rw [offset]

theorem scanMediaResults_reports {m : MediaScan} (kept : s.link.scan = some m) : Replies s .scanMediaResults 0x4305 Cxl.success
    (zeros 18 ++ leBytes 2 m.found.length ++ zeros 12 ++ m.found.flatMap s.mediaRecord) := by
  have scan : (s.reporting 0).link.scan = some m := kept
  refine Replies.of_do answers open_ 0 (e := execScanMediaResults s) rfl rfl ?_
  rw [scan]
  rfl

theorem scanMediaResults_none (none_ : s.link.scan = none) :
    Replies s .scanMediaResults 0x4305 Cxl.unsupported [] := by
  have scan : (s.reporting 0).link.scan = none := none_
  refine Replies.of_do answers open_ 0 (e := execScanMediaResults s) rfl rfl ?_
  rw [scan]

theorem cxlUnsupportedOpcode_reports (op : BitVec 16) (unlisted : op.toNat ∉ cxlOpcodes) :
    Replies s (.cxlUnsupportedOpcode op) op.toNat Cxl.unsupported [] :=
  Replies.of_do answers open_ 0 (e := execCxlUnsupportedOpcode op s) rfl (if_neg (by simpa using unlisted)) rfl

end Reports

/-! ### While the firmware does not answer (R83) -/

/-- Command `c` works on the state only as a command of the CXL mailbox. -/
def ByMailbox (c : Instr) : Prop := ∀ s, ∃ f, exec c s = cxlDo s f

theorem ByMailbox.of_arm {c : Instr} {e : State → Host.Outcome State Fault Refusal} (arm : ∀ s, exec c s = e s)
    (body : ∀ s, ∃ f, e s = cxlDo s f) : ByMailbox c := fun s => by
  rw [arm]
  exact body s

section Silent

variable {c : Instr} (mailbox : ByMailbox c) {s : State}
include mailbox

/-- The doorbell stays rung. -/
theorem ByMailbox.rings (silent : s.cxlAnswers = false) (up : s.cxlUp = true) (open_ : s.linkClosed = false) :
    Answers c s fun t => { t.link with pba := s.link.pba } = { s.link with doorbell := true } ∧ Frame s t [.link] [] := by
  obtain ⟨f, run⟩ := mailbox s
  refine ⟨_, run.trans ((if_neg (State.cxlUp_not_closed up open_)).trans (if_neg (by simp [silent]))), ?_,
    Frame.done s (Frame.withLink s _ (by simp) _)⟩
  exact State.settle_link s (s.ringDoorbell true) s.link.pba

theorem ByMailbox.idles (off : s.cxlUp = false ∨ s.linkClosed = true) : Answers c s fun t => Frame s t [] [] := by
  obtain ⟨f, run⟩ := mailbox s
  exact ⟨_, run.trans (if_pos (State.cxlUp_or_closed off)), Frame.done s (Frame.refl s _ _)⟩

end Silent

theorem reporting_byMailbox : ∀ c ∈ [Instr.getEventInterruptPolicy, .getFwInfo, .getTimestamp, .getSupportedLogs,
    .identifyMemoryDevice, .getPartitionInfo, .getHealthInfo, .getAlertConfiguration, .getShutdownState,
    .scanMediaResults], ByMailbox c := by
  simp only [List.forall_mem_cons]
  exact ⟨.of_arm (e := execGetEventInterruptPolicy) (fun _ => rfl) fun _ => ⟨_, rfl⟩,
    .of_arm (e := execGetFwInfo) (fun _ => rfl) fun _ => ⟨_, rfl⟩,
    .of_arm (e := execGetTimestamp) (fun _ => rfl) fun _ => ⟨_, rfl⟩,
    .of_arm (e := execGetSupportedLogs) (fun _ => rfl) fun _ => ⟨_, rfl⟩,
    .of_arm (e := execIdentifyMemoryDevice) (fun _ => rfl) fun _ => ⟨_, rfl⟩,
    .of_arm (e := execGetPartitionInfo) (fun _ => rfl) fun _ => ⟨_, rfl⟩,
    .of_arm (e := execGetHealthInfo) (fun _ => rfl) fun _ => ⟨_, rfl⟩,
    .of_arm (e := execGetAlertConfiguration) (fun _ => rfl) fun _ => ⟨_, rfl⟩,
    .of_arm (e := execGetShutdownState) (fun _ => rfl) fun _ => ⟨_, rfl⟩,
    .of_arm (e := execScanMediaResults) (fun _ => rfl) fun _ => ⟨_, rfl⟩, fun _ h => absurd h List.not_mem_nil⟩

/-- Settles O31: each report is what its command replies from the state with the doorbell answered and its free values drawn; a
command that the firmware does not answer leaves the doorbell rung. -/
theorem cxlMailboxAnswersReads : Obligations.CxlMailboxAnswersReads := by
  refine ⟨fun s answers open_ => ?_, fun s silent c listed =>
    ⟨(reporting_byMailbox c listed).rings silent, (reporting_byMailbox c listed).idles⟩⟩
  exact ⟨getEventRecords_reports answers open_, getEventRecords_unknown answers open_,
    Replies.of_do answers open_ 0 (e := execGetEventInterruptPolicy s) rfl rfl rfl,
    Replies.of_do answers open_ 0 (e := execGetFwInfo s) rfl rfl rfl,
    getTimestamp_reports answers open_,
    Replies.of_do answers open_ 0 (e := execGetSupportedLogs s) rfl rfl rfl,
    getLog_reports answers open_, getLog_outside answers open_, identifyMemoryDevice_reports answers open_,
    Replies.of_do answers open_ 0 (e := execGetPartitionInfo s) rfl rfl rfl,
    getLsa_reports answers open_, getLsa_outside answers open_, getHealthInfo_reports answers open_,
    getAlertConfiguration_reports answers open_,
    Replies.of_do answers open_ 0 (e := execGetShutdownState s) rfl rfl rfl,
    fun a n o inside => ⟨getPoisonList_reports answers open_ a n inside, scanMediaCapabilities_reports answers open_ a n inside⟩,
    fun a n outside => ⟨getPoisonList_outside answers open_ a n outside, scanMediaCapabilities_outside answers open_ a n outside⟩,
    fun m kept => scanMediaResults_reports answers open_ kept, scanMediaResults_none answers open_,
    cxlUnsupportedOpcode_reports answers open_⟩

end Sys2Proof.Machine

/-! SUPPORT. Where a window write of the link does not end as stated: the event that it raises may ask for a dump, which closes
ingress (R85, R439). -/

namespace Sys2Proof.Machine

/-- A write that decoder 0 maps is a write of its window line (R72). -/
theorem exec_cxlMemWrite_window {s : State} (up : s.cxlUp = true) (open_ : s.linkClosed = false) {hpa : Dword}
    (maps : s.link.hdm0.maps hpa.toNat = true) (data : Line) (poison : Bool) : exec (.cxlMemWrite hpa data poison) s =
      done s (s.cxlWindowWrite ⟨.cmp hpa.toNat, s.link.hdm0.offset hpa.toNat / 64, data, poison⟩) :=
  (if_neg (State.cxlUp_not_closed up open_)).trans (if_pos maps)

/-! ### A dump request within a window write -/

/-- A CXL link in service whose decoder 0 maps the first 256 MiB, the Granary LAZY, and the reaction to a fault source a dump. -/
def dumpingOn (source : Nat) : State :=
  { (State.reset.setAll [(F.HL_STATUS_LINK_UP, 1), (F.HL_STATUS_MODE, 2), (F.GRN_STATE_STATE, Grn.lazy), (F.RDY_STATUS_FW, 1)]).setN
      F.FLT_SRC_CFG_MASK source 64 with
    pwr := { State.reset.pwr with hold := true, main := true }
    link := { State.reset.link with hdm0 := ⟨true, false, 0, 2 ^ 28, 1, 256⟩ } }

/-- No budget is left, a task has not used its reservation, and the next write that waits saturates HL_THROTTLE_CNT. -/
def saturating : State :=
  let s := (dumpingOn 0).set F.HL_THROTTLE_CNT_COUNT (2 ^ 48 - 1)
  { s with grn := { s.grn with granted := [.task 0], reserved := 1 } }

theorem saturating_waits : saturating.cxlUp = true ∧ saturating.linkClosed = false ∧ saturating.link.hdm0.maps 0 = true ∧
    saturating.canReserve = false := by decide +kernel

/-- The dump that source 0 asks for closes ingress, and the reservation not yet used waits again, ahead of the write (R85). -/
theorem saturating_waiters : (saturating.cxlWindowWrite
    ⟨.cmp (0 : Dword).toNat, saturating.link.hdm0.offset (0 : Dword).toNat / 64, 0, false⟩).grn.waiters = [.task 0, .cxl] := by
  decide +kernel

/-- Refutes O29: a write that waits saturates HL_THROTTLE_CNT, whose source 0 asks for a dump; the closing of ingress then puts a
reservation not yet used back into the queue, so that the queue is not the old one with the link at its end. -/
theorem not_cxlMemoryTraffic : ¬ Obligations.CxlMemoryTraffic := by
  intro h
  obtain ⟨up, open_, maps, full⟩ := saturating_waits
  obtain ⟨t, run, -, waiters, -⟩ := (h.1 0 0 false saturating up open_ maps).2 (.inl full)
  rw [exec_cxlMemWrite_window (hpa := 0) up open_ maps] at run
  obtain rfl := Host.Outcome.next.inj run
  rw [State.settle_grn] at waiters
  exact absurd (saturating_waiters.symm.trans waiters) (by decide +kernel)

/-! ### A dump request within a command of the CXL mailbox -/

/-- A chip reset is not over though ingress is open, and the next page that gets dirty exceeds the budget. -/
def overBudget : State :=
  let s := dumpingOn 97
  { s with
    pwr := { s.pwr with chipReset := true }
    grn := { s.grn with config := { s.grn.config with windowLen := 2 ^ 28 }, budget := 2048 } }

theorem overBudget_answers : overBudget.cxlAnswers = true ∧ overBudget.linkClosed = false ∧
    overBudget.windowOffset 0 = some 0 ∧ overBudget.canReserve = true ∧ overBudget.grn.waiters = [] := by decide +kernel

/-- Poison that is cleared is a write of the window line, in the state with the doorbell answered (R83). -/
theorem exec_clearPoison_inside {s : State} (answers : s.cxlAnswers = true) (open_ : s.linkClosed = false) {a : Dword} {o : Nat}
    (inside : s.windowOffset a.toNat = some o) (d : Line) : exec (.clearPoison a d) s =
      done s ((s.reporting 0).cxlWindowWrite ⟨.reply 0x4302, o / 64, 0, false⟩) := by
  have offset : (s.reporting 0).windowOffset a.toNat = some o := inside
  have run : exec (.clearPoison a d) s = execClearPoison a d s := rfl
  rw [run, execClearPoison, cxlDo_answers answers open_, offset]

/-- Source 97 asks for a dump, which closes ingress before the reply: with the chip reset not over, none leaves (R85). -/
theorem overBudget_silent : (State.settle overBudget
    ((overBudget.reporting 0).cxlWindowWrite ⟨.reply 0x4302, 0 / 64, 0, false⟩)).out = [] := by decide +kernel

/-- Refutes O32: the line that Clear Poison has accepted exceeds the budget, whose source 97 asks for a dump; ingress closes while a
chip reset is not over, and the reply is not sent. -/
theorem not_cxlMailboxKeepsWhatIsSet : ¬ Obligations.CxlMailboxKeepsWhatIsSet := by
  intro h
  obtain ⟨answers, open_, inside, room, free⟩ := overBudget_answers
  obtain ⟨-, -, -, -, -, -, -, -, -, -, -, poison, -⟩ := h overBudget answers open_
  obtain ⟨t, run, -, replied⟩ := ((poison 0 0 0 inside).1 room free).2
  rw [exec_clearPoison_inside (a := 0) answers open_ inside] at run
  obtain rfl := Host.Outcome.next.inj run
  rw [overBudget_silent] at replied
  exact List.not_mem_nil replied

end Sys2Proof.Machine

/-! SUPPORT. The mailboxes' own commands: how a run becomes a claim, what a command that ends or delivers leaves, and the reads
of data that declares its length. -/

namespace Sys2Proof.Machine

/-! ### Runs and claims -/

theorem Answers.of_run {c : Instr} {s u : State} {P : State → Prop} (run : exec c s = done s u) (h : P (State.settle s u)) :
    Answers c s P := ⟨_, run, h⟩

/-- A command that does nothing keeps everything but what follows the state. -/
theorem Answers.of_idle {c : Instr} {s : State} (run : exec c s = done s s) : Answers c s fun t => Frame s t [] [] :=
  Answers.of_run run (Frame.settle s s _ _)

/-- A command whose whole effect is a completion, seen from `v`, ends the accepted command. -/
theorem Ends.of_run {c : Instr} {s v : State} {a : Accepted} {code r : Nat} (run : exec c s = done s (v.complete a code r)) :
    Ends c s v a code r :=
  Answers.of_run run ⟨(SameRings.refl v).completed s a code r, (Frame.complete v a code r).done s⟩

/-- A completion depends on an earlier state only by where the rings were. -/
theorem Completed.of_rings {u s t : State} {a : Accepted} {code r : Nat} (h : Completed s a code r t)
    (stopped : ∀ n, s.cqStopped n = u.cqStopped n) (unreachable : ∀ n, s.cqUnreachable n = u.cqUnreachable n) :
    Completed u a code r t := by
  obtain ⟨forgotten, completion⟩ := h
  refine ⟨forgotten, ?_⟩
  cases hm : a.mb with
  | admin => simpa only [hm] using completion
  | pair n => simpa only [hm, stopped, unreachable] using completion

theorem mbx_mem_cplParts (s : State) (a : Accepted) : .mbx ∈ cplParts s a := by
  unfold cplParts
  split <;> simp

/-- A command on the admin mailbox completes with the mailboxes and their own fields. -/
theorem State.ringBad_admin (s : State) {a : Accepted} (h : a.mb = .admin) : s.ringBad a = false := by
  rw [State.ringBad, h]

theorem cplParts_admin (s : State) {a : Accepted} (h : a.mb = .admin) : cplParts s a = [.mbx] := by
  rw [cplParts, s.ringBad_admin h]
  rfl

theorem cplFields_admin (s : State) {a : Accepted} (h : a.mb = .admin) : cplFields s a = completeFields := by
  rw [cplFields, s.ringBad_admin h]
  rfl

/-! ### What has been sent stays sent -/

theorem State.writeCpl_out_mono (s : State) (n : Nat) (c : Cpl) {o : Output} (h : o ∈ s.out) : o ∈ (s.writeCpl n c).out :=
  State.coalesce_out_mono _ _ _ (by simp [State.takeEntry, h])

theorem State.pairError_out_mono (s : State) (n c : Nat) {o : Output} (h : o ∈ s.out) : o ∈ (s.pairError n c).out := by
  unfold State.pairError
  split
  · exact (KeepsLink.raise _ _ _ _).sent o (by simpa using h)
  · exact h

theorem State.cqFails_out_mono (s : State) (n : Nat) {o : Output} (h : o ∈ s.out) : o ∈ (s.cqFails n).out :=
  State.finishDrain_out_mono _ _ (by simpa using State.pairError_out_mono s n 3 h)

theorem State.complete_out_mono (s : State) (a : Accepted) (code r : Nat) {o : Output} (h : o ∈ s.out) :
    o ∈ (s.complete a code r).out := by
  unfold State.complete
  split
  · exact State.admComplete_out_mono _ _ _ _ _ (by simpa using h)
  · unfold State.pairComplete
    split_ifs
    · exact State.finishDrain_out_mono _ _ (by simpa using h)
    · exact State.cqFails_out_mono _ _ (by simpa using h)
    · simpa using h
    · exact State.finishDrain_out_mono _ _ (State.writeCpl_out_mono _ _ _ (by simpa using h))

/-- Messages that do not depend on what was sent before are all sent. -/
theorem State.foldl_emit_sent {α : Type} (f : State → α → Output) (hf : ∀ t o x, f (State.emit t o) x = f t x) (l : List α) :
    ∀ s : State, (∀ x ∈ l, f s x ∈ (l.foldl (fun t x => t.emit (f t x)) s).out) ∧
      ∀ o ∈ s.out, o ∈ (l.foldl (fun t x => t.emit (f t x)) s).out := by
  induction l with
  | nil => exact fun s => ⟨fun x hx => by simp at hx, fun o ho => ho⟩
  | cons y ys ih =>
    intro s
    obtain ⟨all, kept⟩ := ih (s.emit (f s y))
    refine ⟨fun x hx => ?_, fun o ho => kept o (List.mem_cons_of_mem _ ho)⟩
    rcases List.mem_cons.1 hx with rfl | hx
    · exact kept _ (List.mem_cons_self ..)
    · exact hf s (f s y) x ▸ all x hx

/-! ### Delivery (R88, R105) -/

theorem ofLeBytes_lt : ∀ b : List Byte, ofLeBytes b < 2 ^ (8 * b.length)
  | [] => by simp [ofLeBytes]
  | x :: xs => by
    have ih := ofLeBytes_lt xs
    have hx := x.isLt
    have e : 2 ^ (8 * (x :: xs).length) = 256 * 2 ^ (8 * xs.length) := by
      rw [List.length_cons, Nat.mul_succ, Nat.pow_add, Nat.mul_comm]
    rw [ofLeBytes, e]
    omega

/-- Bytes laid over the low end of a wider value read back. -/
theorem overlay_mod {k w b d : Nat} (fits : k ≤ w) (hb : b < 2 ^ k) : (b + d / 2 ^ k * 2 ^ k) % 2 ^ w % 2 ^ k = b := by
  rw [Nat.mod_mod_of_dvd _ (Nat.pow_dvd_pow 2 fits), Nat.add_mul_mod_self_right, Nat.mod_eq_of_lt hb]

section HostSend

variable (s : State) (ctx addr : Nat) (frames : List Nat) (b : List Byte)

theorem State.hostSend_sent : (s.hostSend ctx addr frames b).sentBytes s ctx addr frames b :=
  (State.foldl_emit_sent (fun (t : State) (p : Nat × Nat) =>
    .hostWrite (t.via ctx) (framed frames addr p.1) (sliceBytes b (p.1 - addr) p.2)) (fun _ _ _ => rfl) _ s).1

theorem Frame.hostSend (ps : List Part) (fs : List Field) : Frame s (s.hostSend ctx addr frames b) ps fs :=
  Frame.foldl _ _ (fun _ _ t => Frame.emit t _ ps fs) s

theorem SameRings.hostSend : SameRings s (s.hostSend ctx addr frames b) :=
  SameRings.foldl (fun (t : State) (p : Nat × Nat) =>
    t.emit (.hostWrite (t.via ctx) (framed frames addr p.1) (sliceBytes b (p.1 - addr) p.2))) _
    (fun _ _ => SameRings.of_regs rfl rfl) s

end HostSend

theorem State.sentBytes.mono {t u v : State} {ctx addr : Nat} {frames : List Nat} {b : List Byte}
    (h : t.sentBytes v ctx addr frames b) (sent : ∀ o ∈ t.out, o ∈ u.out) : u.sentBytes v ctx addr frames b :=
  fun p hp => sent _ (h p hp)

theorem State.deliver_inline {s : State} {a : Accepted} (h : a.inline = true) (b : List Byte) : s.deliver a b =
    (s.set F.ADM_DATA_DATA (ofLeBytes b +
      s.get F.ADM_DATA_DATA / 2 ^ (8 * b.length) * 2 ^ (8 * b.length))).complete a CC.ok 0 := if_pos h

theorem State.deliver_host {s v : State} {a : Accepted} {b : List Byte} {frames : List Nat} (h : a.inline = false)
    (host : inDevice (cmdAddr a.cmd) = false)
    (reached : s.reach (placeOf 1 (s.mailboxCtx a.mb) (cmdAddr a.cmd)) b.length true = (v, .ok frames)) :
    s.deliver a b = (v.hostSend (v.mailboxCtx a.mb) (cmdAddr a.cmd) frames b).complete a CC.ok 0 := by
  rw [State.deliver, if_neg (by simp [h]), State.finish]
  simp only [reached, host, State.finish, Bool.false_eq_true, if_false]

/-- A command whose whole effect is a delivery delivers, into ADM_DATA or to the host. -/
theorem Delivers.of_run {c : Instr} {s : State} {a : Accepted} {b : List Byte} (run : exec c s = done s (s.deliver a b)) :
    Delivers c s a b := by
  refine ⟨run, fun inline => ?_, fun v frames away host reached => ?_⟩
  · rw [State.deliver_inline inline] at run
    have rings := SameRings.set s (f := F.ADM_DATA_DATA) (by decide)
      (ofLeBytes b + s.get F.ADM_DATA_DATA / 2 ^ (8 * b.length) * 2 ^ (8 * b.length))
    refine Answers.of_run run ⟨fun fits => ?_, rings.completed s a CC.ok 0, Frame.done s ?_⟩
    · have kept := State.complete_getN (s.set F.ADM_DATA_DATA (ofLeBytes b +
        s.get F.ADM_DATA_DATA / 2 ^ (8 * b.length) * 2 ^ (8 * b.length))) a CC.ok 0 (g := F.ADM_DATA_DATA)
        (by unfold Field.outside; decide) (by unfold Field.outside; decide) 0
      have shown : F.ADM_DATA_DATA.outside settleFields := by unfold Field.outside; decide
      rw [State.get, State.settle_getN _ _ shown, kept]
      exact (congrArg (· % 2 ^ (8 * b.length)) (State.get_set_self s F.ADM_DATA_DATA _)).trans
        (overlay_mod (show 8 * b.length ≤ 16384 by omega) (ofLeBytes_lt b))
    · exact (Frame.set s _ _ (by simp)).trans ((rings.frame_complete a CC.ok 0).mono (fun _ h => h)
        fun _ h => List.mem_cons_of_mem _ h)
  · rw [State.deliver_host away host reached] at run
    have rings := SameRings.hostSend v (v.mailboxCtx a.mb) (cmdAddr a.cmd) frames b
    refine Answers.of_run run ⟨?_, rings.completed s a CC.ok 0, Frame.done s ?_⟩
    · exact (State.hostSend_sent v _ _ frames b).mono fun o ho =>
        State.settle_out_mono _ _ (State.complete_out_mono _ a CC.ok 0 ho)
    · exact (Frame.hostSend v _ _ frames b _ _).trans (rings.frame_complete a CC.ok 0)

/-! ### Data that declares its length (R98, R99) -/

/-- A command that reads declared data ends by check 5 or 6, or goes on with the whole data. -/
theorem ReadsDeclared.of_run {c : Instr} {s u : State} {a : Accepted} {size : Nat} {want : List Byte → Nat} {x : Transfer}
    {k : State → List Byte → State} {work : State → List Byte → Prop}
    (run : exec c s = done s (u.withDeclared a size want x k))
    (goes : ∀ (w : State) (b : List Byte), exec c s = done s (k w b) → work w b) :
    ReadsDeclared c s u a size want x work := by
  intro v h header
  rw [State.withDeclared, State.withInput_of_brings header] at run
  refine ⟨fun other => Ends.of_run (run.trans (by rw [if_pos other])), fun same => ⟨fun unready => ?_, fun ready w b data => ?_⟩⟩
  · exact Ends.of_run (run.trans (by rw [if_neg (by simp [same]), if_pos unready]))
  · refine goes w b (run.trans ?_)
    rw [if_neg (by simp [same]), if_neg (by simp [ready]), State.withInput_of_brings data]

end Sys2Proof.Machine

/-! SUPPORT. What the accesses, the trace and the scheduler leave of the mailboxes: the accepted commands and the rings, the fields
by which commands complete, what has been sent, and the empty plan slots. -/

namespace Sys2Proof.Machine

/-- The fields by which commands are accepted and complete (R88, R113, R272). -/
def mailFields : List Field := F.CTX_CFG_EN :: completeFields

/-- From `s` to `t` the mailboxes with their fields are as they were, HOLD stays powered or not, all that was sent stays sent, and
no plan slot has been filled. -/
structure KeepsMail (s t : State) : Prop where
  mbx : t.mbx = s.mbx
  hold : t.pwr.hold = s.pwr.hold
  reg : ∀ g ∈ mailFields, ∀ n, t.getN g n = s.getN g n
  sent : ∀ o ∈ s.out, o ∈ t.out
  empty : ∀ k, s.plan? k = none → t.plan? k = none

theorem mailFields_outside {g : Field} (h : g ∈ mailFields) : g.outside raiseFields := by
  revert g
  unfold Field.outside
  decide

namespace KeepsMail

variable {s t u : State}

theorem refl (s : State) : KeepsMail s s := ⟨rfl, rfl, fun _ _ _ => rfl, fun _ h => h, fun _ h => h⟩

theorem trans (h : KeepsMail s t) (k : KeepsMail t u) : KeepsMail s u where
  mbx := k.mbx.trans h.mbx
  hold := k.hold.trans h.hold
  reg g hg n := (k.reg g hg n).trans (h.reg g hg n)
  sent o ho := k.sent o (h.sent o ho)
  empty n hn := k.empty n (h.empty n hn)

/-- Work that touches none of the parts that matter here, and sends no more than one message. -/
theorem of_same (mbx : t.mbx = s.mbx) (pwr : t.pwr = s.pwr) (regs : t.regs = s.regs) (plans : t.eng.plans = s.eng.plans)
    (sent : ∀ o ∈ s.out, o ∈ t.out) : KeepsMail s t where
  mbx := mbx
  hold := congrArg Power.hold pwr
  reg g _ n := State.getN_same regs g n
  sent := sent
  empty k hk := by rwa [State.plan?, plans]

theorem emit (s : State) (o : Output) : KeepsMail s (s.emit o) :=
  of_same rfl rfl rfl rfl fun _ h => List.mem_cons_of_mem _ h

/-- A change of the engine that fills no plan slot. -/
theorem mapEng (s : State) {f : Engine → Engine} (h : (f s.eng).plans = s.eng.plans) : KeepsMail s (s.mapEng f) :=
  of_same rfl rfl rfl h fun _ h => h

theorem fresh (s : State) : KeepsMail s s.fresh.2 := of_same rfl rfl rfl rfl fun _ h => h

theorem setN (s : State) {f : Field} (h : ∀ g ∈ mailFields, f.id ≠ g.id) (n v : Nat) : KeepsMail s (s.setN f n v) where
  mbx := by simp
  hold := by simp
  reg g hg m := State.getN_setN_of_id s (h g hg) n v m
  sent o ho := by simpa using ho
  empty k hk := hk

theorem set (s : State) {f : Field} (h : ∀ g ∈ mailFields, f.id ≠ g.id) (v : Nat) : KeepsMail s (s.set f v) := setN s h 0 v

theorem setAll (l : List (Field × Nat)) (h : ∀ g ∈ mailFields, ∀ p ∈ l, p.1.id ≠ g.id) (s : State) :
    KeepsMail s (s.setAll l) := by
  induction l generalizing s with
  | nil => exact refl s
  | cons p l ih =>
    exact (set s (fun g hg => h g hg p (by simp)) p.2).trans (ih (fun g hg q hq => h g hg q (by simp [hq])) _)

theorem foldl {α : Type} (step : State → α → State) (l : List α) (h : ∀ s a, KeepsMail s (step s a)) (s : State) :
    KeepsMail s (l.foldl step s) :=
  List.foldlRecOn l step (motive := fun t => KeepsMail s t) (refl s) fun t ht a _ => ht.trans (h t a)

theorem signal (s : State) (v : Nat) : KeepsMail s (s.signal v) :=
  of_same (by simp) (by simp) (by simp) (by simp) fun _ h => State.signal_out_mono s v h

/-! Fault events and counters. -/

theorem bumpQuiet (s : State) {c : Counter} (h : ∀ g ∈ mailFields, c.count.id ≠ g.id ∧ c.sat.id ≠ g.id) (n : Nat) :
    KeepsMail s (s.bumpQuiet c n).2 where
  mbx := by simp
  hold := by simp
  reg g hg m := State.bumpQuiet_getN s c n (h g hg).1 (h g hg).2 m
  sent o ho := by simpa using ho
  empty k hk := by simpa [State.plan?] using hk

theorem bumpN (s : State) {c : Counter} (hc : ∀ g ∈ mailFields, c.count.id ≠ g.id) (hs : ∀ g ∈ mailFields, c.sat.id ≠ g.id)
    (n : Nat) : KeepsMail s (s.bumpN c n) where
  mbx := by simp
  hold := by
    unfold State.bumpN State.raiseSaturated
    dsimp only
    split_ifs <;> simp [State.raiseCore_hold]
  reg g hg m := State.bumpN_getN s c n (mailFields_outside hg) (hc g hg) (hs g hg) m
  sent := (KeepsLink.bumpN s c n).sent
  empty k hk := by simpa [State.plan?] using hk

theorem bump (s : State) {c : Counter} (hc : ∀ g ∈ mailFields, c.count.id ≠ g.id) (hs : ∀ g ∈ mailFields, c.sat.id ≠ g.id) :
    KeepsMail s (s.bump c) := bumpN s hc hs 0

theorem raiseCore (s : State) (n inst word : Nat) (b : Bool) : KeepsMail s (s.raiseCore n inst word b) where
  mbx := by simp
  hold := State.raiseCore_hold s n inst word b
  reg g hg m := State.raiseCore_getN s n inst word b (mailFields_outside hg) m
  sent := (KeepsLink.raiseCore s n inst word b).sent
  empty k hk := by simpa [State.plan?] using hk

theorem raiseWith (s : State) (n inst word : Nat) (b : Bool) : KeepsMail s (s.raiseWith n inst word b) := by
  unfold State.raiseWith
  split
  · exact refl s
  · refine KeepsMail.trans ?_ (raiseCore _ n inst word b)
    split
    · exact bumpQuiet s (by decide) 0
    · exact bumpN s (by decide) (by decide) n

theorem raise (s : State) (n inst word : Nat) : KeepsMail s (s.raise n inst word) := raiseWith s n inst word false

theorem raiseLive (s : State) (n inst word : Nat) : KeepsMail s (s.raiseLive n inst word) := by
  unfold State.raiseLive
  split
  · exact refl s
  · exact raise s n inst word

theorem clearLive (s : State) (n : Nat) : KeepsMail s (s.clearLive n) := setN s (by decide) _ _

end KeepsMail

end Sys2Proof.Machine

namespace Sys2Proof.Machine

namespace KeepsMail

variable {s t u : State}

/-! ### Accesses (R282 to R292) -/

theorem mapTlu (s : State) (f : Tlu → Tlu) : KeepsMail s (s.mapTlu f) := of_same rfl rfl rfl rfl fun _ h => h

theorem tlbFill (s : State) (e : TlbEntry) : KeepsMail s (s.tlbFill e) := mapTlu s _

theorem withHub (s : State) (h : Hub) : KeepsMail s { s with hub := h } := of_same rfl rfl rfl rfl fun _ h => h

theorem withDram (s : State) (d : Dram) : KeepsMail s { s with dram := d } := of_same rfl rfl rfl rfl fun _ h => h

theorem injected (s : State) (n inst word k : Nat) : KeepsMail s (s.injected n inst word k).2 := by
  unfold State.injected
  split
  · refine KeepsMail.trans (KeepsMail.trans ?_ (setN _ (f := F.FLT_SRC_CFG_INJ_ARMED) (by decide) n _))
      (raiseWith _ n inst word true)
    exact withHub s _
  · exact refl s

theorem tlbLookup (s : State) (k : TlbKind) (page : Nat) : KeepsMail s (s.tlbLookup k page).2 := by
  unfold State.tlbLookup
  split
  · dsimp only
    split
    · refine KeepsMail.trans (KeepsMail.trans (injected s 48 0 0 0) ?_) (bump _ (c := C.tluMiss) (by decide) (by decide))
      exact mapTlu _ _
    · exact tlbFill s _
  · exact bump s (by decide) (by decide)

theorem requestTrans (s : State) (ctx page : Nat) (write second : Bool) :
    KeepsMail s (s.requestTrans ctx page write second).1 := by
  unfold State.requestTrans
  split
  · exact refl s
  · dsimp only
    split
    · exact KeepsMail.trans (mapTlu s _) (emit _ _)
    · exact mapTlu s _

theorem hostPage (s : State) (ctx page : Nat) (write : Bool) : KeepsMail s (s.hostPage ctx page write).1 := by
  have asked : ∀ t : State, KeepsMail t (t.requestTrans ctx page write false).1 := fun t => requestTrans t ctx page write false
  unfold State.hostPage
  split
  · exact refl s
  · have looked := tlbLookup s (.host ctx) page
    split
    next e t found =>
      rw [found] at looked
      cases (if write then e.write else e.read) with
      | true => exact looked
      | false => exact looked.trans (asked t)
    next t found =>
      rw [found] at looked
      exact looked.trans (asked t)

theorem devAddr (s : State) (va : Nat) (write : Bool) : KeepsMail s (s.devAddr va write).1 := by
  have looked := tlbLookup s .device (va / 4096)
  unfold State.devAddr
  dsimp only
  split
  next e t found =>
    rw [found] at looked
    split <;> exact looked
  next t found =>
    rw [found] at looked
    split
    · exact looked
    · split <;> exact looked.trans (tlbFill t _)

/-- A check of several pages keeps the mailboxes where that of one page does. -/
theorem overPages {check : State → Nat → State × Dma Nat} (h : ∀ s p, KeepsMail s (check s p).1) (ps : List Nat) (s : State) :
    KeepsMail s (s.overPages check ps).1 := by
  induction ps generalizing s with
  | nil => exact refl s
  | cons p ps ih =>
    have checked := h s p
    unfold State.overPages
    split
    next t v found =>
      rw [found] at checked
      exact checked.trans (ih t)
    next t d _ found =>
      rw [found] at checked
      exact checked

theorem hostReach (s : State) (ctx addr len : Nat) (write : Bool) : KeepsMail s (s.hostReach ctx addr len write).1 := by
  unfold State.hostReach
  split
  · exact refl s
  · exact overPages (fun t p => hostPage t ctx p write) _ s

/-- An access in a context, to host memory or to the device region. -/
theorem reach (s : State) {p : Place} (outside : p.granary = false) (len : Nat) (write : Bool) :
    KeepsMail s (s.reach p len write).1 := by
  unfold State.reach
  split
  · exact refl s
  · rw [if_neg (by simp [outside])]
    split
    · exact refl s
    · split
      · refine overPages (fun t pg => ?_) _ s
        have walked := devAddr t (pg * 4096) write
        split
        next found => rw [found] at walked; exact walked
        next found => rw [found] at walked; exact walked
      · exact hostReach s p.ctx p.addr len write

theorem hostSend (s : State) (ctx addr : Nat) (frames : List Nat) (b : List Byte) :
    KeepsMail s (s.hostSend ctx addr frames b) :=
  foldl (fun (t : State) (p : Nat × Nat) =>
    t.emit (.hostWrite (t.via ctx) (framed frames addr p.1) (sliceBytes b (p.1 - addr) p.2))) _ (fun _ _ => emit _ _) s

/-! ### Accesses to DRAM (R307, R316) -/

theorem queueDram (s : State) (dpa : Nat) (cls : DramClass) (kind : DramKind) (hint : Nat) :
    KeepsMail s (s.queueDram dpa cls kind hint) := by
  unfold State.queueDram
  split
  · refine KeepsMail.trans (KeepsMail.trans ?_ (setN _ (f := F.DMC_STATUS_PD) (by decide) _ _))
      (setN _ (f := F.DMC_STATUS_SR) (by decide) _ _)
    exact withDram s _
  · exact refl s

theorem queueLines (s : State) (dpas : List Nat) (cls : DramClass) (kind : DramKind) (hint : Nat) :
    KeepsMail s (s.queueLines dpas cls kind hint) := foldl _ _ (fun _ _ => queueDram _ _ _ _ _) s

theorem dramWrite (s : State) (dpa : Nat) (l : Line) (p : Bool) (cls : DramClass) (hint : Nat) (g : Bool) :
    KeepsMail s (s.dramWrite dpa l p cls hint g) := by
  unfold State.dramWrite
  split
  · refine KeepsMail.trans ?_ (queueDram _ _ _ _ _)
    exact withDram s _
  · exact refl s

theorem dramWriteMasked (s : State) (dpa off : Nat) (b : List Byte) : KeepsMail s (s.dramWriteMasked dpa off b) := by
  have lost : KeepsMail s (s.rmwLost dpa) := by
    unfold State.rmwLost
    split
    · exact bumpN s (by decide) (by decide) _
    · exact refl s
  unfold State.dramWriteMasked
  split_ifs
  · exact refl s
  · exact lost
  · refine KeepsMail.trans ?_ (queueDram _ _ _ _ _)
    exact withDram s _

theorem dmaWrite (s : State) (dpa : Nat) (b : List Byte) : KeepsMail s (s.dmaWrite dpa b) := by
  refine foldl _ _ (fun t i => ?_) s
  dsimp only
  generalize (if i = 0 then dpa % 64 else 0) = lo
  split
  · exact dramWrite t _ _ _ _ _ _
  · exact dramWriteMasked t _ _ _

theorem writeSpill (s : State) (n : Nat) (a b : Line) : KeepsMail s (s.writeSpill n a b) :=
  (dramWrite s _ a _ _ _ _).trans ((dramWrite _ _ b _ _ _ _).trans (bump _ (by decide) (by decide)))

end KeepsMail

end Sys2Proof.Machine

namespace Sys2Proof.Machine

namespace KeepsMail

variable {s t u : State}

/-! ### The trace (R268, R285) -/

theorem writeTrace (s : State) (record : List Byte) : KeepsMail s (s.writeTrace record).1 := by
  have dropped : ∀ t : State, KeepsMail t (t.bump C.schDrop) := fun t => bump t (by decide) (by decide)
  have freed : ∀ (t : State) (b : Bool) (v : Nat), KeepsMail t (if b then t.set F.SCH_TRACE_PTRS_RD v else t) := fun t b v => by
    split
    · exact set t (by decide) v
    · exact refl t
  unfold State.writeTrace
  dsimp only
  split
  · exact dropped s
  · have reached := hostReach s 0 (s.get F.SCH_TRACE_BASE_BASE * 4096 +
      32 * (s.get F.SCH_TRACE_PTRS_WR % 2 ^ (s.get F.SCH_TRACE_CTL_SIZE_LOG - 5))) 32 true
    split
    next found => rw [found] at reached; exact reached
    next found =>
      rw [found] at reached
      exact reached.trans (KeepsMail.trans (KeepsMail.trans (hostSend _ 0 _ _ record)
        (set _ (f := F.SCH_TRACE_PTRS_WR) (by decide) _)) (freed _ _ _))
    next found => rw [found] at reached; exact reached.trans (dropped _)

theorem drainTrace (n : Nat) (s : State) : KeepsMail s (s.drainTrace n) := by
  induction n generalizing s with
  | zero => exact refl s
  | succ n ih =>
    unfold State.drainTrace
    split
    · exact refl s
    · split
      next r _ _ _ =>
        have written := writeTrace s r
        split
        next found =>
          rw [found] at written
          refine written.trans (KeepsMail.trans ?_ (ih _))
          exact mapEng _ rfl
        next found =>
          rw [found] at written
          exact written.trans (mapEng _ rfl)
      next => exact refl s

theorem trace (s : State) (ev : Nat) (w : TraceWho) (arg : Nat) : KeepsMail s (s.trace ev w arg) := by
  unfold State.trace
  dsimp only
  split_ifs
  · exact refl s
  · exact (mapEng s rfl).trans (bump _ (by decide) (by decide))
  · exact (mapEng s rfl).trans ((mapEng _ rfl).trans (drainTrace 64 _))

theorem traceTask (s : State) (ev : Nat) (t : Task) (arg : Nat) : KeepsMail s (s.traceTask ev t arg) :=
  trace s ev t.who arg

theorem traceFree (s : State) (ev plan op arg : Nat) : KeepsMail s (s.traceFree ev plan op arg) := by
  unfold State.traceFree
  split
  · exact refl s
  · exact trace s ev _ arg

/-! ### Tasks, tillers and plans -/

theorem setTask (s : State) (t : Task) : KeepsMail s (s.setTask t) := mapEng s rfl

theorem setTiller (s : State) (n : Nat) (x : Tiller) : KeepsMail s (s.setTiller n x) := mapEng s rfl

/-- A plan that stands is written: no other slot is filled. -/
theorem setPlan {slot : Nat} {p : Plan} (h : s.plan? slot = some p) (q : Plan) : KeepsMail s (s.setPlan slot q) where
  mbx := rfl
  hold := rfl
  reg _ _ _ := rfl
  sent _ ho := ho
  empty k hk := by
    have other : slot ≠ k := fun e => by simp [← e, h] at hk
    exact (Store.get?_set_ne s.eng.plans other q).trans hk

theorem mapRun (s : State) (slot op : Nat) (f : OpRun → OpRun) : KeepsMail s (s.mapRun slot op f) := by
  unfold State.mapRun
  split
  next found => exact setPlan found _
  next => exact refl s

theorem mapFlow (s : State) (slot op i : Nat) (f : FlowRun → FlowRun) : KeepsMail s (s.mapFlow slot op i f) :=
  mapRun s slot op _

theorem planEvent (s : State) (slot ev : Nat) : KeepsMail s (s.planEvent slot ev) := by
  unfold State.planEvent
  split
  · exact signal s _
  · exact refl s

theorem makeReady (s : State) (t : Task) (code : Nat) : KeepsMail s (s.makeReady t code) :=
  KeepsMail.trans (setTask s _) (traceTask _ _ _ _)

theorem holdFlow (s : State) (t : Task) (word : Nat) : KeepsMail s (s.holdFlow t word) := by
  unfold State.holdFlow
  split
  · exact refl s
  next found =>
    split
    · exact refl s
    · exact KeepsMail.trans (KeepsMail.trans (KeepsMail.trans (setPlan found _) (mapFlow _ _ _ _ _)) (traceTask _ _ _ _))
        (planEvent _ _ _)

/-! ### The quota (R261) -/

theorem wakeQuota (s : State) : KeepsMail s s.wakeQuota := by
  unfold State.wakeQuota
  refine foldl _ _ (fun t id => ?_) s
  split
  next k _ =>
    generalize (if k.cls = 0 then t.roomFor 1 else !t.eng.quota) = goes
    cases goes with
    | true => exact KeepsMail.trans (mapEng t rfl) (makeReady _ k 1)
    | false => exact refl t
  next => exact refl t

theorem settleQuota (s : State) : KeepsMail s s.settleQuota := by
  unfold State.settleQuota
  dsimp only
  split_ifs
  · exact refl s
  · exact KeepsMail.trans (KeepsMail.trans (KeepsMail.trans (KeepsMail.trans (mapEng s rfl) (traceFree _ _ _ _ _))
      (bump _ (by decide) (by decide))) (raiseLive _ 42 0 0)) (wakeQuota _)
  · exact KeepsMail.trans (KeepsMail.trans (KeepsMail.trans (mapEng s rfl) (traceFree _ _ _ _ _)) (clearLive _ 42)) (wakeQuota _)
  · exact wakeQuota s

/-! ### The scheduler (R252 to R260) -/

theorem refill (n : Nat) (s : State) : KeepsMail s (State.refill n s) := by
  induction n generalizing s with
  | zero => exact refl s
  | succ n ih =>
    unfold State.refill
    dsimp only
    split
    next slot t _ _ =>
      have read : ∀ u : Task, KeepsMail s ((s.queueRecord t.record).setTask u) := fun u =>
        KeepsMail.trans (queueLines s _ _ _ _) (setTask _ u)
      split
      · exact KeepsMail.trans (KeepsMail.trans (KeepsMail.trans (KeepsMail.trans (read _) (raise _ 43 0 _)) (holdFlow _ t _))
          (settleQuota _)) (ih _)
      · exact KeepsMail.trans (KeepsMail.trans (KeepsMail.trans (read _) (traceTask _ _ _ _)) (settleQuota _)) (ih _)
    next => exact refl s

theorem takeWork (die k : Nat) (s : State) : KeepsMail s (s.takeWork die k).2 := by
  induction k generalizing s with
  | zero => exact refl s
  | succ k ih => exact KeepsMail.trans (mapEng s rfl) (ih (s.useBuffer _))

theorem dispatch (s : State) (t : Task) (n : Nat) : KeepsMail s (s.dispatch t n) := by
  have tell : ∀ (u : State) (b : Bool) (f : OpRun → OpRun),
      KeepsMail u (if b then (u.mapRun t.plan t.op f).raise 41 0 0 else u) := fun u b f => by
    split
    · exact (mapRun u _ _ f).trans (raise _ 41 0 0)
    · exact refl u
  have wake : ∀ u : State, KeepsMail u (if u.gated n then u.wakeGroup n else u) := fun u => by
    split
    · exact set u (by decide) _
    · exact refl u
  unfold State.dispatch
  split
  · exact refl s
  · dsimp only
    refine KeepsMail.trans (KeepsMail.trans (KeepsMail.trans (KeepsMail.trans (KeepsMail.trans (KeepsMail.trans
      ?supplied (tell _ _ _)) (wake _)) (setTask _ _)) (setTiller _ _ _)) (bump _ (by decide) (by decide))) (traceTask _ _ _ _)
    split_ifs
    · exact (takeWork _ _ s).trans (mapFlow _ _ _ _ _)
    · exact mapFlow s _ _ _ _
    · exact takeWork _ _ s
    · exact refl s

theorem placeAll (n : Nat) (s : State) : KeepsMail s (State.placeAll n s) := by
  induction n generalizing s with
  | zero => exact refl s
  | succ n ih =>
    unfold State.placeAll
    split
    next p _ => exact (dispatch s p.1 p.2).trans (ih _)
    next => exact refl s

theorem preempt (s : State) : KeepsMail s s.preempt := by
  unfold State.preempt
  split
  · exact refl s
  · refine foldl _ _ (fun t k => ?_) s
    dsimp only
    split_ifs
    · exact refl t
    · split
      · exact refl t
      · split_ifs
        · exact KeepsMail.trans (KeepsMail.trans (setTask t _) (bump _ (by decide) (by decide))) (traceTask _ _ _ _)
        · exact refl t

theorem schedule (s : State) : KeepsMail s s.schedule := by
  unfold State.schedule
  split
  · exact refl s
  · refine KeepsMail.trans (KeepsMail.trans (refill (s.spilled.length + 1) s) ?_) (preempt _)
    split
    · exact placeAll 96 _
    · exact refl _

/-! ### Credits (R160, R167, R174) -/

theorem countPoolWait (s : State) (slot : Nat) : KeepsMail s (s.countPoolWait slot) := by
  unfold State.countPoolWait
  refine KeepsMail.trans (bump s (c := C.poolWait) (by decide) (by decide)) ?_
  dsimp only
  split
  · exact refl _
  next found =>
    split_ifs
    · exact (setPlan found _).trans (planEvent _ _ _)
    · exact setPlan found _

theorem joinBorrow (s : State) : KeepsMail s s.joinBorrow := by
  have counted : ∀ (t : State) (b : Bool) (n : Nat), KeepsMail t (if b then t.countPoolWait n else t) := fun t b n => by
    split
    · exact countPoolWait t n
    · exact refl t
  unfold State.joinBorrow
  refine foldl _ _ (fun t w => ?_) s
  split
  · split
    · refine KeepsMail.trans ?_ (counted _ _ _)
      exact mapEng t rfl
    · exact refl t
  · exact refl t

theorem grant (s : State) (w : CreditWait) : KeepsMail s (s.grant w) := by
  have given : ∀ (u : State) (k : Nat) (c : Culm) (n : Nat), KeepsMail u (u.giveBuffer k c n).1 := fun u k c n =>
    of_same rfl rfl rfl rfl fun _ h => h
  unfold State.grant
  refine KeepsMail.trans (mapEng s (f := fun e => { e with waits := e.waits.filter (fun x => x != w) }) rfl) ?_
  dsimp only
  split
  · exact (given _ _ _ _).trans (makeReady _ _ _)
  · exact given _ _ _ _
  · exact refl _

theorem grantAll (n : Nat) (s : State) : KeepsMail s (State.grantAll n s) := by
  induction n generalizing s with
  | zero => exact refl s
  | succ n ih =>
    unfold State.grantAll
    refine (joinBorrow s).trans ?_
    dsimp only
    split
    · exact (grant _ _).trans (ih _)
    · exact refl _

theorem settleCredits (s : State) : KeepsMail s s.settleCredits := grantAll _ s

end KeepsMail

end Sys2Proof.Machine

/-! SUPPORT. Acceptance (R93, R96, R98): what a command that is accepted leaves of the counts and pointers, and that its checks see
the state before it. -/

namespace Sys2Proof.Machine

theorem KeepsMail.rings {s t : State} (h : KeepsMail s t) : SameRings s t where
  mbx := h.mbx
  reg g hg n := h.reg g (by simp only [ringFields, mailFields, completeFields, List.mem_cons] at hg ⊢; tauto) n

/-- A completion stands through work that keeps the mailboxes. -/
theorem Completed.kept {s old u t : State} {a : Accepted} {code r : Nat} (h : Completed s a code r (State.settle old u))
    (k : KeepsMail u t) : Completed s a code r (State.settle old t) := by
  obtain ⟨forgotten, completion⟩ := h
  have mbx : (State.settle old t).mbx = (State.settle old u).mbx := by simp [k.mbx]
  have get : ∀ g ∈ [F.ADM_CPL_CPL, F.ADM_STATUS_BUSY, F.ADM_STATUS_DONE],
      (State.settle old t).get g = (State.settle old u).get g := fun g hg => by
    have shown : g.outside settleFields := by revert g; unfold Field.outside; decide
    have mail : g ∈ mailFields := by simp only [mailFields, completeFields, List.mem_cons] at hg ⊢; tauto
    exact (State.settle_getN old t shown 0).trans ((k.reg g mail 0).trans (State.settle_getN old u shown 0).symm)
  refine ⟨by rwa [mbx], ?_⟩
  cases hm : a.mb with
  | admin =>
    rw [hm] at completion
    simpa only [get _ (by simp : F.ADM_CPL_CPL ∈ _), get _ (by simp : F.ADM_STATUS_BUSY ∈ _),
      get _ (by simp : F.ADM_STATUS_DONE ∈ _)] using completion
  | pair n =>
    rw [hm] at completion
    simp only [State.pair_congr mbx]
    refine completion.imp_right (Or.imp_right (Or.imp_right ?_))
    rintro ⟨i, via, addr, flags, head, limit, sent⟩
    rcases State.mem_out_of_settle sent with sent | ⟨v, hv⟩
    · exact ⟨i, via, addr, flags, head, limit, State.settle_out_mono _ _ (k.sent _ sent)⟩
    · exact Output.noConfusion hv

/-! ### The checks of a command (R98, R467) -/

/-- The fields that checks 2 to 6 read. -/
def checkFields : List Field := readyFields ++ [F.FLT_PERSIST_LATCHED, F.FLT_CTL_INJ_DIS, F.MBX_STATE_CLASS]

theorem readyNeeds_checked (op : Nat) : ∀ f ∈ readyNeeds op, f ∈ checkFields := by
  have one : ∀ k ∈ readyFields, ∀ f ∈ [k], f ∈ checkFields := fun k hk f hf =>
    List.mem_append_left _ (List.mem_singleton.1 hf ▸ hk)
  unfold readyNeeds
  split_ifs
  any_goals exact one _ (by simp [readyFields])
  simp

section Check

variable {s t : State} {c : Line} (same : ∀ g ∈ checkFields, ∀ n, t.getN g n = s.getN g n)
include same

theorem State.rdyWord_congr : t.rdyWord = s.rdyWord := by
  refine List.foldl_ext (fun a f => a + t.get f * 2 ^ f.lo) (fun a f => a + s.get f * 2 ^ f.lo) 0 fun a f hf => ?_
  rw [State.get, same f (List.mem_append_left _ hf), State.get]

theorem State.checkFlag_congr {f : Field} (h : f ∈ checkFields) : t.flag f = s.flag f := by
  rw [State.flag, State.get, same f h, State.flag, State.get]

theorem State.notReady_congr : t.notReady c = s.notReady c := by
  have latched : t.latched = s.latched := State.checkFlag_congr same (by simp [checkFields])
  have needs : (readyNeeds (cmdOpcode c)).any (fun f => !t.flag f) = (readyNeeds (cmdOpcode c)).any (fun f => !s.flag f) := by
    rw [Bool.eq_iff_iff, List.any_eq_true, List.any_eq_true]
    exact exists_congr fun f => and_congr_right fun hf => by rw [State.checkFlag_congr same (readyNeeds_checked _ f hf)]
  rw [State.notReady, latched, needs, State.notReady]

/-- The checks of a command give the same end in states that agree on what they read. -/
theorem State.checkCmd_congr {m : Mailbox} (owned : ∀ n : Fin 64, m = .pair n → t.notOwned n.val c = s.notOwned n.val c) :
    t.checkCmd m c = s.checkCmd m c := by
  have firmware : t.flag F.RDY_STATUS_FW = s.flag F.RDY_STATUS_FW :=
    State.checkFlag_congr same (by simp [checkFields, readyFields])
  have permitted : t.notPermitted m c = s.notPermitted m c := by
    have injection : t.flag F.FLT_CTL_INJ_DIS = s.flag F.FLT_CTL_INJ_DIS :=
      State.checkFlag_congr same (by simp [checkFields])
    cases m with
    | admin => simp only [State.notPermitted, injection]
    | pair n => simp only [State.notPermitted, injection, owned n rfl]
  simp only [State.checkCmd, firmware, permitted, State.notReady_congr same, State.rdyWord_congr same]

end Check

end Sys2Proof.Machine

namespace Sys2Proof.Machine

/-! ### The counts and pointers of the mailboxes (R88, R93, R96) -/

/-- The mailboxes but for the pairs and the accepted commands: the numbers given, EXP_SEQ of the admin mailbox, the pair served
last and the releases. -/
def Mailboxes.counts (m : Mailboxes) : Mailboxes := { m with pairs := [], accepted := [] }

theorem State.setPair_counts (s : State) (n : Nat) (p : Pair) : (s.setPair n p).mbx.counts = s.mbx.counts := rfl

theorem State.firePair_counts (s : State) (n : Nat) : (s.firePair n).mbx.counts = s.mbx.counts := by
  rw [State.firePair, State.signal_mbx, State.setPair_counts]

theorem State.finishDrain_counts (s : State) (n : Nat) : (s.finishDrain n).mbx.counts = s.mbx.counts := by
  have flushed : (s.flushFire n).mbx.counts = s.mbx.counts := by
    unfold State.flushFire
    split
    · rfl
    · exact State.firePair_counts s n
  have cleared : ∀ t : State, (t.clearPair n).mbx.counts = t.mbx.counts := fun t => by
    unfold State.clearPair
    rw [State.foldl_keeps State.mbx (fun u f => u.setN f n 0) _ (fun u f => State.setN_mbx u f n 0)]
    rfl
  have ended : ∀ t : State, (t.endDelete n).mbx.counts = t.mbx.counts := fun t => by
    unfold State.endDelete
    split
    · rw [State.admComplete_mbx]
      rfl
    · rfl
  unfold State.finishDrain
  split
  · rw [ended, cleared, flushed]
  · rfl

theorem State.cqFails_counts (s : State) (n : Nat) : (s.cqFails n).mbx.counts = s.mbx.counts := by
  have failed : (s.pairError n 3).mbx.counts = s.mbx.counts := by
    unfold State.pairError
    split
    · rw [State.raise_mbx, State.enterError, State.setN_mbx, State.setN_mbx]
      rfl
    · rfl
  rw [State.cqFails, State.finishDrain_counts, State.dropAll_mbx, State.emptyHeld, State.setPair_counts, failed]

theorem State.writeCpl_counts (s : State) (n : Nat) (c : Cpl) : (s.writeCpl n c).mbx.counts = s.mbx.counts := by
  have coalesced : ∀ t : State, (t.coalesce n c.noIrq).mbx.counts = t.mbx.counts := fun t => by
    unfold State.coalesce
    split
    · rfl
    · dsimp only
      split
      · exact State.firePair_counts t n
      · rfl
  rw [State.writeCpl, coalesced, State.takeEntry, State.setPair_counts, State.setN_mbx, State.emit_mbx, State.dropInflight_mbx]

theorem State.complete_counts (s : State) (a : Accepted) (code r : Nat) : (s.complete a code r).mbx.counts = s.mbx.counts := by
  have forgotten : (s.forget a.id).mbx.counts = s.mbx.counts := rfl
  unfold State.complete
  split
  · rw [State.admComplete_mbx, forgotten]
  · unfold State.pairComplete
    split_ifs
    · rw [State.finishDrain_counts, State.dropInflight_mbx, forgotten]
    · rw [State.cqFails_counts, State.holdCpl, State.setPair_counts, forgotten]
    · rw [State.holdCpl, State.setPair_counts, forgotten]
    · rw [State.finishDrain_counts, State.writeCpl_counts, forgotten]

/-- A pair that is not DRAINING has no drain to finish. -/
theorem State.finishDrain_of_alive {s : State} {n : Nat} (alive : s.getN F.MBX_STATE_STATE n ≠ Mbx.draining) :
    s.finishDrain n = s := if_neg fun h => alive h.1

section Apart

variable {g : Field}

theorem State.dropInflight_apart (s : State) (n : Nat) (hi : F.MBX_STATE_INFLIGHT.id ≠ g.id) (hl : F.MBX_PTRS_LIMIT.id ≠ g.id)
    (m : Nat) : (s.dropInflight n).getN g m = s.getN g m := by
  rw [State.dropInflight, State.advanceLimit, State.getN_setN_of_id _ hl, State.getN_setN_of_id _ hi]

theorem State.writeCpl_apart (s : State) (n : Nat) (c : Cpl) (hi : F.MBX_STATE_INFLIGHT.id ≠ g.id)
    (hl : F.MBX_PTRS_LIMIT.id ≠ g.id) (ht : F.MBX_PTRS_CQ_TAIL.id ≠ g.id) (m : Nat) :
    (s.writeCpl n c).getN g m = s.getN g m := by
  rw [State.writeCpl, State.getN_same (State.coalesce_regs _ _ _), State.takeEntry, State.getN_same (State.setPair_regs _ _ _),
    State.getN_setN_of_id _ ht, State.getN_emit, State.dropInflight_apart s n hi hl]

theorem State.pairError_apart (s : State) (n c : Nat) (hr : g.outside raiseFields) (hs : F.MBX_STATE_STATE.id ≠ g.id)
    (hc : F.MBX_STATE_ERR_CAUSE.id ≠ g.id) (m : Nat) : (s.pairError n c).getN g m = s.getN g m := by
  unfold State.pairError
  split
  · rw [State.raise_getN _ _ _ _ hr, State.enterError, State.getN_setN_of_id _ hs, State.getN_setN_of_id _ hc]
    exact State.getN_same (State.setPair_regs _ _ _) g m
  · rfl

end Apart

theorem State.pairError_state {s : State} {n : Nat} (active : s.getN F.MBX_STATE_STATE n = Mbx.active) (c : Nat) :
    (s.pairError n c).getN F.MBX_STATE_STATE n = Mbx.error := by
  rw [State.pairError, if_pos active, State.raise_getN _ _ _ _ (by unfold Field.outside; decide), State.enterError,
    State.getN_setN_self]
  rfl

theorem State.pairError_cause {s : State} {n : Nat} (active : s.getN F.MBX_STATE_STATE n = Mbx.active) (c : Nat) :
    (s.pairError n c).getN F.MBX_STATE_ERR_CAUSE n = c % 4 := by
  rw [State.pairError, if_pos active, State.raise_getN _ _ _ _ (by unfold Field.outside; decide), State.enterError,
    State.getN_setN_of_id _ (by decide), State.getN_setN_self]
  rfl

theorem State.pairError_alive {s : State} {n : Nat} (alive : s.getN F.MBX_STATE_STATE n ≠ Mbx.draining) (c : Nat) :
    (s.pairError n c).getN F.MBX_STATE_STATE n ≠ Mbx.draining := by
  by_cases active : s.getN F.MBX_STATE_STATE n = Mbx.active
  · rw [State.pairError_state active]
    decide
  · rwa [State.pairError, if_neg active]

theorem State.cqFails_of_alive {s : State} {n : Nat} (alive : s.getN F.MBX_STATE_STATE n ≠ Mbx.draining) :
    s.cqFails n = ((s.pairError n 3).emptyHeld n).dropAll n (s.pair n).held.length := by
  refine State.finishDrain_of_alive ?_
  rw [State.dropAll, State.foldl_getN _ _ _ _ fun t _ => State.dropInflight_apart t n (by decide) (by decide) n]
  exact State.pairError_alive alive 3

/-- The fields that the completion of an admin command writes (R88). -/
def admFields : List Field := [F.ADM_CPL_CPL, F.ADM_STATUS_BUSY, F.ADM_STATUS_DONE]

/-- An admin command completes in the admin mailbox's fields alone. -/
theorem State.complete_admin_getN (s : State) {a : Accepted} (admin : a.mb = .admin) (code r : Nat) {g : Field}
    (h : ∀ f ∈ admFields, f.id ≠ g.id) (m : Nat) : (s.complete a code r).getN g m = s.getN g m := by
  have written : ∀ v : Nat, (s.setAll [(F.ADM_CPL_CPL, v), (F.ADM_STATUS_BUSY, 0), (F.ADM_STATUS_DONE, 1)]).getN g m =
      s.getN g m := fun v => State.setAll_getN _ g (by simpa [admFields] using h) m s
  simp only [State.complete, admin, State.admComplete]
  split
  · exact written _
  · exact (State.getN_signal _ _ _ _).trans (written _)

/-- The pointers by which a pair's commands are fetched and numbered (R93, R96). -/
def pointerFields : List Field := [F.MBX_PTRS_HEAD, F.MBX_STATE_EXP_SEQ]

/-- Completing a command moves no pointer of a pair, unless its own pair is DRAINING. -/
theorem State.complete_pointer (s : State) {a : Accepted}
    (alive : ∀ n : Fin 64, a.mb = .pair n → s.getN F.MBX_STATE_STATE n.val ≠ Mbx.draining) (code r : Nat) {g : Field}
    (hg : g ∈ pointerFields) (m : Nat) : (s.complete a code r).getN g m = s.getN g m := by
  have apart : F.MBX_STATE_INFLIGHT.id ≠ g.id ∧ F.MBX_PTRS_LIMIT.id ≠ g.id ∧ F.MBX_PTRS_CQ_TAIL.id ≠ g.id ∧
      F.MBX_STATE_STATE.id ≠ g.id ∧ F.MBX_STATE_ERR_CAUSE.id ≠ g.id ∧ g.outside raiseFields ∧
      ∀ f ∈ admFields, f.id ≠ g.id := by
    revert g
    unfold Field.outside
    decide
  obtain ⟨hi, hl, ht, hs, hc, hr, ha⟩ := apart
  cases hm : a.mb with
  | admin => exact s.complete_admin_getN hm code r ha m
  | pair n =>
    have here := alive n hm
    simp only [State.complete, hm, State.pairComplete]
    split_ifs
    · rw [State.finishDrain_of_alive, State.dropInflight_apart _ _ hi hl]
      · rfl
      · rw [State.dropInflight_apart _ _ (by decide) (by decide)]
        exact here
    · rw [State.cqFails_of_alive (s := (s.forget a.id).holdCpl n.val _) here, State.dropAll,
        State.foldl_getN _ _ _ _ fun t _ => State.dropInflight_apart t n.val hi hl m]
      exact State.pairError_apart _ _ _ hr hs hc m
    · rfl
    · rw [State.finishDrain_of_alive, State.writeCpl_apart _ _ _ hi hl ht]
      · rfl
      · rw [State.writeCpl_apart _ _ _ (by decide) (by decide) (by decide)]
        exact here

end Sys2Proof.Machine

namespace Sys2Proof.Machine

/-! ### A command is accepted (R88, R93, R96, R98) -/

/-- A command that is accepted is numbered, and its mailbox expects the next SEQ. -/
def State.noted (s : State) (m : Mailbox) (c : Line) : State :=
  State.setExpSeq { s with mbx := { s.mbx with
    accepted := s.mbx.accepted ++ [Accepted.new s.mbx.nextId m c], nextId := s.mbx.nextId + 1 } } m (cmdSeq c + 1)

section Noted

variable (s : State) (m : Mailbox) (c : Line)

theorem State.noted_accepted : (s.noted m c).mbx.accepted = s.mbx.accepted ++ [Accepted.new s.mbx.nextId m c] := by
  cases m <;> simp [State.noted, State.setExpSeq]

theorem State.noted_nextId : (s.noted m c).mbx.nextId = s.mbx.nextId + 1 := by
  cases m <;> simp [State.noted, State.setExpSeq]

theorem State.noted_lastPair : (s.noted m c).mbx.lastPair = s.mbx.lastPair := by
  cases m <;> simp [State.noted, State.setExpSeq]

theorem State.noted_eng : (s.noted m c).eng = s.eng := by
  cases m <;> simp [State.noted, State.setExpSeq]

theorem State.noted_pair (n : Nat) : (s.noted m c).pair n = s.pair n := by
  cases m <;> simp [State.noted, State.setExpSeq, State.pair]

theorem State.noted_getN {g : Field} (h : F.MBX_STATE_EXP_SEQ.id ≠ g.id) (k : Nat) :
    (s.noted m c).getN g k = s.getN g k := by
  cases m with
  | admin => rfl
  | pair n => exact State.getN_setN_of_id _ h n.val _ k

end Noted

theorem State.acceptCmd_badSequence {s : State} {m : Mailbox} {c : Line} (other : cmdSeq c ≠ s.expSeq m) : s.acceptCmd m c =
    ((s.noted m c).complete (Accepted.new s.mbx.nextId m c) CC.badSequence (s.expSeq m)).settleQuota :=
  congrArg State.settleQuota (if_pos other)

theorem State.acceptCmd_failed {s : State} {m : Mailbox} {c : Line} (expected : cmdSeq c = s.expSeq m) {code r : Nat}
    (failed : (s.noted m c).checkCmd m c = .failed code (some r)) : s.acceptCmd m c =
      ((s.noted m c).complete (Accepted.new s.mbx.nextId m c) code r).settleQuota := by
  refine congrArg State.settleQuota ((if_neg (not_not_intro expected)).trans ?_)
  rw [show (State.setExpSeq _ m (cmdSeq c + 1)).checkCmd m c = .failed code (some r) from failed]
  rfl

theorem State.acceptCmd_passed {s : State} {m : Mailbox} {c : Line} (expected : cmdSeq c = s.expSeq m)
    (passed : (s.noted m c).checkCmd m c = .passed) : s.acceptCmd m c =
      ((if cmdOpcode c = Op.planLoad ∧ bitOf (cmdArg c 0) 0 = false then (s.noted m c).claimSlot (Accepted.new s.mbx.nextId m c)
        else s.noted m c).keepCommand (Accepted.new s.mbx.nextId m c)).settleQuota := by
  refine congrArg State.settleQuota ((if_neg (not_not_intro expected)).trans ?_)
  rw [show (State.setExpSeq _ m (cmdSeq c + 1)).checkCmd m c = .passed from passed]
  rfl

/-! #### What acceptance leaves of the counts and pointers -/

/-- From `s` to `t` the counts of the mailboxes and the pointers of the pairs are as they were. -/
structure SameNumbers (s t : State) : Prop where
  counts : t.mbx.counts = s.mbx.counts
  pointer : ∀ g ∈ pointerFields, ∀ n, t.getN g n = s.getN g n

namespace SameNumbers

variable {s t u : State}

theorem refl (s : State) : SameNumbers s s := ⟨rfl, fun _ _ _ => rfl⟩

theorem trans (h : SameNumbers s t) (k : SameNumbers t u) : SameNumbers s u :=
  ⟨k.counts.trans h.counts, fun g hg n => (k.pointer g hg n).trans (h.pointer g hg n)⟩

theorem of_mail (h : KeepsMail s t) : SameNumbers s t :=
  ⟨congrArg Mailboxes.counts h.mbx, fun g hg n => h.reg g (by
    simp only [pointerFields, mailFields, completeFields, List.mem_cons] at hg ⊢
    tauto) n⟩

theorem complete (s : State) {a : Accepted}
    (alive : ∀ n : Fin 64, a.mb = .pair n → s.getN F.MBX_STATE_STATE n.val ≠ Mbx.draining) (code r : Nat) :
    SameNumbers s (s.complete a code r) :=
  ⟨s.complete_counts a code r, fun _ hg m => s.complete_pointer alive code r hg m⟩

theorem claimSlot (s : State) (a : Accepted) : SameNumbers s (s.claimSlot a) := by
  unfold State.claimSlot
  split
  · exact ⟨rfl, fun _ _ _ => rfl⟩
  · exact refl s

theorem keepCommand (s : State) (a : Accepted) : SameNumbers s (s.keepCommand a) := by
  have updated : ∀ (t : State) (b : Accepted), SameNumbers t (t.update b) := fun t b => ⟨rfl, fun _ _ _ => rfl⟩
  unfold State.keepCommand
  split
  · exact refl s
  · exact (of_mail (KeepsMail.fresh s)).trans ((updated _ _).trans (of_mail (KeepsMail.writeSpill _ _ _ _)))

/-- Acceptance gives the command its number and its mailbox the next SEQ, and moves nothing else of them. -/
theorem acceptCmd (s : State) (m : Mailbox) (c : Line)
    (alive : ∀ n : Fin 64, m = .pair n → s.getN F.MBX_STATE_STATE n.val ≠ Mbx.draining) :
    SameNumbers (s.noted m c) (s.acceptCmd m c) := by
  have ended : ∀ t : State, t.regs = (s.noted m c).regs → ∀ code r,
      SameNumbers t (t.complete (Accepted.new s.mbx.nextId m c) code r) := fun t regs code r =>
    complete t (fun n hn => by
      rw [State.getN_same regs, State.noted_getN s m c (by decide)]
      exact alive n hn) code r
  have kept : ∀ u : State, SameNumbers (s.noted m c) u → SameNumbers (s.noted m c) u.settleQuota := fun u h =>
    h.trans (of_mail (KeepsMail.settleQuota u))
  refine kept _ ?_
  dsimp only
  split
  · exact ended _ rfl _ _
  · split
    · exact ended _ rfl _ _
    · exact (of_mail (KeepsMail.fresh _)).trans (ended (s.noted m c).fresh.2 rfl _ _)
    · refine SameNumbers.trans ?_ (keepCommand _ _)
      split
      · exact claimSlot _ _
      · exact refl _
    · exact refl _

end SameNumbers

/-! #### How acceptance ends -/

/-- A command that is completed as it is accepted has completed as from the state before. -/
theorem State.noted_completed (s : State) (m : Mailbox) (c : Line) (old : State) (code r : Nat) :
    Completed s (Accepted.new s.mbx.nextId m c) code r
      (State.settle old ((s.noted m c).complete (Accepted.new s.mbx.nextId m c) code r).settleQuota) := by
  refine (((SameRings.refl (s.noted m c)).completed old (Accepted.new s.mbx.nextId m c) code r).kept
    (KeepsMail.settleQuota _)).of_rings (fun n => ?_) fun n => ?_
  · rw [State.cqStopped, State.noted_getN s m c (by decide), State.cqStopped]
  · simp only [State.cqUnreachable, State.ctxEnabled, State.noted_pair,
      State.noted_getN s m c (show F.MBX_STATE_EXP_SEQ.id ≠ F.MBX_STATE_CTX.id by decide),
      State.noted_getN s m c (show F.MBX_STATE_EXP_SEQ.id ≠ F.CTX_CFG_EN.id by decide)]

/-- A command that passes its checks stands among the accepted commands and has not begun. -/
theorem State.acceptCmd_waits {s : State} {m : Mailbox} {c : Line} (expected : cmdSeq c = s.expSeq m)
    (passed : (s.noted m c).checkCmd m c = .passed) :
    ∃ b ∈ (s.acceptCmd m c).mbx.accepted, b.id = s.mbx.nextId ∧ b.mb = m ∧ b.cmd = c ∧ b.begun = false := by
  have kept : ∀ t : State, t.mbx = (s.noted m c).mbx → ∃ b ∈ (t.keepCommand (Accepted.new s.mbx.nextId m c)).mbx.accepted,
      b.id = s.mbx.nextId ∧ b.mb = m ∧ b.cmd = c ∧ b.begun = false := fun t mbx => by
    have here : Accepted.new s.mbx.nextId m c ∈ t.mbx.accepted := by simp [mbx, State.noted_accepted]
    unfold State.keepCommand
    split
    · exact ⟨_, here, rfl, rfl, rfl, rfl⟩
    · refine ⟨{ Accepted.new s.mbx.nextId m c with record := some t.freeRecordNo }, ?_, rfl, rfl, rfl, rfl⟩
      rw [(KeepsMail.writeSpill _ _ _ _).mbx]
      exact List.mem_map.2 ⟨_, here, if_pos rfl⟩
  rw [State.acceptCmd_passed expected passed, (KeepsMail.settleQuota _).mbx]
  refine kept _ ?_
  split
  · unfold State.claimSlot
    split <;> rfl
  · rfl

/-! #### Ownership is judged as without the command itself (R106, R180) -/

/-- The slot of a command that is still accepted is the one that was claimed for its number. -/
theorem State.slotOf_of_accepted {s : State} {b : Accepted} (h : b ∈ s.mbx.accepted) :
    s.slotOf b = (s.eng.loading.find? (fun p => p.2 == b.id)).map (·.1) := by
  have same : (fun p : Nat × Nat => decide (s.mbx.accepted.any (fun a => a.id == p.2) = true ∧ (p.2 == b.id) = true)) =
      fun p => p.2 == b.id := by
    funext p
    refine Bool.eq_iff_iff.2 ⟨fun k => (of_decide_eq_true k).2, fun k => decide_eq_true ⟨?_, k⟩⟩
    exact List.any_eq_true.2 ⟨b, h, by simpa using (beq_iff_eq.1 k).symm⟩
  rw [State.slotOf, State.loadingSlots, List.find?_filter, same]

/-- A command of a pair that joins the accepted ones does not change whether the pair owns a plan. -/
theorem State.notOwned_of_joined {s t : State} {n : Nat} {a : Accepted} (eng : t.eng = s.eng)
    (accepted : t.mbx.accepted = s.mbx.accepted ++ [a]) (own : mailboxNumber a.mb = n)
    (cls : t.getN F.MBX_STATE_CLASS n = s.getN F.MBX_STATE_CLASS n) (c : Line) : t.notOwned n c = s.notOwned n c := by
  have handle : ∀ h, t.handlePlan h = s.handlePlan h := fun h => by simp only [State.handlePlan, State.plan?, eng]
  have loads : t.mbx.accepted.any (fun b => (t.slotOf b).any (fun k => t.handleOf k == cmdArg c 0) && mailboxNumber b.mb != n) =
      s.mbx.accepted.any (fun b => (s.slotOf b).any (fun k => s.handleOf k == cmdArg c 0) && mailboxNumber b.mb != n) := by
    rw [accepted, List.any_append]
    simp only [List.any_cons, List.any_nil, own, bne_self_eq_false, Bool.and_false, Bool.or_false]
    rw [Bool.eq_iff_iff, List.any_eq_true, List.any_eq_true]
    refine exists_congr fun b => and_congr_right fun hb => ?_
    rw [State.slotOf_of_accepted (s := t) (by rw [accepted]; exact List.mem_append_left _ hb), State.slotOf_of_accepted hb, eng]
    simp only [State.handleOf, eng]
  simp only [State.notOwned, handle, loads, cls]

end Sys2Proof.Machine

namespace Sys2Proof.Machine

/-! ### The doorbells (R88, R89, R92) -/

section AdmDoorbell

variable {s : State}

theorem admDoorbellGo_overruns (up : s.groupUp .fn = true) (open_ : s.linkClosed = false)
    (busy : s.flag F.ADM_STATUS_BUSY = true ∨ s.flag F.ADM_STATUS_READY = false) :
    Answers .admDoorbellGo s fun t => t.get F.ADM_STATUS_OVERRUN = 1 ∧ Frame s t [] [F.ADM_STATUS_OVERRUN] := by
  have run : exec .admDoorbellGo s = done s (s.set F.ADM_STATUS_OVERRUN 1) := by
    refine (if_neg (by simp [up, open_])).trans (if_pos ?_)
    rcases busy with h | h <;> simp [h]
  refine Answers.of_run run ⟨?_, (Frame.set s _ 1 (by simp)).done s⟩
  exact (State.settle_getN s _ (by unfold Field.outside; decide) 0).trans (State.get_set_self s _ 1)

/-- What BUSY does not change of a command's checks. -/
theorem State.checkCmd_busy (s : State) (c : Line) : ((s.set F.ADM_STATUS_BUSY 1).noted .admin c).checkCmd .admin c =
    s.checkCmd .admin c := by
  refine State.checkCmd_congr (fun g hg n => ?_) nofun
  have apart : F.MBX_STATE_EXP_SEQ.id ≠ g.id ∧ F.ADM_STATUS_BUSY.id ≠ g.id := by
    revert g
    decide
  exact (State.noted_getN _ _ _ apart.1 n).trans (State.getN_setN_of_id s apart.2 0 1 n)

/-- A GO that is taken accepts the command in ADM_CMD with BUSY set. -/
theorem exec_admDoorbellGo (up : s.groupUp .fn = true) (open_ : s.linkClosed = false)
    (free : s.flag F.ADM_STATUS_BUSY = false) (ready : s.flag F.ADM_STATUS_READY = true) : exec .admDoorbellGo s =
      done s ((s.set F.ADM_STATUS_BUSY 1).acceptCmd .admin (BitVec.ofNat 512 (s.get F.ADM_CMD_CMD))) :=
  (if_neg (by simp [up, open_])).trans (if_neg (by simp [free, ready]))

theorem admDoorbellGo_accepts (up : s.groupUp .fn = true) (open_ : s.linkClosed = false)
    (free : s.flag F.ADM_STATUS_BUSY = false) (ready : s.flag F.ADM_STATUS_READY = true) :
    let c : Line := BitVec.ofNat 512 (s.get F.ADM_CMD_CMD)
    let a := Accepted.new s.mbx.nextId .admin c
    Answers .admDoorbellGo s fun t =>
      t.mbx.nextId = s.mbx.nextId + 1 ∧ t.mbx.admSeq = (cmdSeq c + 1) % 65536 ∧
      (cmdSeq c ≠ s.mbx.admSeq → Completed s a CC.badSequence s.mbx.admSeq t) ∧
      (cmdSeq c = s.mbx.admSeq →
        (∀ code r : Nat, s.checkCmd .admin c = .failed code (some r) → Completed s a code r t) ∧
        (s.checkCmd .admin c = .passed →
          ∃ b ∈ t.mbx.accepted, b.id = a.id ∧ b.mb = .admin ∧ b.cmd = c ∧ b.begun = false)) := by
  intro c a
  have mbx : (s.set F.ADM_STATUS_BUSY 1).mbx = s.mbx := State.set_mbx _ _ _
  have seq : (s.set F.ADM_STATUS_BUSY 1).expSeq .admin = s.mbx.admSeq := congrArg Mailboxes.admSeq mbx
  have number : (s.set F.ADM_STATUS_BUSY 1).mbx.nextId = s.mbx.nextId := congrArg Mailboxes.nextId mbx
  have numbers := (SameNumbers.acceptCmd (s.set F.ADM_STATUS_BUSY 1) .admin c nofun).counts
  have ended : ∀ code r, Completed s a code r (State.settle s (((s.set F.ADM_STATUS_BUSY 1).noted .admin c).complete
      (Accepted.new (s.set F.ADM_STATUS_BUSY 1).mbx.nextId .admin c) code r).settleQuota) := fun code r => by
    have busy : SameRings s (s.set F.ADM_STATUS_BUSY 1) := SameRings.set s (by decide) 1
    have h := ((s.set F.ADM_STATUS_BUSY 1).noted_completed .admin c s code r).of_rings busy.cqStopped busy.cqUnreachable
    rwa [number] at h ⊢
  refine Answers.of_run (exec_admDoorbellGo up open_ free ready) ⟨?_, ?_, fun other => ?_, fun expected => ⟨fun code r failed => ?_,
    fun passed => ?_⟩⟩
  · rw [State.settle_mbx]
    exact (congrArg Mailboxes.nextId numbers).trans ((State.noted_nextId _ _ _).trans (by rw [number]))
  · rw [State.settle_mbx]
    exact congrArg Mailboxes.admSeq numbers
  · rw [State.acceptCmd_badSequence (by rwa [seq]), seq]
    exact ended _ _
  · rw [State.acceptCmd_failed (by rwa [seq]) ((State.checkCmd_busy s c).trans failed)]
    exact ended _ _
  · have waits := State.acceptCmd_waits (by rwa [seq]) ((State.checkCmd_busy s c).trans passed)
    rw [State.settle_mbx]
    rwa [number] at waits

end AdmDoorbell

section PairDoorbells

variable {n : Fin 64} {v : Word} {s : State}

/-- A field that follows nothing reads after the settling as before it. -/
theorem State.settle_getN_mail (old s : State) {g : Field} (h : g ∈ mailFields) (k : Nat) :
    (State.settle old s).getN g k = s.getN g k :=
  State.settle_getN old s (by revert g; unfold Field.outside; decide) k

theorem sqTailWrite_records (up : s.groupUp .fn = true) (open_ : s.linkClosed = false)
    (active : s.getN F.MBX_STATE_STATE n.val = Mbx.active) (within : s.tailBeyond n.val (v.toNat % 4096) = false) :
    Answers (.sqTailWrite n v) s fun t =>
      t.getN F.MBX_PTRS_TAIL n.val = v.toNat % 4096 ∧
      (∀ k : Fin 64, k ≠ n → t.getN F.MBX_PTRS_TAIL k.val = s.getN F.MBX_PTRS_TAIL k.val) ∧
      Frame s t [] [F.MBX_PTRS_TAIL] := by
  have run : exec (.sqTailWrite n v) s = done s (s.setN F.MBX_PTRS_TAIL n.val (v.toNat % 4096)) :=
    (if_neg (by simp [up, open_, active])).trans (if_neg (by simp [within]))
  have shown : ∀ k : Nat, (State.settle s (s.setN F.MBX_PTRS_TAIL n.val (v.toNat % 4096))).getN F.MBX_PTRS_TAIL k =
      (s.setN F.MBX_PTRS_TAIL n.val (v.toNat % 4096)).getN F.MBX_PTRS_TAIL k :=
    State.settle_getN_mail _ _ (by simp [mailFields, completeFields])
  refine Answers.of_run run ⟨?_, fun k other => ?_, (Frame.setN s _ _ _ (by simp)).done s⟩
  · rw [shown, State.getN_setN_self]
    exact Nat.mod_eq_of_lt (Nat.mod_lt _ (by decide))
  · rw [shown, State.getN_setN_of_index]
    omega

theorem Frame.pairError (s : State) (n c : Nat) : Frame s (s.pairError n c) (.mbx :: raiseParts)
    ([F.MBX_STATE_STATE, F.MBX_STATE_ERR_CAUSE] ++ raiseFields) := by
  unfold State.pairError
  split
  · refine Frame.trans ?_ (Frame.raise _ _ _ _ (fun _ h => List.mem_cons_of_mem _ h) (fun _ h => List.mem_append_right _ h))
    exact ((Frame.setPair s n _ (by simp) _).trans (Frame.setN _ _ _ _ (by simp))).trans (Frame.setN _ _ _ _ (by simp))
  · exact Frame.refl s _ _

/-- A pair put into ERROR shows it, with the cause (R113). -/
theorem State.settle_pairError (old : State) {s : State} {k : Nat} (active : s.getN F.MBX_STATE_STATE k = Mbx.active) {c : Nat}
    (fits : c < 4) : (State.settle old (s.pairError k c)).getN F.MBX_STATE_STATE k = Mbx.error ∧
      (State.settle old (s.pairError k c)).getN F.MBX_STATE_ERR_CAUSE k = c := by
  rw [State.settle_getN_mail _ _ (by simp [mailFields, completeFields]), State.pairError_state active,
    State.settle_getN_mail _ _ (by simp [mailFields, completeFields]), State.pairError_cause active, Nat.mod_eq_of_lt fits]
  exact ⟨rfl, rfl⟩

theorem sqTailWrite_errs (up : s.groupUp .fn = true) (open_ : s.linkClosed = false)
    (active : s.getN F.MBX_STATE_STATE n.val = Mbx.active) (beyond : s.tailBeyond n.val (v.toNat % 4096) = true) :
    Answers (.sqTailWrite n v) s fun t =>
      t.getN F.MBX_STATE_STATE n.val = Mbx.error ∧ t.getN F.MBX_STATE_ERR_CAUSE n.val = 1 ∧
      t.getN F.MBX_PTRS_TAIL n.val = s.getN F.MBX_PTRS_TAIL n.val ∧
      Frame s t (.mbx :: raiseParts) ([F.MBX_STATE_STATE, F.MBX_STATE_ERR_CAUSE] ++ raiseFields) := by
  have run : exec (.sqTailWrite n v) s = done s (s.pairError n.val 1) :=
    (if_neg (by simp [up, open_, active])).trans (if_pos beyond)
  obtain ⟨state, cause⟩ := State.settle_pairError s active (c := 1) (by decide)
  refine Answers.of_run run ⟨state, cause, ?_, (Frame.pairError s _ _).done s⟩
  rw [State.settle_getN_mail _ _ (by simp [mailFields, completeFields])]
  exact State.pairError_apart s _ _ (by unfold Field.outside; decide) (by decide) (by decide) _

theorem sqTailWrite_ignored (other : s.getN F.MBX_STATE_STATE n.val ≠ Mbx.active) :
    Answers (.sqTailWrite n v) s fun t => Frame s t [] [] :=
  Answers.of_idle (if_pos (by simp [other]))

theorem cqHeadWrite_taken (up : s.groupUp .fn = true) (open_ : s.linkClosed = false)
    (stands : s.getN F.MBX_STATE_STATE n.val ≠ Mbx.disabled) : Answers (.cqHeadWrite n v) s fun t =>
      t.pair n.val = { s.pair n.val with cqHead := v.toNat % 4096 % 2 ^ (s.pair n.val).cqLog } ∧
      (∀ k : Fin 64, k ≠ n → t.pair k.val = s.pair k.val) ∧ Frame s t [.mbx] [] := by
  have run : exec (.cqHeadWrite n v) s = done s (s.setPair n.val
      { s.pair n.val with cqHead := v.toNat % 4096 % 2 ^ (s.pair n.val).cqLog }) := if_neg (by simp [up, open_, stands])
  have pairs : ∀ u : State, (State.settle s u).pair = u.pair := fun u => funext (State.pair_congr (State.settle_mbx _ _))
  refine Answers.of_run run ⟨?_, fun k other => ?_, (Frame.setPair s _ _ (by simp) _).done s⟩
  · rw [pairs, State.pair_setPair]
  · rw [pairs]
    have apart : n.val ≠ k.val := fun e => other (Fin.ext e.symm)
    simp only [State.pair, State.setPair, Store.getD, Store.get?_set_ne _ apart]

theorem cqHeadWrite_ignored (disabled : s.getN F.MBX_STATE_STATE n.val = Mbx.disabled) :
    Answers (.cqHeadWrite n v) s fun t => Frame s t [] [] :=
  Answers.of_idle (if_pos (by simp [disabled]))

end PairDoorbells

/-- Settles O13: a GO that overruns, one that accepts with each end of the checks, SQ_TAIL within and beyond LIMIT and for a pair
that is not ACTIVE, CQ_HEAD of a pair that stands or does not, and closed ingress. -/
theorem doorbellsFollowTheirRules : Obligations.DoorbellsFollowTheirRules :=
  ⟨fun _ up open_ busy => admDoorbellGo_overruns up open_ busy,
    fun _ up open_ free ready => admDoorbellGo_accepts up open_ free ready,
    fun _ _ _ up open_ active within => sqTailWrite_records up open_ active within,
    fun _ _ _ up open_ active beyond => sqTailWrite_errs up open_ active beyond,
    fun _ _ _ other => sqTailWrite_ignored other,
    fun _ _ _ up open_ stands => cqHeadWrite_taken up open_ stands,
    fun _ _ _ disabled => cqHeadWrite_ignored disabled,
    fun _ _ _ closed => ⟨Answers.of_idle (if_pos (by simp [closed])), Answers.of_idle (if_pos (by simp [closed])),
      Answers.of_idle (if_pos (by simp [closed]))⟩⟩

end Sys2Proof.Machine

namespace Sys2Proof.Machine

/-! ### A pair's command at HEAD (R93, R102) -/

theorem KeepsMail.sqFetch (s : State) (n : Nat) : KeepsMail s (s.sqFetch n).1 := by
  unfold State.sqFetch
  dsimp only
  split
  · exact KeepsMail.refl s
  · have reached := KeepsMail.hostReach s (s.getN F.MBX_STATE_CTX n) ((s.pair n).sqBase + 64 * s.getN F.MBX_PTRS_HEAD n) 64 false
    split
    next found => rw [found] at reached; exact reached.trans (KeepsMail.emit _ _)
    next => exact reached

/-- The state in which the command at HEAD is taken: HEAD has advanced, one more is in flight, and the pair is the one served
last (R93, R102). -/
def State.taken (s v : State) (k : Nat) : State :=
  let t := ((v.endHold k).setN F.MBX_PTRS_HEAD k ((s.getN F.MBX_PTRS_HEAD k + 1) % 2 ^ (s.pair k).sqLog)).setN
    F.MBX_STATE_INFLIGHT k (s.getN F.MBX_STATE_INFLIGHT k + 1) |>.advanceLimit k
  { t with mbx := { t.mbx with lastPair := k } }

section Taken

variable (s v : State) (k : Nat)

theorem State.taken_getN {g : Field} (hh : F.MBX_PTRS_HEAD.id ≠ g.id) (hi : F.MBX_STATE_INFLIGHT.id ≠ g.id)
    (hl : F.MBX_PTRS_LIMIT.id ≠ g.id) (m : Nat) : (s.taken v k).getN g m = v.getN g m :=
  (State.getN_setN_of_id _ hl k _ m).trans ((State.getN_setN_of_id _ hi k _ m).trans
    ((State.getN_setN_of_id _ hh k _ m).trans (State.getN_same (State.setPair_regs v _ _) g m)))

theorem State.taken_head : (s.taken v k).getN F.MBX_PTRS_HEAD k =
    (s.getN F.MBX_PTRS_HEAD k + 1) % 2 ^ (s.pair k).sqLog % 2 ^ 12 :=
  (State.getN_setN_of_id _ (by decide) k _ k).trans ((State.getN_setN_of_id _ (by decide) k _ k).trans
    (State.getN_setN_self _ _ k _))

theorem State.taken_mbx : (s.taken v k).mbx = { (v.endHold k).mbx with lastPair := k } := by
  simp [State.taken, State.advanceLimit]

theorem State.taken_eng : (s.taken v k).eng = v.eng := by simp [State.taken, State.advanceLimit]

theorem State.taken_cqBase (n : Nat) : ((s.taken v k).pair n).cqBase = (v.pair n).cqBase := by
  have e : (s.taken v k).pair n = (v.endHold k).pair n := by simp [State.pair, State.taken_mbx]
  rw [e]
  by_cases h : k = n
  · rw [h, State.endHold, State.pair_setPair]
  · simp only [State.endHold, State.setPair, State.pair, Store.getD, Store.get?_set_ne _ h]

theorem State.taken_cqStopped (n : Nat) : (s.taken v k).cqStopped n = v.cqStopped n := by
  rw [State.cqStopped, State.taken_getN s v k (by decide) (by decide) (by decide), State.cqStopped]

theorem State.taken_cqUnreachable (n : Nat) : (s.taken v k).cqUnreachable n = v.cqUnreachable n := by
  have apart : ∀ g ∈ [F.MBX_STATE_CTX, F.CTX_CFG_EN], ∀ m, (s.taken v k).getN g m = v.getN g m := fun g hg m => by
    have h : F.MBX_PTRS_HEAD.id ≠ g.id ∧ F.MBX_STATE_INFLIGHT.id ≠ g.id ∧ F.MBX_PTRS_LIMIT.id ≠ g.id := by
      revert g
      decide
    exact State.taken_getN s v k h.1 h.2.1 h.2.2 m
  simp only [State.cqUnreachable, State.ctxEnabled, State.taken_cqBase, apart F.MBX_STATE_CTX (by simp),
    apart F.CTX_CFG_EN (by simp)]

/-- A command's checks see the state before it was taken. -/
theorem State.checkCmd_taken (n : Fin 64) (c : Line) :
    ((s.taken v n.val).noted (.pair n) c).checkCmd (.pair n) c = v.checkCmd (.pair n) c := by
  have same : ∀ g ∈ checkFields, ∀ m, ((s.taken v n.val).noted (.pair n) c).getN g m = v.getN g m := fun g hg m => by
    have apart : F.MBX_STATE_EXP_SEQ.id ≠ g.id ∧ F.MBX_PTRS_HEAD.id ≠ g.id ∧ F.MBX_STATE_INFLIGHT.id ≠ g.id ∧
        F.MBX_PTRS_LIMIT.id ≠ g.id := by
      revert g
      decide
    obtain ⟨he, hh, hi, hl⟩ := apart
    exact (State.noted_getN _ _ _ he m).trans (State.taken_getN s v n.val hh hi hl m)
  refine State.checkCmd_congr same fun k hk => ?_
  obtain rfl : n = k := Mailbox.pair.inj hk
  refine State.notOwned_of_joined (a := Accepted.new (s.taken v n.val).mbx.nextId (.pair n) c) ?_ ?_ rfl
    (same _ (by simp [checkFields]) _) c
  · rw [State.noted_eng, State.taken_eng]
  · rw [State.noted_accepted, State.taken_mbx]
    rfl

end Taken

section Accept

variable {n : Fin 64} {s u : State}

/-- The guards of COMMAND_ACCEPT (R93, R102). -/
structure State.mayAccept (s : State) (n : Fin 64) : Prop where
  up : s.groupUp .fn = true
  firmware : s.flag F.RDY_STATUS_FW = true
  runs : s.acceptStopped = false
  linked : s.linkClosed = false
  offers : s.pairOffers n.val = true
  turn : s.pairTurn n.val = true

theorem State.mayAccept.active (h : s.mayAccept n) : s.getN F.MBX_STATE_STATE n.val = Mbx.active := by
  have offers := h.offers
  simp only [State.pairOffers, Bool.and_eq_true, beq_iff_eq] at offers
  exact offers.1.1

theorem State.mayAccept.guards (h : s.mayAccept n) : (!s.groupUp .fn || !s.flag F.RDY_STATUS_FW || s.acceptStopped ||
    s.linkClosed || !s.pairOffers n.val || !s.pairTurn n.val) = false := by
  simp [h.up, h.firmware, h.runs, h.linked, h.offers, h.turn]

theorem commandAccept_parks (h : s.mayAccept n) {q : PageWait} (fetch : s.sqFetch n.val = (u, .park q)) (f : Option Line) :
    Runs (.commandAccept n f) s (u.setPair n.val { u.pair n.val with sqWaits := [q] }) := by
  refine (if_neg (by simp [h.guards])).trans ?_
  simp only [fetch]
  rfl

theorem commandAccept_stops (h : s.mayAccept n) {c d : Nat} (fetch : s.sqFetch n.val = (u, .stop c d)) (f : Option Line) :
    Answers (.commandAccept n f) s fun t =>
      t.getN F.MBX_STATE_STATE n.val = Mbx.error ∧ t.getN F.MBX_STATE_ERR_CAUSE n.val = 2 ∧
      Frame u t (.mbx :: raiseParts) ([F.MBX_STATE_STATE, F.MBX_STATE_ERR_CAUSE] ++ raiseFields) := by
  have run : exec (.commandAccept n f) s = done s (u.pairError n.val 2) := by
    refine (if_neg (by simp [h.guards])).trans ?_
    simp only [fetch]
  have kept := KeepsMail.sqFetch s n.val
  rw [fetch] at kept
  have active : u.getN F.MBX_STATE_STATE n.val = Mbx.active :=
    (kept.reg _ (by simp [mailFields, completeFields]) _).trans h.active
  obtain ⟨state, cause⟩ := State.settle_pairError s active (c := 2) (by decide)
  exact Answers.of_run run ⟨state, cause, (Frame.pairError u _ _).done s⟩

theorem commandAccept_fails (h : s.mayAccept n) {frames : List Nat} (fetch : s.sqFetch n.val = (u, .ok frames)) :
    Runs (.commandAccept n none) s (u.pairError n.val 2) := by
  refine (if_neg (by simp [h.guards])).trans ?_
  simp only [fetch]
  rfl

theorem commandAccept_holds (h : s.mayAccept n) {frames : List Nat} (fetch : s.sqFetch n.val = (u, .ok frames)) {c : Line}
    (held : u.settleQuota.quotaHolds c = true ∨ u.settleQuota.governorHolds c = true) :
    Runs (.commandAccept n (some c)) s (u.settleQuota.holdPair n.val (u.settleQuota.governorHolds c)) := by
  refine (if_neg (by simp [h.guards])).trans ?_
  simp only [fetch]
  exact if_pos (by simpa using held)

theorem exec_commandAccept (h : s.mayAccept n) {frames : List Nat} (fetch : s.sqFetch n.val = (u, .ok frames)) {c : Line}
    (quota : u.settleQuota.quotaHolds c = false) (governor : u.settleQuota.governorHolds c = false) :
    exec (.commandAccept n (some c)) s = done s ((s.taken u.settleQuota n.val).acceptCmd (.pair n) c) := by
  refine (if_neg (by simp [h.guards])).trans ?_
  simp only [fetch]
  exact if_neg (by simp [quota, governor])

/-- A command that neither the spill quota nor the governor holds is accepted: completed where its SEQ is another, waiting where it
passes its checks. -/
theorem commandAccept_accepts (h : s.mayAccept n) {frames : List Nat} (fetch : s.sqFetch n.val = (u, .ok frames)) {c : Line}
    (quota : u.settleQuota.quotaHolds c = false) (governor : u.settleQuota.governorHolds c = false) :
    let a := Accepted.new s.mbx.nextId (.pair n) c
    Answers (.commandAccept n (some c)) s fun t =>
      t.mbx.lastPair = n.val ∧ t.mbx.nextId = s.mbx.nextId + 1 ∧
      t.getN F.MBX_PTRS_HEAD n.val = (s.getN F.MBX_PTRS_HEAD n.val + 1) % 2 ^ (s.pair n.val).sqLog % 2 ^ 12 ∧
      t.getN F.MBX_STATE_EXP_SEQ n.val = (cmdSeq c + 1) % 65536 ∧
      (cmdSeq c ≠ s.getN F.MBX_STATE_EXP_SEQ n.val →
        Completed s a CC.badSequence (s.getN F.MBX_STATE_EXP_SEQ n.val) t) ∧
      (cmdSeq c = s.getN F.MBX_STATE_EXP_SEQ n.val → u.settleQuota.checkCmd (.pair n) c = .passed →
        ∃ b ∈ t.mbx.accepted, b.id = a.id ∧ b.mb = .pair n ∧ b.cmd = c ∧ b.begun = false) := by
  intro a
  have fetched := KeepsMail.sqFetch s n.val
  rw [fetch] at fetched
  have kept : KeepsMail s u.settleQuota := fetched.trans (KeepsMail.settleQuota u)
  have run := exec_commandAccept h fetch quota governor
  generalize u.settleQuota = v at *
  have number : (s.taken v n.val).mbx.nextId = s.mbx.nextId := by
    rw [State.taken_mbx]
    exact (congrArg Mailboxes.nextId kept.mbx : v.mbx.nextId = s.mbx.nextId)
  have mail : ∀ g ∈ [F.MBX_STATE_STATE, F.MBX_STATE_EXP_SEQ], (s.taken v n.val).getN g n.val = s.getN g n.val := fun g hg => by
    have apart : F.MBX_PTRS_HEAD.id ≠ g.id ∧ F.MBX_STATE_INFLIGHT.id ≠ g.id ∧ F.MBX_PTRS_LIMIT.id ≠ g.id := by
      revert g
      decide
    refine (State.taken_getN s v n.val apart.1 apart.2.1 apart.2.2 n.val).trans (kept.reg g ?_ n.val)
    simp only [mailFields, completeFields, List.mem_cons] at hg ⊢
    tauto
  have seq : (s.taken v n.val).expSeq (.pair n) = s.getN F.MBX_STATE_EXP_SEQ n.val := mail _ (by simp)
  have numbers := SameNumbers.acceptCmd (s.taken v n.val) (.pair n) c fun k hk => by
    obtain rfl : n = k := Mailbox.pair.inj hk
    rw [mail _ (by simp), h.active]
    decide
  refine Answers.of_run run ⟨?_, ?_, ?_, ?_, fun other => ?_, fun expected passed => ?_⟩
  · rw [State.settle_mbx]
    refine (congrArg Mailboxes.lastPair numbers.counts).trans ((State.noted_lastPair _ _ _).trans ?_)
    rw [State.taken_mbx]
  · rw [State.settle_mbx]
    exact (congrArg Mailboxes.nextId numbers.counts).trans ((State.noted_nextId _ _ _).trans (by rw [number]))
  · rw [State.settle_getN_mail _ _ (by simp [mailFields, completeFields]), numbers.pointer _ (by simp [pointerFields]),
      State.noted_getN _ _ _ (by decide), State.taken_head]
  · rw [State.settle_getN_mail _ _ (by simp [mailFields, completeFields]), numbers.pointer _ (by simp [pointerFields])]
    exact State.getN_setN_self _ F.MBX_STATE_EXP_SEQ n.val _
  · rw [State.acceptCmd_badSequence (by rwa [seq]), seq]
    have ended := ((s.taken v n.val).noted_completed (.pair n) c s CC.badSequence (s.getN F.MBX_STATE_EXP_SEQ n.val)).of_rings
      (fun k => (State.taken_cqStopped s v n.val k).trans (kept.rings.cqStopped k))
      (fun k => (State.taken_cqUnreachable s v n.val k).trans (kept.rings.cqUnreachable k))
    rwa [number] at ended ⊢
  · have waits := State.acceptCmd_waits (by rwa [seq]) ((State.checkCmd_taken s v n c).trans passed)
    rw [State.settle_mbx]
    rwa [number] at waits

end Accept

theorem invalidOpcode_ends {m : Mailbox} {s : State} {a : Accepted}
    (unknown : s.mbx.accepted.find? (fun a => a.mb == m && !knownOpcodes.contains (cmdOpcode a.cmd)) = some a) :
    Ends (.invalidOpcode m) s s a CC.invalidOpcode 0 := by
  refine Ends.of_run (show execInvalidOpcode m s = _ from ?_)
  rw [execInvalidOpcode, unknown]

/-! ### A spill record that is lost (R262) -/

theorem State.sticky_of_getN {s t : State} {k : Nat}
    (h : t.getN F.FLT_STICKY_STICKY (k / 64) = s.getN F.FLT_STICKY_STICKY (k / 64)) : t.sticky k = s.sticky k := by
  rw [State.sticky, h, State.sticky]

/-- Completing a command ends no source's sticky bit: a ring out of reach raises one more source (R113). -/
theorem State.sticky_complete_mono {s : State} {k : Nat} (hk : k < 256) (h : s.sticky k = true) (a : Accepted) (code r : Nat) :
    (s.complete a code r).sticky k = true := by
  have apart : F.FLT_STICKY_STICKY.outside completeFields := by unfold Field.outside; decide
  have drained : ∀ (t : State) (n : Nat), (t.finishDrain n).sticky k = t.sticky k := fun t n =>
    State.sticky_of_getN (t.finishDrain_getN n apart _)
  unfold State.complete
  split
  · rwa [State.sticky_of_getN (State.admComplete_getN _ _ _ _ _ apart _)]
  · unfold State.pairComplete
    split_ifs
    · rwa [drained, State.sticky_of_getN (State.dropInflight_getN _ _ apart _)]
    · rw [State.cqFails, drained, State.sticky_of_getN (State.dropAll_getN _ _ _ apart _)]
      refine (State.sticky_congr (State.emptyHeld_regs _ _) k).trans ?_
      unfold State.pairError
      split
      · refine State.sticky_raise_mono hk (by decide) ?_ _ _
        rw [State.enterError, State.sticky_setN _ (by decide), State.sticky_setN _ (by decide)]
        exact h
      · exact h
    · exact h
    · rwa [drained, State.sticky_of_getN (State.writeCpl_getN _ _ _ apart _)]

theorem State.onCmd_lost {s : State} {m : Mailbox} {p : Line → Bool} {a : Accepted} {n : Nat} (next : s.nextCmd m p = some a)
    (kept : a.record = some n) (lost : s.checkRecord n ≠ 0) (k : Accepted → State) :
    s.onCmd m p k = s.recordLost a (s.checkRecord n) := by
  simp only [State.onCmd, next, State.recalled, kept, if_neg lost]

theorem identify_lost {m : Mailbox} {s : State} {a : Accepted} {n : Nat} (next : s.nextCmd m (isOp Op.identify) = some a)
    (kept : a.record = some n) (lost : s.checkRecord n ≠ 0) : Answers (.identify m) s fun t =>
      Completed s a CC.internalError 43 t ∧ (s.pwr.hold = true → t.sticky 43 = true) := by
  refine Answers.of_run (congrArg (done s) (State.onCmd_lost next kept lost _)) ⟨?_, fun hold => ?_⟩
  · exact (SameRings.raise s 43 0 _).completed s a CC.internalError 43
  · rw [State.sticky_settle]
    exact State.sticky_complete_mono (by decide) (State.sticky_raise s hold (n := 43) rfl 0 _) a _ _

/-- Settles O14: the ends of a fetch at HEAD and of an acceptance, a command with an unknown opcode, and one whose spill record is
lost. -/
theorem acceptanceAndItsFailures : Obligations.AcceptanceAndItsFailures :=
  ⟨fun _ _ up firmware runs linked offers turn =>
      have may : State.mayAccept _ _ := ⟨up, firmware, runs, linked, offers, turn⟩
      ⟨fun _ _ fetch f => commandAccept_parks may fetch f,
        fun _ _ _ fetch f => commandAccept_stops may fetch f,
        fun _ _ fetch => ⟨commandAccept_fails may fetch,
          fun _ held => commandAccept_holds may fetch held,
          fun _ quota governor => commandAccept_accepts may fetch quota governor⟩⟩,
    fun _ _ _ unknown => invalidOpcode_ends unknown,
    fun _ _ _ _ next kept lost => identify_lost next kept lost⟩

end Sys2Proof.Machine

namespace Sys2Proof.Machine

/-! ### Completions that wait (R94, R95) -/

section Held

variable {n : Fin 64} {s u : State} {c : Cpl} {rest : List Cpl}

/-- The oldest completion held is written, and the others are still held. -/
def State.writeHeld (s : State) (n : Nat) (c : Cpl) (rest : List Cpl) : State :=
  ((s.setPair n { s.pair n with held := rest, waits := [] }).writeCpl n c).finishDrain n

/-- A completion is held for a ring with room, while the link takes writes. -/
structure State.mayWrite (s : State) (n : Fin 64) (c : Cpl) (rest : List Cpl) : Prop where
  held : (s.pair n.val).held = c :: rest
  room : s.cqFull n.val = false
  linked : s.linkClosed = false

/-- The access to the next entry of a pair's completion ring. -/
abbrev State.reachCq (s : State) (n : Nat) : State × Dma (List Nat) :=
  s.hostReach (s.getN F.MBX_STATE_CTX n) (s.cqAddr n) 16 true

theorem heldCompletionWrite_parks (may : s.mayWrite n c rest) {q : PageWait} (reach : s.reachCq n.val = (u, .park q)) (w : Bool) :
    Runs (.heldCompletionWrite n w) s (u.setPair n.val { u.pair n.val with waits := [q] }) := by
  obtain ⟨held, room, linked⟩ := may
  show execHeldCompletionWrite n w s = _
  simp only [execHeldCompletionWrite, held, room, linked, reach]
  rfl

theorem heldCompletionWrite_fails (may : s.mayWrite n c rest) {frames : List Nat} (reach : s.reachCq n.val = (u, .ok frames)) :
    Runs (.heldCompletionWrite n false) s (u.cqFails n.val) := by
  obtain ⟨held, room, linked⟩ := may
  show execHeldCompletionWrite n false s = _
  simp only [execHeldCompletionWrite, held, room, linked, reach]
  rfl

theorem exec_heldCompletionWrite (may : s.mayWrite n c rest) {frames : List Nat} (reach : s.reachCq n.val = (u, .ok frames)) :
    exec (.heldCompletionWrite n true) s = done s (u.writeHeld n.val c rest) := by
  obtain ⟨held, room, linked⟩ := may
  show execHeldCompletionWrite n true s = _
  simp only [execHeldCompletionWrite, held, room, linked, reach]
  rfl

theorem heldCompletionWrite_sends (may : s.mayWrite n c rest) {frames : List Nat} (reach : s.reachCq n.val = (u, .ok frames)) :
    Answers (.heldCompletionWrite n true) s fun t =>
      t.sentCpl n.val c.seq c.status c.result ∧ Frame u t [.mbx] completeFields := by
  obtain ⟨i, via, addr, flags, head, limit, sent⟩ :=
    State.writeCpl_sent (u.setPair n.val { u.pair n.val with held := rest, waits := [] }) n.val c
  refine Answers.of_run (exec_heldCompletionWrite may reach) ⟨⟨i, via, addr, flags, head, limit, ?_⟩, Frame.done s ?_⟩
  · exact State.settle_out_mono _ _ (State.finishDrain_out_mono _ _ sent)
  · exact ((Frame.setPair u _ _ (by simp) _).trans (Frame.writeCpl (by simp) (fun _ h => h) _ _ _)).trans
      (Frame.finishDrain (by simp) (fun _ h => h) _ _)

theorem heldCompletionWrite_none (none_ : (s.pair n.val).held = []) (w : Bool) :
    Answers (.heldCompletionWrite n w) s fun t => Frame s t [] [] := by
  refine Answers.of_idle (show execHeldCompletionWrite n w s = _ from ?_)
  simp only [execHeldCompletionWrite, none_]

end Held

/-- The vector of a pair is one that can be sent (R79). -/
theorem pairVector_sendable (n : Fin 64) : ¬ (5 ≤ 8 + n.val ∧ 8 + n.val ≤ 7 ∨ 256 ≤ 8 + n.val) := by
  have := n.isLt
  omega

theorem coalesceTimerExpiry_fires {n : Fin 64} {s : State} {first : Nat} (gathering : (s.pair n.val).firstAt = some first)
    (due : first + 1000 * (s.pair n.val).coalTime ≤ s.now) : Answers (.coalesceTimerExpiry n) s fun t =>
      t.pair n.val = { s.pair n.val with unsignalled := 0, firstAt := none } ∧
      (s.groupUp .ln = true → (s.msixEntry (8 + n.val)).masked = false → Output.msix (8 + n.val) ∈ t.out) ∧
      Frame s t [.mbx] [] := by
  have run : exec (.coalesceTimerExpiry n) s = done s (s.firePair n.val) := by
    show execCoalesceTimerExpiry n s = _
    simp only [execCoalesceTimerExpiry, gathering, if_pos due]
  refine Answers.of_run run ⟨?_, fun up unmasked => ?_, Frame.done s ((Frame.setPair s _ _ (by simp) _).trans
    (Frame.signal _ _ _ _))⟩
  · rw [State.pair_congr (State.settle_mbx _ _), State.firePair, State.pair_congr (State.signal_mbx _ _), State.pair_setPair]
  · refine State.settle_out_mono _ _ ?_
    rw [State.firePair, State.signal_sent (s.setPair n.val _) _ (pairVector_sendable n) up unmasked]
    exact List.mem_cons_self ..

/-- Settles O15: a held completion that is sent, waits or fails, a pair that holds none, and the coalescing timer. -/
theorem completionsThatWait : Obligations.CompletionsThatWait :=
  ⟨fun _ _ _ _ held room linked =>
      ⟨fun _ _ reach => ⟨heldCompletionWrite_fails ⟨held, room, linked⟩ reach,
          heldCompletionWrite_sends ⟨held, room, linked⟩ reach⟩,
        fun _ _ reach w => heldCompletionWrite_parks ⟨held, room, linked⟩ reach w⟩,
    fun _ w _ none_ => heldCompletionWrite_none none_ w,
    fun _ _ _ gathering due => coalesceTimerExpiry_fires gathering due⟩

end Sys2Proof.Machine

namespace Sys2Proof.Machine

/-! ### Identity and firmware update (R110, R111) -/

section Firmware

variable {m : Mailbox} {s v : State} {a : Accepted}

theorem identify_delivers (begins : s.begins m (isOp Op.identify) a) :
    Delivers (.identify m) s a (s.identityBytes ++ List.replicate 3968 0#8) :=
  Delivers.of_run (congrArg (done s) (State.onCmd_of_begins begins _))

theorem exec_fwDownload {x : Transfer} {b : List Byte} (begins : s.begins m (isOp Op.fwDownload) a)
    (data : s.brings a (cmdLen a.cmd) x v b) : exec (.fwDownload m x) s =
      done s ((v.dmaWrite (v.stagingArea + cmdArg a.cmd 0) b).complete a CC.ok 0) :=
  congrArg (done s) ((State.onCmd_of_begins begins _).trans (State.withInput_of_brings data _))

theorem fwDownload_stages {x : Transfer} {b : List Byte} (begins : s.begins m (isOp Op.fwDownload) a)
    (data : s.brings a (cmdLen a.cmd) x v b) : Answers (.fwDownload m x) s fun t =>
      t.dram.cells = (v.dmaWrite (v.stagingArea + cmdArg a.cmd 0) b).dram.cells ∧ Completed v a CC.ok 0 t :=
  Answers.of_run (exec_fwDownload begins data)
    ⟨by simp, (KeepsMail.dmaWrite v _ b).rings.completed s a CC.ok 0⟩

theorem exec_fwCommit (begins : s.begins m (isOp Op.fwCommit) a) (r : Word) : exec (.fwCommit m (.valid r)) s =
    done s ((s.commitFirmware r.toNat (cmdArg a.cmd 0)).complete a CC.ok 0) :=
  congrArg (done s) (State.onCmd_of_begins begins _)

theorem Frame.commitFirmware (s : State) (release len : Nat) {ps : List Part} (hm : .mbx ∈ ps) (fs : List Field) :
    Frame s (s.commitFirmware release len) (.flash :: ps) fs := by
  refine ⟨rfl, rfl, fun p hp => ?_, fun _ _ _ => rfl⟩
  cases p with
  | flash => exact absurd (List.mem_cons_self ..) hp
  | mbx => exact absurd (List.mem_cons_of_mem _ hm) hp
  | _ => rfl

theorem fwCommit_commits (begins : s.begins m (isOp Op.fwCommit) a) (r : Word) :
    Answers (.fwCommit m (.valid r)) s fun t =>
      t.flash = { s.flash with
        firmware1 := ⟨r.toNat, s.staged (cmdArg a.cmd 0)⟩, firmware2 := ⟨r.toNat, s.staged (cmdArg a.cmd 0)⟩ } ∧
      t.mbx.committed = r.toNat ∧ Completed s a CC.ok 0 t ∧ Frame s t (.flash :: cplParts s a) (cplFields s a) := by
  have rings := SameRings.refl (s.commitFirmware r.toNat (cmdArg a.cmd 0))
  refine Answers.of_run (exec_fwCommit begins r) ⟨?_, ?_, ?_, Frame.done s ?_⟩
  · rw [State.settle_flash, State.complete_flash]
    rfl
  · rw [State.settle_mbx]
    exact congrArg Mailboxes.committed (State.complete_counts _ a CC.ok 0)
  · exact (rings.completed s a CC.ok 0).of_rings (fun _ => rfl) fun _ => rfl
  · exact (Frame.commitFirmware s _ _ (mbx_mem_cplParts s a) _).trans ((Frame.complete _ a CC.ok 0).mono
      (fun _ h => List.mem_cons_of_mem _ h) fun _ h => h)

end Firmware

/-- Settles O16: the identity that is delivered, a chunk that is staged, and a commit of a valid image and of one that is not. -/
theorem identityAndFirmwareUpdate : Obligations.IdentityAndFirmwareUpdate :=
  ⟨fun _ _ _ begins => identify_delivers begins,
    fun _ _ _ _ begins _ _ data => ⟨exec_fwDownload begins data, fwDownload_stages begins data⟩,
    fun _ _ _ begins => ⟨fwCommit_commits begins,
      fun _ => Ends.of_run (congrArg (done _) (State.onCmd_of_begins begins _)),
      fun _ => Ends.of_run (congrArg (done _) (State.onCmd_of_begins begins _))⟩⟩

end Sys2Proof.Machine

namespace Sys2Proof.Machine

/-! ### The option area (R411, R413) -/

section Options

variable {m : Mailbox} {s v : State} {a : Accepted}

theorem optionRead_delivers (begins : s.begins m (isOp Op.optionRead) a) {r : List Byte}
    (newest : s.optionNewest (cmdArg a.cmd 0) 0 = some r) : Delivers (.optionRead m .ok) s a r := by
  refine Delivers.of_run ((congrArg (done s) (State.onCmd_of_begins begins _)).trans ?_)
  simp only [newest]

theorem optionRead_fails (begins : s.begins m (isOp Op.optionRead) a) (c : Dword) :
    Ends (.optionRead m (.failed c)) s s a CC.flashError c.toNat :=
  Ends.of_run (congrArg (done s) (State.onCmd_of_begins begins _))

/-- From `s` to `t` nothing changed but the flash, and the free values that were taken. -/
def FlashWork (s t : State) : Prop := ∃ (f : Flash) (k : Nat), t = { s with flash := f, freeCtr := k }

namespace FlashWork

variable {s t u : State}

theorem refl (s : State) : FlashWork s s := ⟨s.flash, s.freeCtr, rfl⟩

theorem trans (h : FlashWork s t) (k : FlashWork t u) : FlashWork s u := by
  obtain ⟨f, m, rfl⟩ := h
  obtain ⟨g, n, rfl⟩ := k
  exact ⟨g, n, rfl⟩

theorem writeJournalPage (s : State) (es : List JournalEntry) : FlashWork s (s.writeJournalPage es) := by
  unfold State.writeJournalPage
  dsimp only
  split
  · exact ⟨_, s.fresh.2.freeCtr, rfl⟩
  · exact ⟨_, s.freeCtr, rfl⟩

theorem writeJournal (n : Nat) (es : List JournalEntry) (s : State) : FlashWork s (s.writeJournal n es) := by
  induction n generalizing s es with
  | zero => exact refl s
  | succ n ih =>
    unfold State.writeJournal
    split
    · exact refl s
    · exact (writeJournalPage s _).trans (ih _ _)

theorem eraseOption (s : State) (die b : Nat) : FlashWork s (s.eraseOption die b) := by
  have noted : ∀ es, FlashWork s (s.journal es) := fun es =>
    FlashWork.trans (t := { s with flash := { s.flash with waitingDone := [] } }) ⟨_, s.freeCtr, rfl⟩ (writeJournal _ _ _)
  exact (noted _).trans ⟨_, _, rfl⟩

theorem programOption (s : State) (copy : Nat) (r : List Byte) : FlashWork s (s.programOption copy r) := by
  unfold State.programOption
  dsimp only
  refine FlashWork.trans ?_ ⟨_, _, rfl⟩
  split
  · exact eraseOption s _ _
  · exact refl s

theorem rings (h : FlashWork s t) : SameRings s t := by
  obtain ⟨f, k, rfl⟩ := h
  exact SameRings.of_regs rfl rfl

theorem frame (h : FlashWork s t) {ps : List Part} (hp : .flash ∈ ps) (fs : List Field) : Frame s t ps fs := by
  obtain ⟨f, k, rfl⟩ := h
  refine ⟨rfl, rfl, fun p np => ?_, fun _ _ _ => rfl⟩
  cases p with
  | flash => exact absurd hp np
  | _ => rfl

end FlashWork

/-- A record is durable in both copies, and a capacitance measured before counts no longer (R348). -/
def State.sealed (s : State) (r : List Byte) : State :=
  ((s.programOption 0 r).programOption 1 r).set F.BANK_STATUS_MEAS_VALID 0

theorem FlashWork.sealing (s : State) (r : List Byte) : FlashWork s ((s.programOption 0 r).programOption 1 r) :=
  (FlashWork.programOption s 0 r).trans (FlashWork.programOption _ 1 r)

theorem SameRings.sealed (s : State) (r : List Byte) : SameRings s (s.sealed r) :=
  (FlashWork.sealing s r).rings.trans (SameRings.set _ (by decide) 0)

theorem optionWrite_seals {c : Instr} {b : List Byte}
    (run : exec c s = done s ((v.sealed (v.sealRecord b)).complete a CC.ok 0)) : Answers c s fun t =>
      t.flash = ((v.programOption 0 (v.sealRecord b)).programOption 1 (v.sealRecord b)).flash ∧
      t.get F.BANK_STATUS_MEAS_VALID = 0 ∧ Completed v a CC.ok 0 t ∧
      Frame v t (.flash :: cplParts v a) (F.BANK_STATUS_MEAS_VALID :: cplFields v a) := by
  have rings := SameRings.sealed v (v.sealRecord b)
  refine Answers.of_run run ⟨?_, ?_, rings.completed s a CC.ok 0, Frame.done s ?_⟩
  · rw [State.settle_flash, State.complete_flash, State.sealed, State.set_flash]
  · rw [State.get, State.settle_getN _ _ (by unfold Field.outside; decide),
      State.complete_getN _ _ _ _ (by unfold Field.outside; decide) (by unfold Field.outside; decide)]
    exact State.get_set_self _ _ _
  · exact (((FlashWork.sealing v _).frame (by simp) _).trans (Frame.set _ _ 0 (by simp))).trans ((rings.frame_complete a CC.ok 0).mono (fun _ h => List.mem_cons_of_mem _ h)
        fun _ h => List.mem_cons_of_mem _ h)

theorem optionWrite_reads (begins : s.begins m (isOp Op.optionWrite) a) (x : Transfer) (f : FlashResult) :
    ReadsDeclared (.optionWrite m x f) s s a 64 (fun h => leField h 6 2) x fun w b =>
      (optionFaults b = [] → f = .ok → Answers (.optionWrite m x f) s fun t =>
        t.flash = ((w.programOption 0 (w.sealRecord b)).programOption 1 (w.sealRecord b)).flash ∧
        t.get F.BANK_STATUS_MEAS_VALID = 0 ∧ Completed w a CC.ok 0 t ∧
        Frame w t (.flash :: cplParts w a) (F.BANK_STATUS_MEAS_VALID :: cplFields w a)) ∧
      ∀ (o : Nat) (os : List Nat), optionFaults b = o :: os → Ends (.optionWrite m x f) s w a CC.imageInvalid (os.foldl min o) := by
  refine ReadsDeclared.of_run (congrArg (done s) (State.onCmd_of_begins begins _)) fun w b run =>
    ⟨fun sound ok => optionWrite_seals ?_, fun o os faults => Ends.of_run ?_⟩
  · subst ok
    simp only [sound] at run
    exact run
  · simp only [faults] at run
    exact run

end Options

/-- Settles O18: a copy that is read, a flash access that fails, and a record that is sealed or names its first fault. -/
theorem optionAreaCommands : Obligations.OptionAreaCommands :=
  ⟨fun _ _ _ begins => ⟨fun _ newest => optionRead_delivers begins newest, fun c => optionRead_fails begins c⟩,
    fun _ _ _ x begins f => optionWrite_reads begins x f⟩

end Sys2Proof.Machine

namespace Sys2Proof.Machine

/-! ### Commands on the admin mailbox -/

/-- Where an admin command completes is the same in every state. -/
theorem Completed.of_admin {u s t : State} {a : Accepted} (admin : a.mb = .admin) {code r : Nat} (h : Completed s a code r t) :
    Completed u a code r t := by
  obtain ⟨forgotten, completion⟩ := h
  refine ⟨forgotten, ?_⟩
  rw [admin] at completion ⊢
  exact completion

theorem State.complete_admin_pair (s : State) {a : Accepted} (admin : a.mb = .admin) (code r n : Nat) :
    (s.complete a code r).pair n = s.pair n := by
  simp only [State.complete, admin]
  exact State.pair_congr (s := State.admComplete _ _ _ _ _) (State.admComplete_mbx _ _ _ _ _) n

theorem Frame.complete_admin (s : State) {a : Accepted} (admin : a.mb = .admin) (code r : Nat) :
    Frame s (s.complete a code r) [.mbx] completeFields := by
  have h := Frame.complete s a code r
  rwa [cplParts_admin s admin, cplFields_admin s admin] at h

theorem Frame.update (s : State) (a : Accepted) {ps : List Part} (h : .mbx ∈ ps) (fs : List Field) :
    Frame s (s.update a) ps fs := Frame.ofMbx (s := s) (t := s.update a) rfl (by cases s; rfl) h fs

/-! ### Several fields of one pair -/

/-- Writes fields of the register number `n`. -/
def State.setEach (s : State) (n : Nat) (l : List (Field × Nat)) : State := l.foldl (fun s x => s.setN x.1 n x.2) s

theorem State.setEach_mbx (s : State) (n : Nat) (l : List (Field × Nat)) : (s.setEach n l).mbx = s.mbx :=
  State.foldl_keeps State.mbx (fun u (x : Field × Nat) => u.setN x.1 n x.2) l (fun _ _ => by simp) s

theorem State.setEach_getN_apart (n : Nat) (l : List (Field × Nat)) {g : Field} (m : Nat) (s : State)
    (h : ∀ f ∈ l.map Prod.fst, f.id ≠ g.id) : (s.setEach n l).getN g m = s.getN g m := by
  induction l generalizing s with
  | nil => rfl
  | cons x l ih =>
    exact (ih _ fun f hf => h f (List.mem_cons_of_mem _ hf)).trans (State.getN_setN_of_id s (h x.1 (List.mem_cons_self ..)) _ _ _)

/-- Each of several different fields reads back as written. -/
theorem State.setEach_getN (n : Nat) (l : List (Field × Nat)) (s : State)
    (apart : (l.map Prod.fst).Pairwise fun f g => f.id ≠ g.id) {f : Field} {v : Nat} (h : (f, v) ∈ l) :
    (s.setEach n l).getN f n = v % 2 ^ f.width := by
  induction l generalizing s with
  | nil => simp at h
  | cons x l ih =>
    obtain ⟨first, rest⟩ := List.pairwise_cons.1 apart
    rcases List.mem_cons.1 h with rfl | later
    · exact (State.setEach_getN_apart n l n _ fun g hg => (first g hg).symm).trans (State.getN_setN_self s f n v)
    · exact ih _ rest later

theorem Frame.setEach (n : Nat) (l : List (Field × Nat)) (s : State) (ps : List Part) {fs : List Field}
    (h : ∀ f ∈ l.map Prod.fst, f ∈ fs) : Frame s (s.setEach n l) ps fs :=
  Frame.foldl _ _ (fun x hx t => Frame.setN t _ _ _ (h x.1 (List.mem_map_of_mem hx))) s

/-! ### CREATE_PAIR (R109, R113) -/

/-- What a pair's registers become as it is made. -/
def PairArgs.fields (p : PairArgs) : List (Field × Nat) :=
  [(F.MBX_PTRS_HEAD, 0), (F.MBX_PTRS_TAIL, 0), (F.MBX_PTRS_CQ_TAIL, 0), (F.MBX_STATE_EXP_SEQ, 0),
    (F.MBX_STATE_INFLIGHT, 0), (F.MBX_STATE_WINDOW, p.window), (F.MBX_STATE_CLASS, p.cls), (F.MBX_STATE_CTX, p.ctx),
    (F.MBX_STATE_ERR_CAUSE, 0), (F.MBX_STATE_STATE, Mbx.active)]

theorem PairArgs.fields_apart (p : PairArgs) : (p.fields.map Prod.fst).Pairwise fun f g => f.id ≠ g.id := by
  show List.Pairwise _ [F.MBX_PTRS_HEAD, F.MBX_PTRS_TAIL, F.MBX_PTRS_CQ_TAIL, F.MBX_STATE_EXP_SEQ, F.MBX_STATE_INFLIGHT,
    F.MBX_STATE_WINDOW, F.MBX_STATE_CLASS, F.MBX_STATE_CTX, F.MBX_STATE_ERR_CAUSE, F.MBX_STATE_STATE]
  decide

/-- The hidden part of a pair that has just been made. -/
def Pair.made (c : Line) : Pair := { Pair.blank with
  sqBase := cmdArg c 0, cqBase := cmdArg c 1, sqLog := (pairArgs c).sqLog, cqLog := (pairArgs c).cqLog,
  coalCount := (pairArgs c).coalCount, coalTime := (pairArgs c).coalTime }

theorem State.makePair_eq (s : State) (c : Line) : s.makePair c =
    ((s.setPair (pairArgs c).number (Pair.made c)).setEach (pairArgs c).number (pairArgs c).fields).advanceLimit
      (pairArgs c).number := rfl

theorem State.makePair_getN (s : State) (c : Line) {f : Field} {v : Nat} (h : (f, v) ∈ (pairArgs c).fields)
    (hl : F.MBX_PTRS_LIMIT.id ≠ f.id) : (s.makePair c).getN f (pairArgs c).number = v % 2 ^ f.width := by
  rw [State.makePair_eq, State.advanceLimit, State.getN_setN_of_id _ hl]
  exact State.setEach_getN _ _ _ (pairArgs c).fields_apart h

theorem State.makePair_pair (s : State) (c : Line) : (s.makePair c).pair (pairArgs c).number = Pair.made c := by
  rw [State.makePair_eq, State.advanceLimit, State.pair_congr (State.setN_mbx _ _ _ _), State.pair_congr (State.setEach_mbx _ _ _),
    State.pair_setPair]

theorem Frame.makePair (s : State) (c : Line) : Frame s (s.makePair c) [.mbx] completeFields := by
  have own : ∀ f ∈ (pairArgs c).fields.map Prod.fst, f ∈ completeFields := by
    simp only [PairArgs.fields, List.map, completeFields, List.mem_cons]
    tauto
  rw [State.makePair_eq, State.advanceLimit]
  exact ((Frame.setPair s _ _ (by simp) _).trans (Frame.setEach _ _ _ _ own)).trans (Frame.setN _ _ _ _ (by simp [completeFields]))

section Create

variable {m : Mailbox} {s : State} {a : Accepted}

theorem exec_createPair (begins : s.begins m (isOp Op.createPair) a) (enabled : s.ctxEnabled (pairArgs a.cmd).ctx = true)
    (disabled : s.getN F.MBX_STATE_STATE (pairArgs a.cmd).number = Mbx.disabled)
    (fits : s.windowSum + (pairArgs a.cmd).window ≤ 16384) :
    exec (.createPair m) s = done s ((s.makePair a.cmd).complete a CC.ok 0) := by
  refine congrArg (done s) ((State.onCmd_of_begins begins _).trans ?_)
  simp only [enabled, disabled, Bool.not_true, Bool.false_eq_true, if_false, ne_eq, not_true, if_neg (not_lt.2 fits)]

theorem createPair_makes (begins : s.begins m (isOp Op.createPair) a) (enabled : s.ctxEnabled (pairArgs a.cmd).ctx = true)
    (disabled : s.getN F.MBX_STATE_STATE (pairArgs a.cmd).number = Mbx.disabled)
    (fits : s.windowSum + (pairArgs a.cmd).window ≤ 16384) (admin : a.mb = .admin) :
    let p := pairArgs a.cmd
    Answers (.createPair m) s fun t =>
      t.getN F.MBX_STATE_STATE p.number = Mbx.active ∧ t.getN F.MBX_STATE_CLASS p.number = p.cls ∧
      t.getN F.MBX_STATE_CTX p.number = p.ctx ∧ t.getN F.MBX_PTRS_HEAD p.number = 0 ∧
      t.getN F.MBX_PTRS_TAIL p.number = 0 ∧ (t.pair p.number).sqBase = cmdArg a.cmd 0 ∧
      (t.pair p.number).cqBase = cmdArg a.cmd 1 ∧ (t.pair p.number).sqLog = p.sqLog ∧
      (t.pair p.number).cqLog = p.cqLog ∧ (t.pair p.number).phase = true ∧ Completed s a CC.ok 0 t ∧
      Frame s t [.mbx] completeFields := by
  intro p
  have shown : ∀ {f : Field} {v : Nat}, (f, v) ∈ p.fields → F.MBX_PTRS_LIMIT.id ≠ f.id → (∀ g ∈ admFields, g.id ≠ f.id) →
      f ∈ mailFields → (State.settle s ((s.makePair a.cmd).complete a CC.ok 0)).getN f p.number = v % 2 ^ f.width :=
    fun written limit adm mail => by
      rw [State.settle_getN_mail _ _ mail, State.complete_admin_getN _ admin _ _ adm]
      exact State.makePair_getN s a.cmd written limit
  have pair : (State.settle s ((s.makePair a.cmd).complete a CC.ok 0)).pair p.number = Pair.made a.cmd := by
    rw [State.pair_congr (State.settle_mbx _ _), State.complete_admin_pair _ admin]
    exact State.makePair_pair s a.cmd
  have cls : p.cls % 2 ^ 2 = p.cls := Nat.mod_mod _ _
  have ctx : p.ctx % 2 ^ 8 = p.ctx := Nat.mod_mod _ _
  refine Answers.of_run (exec_createPair begins enabled disabled fits) ⟨?_, ?_, ?_, ?_, ?_, ?_⟩
  · exact shown (v := Mbx.active) (by simp [PairArgs.fields]) (by decide) (by decide) (by simp [mailFields, completeFields])
  · exact (shown (v := p.cls) (by simp [PairArgs.fields]) (by decide) (by decide) (by simp [mailFields, completeFields])).trans cls
  · exact (shown (v := p.ctx) (by simp [PairArgs.fields]) (by decide) (by decide) (by simp [mailFields, completeFields])).trans ctx
  · exact shown (v := 0) (by simp [PairArgs.fields]) (by decide) (by decide) (by simp [mailFields, completeFields])
  · exact shown (v := 0) (by simp [PairArgs.fields]) (by decide) (by decide) (by simp [mailFields, completeFields])
  · rw [pair]
    exact ⟨rfl, rfl, rfl, rfl, rfl, ((SameRings.refl (s.makePair a.cmd)).completed s a CC.ok 0).of_admin admin,
      Frame.done s ((Frame.makePair s a.cmd).trans (Frame.complete_admin _ admin _ _))⟩

theorem createPair_conflicts (begins : s.begins m (isOp Op.createPair) a) (enabled : s.ctxEnabled (pairArgs a.cmd).ctx = true)
    (stands : s.getN F.MBX_STATE_STATE (pairArgs a.cmd).number ≠ Mbx.disabled) :
    Ends (.createPair m) s s a CC.stateConflict 0 := by
  refine Ends.of_run (congrArg (done s) ((State.onCmd_of_begins begins _).trans ?_))
  simp only [enabled, Bool.not_true, Bool.false_eq_true, if_false, if_pos stands]

theorem createPair_exceeds (begins : s.begins m (isOp Op.createPair) a) (enabled : s.ctxEnabled (pairArgs a.cmd).ctx = true)
    (disabled : s.getN F.MBX_STATE_STATE (pairArgs a.cmd).number = Mbx.disabled)
    (large : 16384 < s.windowSum + (pairArgs a.cmd).window) : Ends (.createPair m) s s a CC.resourceLimit 0 := by
  refine Ends.of_run (congrArg (done s) ((State.onCmd_of_begins begins _).trans ?_))
  simp only [enabled, disabled, Bool.not_true, Bool.false_eq_true, if_false, ne_eq, not_true, if_pos large]

end Create

/-! ### DELETE_PAIR (R113) -/

section Delete

variable {m : Mailbox} {s : State} {a : Accepted}

/-- The command that begins next is one of the accepted ones, and of its kind. -/
theorem State.nextCmd_accepted {p : Line → Bool} (next : s.nextCmd m p = some a) : a ∈ s.mbx.accepted ∧ p a.cmd = true := by
  unfold State.nextCmd at next
  split at next
  next b found =>
    obtain rfl := Option.some.inj next
    have fits := List.find?_some found
    simp only [Bool.and_eq_true] at fits
    exact ⟨List.mem_of_find?_eq_some found, fits.2⟩
  next =>
    split at next
    next b found =>
      split at next
      next may =>
        obtain rfl := Option.some.inj next
        simp only [Bool.and_eq_true] at may
        exact ⟨List.mem_of_find?_eq_some found, may.1.1⟩
      next => exact absurd next (by simp)
    next => exact absurd next (by simp)

/-- The pair that a DELETE_PAIR names. -/
def deletedPair (c : Line) : Nat := cmdArg c 0 % 64

/-- A pair in DRAINING, its deletion begun (R113). -/
def State.draining (s : State) (a : Accepted) : State :=
  ((s.begin a).endHold (deletedPair a.cmd)).setN F.MBX_STATE_STATE (deletedPair a.cmd) Mbx.draining

theorem exec_deletePair (begins : s.begins m (isOp Op.deletePair) a)
    (stands : s.getN F.MBX_STATE_STATE (deletedPair a.cmd) = Mbx.active ∨ s.getN F.MBX_STATE_STATE (deletedPair a.cmd) = Mbx.error) :
    exec (.deletePair m) s = done s ((s.draining a).finishDrain (deletedPair a.cmd)) := by
  have other : s.getN F.MBX_STATE_STATE (deletedPair a.cmd) ≠ Mbx.disabled ∧
      s.getN F.MBX_STATE_STATE (deletedPair a.cmd) ≠ Mbx.draining := by
    rcases stands with h | h <;> rw [h] <;> decide
  exact congrArg (done s) ((State.onCmd_of_begins begins _).trans ((if_neg other.1).trans (if_neg other.2)))

theorem State.draining_state (s : State) (a : Accepted) :
    (s.draining a).getN F.MBX_STATE_STATE (deletedPair a.cmd) = Mbx.draining := State.getN_setN_self _ _ _ _

theorem State.draining_inflight (s : State) (a : Accepted) (k : Nat) :
    (s.draining a).getN F.MBX_STATE_INFLIGHT k = s.getN F.MBX_STATE_INFLIGHT k :=
  State.getN_setN_of_id _ (by decide) _ _ k

theorem Frame.draining (s : State) (a : Accepted) {fs : List Field} (h : F.MBX_STATE_STATE ∈ fs) :
    Frame s (s.draining a) [.mbx] fs :=
  ((Frame.update s _ (by simp) _).trans (Frame.setPair _ _ _ (by simp) _)).trans (Frame.setN _ _ _ _ h)

theorem deletePair_drains (begins : s.begins m (isOp Op.deletePair) a)
    (stands : s.getN F.MBX_STATE_STATE (deletedPair a.cmd) = Mbx.active ∨ s.getN F.MBX_STATE_STATE (deletedPair a.cmd) = Mbx.error)
    (busy : s.getN F.MBX_STATE_INFLIGHT (deletedPair a.cmd) ≠ 0) : Answers (.deletePair m) s fun t =>
      t.getN F.MBX_STATE_STATE (deletedPair a.cmd) = Mbx.draining ∧
      t.getN F.MBX_STATE_INFLIGHT (deletedPair a.cmd) = s.getN F.MBX_STATE_INFLIGHT (deletedPair a.cmd) ∧
      Frame s t [.mbx] [F.MBX_STATE_STATE] := by
  have waits : (s.draining a).finishDrain (deletedPair a.cmd) = s.draining a :=
    if_neg fun h => busy ((State.draining_inflight s a _).symm.trans h.2)
  refine Answers.of_run (exec_deletePair begins stands) ?_
  rw [waits, State.settle_getN_mail _ _ (by simp [mailFields, completeFields]),
    State.settle_getN_mail _ _ (by simp [mailFields, completeFields])]
  exact ⟨State.draining_state s a, State.draining_inflight s a _, (Frame.draining s a (by simp)).done s⟩

/-- An accepted command as it is once begun (R100). -/
def Accepted.started (a : Accepted) : Accepted := { a with begun := true, parked := false, waits := [] }

/-- With no other deletion begun, the deletion that has just begun is the one that a drained pair ends. -/
theorem State.begin_deletes (begins : s.begins m (isOp Op.deletePair) a)
    (alone : s.mbx.accepted.any (fun b => b.begun && isOp Op.deletePair b.cmd) = false) :
    (s.begin a).mbx.accepted.find? (fun b => b.begun && cmdOpcode b.cmd == Op.deletePair &&
      cmdArg b.cmd 0 % 64 == deletedPair a.cmd) = some a.started := by
  obtain ⟨accepted, kind⟩ := State.nextCmd_accepted begins.1
  have others : ∀ b ∈ (s.begin a).mbx.accepted, (b.begun && cmdOpcode b.cmd == Op.deletePair &&
      cmdArg b.cmd 0 % 64 == deletedPair a.cmd) = true → b = a.started := fun b hb fits => by
    obtain ⟨c, hc, rfl⟩ := List.mem_map.1 hb
    split at fits
    next same => exact if_pos same
    next =>
      simp only [Bool.and_eq_true] at fits
      rw [List.any_eq_false] at alone
      exact absurd (Bool.and_eq_true_iff.2 fits.1) (alone c hc)
  have here : a.started ∈ (s.begin a).mbx.accepted := List.mem_map.2 ⟨a, accepted, if_pos rfl⟩
  have found : ((s.begin a).mbx.accepted.find? (fun b => b.begun && cmdOpcode b.cmd == Op.deletePair &&
      cmdArg b.cmd 0 % 64 == deletedPair a.cmd)).isSome = true :=
    List.find?_isSome.2 ⟨_, here, by simpa [Accepted.started, deletedPair, isOp] using kind⟩
  obtain ⟨b, hb⟩ := Option.isSome_iff_exists.1 found
  have fits := List.find?_some hb
  rw [hb, others b (List.mem_of_find?_eq_some hb) fits]

/-- A pair whose registers and hidden part are cleared (R113). -/
theorem State.clearPair_state (s : State) (n : Nat) : (s.clearPair n).getN F.MBX_STATE_STATE n = Mbx.disabled :=
  State.getN_setN_self _ F.MBX_STATE_STATE n 0

theorem State.clearPair_pair (s : State) (n : Nat) : (s.clearPair n).pair n = Pair.blank := by
  have cleared : (s.clearPair n).mbx = { s.mbx with pairs := s.mbx.pairs.erase n } :=
    State.foldl_keeps State.mbx (fun u f => u.setN f n 0) _ (fun _ _ => by simp) _
  simp only [State.pair, cleared, Store.getD, Store.get?_erase_self, Option.getD_none]

theorem deletePair_deletes (begins : s.begins m (isOp Op.deletePair) a)
    (stands : s.getN F.MBX_STATE_STATE (deletedPair a.cmd) = Mbx.active ∨ s.getN F.MBX_STATE_STATE (deletedPair a.cmd) = Mbx.error)
    (idle : s.getN F.MBX_STATE_INFLIGHT (deletedPair a.cmd) = 0) (admin : a.mb = .admin)
    (alone : s.mbx.accepted.any (fun b => b.begun && isOp Op.deletePair b.cmd) = false) : Answers (.deletePair m) s fun t =>
      t.getN F.MBX_STATE_STATE (deletedPair a.cmd) = Mbx.disabled ∧ t.pair (deletedPair a.cmd) = Pair.blank ∧
      Completed s a CC.ok 0 t ∧ Frame s t [.mbx] completeFields := by
  let w := ((s.draining a).flushFire (deletedPair a.cmd)).clearPair (deletedPair a.cmd)
  have drained : (s.draining a).mbx.accepted = (s.begin a).mbx.accepted := by
    rw [State.draining, State.setN_mbx]
    rfl
  have flushed : ((s.draining a).flushFire (deletedPair a.cmd)).mbx.accepted = (s.begin a).mbx.accepted := by
    unfold State.flushFire
    split
    · exact drained
    · rw [State.firePair_accepted, drained]
  have found : w.mbx.accepted.find? (fun b => b.begun && cmdOpcode b.cmd == Op.deletePair &&
      cmdArg b.cmd 0 % 64 == deletedPair a.cmd) = some a.started := by
    rw [State.clearPair_accepted, flushed]
    exact State.begin_deletes begins alone
  have startedAdmin : a.started.mb = .admin := admin
  have ended : (s.draining a).finishDrain (deletedPair a.cmd) = w.complete a.started CC.ok 0 := by
    rw [State.finishDrain, if_pos ⟨State.draining_state s a, (State.draining_inflight s a _).trans idle⟩]
    show w.endDelete _ = _
    simp only [State.endDelete, found, State.complete, startedAdmin]
  refine Answers.of_run ((exec_deletePair begins stands).trans (congrArg (done s) ended)) ⟨?_, ?_, ?_, Frame.done s ?_⟩
  · rw [State.settle_getN_mail _ _ (by simp [mailFields, completeFields]), State.complete_admin_getN _ startedAdmin _ _ (by decide)]
    exact State.clearPair_state _ _
  · rw [State.pair_congr (State.settle_mbx _ _), State.complete_admin_pair _ startedAdmin]
    exact State.clearPair_pair _ _
  · exact ((SameRings.refl w).completed s a.started CC.ok 0).of_admin startedAdmin
  · rw [← ended]
    exact (Frame.draining s a (by simp [completeFields])).trans (Frame.finishDrain (by simp) (fun _ h => h) _ _)

theorem deletePair_conflicts (begins : s.begins m (isOp Op.deletePair) a)
    (drains : s.getN F.MBX_STATE_STATE (deletedPair a.cmd) = Mbx.draining) :
    Ends (.deletePair m) s s a CC.stateConflict 0 := by
  have stands : s.getN F.MBX_STATE_STATE (deletedPair a.cmd) ≠ Mbx.disabled := drains ▸ by decide
  exact Ends.of_run (congrArg (done s) ((State.onCmd_of_begins begins _).trans ((if_neg stands).trans (if_pos drains))))

theorem deletePair_absent (begins : s.begins m (isOp Op.deletePair) a)
    (absent : s.getN F.MBX_STATE_STATE (deletedPair a.cmd) = Mbx.disabled) :
    Ends (.deletePair m) s s a CC.noSuchObject 0 :=
  Ends.of_run (congrArg (done s) ((State.onCmd_of_begins begins _).trans (if_pos absent)))

end Delete

/-- Settles O19: a pair that is made or may not be, and a pair that drains, is gone, or can not be deleted. -/
theorem pairsAreMadeAndDrained : Obligations.PairsAreMadeAndDrained :=
  ⟨fun _ _ _ begins enabled =>
      ⟨fun disabled fits => ⟨exec_createPair begins enabled disabled fits, createPair_makes begins enabled disabled fits⟩,
        createPair_conflicts begins enabled, createPair_exceeds begins enabled⟩,
    fun _ _ _ begins => ⟨deletePair_drains begins, deletePair_deletes begins, deletePair_conflicts begins,
      deletePair_absent begins⟩⟩

end Sys2Proof.Machine

/-! SUPPORT. What leaving a tiller, tearing a plan down, taking a write back and giving a reservation back leave of the mailboxes. -/

namespace Sys2Proof.Machine

namespace KeepsMail

variable {s t u : State}

theorem withGrn (s : State) (g : Granary) : KeepsMail s { s with grn := g } := of_same rfl rfl rfl rfl fun _ h => h

theorem withCal (s : State) (c : Calendar) : KeepsMail s { s with cal := c } := of_same rfl rfl rfl rfl fun _ h => h

theorem addCount (s : State) {c : Counter} (hc : ∀ g ∈ mailFields, c.count.id ≠ g.id) (hs : ∀ g ∈ mailFields, c.sat.id ≠ g.id)
    (n k : Nat) : KeepsMail s (s.addCount c n k) := by
  unfold State.addCount
  dsimp only
  split
  · exact setN s hc _ _
  · exact KeepsMail.trans (setN s hc _ _) (bumpN _ hc hs _)

/-! ### Reservations (R351) -/

theorem useGrant (s : State) (w : Waiter) : KeepsMail s (s.useGrant w) := withGrn s _

theorem dropWaiter (s : State) (w : Waiter) : KeepsMail s (s.dropWaiter w) := by
  unfold State.dropWaiter
  dsimp only
  split
  · exact KeepsMail.trans (useGrant s w) (withGrn _ _)
  · exact withGrn s _

/-! ### A plan is torn down (R177) -/

theorem leaveTiller (s : State) (k : Task) : KeepsMail s (s.leaveTiller k) := by
  unfold State.leaveTiller
  split
  · exact refl s
  · exact KeepsMail.trans (setTiller s _ _) (addCount _ (by decide) (by decide) _ _)

theorem discard (s : State) (k : Task) : KeepsMail s (s.discard k) := by
  have left := ((traceTask s Ev.discard k k.seq).trans (leaveTiller _ k)).trans (dropWaiter _ (.task k.id))
  unfold State.discard
  dsimp only
  split
  next found => exact (left.trans (mapEng _ rfl)).trans (setPlan found _)
  next => exact left.trans (mapEng _ rfl)

theorem clearPlanCalendar (s : State) (slot : Nat) : KeepsMail s (s.clearPlanCalendar slot) := withCal s _

theorem teardown (s : State) (slot : Nat) (ending : Nat × Nat) : KeepsMail s (s.teardown slot ending) := by
  unfold State.teardown
  split
  · exact refl s
  next found =>
    exact (((setPlan found _).trans (clearPlanCalendar _ slot)).trans (foldl _ _ discard _)).trans (settleQuota _)

theorem setTable (s : State) (a : Attached) : KeepsMail s (s.setTable a) := mapEng s rfl

theorem revertTable (s : State) (saved : Attached) : KeepsMail s (s.revertTable saved) := by
  unfold State.revertTable
  split
  · exact setTable s _
  · exact refl s

theorem dropJobs (s : State) (p : Plan) : KeepsMail s (s.dropJobs p) := by
  unfold State.dropJobs
  exact foldl _ _ (fun t (j : WriteJob) => revertTable t j.saved) s

theorem tearDown (s : State) (slot : Nat) (ending : Nat × Nat) : KeepsMail s (s.tearDown slot ending) := by
  unfold State.tearDown
  split
  · exact refl s
  next p _ => exact (dropJobs s p).trans (teardown _ slot ending)

/-! ### An append ends (R134, R157) -/

theorem undoAppend (s : State) (x : Append) (a : Accepted) : KeepsMail s (s.undoAppend x a) := by
  unfold State.undoAppend
  split
  · split
    · exact refl s
    · exact revertTable s _
  · exact refl s

theorem forgetAppend (s : State) (x : Append) (a : Accepted) : KeepsMail s (s.forgetAppend x a) :=
  (mapEng s rfl).trans (dropWaiter _ _)

end KeepsMail

end Sys2Proof.Machine

namespace Sys2Proof.Machine

/-! ### Commands that end take others with them, and add none -/

theorem State.complete_accepted (s : State) (a : Accepted) (code r : Nat) :
    ∀ b ∈ (s.complete a code r).mbx.accepted, b ∈ s.mbx.accepted := by
  have kept : ∀ b ∈ (s.forget a.id).mbx.accepted, b ∈ s.mbx.accepted := fun b hb => (List.mem_filter.1 hb).1
  intro b hb
  unfold State.complete at hb
  split at hb
  · exact kept b (by simpa using hb)
  · unfold State.pairComplete at hb
    split_ifs at hb
    · exact kept b (by simpa using State.finishDrain_accepted _ _ b hb)
    · have := State.finishDrain_accepted _ _ b hb
      exact kept b (by simpa [State.emptyHeld, State.holdCpl] using this)
    · exact kept b (by simpa [State.holdCpl] using hb)
    · have := State.finishDrain_accepted _ _ b hb
      exact kept b (by simpa [State.writeCpl, State.takeEntry] using this)

/-- The accepted commands of `t` are some of `s`, and none of them is the command `id`. -/
def State.sheds (s : State) (id : Nat) (t : State) : Prop := ∀ b ∈ t.mbx.accepted, b ∈ s.mbx.accepted ∧ b.id ≠ id

theorem KeepsMail.sheds {s u : State} (k : KeepsMail s u) (a : Accepted) (code r : Nat) : s.sheds a.id (u.complete a code r) :=
  fun b hb => ⟨k.mbx ▸ State.complete_accepted u a code r b hb, State.complete_forgets u a code r b hb⟩

theorem State.sheds.kept {s t u : State} {id : Nat} (h : s.sheds id t) (k : KeepsMail t u) : s.sheds id u :=
  fun b hb => h b (k.mbx ▸ hb)

theorem State.abortPlan_sheds (s : State) (a : Accepted) (slot : Nat) : s.sheds a.id (s.abortPlan a slot) := by
  have orphans : ∀ u : State, KeepsMail s u → s.sheds a.id (((match u.plan? slot with
      | some p => u.setPlan slot { p with cmd := none }
      | none => u).complete a CC.aborted 2).planEvent slot 0) := fun u k => by
    refine State.sheds.kept (KeepsMail.sheds ?_ a CC.aborted 2) (KeepsMail.planEvent _ slot 0)
    split
    next found => exact k.trans (KeepsMail.setPlan found _)
    next => exact k
  refine orphans (match s.plan? slot with
    | some p => if p.state = PlanState.running then s.tearDown slot (CC.aborted, 2) else s
    | none => s) ?_
  split
  · split
    · exact KeepsMail.tearDown s slot _
    · exact KeepsMail.refl s
  · exact KeepsMail.refl s

theorem State.abortCmd_sheds (s : State) (a : Accepted) : s.sheds a.id (s.abortCmd a) := by
  unfold State.abortCmd
  split_ifs
  · exact (KeepsMail.dropWaiter s _).sheds a _ _
  · split
    · exact ((KeepsMail.undoAppend s _ a).trans (KeepsMail.forgetAppend _ _ a)).sheds a _ _
    · exact (KeepsMail.refl s).sheds a _ _
  · split
    · exact State.abortPlan_sheds s a _
    · exact (KeepsMail.refl s).sheds a _ _

theorem State.abortAll_sheds (l : List Accepted) (s : State) :
    ∀ b ∈ (l.foldl State.abortCmd s).mbx.accepted, b ∈ s.mbx.accepted ∧ ∀ a ∈ l, b.id ≠ a.id := by
  induction l generalizing s with
  | nil => exact fun b hb => ⟨hb, by simp⟩
  | cons a l ih =>
    intro b hb
    obtain ⟨later, apart⟩ := ih _ b hb
    obtain ⟨here, other⟩ := State.abortCmd_sheds s a b later
    exact ⟨here, List.forall_mem_cons.2 ⟨other, apart⟩⟩

/-- Every command of a pair ends (R112). -/
def State.abortPairs (s : State) : State := (s.mbx.accepted.filter (fun b => b.mb != .admin)).foldl State.abortCmd s

theorem State.abortPairs_admin (s : State) : ∀ b ∈ s.abortPairs.mbx.accepted, b.mb = .admin := by
  intro b hb
  obtain ⟨here, apart⟩ := State.abortAll_sheds _ s b hb
  by_contra pair
  exact apart b (List.mem_filter.2 ⟨here, by simpa using pair⟩) rfl

theorem State.abortPairs_of_admin {s : State} (h : s.mbx.accepted.all (fun b => b.mb == .admin) = true) : s.abortPairs = s := by
  have none_left : s.mbx.accepted.filter (fun b => b.mb != .admin) = [] :=
    List.filter_eq_nil_iff.2 fun b hb => by simpa using List.all_eq_true.1 h b hb
  rw [State.abortPairs, none_left, List.foldl_nil]

/-! ### DEVICE_RESET (R112, R451, R453) -/

/-- The reset that a DEVICE_RESET asks for. -/
def deviceRequest (load : Bool) : ResetReq := { req := 1, source := 0, device := true, loadCommitted := load }

section Reset

variable {s : State} {a : Accepted} {load : Bool}

theorem exec_deviceReset (load : Bool) (s : State) :
    exec (if load then .deviceResetLoadCommitted .admin else .deviceReset .admin) s = done s (s.deviceReset .admin load) := by
  cases load <;> rfl

theorem deviceReset_conflicts (begins : s.begins .admin (fun c => isOp Op.deviceReset c && bitOf (cmdArg c 0) 0 == load) a)
    (latched : s.latched = true) : s.deviceReset .admin load = s.complete a CC.stateConflict 0 :=
  (State.onCmd_of_begins begins _).trans (if_pos latched)

theorem deviceReset_asks (begins : s.begins .admin (fun c => isOp Op.deviceReset c && bitOf (cmdArg c 0) 0 == load) a)
    (clear : s.latched = false) :
    s.deviceReset .admin load = (s.abortPairs.complete a CC.ok 0).requestChipReset (deviceRequest load) :=
  (State.onCmd_of_begins begins _).trans (if_neg (by simp [clear]))

/-- With no reset asked for or deferred, a request that is not refused stands as it is. -/
theorem State.requestChipReset_pwr {t : State} (r : ResetReq) (clear : t.latched = false) (none_asked : t.pwr.request = none)
    (none_deferred : t.pwr.deferred = none) : (t.requestChipReset r).pwr =
      if t.grnState = Grn.dumping then { t.pwr with deferred := some r } else { t.pwr with request := some r } := by
  rw [State.requestChipReset, if_neg (by simp [clear])]
  split <;> simp [none_asked, none_deferred]

theorem Frame.requestChipReset (t : State) (r : ResetReq) {ps : List Part} (h : .pwr ∈ ps) (fs : List Field) :
    Frame t (t.requestChipReset r) ps fs := by
  refine ⟨by simp, by simp, fun p hp => ?_, fun g _ n => State.getN_same (by simp) g n⟩
  cases p with
  | pwr => exact absurd h hp
  | _ => simp [Part.same]

theorem KeepsMail.requestChipReset (t : State) (r : ResetReq) : KeepsMail t (t.requestChipReset r) where
  mbx := by simp
  hold := by
    unfold State.requestChipReset
    split_ifs <;> rfl
  reg g _ n := State.getN_same (by simp) g n
  sent o ho := by simpa using ho
  empty k hk := by simpa [State.plan?] using hk

theorem deviceReset_completes (begins : s.begins .admin (fun c => isOp Op.deviceReset c && bitOf (cmdArg c 0) 0 == load) a)
    (clear : s.latched = false) (alone : s.mbx.accepted.all (fun b => b.mb == .admin) = true) (admin : a.mb = .admin)
    (none_asked : s.pwr.request = none) (none_deferred : s.pwr.deferred = none) :
    Answers (if load then .deviceResetLoadCommitted .admin else .deviceReset .admin) s fun t =>
      t.pwr = (if s.grnState = Grn.dumping then { s.pwr with deferred := some (deviceRequest load) }
        else { s.pwr with request := some (deviceRequest load) }) ∧
      Completed s a CC.ok 0 t ∧ Frame s t [.mbx, .pwr] completeFields := by
  let v := s.complete a CC.ok 0
  have run := (exec_deviceReset load s).trans (congrArg (done s) (deviceReset_asks begins clear))
  rw [State.abortPairs_of_admin alone] at run
  have framed : Frame s v [.mbx] completeFields := Frame.complete_admin s admin _ _
  have pwr : v.pwr = s.pwr := framed.2.2.1 .pwr (by simp)
  have kept : ∀ g : Field, (∀ f ∈ admFields, f.id ≠ g.id) → v.get g = s.get g := fun g h =>
    State.complete_admin_getN s admin _ _ h 0
  have still : v.latched = s.latched := by
    rw [State.latched, State.flag, kept F.FLT_PERSIST_LATCHED (by decide)]
    rfl
  have grn : v.grnState = s.grnState := kept F.GRN_STATE_STATE (by decide)
  refine Answers.of_run run ⟨?_, ?_, Frame.done s ?_⟩
  · rw [State.settle_pwr, State.requestChipReset_pwr _ (still.trans clear) (pwr ▸ none_asked) (pwr ▸ none_deferred), grn, pwr]
  · exact ((SameRings.refl s).completed s a CC.ok 0).kept (KeepsMail.requestChipReset v _)
  · exact (framed.mono (by simp) fun _ h => h).trans (Frame.requestChipReset v _ (by simp) _)

end Reset

/-- Settles O17: every command of a pair ends, and the reset is asked for, deferred in DUMPING, or refused while latched. -/
theorem deviceResetIsAskedFor : Obligations.DeviceResetIsAskedFor := by
  intro s a load begins c r
  refine ⟨fun clear => ?_, deviceReset_completes begins, fun latched => ?_⟩
  · refine Answers.of_run ((exec_deviceReset load s).trans (congrArg (done s) (deviceReset_asks begins clear))) ?_
    rw [State.settle_mbx, State.requestChipReset_mbx]
    exact fun b hb => State.abortPairs_admin s b (State.complete_accepted _ a CC.ok 0 b hb)
  · exact Ends.of_run ((exec_deviceReset load s).trans (congrArg (done s) (deviceReset_conflicts begins latched)))

end Sys2Proof.Machine

namespace Sys2Proof.Machine

/-! ### A command's transfer stops (R105, R295) -/

/-- The fields that the end of a stopped transfer may write. -/
def stopFields : List Field :=
  [F.TLU_FAULT_ADDR_KIND, F.TLU_FAULT_ADDR_GRANARY, F.TLU_FAULT_ADDR_CTX, F.TLU_FAULT_ADDR_ADDR, F.DGE_STATUS_CTX_BUSY,
    F.DGE_STATUS_WAITING] ++ raiseFields ++ completeFields

/-- In `t` the command has ended by a stop of the host's, and else only the parts `ps` have changed since `v`. -/
def EndedByStop (v : State) (a : Accepted) (code : Nat) (ps : List Part) (t : State) : Prop :=
  Completed v a CC.dmaError 49 t ∧ t.sticky 49 = true ∧ t.get F.TLU_FAULT_ADDR_KIND = dmaKind code ∧
  t.get F.TLU_FAULT_ADDR_CTX = v.mailboxCtx a.mb % 2 ^ F.TLU_FAULT_ADDR_CTX.width ∧
  Frame v t (ps ++ .mbx :: raiseParts) stopFields

section Stop

variable {s v w : State} {a : Accepted} {addr code detail : Nat}

theorem Frame.completeRaised (s : State) (a : Accepted) (code r : Nat) {ps : List Part} {fs : List Field}
    (hp : ∀ p ∈ .mbx :: raiseParts, p ∈ ps) (hf : ∀ f ∈ completeFields ++ raiseFields, f ∈ fs) :
    Frame s (s.complete a code r) ps fs := by
  refine (Frame.complete s a code r).mono (fun p h => hp p ?_) (fun f h => hf f ?_)
  · unfold cplParts at h
    split at h
    · exact h
    · exact List.mem_cons.2 (.inl (List.mem_singleton.1 h))
  · unfold cplFields at h
    split at h
    · exact h
    · exact List.mem_append_left _ h

theorem KeepsMail.captureFault (s : State) (code ctx addr : Nat) (g : Bool) : KeepsMail s (s.captureFault code ctx addr g) :=
  KeepsMail.setAll _ (by simp only [List.forall_mem_cons, List.not_mem_nil, false_implies, forall_true_iff, and_true]; decide) s

theorem Frame.mailStop (v : State) (a : Accepted) (addr code detail : Nat) (ps : List Part) :
    Frame v (v.mailStop a addr code detail) (ps ++ .mbx :: raiseParts) stopFields := by
  have captured : Frame v (v.captureFault code (v.mailboxCtx a.mb) addr false) (ps ++ .mbx :: raiseParts) stopFields :=
    Frame.setAll _ (by simp [stopFields]) v
  refine (captured.trans (Frame.raise _ 49 _ _ (fun p h => ?_) fun f h => ?_)).trans
    (Frame.completeRaised _ a _ _ (fun p h => List.mem_append_right _ h) fun f h => ?_)
  · exact List.mem_append_right _ (List.mem_cons_of_mem _ h)
  · exact List.mem_append_left _ (List.mem_append_right _ h)
  · rcases List.mem_append.1 h with h | h
    · exact List.mem_append_right _ h
    · exact List.mem_append_left _ (List.mem_append_right _ h)

/-- What is not written by a fault event or a completion shows the fault that was captured. -/
theorem State.mailStop_get (v : State) (a : Accepted) (addr code detail : Nat) {g : Field} (hr : g.outside raiseFields)
    (hc : g.outside completeFields) :
    (v.mailStop a addr code detail).get g = (v.captureFault code (v.mailboxCtx a.mb) addr false).get g :=
  (State.complete_getN _ a _ _ hr hc 0).trans (State.raise_getN _ _ _ _ hr 0)

theorem State.captureFault_kind (v : State) (code ctx addr : Nat) (g : Bool) :
    (v.captureFault code ctx addr g).get F.TLU_FAULT_ADDR_KIND = dmaKind code := by
  have fits : dmaKind code < 2 ^ F.TLU_FAULT_ADDR_KIND.width := by
    show _ < 8
    unfold dmaKind
    split_ifs <;> decide
  simp only [State.captureFault, State.setAll, List.foldl]
  rw [State.get_set_of_id _ (by decide), State.get_set_of_id _ (by decide), State.get_set_of_id _ (by decide), State.get_set_self,
    Nat.mod_eq_of_lt fits]

theorem State.captureFault_ctx (v : State) (code ctx addr : Nat) (g : Bool) :
    (v.captureFault code ctx addr g).get F.TLU_FAULT_ADDR_CTX = ctx % 2 ^ F.TLU_FAULT_ADDR_CTX.width := by
  simp only [State.captureFault, State.setAll, List.foldl]
  rw [State.get_set_of_id _ (by decide), State.get_set_self]

/-- A command ended by a stop, whatever is done after that but to complete commands. -/
theorem EndedByStop.of_mailStop (hold : v.pwr.hold = true) {ps : List Part} {z : State}
    (kept : KeepsMail (v.mailStop a addr code detail) z)
    (reg : ∀ g ∈ [F.FLT_STICKY_STICKY, F.TLU_FAULT_ADDR_KIND, F.TLU_FAULT_ADDR_CTX], ∀ n,
      z.getN g n = (v.mailStop a addr code detail).getN g n)
    (frame : Frame (v.mailStop a addr code detail) z (ps ++ .mbx :: raiseParts) stopFields) :
    EndedByStop v a code ps (State.settle s z) := by
  have raised : KeepsMail v ((v.captureFault code (v.mailboxCtx a.mb) addr false).raise 49 (Mailbox.instance8 a.mb)
      (code + detail * 2 ^ 16 + Mailbox.instance8 a.mb * 2 ^ 24)) :=
    (KeepsMail.captureFault v _ _ _ _).trans (KeepsMail.raise _ _ _ _)
  refine ⟨(raised.rings.completed s a CC.dmaError 49).kept kept, ?_, ?_, ?_, ((Frame.mailStop v a addr code detail ps).trans frame).done s⟩
  · rw [State.sticky_settle, State.sticky_of_getN (reg _ (by simp) _)]
    exact State.sticky_complete_mono (by decide) (State.sticky_raise _ (by simpa using hold) rfl _ _) a _ _
  · refine (State.settle_getN s z (by unfold Field.outside; decide) 0).trans ((reg _ (by simp) 0).trans ?_)
    exact (State.mailStop_get v a addr code detail (by unfold Field.outside; decide) (by unfold Field.outside; decide)).trans
      (State.captureFault_kind v code _ addr false)
  · refine (State.settle_getN s z (by unfold Field.outside; decide) 0).trans ((reg _ (by simp) 0).trans ?_)
    exact (State.mailStop_get v a addr code detail (by unfold Field.outside; decide) (by unfold Field.outside; decide)).trans
      (State.captureFault_ctx v code _ addr false)

/-! The read that the host fails, and what is done with it. -/

/-- The read requests of a transfer go out. -/
def State.asks (s : State) (ctx : Nat) (ps : List (Nat × Nat)) : State :=
  ps.foldl (fun s q => s.emit (.hostRead (s.via ctx) q.1 q.2)) s

theorem KeepsMail.asks (s : State) (ctx : Nat) (ps : List (Nat × Nat)) : KeepsMail s (s.asks ctx ps) :=
  KeepsMail.foldl _ ps (fun t q => KeepsMail.emit t (.hostRead (t.via ctx) q.1 q.2)) s

theorem Frame.asks (s : State) (ctx : Nat) (qs : List (Nat × Nat)) (ps : List Part) (fs : List Field) :
    Frame s (s.asks ctx qs) ps fs := Frame.foldl _ qs (fun q _ t => Frame.emit t (.hostRead (t.via ctx) q.1 q.2) ps fs) s

theorem State.mailRead_failed {frames : List Nat} {n : Nat} {code : BitVec 16} {detail : Byte} (some_bytes : n ≠ 0)
    (host : inDevice addr = false) (reach : s.reach (placeOf 1 (s.mailboxCtx a.mb) addr) n false = (v, .ok frames)) :
    s.mailRead a addr n (.stopped code detail) =
      .ended ((v.asks (placeOf 1 (s.mailboxCtx a.mb) addr).ctx (v.readPieces addr n frames)).mailStop a addr code.toNat
        detail.toNat) := by
  simp only [State.mailRead, if_neg some_bytes, reach, host, Bool.false_eq_true, if_false, State.asks]

/-- A read that ends its command has forgotten it. -/
theorem State.mailRead_ended_forgets {n : Nat} {x : Transfer} {u : State} (read : s.mailRead a addr n x = .ended u) :
    ∀ b ∈ u.mbx.accepted, b.id ≠ a.id := by
  have stops : ∀ {t : State} {c d : Nat}, MailRead.ended (t.mailStop a addr c d) = .ended u → ∀ b ∈ u.mbx.accepted, b.id ≠ a.id :=
    fun ends => MailRead.ended.inj ends ▸ State.complete_forgets _ a _ _
  unfold State.mailRead at read
  dsimp only at read
  split at read
  · cases read
  · split at read
    · cases read
    · cases read
    · exact stops read
    · split at read
      · split at read
        · exact stops read
        · cases read
      · split at read
        · exact stops read
        · cases read

theorem State.withInput_of_ended {n : Nat} {x : Transfer} {u : State} (away : a.inline = false)
    (read : s.mailRead a (cmdAddr a.cmd) n x = .ended u) (k : State → List Byte → State) : s.withInput a n x k = u := by
  rw [State.withInput, if_neg (by simp [away]), read]

theorem EndedByStop.of_asks {ctx : Nat} {qs : List (Nat × Nat)} {ps : List Part} {t : State}
    (h : EndedByStop (v.asks ctx qs) a code ps t) : EndedByStop v a code ps t := by
  obtain ⟨completed, sticky, kind, captured, frame⟩ := h
  have asked := KeepsMail.asks v ctx qs
  have same : (v.asks ctx qs).mailboxCtx a.mb = v.mailboxCtx a.mb := by
    cases a.mb with
    | admin => rfl
    | pair n => exact asked.reg F.MBX_STATE_CTX (by simp [mailFields, completeFields]) n.val
  exact ⟨completed.of_rings asked.rings.cqStopped asked.rings.cqUnreachable, sticky, kind, same ▸ captured,
    (Frame.asks v ctx qs _ _).trans frame⟩

end Stop

/-- Work that completes no command and raises nothing, on the parts `ps` and the digest's status. -/
structure SweepsOnly (ps : List Part) (after : State → State) : Prop where
  kept : ∀ u, KeepsMail u (after u)
  reg : ∀ u, ∀ g ∈ [F.FLT_STICKY_STICKY, F.TLU_FAULT_ADDR_KIND, F.TLU_FAULT_ADDR_CTX], ∀ n, (after u).getN g n = u.getN g n
  frame : ∀ u, Frame u (after u) ps [F.DGE_STATUS_CTX_BUSY, F.DGE_STATUS_WAITING]

theorem sweepsOnly_id : SweepsOnly [] id := ⟨KeepsMail.refl, fun _ _ _ _ => rfl, fun u => Frame.refl u _ _⟩

theorem State.setDigest_getN_apart (s : State) (d : Digest) {g : Field} (hb : F.DGE_STATUS_CTX_BUSY.id ≠ g.id)
    (hw : F.DGE_STATUS_WAITING.id ≠ g.id) (n : Nat) : (s.setDigest d).getN g n = s.getN g n :=
  (State.getN_setN_of_id _ hw 0 _ n).trans (State.getN_setN_of_id _ hb 0 _ n)

theorem KeepsMail.setDigest (s : State) (d : Digest) : KeepsMail s (s.setDigest d) where
  mbx := by simp
  hold := by simp
  reg g hg n := by
    obtain ⟨hb, hw⟩ := (by decide : ∀ g ∈ mailFields, F.DGE_STATUS_CTX_BUSY.id ≠ g.id ∧ F.DGE_STATUS_WAITING.id ≠ g.id) g hg
    exact State.setDigest_getN_apart s d hb hw n
  sent o ho := by simpa using ho
  empty k hk := by simpa [State.plan?] using hk

theorem Frame.setDigest (s : State) (d : Digest) : Frame s (s.setDigest d) [.dge] [F.DGE_STATUS_CTX_BUSY, F.DGE_STATUS_WAITING] := by
  refine ⟨by simp, by simp, fun p hp => ?_, fun g hg n => ?_⟩
  · cases p with
    | dge => exact absurd (List.mem_singleton_self _) hp
    | _ => simp [Part.same]
  · exact State.setDigest_getN_apart s d (hg _ (by simp)) (hg _ (by simp)) n

theorem sweepsOnly_sweepContexts : SweepsOnly [.dge] State.sweepContexts := by
  have cases_ : ∀ u : State, u.sweepContexts = u ∨ ∃ d, u.sweepContexts = u.setDigest d := fun u => by
    unfold State.sweepContexts
    split
    · exact .inl rfl
    · exact .inr ⟨_, rfl⟩
  refine ⟨fun u => ?_, fun u g hg n => ?_, fun u => ?_⟩ <;> obtain same | ⟨d, swept⟩ := cases_ u
  · rw [same]
    exact KeepsMail.refl u
  · exact swept ▸ KeepsMail.setDigest u d
  · rw [same]
  · obtain ⟨hb, hw⟩ := (by decide : ∀ g ∈ [F.FLT_STICKY_STICKY, F.TLU_FAULT_ADDR_KIND, F.TLU_FAULT_ADDR_CTX],
      F.DGE_STATUS_CTX_BUSY.id ≠ g.id ∧ F.DGE_STATUS_WAITING.id ≠ g.id) g hg
    exact swept ▸ State.setDigest_getN_apart u d hb hw n
  · rw [same]
    exact Frame.refl u _ _
  · exact swept ▸ Frame.setDigest u d

section Commands

variable {c : Instr} {m : Mailbox} {s v : State} {a : Accepted} {code : BitVec 16} {detail : Byte} {n : Nat}

/-- An instruction that does `after` with the state in which its read has ended the command ends it by the host's stop. -/
theorem endsByStop {ps : List Part} {after : State → State} (sweeps : SweepsOnly ps after) (hold : s.pwr.hold = true)
    (runs : ∀ u, s.mailRead a (cmdAddr a.cmd) n (.stopped code detail) = .ended u → Runs c s (after u)) (some_bytes : n ≠ 0)
    (host : inDevice (cmdAddr a.cmd) = false) (v : State) (frames : List Nat)
    (reach : s.reach (placeOf 1 (s.mailboxCtx a.mb) (cmdAddr a.cmd)) n false = (v, .ok frames)) :
    Answers c s (EndedByStop v a code.toNat ps) := by
  have reached : KeepsMail s v := by
    have h := KeepsMail.reach s (p := placeOf 1 (s.mailboxCtx a.mb) (cmdAddr a.cmd)) rfl n false
    rwa [reach] at h
  have up : (v.asks (placeOf 1 (s.mailboxCtx a.mb) (cmdAddr a.cmd)).ctx
      (v.readPieces (cmdAddr a.cmd) n frames)).pwr.hold = true :=
    (KeepsMail.asks v _ _).hold.trans (reached.hold.trans hold)
  refine Answers.of_run (runs _ (State.mailRead_failed some_bytes host reach)) (EndedByStop.of_asks
    (EndedByStop.of_mailStop up (sweeps.kept _) (sweeps.reg _) ((sweeps.frame _).mono (fun p h => List.mem_append_left _ h)
      fun f h => ?_)))
  simp only [stopFields, List.mem_append, List.mem_cons] at h ⊢
  tauto

theorem fwDownload_stopped {x : Transfer} {u : State} (begins : s.begins m (isOp Op.fwDownload) a) (away : a.inline = false)
    (read : s.mailRead a (cmdAddr a.cmd) (cmdLen a.cmd) x = .ended u) : Runs (.fwDownload m x) s u :=
  congrArg (done s) ((State.onCmd_of_begins begins _).trans (State.withInput_of_ended away read _))

theorem keyLoad_stopped {x : Transfer} {u : State} (begins : s.begins m (isOp Op.keyLoad) a) (away : a.inline = false)
    (read : s.mailRead a (cmdAddr a.cmd) (cmdLen a.cmd) x = .ended u) : Runs (.keyLoad m x) s u :=
  congrArg (done s) ((State.onCmd_of_begins begins _).trans (State.withInput_of_ended away read _))

/-- The command of a digest that has ended keeps no context. -/
theorem State.keepContext_of_forgotten {u : State} {r : DigestCtx} (h : ∀ b ∈ u.mbx.accepted, b.id ≠ r.id) :
    u.keepContext r = u.sweepContexts := by
  have gone : u.mbx.accepted.any (fun b => b.id == r.id && b.parked) = false :=
    List.any_eq_false.2 fun b hb => by simp [h b hb]
  rw [State.keepContext, gone, Bool.false_and, if_neg (by simp)]

theorem digestPlain_stopped {x : Transfer} {u : State}
    (begins : s.begins m (fun c => isOp Op.digest c && cmdArg c 1 == 0xFF) a)
    (known : (ShaAlg.ofCode (cmdArg a.cmd 0)).isSome = true) (away : a.inline = false)
    (read : s.mailRead a (cmdAddr a.cmd) (cmdLen a.cmd) x = .ended u) : Runs (.digestPlain m x) s u.sweepContexts := by
  obtain ⟨alg, found⟩ := Option.isSome_iff_exists.1 known
  refine congrArg (done s) ((State.onCmd_of_begins begins _).trans ?_)
  simp only [found]
  rw [State.withInput_of_ended away read]
  exact State.keepContext_of_forgotten (State.mailRead_ended_forgets read)

theorem mrExtend_stopped {x : Transfer} {u : State} (begins : s.begins m (isOp Op.mrExtend) a)
    (open_ : s.mrLocked (cmdArg a.cmd 0) = false) (away : a.inline = false)
    (read : s.mailRead a (cmdAddr a.cmd) 64 x = .ended u) : Runs (.mrExtend m x) s u :=
  congrArg (done s) ((State.onCmd_of_begins begins _).trans
    ((if_neg (by simp [open_])).trans (State.withInput_of_ended away read _)))

theorem grnConfigure_stopped {x : Transfer} {u : State} (begins : s.begins m (isOp Op.granaryConfig) a) (away : a.inline = false)
    (read : s.mailRead a (cmdAddr a.cmd) 64 x = .ended u) (op : GrnOp) (w : CopyResult) : s.grnConfigure m op x w = u :=
  (State.onCmd_of_begins begins _).trans (State.withInput_of_ended away read _)

end Commands

/-- Settles O39: each of the commands ends as its read ends, and a read that the host fails ends it with DMA_ERROR. -/
theorem stoppedTransfersEndCommands : Obligations.StoppedTransfersEndCommands := by
  intro m code detail s a hold away x stops
  have plain : ∀ {n : Nat} {c : Instr},
      (∀ u, s.mailRead a (cmdAddr a.cmd) n x = .ended u → Runs c s u) → stops n [] c := fun runs =>
    ⟨fun u read => (if_pos rfl : (if ([] : List Part) = [] then u else u.sweepContexts) = u).symm ▸ runs u read,
      endsByStop sweepsOnly_id hold runs⟩
  have granary : s.begins m (isOp Op.granaryConfig) a → ∀ (op : GrnOp) (w : CopyResult) (c : Instr),
      exec c s = done s (s.grnConfigure m op x w) → stops 64 [] c := fun begins op w c run =>
    plain fun u read => run.trans (congrArg (done s) (grnConfigure_stopped begins away read op w))
  refine ⟨fun begins => plain fun u => fwDownload_stopped begins away, fun begins => plain fun u => keyLoad_stopped begins away,
    fun begins known => ⟨fun u => ?_, ?_⟩, fun begins open_ => plain fun u => mrExtend_stopped begins open_ away,
    fun begins => ⟨fun w => ⟨?_, ?_, ?_⟩, ?_⟩⟩
  · rw [if_neg (by simp)]
    exact digestPlain_stopped begins known away
  · exact endsByStop sweepsOnly_sweepContexts hold fun u => digestPlain_stopped begins known away
  · exact granary begins .create w _ rfl
  · exact granary begins .tune w _ rfl
  · exact granary begins .format w _ rfl
  · exact granary begins .resume .both _ rfl

end Sys2Proof.Machine

namespace Sys2Proof.Machine

/-! ### Bytes and lines (R8) -/

theorem ofLeBytes_leBytes (n v : Nat) : ofLeBytes (leBytes n v) = v % 256 ^ n := by
  induction n generalizing v with
  | zero => rw [pow_zero, Nat.mod_one]; rfl
  | succ n ih =>
    have low : (BitVec.ofNat 8 v).toNat = v % 256 := BitVec.toNat_ofNat v 8
    rw [leBytes, ofLeBytes, ih, low, pow_succ', Nat.mod_mul]

theorem ofNat_leBytes (n : Nat) (l : BitVec (8 * n)) : BitVec.ofNat (8 * n) (ofLeBytes (leBytes n l.toNat)) = l := by
  have bytes : 256 ^ n = 2 ^ (8 * n) := (pow_mul 2 8 n).symm
  rw [ofLeBytes_leBytes, bytes, Nat.mod_eq_of_lt l.isLt, BitVec.ofNat_toNat, BitVec.setWidth_eq]

theorem ofNat_bytesOfLine (l : Line) : BitVec.ofNat 512 (ofLeBytes (bytesOfLine l)) = l := ofNat_leBytes 64 l

theorem bytesOfLine_length (l : Line) : (bytesOfLine l).length = 64 := leBytes_length 64 _

theorem linesOfBytes_one {d : List Byte} (h : d.length = 64) : linesOfBytes 1 d = [BitVec.ofNat 512 (ofLeBytes d)] := by
  rw [linesOfBytes, linesOfBytes, ← h, List.take_length]

/-- A whole aligned line is one piece. -/
theorem linePieces_line {addr : Nat} (aligned : addr % 64 = 0) {b : List Byte} (h : b.length = 64) (fuel : Nat) :
    linePieces (fuel + 2) addr b = [(addr, b)] := by
  have some_bytes : b.isEmpty = false := by rw [List.isEmpty_eq_false_iff_exists_mem]; exact List.exists_mem_of_length_pos (by omega)
  have whole : b.take (64 - addr % 64) = b := List.take_of_length_le (by omega)
  have rest : b.drop (64 - addr % 64) = [] := List.drop_of_length_le (by omega)
  rw [linePieces]
  simp only [some_bytes, whole, rest, linePieces, List.isEmpty_nil, if_true, Bool.false_eq_true, if_false]

/-! ### A line of the window (R344, R351) -/

section Window

variable {s u : State} {w : Waiter} {addr : Nat} {l : Line}

/-- A whole line is written to the window at once, or not at all. -/
theorem State.writeMem_line {frames : List Nat} (reach : s.reach (placeOf 0 0 addr) 64 true = (u, .ok frames))
    (aligned : addr % 64 = 0) : s.writeMem w (placeOf 0 0 addr) (bytesOfLine l) =
      ((u.writeWindow w [(addr, bytesOfLine l)]).1, .ok (u.writeWindow w [(addr, bytesOfLine l)]).2) := by
  have pieces : linePieces (64 + 1) (placeOf 0 0 addr).addr (bytesOfLine l) = [(addr, bytesOfLine l)] :=
    linePieces_line aligned (bytesOfLine_length l) 63
  have window : (placeOf 0 0 addr).granary = true := rfl
  unfold State.writeMem
  rw [bytesOfLine_length, reach]
  simp only [pieces, window, if_true]

theorem State.writeWindow_accepted {t : State} (took : u.tryLine w (addr / 64) l false = some t) :
    u.writeWindow w [(addr, bytesOfLine l)] = (t, []) := by
  simp only [State.writeWindow, bytesOfLine_length, ofNat_bytesOfLine, beq_self_eq_true, Bool.not_true, Bool.false_and,
    Bool.false_eq_true, if_false, if_true, took]

theorem State.writeWindow_waits (none_now : u.tryLine w (addr / 64) l false = none) :
    u.writeWindow w [(addr, bytesOfLine l)] = (u.waitLine w, [(addr, bytesOfLine l)]) := by
  simp only [State.writeWindow, bytesOfLine_length, ofNat_bytesOfLine, beq_self_eq_true, Bool.not_true, Bool.false_and,
    Bool.false_eq_true, if_false, if_true, none_now]

theorem State.writeMem_park {q : PageWait} (reach : s.reach (placeOf 0 0 addr) 64 true = (u, .park q)) :
    s.writeMem w (placeOf 0 0 addr) (bytesOfLine l) = (u, .park q) := by
  rw [State.writeMem, bytesOfLine_length, reach]

theorem State.tryLine_granted (mine : (u.grn.granted.contains w && !u.grn.closed) = true) (line : Nat) :
    u.tryLine w line l false = some ((u.useGrant w).acceptLine line l false) := if_pos mine

theorem State.tryLine_now (other : (u.grn.granted.contains w && !u.grn.closed) = false) (can : u.canReserve = true)
    (alone : u.grn.waiters = []) (line : Nat) : u.tryLine w line l false = some (u.acceptLine line l false) := by
  rw [State.tryLine, if_neg (Bool.eq_false_iff.1 other), if_pos (by simp [can, alone])]

theorem State.tryLine_waits (other : (u.grn.granted.contains w && !u.grn.closed) = false)
    (full : u.canReserve = false ∨ u.grn.waiters ≠ []) (line : Nat) : u.tryLine w line l false = none := by
  rw [State.tryLine, if_neg (Bool.eq_false_iff.1 other), if_neg]
  rcases full with h | h <;> simp [h]

end Window

/-! ### INGEST (R108, R351, R530) -/

section Ingest

variable {m : Mailbox} {seq : BitVec 16} {x : Transfer} {s : State} {a : Accepted}

/-- An INGEST once it is begun. -/
def Accepted.ingesting (a : Accepted) : Accepted := { a with begun := true }

/-- The INGEST runs: it is whole, and a staging buffer is free. -/
def State.ingestRuns (s : State) (m : Mailbox) (seq : BitVec 16) (x : Transfer) (a : Accepted) : Prop :=
  x.wholeLines = true ∧ s.ingestCmd m seq.toNat = some a ∧ a.record.all (fun n => s.checkRecord n == 0) = true ∧ s.canStage = true

/-- What an INGEST does once its data has been read. -/
def Accepted.afterRead (a : Accepted) : MailRead → State
  | .wait t w => t.update { a with waits := [w] }
  | .closed t => t.update a
  | .ended t => t.dropWaiter a.waiter
  | .bytes t b => t.ingestFrom a (linesOfBytes (b.length / 64) b)

theorem exec_ingest (runs : s.ingestRuns m seq x a) : exec (.ingest m ⟨seq, x⟩) s = done s
    (if s.grnState = Grn.heldState ∨ s.grnState = Grn.failed then s.endIngest a.ingesting CC.stateConflict a.progress
      else a.ingesting.afterRead
        (s.mailRead a.ingesting (cmdAddr a.cmd + 64 * a.progress) (ingestPart a.ingesting x) x)) := by
  obtain ⟨whole, next, kept, stage⟩ := runs
  have intact : a.record.any (fun n => s.checkRecord n != 0) = false := by
    cases hr : a.record with
    | none => rfl
    | some n =>
      rw [hr] at kept
      simpa using kept
  show execIngest m ⟨seq, x⟩ s = _
  unfold execIngest
  simp only [whole, next, stage, intact, Bool.not_true, Bool.false_eq_true, if_false]
  split
  · rfl
  · unfold Accepted.ingesting
    generalize s.mailRead _ _ _ _ = read
    cases read <;> rfl

/-! What is done with the last line. -/

section Line

variable {v u : State} {b : Accepted} {l : Line} {frames : List Nat}

/-- The place in the window where an INGEST goes on. -/
def Accepted.ingestAddr (b : Accepted) : Nat := cmdArg b.cmd 0 + 64 * b.progress

theorem State.ingestFrom_behind (left : b.progress < ingestLines b) (behind : v.lineAhead b (b.ingestAddr / 64) = true) :
    v.ingestFrom b [l] = v.update b :=
  (if_neg (not_le.2 left)).trans (if_pos behind)

/-- The last line of an INGEST, with none ahead of it, is written. -/
theorem State.ingestFrom_line (left : b.progress < ingestLines b) (first : v.lineAhead b (b.ingestAddr / 64) = false) :
    v.ingestFrom b [l] = match v.writeMem b.waiter (placeOf 0 0 b.ingestAddr) (bytesOfLine l) with
      | (s, .ok []) => s.ingestFrom { b with progress := b.progress + 1 } []
      | (s, .stop c d) => (s.dropWaiter b.waiter).dmaEnd b c d
      | (s, .park w) => s.update { b with waits := [w] }
      | (s, _) => s.update b :=
  ((if_neg (not_le.2 left)).trans (if_neg (Bool.eq_false_iff.1 first))).trans rfl

theorem State.ingestFrom_park {q : PageWait} (left : b.progress < ingestLines b)
    (first : v.lineAhead b (b.ingestAddr / 64) = false) (reach : v.reach (placeOf 0 0 b.ingestAddr) 64 true = (u, .park q)) :
    v.ingestFrom b [l] = u.update { b with waits := [q] } := by
  rw [State.ingestFrom_line left first, State.writeMem_park reach]

theorem State.ingestFrom_accepted {t : State} (last : ingestLines b = b.progress + 1)
    (first : v.lineAhead b (b.ingestAddr / 64) = false) (reach : v.reach (placeOf 0 0 b.ingestAddr) 64 true = (u, .ok frames))
    (aligned : b.ingestAddr % 64 = 0) (took : u.tryLine b.waiter (b.ingestAddr / 64) l false = some t) :
    v.ingestFrom b [l] = t.endIngest { b with progress := b.progress + 1 } CC.ok 0 := by
  rw [State.ingestFrom_line (by omega) first, State.writeMem_line reach aligned, State.writeWindow_accepted took]
  exact if_pos last.le

theorem State.ingestFrom_waits (last : ingestLines b = b.progress + 1)
    (first : v.lineAhead b (b.ingestAddr / 64) = false) (reach : v.reach (placeOf 0 0 b.ingestAddr) 64 true = (u, .ok frames))
    (aligned : b.ingestAddr % 64 = 0) (none_now : u.tryLine b.waiter (b.ingestAddr / 64) l false = none) :
    v.ingestFrom b [l] = (u.waitLine b.waiter).update b := by
  rw [State.ingestFrom_line (by omega) first, State.writeMem_line reach aligned, State.writeWindow_waits none_now]

end Line

theorem ingest_ends {u : State} {code r : Nat} (run : exec (.ingest m ⟨seq, x⟩) s = done s (u.endIngest a.ingesting code r)) :
    Runs (.ingest m ⟨seq, x⟩) s (u.endIngest a.ingesting code r) ∧
      Answers (.ingest m ⟨seq, x⟩) s fun t => Completed u a code r t :=
  ⟨run, Answers.of_run run ((KeepsMail.dropWaiter u a.waiter).rings.completed s a code r)⟩

theorem ingest_conflicts (runs : s.ingestRuns m seq x a) (held : s.grnState = Grn.heldState ∨ s.grnState = Grn.failed) :
    exec (.ingest m ⟨seq, x⟩) s = done s (s.endIngest a.ingesting CC.stateConflict a.progress) :=
  (exec_ingest runs).trans (congrArg (done s) (if_pos held))

theorem ingest_goes (runs : s.ingestRuns m seq x a) (serves : ¬ (s.grnState = Grn.heldState ∨ s.grnState = Grn.failed)) :
    exec (.ingest m ⟨seq, x⟩) s = done s (a.ingesting.afterRead
      (s.mailRead a.ingesting (cmdAddr a.cmd + 64 * a.progress) (ingestPart a.ingesting x) x)) :=
  (exec_ingest runs).trans (congrArg (done s) (if_neg serves))

theorem ingest_stopped {u : State} (runs : s.ingestRuns m seq x a)
    (serves : ¬ (s.grnState = Grn.heldState ∨ s.grnState = Grn.failed))
    (read : s.mailRead a.ingesting (cmdAddr a.cmd + 64 * a.progress) (ingestPart a.ingesting x) x = .ended u) :
    exec (.ingest m ⟨seq, x⟩) s = done s (u.dropWaiter a.waiter) := by
  rw [ingest_goes runs serves, read]
  rfl

theorem ingest_all_accepted (runs : s.ingestRuns m seq x a)
    (serves : ¬ (s.grnState = Grn.heldState ∨ s.grnState = Grn.failed)) (all : ingestLines a ≤ a.progress) :
    exec (.ingest m ⟨seq, x⟩) s = done s (s.endIngest a.ingesting CC.ok 0) := by
  have nothing : ingestPart a.ingesting x = 0 := by
    have left : 64 * (ingestLines a.ingesting - a.ingesting.progress) = 0 := by
      show 64 * (ingestLines a - a.progress) = 0
      omega
    unfold ingestPart
    simp only [left]
    split
    · exact Nat.zero_min _
    · rfl
  have read : s.mailRead a.ingesting (cmdAddr a.cmd + 64 * a.progress) 0 x = .bytes s [] := by
    simp only [State.mailRead, if_true]
  rw [ingest_goes runs serves, nothing, read]
  exact congrArg (done s) (if_pos all)

/-- With one line read, the INGEST goes on with that line. -/
theorem ingest_line {v : State} {d : List Byte} (runs : s.ingestRuns m seq x a)
    (serves : ¬ (s.grnState = Grn.heldState ∨ s.grnState = Grn.failed))
    (read : s.mailRead a.ingesting (cmdAddr a.cmd + 64 * a.progress) (ingestPart a.ingesting x) x = .bytes v d)
    (whole : d.length = 64) : exec (.ingest m ⟨seq, x⟩) s =
      done s (v.ingestFrom a.ingesting [BitVec.ofNat 512 (ofLeBytes d)]) := by
  rw [ingest_goes runs serves, read]
  refine congrArg (done s) ?_
  show v.ingestFrom a.ingesting (linesOfBytes (d.length / 64) d) = _
  rw [whole, linesOfBytes_one whole]

end Ingest

/-- Settles O21: an INGEST that may not go on, has all its lines accepted, or offers its last line to the window. -/
theorem ingestAcceptsLines : Obligations.IngestAcceptsLines := by
  intro m seq x s a whole next kept stage b w goes ends_ held
  have runs : s.ingestRuns m seq x a := ⟨whole, next, kept, stage⟩
  refine ⟨fun h => ingest_ends (ingest_conflicts runs h), fun h all => ingest_ends (ingest_all_accepted runs h all), ?_⟩
  intro read
  refine ⟨fun u ended h => ingest_stopped runs h ended, ?_⟩
  intro v d bytes h last length addr aligned
  have line : ∀ {t : State}, v.ingestFrom b [BitVec.ofNat 512 (ofLeBytes d)] = t → goes t := fun e =>
    (ingest_line runs h bytes length).trans (congrArg (done s) e)
  have left : b.progress < ingestLines b := last ▸ Nat.lt_succ_self _
  refine ⟨fun behind => line (State.ingestFrom_behind left behind), fun first =>
    ⟨fun u q reach => line (State.ingestFrom_park left first reach), ?_⟩⟩
  intro u frames reach l mine ends
  exact ⟨fun granted => line (State.ingestFrom_accepted last first reach aligned (State.tryLine_granted granted _)),
    fun other can alone => line (State.ingestFrom_accepted last first reach aligned (State.tryLine_now other can alone _)),
    fun other full => line (State.ingestFrom_waits last first reach aligned (State.tryLine_waits other full _))⟩

end Sys2Proof.Machine

namespace Sys2Proof.Machine

/-! ### Plans named by a handle (R180) -/

section Plans

variable {m : Mailbox} {s t : State} {a : Accepted} {slot : Nat} {p q : Plan}

theorem State.plan_of_handle {h : Nat} (named : s.handlePlan h = some (slot, p)) : s.plan? slot = some p := by
  unfold State.handlePlan at named
  split at named
  · obtain ⟨r, found, e⟩ := Option.map_eq_some_iff.1 named
    obtain ⟨rfl, rfl⟩ := Prod.mk.inj e
    exact found
  · exact absurd named (by simp)

theorem State.withPlan_of_handle {k : Nat} (named : s.handlePlan (cmdArg a.cmd k) = some (slot, p)) (f : Nat → Plan → State) :
    s.withPlan a k f = f slot p := by
  rw [State.withPlan, named]

theorem State.plan_setPlan_self (s : State) (slot : Nat) (p : Plan) : (s.setPlan slot p).plan? slot = some p :=
  Store.get?_set_self s.eng.plans slot p

theorem State.plan_setPlan_ne (s : State) {slot k : Nat} (h : k ≠ slot) (p : Plan) : (s.setPlan slot p).plan? k = s.plan? k :=
  Store.get?_set_ne s.eng.plans (Ne.symm h) p

theorem State.plan_congr (h : t.eng = s.eng) (k : Nat) : t.plan? k = s.plan? k := by
  rw [State.plan?, h, State.plan?]

theorem Frame.mapEng (s : State) (f : Engine → Engine) {ps : List Part} (h : .eng ∈ ps) (fs : List Field) :
    Frame s (s.mapEng f) ps fs := by
  refine ⟨rfl, rfl, fun part hp => ?_, fun _ _ _ => rfl⟩
  cases part with
  | eng => exact absurd h hp
  | _ => rfl

/-! ### PLAN_CANCEL and the teardown's end (R176, R177) -/

/-- One more PLAN_CANCEL waits for the plan's end. -/
def Plan.cancelledBy (p : Plan) (id : Nat) : Plan := { p with cancels := p.cancels ++ [id] }

/-- A PLAN_CANCEL joins those that wait for the plan's end. -/
def State.joinCancel (s : State) (a : Accepted) (slot : Nat) : State :=
  match s.plan? slot with
  | some p => (s.begin a).setPlan slot (p.cancelledBy a.id)
  | none => s

theorem State.joinCancel_of_plan (found : s.plan? slot = some p) :
    s.joinCancel a slot = (s.begin a).setPlan slot (p.cancelledBy a.id) := by
  rw [State.joinCancel, found]

theorem exec_planCancel (begins : s.begins m (isOp Op.planCancel) a)
    (named : s.handlePlan (cmdArg a.cmd 0) = some (slot, p)) : exec (.planCancel m) s = done s (match p.state with
      | .loaded => s.complete a CC.ok 0
      | .running => ((s.tearDown slot (CC.aborted, 1)).joinCancel a slot).schedule
      | .cancelling => s.joinCancel a slot) :=
  congrArg (done s) ((State.onCmd_of_begins begins _).trans ((State.withPlan_of_handle named _).trans rfl))

theorem planCancel_loaded (begins : s.begins m (isOp Op.planCancel) a)
    (named : s.handlePlan (cmdArg a.cmd 0) = some (slot, p)) (loaded : p.state = .loaded) : Ends (.planCancel m) s s a CC.ok 0 :=
  Ends.of_run ((exec_planCancel begins named).trans (by rw [loaded]))

theorem planCancel_running (begins : s.begins m (isOp Op.planCancel) a)
    (named : s.handlePlan (cmdArg a.cmd 0) = some (slot, p)) (running : p.state = .running)
    (left : (s.tearDown slot (CC.aborted, 1)).plan? slot = some q) : Runs (.planCancel m) s
      ((((s.tearDown slot (CC.aborted, 1)).begin a).setPlan slot (q.cancelledBy a.id)).schedule) :=
  (exec_planCancel begins named).trans (by
    rw [running, State.joinCancel_of_plan left]
    rfl)

theorem planCancel_cancelling (begins : s.begins m (isOp Op.planCancel) a)
    (named : s.handlePlan (cmdArg a.cmd 0) = some (slot, p)) (cancelling : p.state = .cancelling) :
    Answers (.planCancel m) s fun t => t.plan? slot = some (p.cancelledBy a.id) ∧
      (∀ k : Nat, k ≠ slot → t.plan? k = s.plan? k) ∧ Frame s t [.mbx, .eng] [] := by
  have run : exec (.planCancel m) s = done s ((s.begin a).setPlan slot (p.cancelledBy a.id)) :=
    (exec_planCancel begins named).trans (by rw [cancelling, State.joinCancel_of_plan (State.plan_of_handle named)])
  refine Answers.of_run run ⟨?_, fun k other => ?_, Frame.done s ?_⟩
  · exact (State.plan_congr (State.settle_eng _ _) slot).trans (State.plan_setPlan_self _ slot _)
  · exact (State.plan_congr (State.settle_eng _ _) k).trans (State.plan_setPlan_ne (s.begin a) other _)
  · exact (Frame.update s _ (by simp) _).trans (Frame.mapEng _ _ (by simp) _)

theorem teardownComplete_ends {slot : BitVec 8} (found : s.plan? slot.toNat = some p) (cancelling : p.state = .cancelling)
    (ended : s.planReads slot.toNat = false) : Runs (.teardownComplete slot) s (s.endTeardown slot.toNat).schedule := by
  show execTeardownComplete slot s = _
  rw [execTeardownComplete, found]
  exact if_pos (by simp [cancelling, ended])

theorem teardownComplete_waits {slot : BitVec 8}
    (outstanding : ∀ p : Plan, s.plan? slot.toNat = some p → p.state = .cancelling → s.planReads slot.toNat = true) :
    Answers (.teardownComplete slot) s fun t => Frame s t [] [] := by
  refine Answers.of_idle ?_
  show execTeardownComplete slot s = _
  unfold execTeardownComplete
  split
  next p found =>
    refine if_neg fun h => ?_
    simp only [Bool.and_eq_true, decide_eq_true_eq, Bool.not_eq_true'] at h
    exact absurd (outstanding p found h.1) (by simp [h.2])
  next => rfl

/-! ### PLAN_UNLOAD (R157, R178) -/

theorem State.endAppend_plan (s : State) (x : Append) (a : Accepted) (code r k : Nat) (empty : s.plan? k = none) :
    (s.endAppend x a code r).plan? k = none :=
  (State.plan_congr (State.complete_eng _ a code r) k).trans ((KeepsMail.forgetAppend s x a).empty k empty)

theorem State.endDetached_plan (s : State) (k : Nat) (empty : s.plan? k = none) : s.endDetached.plan? k = none := by
  unfold State.endDetached
  refine List.foldlRecOn s.eng.appends _ (motive := fun t : State => t.plan? k = none) empty fun t ht x _ => ?_
  split
  · split
    · exact State.endAppend_plan t x _ _ _ k ht
    · exact ht
  · exact ht

theorem State.unload_plan (s : State) (slot : Nat) (p : Plan) : (s.unload slot p).plan? slot = none :=
  ((KeepsMail.settleCredits _).trans (KeepsMail.schedule _)).empty slot (Store.get?_erase_self s.eng.plans slot)

theorem exec_planUnload (begins : s.begins m (isOp Op.planUnload) a)
    (named : s.handlePlan (cmdArg a.cmd 0) = some (slot, p)) : exec (.planUnload m) s = done s
      (if p.state = .loaded then (s.unload slot p).endDetached.complete a CC.ok 0 else s.complete a CC.stateConflict 0) :=
  congrArg (done s) ((State.onCmd_of_begins begins _).trans (State.withPlan_of_handle named _))

/-! ### Vectors (R174) -/

/-- A plan's vectors once BIND_VECTOR or its unbinding has been done. -/
def Plan.bound (p : Plan) (c : Line) (remove : Bool) : Plan :=
  { p with binds := if remove then p.binds.erase (cmdArg c 2) else p.binds.set (cmdArg c 2) (cmdArg c 0) }

theorem exec_bindVector {remove : Bool} (begins : s.begins m (fun c => isOp Op.bindVector c && bitOf (cmdArg c 3) 0 == remove) a)
    (named : s.handlePlan (cmdArg a.cmd 1) = some (slot, p)) : exec (if remove then .unbindVector m else .bindVector m) s =
      done s ((s.setPlan slot (p.bound a.cmd remove)).complete a CC.ok 0) := by
  cases remove with
  | true =>
    have kind : (fun c => isOp Op.bindVector c && bitOf (cmdArg c 3) 0 == true) =
        fun c => isOp Op.bindVector c && bitOf (cmdArg c 3) 0 := funext fun c => by rw [beq_true]
    rw [kind] at begins
    exact congrArg (done s) ((State.onCmd_of_begins begins _).trans (State.withPlan_of_handle named _))
  | false =>
    have kind : (fun c => isOp Op.bindVector c && bitOf (cmdArg c 3) 0 == false) =
        fun c => isOp Op.bindVector c && !bitOf (cmdArg c 3) 0 := funext fun c => by rw [beq_false]
    rw [kind] at begins
    exact congrArg (done s) ((State.onCmd_of_begins begins _).trans (State.withPlan_of_handle named _))

theorem bindVector_binds {remove : Bool} (begins : s.begins m (fun c => isOp Op.bindVector c && bitOf (cmdArg c 3) 0 == remove) a)
    (named : s.handlePlan (cmdArg a.cmd 1) = some (slot, p)) : Answers (if remove then .unbindVector m else .bindVector m) s fun t =>
      t.plan? slot = some (p.bound a.cmd remove) ∧ (∀ k : Nat, k ≠ slot → t.plan? k = s.plan? k) ∧
      Completed s a CC.ok 0 t ∧ Frame s t (.eng :: cplParts s a) (cplFields s a) := by
  have rings := (KeepsMail.setPlan (State.plan_of_handle named) (p.bound a.cmd remove)).rings
  have eng : ∀ k, (State.settle s ((s.setPlan slot (p.bound a.cmd remove)).complete a CC.ok 0)).plan? k =
      (s.setPlan slot (p.bound a.cmd remove)).plan? k := fun k =>
    State.plan_congr ((State.settle_eng _ _).trans (State.complete_eng _ _ _ _)) k
  refine Answers.of_run (exec_bindVector begins named) ⟨(eng slot).trans (State.plan_setPlan_self s slot _),
    fun k other => (eng k).trans (State.plan_setPlan_ne s other _), rings.completed s a CC.ok 0, Frame.done s ?_⟩
  exact (Frame.mapEng s _ (by simp) _).trans ((rings.frame_complete a CC.ok 0).mono (fun _ h => List.mem_cons_of_mem _ h)
    fun _ h => h)

/-! ### Held flows (R175, R265) -/

/-- What FLOW_RELEASE does with a flow that its plan has. -/
def State.releaseAt (s : State) (a : Accepted) (slot : Nat) (p : Plan) (op i : Nat) : State :=
  if !((p.run op).flow i).held || s.unreleasable p slot op i then s.complete a CC.stateConflict 0
  else ((s.releaseFlow slot op i).schedule).complete a CC.ok 0

/-- A stopped task of the flow. -/
def State.stoppedTask (s : State) (slot op i : Nat) : Option Task :=
  s.eng.tasks.find? (fun t => t.plan == slot && t.op == op && t.index == i && t.state == .stopped)

/-- What a FLOW_RELEASE that cancels does with a flow that its plan has. -/
def State.cancelAt (s : State) (a : Accepted) (slot : Nat) (p : Plan) (op i : Nat) : State :=
  if !((p.run op).flow i).held || p.state ≠ .running then s.complete a CC.stateConflict 0
  else
    let s := match s.stoppedTask slot op i with
      | some t => s.traceTask Ev.release t 1
      | none => s
    ((s.tearDown slot (CC.planFailed, p.firstErr % 65536 + p.firstHeld * 65536)).schedule).complete a CC.ok 0

theorem exec_flowRelease (begins : s.begins m (fun c => isOp Op.flowRelease c && cmdArg c 2 == natOfBool false) a)
    (named : s.handlePlan (cmdArg a.cmd 0) = some (slot, p)) {op i : Nat}
    (flow : p.locate (cmdArg a.cmd 1 % 65536) = some (op, i)) :
    exec (.flowRelease m) s = done s (s.releaseAt a slot p op i) := by
  refine congrArg (done s) ((State.onCmd_of_begins begins _).trans ((State.withPlan_of_handle named _).trans ?_))
  simp only [flow]
  rfl

theorem exec_flowCancel (begins : s.begins m (fun c => isOp Op.flowRelease c && cmdArg c 2 == natOfBool true) a)
    (named : s.handlePlan (cmdArg a.cmd 0) = some (slot, p)) {op i : Nat}
    (flow : p.locate (cmdArg a.cmd 1 % 65536) = some (op, i)) :
    exec (.flowCancel m) s = done s (s.cancelAt a slot p op i) := by
  refine congrArg (done s) ((State.onCmd_of_begins begins _).trans ((State.withPlan_of_handle named _).trans ?_))
  simp only [flow]
  rfl

theorem flow_absent {cancel : Bool} (begins : s.begins m (fun c => isOp Op.flowRelease c && cmdArg c 2 == natOfBool cancel) a)
    (named : s.handlePlan (cmdArg a.cmd 0) = some (slot, p)) (absent : p.locate (cmdArg a.cmd 1 % 65536) = none) :
    Ends (if cancel then .flowCancel m else .flowRelease m) s s a CC.noSuchObject 0 := by
  cases cancel with
  | true =>
    refine Ends.of_run (congrArg (done s) ((State.onCmd_of_begins begins _).trans ((State.withPlan_of_handle named _).trans ?_)))
    simp only [absent]
  | false =>
    refine Ends.of_run (congrArg (done s) ((State.onCmd_of_begins begins _).trans ((State.withPlan_of_handle named _).trans ?_)))
    simp only [absent]

section Flow

variable {op i : Nat}

theorem State.releaseAt_refused (h : ((p.run op).flow i).held = false ∨ s.unreleasable p slot op i = true) :
    s.releaseAt a slot p op i = s.complete a CC.stateConflict 0 :=
  if_pos (by rcases h with h | h <;> simp [h])

theorem State.releaseAt_released (held : ((p.run op).flow i).held = true) (can : s.unreleasable p slot op i = false) :
    s.releaseAt a slot p op i = ((s.releaseFlow slot op i).schedule).complete a CC.ok 0 := if_neg (by simp [held, can])

theorem State.cancelAt_refused (h : ((p.run op).flow i).held = false ∨ p.state ≠ .running) :
    s.cancelAt a slot p op i = s.complete a CC.stateConflict 0 :=
  if_pos (by rcases h with h | h <;> simp [h])

theorem State.cancelAt_running (held : ((p.run op).flow i).held = true) (running : p.state = .running) :
    s.cancelAt a slot p op i = ((((match s.stoppedTask slot op i with
      | some t => s.traceTask Ev.release t 1
      | none => s).tearDown slot (CC.planFailed, p.firstErr % 65536 + p.firstHeld * 65536)).schedule).complete a CC.ok 0) :=
  if_neg (by simp [held, running])

theorem State.stoppedTask_none (h : ∀ t ∈ s.eng.tasks, ¬ (t.plan = slot ∧ t.op = op ∧ t.index = i ∧ t.state = .stopped)) :
    s.stoppedTask slot op i = none :=
  List.find?_eq_none.2 fun t ht => by simpa [and_assoc] using h t ht

end Flow

/-! ### SPILL_CONFIG (R260) -/

theorem exec_spillConfig (begins : s.begins m (isOp Op.spillConfig) a) : exec (.spillConfig m) s = done s
    (if s.eng.plans.any (fun p => p.2.state != .loaded) then s.complete a CC.stateConflict 0
      else ((s.set F.SCH_SPILL_SIZE_MIB (cmdArg a.cmd 0)).settleQuota).complete a CC.ok 0) :=
  congrArg (done s) (State.onCmd_of_begins begins _)

end Plans

end Sys2Proof.Machine

namespace Sys2Proof.Machine

/-! ### Data that has been read leaves the mailboxes as they were -/

theorem KeepsMail.mailRead {s v : State} {a : Accepted} {addr n : Nat} {x : Transfer} {b : List Byte}
    (read : s.mailRead a addr n x = .bytes v b) : KeepsMail s v := by
  have reached := KeepsMail.reach s (p := placeOf 1 (s.mailboxCtx a.mb) addr) rfl n false
  unfold State.mailRead at read
  dsimp only at read
  split at read
  · rw [← (MailRead.bytes.inj read).1]
    exact KeepsMail.refl s
  · split at read
    next found => exact absurd read (by simp)
    next found => exact absurd read (by simp)
    next found => exact absurd read (by simp)
    next u frames found =>
      rw [found] at reached
      split at read
      · split at read
        · exact absurd read (by simp)
        · rw [← (MailRead.bytes.inj read).1]
          exact reached.trans (KeepsMail.queueLines _ _ _ _ _)
      · split at read
        · exact absurd read (by simp)
        · rw [← (MailRead.bytes.inj read).1]
          exact reached.trans (KeepsMail.asks u _ _)

theorem KeepsMail.brings {s v : State} {a : Accepted} {n : Nat} {x : Transfer} {b : List Byte} (h : s.brings a n x v b) :
    KeepsMail s v := by
  obtain ⟨-, rfl, -⟩ | ⟨-, read⟩ := h
  · exact KeepsMail.refl _
  · exact KeepsMail.mailRead read

/-- What follows once a command has read its declared data may use that the mailboxes are as they were. -/
theorem ReadsDeclared.mono {c : Instr} {s u : State} {a : Accepted} {size : Nat} {want : List Byte → Nat} {x : Transfer}
    {work work' : State → List Byte → Prop} (h : ReadsDeclared c s u a size want x work)
    (goes : ∀ (w : State) (b : List Byte), KeepsMail u w → work w b → work' w b) : ReadsDeclared c s u a size want x work' := by
  intro v d header
  obtain ⟨other, same⟩ := h v d header
  refine ⟨other, fun e => ⟨(same e).1, fun ready w b data => ?_⟩⟩
  exact goes w b ((KeepsMail.brings header).trans (KeepsMail.brings data)) ((same e).2 ready w b data)

/-! ### A command that has begun is found by its number -/

theorem State.acceptedOf_begin {s : State} {a : Accepted} (accepted : a ∈ s.mbx.accepted) :
    (s.begin a).acceptedOf (some a.id) = some a.started := by
  have here : a.started ∈ (s.begin a).mbx.accepted := List.mem_map.2 ⟨a, accepted, if_pos rfl⟩
  have found : ((s.begin a).mbx.accepted.find? (fun b => b.id == a.id)).isSome = true :=
    List.find?_isSome.2 ⟨_, here, beq_self_eq_true a.id⟩
  obtain ⟨b, hb⟩ := Option.isSome_iff_exists.1 found
  have same : b.id = a.id := by simpa using List.find?_some hb
  obtain ⟨c, -, e⟩ := List.mem_map.1 (List.mem_of_find?_eq_some hb)
  have begun : b = a.started := by
    split at e
    · exact e.symm
    next other => exact absurd (e ▸ same) other
  exact hb.trans (congrArg some begun)

/-! ### An append that begins (R133, R134, R157) -/

section Append

variable {m : Mailbox} {s g w v p : State} {a : Accepted} {x : Transfer} {t : Attached} {b : List Byte}

theorem exec_appendBlock (m : Mailbox) (x : Transfer) (s : State) : exec (.appendBlock m x) s = done s
    ((s.eng.appends.foldl State.goOnAppend s).onCmd m (isOp Op.appendBlock) fun a =>
      (s.eng.appends.foldl State.goOnAppend s).beginAppend a x) := rfl

/-- What an APPEND_BLOCK does once its block has been read. -/
def State.enterAppend (w : State) (a : Accepted) (b : List Byte) : State :=
  match w.table? (cmdArg a.cmd 0) with
  | none => w.complete a CC.noSuchObject 0
  | some t =>
    if t.decl.role ≠ Role.ingest then w.complete a CC.noSuchObject 0
    else if t.decl.types.length ≤ cmdArg a.cmd 1 % 65536 then w.complete a CC.invalidField 24
    else
      ((w.begin a).mapEng (fun e => { e with appends := insertAppend ⟨a.id, b, none, false⟩ e.appends })).goOnAppend
        ⟨a.id, b, none, false⟩

theorem State.beginAppend_waits (full : g.canStage = false) : g.beginAppend a x = g := if_pos (by simp [full])

theorem State.beginAppend_reads (stage : g.canStage = true) :
    g.beginAppend a x = g.withDeclared a 96 (blockLength a) x fun w b => w.enterAppend a b := if_neg (by simp [stage])

theorem State.enterAppend_absent (absent : w.table? (cmdArg a.cmd 0) = none) :
    w.enterAppend a b = w.complete a CC.noSuchObject 0 := by
  rw [State.enterAppend, absent]

theorem State.enterAppend_other (found : w.table? (cmdArg a.cmd 0) = some t) (other : t.decl.role ≠ Role.ingest) :
    w.enterAppend a b = w.complete a CC.noSuchObject 0 := by
  rw [State.enterAppend, found]
  exact if_pos other

theorem State.enterAppend_column (found : w.table? (cmdArg a.cmd 0) = some t) (role : t.decl.role = Role.ingest)
    (past : t.decl.types.length ≤ cmdArg a.cmd 1 % 65536) : w.enterAppend a b = w.complete a CC.invalidField 24 := by
  rw [State.enterAppend, found]
  exact (if_neg (not_not.2 role)).trans (if_pos past)

/-- The append as it is kept when it begins. -/
def Accepted.firstAppend (a : Accepted) (b : List Byte) : Append := ⟨a.id, b, none, false⟩

/-- The append is kept among those begun. -/
def State.keepAppend (w : State) (a : Accepted) (b : List Byte) : State :=
  (w.begin a).mapEng (fun e => { e with appends := insertAppend (a.firstAppend b) e.appends })

theorem State.enterAppend_begins (found : w.table? (cmdArg a.cmd 0) = some t) (role : t.decl.role = Role.ingest)
    (column : cmdArg a.cmd 1 % 65536 < t.decl.types.length) :
    w.enterAppend a b = (w.keepAppend a b).goOnAppend (a.firstAppend b) := by
  rw [State.enterAppend, found]
  exact (if_neg (not_not.2 role)).trans (if_neg (not_le.2 column))

/-- With no other append begun, a new one is tried at once. -/
theorem State.goOnAppend_first (accepted : a ∈ w.mbx.accepted) (found : w.table? (cmdArg a.cmd 0) = some t)
    (alone : w.eng.appends = []) (serves : w.appendsEnd = false) :
    (w.keepAppend a b).goOnAppend (a.firstAppend b) = (w.keepAppend a b).tryAppend (a.firstAppend b) a.started t := by
  have begun : (w.keepAppend a b).acceptedOf (some (a.firstAppend b).id) = some a.started := State.acceptedOf_begin accepted
  have table : (w.keepAppend a b).table? (cmdArg a.started.cmd 0) = some t := found
  have serving : (w.keepAppend a b).appendsEnd = false := serves
  have appends : (w.keepAppend a b).eng.appends = [a.firstAppend b] := by
    show insertAppend (a.firstAppend b) w.eng.appends = _
    rw [alone]
    rfl
  have first : ∀ n k, (w.keepAppend a b).appendBehind (a.firstAppend b) n k = false := fun n k => by
    rw [State.appendBehind, appends]
    simp
  rw [State.goOnAppend, begun]
  simp only [table, serving, first, Bool.false_eq_true, if_false]
  rfl

/-! What becomes of an append that is tried, by what its table holds already. -/

section Tried

variable {q : State} {y : Append} {old : Accepted0}

theorem State.tryAppend_rejected {e : BlockErr}
    (held : q.acceptedBlock t (cmdArg a.cmd 1 % 65536) (blockHead y.data).firstRow = (v, .ok old))
    (rejected : checkAppend t (cmdArg a.cmd 1 % 65536) old y.data (v.flag F.CBV_CTL_CRC_REQ) = .error e) :
    q.tryAppend y a t = (v.rejectBlock e (0x80 + mailboxNumber a.mb)).endAppend y a CC.blockInvalid (e.word 0) := by
  rw [State.tryAppend, held]
  simp only [rejected]

theorem State.tryAppend_again
    (held : q.acceptedBlock t (cmdArg a.cmd 1 % 65536) (blockHead y.data).firstRow = (v, .ok old))
    (sound : checkAppend t (cmdArg a.cmd 1 % 65536) old y.data (v.flag F.CBV_CTL_CRC_REQ) = .ok ())
    (same : old.bytes.isSome = true) : q.tryAppend y a t = (v.bump C.cbvChecked).endAppend y a CC.ok 0 := by
  rw [State.tryAppend, held]
  simp only [sound, same, if_true]

section Fresh

variable (held : q.acceptedBlock t (cmdArg a.cmd 1 % 65536) (blockHead y.data).firstRow = (v, .ok old))
  (sound : checkAppend t (cmdArg a.cmd 1 % 65536) old y.data (v.flag F.CBV_CTL_CRC_REQ) = .ok ())
  (fresh : old.bytes = none) (range : t.opened.all (fun o => o.firstRow == (blockHead y.data).firstRow) = true)
include held sound fresh range

theorem State.tryAppend_full {k : Nat} (full : t.full y.data.length t.columnsLeft = some k) :
    q.tryAppend y a t = v.areaFull y t := by
  have opened : t.opened.any (fun o => o.firstRow != (blockHead y.data).firstRow) = false :=
    List.any_eq_false.2 fun o ho => by simpa using List.all_eq_true.1 range o ho
  rw [State.tryAppend, held]
  simp only [sound, fresh, opened, full, Option.isSome_none, Bool.false_eq_true, if_false]

theorem State.tryAppend_writes (room : t.full y.data.length t.columnsLeft = none) :
    q.tryAppend y a t =
      (((v.bump C.cbvChecked).setTable (t.append (cmdArg a.cmd 1 % 65536) y.data).1).setAppend
        { y with job := some ⟨t, (t.append (cmdArg a.cmd 1 % 65536) y.data).2, (blockHead y.data).rows, 0⟩, full := false }).writeAppend
          { y with job := some ⟨t, (t.append (cmdArg a.cmd 1 % 65536) y.data).2, (blockHead y.data).rows, 0⟩, full := false } a
          ⟨t, (t.append (cmdArg a.cmd 1 % 65536) y.data).2, (blockHead y.data).rows, 0⟩ := by
  have opened : t.opened.any (fun o => o.firstRow != (blockHead y.data).firstRow) = false :=
    List.any_eq_false.2 fun o ho => by simpa using List.all_eq_true.1 range o ho
  rw [State.tryAppend, held]
  simp only [sound, fresh, opened, room, Option.isSome_none, Bool.false_eq_true, if_false]

end Fresh

/-- Writes that no earlier command holds back and that are all performed end the append. -/
theorem State.writeAppend_ends {u : State} {j : WriteJob} {n : List MemWrite} {e : Unit}
    (free : j.writes.all (fun l => !l.lines.any (u.lineAhead a)) = true)
    (performed : u.performWrites a.waiter (u.mailboxCtx a.mb) j.writes = (p, n, .ok e)) :
    u.writeAppend y a j = p.endAppend y a CC.ok 0 := by
  have all : j.writes.takeWhile (fun l => !l.lines.any (u.lineAhead a)) = j.writes :=
    List.takeWhile_eq_self_iff.2 fun l hl => List.all_eq_true.1 free l hl
  rw [State.writeAppend]
  simp only [all, performed, List.drop_length]

end Tried

/-- A begun APPEND_BLOCK is checked, and then it ends, waits for room, or writes. -/
theorem appendBlock_begins {c : Instr} (accepted : a ∈ w.mbx.accepted) (kind : a.mb = m)
    (run : exec c s = done s (w.enterAppend a b)) (found : w.table? (cmdArg a.cmd 0) = some t) (role : t.decl.role = Role.ingest)
    (column : cmdArg a.cmd 1 % 65536 < t.decl.types.length) :
    let col := cmdArg a.cmd 1 % 65536
    let y : Append := ⟨a.id, b, none, false⟩
    let q := (w.begin a).mapEng (fun e => { e with appends := insertAppend y e.appends })
    Runs c s (q.goOnAppend y) ∧
    (w.eng.appends = [] → w.appendsEnd = false → a.waits = [] → ∀ (v : State) (old : Accepted0),
      q.acceptedBlock t col (blockHead b).firstRow = (v, .ok old) →
      (∀ e : BlockErr, checkAppend t col old b (v.flag F.CBV_CTL_CRC_REQ) = .error e →
        Runs c s ((v.rejectBlock e (0x80 + mailboxNumber m)).endAppend y a CC.blockInvalid (e.word 0))) ∧
      (checkAppend t col old b (v.flag F.CBV_CTL_CRC_REQ) = .ok () →
        (old.bytes.isSome = true → Runs c s ((v.bump C.cbvChecked).endAppend y a CC.ok 0)) ∧
        (old.bytes = none → t.opened.all (fun o => o.firstRow == (blockHead b).firstRow) = true →
          (∀ k : Nat, t.full b.length t.columnsLeft = some k → Runs c s (v.areaFull y t)) ∧
          (t.full b.length t.columnsLeft = none →
            let r := t.append col b
            let z : Append := { y with job := some ⟨t, r.2, (blockHead b).rows, 0⟩ }
            let u := ((v.bump C.cbvChecked).setTable r.1).setAppend z
            r.2.all (fun l => !l.lines.any (u.lineAhead a)) = true →
            ∀ (p : State) (n : List MemWrite) (e : Unit),
              u.performWrites a.waiter (u.mailboxCtx a.mb) r.2 = (p, n, .ok e) →
              Runs c s (p.endAppend z a CC.ok 0))))) := by
  intro col y q
  have begins : exec c s = done s (q.goOnAppend y) := run.trans (congrArg (done s) (State.enterAppend_begins found role column))
  refine ⟨begins, fun alone serves _ v old held => ?_⟩
  have tried : ∀ {z : State}, q.tryAppend y a.started t = z → Runs c s z := fun e =>
    begins.trans (congrArg (done s) ((State.goOnAppend_first accepted found alone serves).trans e))
  refine ⟨fun e rejected => ?_, fun sound => ⟨fun same => tried (State.tryAppend_again held sound same), fun fresh range =>
    ⟨fun k full => tried (State.tryAppend_full held sound fresh range full), fun room => ?_⟩⟩⟩
  · rw [← kind]
    exact tried (State.tryAppend_rejected held rejected)
  · intro r z u free p n e performed
    exact tried ((State.tryAppend_writes held sound fresh range room).trans (State.writeAppend_ends free performed))

end Append

/-- The command that begins next is of its own mailbox. -/
theorem State.nextCmd_mailbox {s : State} {m : Mailbox} {p : Line → Bool} {a : Accepted} (next : s.nextCmd m p = some a) :
    a.mb = m := by
  unfold State.nextCmd at next
  split at next
  next b found =>
    obtain rfl := Option.some.inj next
    have fits := List.find?_some found
    simp only [Bool.and_eq_true, beq_iff_eq] at fits
    exact fits.1.1.1.1
  next =>
    split at next
    next b found =>
      split at next
      next =>
        obtain rfl := Option.some.inj next
        have fits := List.find?_some found
        simp only [Bool.and_eq_true, beq_iff_eq] at fits
        exact fits.1
      next => exact absurd next (by simp)
    next => exact absurd next (by simp)

/-- What a FLOW_RELEASE does with a held flow. -/
theorem flow_held {m : Mailbox} {s : State} {cancel : Bool} {a : Accepted} {slot : Nat} {p : Plan} {op i : Nat}
    (begins : s.begins m (fun c => isOp Op.flowRelease c && cmdArg c 2 == natOfBool cancel) a)
    (named : s.handlePlan (cmdArg a.cmd 0) = some (slot, p)) (flow : p.locate (cmdArg a.cmd 1 % 65536) = some (op, i)) :
    exec (if cancel then .flowCancel m else .flowRelease m) s =
      done s (if cancel then s.cancelAt a slot p op i else s.releaseAt a slot p op i) := by
  cases cancel with
  | true => exact exec_flowCancel begins named flow
  | false => exact exec_flowRelease begins named flow

/-- Settles O55: plans that are cancelled, torn down and unloaded, vectors, held flows, the spill size, and appends as they begin. -/
theorem plansEndAndFlowsAreReleased : Obligations.PlansEndAndFlowsAreReleased := by
  refine ⟨fun m s a begins slot p named => ⟨planCancel_loaded begins named, planCancel_cancelling begins named,
      fun running q left => planCancel_running begins named running left⟩,
    fun slot s => ⟨fun p => teardownComplete_ends, teardownComplete_waits⟩,
    fun m s a begins slot p named => ⟨fun other => ?_, fun loaded => ⟨?_, ?_⟩⟩,
    fun m s remove a begins slot p named => ?_,
    fun m s cancel a begins slot p named => ⟨flow_absent begins named, fun op i flow => ⟨fun free => ?_, fun held => ?_⟩⟩,
    fun m s a begins => ⟨fun q hq busy => ?_, fun h => ?_⟩, ?_⟩
  · exact Ends.of_run ((exec_planUnload begins named).trans (congrArg (done s) (if_neg other)))
  · exact State.endDetached_plan _ slot (State.unload_plan s slot p)
  · exact (exec_planUnload begins named).trans (congrArg (done s) (if_pos loaded))
  · exact bindVector_binds begins named
  · have run := flow_held begins named flow
    cases cancel with
    | true => exact Ends.of_run (run.trans (congrArg (done s) (State.cancelAt_refused (.inl free))))
    | false => exact Ends.of_run (run.trans (congrArg (done s) (State.releaseAt_refused (.inl free))))
  · have run := flow_held begins named flow
    refine ⟨fun e lost => ?_, fun e can => ?_, fun e other => ?_, fun e running none_stopped => ?_, fun e running k stopped => ?_⟩
      <;> subst e
    · exact Ends.of_run (run.trans (congrArg (done s) (State.releaseAt_refused (.inr lost))))
    · exact run.trans (congrArg (done s) (State.releaseAt_released held can))
    · exact Ends.of_run (run.trans (congrArg (done s) (State.cancelAt_refused (.inr other))))
    · refine run.trans (congrArg (done s) ((State.cancelAt_running held running).trans ?_))
      rw [State.stoppedTask_none none_stopped]
    · have found : s.stoppedTask slot op i = some k := stopped
      refine run.trans (congrArg (done s) ((State.cancelAt_running held running).trans ?_))
      rw [found]
  · have some_busy : s.eng.plans.any (fun p => p.2.state != .loaded) = true := List.any_eq_true.2 ⟨q, hq, by simpa using busy⟩
    exact Ends.of_run ((exec_spillConfig begins).trans (congrArg (done s) (if_pos some_busy)))
  · exact (exec_spillConfig begins).trans (congrArg (done s) (if_neg (by simpa using h)))
  · intro m x s a g c col begins
    refine ⟨fun full => ?_, fun stage => ?_⟩
    · exact (exec_appendBlock m x s).trans (congrArg (done s) ((State.onCmd_of_begins begins _).trans (State.beginAppend_waits full)))
    have run : exec c s = done s (g.withDeclared a 96 (blockLength a) x fun w b => w.enterAppend a b) :=
      (exec_appendBlock m x s).trans (congrArg (done s) ((State.onCmd_of_begins begins _).trans (State.beginAppend_reads stage)))
    refine (ReadsDeclared.of_run run fun w b goes => goes).mono fun w b kept goes => ⟨fun absent => ?_, fun t found =>
      ⟨fun other => ?_, fun role past => ?_, fun role column => ?_⟩⟩
    · exact Ends.of_run (goes.trans (congrArg (done s) (State.enterAppend_absent absent)))
    · exact Ends.of_run (goes.trans (congrArg (done s) (State.enterAppend_other found other)))
    · exact Ends.of_run (goes.trans (congrArg (done s) (State.enterAppend_column found role past)))
    · exact appendBlock_begins (kept.mbx ▸ (State.nextCmd_accepted begins.1).1) (State.nextCmd_mailbox begins.1) goes found role column

end Sys2Proof.Machine

namespace Sys2Proof.Machine

/-! ### A handle that names no plan (R142, R180) -/

/-- A run to a state that is known to be `v`. -/
theorem Runs.of_eq {c : Instr} {s u v : State} (run : exec c s = done s u) (e : u = v) : Runs c s v :=
  run.trans (congrArg (done s) e)

/-- A run to a state that is known to be a completion. -/
theorem Ends.of_eq {c : Instr} {s u v : State} {a : Accepted} {code r : Nat} (run : exec c s = done s u)
    (e : u = v.complete a code r) : Ends c s v a code r := Ends.of_run (Runs.of_eq run e)

theorem State.withPlan_absent {s : State} {a : Accepted} {k : Nat} (absent : s.handlePlan (cmdArg a.cmd k) = none)
    (f : Nat → Plan → State) : s.withPlan a k f = s.complete a CC.noSuchObject 0 := by
  rw [State.withPlan, absent]

/-- A command on a plan ends where its handle names none. -/
theorem Ends.of_absent {c : Instr} {s : State} {m : Mailbox} {p : Line → Bool} {a : Accepted} {k : Nat}
    {f : Accepted → Nat → Plan → State} (run : exec c s = done s (s.onCmd m p fun a => s.withPlan a k (f a)))
    (begins : s.begins m p a) (absent : s.handlePlan (cmdArg a.cmd k) = none) : Ends c s s a CC.noSuchObject 0 :=
  Ends.of_eq run ((State.onCmd_of_begins begins _).trans (State.withPlan_absent absent _))

/-! ### The image of a PLAN_LOAD (R151, R153) -/

/-- What a PLAN_LOAD does once its image has been read. -/
def State.enterLoad (w : State) (a : Accepted) (b : List Byte) (heads : List Transfer) (validate : Bool) : State :=
  if bitOf (leField b 6 2) 1 && !w.flag F.RDY_STATUS_GRN_LAZY then w.complete a CC.notReady w.rdyWord
  else
    match imageFail b with
    | some k => if k < 12 then w.failLoad a CC.imageInvalid k else w.loadImage a (parseImage b) (some k) heads validate
    | none => w.loadImage a (parseImage b) none heads validate

/-- The plan slot of a PLAN_LOAD: the one that it claimed as it was accepted, else the first empty one. -/
def State.slotToLoad (w : State) (a : Accepted) : Option Nat :=
  match w.slotOf a with
  | some k => some k
  | none => w.emptySlot

/-- The state with the attached tables of another. -/
def State.withTables (t w : State) : State := { t with eng := { t.eng with tables := w.eng.tables } }

/-- The claims of a bound image, with the tables of `t` attached and the writes `l` of their fresh heads; `u` is the state before
the attachment took effect, `v` the one with the virtual nodes. -/
def State.claimBound (u : State) (a : Accepted) (i : Image) (slot : Option Nat) (ctx : Nat) (t : State) (l : List MemWrite)
    (v : State) (g : Binding) : State :=
  match v.claim i slot (v.reservation i g.nodes) with
  | .error k => u.failLoad a CC.resourceLimit k
  | .ok r =>
    match (v.withTables t).performWrites a.waiter ctx l with
    | (p, _, .ok _) =>
      let z := p.putPlan i (loadedPlan i ctx (mailboxNumber a.mb) g r) r
      z.complete a CC.ok (z.handleOf r.slot)
    | (p, _, .stop c d) => ({ u with regs := p.regs } : State).dmaEnd a c d
    | (p, _, .park q) => ({ p with eng := { p.eng with plans := u.eng.plans, tables := u.eng.tables, nodes := u.eng.nodes } } :
        State).parkCmd a [q]
    | _ => (u.waitLine a.waiter).parkCmd a []

/-- Checks 12 to 14 of an image whose tables have passed check 11, and what follows. -/
def State.claimImage (u : State) (a : Accepted) (i : Image) (own slot : Option Nat) (ctx : Nat) (t : State) (l : List MemWrite)
    (validate : Bool) : State :=
  if own = some 12 then u.failLoad a CC.imageInvalid 12
  else if !u.shapeAccepted i then u.failLoad a CC.imageInvalid 13
  else
    match u.bind i with
    | none => u.failLoad a CC.imageInvalid 14
    | some (v, g) =>
      if validate then u.complete a CC.ok (v.reservation i g.nodes)
      else u.claimBound a i slot ctx t l v g

section Load

variable {m : Mailbox} {x : Transfer} {heads : List Transfer} {validate : Bool} {s t u v w : State} {a : Accepted} {b : List Byte}
  {i : Image} {own slot : Option Nat} {ctx : Nat} {l : List MemWrite}

theorem exec_planLoad (begins : s.begins m (fun c => isOp Op.planLoad c && bitOf (cmdArg c 0) 0 == validate) a) :
    exec (if validate then .planLoadValidate m x heads else .planLoad m x heads) s =
      done s (s.withDeclared a 192 imgLen x fun w b => w.enterLoad a b heads validate) := by
  cases validate with
  | true => exact congrArg (done s) (State.onCmd_of_begins begins _)
  | false => exact congrArg (done s) (State.onCmd_of_begins begins _)

theorem State.enterLoad_notReady (needs : (bitOf (leField b 6 2) 1 && !w.flag F.RDY_STATUS_GRN_LAZY) = true) :
    w.enterLoad a b heads validate = w.complete a CC.notReady w.rdyWord := if_pos needs

theorem State.enterLoad_refused {k : Nat} (ready : (bitOf (leField b 6 2) 1 && !w.flag F.RDY_STATUS_GRN_LAZY) = false)
    (fails : imageFail b = some k) (early : k < 12) : w.enterLoad a b heads validate = w.failLoad a CC.imageInvalid k := by
  rw [State.enterLoad, if_neg (by simp [ready]), fails]
  exact if_pos early

/-- An image that fails none of its own checks before check 12 goes on to its tables. -/
theorem State.enterLoad_loads (ready : (bitOf (leField b 6 2) 1 && !w.flag F.RDY_STATUS_GRN_LAZY) = false)
    (own : imageFail b = none ∨ imageFail b = some 12) :
    w.enterLoad a b heads validate = w.loadImage a (parseImage b) (imageFail b) heads validate := by
  rw [State.enterLoad, if_neg (by simp [ready])]
  rcases own with h | h <;> simp [h]

/-- The tables are attached first; what follows sees the tables as before. -/
theorem State.loadImage_eq (w : State) (a : Accepted) (i : Image) (own : Option Nat) (heads : List Transfer) (validate : Bool) :
    w.loadImage a i own heads validate = match w.attachAll a ((w.slotToLoad a).getD 256) heads [] i.tables with
      | .wait t q => (t.withTables w).parkCmd a [q]
      | .closed t => t.withTables w
      | .ended t => t.withTables w
      | .fails t => (t.withTables w).failLoad a CC.imageInvalid 11
      | .ok t l => (t.withTables w).claimImage a i own (w.slotToLoad a) (w.mailboxCtx a.mb) t l validate := rfl

section Attached

variable {z : State}

theorem State.loadImage_fails (h : w.attachAll a ((w.slotToLoad a).getD 256) heads [] i.tables = .fails z) :
    w.loadImage a i own heads validate = (z.withTables w).failLoad a CC.imageInvalid 11 := by
  rw [State.loadImage_eq, h]

theorem State.loadImage_waits {q : PageWait} (h : w.attachAll a ((w.slotToLoad a).getD 256) heads [] i.tables = .wait z q) :
    w.loadImage a i own heads validate = (z.withTables w).parkCmd a [q] := by
  rw [State.loadImage_eq, h]

theorem State.loadImage_ended (h : w.attachAll a ((w.slotToLoad a).getD 256) heads [] i.tables = .ended z) :
    w.loadImage a i own heads validate = z.withTables w := by
  rw [State.loadImage_eq, h]

theorem State.loadImage_attached (h : w.attachAll a ((w.slotToLoad a).getD 256) heads [] i.tables = .ok t l) :
    w.loadImage a i own heads validate =
      (t.withTables w).claimImage a i own (w.slotToLoad a) (w.mailboxCtx a.mb) t l validate := by
  rw [State.loadImage_eq, h]

end Attached

/-! ### A load that fails -/

theorem SameRings.dropWaiter (s : State) (w : Waiter) : SameRings s (s.dropWaiter w) := (KeepsMail.dropWaiter s w).rings

theorem Frame.dropWaiter (s : State) (w : Waiter) {ps : List Part} (h : .grn ∈ ps) (fs : List Field) :
    Frame s (s.dropWaiter w) ps fs := by
  unfold State.dropWaiter
  refine ⟨by split <;> rfl, by split <;> rfl, fun part hp => ?_, fun g _ n => State.getN_same (by split <;> rfl) g n⟩
  cases part with
  | grn => exact absurd h hp
  | _ => split <;> rfl

/-- A command whose whole effect is a failed load ends, and gives back the reservations that it waited for. -/
theorem Answers.of_failLoad {c : Instr} {code r : Nat} (run : exec c s = done s (w.failLoad a code r)) :
    Answers c s fun t => Completed w a code r t ∧ Frame w t (.grn :: cplParts w a) (cplFields w a) := by
  have rings := SameRings.dropWaiter w a.waiter
  refine Answers.of_run run ⟨rings.completed s a code r, Frame.done s ?_⟩
  exact (Frame.dropWaiter w _ (by simp) _).trans
    ((rings.frame_complete a code r).mono (fun _ h => List.mem_cons_of_mem _ h) fun _ h => h)

/-! ### Binding and claims (R154, R155, R165, R245) -/

theorem State.claimImage_check12 (fails : own = some 12) :
    u.claimImage a i own slot ctx t l validate = u.failLoad a CC.imageInvalid 12 := if_pos fails

section Sound

variable (sound : own = none)
include sound

theorem State.claimImage_shape (refused : u.shapeAccepted i = false) :
    u.claimImage a i own slot ctx t l validate = u.failLoad a CC.imageInvalid 13 :=
  (if_neg (by simp [sound])).trans (if_pos (by simp [refused]))

variable (shaped : u.shapeAccepted i = true)
include shaped

/-- An image that passes checks 12 and 13 is bound. -/
theorem State.claimImage_shaped : u.claimImage a i own slot ctx t l validate =
    match u.bind i with
    | none => u.failLoad a CC.imageInvalid 14
    | some (v, g) =>
      if validate then u.complete a CC.ok (v.reservation i g.nodes)
      else u.claimBound a i slot ctx t l v g :=
  (if_neg (by simp [sound])).trans (if_neg (by simp [shaped]))

theorem State.claimImage_unbound (unbound : u.bind i = none) :
    u.claimImage a i own slot ctx t l validate = u.failLoad a CC.imageInvalid 14 := by
  rw [State.claimImage_shaped sound shaped, unbound]

variable {g : Binding} (bound : u.bind i = some (v, g))
include bound

theorem State.claimImage_validated (asked : validate = true) :
    u.claimImage a i own slot ctx t l validate = u.complete a CC.ok (v.reservation i g.nodes) := by
  rw [State.claimImage_shaped sound shaped, bound]
  exact if_pos asked

theorem State.claimImage_bound (asked : validate = false) :
    u.claimImage a i own slot ctx t l validate = u.claimBound a i slot ctx t l v g := by
  rw [State.claimImage_shaped sound shaped, bound]
  exact if_neg (by simp [asked])

end Sound

section Claim

variable {g : Binding}

theorem State.claimBound_limit {k : Nat} (short : v.claim i slot (v.reservation i g.nodes) = .error k) :
    u.claimBound a i slot ctx t l v g = u.failLoad a CC.resourceLimit k := by
  rw [State.claimBound, short]

theorem State.claimBound_loads {r : Claims} (claimed : v.claim i slot (v.reservation i g.nodes) = .ok r) {p : State}
    {n : List MemWrite} {e : Unit} (written : (v.withTables t).performWrites a.waiter ctx l = (p, n, .ok e)) :
    let z := p.putPlan i (loadedPlan i ctx (mailboxNumber a.mb) g r) r
    u.claimBound a i slot ctx t l v g = z.complete a CC.ok (z.handleOf r.slot) := by
  rw [State.claimBound, claimed]
  simp only [written]

end Claim

/-- A claim that succeeds reserves what was asked for. -/
theorem State.claim_resv {resv : Nat} {r : Claims} (claimed : v.claim i slot resv = .ok r) : r.resv = resv := by
  unfold State.claim at claimed
  dsimp only at claimed
  split at claimed
  next => cases claimed
  next =>
    split at claimed
    next => cases claimed
    next =>
      split at claimed
      next => cases claimed
      next =>
        split_ifs at claimed
        exact (Except.ok.inj claimed) ▸ rfl

theorem State.plan_putPlan_self (s : State) (i : Image) (p : Plan) (r : Claims) : (s.putPlan i p r).plan? r.slot = some p :=
  State.plan_setPlan_self _ r.slot p

end Load

/-! ### PLAN_START (R99, R170) -/

/-- The length of a plan's parameter block by the number of its parameters. -/
theorem Plan.blockLen_eq (p : Plan) : p.blockLen = if p.image.params.length = 0 then 0 else 16 + 16 * p.image.params.length := by
  simp only [Plan.blockLen, List.isEmpty_iff, List.length_eq_zero_iff]

section Start

variable {m : Mailbox} {x : Transfer} {s w : State} {a : Accepted} {b : List Byte} {slot : Nat} {p : Plan}

theorem exec_planStart (begins : s.begins m (isOp Op.planStart) a) : exec (.planStart m x) s = done s
    (if cmdLen a.cmd = 0 then (if s.notReady a.cmd then s.complete a CC.notReady s.rdyWord else s.startWith a [])
      else s.withDeclared a 16 (fun h => leField h 8 4) x fun w b => w.startWith a b) :=
  congrArg (done s) (State.onCmd_of_begins begins _)

variable (named : w.handlePlan (cmdArg a.cmd 0) = some (slot, p))
include named

theorem State.startWith_length (other : cmdLen a.cmd ≠ p.blockLen) :
    w.startWith a b = w.complete a CC.lengthMismatch p.blockLen :=
  (State.withPlan_of_handle named _).trans (if_pos other)

variable (len : cmdLen a.cmd = p.blockLen)
include len

theorem State.startWith_state (other : p.state ≠ .loaded) : w.startWith a b = w.complete a CC.stateConflict 0 :=
  (State.withPlan_of_handle named _).trans ((if_neg (not_not.2 len)).trans (if_pos other))

variable (loaded : p.state = .loaded)
include loaded

theorem State.startWith_bare (bare : p.image.params.length = 0) : w.startWith a b = w.startPlan a slot p p.image :=
  (State.withPlan_of_handle named _).trans ((if_neg (not_not.2 len)).trans ((if_neg (not_not.2 loaded)).trans
    (if_pos (by simpa using bare))))

variable (params : p.image.params.length ≠ 0)
include params

/-- With its block as long as its plan wants, a PLAN_START of a plan with parameters goes by the block. -/
theorem State.startWith_block : w.startWith a b =
    match blockHeaderFail b p.image.params.length, p.image.withParams b with
    | some o, _ => w.complete a CC.invalidField o
    | none, .error o => w.complete a CC.invalidField o
    | none, .ok i => w.startPlan a slot p i :=
  (State.withPlan_of_handle named _).trans ((if_neg (not_not.2 len)).trans ((if_neg (not_not.2 loaded)).trans
    (if_neg (by simpa using params))))

theorem State.startWith_header {o : Nat} (wrong : blockHeaderFail b p.image.params.length = some o) :
    w.startWith a b = w.complete a CC.invalidField o := by
  rw [State.startWith_block named len loaded params, wrong]

variable (header : blockHeaderFail b p.image.params.length = none)
include header

theorem State.startWith_value {o : Nat} (refused : p.image.withParams b = .error o) :
    w.startWith a b = w.complete a CC.invalidField o := by
  rw [State.startWith_block named len loaded params, header, refused]

theorem State.startWith_starts {i : Image} (patched : p.image.withParams b = .ok i) :
    w.startWith a b = w.startPlan a slot p i := by
  rw [State.startWith_block named len loaded params, header, patched]

end Start

/-! ### PLAN_STATUS (R182) -/

theorem State.statusBytes_length (s : State) (slot : Nat) (p : Plan) : (s.statusBytes slot p).length = 256 := by
  simp only [State.statusBytes, List.length_append, leBytes_length, List.length_replicate]

theorem exec_planStatus {m : Mailbox} {s : State} {a : Accepted} {slot : Nat} {p : Plan}
    (begins : s.begins m (isOp Op.planStatus) a) (named : s.handlePlan (cmdArg a.cmd 0) = some (slot, p)) :
    exec (.planStatus m) s = done s (s.deliver a (s.statusBytes slot p)) :=
  congrArg (done s) ((State.onCmd_of_begins begins _).trans (State.withPlan_of_handle named _))

/-- Settles O54: a load by where it ends, commands on a plan that is not there, a start by its block, and the status delivered. -/
theorem plansAreLoadedAndStarted : Obligations.PlansAreLoadedAndStarted := by
  refine ⟨fun m x heads validate s a begins => ?_, fun m s a => ?_, ?_, fun m s a begins slot p named =>
    ⟨State.statusBytes_length s slot p, Delivers.of_run (exec_planStatus begins named)⟩⟩
  · refine ReadsDeclared.of_run (exec_planLoad begins) fun w b run => ⟨fun needs => ?_, fun ready => ⟨fun k fails early => ?_,
      fun sound => ?_⟩⟩
    · exact Ends.of_eq run (State.enterLoad_notReady needs)
    · exact Answers.of_failLoad (Runs.of_eq run (State.enterLoad_refused ready fails early))
    have loads := Runs.of_eq run (State.enterLoad_loads ready sound)
    refine ⟨fun u fails => Runs.of_eq loads (State.loadImage_fails fails),
      fun u q waits => Runs.of_eq loads (State.loadImage_waits waits),
      fun u ended => Runs.of_eq loads (State.loadImage_ended ended), fun t l attached => ?_⟩
    have claims := Runs.of_eq loads (State.loadImage_attached attached)
    refine ⟨fun fails => Runs.of_eq claims (State.claimImage_check12 fails), fun passed =>
      ⟨fun refused => Runs.of_eq claims (State.claimImage_shape passed refused),
        fun shaped unbound => Runs.of_eq claims (State.claimImage_unbound passed shaped unbound),
        fun shaped v g bound => ⟨fun asked => ?_, fun asked => ?_⟩⟩⟩
    · exact Ends.of_eq claims (State.claimImage_validated passed shaped bound asked)
    have resources := Runs.of_eq claims (State.claimImage_bound passed shaped bound asked)
    refine ⟨fun k short => Runs.of_eq resources (State.claimBound_limit short), fun r claimed p n e written => ⟨?_, ?_⟩⟩
    · exact ⟨_, State.plan_putPlan_self p _ _ r, rfl, rfl, State.claim_resv claimed⟩
    · exact Ends.of_eq resources (State.claimBound_loads claimed written)
  · exact ⟨Ends.of_absent rfl, Ends.of_absent rfl, Ends.of_absent rfl, Ends.of_absent rfl, Ends.of_absent rfl, Ends.of_absent rfl,
      Ends.of_absent rfl⟩
  · intro m x s a begins c goes
    have starts : ∀ (w : State) (b : List Byte), exec c s = done s (w.startWith a b) → goes w b := by
      intro w b run
      refine ⟨fun absent => Ends.of_eq run (State.withPlan_absent absent _), fun slot p named => ?_⟩
      have want := p.blockLen_eq
      refine ⟨fun other => ?_, fun len other => ?_, fun len loaded => ⟨fun bare => ?_, fun params => ⟨fun o wrong => ?_, fun header =>
        ⟨fun o refused => ?_, fun i patched => ?_⟩⟩⟩⟩
      · rw [← want] at other ⊢
        exact Ends.of_eq run (State.startWith_length named other)
      all_goals replace len := len.trans want.symm
      · exact Ends.of_eq run (State.startWith_state named len other)
      · exact Runs.of_eq run (State.startWith_bare named len loaded bare)
      · exact Ends.of_eq run (State.startWith_header named len loaded params wrong)
      · exact Ends.of_eq run (State.startWith_value named len loaded params header refused)
      · exact Runs.of_eq run (State.startWith_starts named len loaded params header patched)
    have run := exec_planStart (x := x) begins
    refine ⟨fun empty => ⟨fun unready => ?_, fun ready => ?_⟩, fun data => ?_⟩
    · exact Ends.of_run (run.trans (by rw [if_pos empty, if_pos unready]))
    · exact starts s [] (run.trans (by rw [if_pos empty, if_neg (by simp [ready])]))
    · exact ReadsDeclared.of_run (run.trans (by rw [if_neg data])) starts

end Sys2Proof.Machine

/-! SUPPORT. The steps of block tasks, close tasks and end-of-stream tasks, operator by operator, and the orders of rows. -/

namespace Sys2Proof.Machine

/-! ### HASH_JOIN (R217, R218) -/

theorem State.buildStep_unique {s : State} {k : Task} (unique : (s.opRec k).unique = true) :
    ReadsBack 0 (fun st => st.tagged 0) (fun table => TakesInput (buildRow table) dropMark noLast) s k (s.buildStep k) := by
  rw [State.buildStep, if_pos unique]
  exact State.withChunks_reads _ fun v _ => v.takeInput_takes _ _ _ k

theorem State.buildStep_plain {s : State} {k : Task} (plain : (s.opRec k).unique = false) :
    TakesInput (buildRow []) dropMark noLast s k (s.buildStep k) := by
  rw [State.buildStep, if_neg (by simp [plain])]
  exact s.takeInput_takes _ _ _ k

section Probe

variable {s : State} {k : Task}

theorem State.probeStep_split (large : (s.st k).mode = 2) (split : (s.st k).split = true) :
    TakesInput splitRow dropMark noLast s k (s.probeStep k) := by
  rw [State.probeStep, if_pos large, if_pos split]
  exact s.takeInput_takes _ _ _ k

theorem State.probeStep_splits (large : (s.st k).mode = 2) (whole : (s.st k).split = false) :
    s.probeStep k = s.splitTable k fun v => v.takeInput k splitRow dropMark noLast := by
  rw [State.probeStep, if_pos large, if_neg (by simp [whole])]

theorem State.probeStep_probes (small : (s.st k).mode ≠ 2) {table : List Row} (loaded : k.scratch = some table) :
    TakesInput (probeRow table) dropMark noLast s k (s.probeStep k) := by
  rw [State.probeStep, if_neg small, loaded]
  exact s.takeInput_takes _ _ _ k

theorem State.probeStep_loads (small : (s.st k).mode ≠ 2) (empty : k.scratch = none) :
    s.probeStep k = s.withTable k fun v table => v.setTask { k with scratch := some table, data := [] } := by
  rw [State.probeStep, if_neg small, empty]

end Probe

/-- One partition of a LARGE join has its table and its probe rows read back, and joins them (R217). -/
theorem State.joinPart_joins (s : State) (k : Task) :
    ReadsBack 0 (fun st => (st.tagged 1).filter (fun c => c.part == k.part)) (fun table =>
      ReadsBack 1 (fun _ => ((s.st k).tagged 2).filter (fun c => c.part == k.part)) (fun probes =>
        DoesOwnWork (fun v k w => (probes ++ ((v.st k).parts.filter (fun x => x.1 == k.part)).map (·.2)).foldl
          (fun w r => v.probeOne k table w r) w))) s k (s.joinPart k) :=
  ⟨_, rfl, fun _ _ => ⟨_, rfl, fun v _ => v.ownWork_does _ k⟩⟩

/-! ### WINDOW_AGG (R226, R230) -/

section Window

variable {s : State} {k : Task}

theorem State.windowStep_closes
    (closes : ((s.opRec k).timeData && (s.nextRef k).any (fun r => r.2.kind == .blockEnd)) = true) :
    LoadsParts (fun rows => TakesInput windowRow dropMark (windowLast rows)) s k (s.windowStep k) := by
  rw [State.windowStep, if_pos closes]
  exact State.withParts_loads _ fun v _ => v.takeInput_takes _ _ _ k

theorem State.windowStep_takes
    (goesOn : ((s.opRec k).timeData && (s.nextRef k).any (fun r => r.2.kind == .blockEnd)) = false) :
    TakesInput windowRow dropMark noLast s k (s.windowStep k) := by
  rw [State.windowStep, if_neg (by simp [goesOn])]
  exact s.takeInput_takes _ _ _ k

end Window

/-! ### EXCHANGE (R233) -/

section Exchange

variable {s : State} {k : Task}

theorem State.exchangeStep_hash (hash : (s.opRec k).broadcast = false) :
    TakesInput exchangeRow passMark noLast s k (s.exchangeStep k) := by
  rw [State.exchangeStep, if_pos (by simp [hash])]
  exact s.takeInput_takes _ _ _ k

variable (broadcast : (s.opRec k).broadcast = true)
include broadcast

theorem State.exchangeStep_idle (idle : s.nextRef k = none) : s.exchangeStep k = s.park k .waitInput 2 := by
  rw [State.exchangeStep, if_neg (by simp [broadcast]), idle]
  exact (s.takeInput_takes exchangeRow passMark noLast k).1 idle

variable {c : Nat} {r : Ref} (next : s.nextRef k = some (c, r))
include next

theorem State.exchangeStep_passes (kind : r.kind ≠ .data) :
    TakesInput exchangeRow passMark noLast s k (s.exchangeStep k) := by
  have takes := s.takeInput_takes exchangeRow passMark noLast k
  rw [State.exchangeStep, if_neg (by simp [broadcast]), next]
  cases h : r.kind with
  | data => exact absurd h kind
  | mark | blockEnd | endOfStream => simpa only [h] using takes

variable {b : Batch} (data : r.kind = .data) (batch : r.batch = some b)
include data batch

theorem State.exchangeStep_poisoned (bad : s.eng.poisoned.contains b.buf = true) : s.exchangeStep k = s.stopHw k 3 := by
  rw [State.exchangeStep, if_neg (by simp [broadcast]), next]
  simp only [data, batch, bad, if_true]

theorem State.exchangeStep_copies (good : s.eng.poisoned.contains b.buf = false) :
    s.exchangeStep k = (s.consume k c r false).setTask { k with
      todo := k.todo ++ (s.opRec k).dataPorts.map (fun p => OutItem.batch p b.tag b.rows), row := k.row + b.rows.length } := by
  rw [State.exchangeStep, if_neg (by simp [broadcast]), next]
  simp only [data, batch, good, Bool.false_eq_true, if_false]

end Exchange


/-! ### MERGE (R220) -/

/-- The runs that a flow merges: those of its operator's producers, until the first batch has come. -/
def State.runsOf (s : State) (k : Task) (p : Plan) : List MergeRun :=
  let st := (s.flow k.plan k.op k.index).st
  if st.runs.isEmpty then (p.mergeRuns k.op).map (fun x => (⟨x.1, x.2, [], none⟩ : MergeRun)) else st.runs

/-- A batch waits at the run of its port and producer flow. -/
def addBatch (k : Task) (c : Nat) (r : Ref) (b : Batch) (runs : List MergeRun) : List MergeRun :=
  runs.map fun x => if x.port = k.port ∧ x.flow = r.flow then
    (⟨x.port, x.flow, x.waiting ++ [⟨c, b.buf, b.rows⟩], b.rows.getLast?⟩ : MergeRun) else x

/-- The row of its run that came before a batch. -/
def lastRow (k : Task) (r : Ref) (runs : List MergeRun) : Option Row :=
  (runs.find? (fun x => x.port == k.port && x.flow == r.flow)).bind (·.last)

/-- What a flow can merge once it has the runs `l` and a reference has been taken. -/
def State.mergedWith (s : State) (k : Task) (c : Nat) (r : Ref) (l : List MergeRun) : State × List OutItem :=
  ((s.mapFlow k.plan k.op k.index (fun f => { f with st := { f.st with runs := l } })).consume k c r true).mergeNow k false

section Merge

variable {s : State} {k : Task}

theorem State.mergeStep_idle (idle : s.nextRef k = none) : s.mergeStep k = s.park k .waitInput 2 := by
  rw [State.mergeStep, idle]
  cases s.plan? k.plan <;> rfl

variable {p : Plan} {c : Nat} {r : Ref} (plan : s.plan? k.plan = some p) (next : s.nextRef k = some (c, r))
include plan next

theorem State.mergeStep_mark (mark : r.kind = .mark) : s.mergeStep k = s.consume k c r false := by
  rw [State.mergeStep, plan, next]
  simp only [mark]

theorem State.mergeStep_end (last : r.kind = .blockEnd) :
    s.mergeStep k = ((s.mergeNow k false).1.consume k c r false).setTask
      (Task.finish { k with todo := k.todo ++ (s.mergeNow k false).2 } (p.opAt k.op)) := by
  rw [State.mergeStep, plan, next]
  simp only [last]

variable {b : Batch} (data : r.kind = .data) (batch : r.batch = some b)
include data batch

theorem State.mergeStep_poisoned (bad : s.eng.poisoned.contains b.buf = true) : s.mergeStep k = s.stopHw k 3 := by
  rw [State.mergeStep, plan, next]
  simp only [data, batch, bad, if_true]

variable (good : s.eng.poisoned.contains b.buf = false)
include good

/-- A batch that does not go on in its run's order stops the task. -/
theorem State.mergeStep_unsorted {i : Nat} (at_ : unsorted (compareRows (s.schemaIn k k.port) (p.opAt k.op).sortKeys) 0
    (lastRow k r (s.runsOf k p)) b.rows = some i) : s.mergeStep k = s.stopOp k Err.notSorted k.port (k.row + i) := by
  rw [lastRow, State.runsOf] at at_
  rw [State.mergeStep, plan, next]
  simp only [data, batch, good, Bool.false_eq_true, if_false, at_]

/-- A sound batch in order waits at its run, and what no run can precede is output. -/
theorem State.mergeStep_merges (sorted : unsorted (compareRows (s.schemaIn k k.port) (p.opAt k.op).sortKeys) 0
    (lastRow k r (s.runsOf k p)) b.rows = none) :
    let q := s.mergedWith k c r (addBatch k c r b (s.runsOf k p))
    s.mergeStep k = q.1.setTask { k with todo := k.todo ++ q.2, row := k.row + b.rows.length } := by
  rw [lastRow, State.runsOf] at sorted
  rw [State.mergeStep, plan, next]
  simp only [data, batch, good, Bool.false_eq_true, if_false, sorted]
  rfl

end Merge

/-! ### End-of-stream work (R200) -/

section Drain

variable {s : State} {k : Task}

theorem State.drainStep_join (kind : (s.opRec k).kind = Kind.hashJoin) : s.drainStep k =
    if (s.tasksOf k.plan k.op).any (fun v => v.tkind == 3 && decide (v.seq < k.seq)) then s else s.joinPart k :=
  if_pos kind

theorem State.drainStep_merge (kind : (s.opRec k).kind = Kind.merge) : s.drainStep k =
    (s.mergeNow k true).1.setTask (Task.finish { k with todo := k.todo ++ (s.mergeNow k true).2 } (s.opRec k)) :=
  (if_neg (by rw [kind]; decide)).trans ((if_neg (by rw [kind]; decide)).trans (if_pos kind))

theorem State.drainStep_sort (kind : (s.opRec k).kind = Kind.sort) : s.drainStep k = s.sortDrain k :=
  (if_neg (by rw [kind]; decide)).trans (if_pos kind)

theorem State.drainStep_other (merge : (s.opRec k).kind ≠ Kind.merge) (join : (s.opRec k).kind ≠ Kind.hashJoin)
    (sort : (s.opRec k).kind ≠ Kind.sort) :
    Counting (LoadsParts fun rows => DoesOwnWork (drainWork rows)) s k (s.drainStep k) := by
  have step : s.drainStep k = s.counting k (fun s => s.withParts k fun s rows => s.ownWork k (drainWork rows)) :=
    (if_neg join).trans ((if_neg sort).trans (if_neg merge))
  rw [step]
  exact State.counting_counts (State.withParts_loads _ fun v _ => v.ownWork_does _ k)

end Drain

/-! ### The runs of a sort (R219) -/

/-- At most 16 runs of a sort are left, its present one among them. -/
def State.fewRuns (s : State) (k : Task) : Bool :=
  decide ((s.st k).sortRuns.length + natOfBool (!(s.st k).rows.isEmpty) ≤ 16)

section Runs

variable {s : State} {k : Task}

/-- The last pass of a sort feeds its output. -/
theorem State.sortDrain_outputs (few : s.fewRuns k = true) :
    ReadsBack 0 (fun _ => (s.st k).sortRuns.flatMap (·.2)) (fun l => DoesOwnWork (fun _ _ w =>
      { w with out := (sortRows (s.schemaIn k 0) (s.opRec k).sortKeys (l ++ w.st.rows)).map (OutItem.row 0 0 0),
               st := { w.st with rows := [], chunks := [] } })) s k (s.sortDrain k) :=
  ⟨_, if_pos (of_decide_eq_true few), fun v _ => v.ownWork_does _ k⟩

variable (many : s.fewRuns k = false)
include many

theorem State.sortDrain_turns (done_ : ((s.st k).sortRuns.drop (s.st k).klog).take 16 = []) :
    s.sortDrain k = s.mapSt k (fun st => { st with mode := st.mode + 1, klog := 0 }) := by
  refine (if_neg (of_decide_eq_false many)).trans ?_
  rw [done_]

variable {r : Nat × List Chunk} {rs : List (Nat × List Chunk)} (next : ((s.st k).sortRuns.drop (s.st k).klog).take 16 = r :: rs)
include next

theorem State.sortDrain_skips (alone : rs = []) :
    s.sortDrain k = s.mapSt k (fun st => { st with klog := st.klog + 1 }) := by
  refine (if_neg (of_decide_eq_false many)).trans ?_
  rw [next, alone]
  rfl

/-- A pass makes one run of the next 16 at most. -/
theorem State.sortDrain_merges (more : rs ≠ []) :
    let old := r.2 ++ rs.flatMap (·.2)
    let schema := s.schemaIn k 0
    let keys := (s.opRec k).sortKeys
    ReadsBack 0 (fun _ => old) (fun l v k u =>
      u = v.spillRows k [(0, r.1, schema, sortRows schema keys l)]
        (fun cs st => { st with klog := st.klog + 1, chunks := st.chunks.filter (fun c => !old.contains c) ++ cs })
        (fun v => v.setTask { k with data := [] })) s k (s.sortDrain k) := by
  refine ⟨_, (if_neg (of_decide_eq_false many)).trans ?_, fun _ _ => rfl⟩
  rw [next]
  exact if_neg (by simpa using more)

end Runs

/-! ### Orders (R219, R232) -/

theorem insertRow_perm (schema : List (Nat × Nat)) (ks : List SortKey) (r : Row) (l : List Row) :
    (insertRow schema ks r l).Perm (r :: l) := by
  induction l with
  | nil => exact .refl _
  | cons x xs ih =>
    rw [insertRow]
    split
    · exact .refl _
    · exact (ih.cons x).trans (.swap r x xs)

theorem sortRows_perm (schema : List (Nat × Nat)) (ks : List SortKey) (rows : List Row) :
    (sortRows schema ks rows).Perm rows := by
  have inserted : ∀ rows l : List Row, (rows.foldl (fun l r => insertRow schema ks r l) l).Perm (l ++ rows) := by
    intro rows
    induction rows with
    | nil => intro l; simp
    | cons r rows ih =>
      intro l
      exact (ih _).trans (((insertRow_perm schema ks r l).append_right rows).trans List.perm_middle.symm)
  exact inserted rows []

theorem topInsert_keeps (schema : List (Nat × Nat)) (ks : List SortKey) (k : Nat) (r : Row) (l : List Row) :
    (topInsert schema ks k r l).length ≤ k ∧ ∀ x ∈ topInsert schema ks k r l, x = r ∨ x ∈ l :=
  ⟨List.length_take_le _ _, fun _ hx =>
    List.mem_cons.1 ((insertRow_perm schema ks r l).mem_iff.1 (List.mem_of_mem_take hx))⟩

/-! ### The operators -/

/-- Block tasks whose step is the consumption of their next reference by a rule of their operator. -/
theorem StepsTask.of_takes {c : Instr} {n : BitVec 7} {kind : Nat} {row : State → Task → RowWork}
    {mark last : State → Task → Work → Work} (ok : tillerOk n = true)
    (run : ∀ s, exec c s = if tillerOk n then
      done s (s.runStep n.toNat (isBlock kind) (fun s k => s.takeInput k row mark last)) else .fault .illFormed) :
    StepsTask c n.toNat (isBlock kind) (TakesInput row mark last) :=
  StepsTask.of_tiller ok run fun s k => s.takeInput_takes row mark last k

/-- Settles O57: each operator's step is what its rule says, and the orders only reorder. -/
theorem blockTasksTakeTheirInput : Obligations.BlockTasksTakeTheirInput := by
  refine ⟨fun n ok => ⟨.of_takes ok fun _ => rfl, .of_takes ok fun _ => rfl, ?_, ?_, .of_takes ok fun _ => rfl,
    .of_takes ok fun _ => rfl, .of_takes ok fun _ => rfl, ?_, .of_takes ok fun _ => rfl⟩, fun n ok => ⟨?_, ?_⟩,
    fun n ok => ⟨?_, ?_⟩, sortRows_perm, topInsert_keeps⟩
  · exact .of_tiller ok (fun _ => rfl) fun s k => ⟨State.buildStep_unique, State.buildStep_plain⟩
  · refine .of_tiller ok (fun _ => rfl) fun s k => ⟨fun large => ⟨State.probeStep_split large, fun whole => ?_⟩,
      fun small => ⟨fun _ => State.probeStep_probes small, State.probeStep_loads small⟩⟩
    exact ⟨_, State.probeStep_splits large whole, fun v => v.takeInput_takes _ _ _ k⟩
  · exact .of_tiller ok (fun _ => rfl) fun s k =>
      State.counting_counts ⟨State.windowStep_closes, State.windowStep_takes⟩
  · exact .of_tiller ok (fun _ => rfl) fun s k => ⟨State.exchangeStep_hash, fun broadcast =>
      ⟨State.exchangeStep_idle broadcast, fun _ _ next => State.exchangeStep_passes broadcast next, fun _ _ _ next data batch =>
        ⟨State.exchangeStep_poisoned broadcast next data batch, State.exchangeStep_copies broadcast next data batch⟩⟩⟩
  · exact .of_tiller ok (fun _ => rfl) fun s k => ⟨State.mergeStep_idle, fun p c r plan next =>
      ⟨fun b data batch => ⟨State.mergeStep_poisoned plan next data batch, fun good =>
        ⟨fun _ => State.mergeStep_unsorted plan next data batch good, State.mergeStep_merges plan next data batch good⟩⟩,
        State.mergeStep_mark plan next, State.mergeStep_end plan next⟩⟩
  · exact .of_tiller ok (fun _ => rfl) fun s k =>
      State.counting_counts (State.withParts_loads _ fun v _ => v.ownWork_does _ k)
  · refine .of_tiller ok (fun _ => rfl) fun s k => ⟨fun join earlier => ?_, State.drainStep_merge, fun join first => ?_,
      fun sort => ?_, State.drainStep_other⟩
    · exact (State.drainStep_join join).trans (if_pos earlier)
    · rw [State.drainStep_join join, if_neg (by simpa using first)]
      exact s.joinPart_joins k
    · rw [State.drainStep_sort sort]
      exact ⟨State.sortDrain_outputs, fun many => ⟨State.sortDrain_turns many, fun r rs next =>
        ⟨State.sortDrain_skips many next, State.sortDrain_merges many next⟩⟩⟩

end Sys2Proof.Machine

/-! SUPPORT. The operators that touch tables: a stripe task by how far it has read, a poll of a table's head, and the stripes that
MATERIALIZE writes. -/

namespace Sys2Proof.Machine

/-! ### What ends a step, or does not -/

section OrEnd

variable {α : Type} {r : State × Except StepEnd α} {k : Task} {f : State → α → State} {w : State}

theorem orEnd_error {e : StepEnd} (h : r = (w, .error e)) : orEnd r k f = w.endStep k e := by
  rw [h]
  rfl

theorem orEnd_ok {v : α} (h : r = (w, .ok v)) : orEnd r k f = f w v := by
  rw [h]
  rfl

end OrEnd

/-! ### A stripe task (R207 to R210) -/

/-- An operator's first task fixes the end of its table where the plan leaves it open (R209). -/
def State.fixEnd (s : State) (k : Task) (p : Plan) (stripes : Nat) : State :=
  if (p.run k.op).stop = none then s.mapRun k.plan k.op (fun r => { r with stop := some stripes }) else s

/-- What the search for a task's stripe leads to: no rows, or the decoding of its first column. -/
def State.scanFound (s : State) (k : Task) (o : OpRec) (d : TableDecl) : Option ScanCursor → State
  | none => s.scanDone k []
  | some cur => s.scanCols { k with data := [] } o d cur (o.scanFetch d)

section Stripe

variable {s : State} {k : Task} {p : Plan} {d : TableDecl} (plan : s.plan? k.plan = some p)
  (table : p.image.tables[(p.opAt k.op).table]? = some d)
include plan table

theorem State.scanStep_goesOn {cur : ScanCursor} (begun : k.scan = some cur) : s.scanStep k =
    s.scanCols k (p.opAt k.op) d cur (((p.opAt k.op).scanFetch d).drop cur.cols.length) := by
  rw [State.scanStep, plan]
  simp only [table, begun]

variable (fresh : k.scan = none)
include fresh

theorem State.scanStep_head {w : State} {e : StepEnd} (head : s.scanHead k d = (w, .error e)) :
    s.scanStep k = w.endStep k e := by
  rw [State.scanStep, plan]
  simp only [table, fresh]
  exact orEnd_error head

variable {w : State} {stripes : Nat} (head : s.scanHead k d = (w, .ok stripes))
include head

/-- With the head read, a stripe beyond the end gives no rows, any other is looked for. -/
theorem State.scanStep_read : s.scanStep k = if stripes ≤ k.arg then (w.fixEnd k p stripes).scanDone k [] else
    orEnd ((w.fixEnd k p stripes).scanFind k (p.opAt k.op) d) k fun s cur => s.scanFound k (p.opAt k.op) d cur := by
  rw [State.scanStep, plan]
  simp only [table]
  split
  next begun => exact absurd (fresh.symm.trans begun) nofun
  next =>
    rw [orEnd_ok head]
    simp only [Option.isNone_iff_eq_none]
    rfl

theorem State.scanStep_beyond (beyond : stripes ≤ k.arg) : s.scanStep k = (w.fixEnd k p stripes).scanDone k [] :=
  (State.scanStep_read plan table fresh head).trans (if_pos beyond)

variable (below : k.arg < stripes) {x : State}
include below

theorem State.scanStep_missed {e : StepEnd} (found : (w.fixEnd k p stripes).scanFind k (p.opAt k.op) d = (x, .error e)) :
    s.scanStep k = x.endStep k e := by
  rw [State.scanStep_read plan table fresh head, if_neg (Nat.not_le.2 below), orEnd_error found]

theorem State.scanStep_found {cur : Option ScanCursor}
    (found : (w.fixEnd k p stripes).scanFind k (p.opAt k.op) d = (x, .ok cur)) :
    s.scanStep k = x.scanFound k (p.opAt k.op) d cur := by
  rw [State.scanStep_read plan table fresh head, if_neg (Nat.not_le.2 below), orEnd_ok found]

end Stripe

/-! ### The columns of a stripe (R199, R208) -/

section Columns

variable {s w : State} {k : Task} {o : OpRec} {d : TableDecl} {cur : ScanCursor} {c : Nat} {cs : List Nat}

/-- A column that is decoded is kept, and the next one follows. -/
theorem State.scanCols_decoded {vs : List Value}
    (block : s.scanBlock { k with scan := some cur } d cur.at_ (stripeRec cur.record d.types.length) c = (w, .ok vs)) :
    s.scanCols k o d cur (c :: cs) =
      w.scanCols { k with data := [] } o d { cur with cols := cur.cols ++ [vs], value := 0 } cs := by
  rw [State.scanCols]
  simp only [block]

/-- A task that waits for a column's page keeps the columns before it, and the value at which it stopped (R199). -/
theorem State.scanCols_waits {q : PageWait}
    (block : s.scanBlock { k with scan := some cur } d cur.at_ (stripeRec cur.record d.types.length) c =
      (w, .error (.park q))) :
    let v : Task := { k with
      scan := some { cur with value := w.faultValue k d cur.at_ (stripeRec cur.record d.types.length) c } }
    s.scanCols k o d cur (c :: cs) = (w.setTask v).park { v with waits := [q] } .waitPage 3 := by
  rw [State.scanCols]
  simp only [block]
  rfl

end Columns

/-! ### The rows of a stripe (R208, R210) -/

section Rows

variable (o : OpRec) (d : TableDecl) (x : StripeRec) (cols : List (List Value))

@[simp] theorem transposeRows_length (n : Nat) (cols : List (List Value)) : (transposeRows n cols).length = n := by
  simp [transposeRows]

/-- A row of a stripe has one value for each column decoded. -/
theorem length_of_mem_transposeRows {n : Nat} {cols : List (List Value)} {r : Row} (h : r ∈ transposeRows n cols) :
    r.length = cols.length := by
  obtain ⟨i, -, rfl⟩ := List.mem_map.1 h
  simp

theorem scanOut_numbers (all : o.scanRowTs = false) :
    (scanOut o d x cols).map (·.1) = (List.range x.rows).map (x.first + ·) := by
  simp only [scanOut, all, Bool.false_and, Bool.not_false, Bool.true_or, List.filter_true, List.map_map]
  show ((transposeRows x.rows (cols.take o.scanCols.length)).zipIdx x.first).map Prod.snd = _
  rw [List.zipIdx_map_snd, transposeRows_length, List.range'_eq_map_range]

theorem scanOut_bounds {r : Nat × Row} (h : r ∈ scanOut o d x cols) :
    x.first ≤ r.1 ∧ r.1 < x.first + x.rows ∧ r.2.length = min o.scanCols.length cols.length := by
  obtain ⟨⟨row, i⟩, kept, rfl⟩ := List.mem_map.1 h
  obtain ⟨first, last, here⟩ := List.mem_zipIdx (List.mem_filter.1 kept).1
  rw [transposeRows_length] at last
  refine ⟨first, last, ?_⟩
  rw [length_of_mem_transposeRows (here ▸ List.getElem_mem _), List.length_take]

end Rows

/-! ### Polls (R209) -/

/-- A FOLLOW scan polls its table now. -/
def State.pollDue (s : State) (p : Plan) (op : Nat) : Bool :=
  s.tillersRun && p.state == .running && (p.opAt op).kind == Kind.scan && (p.opAt op).scanFollow &&
    decide ((p.run op).polled + 1000 * (p.opAt op).pollUs ≤ s.now)

/-- The time of a poll is noted. -/
def State.polledNow (s : State) (slot op : Nat) : State := s.mapRun slot op (fun r => { r with polled := s.now })

/-- A head shows its stripes as the new end of a scan. -/
def State.showStripes (s : State) (slot op : Nat) (b : List Byte) : State :=
  s.mapRun slot op (fun r => { r with stop := some (max (leField b 8 8) (r.stop.getD 0)) })

/-- The poll's own check is that none is due. -/
theorem State.pollDue_eq_false (s : State) (p : Plan) (op : Nat) : s.pollDue p op = false ↔
    (!s.tillersRun || p.state ≠ .running || (p.opAt op).kind ≠ Kind.scan || !(p.opAt op).scanFollow ||
      decide (s.now < (p.run op).polled + 1000 * (p.opAt op).pollUs)) = true := by
  simp only [State.pollDue, Bool.and_eq_false_iff, Bool.or_eq_true, Bool.not_eq_true', decide_eq_true_eq,
    decide_eq_false_iff_not, beq_eq_false_iff_ne, Nat.not_le]

/-- What a poll that is due makes of what the host delivers of a head in its memory. -/
def State.pollWith (s : State) (slot op : Nat) (d : TableDecl) : Transfer → State
  | .bytes b => if headFail d b ≠ none then s.polledNow slot op
    else (((s.polledNow slot op).showStripes slot op b).issueScan slot op).schedule
  | .stopped _ _ => s.polledNow slot op

section Poll

variable {slot : BitVec 8} {op : BitVec 10} {p : Plan} {s : State} (plan : s.plan? slot.toNat = some p) (x : Transfer)
include plan

theorem exec_scanFollowPoll_early (early : s.pollDue p op.toNat = false) : exec (.scanFollowPoll slot op x) s = done s s := by
  show execScanFollowPoll slot op x s = _
  rw [execScanFollowPoll, plan]
  exact if_pos ((s.pollDue_eq_false p op.toNat).1 early)

theorem exec_scanFollowPoll_due (due : s.pollDue p op.toNat = true) {d : TableDecl}
    (table : p.image.tables[(p.opAt op.toNat).table]? = some d) (host : d.loc = 2) :
    exec (.scanFollowPoll slot op x) s = done s (s.pollWith slot.toNat op.toNat d x) := by
  show execScanFollowPoll slot op x s = _
  rw [execScanFollowPoll, plan]
  refine (if_neg fun early => ?_).trans ?_
  · exact absurd ((s.pollDue_eq_false p op.toNat).2 early) (by simp [due])
  · rw [table]
    cases x with
    | bytes b =>
      simp only [host, if_true]
      exact (apply_ite (done s) _ _ _).symm
    | stopped c e =>
      simp only [host, if_true]
      rfl

end Poll

/-! ### MATERIALIZE (R235) -/

/-- Rows of a batch go into the open range of their port: the batch waits with the rest, or is used up. -/
def State.takeRange (x : State) (t : Task) (p : Plan) (c : Nat) (r : Ref) (b : Batch) (rows : List Row) : State :=
  let q := takeRows (x.flow t.plan t.op 0).st t.port (p.opAt t.op).blockRows rows
  let v := x.mapFlow t.plan t.op 0 (fun f => { f with st := q.1 })
  if t.inBatch + q.2 < b.rows.length then v.setTask { t with inBatch := t.inBatch + q.2, data := [] }
  else (v.consume t c r false).setTask { t with inBatch := 0, row := t.row + b.rows.length, data := [] }

section Gather

variable {s : State} {t : Task}

theorem State.gather_idle (idle : s.nextRef t = none) : s.gather t = s.park t .waitInput 2 := by
  rw [State.gather, idle]
  cases s.plan? t.plan <;> rfl

variable {p : Plan} {c : Nat} {r : Ref} {b : Batch} (plan : s.plan? t.plan = some p) (next : s.nextRef t = some (c, r))
  (data : r.kind = .data) (batch : r.batch = some b)
include plan next data batch

theorem State.gather_poisoned (bad : s.eng.poisoned.contains b.buf = true) : s.gather t = s.stopHw t 3 := by
  rw [State.gather, plan, next]
  simp only [data, batch, bad, if_true]

/-- A sound batch has its strings read, then goes into the range as far as that has room. -/
theorem State.gather_takes (good : s.eng.poisoned.contains b.buf = false) :
    s.gather t = orEnd (s.readStrings t ((p.opAt t.op).stringCols (s.schemaIn t t.port) t.port) (t.row + t.inBatch)
      (b.rows.drop t.inBatch)) t fun x rows => x.takeRange t p c r b rows := by
  rw [State.gather, plan, next]
  simp only [data, batch, good, Bool.false_eq_true, if_false]
  rfl

end Gather

section Materialize

variable {s : State} {k : Task}

theorem State.materializeStep_goesOn {j : WriteJob} (writing : (s.flow k.plan k.op 0).st.job = some j) :
    s.materializeStep k = s.goOnStripe k j := by
  rw [State.materializeStep, writing]

variable (free : (s.flow k.plan k.op 0).st.job = none)
include free

theorem State.materializeStep_begins {port : Nat} (due : s.stripeDue k (s.opRec k) = some port) :
    s.materializeStep k = s.beginStripe k port := by
  rw [State.materializeStep, free]
  simp only [due]

variable (early : s.stripeDue k (s.opRec k) = none)
include early

theorem State.materializeStep_flushed (ends : k.tkind = 3) (empty : (s.flow k.plan k.op 0).st.ranges.getD k.port [] = []) :
    s.materializeStep k = s.setTask { k with done := true } := by
  rw [State.materializeStep, free]
  simp only [early]
  rw [if_pos ends, if_pos (by rw [empty]; rfl)]

theorem State.materializeStep_flushes (ends : k.tkind = 3) (rows : (s.flow k.plan k.op 0).st.ranges.getD k.port [] ≠ []) :
    s.materializeStep k = s.setTask { k with part := 2 ^ k.port } := by
  rw [State.materializeStep, free]
  simp only [early]
  rw [if_pos ends, if_neg (by rwa [List.isEmpty_iff])]

theorem State.materializeStep_gathers (block : k.tkind ≠ 3) : s.materializeStep k = s.gather { k with part := 0 } := by
  rw [State.materializeStep, free]
  simp only [early]
  rw [if_neg block]

end Materialize

/-- A range takes rows at its end, as many as it has room for. -/
theorem takeRows_fits {st : FlowState} {port room : Nat} (rows : List Row) (known : port < st.ranges.length)
    (fits : (st.ranges.getD port []).length ≤ room) :
    (takeRows st port room rows).1.ranges.getD port [] =
      st.ranges.getD port [] ++ rows.take (takeRows st port room rows).2 ∧
    ((takeRows st port room rows).1.ranges.getD port []).length ≤ room ∧ (takeRows st port room rows).2 ≤ rows.length := by
  have range : (takeRows st port room rows).1.ranges.getD port [] =
      st.ranges.getD port [] ++ rows.take (takeRows st port room rows).2 := by
    simp [takeRows, known]
  have taken : (takeRows st port room rows).2 = min rows.length (room - (st.ranges.getD port []).length) := rfl
  refine ⟨range, ?_, by omega⟩
  rw [range, List.length_append, List.length_take]
  omega

/-- Settles O58: a stripe's step by how far its table has been read, a poll by the head delivered, and a MATERIALIZE step by what
is written, due or taken. -/
theorem tablesAreScannedAndWritten : Obligations.TablesAreScannedAndWritten := by
  refine ⟨fun n ok => .of_tiller ok (fun _ => rfl) fun s k p d plan table => ⟨fun _ => State.scanStep_goesOn plan table,
      fun fresh => ⟨fun _ _ => State.scanStep_head plan table fresh, fun w stripes head =>
        ⟨State.scanStep_beyond plan table fresh head, fun below => ⟨fun _ _ => State.scanStep_missed plan table fresh head below,
          fun _ => State.scanStep_found plan table fresh head below, fun _ _ => State.scanStep_found plan table fresh head below⟩⟩⟩⟩,
    fun s k o d cur c cs => ⟨fun _ _ => State.scanCols_decoded, fun _ _ => State.scanCols_waits⟩,
    fun o d x cols => ⟨scanOut_numbers o d x cols, fun _ => scanOut_bounds o d x cols⟩, ?_, ?_,
    fun _ _ _ rows known fits => takeRows_fits rows known fits⟩
  · intro slot op p d b s plan
    refine ⟨fun early => Answers.of_idle (exec_scanFollowPoll_early plan _ early), fun due table host =>
      ⟨fun valid => ?_, fun wrong => ?_, fun _ _ => exec_scanFollowPoll_due plan _ due table host⟩⟩
    · exact Runs.of_eq (exec_scanFollowPoll_due plan _ due table host) (if_neg (not_not.2 valid))
    · exact Runs.of_eq (exec_scanFollowPoll_due plan _ due table host) (if_pos wrong)
  · intro n ok
    refine .of_tiller ok (fun _ => rfl) fun s k => ⟨fun _ => State.materializeStep_goesOn, fun free =>
      ⟨fun _ => State.materializeStep_begins free, fun early => ⟨State.materializeStep_flushed free early,
        State.materializeStep_flushes free early, fun block idle => ?_, fun p c r b block plan next data batch => ?_⟩⟩⟩
    · exact (State.materializeStep_gathers free early block).trans (State.gather_idle idle)
    rw [State.materializeStep_gathers free early block]
    exact ⟨State.gather_poisoned plan next data batch, fun good => ⟨_, State.gather_takes plan next data batch good,
      fun x rows => ⟨fun more => if_pos more, fun used => if_neg (Nat.not_lt.2 used)⟩⟩⟩

end Sys2Proof.Machine

/-! SUPPORT. The scheduler's own commands: dispatch, yield points, the end of a task, promotion, the search for held flows, the
trace's control, and the acceptance of firings. -/

namespace Sys2Proof.Machine

/-! ### TASK_DISPATCH (R254, R256) -/

section Dispatch

variable {n : BitVec 7} {s : State} (ok : tillerOk n = true)
include ok

theorem exec_taskDispatch_idle (barred : s.dispatching = false ∨ s.idle n.toNat = false ∨ s.live? n.toNat = false) :
    exec (.taskDispatch n) s = done s s := by
  refine (if_neg (by simp [ok])).trans (if_pos ?_)
  rcases barred with h | h | h <;> simp [h]

/-- A tiller pulls once those before it have pulled. -/
theorem exec_taskDispatch_pulls (may : s.dispatching = true) (idle : s.idle n.toNat = true) (live : s.live? n.toNat = true) :
    exec (.taskDispatch n) s = done s
      ((((s.freshTillers.filter (fun i => decide (i < n.toNat))).foldl State.pull s).pull n.toNat).schedule) :=
  (if_neg (by simp [ok])).trans (if_neg (by simp [may, idle, live]))

end Dispatch

/-- A tiller that pulls no longer counts among those that have just become idle (R256). -/
def State.unfreshen (s : State) (n : Nat) : State := s.setTiller n { s.tiller n with fresh := false }

theorem State.pull_dispatches {s : State} {n : Nat} {k : Task}
    (first : (s.unfreshen n).eligibleTasks.find? (fun k => ((s.unfreshen n).servers k).contains n) = some k) :
    s.pull n = (s.unfreshen n).dispatch k n := by
  rw [State.unfreshen] at first
  rw [State.pull]
  simp only [first]
  rfl

theorem State.pull_finds_none {s : State} {n : Nat}
    (unserved : ∀ k ∈ (s.unfreshen n).eligibleTasks, n ∉ (s.unfreshen n).servers k) : s.pull n = s.unfreshen n := by
  have found : (s.unfreshen n).eligibleTasks.find? (fun k => ((s.unfreshen n).servers k).contains n) = none :=
    List.find?_eq_none.2 fun k hk => by simpa using unserved k hk
  rw [State.unfreshen] at found
  rw [State.pull]
  simp only [found]
  rfl

/-! ### YIELD_POINT (R198, R258, R261) -/

section Yield

variable {n : BitVec 7} {s : State} (ok : tillerOk n = true)
include ok

theorem exec_yieldPoint_idle (idle : s.serviced n.toNat = none) : exec (.yieldPoint n) s = done s s := by
  refine (if_neg (by simp [ok])).trans ?_
  rw [idle]

/-- A task that still runs once its output has gone first stands at a yield point. -/
theorem exec_yieldPoint_running {k v : Task} (serves : s.serviced n.toNat = some k)
    (left : (s.drain k).task? k.id = some v) (running : v.state = .running) :
    exec (.yieldPoint n) s = done s (((s.drain k).yieldPoint v).schedule) := by
  refine (if_neg (by simp [ok])).trans ?_
  rw [serves]
  simp only [left, running, if_true]

end Yield

section YieldPoint

variable {u : State} {v : Task}

theorem State.yieldPoint_asked (asked : v.asked = true) : u.yieldPoint v = u.park v .ready 0 := if_pos asked

variable (unasked : v.asked = false)
include unasked

theorem State.yieldPoint_goesOn (pushed : v.todo = []) : u.yieldPoint v = u :=
  (if_neg (by simp [unasked])).trans (if_pos (by simp [pushed]))

variable (waits : v.todo ≠ [])
include waits

theorem State.yieldPoint_credit {c : Nat} (wants : u.wantsCredit v = some c) : u.yieldPoint v = u.parkCredit v c := by
  refine (if_neg (by simp [unasked])).trans ((if_neg (by simpa using waits)).trans ?_)
  rw [wants]

theorem State.yieldPoint_quota (wants : u.wantsCredit v = none) : u.yieldPoint v =
    (u.park v .waitCredit 1).mapEng (fun e => { e with quotaWaits := e.quotaWaits ++ [v.id] }) := by
  refine (if_neg (by simp [unasked])).trans ((if_neg (by simpa using waits)).trans ?_)
  rw [wants]

end YieldPoint

/-! ### TASK_END (R252) -/

/-- A task has left its tiller and the scheduler. -/
def State.taskGone (s : State) (k : Task) : State :=
  ((s.traceTask Ev.finish k (k.pushed.foldl (· + ·) 0)).leaveTiller k).removeTask k

/-- Its unused credits go back. -/
def State.creditsBack (s : State) (k : Task) : State := k.gifts.foldl (fun u g => u.releaseBuffer g.1 g.2) s

/-- An ended task is counted, and a SCAN issues its next ones. -/
def State.taskCounted (s : State) (k : Task) (p : Plan) : State :=
  let c := s.setPlan k.plan { p with tasksDone := min (2 ^ 48 - 1) (p.tasksDone + 1) }
  if k.tkind = 1 then c.issueScan k.plan k.op else c

theorem State.removeTask_removes (s : State) (k : Task) : ∀ x ∈ (s.removeTask k).eng.tasks, x.id ≠ k.id := by
  intro x hx
  simpa using (List.mem_filter.1 hx).2

section End

variable {n : BitVec 7} {s : State} (ok : tillerOk n = true) {k : Task} (serves : s.serviced n.toNat = some k)
include ok serves

theorem exec_taskEnd_unfinished (more : k.done = false ∨ k.todo ≠ [] ∨ k.fills ≠ []) :
    exec (.taskEnd n) s = done s s := by
  refine (if_neg (by simp [ok])).trans ?_
  rw [serves]
  refine if_pos ?_
  rcases more with h | h | h <;> simp [h]

theorem exec_taskEnd_ends (ended : k.done = true) (pushed : k.todo = []) (empty : k.fills = []) {p : Plan}
    (plan : ((s.taskGone k).creditsBack k).plan? k.plan = some p) : exec (.taskEnd n) s =
      done s ((((((s.taskGone k).creditsBack k).taskCounted k p).settleOps k.plan).settleQuota).schedule) := by
  rw [State.creditsBack, State.taskGone] at plan
  refine (if_neg (by simp [ok])).trans ?_
  rw [serves]
  refine (if_neg (by simp [ended, pushed, empty])).trans ?_
  simp only [plan]
  rfl

end End

/-! ### STARVATION_PROMOTION (R257) -/

section Promotion

variable {slot : BitVec 13} {s : State} {k : Task}
  (here : s.eng.tasks.find? (fun t => t.slot == some slot.toNat) = some k)
include here

theorem exec_starvationPromotion_promotes (may : s.dispatching = true) (ready : k.state = .ready) (first : k.promoted = false)
    (cls : 2 ≤ k.cls) (set : s.get F.SCH_CTL_STARVE_MS ≠ 0)
    (starved : k.readyAt + s.get F.SCH_CTL_STARVE_MS * 1000000 < s.now) :
    let u : Task := { k with promoted := true }
    exec (.starvationPromotion slot) s =
      done s (((s.setTask u).bump C.schPromote).traceTask Ev.promote u u.effective).schedule := by
  show execStarvationPromotion slot s = _
  rw [execStarvationPromotion, here]
  exact if_neg (by simp [may, ready, first, set, Nat.not_lt.2 cls, Nat.not_le.2 starved, -Nat.not_lt, -Nat.not_le])

theorem exec_starvationPromotion_idle (barred : s.dispatching = false ∨ k.state ≠ .ready ∨ k.promoted = true ∨ k.cls < 2 ∨
    s.get F.SCH_CTL_STARVE_MS = 0 ∨ s.now ≤ k.readyAt + s.get F.SCH_CTL_STARVE_MS * 1000000) :
    exec (.starvationPromotion slot) s = done s s := by
  show execStarvationPromotion slot s = _
  rw [execStarvationPromotion, here]
  refine if_pos ?_
  rcases barred with h | h | h | h | h | h <;> simp [h]

end Promotion

/-! ### HELD_FLOW_SEARCH (R267) -/

/-- The error word of a flow, where it is held. -/
def Plan.heldErr (p : Plan) (f : Nat) : Option Nat :=
  (p.locate f).bind fun x => if ((p.run x.1).flow x.2).held then some ((p.run x.1).flow x.2).err else none

/-- The flow at place `i` of a plan and its error word, where it is held and lies at `start` or above. -/
def Plan.heldFrom (p : Plan) (start i : Nat) : Option (Nat × Nat) :=
  match p.locate (p.flowBase + i) with
  | some (op, k) =>
    let f := (p.run op).flow k
    if f.held && decide (start ≤ p.flowBase + i) then some (p.flowBase + i, f.err) else none
  | none => none

theorem Plan.heldFrom_above {p : Plan} {start i : Nat} (above : start ≤ p.flowBase + i) :
    p.heldFrom start i = (p.heldErr (p.flowBase + i)).map (p.flowBase + i, ·) := by
  rw [Plan.heldFrom, Plan.heldErr]
  cases p.locate (p.flowBase + i) with
  | none => rfl
  | some x => by_cases held : ((p.run x.1).flow x.2).held <;> simp [held, above]

theorem Plan.heldFrom_below {p : Plan} {start i : Nat} (below : ¬ start ≤ p.flowBase + i) : p.heldFrom start i = none := by
  rw [Plan.heldFrom]
  cases p.locate (p.flowBase + i) with
  | none => rfl
  | some x => simp [below]

/-- What a search from `start` finds. -/
def Plan.nextHeld (p : Plan) (start : Nat) : Option (Nat × Nat) := (List.range p.flowCount).findSome? (p.heldFrom start)

/-- The lowest place that a function over the first `n` accepts. -/
theorem findSome?_range_of_first {α : Type} {f : Nat → Option α} {n i : Nat} {a : α} (here : i < n) (found : f i = some a)
    (first : ∀ j, j < i → f j = none) : (List.range n).findSome? f = some a := by
  obtain ⟨m, rfl⟩ := Nat.exists_eq_add_of_le here
  have before : (List.range i).findSome? f = none := List.findSome?_eq_none_iff.2 fun j hj => first j (List.mem_range.1 hj)
  rw [List.range_add, List.findSome?_append, List.range_succ, List.findSome?_append, before]
  simp [found]

theorem Plan.nextHeld_of_first {p : Plan} {start i e : Nat} (here : i < p.flowCount) (above : start ≤ p.flowBase + i)
    (held : p.heldErr (p.flowBase + i) = some e)
    (first : ∀ j, j < i → start ≤ p.flowBase + j → p.heldErr (p.flowBase + j) = none) :
    p.nextHeld start = some (p.flowBase + i, e) := by
  refine findSome?_range_of_first here (by rw [Plan.heldFrom_above above, held]; rfl) fun j hj => ?_
  by_cases at_ : start ≤ p.flowBase + j
  · rw [Plan.heldFrom_above at_, first j hj at_]
    rfl
  · exact Plan.heldFrom_below at_

theorem Plan.nextHeld_of_none {p : Plan} {start : Nat}
    (free : ∀ i, i < p.flowCount → start ≤ p.flowBase + i → p.heldErr (p.flowBase + i) = none) : p.nextHeld start = none := by
  refine List.findSome?_eq_none_iff.2 fun i hi => ?_
  by_cases at_ : start ≤ p.flowBase + i
  · rw [Plan.heldFrom_above at_, free i (List.mem_range.1 hi) at_]
    rfl
  · exact Plan.heldFrom_below at_

/-- A search answers at once: PLAN and FROM stand, BUSY is clear. -/
def State.searched (s : State) (v : Word) : State :=
  s.setAll [(F.SCH_HELD_FIND_PLAN, bitsOf v.toNat 31 24), (F.SCH_HELD_FIND_FROM, bitsOf v.toNat 15 0), (F.SCH_HELD_FLOW_BUSY, 0)]

/-- FOUND, FLOW and ERR of a search. -/
def State.showFlow (s : State) (found flow err : Nat) : State :=
  s.setAll [(F.SCH_HELD_FLOW_FOUND, found), (F.SCH_HELD_FLOW_FLOW, flow), (F.SCH_HELD_ERR_ERR, err)]

/-- What a search shows: without a flow, FLOW and ERR are free. -/
def State.showHeld (s : State) : Option (Nat × Nat) → State
  | some f => s.showFlow 1 f.1 f.2
  | none => s.fresh.2.fresh.2.showFlow 0 s.fresh.1 s.fresh.2.fresh.1

section Search

variable {v : Word} {p : Plan} {s : State}

theorem exec_heldFlowSearch (up : s.mainUp = true) (plan : s.plan? (bitsOf v.toNat 31 24) = some p) :
    exec (.heldFlowSearch v) s = done s ((s.searched v).showHeld (p.nextHeld (bitsOf v.toNat 15 0))) := by
  refine (if_neg (by simp [up])).trans ?_
  simp only [plan, List.head?_filterMap]
  split
  next f found =>
    rw [show p.nextHeld (bitsOf v.toNat 15 0) = some f from found]
    rfl
  next found =>
    rw [show p.nextHeld (bitsOf v.toNat 15 0) = none from found]
    rfl

end Search

/-- The fields of a search. -/
def heldFields : List Field :=
  [F.SCH_HELD_FIND_PLAN, F.SCH_HELD_FIND_FROM, F.SCH_HELD_FLOW_BUSY, F.SCH_HELD_FLOW_FOUND, F.SCH_HELD_FLOW_FLOW, F.SCH_HELD_ERR_ERR]

theorem Frame.searched (s : State) (v : Word) : Frame s (s.searched v) [] heldFields :=
  Frame.setAll _ (by simp [heldFields]) s

theorem Frame.showFlow (s : State) (found flow err : Nat) : Frame s (s.showFlow found flow err) [] heldFields :=
  Frame.setAll _ (by simp [heldFields]) s

theorem Frame.showHeld (s : State) (o : Option (Nat × Nat)) : Frame s (s.showHeld o) [] heldFields := by
  cases o with
  | some f => exact Frame.showFlow s _ _ _
  | none => exact (Frame.fresh s _ _).trans ((Frame.fresh _ _ _).trans (Frame.showFlow _ _ _ _))

theorem State.showFlow_shows (s : State) (found flow err : Nat) :
    (s.showFlow found flow err).get F.SCH_HELD_FLOW_FOUND = found % 2 ∧
    (s.showFlow found flow err).get F.SCH_HELD_FLOW_FLOW = flow % 2 ^ F.SCH_HELD_FLOW_FLOW.width ∧
    (s.showFlow found flow err).get F.SCH_HELD_ERR_ERR = err % 2 ^ F.SCH_HELD_ERR_ERR.width := by
  simp (disch := decide) only [State.showFlow, State.setAll, List.foldl_cons, List.foldl_nil, State.get_set_of_id,
    State.get_set_self, and_true]
  rfl

theorem State.showHeld_get (s : State) (o : Option (Nat × Nat)) {g : Field} (other : F.SCH_HELD_FLOW_FOUND.id ≠ g.id ∧
    F.SCH_HELD_FLOW_FLOW.id ≠ g.id ∧ F.SCH_HELD_ERR_ERR.id ≠ g.id) : (s.showHeld o).get g = s.get g := by
  have kept : ∀ (u : State) (a b c : Nat), (u.showFlow a b c).get g = u.get g := fun u a b c =>
    State.setAll_getN _ g (by simpa using other) 0 u
  cases o with
  | some f => exact kept _ _ _ _
  | none => exact kept _ _ _ _

/-- A part of a word fits a field of its width. -/
theorem bitsOf_mod (v hi lo : Nat) : bitsOf v hi lo % 2 ^ (hi + 1 - lo) = bitsOf v hi lo := Nat.mod_mod _ _

theorem State.searched_shows (s : State) (v : Word) : (s.searched v).get F.SCH_HELD_FLOW_BUSY = 0 ∧
    (s.searched v).get F.SCH_HELD_FIND_PLAN = bitsOf v.toNat 31 24 ∧
    (s.searched v).get F.SCH_HELD_FIND_FROM = bitsOf v.toNat 15 0 := by
  simp (disch := decide) only [State.searched, State.setAll, List.foldl_cons, List.foldl_nil, State.get_set_of_id,
    State.get_set_self]
  exact ⟨rfl, bitsOf_mod _ 31 24, bitsOf_mod _ 15 0⟩

/-- What every search shows, whatever it finds. -/
theorem State.heldFlowSearch_shows (s : State) (v : Word) (o : Option (Nat × Nat)) :
    let t := State.settle s ((s.searched v).showHeld o)
    t.get F.SCH_HELD_FLOW_BUSY = 0 ∧ t.get F.SCH_HELD_FIND_PLAN = bitsOf v.toNat 31 24 ∧
    t.get F.SCH_HELD_FIND_FROM = bitsOf v.toNat 15 0 ∧ Frame s t [] heldFields := by
  obtain ⟨busy, plan, start⟩ := s.searched_shows v
  refine ⟨?_, ?_, ?_, Frame.done s ((Frame.searched s v).trans (Frame.showHeld _ o))⟩
  · rw [State.settle_get_apart _ _ (by decide), State.showHeld_get _ o (by decide), busy]
  · rw [State.settle_get_apart _ _ (by decide), State.showHeld_get _ o (by decide), plan]
  · rw [State.settle_get_apart _ _ (by decide), State.showHeld_get _ o (by decide), start]

section Search

variable {v : Word} {p : Plan} {s : State} (up : s.mainUp = true) (plan : s.plan? (bitsOf v.toNat 31 24) = some p)
include up plan

theorem heldFlowSearch_finds {f e : Nat} (next : p.nextHeld (bitsOf v.toNat 15 0) = some (f, e)) :
    Answers (.heldFlowSearch v) s fun t => t.get F.SCH_HELD_FLOW_FOUND = 1 ∧
      t.get F.SCH_HELD_FLOW_FLOW = f % 2 ^ F.SCH_HELD_FLOW_FLOW.width ∧
      t.get F.SCH_HELD_ERR_ERR = e % 2 ^ F.SCH_HELD_ERR_ERR.width ∧ t.get F.SCH_HELD_FLOW_BUSY = 0 ∧
      t.get F.SCH_HELD_FIND_PLAN = bitsOf v.toNat 31 24 ∧ t.get F.SCH_HELD_FIND_FROM = bitsOf v.toNat 15 0 ∧
      Frame s t [] heldFields := by
  obtain ⟨found, flow, err⟩ := (s.searched v).showFlow_shows 1 f e
  refine Answers.of_run (exec_heldFlowSearch up plan) ?_
  rw [next]
  exact ⟨(State.settle_get_apart _ _ (by decide)).trans found, (State.settle_get_apart _ _ (by decide)).trans flow,
    (State.settle_get_apart _ _ (by decide)).trans err, State.heldFlowSearch_shows s v _⟩

theorem heldFlowSearch_finds_none (next : p.nextHeld (bitsOf v.toNat 15 0) = none) :
    Answers (.heldFlowSearch v) s fun t => t.get F.SCH_HELD_FLOW_FOUND = 0 ∧ t.get F.SCH_HELD_FLOW_BUSY = 0 ∧
      t.get F.SCH_HELD_FIND_PLAN = bitsOf v.toNat 31 24 ∧ t.get F.SCH_HELD_FIND_FROM = bitsOf v.toNat 15 0 ∧
      Frame s t [] heldFields := by
  refine Answers.of_run (exec_heldFlowSearch up plan) ?_
  rw [next]
  exact ⟨(State.settle_get_apart _ _ (by decide)).trans (State.showFlow_shows _ 0 _ _).1, State.heldFlowSearch_shows s v none⟩

end Search

/-! ### TRACE_ENABLE (R268) -/

/-- A write of SCH_TRACE_CTL. -/
def State.traceCtl (s : State) (n : Nat) : State :=
  s.setAll [(F.SCH_TRACE_CTL_EVENTS, bitsOf n 23 8), (F.SCH_TRACE_CTL_EN, bitsOf n 7 7), (F.SCH_TRACE_CTL_WRAP, bitsOf n 6 6),
    (F.SCH_TRACE_CTL_SIZE_LOG, bitsOf n 4 0)]

/-- The ring of the trace starts afresh. -/
def State.traceAfresh (s : State) : State := s.setAll [(F.SCH_TRACE_PTRS_WR, 0), (F.SCH_TRACE_PTRS_RD, 0)]

/-- What a write of SCH_TRACE_CTL does: EN that rises clears both pointers. -/
def State.traceWritten (s : State) (n : Nat) : State :=
  if bitOf n 7 && !s.flag F.SCH_TRACE_CTL_EN then (s.traceCtl n).traceAfresh else s.traceCtl n

theorem exec_traceEnable {s : State} (up : s.mainUp = true) (v : Word) :
    exec (.traceEnable v) s = done s (s.traceWritten v.toNat) :=
  (if_neg (by simp [up])).trans (apply_ite (done s) _ _ _).symm

/-- The fields of the trace's control and of its pointers. -/
def traceFields : List Field :=
  [F.SCH_TRACE_CTL_EVENTS, F.SCH_TRACE_CTL_EN, F.SCH_TRACE_CTL_WRAP, F.SCH_TRACE_CTL_SIZE_LOG, F.SCH_TRACE_PTRS_WR,
    F.SCH_TRACE_PTRS_RD]

theorem Frame.traceWritten (s : State) (n : Nat) : Frame s (s.traceWritten n) [] traceFields := by
  have control : Frame s (s.traceCtl n) [] traceFields := Frame.setAll _ (by simp [traceFields]) s
  rw [State.traceWritten]
  split
  · exact control.trans (Frame.setAll _ (by simp [traceFields]) _)
  · exact control

theorem State.traceCtl_shows (s : State) (n : Nat) : (s.traceCtl n).get F.SCH_TRACE_CTL_EVENTS = bitsOf n 23 8 ∧
    (s.traceCtl n).get F.SCH_TRACE_CTL_EN = bitsOf n 7 7 ∧ (s.traceCtl n).get F.SCH_TRACE_CTL_WRAP = bitsOf n 6 6 ∧
    (s.traceCtl n).get F.SCH_TRACE_CTL_SIZE_LOG = bitsOf n 4 0 := by
  simp (disch := decide) only [State.traceCtl, State.setAll, List.foldl_cons, List.foldl_nil, State.get_set_of_id,
    State.get_set_self]
  exact ⟨bitsOf_mod n 23 8, bitsOf_mod n 7 7, bitsOf_mod n 6 6, bitsOf_mod n 4 0⟩

theorem State.traceCtl_ptrs (s : State) (n : Nat) : (s.traceCtl n).get F.SCH_TRACE_PTRS_WR = s.get F.SCH_TRACE_PTRS_WR ∧
    (s.traceCtl n).get F.SCH_TRACE_PTRS_RD = s.get F.SCH_TRACE_PTRS_RD := by
  simp (disch := decide) only [State.traceCtl, State.setAll, List.foldl_cons, List.foldl_nil, State.get_set_of_id, and_self]

theorem State.traceWritten_ctl (s : State) (n : Nat) {g : Field}
    (other : F.SCH_TRACE_PTRS_WR.id ≠ g.id ∧ F.SCH_TRACE_PTRS_RD.id ≠ g.id) :
    (s.traceWritten n).get g = (s.traceCtl n).get g := by
  rw [State.traceWritten]
  split
  · exact State.setAll_getN _ g (by simpa using other) 0 _
  · rfl

/-- The pointers of the trace, both cleared where EN rises. -/
theorem State.traceWritten_ptrs (s : State) (n : Nat) {g : Field} (ptr : g = F.SCH_TRACE_PTRS_WR ∨ g = F.SCH_TRACE_PTRS_RD) :
    (s.traceWritten n).get g = if bitOf n 7 && !s.flag F.SCH_TRACE_CTL_EN then 0 else s.get g := by
  rw [State.traceWritten]
  split
  · rcases ptr with rfl | rfl
    · exact (State.get_set_of_id _ (by decide) _).trans (State.get_set_self _ _ _)
    · exact State.get_set_self _ _ _
  · rcases ptr with rfl | rfl
    · exact (s.traceCtl_ptrs n).1
    · exact (s.traceCtl_ptrs n).2

theorem traceEnable_writes {s : State} (up : s.mainUp = true) (v : Word) : Answers (.traceEnable v) s fun t =>
    t.get F.SCH_TRACE_CTL_EVENTS = bitsOf v.toNat 23 8 ∧ t.get F.SCH_TRACE_CTL_EN = bitsOf v.toNat 7 7 ∧
    t.get F.SCH_TRACE_CTL_WRAP = bitsOf v.toNat 6 6 ∧ t.get F.SCH_TRACE_CTL_SIZE_LOG = bitsOf v.toNat 4 0 ∧
    (let rises := bitOf v.toNat 7 && !s.flag F.SCH_TRACE_CTL_EN
     t.get F.SCH_TRACE_PTRS_WR = (if rises then 0 else s.get F.SCH_TRACE_PTRS_WR) ∧
     t.get F.SCH_TRACE_PTRS_RD = (if rises then 0 else s.get F.SCH_TRACE_PTRS_RD)) ∧
    Frame s t [] traceFields := by
  obtain ⟨events, enable, wrap, size⟩ := s.traceCtl_shows v.toNat
  have settled : ∀ g : Field, g.apart = true → (State.settle s (s.traceWritten v.toNat)).get g = (s.traceWritten v.toNat).get g :=
    fun g h => State.settle_get_apart s _ h
  refine Answers.of_run (exec_traceEnable up v) ⟨?_, ?_, ?_, ?_, ⟨?_, ?_⟩, Frame.done s (Frame.traceWritten s _)⟩
  · rw [settled _ (by decide), State.traceWritten_ctl _ _ (by decide), events]
  · rw [settled _ (by decide), State.traceWritten_ctl _ _ (by decide), enable]
  · rw [settled _ (by decide), State.traceWritten_ctl _ _ (by decide), wrap]
  · rw [settled _ (by decide), State.traceWritten_ctl _ _ (by decide), size]
  · rw [settled _ (by decide), State.traceWritten_ptrs _ _ (.inl rfl)]
  · rw [settled _ (by decide), State.traceWritten_ptrs _ _ (.inr rfl)]

/-! ### WINDOW_CLOSE_ACCEPT (R228, R231) -/

/-- The first window-close firing that need not stay pending. -/
def State.nextClose (s : State) : Option Firing := s.cal.firings.find? (fun f => f.target == 1 && !(s.firingCase f).stays)

theorem State.nextClose_none {s : State} (stay : ∀ f ∈ s.cal.firings, f.target = 1 → (s.firingCase f).stays = true) :
    s.nextClose = none := by
  refine List.find?_eq_none.2 fun f hf => ?_
  simpa using stay f hf

theorem exec_windowCloseAccept_idle {s : State}
    (idle : s.get F.FT_STATUS_STATE ≠ Ft.running ∨ s.tillersRun = false ∨ s.nextClose = none) :
    exec .windowCloseAccept s = done s s := by
  by_cases running : s.get F.FT_STATUS_STATE = Ft.running
  · refine (if_neg (not_not.2 running)).trans ?_
    cases next : s.nextClose with
    | none =>
      rw [State.nextClose] at next
      rw [next]
    | some f =>
      rw [next] at idle
      have halted : s.tillersRun = false := by simpa [running] using idle
      rw [State.nextClose] at next
      rw [next]
      exact if_pos (by simp [halted])
  · exact if_pos running

section Close

variable {s : State} (running : s.get F.FT_STATUS_STATE = Ft.running) (run : s.tillersRun = true) {f : Firing}
  (next : s.nextClose = some f)
include running run next

theorem exec_windowCloseAccept_accepts {slot op : Nat} (accepts : s.firingCase f = .accept slot op) :
    exec .windowCloseAccept s = done s ((s.dropFiring f).acceptFiring slot op) := by
  rw [State.nextClose] at next
  refine (if_neg (not_not.2 running)).trans ?_
  rw [next]
  refine (if_neg (by simp [run])).trans ?_
  rw [accepts]

theorem exec_windowCloseAccept_discards (discards : s.firingCase f = .discard) :
    exec .windowCloseAccept s = done s (s.dropFiring f) := by
  rw [State.nextClose] at next
  refine (if_neg (not_not.2 running)).trans ?_
  rw [next]
  refine (if_neg (by simp [run])).trans ?_
  rw [discards]

theorem windowCloseAccept_discards (discards : s.firingCase f = .discard) : Answers .windowCloseAccept s fun t =>
    t.cal = { s.cal with firings := s.cal.firings.filter (fun g => g != f) } ∧ Frame s t [.cal] [] :=
  Answers.of_run (exec_windowCloseAccept_discards running run next discards)
    ⟨State.settle_cal s _, Frame.done s (Frame.withCal s _ (by simp) _)⟩

end Close

/-- Settles O56: each of the scheduler's commands by the cases of its rule. -/
theorem tasksAreDispatchedAndEnd : Obligations.TasksAreDispatchedAndEnd := by
  refine ⟨fun n s ok => ⟨fun idle => Answers.of_idle (exec_taskDispatch_idle ok idle), fun may idle live => ⟨fun k first => ?_,
      fun unserved => ?_⟩⟩,
    fun n s ok => ⟨fun idle => Answers.of_idle (exec_yieldPoint_idle ok idle), fun k serves v left running => ?_⟩,
    fun n s ok k serves => ⟨fun more => Answers.of_idle (exec_taskEnd_unfinished ok serves more), fun ended pushed empty =>
      ⟨State.removeTask_removes _ k, fun p plan => exec_taskEnd_ends ok serves ended pushed empty plan⟩⟩,
    fun slot s k here => ⟨fun may ready first cls set starved => ⟨rfl,
      exec_starvationPromotion_promotes here may ready first cls set starved⟩, fun barred =>
      Answers.of_idle (exec_starvationPromotion_idle here barred)⟩,
    fun v p s up plan => ⟨fun i e here above held first => ?_, fun free => ?_⟩,
    fun v s up => traceEnable_writes up v,
    fun s => ⟨fun idle => ?_, fun running run f next => ⟨fun slot op => exec_windowCloseAccept_accepts running run next,
      windowCloseAccept_discards running run next⟩⟩⟩
  · exact Runs.of_eq (exec_taskDispatch_pulls ok may idle live) (congrArg State.schedule (State.pull_dispatches first))
  · exact Runs.of_eq (exec_taskDispatch_pulls ok may idle live) (congrArg State.schedule (State.pull_finds_none unserved))
  · have stands := exec_yieldPoint_running ok serves left running
    exact ⟨fun asked => Runs.of_eq stands (congrArg State.schedule (State.yieldPoint_asked asked)),
      fun unasked pushed => Runs.of_eq stands (congrArg State.schedule (State.yieldPoint_goesOn unasked pushed)),
      fun unasked waits => ⟨fun c wants => Runs.of_eq stands (congrArg State.schedule (State.yieldPoint_credit unasked waits wants)),
        fun wants => Runs.of_eq stands (congrArg State.schedule (State.yieldPoint_quota unasked waits wants))⟩⟩
  · exact heldFlowSearch_finds up plan (Plan.nextHeld_of_first here above held first)
  · exact heldFlowSearch_finds_none up plan (Plan.nextHeld_of_none free)
  · exact Answers.of_idle (exec_windowCloseAccept_idle (idle.imp_right (Or.imp_right State.nextClose_none)))

end Sys2Proof.Machine

/-! SUPPORT. Contexts, register writes by field, invalidations, and the answers of the host to reads, translations and page
requests. -/

namespace Sys2Proof.Machine

/-! ### A context's configuration (R274, R275) -/

/-- Fields written at one index keep what they hold at another. -/
theorem State.setEach_getN_elsewhere {n m : Nat} (h : n % 8192 ≠ m % 8192) (l : List (Field × Nat)) (g : Field) (s : State) :
    (s.setEach n l).getN g m = s.getN g m :=
  State.foldl_keeps (fun t => t.getN g m) _ l (fun t x => by
    by_cases same : x.1.key n = g.key m
    · unfold Field.key at same
      omega
    · exact Store.getD_put_ne _ same _ _ _) s

/-- What a write of CTX[n].CFG writes: EN of context 0 ignores it (R274). -/
def ctxSettings (n : BitVec 8) (v : Dword) : List (Field × Nat) :=
  [(F.CTX_CFG_PASID_EN, bitsOf v.toNat 30 30), (F.CTX_CFG_PRI_EN, bitsOf v.toNat 29 29), (F.CTX_CFG_PASID, bitsOf v.toNat 19 0)] ++
    if n = 0 then [] else [(F.CTX_CFG_EN, bitsOf v.toNat 31 31)]

/-- The fields of CTX[n].CFG. -/
def ctxFields : List Field := [F.CTX_CFG_EN, F.CTX_CFG_PASID_EN, F.CTX_CFG_PRI_EN, F.CTX_CFG_PASID]

theorem ctxSettings_apart (n : BitVec 8) (v : Dword) : ((ctxSettings n v).map Prod.fst).Pairwise fun f g => f.id ≠ g.id := by
  unfold ctxSettings
  split <;> simp only [List.map_append, List.map_cons, List.map_nil] <;> decide

theorem ctxSettings_fields (n : BitVec 8) (v : Dword) : ∀ f ∈ (ctxSettings n v).map Prod.fst, f ∈ ctxFields := by
  unfold ctxSettings ctxFields
  split <;> simp

theorem ctxFields_settled {f : Field} (h : f ∈ ctxFields) : f.outside settleFields := by
  revert f
  unfold Field.outside
  decide

section Configure

variable {n : BitVec 8} {v : Dword} {s : State}

theorem exec_ctxCfgWrite (up : s.groupUp .fn = true) (unused : s.ctxUsers n.toNat = 0) :
    exec (.ctxCfgWrite n v) s = done s (s.setEach n.toNat (ctxSettings n v)) := by
  refine (if_neg (by simp [up, unused])).trans (congrArg (done s) ?_)
  unfold ctxSettings
  split <;> rfl

theorem exec_ctxCfgWrite_used (used : s.ctxUsers n.toNat ≠ 0) : exec (.ctxCfgWrite n v) s = done s s :=
  if_pos (by simp [used])

theorem ctxCfgWrite_writes (up : s.groupUp .fn = true) (unused : s.ctxUsers n.toNat = 0) :
    Answers (.ctxCfgWrite n v) s fun t =>
      t.getN F.CTX_CFG_PASID_EN n.toNat = bitsOf v.toNat 30 30 ∧ t.getN F.CTX_CFG_PRI_EN n.toNat = bitsOf v.toNat 29 29 ∧
      t.getN F.CTX_CFG_PASID n.toNat = bitsOf v.toNat 19 0 ∧
      t.getN F.CTX_CFG_EN n.toNat = (if n = 0 then s.getN F.CTX_CFG_EN 0 else bitsOf v.toNat 31 31) ∧
      (∀ k : BitVec 8, k ≠ n → ∀ f ∈ ctxFields, t.getN f k.toNat = s.getN f k.toNat) ∧ Frame s t [] ctxFields := by
  have shows : ∀ {f : Field} {x : Nat}, f ∈ ctxFields → (f, x) ∈ ctxSettings n v → x % 2 ^ f.width = x →
      (State.settle s (s.setEach n.toNat (ctxSettings n v))).getN f n.toNat = x := fun own written fits =>
    (State.settle_getN _ _ (ctxFields_settled own) _).trans
      ((State.setEach_getN _ _ s (ctxSettings_apart n v) written).trans fits)
  refine Answers.of_run (exec_ctxCfgWrite up unused) ⟨?_, ?_, ?_, ?_, fun k other f own => ?_,
    (Frame.setEach _ _ _ _ (ctxSettings_fields n v)).done s⟩
  · exact shows (by simp [ctxFields]) (by simp [ctxSettings]) (bitsOf_mod _ 30 30)
  · exact shows (by simp [ctxFields]) (by simp [ctxSettings]) (bitsOf_mod _ 29 29)
  · exact shows (by simp [ctxFields]) (by simp [ctxSettings]) (bitsOf_mod _ 19 0)
  · split
    next zero =>
      subst zero
      refine (State.settle_getN _ _ (ctxFields_settled (by simp [ctxFields])) _).trans (State.setEach_getN_apart _ _ _ s ?_)
      simp only [ctxSettings, if_true, List.append_nil, List.map_cons, List.map_nil]
      decide
    next numbered =>
      have written : (F.CTX_CFG_EN, bitsOf v.toNat 31 31) ∈ ctxSettings n v :=
        List.mem_append_right _ (by rw [if_neg numbered]; exact List.mem_singleton_self _)
      exact shows (by simp [ctxFields]) written (bitsOf_mod _ 31 31)
  · have apart : n.toNat % 8192 ≠ k.toNat % 8192 := by
      have := mt BitVec.eq_of_toNat_eq other
      omega
    exact (State.settle_getN _ _ (ctxFields_settled own) _).trans (State.setEach_getN_elsewhere apart _ f s)

theorem createPair_unenabled {m : Mailbox} {a : Accepted} (begins : s.begins m (isOp Op.createPair) a)
    (out : s.ctxEnabled (pairArgs a.cmd).ctx = false) : Ends (.createPair m) s s a CC.invalidField 36 := by
  refine Ends.of_run (congrArg (done s) ((State.onCmd_of_begins begins _).trans ?_))
  simp only [out, Bool.not_false, if_true]

end Configure

/-! ### A register write (R15, R501, R502, R506) -/

/-- Bytes of a register write. -/
def accessBytes : AccessSize → Nat
  | .four => 4
  | .eight => 8

/-- The registers of a block that a writer reaches are powered. -/
def State.reachedBy (s : State) : RegWriter → Bool
  | .host => s.linkUp
  | .firmware => s.mainUp

/-- Every field takes the bits of a write that it may take. -/
def State.writeFields (s : State) (w : RegWriter) (off len v : Nat) : State := allFields.foldl (State.writeField s w off len v) s

/-- One field under a write stays, or it may be written and takes a value at the place that the offset names. -/
theorem State.writeField_cases (before : State) (w : RegWriter) (off len v : Nat) (t : State) (f : Field) :
    before.writeField w off len v t f = t ∨
    ∃ i x, before.writeField w off len v t f = t.setN f i x ∧ fieldInstance f off = some i ∧ f.access ≠ .ro ∧ f.access ≠ .wo ∧
      ¬ (f.priv = true ∧ w = .host) ∧ t.groupUp (f.group i) = true ∧ f.outside ownCommand := by
  unfold State.writeField
  split
  · exact .inl rfl
  next i named =>
    dsimp only
    split
    · exact .inl rfl
    next may =>
      simp only [Bool.or_eq_true, not_or, beq_iff_eq, Bool.and_eq_true, Bool.not_eq_true', List.any_eq_true, not_exists,
        Bool.not_eq_false, decide_eq_true_eq] at may
      obtain ⟨⟨⟨⟨⟨⟨-, ro⟩, wo⟩, priv⟩, up⟩, own⟩, -⟩ := may
      exact .inr ⟨i, _, rfl, named, ro, wo, priv, up, fun g hg same => own g ⟨hg, same⟩⟩

theorem State.writeField_pwr (before : State) (w : RegWriter) (off len v : Nat) (t : State) (f : Field) :
    (before.writeField w off len v t f).pwr = t.pwr := by
  rcases before.writeField_cases w off len v t f with e | ⟨i, x, e, -⟩ <;> rw [e]
  exact State.setN_pwr ..

theorem State.writeField_getN_apart (before : State) (w : RegWriter) (off len v : Nat) (t : State) {f g : Field}
    (h : f.id ≠ g.id) (k : Nat) : (before.writeField w off len v t f).getN g k = t.getN g k := by
  rcases before.writeField_cases w off len v t f with e | ⟨i, x, e, -⟩ <;> rw [e]
  exact State.getN_setN_of_id t h i x k

/-- REGISTER_WRITE passes by the fields whose writes are commands of their own. -/
theorem State.writeField_getN_own (before : State) (w : RegWriter) (off len v : Nat) (t : State) (f : Field) {g : Field}
    (own : g ∈ ownCommand) (k : Nat) : (before.writeField w off len v t f).getN g k = t.getN g k := by
  rcases before.writeField_cases w off len v t f with e | ⟨i, x, e, -, -, -, -, -, other⟩ <;> rw [e]
  exact State.getN_setN_of_id t (other g own).symm i x k

/-- The MSI-X table takes one dword of a write, or two. -/
def State.writeMsixTable (s : State) (off v : Nat) : AccessSize → State
  | .four => s.writeMsix off (v % 2 ^ 32)
  | .eight => (s.writeMsix off (v % 2 ^ 32)).writeMsix (off + 4) (v / 2 ^ 32)

theorem State.writeMsixTable_getN (s : State) (off v : Nat) (z : AccessSize) (g : Field) (k : Nat) :
    (s.writeMsixTable off v z).getN g k = s.getN g k := by
  cases z <;> rfl

theorem Frame.writeMsixTable (s : State) (off v : Nat) (z : AccessSize) : Frame s (s.writeMsixTable off v z) [.link] [] := by
  have dword : ∀ (t : State) (o x : Nat), Frame t (t.writeMsix o x) [.link] [] := fun t o x => Frame.withLink t _ (by simp) []
  cases z with
  | four => exact dword ..
  | eight => exact (dword ..).trans (dword ..)

/-- A write that does not reach its block, or is not aligned, does nothing (R502); one of the MSI-X table's goes there. -/
theorem exec_registerWrite (w : RegWriter) (o : BitVec 24) (z : AccessSize) (v : Dword) (s : State) :
    let x := v.toNat % 2 ^ (8 * accessBytes z)
    exec (.registerWrite w o z v) s =
      if !s.reachedBy w || !(decide (o.toNat % accessBytes z = 0) || inBuffers o.toNat) then done s s
      else if 0xE00000 ≤ o.toNat ∧ o.toNat < 0xE01000 then done s (s.writeMsixTable o.toNat x z)
      else done s (s.writeFields w o.toNat (accessBytes z) x) := by
  cases w <;> cases z <;> rfl

/-- What a register write may do (R501, R502): it leaves every register, though perhaps not the MSI-X table, or it goes to every
field. -/
def Rewrites (w : RegWriter) (o : BitVec 24) (z : AccessSize) (v : Dword) (s u : State) : Prop :=
  (Frame s u [.link] [] ∧ ∀ g k, u.getN g k = s.getN g k) ∨
    u = s.writeFields w o.toNat (accessBytes z) (v.toNat % 2 ^ (8 * accessBytes z))

theorem exec_registerWrite_cases (w : RegWriter) (o : BitVec 24) (z : AccessSize) (v : Dword) (s : State) :
    ∃ u, exec (.registerWrite w o z v) s = done s u ∧ Rewrites w o z v s u := by
  rw [exec_registerWrite]
  split_ifs
  · exact ⟨s, rfl, .inl ⟨Frame.refl s _ _, fun _ _ => rfl⟩⟩
  · exact ⟨_, rfl, .inl ⟨Frame.writeMsixTable .., State.writeMsixTable_getN s _ _ z⟩⟩
  · exact ⟨_, rfl, .inr rfl⟩

/-- What no field's write touches, a register write leaves. -/
theorem Rewrites.keeps {w : RegWriter} {o : BitVec 24} {z : AccessSize} {v : Dword} {s u : State} (h : Rewrites w o z v s u)
    {g : Field} (shown : g.outside settleFields) {k : Nat}
    (kept : ∀ off len x, (s.writeFields w off len x).getN g k = s.getN g k) : (State.settle s u).getN g k = s.getN g k := by
  rw [State.settle_getN s u shown]
  rcases h with ⟨-, same⟩ | rfl
  · exact same g k
  · exact kept _ _ _

/-- Settles O51: a context without users takes the write and one with users does not, REGISTER_WRITE passes its fields by, and
CREATE_PAIR looks at EN first. -/
theorem contextsAreConfigured : Obligations.ContextsAreConfigured := by
  refine ⟨fun n v s up unused => ctxCfgWrite_writes up unused, fun n v s used => Answers.of_idle (exec_ctxCfgWrite_used used),
    fun w o z v s => ?_, fun m s a begins out => createPair_unenabled begins out⟩
  obtain ⟨u, run, rewrites⟩ := exec_registerWrite_cases w o z v s
  refine Answers.of_run run fun f own n => rewrites.keeps (ctxFields_settled own) fun off len x => ?_
  exact State.foldl_keeps (fun t => t.getN f n) _ _ (fun t g => State.writeField_getN_own s w off len x t g
    (List.mem_append_left (ownCommand.drop 4) own) n) s

end Sys2Proof.Machine

namespace Sys2Proof.Machine

/-! ### Invalidation (R284, R288) -/

/-- A translation of the context that is under way keeps the range of an invalidation (R288). -/
def TransReq.noting (i : Inval) (r : TransReq) : TransReq :=
  if r.ctx = i.ctx then { r with stale := r.stale ++ [(i.page, i.log)] } else r

theorem TransReq.noting_stale {i : Inval} {r : TransReq} (same : (r.noting i).ctx = i.ctx) : (i.page, i.log) ∈ (r.noting i).stale := by
  unfold TransReq.noting at same ⊢
  split
  · exact List.mem_append_right _ (List.mem_singleton_self _)
  next other => exact absurd same (by rwa [if_neg other])

/-- An invalidation stands open, and the translations that are outstanding keep its range (R288). -/
def Tlu.openInval (u : Tlu) (i : Inval) : Tlu :=
  { u with reqs := (u.reqs.take 64).map (TransReq.noting i) ++ u.reqs.drop 64, invals := u.invals ++ [i] }

theorem Tlu.openInval_outstanding (u : Tlu) (i : Inval) :
    (u.openInval i).reqs.take 64 = (u.reqs.take 64).map (TransReq.noting i) := by
  rw [Tlu.openInval, List.take_append, List.length_map, List.length_take]
  rcases Nat.le_total u.reqs.length 64 with few | many
  · rw [List.drop_of_length_le few, List.take_nil, List.append_nil, List.take_of_length_le (by simp)]
  · rw [Nat.min_eq_left many, Nat.sub_self, List.take_zero, List.append_nil, List.take_of_length_le (by simp)]

theorem Tlu.openInval_stale (u : Tlu) (i : Inval) :
    ∀ r ∈ (u.openInval i).reqs.take 64, r.ctx = i.ctx → (i.page, i.log) ∈ r.stale := by
  intro r outstanding same
  rw [Tlu.openInval_outstanding, List.mem_map] at outstanding
  obtain ⟨q, -, rfl⟩ := outstanding
  exact TransReq.noting_stale same

theorem Tlu.openInval_requests (u : Tlu) (i : Inval) :
    (u.openInval i).reqs.map (fun r => (r.id, r.ctx, r.page)) = u.reqs.map fun r => (r.id, r.ctx, r.page) := by
  have same : (fun r : TransReq => (r.id, r.ctx, r.page)) ∘ TransReq.noting i = fun r => (r.id, r.ctx, r.page) := by
    funext r
    simp only [Function.comp, TransReq.noting]
    split <;> rfl
  rw [Tlu.openInval, List.map_append, List.map_map, same, ← List.map_append, List.take_append_drop]

theorem Frame.mapTlu (s : State) (f : Tlu → Tlu) {ps : List Part} (h : .eng ∈ ps) (fs : List Field) : Frame s (s.mapTlu f) ps fs :=
  Frame.mapEng s _ h fs

theorem Frame.bump (s : State) (c : Counter) {ps : List Part} {fs : List Field} (hp : ∀ p ∈ raiseParts, p ∈ ps)
    (hf : ∀ f ∈ [c.count, c.sat] ++ raiseFields, f ∈ fs) : Frame s (s.bump c) ps fs := by
  refine Frame.mono (ps := raiseParts) (fs := [c.count, c.sat] ++ raiseFields) ⟨s.bump_now c, s.bump_pending c, ?_, ?_⟩ hp hf
  · intro p h
    cases p with
    | pwr | link | hub | grn => exact absurd (by decide) h
    | ft => exact s.bump_ft c
    | cal => exact s.bump_cal c
    | mgt => exact s.bump_mgt c
    | mbx => exact s.bump_mbx c
    | dram => exact s.bump_dram c
    | flash => exact s.bump_flash c
    | dge => exact s.bump_dge c
    | eng => exact s.bump_eng c
  · intro g apart n
    obtain ⟨-, apart⟩ := Field.outside_append.1 apart
    obtain ⟨own, raised⟩ := Field.outside_append.1 apart
    exact State.bump_getN s c raised (own _ (by simp)) (own _ (by simp)) n

/-- A closed invalidation is answered (R288). -/
def State.closeInval (s : State) (i : Inval) : State :=
  (s.mapTlu (fun t => { t with invals := t.invals.erase i })).emit (.invalDone i.tag)

section Invalidation

variable {s : State}

theorem exec_atsInvalidationRequest {ctx : BitVec 8} {first : BitVec 52} {log : BitVec 6} {tag : BitVec 5}
    (up : s.groupUp .ln = true) (room : s.eng.tlu.invals.length < 32) :
    let page := first.toNat / 2 ^ log.toNat * 2 ^ log.toNat
    exec (.atsInvalidationRequest ctx first log tag) s =
      done s ((s.tlbDrop fun e => e.kind == .host ctx.toNat && e.meets page log.toNat).mapTlu
        (Tlu.openInval · ⟨tag.toNat, ctx.toNat, page, log.toNat⟩)) :=
  if_neg (by simp [up, room])

theorem atsInvalidationRequest_drops {ctx : BitVec 8} {first : BitVec 52} {log : BitVec 6} {tag : BitVec 5}
    (up : s.groupUp .ln = true) (room : s.eng.tlu.invals.length < 32) :
    let page := first.toNat / 2 ^ log.toNat * 2 ^ log.toNat
    Answers (.atsInvalidationRequest ctx first log tag) s fun t =>
      (∀ e ∈ t.eng.tlu.tlb, ¬ (e.kind = .host ctx.toNat ∧ e.meets page log.toNat = true)) ∧
      (∀ e ∈ s.eng.tlu.tlb, ¬ (e.kind = .host ctx.toNat ∧ e.meets page log.toNat = true) → e ∈ t.eng.tlu.tlb) ∧
      (∀ r ∈ t.eng.tlu.reqs.take 64, r.ctx = ctx.toNat → (page, log.toNat) ∈ r.stale) ∧
      t.eng.tlu.reqs.map (fun r => (r.id, r.ctx, r.page)) = s.eng.tlu.reqs.map (fun r => (r.id, r.ctx, r.page)) ∧
      t.eng.tlu.invals = s.eng.tlu.invals ++ [⟨tag.toNat, ctx.toNat, page, log.toNat⟩] ∧
      { t.eng with tlu := s.eng.tlu } = s.eng ∧ Frame s t [.eng] [] := by
  intro page
  refine Answers.of_run (exec_atsInvalidationRequest up room) ?_
  rw [State.settle_eng]
  refine ⟨fun e kept => ?_, fun e here apart => ?_, Tlu.openInval_stale _ _, Tlu.openInval_requests _ _, rfl, rfl,
    ((Frame.mapTlu s _ (by simp) _).trans (Frame.mapTlu _ _ (by simp) _)).done s⟩
  · simpa [page, imp_iff_not_or] using (List.mem_filter.1 kept).2
  · exact List.mem_filter.2 ⟨here, by simpa [page, imp_iff_not_or] using apart⟩

theorem exec_atsInvalidationComplete {tag : BitVec 5} {i : Inval}
    (found : s.eng.tlu.invals.find? (fun i => i.tag == tag.toNat) = some i) :
    exec (.atsInvalidationComplete tag) s =
      if s.readsIn i then done s s else done s ((s.closeInval i).bump C.tluInval) := by
  show execAtsInvalidationComplete tag s = _
  rw [execAtsInvalidationComplete, found]
  rfl

theorem atsInvalidationComplete_waits {tag : BitVec 5} {i : Inval}
    (found : s.eng.tlu.invals.find? (fun i => i.tag == tag.toNat) = some i) (reads : s.readsIn i = true) :
    Answers (.atsInvalidationComplete tag) s fun t => Frame s t [] [] :=
  Answers.of_idle ((exec_atsInvalidationComplete found).trans (if_pos reads))

theorem atsInvalidationComplete_answers {tag : BitVec 5} {i : Inval}
    (found : s.eng.tlu.invals.find? (fun i => i.tag == tag.toNat) = some i) (clear : s.readsIn i = false) :
    Answers (.atsInvalidationComplete tag) s fun t =>
      Output.invalDone i.tag ∈ t.out ∧ t.eng.tlu.invals = s.eng.tlu.invals.erase i ∧
      Frame s t (.eng :: raiseParts) ([F.TLU_INVAL_CNT_COUNT, F.TLU_INVAL_CNT_SAT] ++ raiseFields) := by
  refine Answers.of_run ((exec_atsInvalidationComplete found).trans (if_neg (by simp [clear]))) ⟨?_, ?_, Frame.done s ?_⟩
  · exact State.settle_out_mono s _ ((KeepsLink.bumpN _ C.tluInval 0).sent _ (List.mem_cons_self ..))
  · rw [State.settle_eng, State.bump_eng]
    rfl
  · exact ((Frame.mapTlu s _ (by simp) _).trans (Frame.emit _ _ _ _)).trans
      (Frame.bump _ C.tluInval (fun _ h => List.mem_cons_of_mem _ h) fun _ h => h)

/-- The entries that a write of TLU_INVAL names (R284). -/
def namedByInval (n : Nat) (e : TlbEntry) : Bool :=
  some e.kind == (if bitsOf n 1 0 = 1 then some TlbKind.device else if bitsOf n 1 0 = 2 then some TlbKind.granary else none) &&
    (bitsOf n 11 4 == 255 || e.meets (bitsOf n 63 12) (bitsOf n 11 4))

theorem exec_tluInval {v : Dword} (up : s.mainUp = true) : exec (.tluInval v) s = done s (s.tlbDrop (namedByInval v.toNat)) :=
  if_neg (by simp [up])

theorem tluInval_drops {v : Dword} (up : s.mainUp = true) : Answers (.tluInval v) s fun t =>
    (∀ e : TlbEntry, e ∈ t.eng.tlu.tlb ↔ e ∈ s.eng.tlu.tlb ∧ namedByInval v.toNat e = false) ∧
    { t.eng with tlu := s.eng.tlu } = s.eng ∧ Frame s t [.eng] [] := by
  refine Answers.of_run (exec_tluInval up) ?_
  rw [State.settle_eng]
  refine ⟨fun e => ?_, rfl, (Frame.mapTlu s _ (by simp) _).done s⟩
  exact List.mem_filter.trans (and_congr_right fun _ => by simp)

end Invalidation

/-! ### PRI Enable (R287) -/

theorem bitOf_putBits_other {v i j : Nat} (h : j ≠ i) (b : Bool) : bitOf (putBits v i 1 (natOfBool b)) j = bitOf v j := by
  rw [bitOf_eq_testBit, bitOf_eq_testBit, putBits_one, Nat.mul_comm, Nat.testBit_two_pow_mul_add _ (Nat.mod_lt _ (by positivity))]
  split
  next below => rw [Nat.testBit_mod_two_pow, decide_eq_true below, Bool.true_and]
  next above =>
    obtain ⟨k, rfl⟩ := Nat.exists_eq_add_of_le (Nat.le_of_not_lt above)
    obtain ⟨m, rfl⟩ := Nat.exists_eq_succ_of_ne_zero (show k ≠ 0 by omega)
    have half : (2 * (v / 2 ^ i / 2) + natOfBool b % 2) / 2 = v / 2 ^ i / 2 := by omega
    rw [Nat.add_sub_cancel_left, Nat.add_comm i, ← Nat.testBit_div_two_pow, Nat.testBit_succ, Nat.testBit_succ, half]

/-- Clearing one source's live bit leaves that of every other source (R441). -/
theorem State.live_clearLive_of_ne (s : State) {n k : Nat} (hn : n < 256) (hk : k < 256) (h : k ≠ n) :
    (s.clearLive n).live k = s.live k := by
  rw [State.live, State.live, State.clearLive, State.setBit64]
  by_cases same : n / 64 = k / 64
  · rw [same, State.getN_setN_self, show F.FLT_LIVE_LIVE.width = 64 from rfl, bitOf_eq_testBit, Nat.testBit_mod_two_pow,
      decide_eq_true (Nat.mod_lt k (by decide)), Bool.true_and, ← bitOf_eq_testBit, bitOf_putBits_other (by omega)]
  · rw [State.getN_setN_of_index _ _ (by omega)]

/-- The host's enables of ATS and PRI, as host software sets them (R287). -/
def State.enablePri (s : State) (ats : Bool) : State := { s with link := { s.link with atsEnable := ats, priEnable := true } }

theorem exec_priEnableToggle {ats : Bool} {s : State} (up : s.groupUp .fn = true) :
    exec (.priEnableToggle ats) s = done s (((s.enablePri ats).set F.TLU_STATUS_PRI_STOPPED 0).clearLive 50) :=
  if_neg (by simp [up])

/-- A link that differs from another by the enables and the pending bits alone. -/
theorem Link.enabled {l k : Link} {ats : Bool} (h : { l with pba := k.pba } = { k with atsEnable := ats, priEnable := true }) :
    l.atsEnable = ats ∧ l.priEnable = true ∧
      { l with atsEnable := k.atsEnable, priEnable := k.priEnable, pba := k.pba } = k :=
  ⟨congrArg Link.atsEnable h, congrArg Link.priEnable h,
    congrArg (fun l : Link => { l with atsEnable := k.atsEnable, priEnable := k.priEnable }) h⟩

theorem priEnableToggle_enables {ats : Bool} {s : State} (up : s.groupUp .fn = true) : Answers (.priEnableToggle ats) s fun t =>
    t.link.atsEnable = ats ∧ t.link.priEnable = true ∧ t.get F.TLU_STATUS_PRI_STOPPED = 0 ∧ t.live 50 = false ∧
    (∀ n : Nat, n < 256 → n ≠ 50 → t.live n = s.live n) ∧
    { t.link with atsEnable := s.link.atsEnable, priEnable := s.link.priEnable, pba := s.link.pba } = s.link ∧
    Frame s t [.link] [F.TLU_STATUS_PRI_STOPPED, F.FLT_LIVE_LIVE] := by
  have link : (((s.enablePri ats).set F.TLU_STATUS_PRI_STOPPED 0).clearLive 50).link = (s.enablePri ats).link := by
    rw [State.clearLive_link, State.set_link]
  obtain ⟨ats_set, pri_set, others⟩ := Link.enabled (k := s.link) (ats := ats)
    ((State.settle_link s _ s.link.pba).trans (by rw [link]; rfl))
  refine Answers.of_run (exec_priEnableToggle up) ⟨ats_set, pri_set, ?_, ?_, fun n fits other => ?_, others, Frame.done s ?_⟩
  · refine (State.settle_getN s _ (by unfold Field.outside; decide) 0).trans ((State.getN_setN_of_id _ (by decide) _ _ 0).trans ?_)
    exact State.get_set_self _ _ _
  · rw [State.live_settle, State.live_clearLive]
  · rw [State.live_settle, State.live_clearLive_of_ne _ (by decide) fits other, State.live_set _ (by decide)]
    rfl
  · exact ((Frame.withLink s _ (by simp) _).trans (Frame.set _ _ _ (by simp))).trans (Frame.clearLive _ _ (by simp))

/-! ### The fields under a register write (R15, R501, R502, R506) -/

theorem allFields_ids : allFields.map Field.id = List.range allFields.length := by decide +kernel

theorem allFields_nodup : (allFields.map Field.id).Nodup := allFields_ids ▸ List.nodup_range

/-- A field is known by its number. -/
theorem allFields_eq_of_id {f g : Field} (hf : f ∈ allFields) (hg : g ∈ allFields) (h : f.id = g.id) : f = g :=
  List.inj_on_of_nodup_map allFields_nodup hf hg h

/-- No array has as many instances as a key tells apart (R508). -/
theorem allFields_count {f : Field} (h : f ∈ allFields) : f.count ≤ 8192 := by
  revert f
  decide +kernel

theorem fieldInstance_lt {f : Field} {off i : Nat} (h : fieldInstance f off = some i) : i < f.count := by
  unfold fieldInstance at h
  dsimp only at h
  split_ifs at h with _ single fits
  · obtain rfl := Option.some.inj h
    omega
  · obtain rfl := Option.some.inj h
    exact fits

theorem Frame.writeFields (s : State) (w : RegWriter) (off len v : Nat) (ps : List Part) :
    Frame s (s.writeFields w off len v) ps allFields := by
  refine Frame.foldl _ _ (fun f hf t => ?_) s
  rcases s.writeField_cases w off len v t f with e | ⟨i, x, e, -⟩ <;> rw [e]
  · exact Frame.refl t _ _
  · exact Frame.setN t f i x hf

/-- A field may not be written by its access code, by the writer's privilege, or as its group is down (R15, R501, R506). -/
def State.barred (s : State) (w : RegWriter) (f : Field) (i : Nat) : Prop :=
  f.access = .ro ∨ f.access = .wo ∨ (f.priv = true ∧ w = .host) ∨ s.groupUp (f.group i) = false

theorem State.groupUp_congr {s t : State} (h : t.pwr = s.pwr) (d : Group) : t.groupUp d = s.groupUp d := by
  unfold State.groupUp
  rw [h]

theorem State.barred_congr {s t : State} (h : t.pwr = s.pwr) {w : RegWriter} {f : Field} {i : Nat} (barred : s.barred w f i) :
    t.barred w f i := by
  unfold State.barred
  rwa [State.groupUp_congr h]

theorem State.writeField_getN_barred (before : State) (w : RegWriter) (off len v : Nat) {t : State} {f g : Field} {i : Nat}
    (hf : f ∈ allFields) (hg : g ∈ allFields) (fits : i < f.count) (barred : t.barred w f i) :
    (before.writeField w off len v t g).getN f i = t.getN f i := by
  rcases before.writeField_cases w off len v t g with e | ⟨j, x, e, named, ro, wo, priv, up, -⟩ <;> rw [e]
  by_cases same : g = f
  · subst same
    have apart : j ≠ i := by
      rintro rfl
      rcases barred with h | h | h | h
      · exact ro h
      · exact wo h
      · exact priv h
      · rw [h] at up
        exact Bool.noConfusion up
    have := fieldInstance_lt named
    have := allFields_count hg
    exact State.getN_setN_of_index t g (by rwa [Nat.mod_eq_of_lt (by omega), Nat.mod_eq_of_lt (by omega)]) x
  · exact State.getN_setN_of_id t (mt (allFields_eq_of_id hg hf) same) j x i

theorem State.writeFields_getN_barred {s : State} {w : RegWriter} {f : Field} {i : Nat} (hf : f ∈ allFields) (fits : i < f.count)
    (barred : s.barred w f i) (off len v : Nat) : (s.writeFields w off len v).getN f i = s.getN f i := by
  have kept := List.foldlRecOn allFields (State.writeField s w off len v)
    (motive := fun t => State.pwr t = s.pwr ∧ t.getN f i = s.getN f i) ⟨rfl, rfl⟩
    fun t ⟨pwr, reg⟩ g hg => ⟨(State.writeField_pwr ..).trans pwr,
      (s.writeField_getN_barred w off len v hf hg fits (State.barred_congr pwr barred)).trans reg⟩
  exact kept.2

/-- Other fields under a write leave a field and the groups as they are. -/
theorem State.writeOthers_keep (before : State) (w : RegWriter) (off len v : Nat) {f : Field} (i : Nat) (t : State) {l : List Field}
    (others : ∀ g ∈ l, g.id ≠ f.id) : let u := l.foldl (State.writeField before w off len v) t
    u.pwr = t.pwr ∧ u.getN f i = t.getN f i :=
  List.foldlRecOn l _ (motive := fun u => State.pwr u = t.pwr ∧ u.getN f i = t.getN f i) ⟨rfl, rfl⟩
    fun u ⟨pwr, reg⟩ _ hg => ⟨(State.writeField_pwr ..).trans pwr,
      (State.writeField_getN_apart _ _ _ _ _ u (others _ hg) i).trans reg⟩

theorem State.writeField_rw {before t : State} {w : RegWriter} {off len v : Nat} {f : Field} {i : Nat}
    (named : fieldInstance f off = some i) (code : f.access = .rw) (own : f.outside ownCommand)
    (may : f.priv = false ∨ w = .firmware) (up : t.groupUp (f.group i) = true) (writable : before.writable f i off v = true)
    (covers : (fieldWrite f i off len v).1 ≠ 0) : before.writeField w off len v t f =
      t.setN f i (t.getN f i - (t.getN f i &&& (fieldWrite f i off len v).1) + (fieldWrite f i off len v).2) := by
  have other : ownCommand.any (fun g => g.id == f.id) = false := List.any_eq_false.2 fun g hg => by simpa using own g hg
  have priv : (f.priv && w == .host) = false := by
    rcases may with h | rfl
    · rw [h, Bool.false_and]
    · exact Bool.and_false _
  unfold State.writeField
  rw [named]
  simp only [code, other, priv, up, writable, covers]
  rfl

/-- A field that the write covers takes its bits (R15). -/
theorem State.writeFields_getN_rw {s : State} {w : RegWriter} {off len v : Nat} {f : Field} {i : Nat} (hf : f ∈ allFields)
    (named : fieldInstance f off = some i) (code : f.access = .rw) (own : f.outside ownCommand)
    (may : f.priv = false ∨ w = .firmware) (up : s.groupUp (f.group i) = true) (writable : s.writable f i off v = true)
    (covers : (fieldWrite f i off len v).1 ≠ 0) : (s.writeFields w off len v).getN f i =
      (s.getN f i - (s.getN f i &&& (fieldWrite f i off len v).1) + (fieldWrite f i off len v).2) % 2 ^ f.width := by
  obtain ⟨before, after, split⟩ := List.append_of_mem hf
  have nodup := allFields_nodup
  rw [split, List.map_append, List.map_cons, List.nodup_append] at nodup
  obtain ⟨-, tail, apart⟩ := nodup
  obtain ⟨pwr, reg⟩ := s.writeOthers_keep w off len v i s fun g hg => apart _ (List.mem_map_of_mem hg) _ (List.mem_cons_self ..)
  have later : ∀ g ∈ after, g.id ≠ f.id := fun g hg same => (List.nodup_cons.1 tail).1 (same ▸ List.mem_map_of_mem hg)
  rw [State.writeFields, split, List.foldl_append, List.foldl_cons, (s.writeOthers_keep w off len v i _ later).2,
    State.writeField_rw named code own may ((State.groupUp_congr pwr _).trans up) writable covers, State.getN_setN_self, reg]

theorem registerWrite_leaves (w : RegWriter) (o : BitVec 24) (z : AccessSize) (v : Dword) (s : State) :
    Answers (.registerWrite w o z v) s fun t => Frame s t [.link] allFields ∧
      ∀ f ∈ allFields, f.outside settleFields → ∀ i : Nat, i < f.count → s.barred w f i → t.getN f i = s.getN f i := by
  obtain ⟨u, run, rewrites⟩ := exec_registerWrite_cases w o z v s
  refine Answers.of_run run ⟨Frame.done s ?_, fun f hf shown i fits barred => rewrites.keeps shown
    (State.writeFields_getN_barred hf fits barred)⟩
  rcases rewrites with ⟨frame, -⟩ | rfl
  · exact frame.mono (fun _ h => h) (by simp)
  · exact Frame.writeFields ..

theorem exec_registerWrite_fields {w : RegWriter} {o : BitVec 24} {z : AccessSize} {v : Dword} {s : State}
    (reached : s.reachedBy w = true) (aligned : o.toNat % accessBytes z = 0)
    (elsewhere : ¬ (0xE00000 ≤ o.toNat ∧ o.toNat < 0xE01000)) :
    exec (.registerWrite w o z v) s =
      done s (s.writeFields w o.toNat (accessBytes z) (v.toNat % 2 ^ (8 * accessBytes z))) :=
  (exec_registerWrite w o z v s).trans ((if_neg (by simp [reached, aligned])).trans (if_neg elsewhere))

/-- Settles O53: an invalidation opens and is answered, TLU_INVAL drops what it names, the enables are set, and a register write
leaves the fields that are barred and writes those that it covers. -/
theorem translationsAreInvalidated : Obligations.TranslationsAreInvalidated := by
  refine ⟨fun ctx first log tag s up room => atsInvalidationRequest_drops up room,
    fun tag i s found => ⟨atsInvalidationComplete_waits found, atsInvalidationComplete_answers found⟩,
    fun v s up => (tluInval_drops up).mono fun t ⟨drops, eng, frame⟩ =>
      ⟨fun e => (drops e).trans (and_congr_right fun _ => ?_), eng, frame⟩,
    fun ats s up => priEnableToggle_enables up,
    fun w o z v s => ⟨registerWrite_leaves w o z v s,
      fun reached aligned elsewhere f hf shown code own i _ named may up writable covers => ?_⟩⟩
  · simp [namedByInval]
  · refine Answers.of_run (exec_registerWrite_fields ?_ ?_ elsewhere) ((State.settle_getN _ _ shown i).trans ?_)
    · cases w <;> exact reached
    · cases z <;> exact aligned
    · cases z <;> exact State.writeFields_getN_rw hf named code own may up writable covers

end Sys2Proof.Machine

namespace Sys2Proof.Machine

/-! ### A tiller's read (R290, R291) -/

@[simp] theorem State.tiller_setTiller (s : State) (n : Nat) (x : Tiller) : (s.setTiller n x).tiller n = x :=
  Store.getD_put_self s.eng.tillers n Tiller.blank x

theorem State.tiller_setTiller_of_ne (s : State) {n m : Nat} (h : m ≠ n) (x : Tiller) : (s.setTiller m x).tiller n = s.tiller n :=
  Store.getD_put_ne s.eng.tillers h Tiller.blank Tiller.blank x

@[simp] theorem State.setTiller_tasks (s : State) (n : Nat) (x : Tiller) : (s.setTiller n x).eng.tasks = s.eng.tasks := rfl

/-- What a read keeps while its requests go out. -/
def HostRead.core (r : HostRead) : List Byte × Nat × Nat := (r.got, r.addr, r.len)

theorem State.asks_eng (s : State) (ctx : Nat) (ps : List (Nat × Nat)) : (s.asks ctx ps).eng = s.eng :=
  State.foldl_keeps State.eng (fun t (q : Nat × Nat) => t.emit (.hostRead (t.via ctx) q.1 q.2)) ps (fun _ _ => rfl) s

/-- Requests that go out change no task, and of a tiller's read at most what is still to be sent and to come. -/
theorem State.sendReads_keeps (s : State) (m n : Nat) :
    (s.sendReads m).eng.tasks = s.eng.tasks ∧
      ((s.sendReads m).tiller n).read.map HostRead.core = (s.tiller n).read.map HostRead.core := by
  unfold State.sendReads
  split
  · exact ⟨rfl, rfl⟩
  next r reads =>
    have eng := s.asks_eng r.ctx (r.unsent.take (s.readTags - s.tagsTaken))
    refine ⟨show (s.asks r.ctx _).eng.tasks = s.eng.tasks from congrArg Engine.tasks eng, ?_⟩
    by_cases same : m = n
    · subst same
      rw [State.tiller_setTiller, reads]
      rfl
    · rw [State.tiller_setTiller_of_ne _ same]
      exact congrArg (fun e : Engine => (e.tillers.getD n Tiller.blank).read.map HostRead.core) eng

theorem State.sendWaiting_keeps (s : State) (n : Nat) :
    s.sendWaiting.eng.tasks = s.eng.tasks ∧ (s.sendWaiting.tiller n).read.map HostRead.core = (s.tiller n).read.map HostRead.core :=
  ⟨State.foldl_keeps (fun t => t.eng.tasks) (fun t (x : Nat × Tiller) => t.sendReads x.1) _
      (fun t x => (t.sendReads_keeps x.1 n).1) s,
    State.foldl_keeps (fun t => (t.tiller n).read.map HostRead.core) (fun t (x : Nat × Tiller) => t.sendReads x.1) _
      (fun t x => (t.sendReads_keeps x.1 n).2) s⟩

theorem State.task?_congr {s t : State} (h : t.eng.tasks = s.eng.tasks) (id : Nat) : t.task? id = s.task? id := by
  rw [State.task?, h, State.task?]

/-- A task that is there reads back as it was written. -/
theorem State.task?_setTask {s : State} {id : Nat} {k t : Task} (here : s.task? id = some k) (same : t.id = k.id) :
    (s.setTask t).task? k.id = some t := by
  have number : k.id = id := by simpa using List.find?_some here
  have test : (fun u : Task => u.id == k.id) ∘ (fun u : Task => if u.id = t.id then t else u) = fun u => u.id == id := by
    funext u
    simp only [Function.comp, same, number]
    split
    next h => simp [h, same, number]
    · rfl
  show (s.eng.tasks.map fun u => if u.id = t.id then t else u).find? (fun u => u.id == k.id) = some t
  rw [List.find?_map, test, show s.eng.tasks.find? (fun u => u.id == id) = some k from here, Option.map_some, if_pos same.symm]

section Data

variable {s : State} {n : Nat} {x : HostRead} {b : List Byte}

theorem State.readData_gathers (more : ((x.got ++ b).take x.len).length < x.len) :
    ((s.readData n x b).tiller n).read.map HostRead.core = some ((x.got ++ b).take x.len, x.addr, x.len) := by
  rw [State.readData, if_pos more, (State.sendWaiting_keeps _ n).2, State.tiller_setTiller]
  rfl

/-- A read that is over leaves its tiller without one, whatever waits goes out after it. -/
theorem State.endHostRead_read : (((s.endHostRead n).sendWaiting).tiller n).read = none := by
  have core := (State.sendWaiting_keeps (s.endHostRead n) n).2
  rw [State.endHostRead, State.tiller_setTiller] at core
  exact Option.map_eq_none_iff.1 core

theorem State.readData_ends (all : x.len ≤ ((x.got ++ b).take x.len).length) :
    ((s.readData n x b).tiller n).read = none := by
  rw [State.readData, if_neg (not_lt.2 all)]
  dsimp only
  split <;> exact State.endHostRead_read

theorem State.readData_hands (all : x.len ≤ ((x.got ++ b).take x.len).length) {k : Task} (waits : x.task.bind s.task? = some k) :
    (s.readData n x b).task? k.id = some { k with data := k.data ++ [⟨x.ctx, x.addr, (x.got ++ b).take x.len⟩] } := by
  have tasks : ((s.endHostRead n).sendWaiting).task? = s.task? :=
    funext (State.task?_congr (State.sendWaiting_keeps (s.endHostRead n) n).1)
  obtain ⟨id, -, here⟩ := Option.bind_eq_some_iff.1 waits
  rw [State.readData, if_neg (not_lt.2 all)]
  dsimp only
  rw [tasks, waits]
  exact State.task?_setTask ((congrFun tasks id).trans here) rfl

end Data

theorem State.hold_of_linkUp {s : State} (up : s.groupUp .ln = true) : s.pwr.hold = true := State.hold_of_mainUp up

section Tiller

theorem State.requestFails_tiller {n : BitVec 7} {s : State} {x : HostRead} (reads : (s.tiller n.toNat).read = some x)
    (k : LinkErrorKind) (source code detail : Nat) :
    s.requestFails (.tiller n) k source code detail = ((s.reportAer k source).readFails n.toNat x code detail).schedule := by
  simp only [State.requestFails, reads]

variable {n : BitVec 7} {s : State} {x : HostRead} (ok : tillerOk n = true) (up : s.groupUp .ln = true)
  (reads : (s.tiller n.toNat).read = some x)
include ok up reads

theorem hostReadCompletion_data (b : List Byte) :
    Runs (.hostReadCompletion (.tiller n) (.data b)) s (s.readData n.toNat x b).schedule := by
  refine (if_neg (by simp [DmaRequester.ok, ok])).trans ((if_neg (by simp [up])).trans ?_)
  simp only [reads]
  rfl

/-- A tiller's read fails in the same way whatever makes it fail. -/
theorem tiller_readFails {c : Instr} {k : LinkErrorKind} {source code detail : Nat}
    (run : exec c s = if !tillerOk n then .fault .illFormed else if !s.groupUp .ln then done s s
      else done s (s.requestFails (.tiller n) k source code detail)) :
    Runs c s ((s.reportAer k source).readFails n.toNat x code detail).schedule :=
  run.trans ((if_neg (by simp [ok])).trans ((if_neg (by simp [up])).trans
    (congrArg (done s) (State.requestFails_tiller reads _ _ _ _))))

end Tiller

/-! ### A mailbox's read that fails (R81, R291, R295) -/

section Mailbox

variable {m : Mailbox} {s : State} {a : Accepted}

/-- The fault of a mailbox's failed read is reported and captured, and its reservation is given back. -/
def State.readFaulted (s : State) (a : Accepted) (k : LinkErrorKind) (source code : Nat) : State :=
  ((s.reportAer k source).captureFault code (s.mailboxCtx a.mb) (cmdAddr a.cmd) false).dropWaiter a.waiter

/-- Then the stop itself is raised (R295). -/
def State.readStopped (s : State) (a : Accepted) (k : LinkErrorKind) (source code detail : Nat) : State :=
  (s.readFaulted a k source code).raise 49 (Mailbox.instance8 a.mb) (code + detail * 2 ^ 16 + Mailbox.instance8 a.mb * 2 ^ 24)

theorem State.requestFails_mailbox (reads : s.readingCmd m = some a) (alone : ∀ x ∈ s.eng.appends, x.id ≠ a.id)
    (k : LinkErrorKind) (source code detail : Nat) : s.requestFails (.mailbox m) k source code detail =
      (s.readStopped a k source code detail).complete a CC.dmaError 49 := by
  have eng : ((s.reportAer k source).captureFault code (s.mailboxCtx a.mb) (cmdAddr a.cmd) false).eng = s.eng := by
    simp [State.reportAer, State.captureFault, State.emit]
  have nothing : s.eng.appends.find? (fun (x : Append) => x.id == a.id) = none :=
    List.find?_eq_none.2 fun x hx => by simpa using alone x hx
  simp only [State.requestFails, reads, State.stopCmd, eng, nothing]
  rfl

theorem KeepsMail.readFaulted (s : State) (a : Accepted) (k : LinkErrorKind) (source code : Nat) :
    KeepsMail s (s.readFaulted a k source code) :=
  ((KeepsMail.emit s _).trans (KeepsMail.raise _ source 0 0)).trans
    ((KeepsMail.captureFault _ _ _ _ _).trans (KeepsMail.dropWaiter _ _))

theorem KeepsMail.readStopped (s : State) (a : Accepted) (k : LinkErrorKind) (source code detail : Nat) :
    KeepsMail s (s.readStopped a k source code detail) := (KeepsMail.readFaulted s a k source code).trans (KeepsMail.raise _ 49 _ _)

/-- The fields that a mailbox's failed read may write. -/
def readFailFields : List Field :=
  [F.TLU_FAULT_ADDR_KIND, F.TLU_FAULT_ADDR_GRANARY, F.TLU_FAULT_ADDR_CTX, F.TLU_FAULT_ADDR_ADDR] ++ raiseFields ++ completeFields

theorem Frame.readStopped (s : State) (a : Accepted) (k : LinkErrorKind) (source code detail : Nat) :
    Frame s (s.readStopped a k source code detail) (.mbx :: raiseParts) readFailFields := by
  have raises : ∀ (t : State) (n i w : Nat), Frame t (t.raise n i w) (.mbx :: raiseParts) readFailFields := fun t n i w =>
    Frame.raise t n i w (fun _ h => List.mem_cons_of_mem _ h)
      fun _ h => List.mem_append_left _ (List.mem_append_right _ h)
  have captured : ∀ (t : State) (c x : Nat), Frame t (t.captureFault code c x false) (.mbx :: raiseParts) readFailFields :=
    fun t c x => Frame.setAll _ (by simp [readFailFields]) t
  exact ((((Frame.emit s _ _ _).trans (raises _ source 0 0)).trans (captured _ _ _)).trans
    (Frame.dropWaiter _ _ (by simp [raiseParts]) _)).trans (raises _ 49 _ _)

theorem State.dropWaiter_regs (s : State) (w : Waiter) : (s.dropWaiter w).regs = s.regs := by
  unfold State.dropWaiter
  split <;> rfl

theorem State.readFaulted_getN (s : State) (a : Accepted) (k : LinkErrorKind) (source code : Nat) (g : Field) (n : Nat) :
    (s.readFaulted a k source code).getN g n =
      ((s.reportAer k source).captureFault code (s.mailboxCtx a.mb) (cmdAddr a.cmd) false).getN g n :=
  State.getN_same (State.dropWaiter_regs _ _) g n

/-- A mailbox's read that fails ends its command, and both faults stay recorded. -/
theorem readFails_ends {c : Instr} {k : LinkErrorKind} {source code detail : Nat} {info : SourceInfo} (up : s.groupUp .ln = true)
    (reads : s.readingCmd m = some a) (alone : ∀ x ∈ s.eng.appends, x.id ≠ a.id)
    (run : exec c s = if !s.groupUp .ln then done s s else done s (s.requestFails (.mailbox m) k source code detail))
    (listed : sourceInfo source = some info) (fits : source < 256) : Answers c s fun t =>
      Completed s a CC.dmaError 49 t ∧ t.sticky source = true ∧ t.sticky 49 = true ∧ Output.aer k ∈ t.out ∧
      t.get F.TLU_FAULT_ADDR_KIND = dmaKind code ∧ Frame s t (.mbx :: raiseParts) readFailFields := by
  have hold := State.hold_of_linkUp up
  have stops : exec c s = done s ((s.readStopped a k source code detail).complete a CC.dmaError 49) :=
    run.trans ((if_neg (by simp [up])).trans (congrArg (done s) (State.requestFails_mailbox reads alone _ _ _ _)))
  have kept := KeepsMail.readFaulted s a k source code
  have reported : (s.readFaulted a k source code).sticky source = true := by
    rw [State.sticky_of_getN (State.readFaulted_getN ..)]
    unfold State.captureFault State.setAll
    simp (disch := decide) only [List.foldl, State.sticky_set]
    exact State.sticky_raise (s.emit (.aer k)) hold listed 0 0
  have stays : ∀ n, n < 256 → (s.readStopped a k source code detail).sticky n = true →
      (State.settle s ((s.readStopped a k source code detail).complete a CC.dmaError 49)).sticky n = true := fun n hn h => by
    rw [State.sticky_settle]
    exact State.sticky_complete_mono hn h a _ _
  refine Answers.of_run stops ⟨(KeepsMail.readStopped s a k source code detail).rings.completed s a _ _,
    stays source fits (State.sticky_raise_mono fits (by decide) reported _ _),
    stays 49 (by decide) (State.sticky_raise _ (kept.hold.trans hold) rfl _ _), ?_, ?_, Frame.done s ?_⟩
  · refine State.settle_out_mono s _ (State.complete_out_mono _ a _ _ ?_)
    exact ((KeepsMail.raise (s.emit (.aer k)) source 0 0).trans ((KeepsMail.captureFault _ _ _ _ _).trans
      ((KeepsMail.dropWaiter _ _).trans (KeepsMail.raise _ 49 _ _)))).sent _ (List.mem_cons_self ..)
  · refine (State.settle_getN s _ (by unfold Field.outside; decide) 0).trans ((State.complete_getN _ a _ _
      (by unfold Field.outside; decide) (by unfold Field.outside; decide) 0).trans ((State.raise_getN _ 49 _ _
      (by unfold Field.outside; decide) 0).trans ((State.readFaulted_getN ..).trans ?_)))
    exact State.captureFault_kind _ code _ _ _
  · refine (Frame.readStopped s a k source code detail).trans (Frame.completeRaised _ a _ _ (fun _ h => h) fun f h => ?_)
    rcases List.mem_append.1 h with h | h
    · exact List.mem_append_right _ h
    · exact List.mem_append_left _ (List.mem_append_right _ h)

end Mailbox

/-! ### Translations and page responses (R285 to R288) -/

section Translation

variable {s : State} {id : Nat} {r : TransReq}

/-- A translation request is over: it leaves, and the next one that waits goes out. -/
def State.endTrans (s : State) (id : Nat) : State :=
  (s.mapTlu (fun t => { t with reqs := t.reqs.filter (fun x => x.id != id) })).sendNextTrans

/-- A translation is asked for again: no invalidation has overtaken it since (R288). -/
def State.askAgain (s : State) (id : Nat) (r : TransReq) : State :=
  (s.mapTlu (fun t => { t with reqs := t.reqs.map (fun x => if x.id = id then { x with stale := [] } else x) })).emit
    (.transReq r.id (s.viaAsk r.ctx) r.page r.write)

/-- What the answer to a translation does once its request is over (R285 to R287). -/
def State.translated (s : State) (id : Nat) (r : TransReq) : TransAnswer → State
  | .granted frame log read write _ =>
    if (if r.write then write else read) = true then
      ((s.fillHost r frame.toNat log.toNat read write).resumeWait (.trans id)).schedule
    else (s.denied r).schedule
  | .denied => (s.denied r).schedule
  | .aborted => (s.stopWait (.trans id) r.ctx r.page 1).schedule

theorem exec_translationCompletion_none {answer : TransAnswer} (absent : ∀ r ∈ s.eng.tlu.reqs.take 64, r.id ≠ id) :
    exec (.translationCompletion id answer) s = done s s := by
  have nothing : (s.eng.tlu.reqs.take 64).find? (fun r => r.id == id) = none :=
    List.find?_eq_none.2 fun r hr => by simpa using absent r hr
  show execTranslationCompletion id answer s = _
  rw [execTranslationCompletion, nothing]

variable (found : (s.eng.tlu.reqs.take 64).find? (fun r => r.id == id) = some r)
include found

theorem exec_translationCompletion (answer : TransAnswer) : exec (.translationCompletion id answer) s =
    if r.overtaken answer then done s (s.askAgain id r) else done s ((s.endTrans id).translated id r answer) := by
  show execTranslationCompletion id answer s = _
  rw [execTranslationCompletion, found]
  cases answer with
  | granted frame log read write g =>
    rw [State.translated, apply_ite (done s)]
    rfl
  | denied | aborted => rfl

theorem translationCompletion_asksAgain {answer : TransAnswer} (late : r.overtaken answer = true) :
    Answers (.translationCompletion id answer) s fun t =>
      Output.transReq r.id (s.viaAsk r.ctx) r.page r.write ∈ t.out ∧ t.eng = (s.mapTlu (fun q => { q with
        reqs := q.reqs.map (fun x => if x.id = id then { x with stale := [] } else x) })).eng ∧ Frame s t [.eng] [] :=
  Answers.of_run ((exec_translationCompletion found answer).trans (if_pos late))
    ⟨State.settle_out_mono s _ (List.mem_cons_self ..), State.settle_eng ..,
      ((Frame.mapTlu s _ (by simp) _).trans (Frame.emit _ _ _ _)).done s⟩

theorem translationCompletion_answered {answer : TransAnswer} (inTime : r.overtaken answer = false) :
    Runs (.translationCompletion id answer) s ((s.endTrans id).translated id r answer) :=
  (exec_translationCompletion found answer).trans (if_neg (by simp [inTime]))

theorem translationCompletion_grants {frame : BitVec 52} {log : BitVec 6} {read write g : Bool}
    (inTime : r.overtaken (.granted frame log read write g) = false) (enough : (if r.write then write else read) = true) :
    Runs (.translationCompletion id (.granted frame log read write g)) s
      ((((s.endTrans id).fillHost r frame.toNat log.toNat read write).resumeWait (.trans id)).schedule) :=
  Runs.of_eq (translationCompletion_answered found inTime) (if_pos enough)

theorem translationCompletion_grantsLittle {frame : BitVec 52} {log : BitVec 6} {read write g : Bool}
    (inTime : r.overtaken (.granted frame log read write g) = false) (little : (if r.write then write else read) = false) :
    Runs (.translationCompletion id (.granted frame log read write g)) s ((s.endTrans id).denied r).schedule :=
  Runs.of_eq (translationCompletion_answered found inTime) (if_neg (by simp [little]))

end Translation

section Denied

variable {u : State} {r : TransReq}

theorem State.denied_second (second : r.second = true) : u.denied r = u.stopWait (.trans r.id) r.ctx r.page 6 := if_pos second

variable (first : r.second = false)
include first

theorem State.denied_stops (off : u.priOn r.ctx = false) : u.denied r = u.stopWait (.trans r.id) r.ctx r.page 2 :=
  (if_neg (by simp [first])).trans (if_neg (by simp [off]))

theorem State.denied_asks (on : u.priOn r.ctx = true) : u.denied r = u.pageRequest r :=
  (if_neg (by simp [first])).trans (if_pos on)

end Denied

section Response

variable {ctx : BitVec 8} {page : BitVec 52} {s : State}

theorem exec_prgResponse_none {code : BitVec 4}
    (absent : s.eng.tlu.groups.find? (fun g => g.ctx == ctx.toNat && g.page == page.toNat && g.sentAt.isSome) = none) :
    exec (.prgResponse ctx page code) s = done s s := by
  show execPrgResponse ctx page code s = _
  rw [execPrgResponse, absent]

variable {g : PageGroup}

section Sent

variable (sent : s.eng.tlu.groups.find? (fun g => g.ctx == ctx.toNat && g.page == page.toNat && g.sentAt.isSome) = some g)
include sent

theorem prgResponse_success (awaited : (s.dropGroup ctx.toNat page.toNat).awaited (.group ctx.toNat page.toNat) = true) :
    let r := (s.dropGroup ctx.toNat page.toNat).requestTrans ctx.toNat page.toNat g.write true
    Runs (.prgResponse ctx page 0) s ((r.1.moveWait (.group ctx.toNat page.toNat) (.trans r.2)).nextGroup) := by
  show execPrgResponse ctx page 0 s = _
  rw [execPrgResponse, sent]
  exact if_neg (by simp [awaited])

theorem prgResponse_invalid : Runs (.prgResponse ctx page 1) s (((s.dropGroup ctx.toNat page.toNat).stopWait
    (.group ctx.toNat page.toNat) ctx.toNat page.toNat 3).nextGroup).schedule := by
  show execPrgResponse ctx page 1 s = _
  rw [execPrgResponse, sent]
  rfl

/-- Any other code is a response failure where something waits for the page, and else ends the group alone. -/
theorem exec_prgResponse_other {code : BitVec 4} (other : 1 < code.toNat) : exec (.prgResponse ctx page code) s =
    if s.awaited (.group ctx.toNat page.toNat) then done s s.prgFailure.schedule
    else done s (s.dropGroup ctx.toNat page.toNat).nextGroup := by
  show execPrgResponse ctx page code s = _
  rw [execPrgResponse, sent]
  obtain ⟨k, hk⟩ := Nat.exists_eq_add_of_lt other
  rw [show code.toNat = k + 2 by omega]
  rfl

theorem prgResponse_failure {code : BitVec 4} (other : 1 < code.toNat) (awaited : s.awaited (.group ctx.toNat page.toNat) = true) :
    Runs (.prgResponse ctx page code) s s.prgFailure.schedule := (exec_prgResponse_other sent other).trans (if_pos awaited)

theorem prgResponse_unawaited {code : BitVec 4} (valid : code ≠ 1)
    (left : (s.dropGroup ctx.toNat page.toNat).awaited (.group ctx.toNat page.toNat) = false)
    (unawaited : s.awaited (.group ctx.toNat page.toNat) = false) :
    Runs (.prgResponse ctx page code) s (s.dropGroup ctx.toNat page.toNat).nextGroup := by
  by_cases success : code = 0
  · subst success
    show execPrgResponse ctx page 0 s = _
    rw [execPrgResponse, sent]
    exact if_pos (by simp [left])
  · exact (exec_prgResponse_other sent (by bv_omega)).trans (if_neg (by simp [unawaited]))

end Sent

section Timeout

variable {asked_at : Nat} (asked : s.eng.tlu.groups.find? (fun g => g.ctx == ctx.toNat && g.page == page.toNat) = some g)
  (sent : g.sentAt = some asked_at)
include asked sent

theorem exec_pageResponseTimeout : exec (.pageResponseTimeout ctx page) s =
    if s.get F.TLU_CTL_PRI_TO_MS = 0 || decide (s.now < asked_at + s.get F.TLU_CTL_PRI_TO_MS * 1000000) then done s s
    else done s (((s.dropGroup ctx.toNat page.toNat).stopWait (.group ctx.toNat page.toNat) ctx.toNat
      page.toNat 5).nextGroup).schedule := by
  obtain ⟨c, p, w, q⟩ := g
  obtain rfl : q = some asked_at := sent
  show execPageResponseTimeout ctx page s = _
  rw [execPageResponseTimeout]
  simp only [asked]

theorem pageResponseTimeout_inTime
    (inTime : s.get F.TLU_CTL_PRI_TO_MS = 0 ∨ s.now < asked_at + s.get F.TLU_CTL_PRI_TO_MS * 1000000) :
    Answers (.pageResponseTimeout ctx page) s fun t => Frame s t [] [] :=
  Answers.of_idle ((exec_pageResponseTimeout asked sent).trans (if_pos (by simpa using inTime)))

theorem pageResponseTimeout_late (limited : s.get F.TLU_CTL_PRI_TO_MS ≠ 0)
    (late : asked_at + s.get F.TLU_CTL_PRI_TO_MS * 1000000 ≤ s.now) : Runs (.pageResponseTimeout ctx page) s
      ((((s.dropGroup ctx.toNat page.toNat).stopWait (.group ctx.toNat page.toNat) ctx.toNat page.toNat 5).nextGroup).schedule) :=
  (exec_pageResponseTimeout asked sent).trans (if_neg (by simp [limited, late]))

end Timeout

end Response

/-- Settles O52: a tiller's read by what has come of it, a mailbox's failed read by the stop that it ends in, and translations
and page responses by the cases of their rules. -/
theorem hostAnswersReachTheirRequesters : Obligations.HostAnswersReachTheirRequesters := by
  refine ⟨fun n b x s ok up reads => ⟨hostReadCompletion_data ok up reads b, State.readData_gathers,
      fun all => ⟨State.readData_ends all, fun k waits => State.readData_hands all waits⟩⟩,
    fun n x s ok up reads => ⟨tiller_readFails ok up reads rfl, fun _ => tiller_readFails ok up reads rfl,
      tiller_readFails ok up reads rfl⟩,
    fun m s a up reads alone => ?_,
    fun id answer s absent => Answers.of_idle (exec_translationCompletion_none absent),
    fun id r s found => ⟨fun answer late => translationCompletion_asksAgain found late,
      fun frame log read write g inTime => ⟨translationCompletion_grants found inTime,
        translationCompletion_grantsLittle found inTime⟩,
      translationCompletion_answered found, translationCompletion_answered found, State.denied_second, State.denied_stops,
      State.denied_asks⟩,
    fun ctx page g s sent => ⟨prgResponse_success sent, prgResponse_invalid sent, fun code other => prgResponse_failure sent other,
      fun code valid => prgResponse_unawaited sent valid⟩,
    fun ctx page code s absent => Answers.of_idle (exec_prgResponse_none absent),
    fun ctx page g asked_at s asked sent => ⟨pageResponseTimeout_inTime asked sent, pageResponseTimeout_late asked sent⟩⟩
  exact ⟨readFails_ends up reads alone rfl rfl (by decide), fun _ => readFails_ends up reads alone rfl rfl (by decide),
    readFails_ends up reads alone rfl rfl (by decide)⟩

end Sys2Proof.Machine

/-! SUPPORT. Where the service of a bank does not end as stated: the neighbour refresh that its activate causes may saturate a
counter whose source asks for a dump, which closes ingress (R85, R321, R439). -/

namespace Sys2Proof.Machine

/-- A CXL.mem read that misses the rows of bank 0 of rank 0 of channel 0. -/
def missingRead : DramReq := ⟨⟨0, false, 0, 0, 0⟩, 3, 5, 192, .host, .cxlRead 77, 1, false, 0⟩

/-- A chip reset is not over though ingress is open; the activate that `missingRead` needs is the last before its row's neighbours are
refreshed, and their refresh saturates NR_CNT, whose source 0 asks for a dump. -/
def hammered : State :=
  let s := (dumpingOn 0).setN F.DMC_NR_CNT_COUNT 0 (2 ^ 48 - 1)
  { s with
    pwr := { s.pwr with chipReset := true }
    dram := { s.dram with queue := [missingRead], tables := [(missingRead.bank, [(3, 2047)])] } }

theorem hammered_picks : hammered.channelUp 0 = true ∧ hammered.refreshOverdue 0 0 = false ∧ hammered.linkClosed = false ∧
    pickRequest (hammered.dram.queue.filter (fun r => r.bank == missingRead.bank)) (hammered.openRow missingRead.bank) =
      some missingRead ∧ hammered.hub.armed = [] := by decide +kernel

/-- The activate's neighbour refresh closes ingress before the line leaves: with the chip reset not over, none does (R85). -/
theorem hammered_silent : (State.settle hammered (hammered.serveBank missingRead.bank .clean)).out = [] := by decide +kernel

theorem exec_dramRequest {b : BankId} {s : State} (up : s.channelUp b.ch.val = true)
    (waits : s.refreshOverdue b.ch.val b.rank.toNat = false) (ecc : EccOutcome) :
    exec (.dramRequest b ecc) s = done s (s.serveBank b ecc) := if_pos (by simp [up, waits])

/-- Refutes O48: a CXL.mem read of a sound line whose activate is the last before a neighbour refresh saturates NR_CNT, whose source
0 asks for a dump; ingress closes while a chip reset is not over, and the read is not answered. -/
theorem not_dramBanksAreServedAndRefreshed : ¬ Obligations.DramBanksAreServedAndRefreshed := by
  intro h
  obtain ⟨up, waits, open_, picks, unarmed⟩ := hammered_picks
  obtain ⟨t, run, -, answered, -⟩ := h.1 missingRead.bank .clean hammered missingRead up waits picks
  rw [exec_dramRequest (b := missingRead.bank) up waits] at run
  obtain rfl := Host.Outcome.next.inj run
  have line := answered 77 open_ rfl rfl (by simp [unarmed]) (by simp [unarmed])
  rw [hammered_silent] at line
  exact List.not_mem_nil line

end Sys2Proof.Machine

/-! SUPPORT. Training and retirement of ranks: the rank bytes, what waking, retraining, migrating and marking a rank leave, and how a
channel fails. -/

namespace Sys2Proof.Machine

/-! ### What a frame leaves -/

theorem Frame.reg {s t : State} {ps : List Part} {fs : List Field} (h : Frame s t ps fs) {g : Field}
    (apart : g.outside (settleFields ++ fs)) (n : Nat) : t.getN g n = s.getN g n := h.2.2.2 g apart n

theorem Frame.part {s t : State} {ps : List Part} {fs : List Field} (h : Frame s t ps fs) (p : Part) (apart : p ∉ ps) :
    p.same s t := h.2.2.1 p apart

theorem Frame.withDram (s : State) (d : Dram) {ps : List Part} (h : .dram ∈ ps) (fs : List Field) :
    Frame s { s with dram := d } ps fs := by
  refine ⟨rfl, rfl, fun p hp => ?_, fun _ _ _ => rfl⟩
  cases p with
  | dram => exact absurd h hp
  | _ => rfl

theorem Frame.toLink (s : State) (o : Output) (ps : List Part) (fs : List Field) : Frame s (s.toLink o) ps fs := by
  unfold State.toLink
  split
  · exact Frame.refl s ps fs
  · exact Frame.emit s o ps fs

theorem Frame.spoil (s : State) (id dpa : Nat) {ps : List Part} (h : .eng ∈ ps) (fs : List Field) :
    Frame s (s.spoil id dpa) ps fs := Frame.mapEng s (fun e => { e with tasks := e.tasks.map (fun t =>
      if t.id = id then { t with spoilt := some (if grnBase ≤ dpa then 3 else 2) } else t) }) h fs

/-- A command may settle against another state than the one it ran in. -/
theorem Answers.of_done {c : Instr} {s old u : State} {P : State → Prop} (run : exec c s = done old u) (h : P (State.settle old u)) :
    Answers c s P := ⟨_, run, h⟩

theorem State.bumpN_hold (s : State) (c : Counter) (n : Nat) : (s.bumpN c n).pwr.hold = s.pwr.hold := by
  unfold State.bumpN State.raiseSaturated
  dsimp only
  split_ifs <;> simp [State.raiseCore_hold]

theorem State.hold_of_channelUp {s : State} {ch : Nat} (up : s.channelUp ch = true) : s.pwr.hold = true := by
  unfold State.channelUp at up
  split at up
  · exact up
  · exact State.hold_of_mainUp up

/-! ### The rank bytes (R306) -/

/-- The field of DMC[n].RANKCFG that holds a physical rank's byte. -/
def rankField : Nat → Field
  | 0 => F.DMC_RANKCFG_RANK0
  | 1 => F.DMC_RANKCFG_RANK1
  | 2 => F.DMC_RANKCFG_RANK2
  | _ => F.DMC_RANKCFG_RANK3

/-- The fields of DMC[n].RANKCFG. -/
def rankFields : List Field := [F.DMC_RANKCFG_RANK0, F.DMC_RANKCFG_RANK1, F.DMC_RANKCFG_RANK2, F.DMC_RANKCFG_RANK3]

theorem rankField_mem (r : Nat) : rankField r ∈ rankFields := by
  unfold rankField
  split <;> simp [rankFields]

theorem rankField_width (r : Nat) : (rankField r).width = 8 := by
  unfold rankField
  split <;> rfl

theorem rankField_id_ne : ∀ p < 4, ∀ r < 4, p ≠ r → (rankField p).id ≠ (rankField r).id := by decide

theorem State.rankByte_eq (s : State) (ch : Nat) : ∀ r, s.rankByte ch r = s.getN (rankField r) ch
  | 0 | 1 | 2 | _ + 3 => rfl

theorem State.setRankByte_eq (s : State) (ch v : Nat) : ∀ r, s.setRankByte ch r v = s.setN (rankField r) ch v
  | 0 | 1 | 2 | _ + 3 => rfl

theorem Frame.setRankByte (s : State) (ch r v : Nat) (ps : List Part) {fs : List Field} (h : ∀ f ∈ rankFields, f ∈ fs) :
    Frame s (s.setRankByte ch r v) ps fs := by
  rw [State.setRankByte_eq]
  exact Frame.setN s _ _ _ (h _ (rankField_mem r))

theorem Frame.rankByte {s t : State} {ps : List Part} {fs : List Field} (h : Frame s t ps fs)
    (apart : ∀ f ∈ rankFields, f.outside (settleFields ++ fs)) (ch r : Nat) : t.rankByte ch r = s.rankByte ch r := by
  rw [State.rankByte_eq, State.rankByte_eq]
  exact h.reg (apart _ (rankField_mem r)) ch

theorem State.rankByte_setRankByte_self (s : State) (ch r : Nat) {v : Nat} (h : v < 256) :
    (s.setRankByte ch r v).rankByte ch r = v := by
  rw [State.rankByte_eq, State.setRankByte_eq, State.getN_setN_self, rankField_width]
  exact Nat.mod_eq_of_lt h

theorem State.rankByte_setRankByte_of_ne (s : State) (ch : Nat) {p r : Nat} (hp : p < 4) (hr : r < 4) (h : p ≠ r) (v : Nat) :
    (s.setRankByte ch p v).rankByte ch r = s.rankByte ch r := by
  rw [State.rankByte_eq, State.setRankByte_eq, State.getN_setN_of_id _ (rankField_id_ne p hp r hr h), State.rankByte_eq]

theorem rankLogical_lt (b : Nat) : rankLogical b < 4 := Nat.mod_lt _ (by decide)

theorem mkRank_lt {st l : Nat} (hs : st < 8) (hl : l < 4) : mkRank st l < 256 := by unfold mkRank; omega

theorem rankState_mkRank {st l : Nat} (hs : st < 8) (hl : l < 4) : rankState (mkRank st l) = st := by
  unfold rankState bitsOf mkRank
  norm_num
  omega

theorem rankLogical_mkRank (st : Nat) {l : Nat} (hl : l < 4) : rankLogical (mkRank st l) = l := by
  unfold rankLogical bitsOf mkRank
  norm_num
  omega

/-- The bytes of two ranks once both are written, first of `p` and then of `r`. -/
theorem State.rankByte_setBoth (s : State) (ch : Nat) {p r : Nat} (hp : p < 4) (hr : r < 4) (h : p ≠ r) {v w : Nat} (hv : v < 256)
    (hw : w < 256) : ((s.setRankByte ch p v).setRankByte ch r w).rankByte ch p = v ∧
      ((s.setRankByte ch p v).setRankByte ch r w).rankByte ch r = w := by
  rw [State.rankByte_setRankByte_of_ne _ _ hr hp h.symm, State.rankByte_setRankByte_self _ _ _ hv]
  exact ⟨rfl, State.rankByte_setRankByte_self _ _ _ hw⟩

/-! ### Retraining (R324 to R327) -/

theorem Frame.wakeRank (s : State) (ch rank : Nat) {ps : List Part} {fs : List Field} (h : .dram ∈ ps)
    (pd : F.DMC_STATUS_PD ∈ fs) (sr : F.DMC_STATUS_SR ∈ fs) : Frame s (s.wakeRank ch rank) ps fs :=
  ((Frame.setN s _ ch _ pd).trans (Frame.setN _ _ ch _ sr)).trans (Frame.withDram _ _ h fs)

theorem State.startRetraining_dram (s : State) (ch rank : Nat) (zq : Bool) : (s.startRetraining ch rank zq).dram =
    { s.dram with retraining := s.dram.retraining.set ch ⟨rank, 0, zq⟩, lastUse := s.dram.lastUse.set (rankKey ch rank) s.now } := rfl

theorem State.startRetraining_cal (s : State) (ch rank : Nat) (zq : Bool) : (s.startRetraining ch rank zq).cal = s.cal := rfl

theorem State.startRetraining_retraining (s : State) (ch rank : Nat) (zq : Bool) :
    (s.startRetraining ch rank zq).dram.retraining.get? ch = some ⟨rank, 0, zq⟩ := by
  rw [State.startRetraining_dram]
  exact Store.get?_set_self ..

theorem State.startRetraining_shows (s : State) (ch rank : Nat) (zq : Bool) :
    (s.startRetraining ch rank zq).getN F.DMC_STATUS_RETRAINING ch = 1 :=
  ((Frame.wakeRank _ ch rank (ps := [.dram]) (fs := [F.DMC_STATUS_PD, F.DMC_STATUS_SR]) (by simp) (by simp) (by simp)).reg
    (by unfold Field.outside; decide) ch).trans (State.getN_setN_self ..)

theorem Frame.startRetraining (s : State) (ch rank : Nat) (zq : Bool) : Frame s (s.startRetraining ch rank zq) [.dram]
    [F.DMC_STATUS_RETRAINING, F.DMC_STATUS_PD, F.DMC_STATUS_SR] :=
  ((Frame.withDram s _ (by simp) _).trans (Frame.setN _ _ ch 1 (by simp))).trans
    (Frame.wakeRank _ ch rank (by simp) (by simp) (by simp))

theorem startRetraining_starts {c : Instr} {s : State} {ch rank : Nat} (run : exec c s = done s (s.startRetraining ch rank false)) :
    Answers c s fun t => t.dram.retraining.get? ch = some ⟨rank, 0, false⟩ ∧ t.getN F.DMC_STATUS_RETRAINING ch = 1 ∧
      t.dram.cells = s.dram.cells ∧ Frame s t [.dram] [F.DMC_STATUS_RETRAINING, F.DMC_STATUS_PD, F.DMC_STATUS_SR] := by
  refine Answers.of_run run ?_
  rw [State.settle_dram, State.settle_getN _ _ (by unfold Field.outside; decide)]
  exact ⟨s.startRetraining_retraining .., s.startRetraining_shows .., rfl, (Frame.startRetraining s ..).done s⟩

theorem exec_retrain {ch : Fin 12} {rank : BitVec 2} {s : State} (may : s.mayRetrain ch.val rank.toNat = true) :
    exec (.retrain ch rank) s = done s (s.startRetraining ch.val rank.toNat false) := if_pos may

theorem exec_dqsOscillatorRead {ch : Fin 12} {rank : BitVec 2} {s : State} (may : s.mayRetrain ch.val rank.toNat = true) :
    exec (.dqsOscillatorRead ch rank true) s = done s (s.startRetraining ch.val rank.toNat false) := if_pos may

theorem exec_dqsOscillatorRead_steady (ch : Fin 12) (rank : BitVec 2) (s : State) :
    exec (.dqsOscillatorRead ch rank false) s = done s s := rfl

theorem State.retrainArg_named (s : State) {arg : Nat} (small : arg < 0x80) (channel : arg % 16 < 12) :
    s.retrainArg arg = some (4 * (arg % 16) + arg / 16 % 4, bitOf arg 6) := by
  unfold State.retrainArg
  rw [if_neg (by omega), if_pos (by simp [small, channel])]

theorem exec_retrainingSlot {s : State} {f : Firing} (running : s.get F.FT_STATUS_STATE = Ft.running)
    (fired : s.cal.firings.find? (fun f => f.target == 5) = some f) (small : f.arg < 0x80) (channel : f.arg % 16 < 12)
    (may : s.mayRetrain (f.arg % 16) (f.arg / 16 % 4) = true) :
    exec .retrainingSlot s = done s ((s.dropFiring f).startRetraining (f.arg % 16) (f.arg / 16 % 4) (bitOf f.arg 6)) := by
  have background : s.backgroundRuns = true := (Bool.and_eq_true_iff.1 may).2
  have slot : s.takeSlot 5 = some (f, s.dropFiring f) := by
    rw [State.takeSlot, running, background, State.takeFiring, fired]
    rfl
  have key : (4 * (f.arg % 16) + f.arg / 16 % 4) / 4 = f.arg % 16 ∧ (4 * (f.arg % 16) + f.arg / 16 % 4) % 4 = f.arg / 16 % 4 := by
    omega
  have started : (s.dropFiring f).mayRetrain (f.arg % 16) (f.arg / 16 % 4) = true := may
  show execRetrainingSlot s = _
  rw [execRetrainingSlot, slot]
  dsimp only
  rw [State.retrainArg_named _ small channel]
  dsimp only
  rw [if_neg (show f.arg ≠ 0xFFFFFFFF by omega), key.1, key.2, if_pos started]

theorem retrainingSlot_starts {s : State} {f : Firing} (running : s.get F.FT_STATUS_STATE = Ft.running)
    (fired : s.cal.firings.find? (fun f => f.target == 5) = some f) (small : f.arg < 0x80) (channel : f.arg % 16 < 12)
    (may : s.mayRetrain (f.arg % 16) (f.arg / 16 % 4) = true) : Answers .retrainingSlot s fun t =>
      t.dram.retraining.get? (f.arg % 16) = some ⟨f.arg / 16 % 4, 0, bitOf f.arg 6⟩ ∧
      t.cal.firings = s.cal.firings.filter (fun g => g != f) := by
  refine Answers.of_run (exec_retrainingSlot running fired small channel may) ?_
  rw [State.settle_dram, State.settle_cal, State.startRetraining_cal]
  exact ⟨State.startRetraining_retraining .., rfl⟩

section RetrainingEnd

variable {ch : Fin 12} {s : State} {r : Retraining} (runs : s.dram.retraining.get? ch.val = some r) (full : r.zqOnly = false)
include runs full

theorem exec_retrainingEnd_passed : exec (.retrainingEnd ch true) s =
    done s ((s.endRetraining ch.val).bumpN ⟨F.DMC_RETRAIN_CNT_COUNT, F.DMC_RETRAIN_CNT_SAT⟩ ch.val) := by
  show execRetrainingEnd ch true s = _
  rw [execRetrainingEnd, runs]
  exact if_neg (by simp [full])

theorem exec_retrainingEnd_missed : exec (.retrainingEnd ch false) s =
    if 3 ≤ r.attempts + 1 then done s ((s.endRetraining ch.val).failChannel ch.val)
    else done s { s with dram := { s.dram with
      retraining := s.dram.retraining.set ch.val { r with attempts := r.attempts + 1 } } } := by
  show execRetrainingEnd ch false s = _
  rw [execRetrainingEnd, runs]
  exact if_neg (by simp [full])

theorem retrainingEnd_passes : Answers (.retrainingEnd ch true) s fun t =>
    t.dram.retraining.get? ch.val = none ∧ t.getN F.DMC_STATUS_RETRAINING ch.val = 0 := by
  refine Answers.of_run (exec_retrainingEnd_passed runs full) ⟨?_, ?_⟩
  · rw [State.settle_dram, State.bumpN_dram]
    exact Store.get?_erase_self ..
  · rw [State.settle_getN _ _ (by unfold Field.outside; decide),
      State.bumpN_getN _ _ _ (by unfold Field.outside; decide) (by decide) (by decide)]
    exact State.getN_setN_self ..

theorem retrainingEnd_again (few : r.attempts < 2) : Answers (.retrainingEnd ch false) s fun t =>
    t.dram.retraining.get? ch.val = some { r with attempts := r.attempts + 1 } ∧ Frame s t [.dram] [] := by
  refine Answers.of_run ((exec_retrainingEnd_missed runs full).trans (if_neg (by omega)))
    ⟨?_, (Frame.withDram s _ (by simp) _).done s⟩
  rw [State.settle_dram]
  exact Store.get?_set_self ..

end RetrainingEnd

/-! ### A channel fails (R327, R328) -/

/-- The fields that a failing channel leaves by the way, beside its state and its active ranks. -/
def failFields : List Field := rankFields ++
  [F.DMC_MIGRATE_ACTIVE, F.DMC_MIGRATE_PAUSED, F.DMC_STATUS_MIGRATING, F.DMC_STATUS_RETRAINING, F.IVS_CFG_STATE, F.IVS_CFG_FAILED]

/-- A failing channel leaves service, settles its ranks, requests and sets, and raises source 69. -/
theorem State.failChannel_raises (s : State) (ch : Nat) : ∃ (v : State) (w : Nat),
    Frame ((s.setN F.DMC_CHCFG_STATE ch Ch.failed).setN F.DMC_CHCFG_ACTIVE_RANKS ch 0) v [.dram, .eng] failFields ∧
    s.failChannel ch = if ch < 4 then (v.raise 69 ch w).granaryChannelFailed else v.raise 69 ch w := by
  refine ⟨_, _, ?_, rfl⟩
  refine Frame.trans (Frame.trans (Frame.trans (Frame.trans (Frame.foldl _ _ (fun p _ t => ?ranks) _)
    (Frame.withDram _ _ (by simp) _)) (Frame.foldl _ _ (fun r _ t => ?requests) _))
    (Frame.foldl _ _ (fun f hf t => ?fields) _)) (Frame.foldl _ _ (fun k _ t => ?sets) _)
  case ranks =>
    dsimp only
    split
    · exact Frame.setRankByte t _ _ _ _ fun f hf => List.mem_append_left _ hf
    · exact Frame.refl t _ _
  case requests =>
    split
    · exact Frame.toLink t _ _ _
    · exact Frame.spoil t _ _ (by simp) _
    · exact Frame.refl t _ _
  case fields =>
    refine Frame.setN t _ _ _ (List.mem_append_right _ ?_)
    simp only [List.mem_cons, List.not_mem_nil, or_false] at hf ⊢
    tauto
  case sets =>
    dsimp only
    split
    · split
      · exact (Frame.setN t _ _ _ (by simp [failFields])).trans (Frame.setN _ _ _ _ (by simp [failFields]))
      · exact Frame.refl t _ _
    · exact Frame.refl t _ _

theorem State.granaryChannelFailed_regs (s : State) :
    s.granaryChannelFailed.regs = (s.beginDump 3 false).regs ∨ s.granaryChannelFailed.regs = s.regs := by
  unfold State.granaryChannelFailed
  split
  · left
    with_reducible rfl
  · exact .inr rfl

theorem State.granaryChannelFailed_sticky (s : State) (n : Nat) : s.granaryChannelFailed.sticky n = s.sticky n := by
  rcases s.granaryChannelFailed_regs with e | e
  · exact (State.sticky_congr e n).trans (State.sticky_beginDump s 3 false n)
  · exact State.sticky_congr e n

theorem State.granaryChannelFailed_getN (s : State) {g : Field} (h : g.outside raiseFields) (m : Nat) :
    s.granaryChannelFailed.getN g m = s.getN g m := by
  rcases s.granaryChannelFailed_regs with e | e
  · exact (State.getN_same e g m).trans (State.beginDump_getN s 3 false h m)
  · exact State.getN_same e g m

/-- A failed channel shows so, has no active ranks, and its source is set (R327). -/
theorem State.failChannel_fails {s : State} (hold : s.pwr.hold = true) (ch : Nat) :
    (s.failChannel ch).getN F.DMC_CHCFG_STATE ch = Ch.failed ∧ (s.failChannel ch).getN F.DMC_CHCFG_ACTIVE_RANKS ch = 0 ∧
      (s.failChannel ch).sticky 69 = true := by
  obtain ⟨v, w, frame, fails⟩ := s.failChannel_raises ch
  have power : v.pwr.hold = true := (congrArg Power.hold (frame.part .pwr (by decide))).trans hold
  have set : (v.raise 69 ch w).sticky 69 = true := State.sticky_raise v power rfl ch w
  have reg : ∀ {g : Field}, g.outside raiseFields → (s.failChannel ch).getN g ch = v.getN g ch := fun apart => by
    rw [fails]
    split
    · rw [State.granaryChannelFailed_getN _ apart, State.raise_getN _ _ _ _ apart]
    · exact State.raise_getN _ _ _ _ apart ch
  refine ⟨?_, ?_, ?_⟩
  · rw [reg (by unfold Field.outside; decide), frame.reg (by unfold Field.outside; decide), State.getN_setN_of_id _ (by decide),
      State.getN_setN_self]
    rfl
  · rw [reg (by unfold Field.outside; decide), frame.reg (by unfold Field.outside; decide), State.getN_setN_self]
    rfl
  · rw [fails]
    split
    · rw [State.granaryChannelFailed_sticky, set]
    · exact set

theorem retrainingEnd_fails {ch : Fin 12} {s : State} {r : Retraining} (runs : s.dram.retraining.get? ch.val = some r)
    (full : r.zqOnly = false) (many : 2 ≤ r.attempts) (hold : s.pwr.hold = true) : Answers (.retrainingEnd ch false) s fun t =>
      t.getN F.DMC_CHCFG_STATE ch.val = Ch.failed ∧ t.getN F.DMC_CHCFG_ACTIVE_RANKS ch.val = 0 ∧ t.sticky 69 = true := by
  refine Answers.of_run ((exec_retrainingEnd_missed runs full).trans (if_pos (by omega))) ?_
  rw [State.settle_getN _ _ (by unfold Field.outside; decide), State.settle_getN _ _ (by unfold Field.outside; decide),
    State.sticky_settle]
  exact State.failChannel_fails (s := s.endRetraining ch.val) hold ch.val

/-! ### Retirement (R333, R334) -/

/-- The fields by which a migration is shown. -/
def migrateFields : List Field :=
  [F.DMC_MIGRATE_ACTIVE, F.DMC_MIGRATE_PAUSED, F.DMC_MIGRATE_FROM, F.DMC_MIGRATE_TO, F.DMC_MIGRATE_UNIT, F.DMC_STATUS_MIGRATING]

/-- What a migration's start writes of them. -/
def migrationStart (rank spare : Nat) : List (Field × Nat) :=
  [(F.DMC_MIGRATE_ACTIVE, 1), (F.DMC_MIGRATE_PAUSED, 0), (F.DMC_MIGRATE_FROM, rank), (F.DMC_MIGRATE_TO, spare),
   (F.DMC_MIGRATE_UNIT, 0), (F.DMC_STATUS_MIGRATING, 1)]

/-- The bytes of a retiring rank and its spare as their migration starts (R333). -/
def State.ranksMigrating (s : State) (ch rank spare : Nat) : State :=
  (s.setRankByte ch rank (mkRank Rank.migratingOut (rankLogical (s.rankByte ch rank)))).setRankByte ch spare
    (mkRank Rank.migratingIn 0)

theorem State.startMigration_eq (s : State) (ch rank spare : Nat) :
    s.startMigration ch rank spare = (s.ranksMigrating ch rank spare).setEach ch (migrationStart rank spare) := rfl

theorem Frame.migrationStart (s : State) (ch rank spare : Nat) (ps : List Part) {fs : List Field} (h : ∀ f ∈ migrateFields, f ∈ fs) :
    Frame s (s.setEach ch (migrationStart rank spare)) ps fs := Frame.setEach _ _ _ _ h

theorem Frame.startMigration (s : State) (ch rank spare : Nat) :
    Frame s (s.startMigration ch rank spare) [] (rankFields ++ migrateFields) := by
  rw [State.startMigration_eq]
  exact ((Frame.setRankByte s _ _ _ _ fun f hf => List.mem_append_left _ hf).trans
    (Frame.setRankByte _ _ _ _ _ fun f hf => List.mem_append_left _ hf)).trans
      (Frame.migrationStart _ _ _ _ _ fun f hf => List.mem_append_right _ hf)

theorem State.startMigration_shows (s : State) (ch : Nat) {rank spare : Nat} (hr : rank < 4) (hp : spare < 4) :
    (s.startMigration ch rank spare).getN F.DMC_MIGRATE_ACTIVE ch = 1 ∧
    (s.startMigration ch rank spare).getN F.DMC_MIGRATE_FROM ch = rank ∧
    (s.startMigration ch rank spare).getN F.DMC_MIGRATE_TO ch = spare ∧
    (s.startMigration ch rank spare).getN F.DMC_MIGRATE_UNIT ch = 0 := by
  have written : ∀ (f : Field) (v : Nat), (f, v) ∈ migrationStart rank spare →
      (s.startMigration ch rank spare).getN f ch = v % 2 ^ f.width := fun f v h =>
    State.setEach_getN ch (migrationStart rank spare) _ (by decide : migrateFields.Pairwise fun f g => f.id ≠ g.id) h
  exact ⟨written _ 1 (by simp [migrationStart]), (written _ rank (by simp [migrationStart])).trans (Nat.mod_eq_of_lt hr),
    (written _ spare (by simp [migrationStart])).trans (Nat.mod_eq_of_lt hp), written _ 0 (by simp [migrationStart])⟩

theorem State.startMigration_ranks (s : State) (ch : Nat) {rank spare : Nat} (hr : rank < 4) (hp : spare < 4) (h : rank ≠ spare) :
    rankState ((s.startMigration ch rank spare).rankByte ch rank) = Rank.migratingOut ∧
    rankState ((s.startMigration ch rank spare).rankByte ch spare) = Rank.migratingIn := by
  have logical := rankLogical_lt (s.rankByte ch rank)
  obtain ⟨out, in_⟩ := s.rankByte_setBoth ch hr hp h (mkRank_lt (st := Rank.migratingOut) (by decide) logical)
    (mkRank_lt (st := Rank.migratingIn) (l := 0) (by decide) (by decide))
  have kept := (Frame.migrationStart (s.ranksMigrating ch rank spare) ch rank spare [] fun f hf => hf).rankByte
    (by unfold Field.outside; decide) ch
  rw [State.startMigration_eq, kept, kept, State.ranksMigrating, out, in_]
  exact ⟨rankState_mkRank (by decide) logical, rankState_mkRank (by decide) (by decide)⟩

/-- Marking a rank does nothing, starts its migration, or is refused (R333). -/
theorem State.markRetire_cases (s : State) (ch rank : Nat) : s.markRetire ch rank = s ∨
    (∃ p, s.markRetire ch rank = s.startMigration ch rank p) ∨ ∃ w, s.markRetire ch rank = s.raise 68 ch w := by
  unfold State.markRetire
  dsimp only
  split
  · exact .inl rfl
  · split
    · split
      · exact .inr (.inr ⟨_, rfl⟩)
      · exact .inr (.inl ⟨_, rfl⟩)
    · exact .inr (.inr ⟨_, rfl⟩)

theorem State.markRetire_dram (s : State) (ch rank : Nat) : (s.markRetire ch rank).dram = s.dram := by
  rcases s.markRetire_cases ch rank with e | ⟨p, e⟩ | ⟨w, e⟩ <;> rw [e]
  · exact (Frame.startMigration s ch rank p).part .dram (by simp)
  · exact State.raise_dram ..

theorem State.markRetire_getN (s : State) (ch rank : Nat) {g : Field}
    (settled : g.outside (settleFields ++ (rankFields ++ migrateFields))) (raised : g.outside raiseFields) (n : Nat) :
    (s.markRetire ch rank).getN g n = s.getN g n := by
  rcases s.markRetire_cases ch rank with e | ⟨p, e⟩ | ⟨w, e⟩ <;> rw [e]
  · exact (Frame.startMigration s ch rank p).reg settled n
  · exact State.raise_getN s _ _ _ raised n

theorem State.sticky_markRetire_mono {s : State} {k : Nat} (hk : k < 256) (h : s.sticky k = true) (ch rank : Nat) :
    (s.markRetire ch rank).sticky k = true := by
  rcases s.markRetire_cases ch rank with e | ⟨p, e⟩ | ⟨w, e⟩ <;> rw [e]
  · exact h
  · have kept := (Frame.startMigration s ch rank p).reg (g := F.FLT_STICKY_STICKY) (by unfold Field.outside; decide) (k / 64)
    exact (congrArg (bitOf · (k % 64)) kept).trans h
  · exact State.sticky_raise_mono hk (by decide) h ch w

/-- The channel's first unused spare (R333). -/
def State.spareOf (s : State) (ch : Nat) : Option Nat :=
  (List.range 4).find? (fun p => rankPresent (s.rankByte ch p) && rankState (s.rankByte ch p) == Rank.spare)

theorem State.spareOf_spec {s : State} {ch p : Nat} (h : s.spareOf ch = some p) :
    p < 4 ∧ rankState (s.rankByte ch p) = Rank.spare := by
  have found := List.find?_some h
  rw [Bool.and_eq_true, beq_iff_eq] at found
  exact ⟨List.mem_range.1 (List.mem_of_find?_eq_some h), found.2⟩

section Retire

variable {ch : Fin 12} {rank : BitVec 2} {s : State} (up : s.channelUp ch.val = true)
  (serves : s.rankInService ch.val rank.toNat = true)
include up serves

theorem exec_retire : exec (.retire ch rank) s = done s (s.markRetire ch.val rank.toNat) := if_pos (by simp [up, serves])

omit up in
theorem State.markRetire_active (active : rankState (s.rankByte ch.val rank.toNat) = Rank.active) :
    s.markRetire ch.val rank.toNat = match s.spareOf ch.val with
      | some p => if s.getN F.DMC_MIGRATE_ACTIVE ch.val = 1 then s.raise 68 ch.val (s.getN F.DMC_ERRADDR_DPA ch.val)
                  else s.startMigration ch.val rank.toNat p
      | none => s.raise 68 ch.val (s.getN F.DMC_ERRADDR_DPA ch.val) := by
  have here : rankPresent (s.rankByte ch.val rank.toNat) = true := by
    unfold State.rankInService at serves
    simp only [Bool.and_eq_true] at serves
    exact serves.1.2
  exact if_neg (by simp [here, active])

theorem retire_migrates (active : rankState (s.rankByte ch.val rank.toNat) = Rank.active) {p : Nat}
    (spare : s.spareOf ch.val = some p) (idle : s.getN F.DMC_MIGRATE_ACTIVE ch.val ≠ 1) : Answers (.retire ch rank) s fun t =>
      rankState (t.rankByte ch.val rank.toNat) = Rank.migratingOut ∧ rankState (t.rankByte ch.val p) = Rank.migratingIn ∧
      t.getN F.DMC_MIGRATE_ACTIVE ch.val = 1 ∧ t.getN F.DMC_MIGRATE_FROM ch.val = rank.toNat ∧
      t.getN F.DMC_MIGRATE_TO ch.val = p ∧ t.getN F.DMC_MIGRATE_UNIT ch.val = 0 := by
  have marks : s.markRetire ch.val rank.toNat = s.startMigration ch.val rank.toNat p := by
    rw [State.markRetire_active serves active, spare]
    exact if_neg idle
  obtain ⟨inside, unused⟩ := State.spareOf_spec spare
  have apart : rank.toNat ≠ p := by
    rintro same
    rw [← same, active] at unused
    exact absurd unused (by decide)
  obtain ⟨out, in_⟩ := s.startMigration_ranks ch.val rank.isLt inside apart
  obtain ⟨shown, from_, onto, unit⟩ := s.startMigration_shows ch.val rank.isLt inside
  have settled := Frame.settle s (s.startMigration ch.val rank.toNat p) [] []
  refine Answers.of_run ((exec_retire up serves).trans (congrArg (done s) marks)) ⟨?_, ?_, ?_, ?_, ?_, ?_⟩
  · rw [settled.rankByte (by unfold Field.outside; decide), out]
  · rw [settled.rankByte (by unfold Field.outside; decide), in_]
  · rw [settled.reg (by unfold Field.outside; decide), shown]
  · rw [settled.reg (by unfold Field.outside; decide), from_]
  · rw [settled.reg (by unfold Field.outside; decide), onto]
  · rw [settled.reg (by unfold Field.outside; decide), unit]

theorem retire_refused (active : rankState (s.rankByte ch.val rank.toNat) = Rank.active) (none_ : s.spareOf ch.val = none)
    (hold : s.pwr.hold = true) : Answers (.retire ch rank) s fun t => t.sticky 68 = true ∧ Frame s t raiseParts raiseFields := by
  have marks : s.markRetire ch.val rank.toNat = s.raise 68 ch.val (s.getN F.DMC_ERRADDR_DPA ch.val) := by
    rw [State.markRetire_active serves active, none_]
  refine Answers.of_run ((exec_retire up serves).trans (congrArg (done s) marks))
    ⟨?_, (Frame.raise s _ _ _ (fun _ h => h) fun _ h => h).done s⟩
  rw [State.sticky_settle, State.sticky_raise s hold rfl]

end Retire

/-! ### Migration (R334 to R336) -/

/-- The requests that copy the next unit are queued (R334). -/
def State.unitQueued (s : State) (ch : Nat) : State :=
  { s with dram := { s.dram with queue := s.dram.queue ++ s.unitRequests ch (s.getN F.DMC_MIGRATE_UNIT ch) } }

theorem State.unitQueued_rankLog (s : State) (ch : Nat) : (s.unitQueued ch).rankLog ch = s.rankLog ch := rfl

/-- A unit is copied: both ranks are woken, and UNIT moves on (R334). -/
def State.unitCopied (s : State) (ch : Nat) : State :=
  (((s.unitQueued ch).setN F.DMC_MIGRATE_UNIT ch (s.getN F.DMC_MIGRATE_UNIT ch + 1)).wakeRank ch
    ((s.unitQueued ch).getN F.DMC_MIGRATE_TO ch)).wakeRank ch ((s.unitQueued ch).getN F.DMC_MIGRATE_FROM ch)

theorem State.unitCopied_unit (s : State) (ch : Nat) : (s.unitCopied ch).getN F.DMC_MIGRATE_UNIT ch =
    (s.getN F.DMC_MIGRATE_UNIT ch + 1) % 2 ^ F.DMC_MIGRATE_UNIT.width := by
  have woken : ∀ (t : State) (rank : Nat), (t.wakeRank ch rank).getN F.DMC_MIGRATE_UNIT ch = t.getN F.DMC_MIGRATE_UNIT ch :=
    fun t rank => (Frame.wakeRank t ch rank (ps := [.dram]) (fs := [F.DMC_STATUS_PD, F.DMC_STATUS_SR]) (by simp) (by simp)
      (by simp)).reg (by unfold Field.outside; decide) ch
  rw [State.unitCopied, woken, woken, State.getN_setN_self]

theorem Frame.unitCopied (s : State) (ch : Nat) :
    Frame s (s.unitCopied ch) [.dram] [F.DMC_MIGRATE_UNIT, F.DMC_STATUS_PD, F.DMC_STATUS_SR] :=
  (((Frame.withDram s _ (by simp) _).trans (Frame.setN _ _ _ _ (by simp))).trans
    (Frame.wakeRank _ _ _ (by simp) (by simp) (by simp))).trans (Frame.wakeRank _ _ _ (by simp) (by simp) (by simp))

/-- The bytes of a retired rank and of the spare that has taken its place (R336). -/
def State.ranksMigrated (s : State) (ch from_ spare : Nat) : State :=
  (s.setRankByte ch spare (mkRank Rank.active (rankLogical (s.rankByte ch from_)))).setRankByte ch from_ (mkRank Rank.retired 0)

/-- What a migration's end writes. -/
def migrationEnd : List (Field × Nat) := [(F.DMC_MIGRATE_ACTIVE, 0), (F.DMC_MIGRATE_PAUSED, 0), (F.DMC_STATUS_MIGRATING, 0)]

/-- The fields that `migrationEnd` writes. -/
def endFields : List Field := [F.DMC_MIGRATE_ACTIVE, F.DMC_MIGRATE_PAUSED, F.DMC_STATUS_MIGRATING]

theorem Frame.migrationEnd (s : State) (ch : Nat) (ps : List Part) {fs : List Field} (h : ∀ f ∈ endFields, f ∈ fs) :
    Frame s (s.setEach ch migrationEnd) ps fs := Frame.setEach _ _ _ _ h

theorem Frame.ranksMigrated (s : State) (ch from_ spare : Nat) : Frame s (s.ranksMigrated ch from_ spare) [] rankFields :=
  (Frame.setRankByte s _ _ _ _ fun _ h => h).trans (Frame.setRankByte _ _ _ _ _ fun _ h => h)

theorem FlashWork.recordRetirement (s : State) : FlashWork s s.recordRetirement := FlashWork.sealing s _

/-- A rank is among the retired ones from now on (R336). -/
def State.noteRetired (s : State) (k : Nat) : State :=
  { s with dram := { s.dram with retired := if s.dram.retired.contains k then s.dram.retired else k :: s.dram.retired } }

theorem Frame.retirementRecorded (s : State) (k : Nat) : Frame s (s.noteRetired k).recordRetirement [.dram, .flash] [] :=
  (Frame.withDram s _ (by simp) []).trans ((FlashWork.recordRetirement (s.noteRetired k)).frame (by simp) [])

/-- The end of a migration is recorded, and raises source 67 (R336). -/
theorem State.completeMigration_raises (s : State) (ch : Nat) : ∃ (v : State) (w : Nat),
    Frame ((s.ranksMigrated ch (s.getN F.DMC_MIGRATE_FROM ch) (s.getN F.DMC_MIGRATE_TO ch)).setEach ch migrationEnd) v
      [.dram, .flash] [] ∧ s.completeMigration ch = v.raise 67 ch w :=
  ⟨_, _, Frame.retirementRecorded _ (rankKey ch (s.getN F.DMC_MIGRATE_FROM ch)), rfl⟩

/-- The spare has the retired rank's number, and the end of the migration is shown and raised (R336). -/
theorem State.completeMigration_ends {s : State} {ch from_ spare : Nat} (hold : s.pwr.hold = true)
    (hf : s.getN F.DMC_MIGRATE_FROM ch = from_) (hs : s.getN F.DMC_MIGRATE_TO ch = spare) (from_lt : from_ < 4)
    (spare_lt : spare < 4) (apart : from_ ≠ spare) :
    (s.completeMigration ch).rankByte ch from_ = mkRank Rank.retired 0 ∧
    (s.completeMigration ch).rankByte ch spare = mkRank Rank.active (rankLogical (s.rankByte ch from_)) ∧
    (s.completeMigration ch).getN F.DMC_MIGRATE_ACTIVE ch = 0 ∧ (s.completeMigration ch).sticky 67 = true := by
  obtain ⟨v, w, recorded, raises⟩ := s.completeMigration_raises ch
  rw [hf, hs] at recorded
  rw [raises]
  have ended := Frame.migrationEnd (s.ranksMigrated ch from_ spare) ch [.dram, .flash] (fs := endFields) fun _ h => h
  have raised := Frame.raise v 67 ch w (fun _ h => h) fun _ h => h
  have power : v.pwr.hold = true := by
    rw [recorded.part .pwr (by decide), ended.part .pwr (by decide),
      (Frame.ranksMigrated s ch from_ spare).part .pwr (by decide), hold]
  obtain ⟨active, retired⟩ := s.rankByte_setBoth ch spare_lt from_lt apart.symm
    (mkRank_lt (st := Rank.active) (by decide) (rankLogical_lt (s.rankByte ch from_)))
    (mkRank_lt (st := Rank.retired) (l := 0) (by decide) (by decide))
  have kept : ∀ r, (v.raise 67 ch w).rankByte ch r = (s.ranksMigrated ch from_ spare).rankByte ch r := fun r => by
    rw [raised.rankByte (by unfold Field.outside; decide), recorded.rankByte (by unfold Field.outside; decide),
      ended.rankByte (by unfold Field.outside; decide)]
  refine ⟨(kept _).trans retired, (kept _).trans active, ?_, State.sticky_raise v power rfl ch w⟩
  rw [raised.reg (by unfold Field.outside; decide), recorded.reg (by unfold Field.outside; decide)]
  exact State.setEach_getN ch migrationEnd _ (by decide) (v := 0) (List.mem_cons_self ..)

section UnitCopy

variable {ch : Fin 12} {s : State} (up : s.channelUp ch.val = true) (active : s.getN F.DMC_MIGRATE_ACTIVE ch.val = 1)
  (running : s.getN F.DMC_MIGRATE_PAUSED ch.val = 0)
include up active running

/-- The settling compares with the state in which the unit's requests are queued. -/
theorem exec_migrationUnitCopy : exec (.migrationUnitCopy ch) s = done (s.unitQueued ch.val)
    (if 2 ^ (s.rankLog ch.val - 12) ≤ s.getN F.DMC_MIGRATE_UNIT ch.val + 1 then (s.unitCopied ch.val).completeMigration ch.val
      else s.unitCopied ch.val) := by
  rw [← s.unitQueued_rankLog]
  exact if_pos (by simp [up, active, running])

theorem migrationUnitCopy_moves (more : s.getN F.DMC_MIGRATE_UNIT ch.val + 1 < 2 ^ (s.rankLog ch.val - 12))
    (fits : s.getN F.DMC_MIGRATE_UNIT ch.val + 1 < 2 ^ F.DMC_MIGRATE_UNIT.width) : Answers (.migrationUnitCopy ch) s fun t =>
      t.getN F.DMC_MIGRATE_UNIT ch.val = s.getN F.DMC_MIGRATE_UNIT ch.val + 1 ∧
      Frame s t [.dram] [F.DMC_MIGRATE_UNIT, F.DMC_STATUS_PD, F.DMC_STATUS_SR] := by
  have run := exec_migrationUnitCopy up active running
  rw [if_neg (Nat.not_le.2 more)] at run
  refine Answers.of_done run ⟨?_, (Frame.unitCopied s ch.val).done _⟩
  rw [State.settle_getN _ _ (by unfold Field.outside; decide), State.unitCopied_unit, Nat.mod_eq_of_lt fits]

theorem migrationUnitCopy_ends (last : 2 ^ (s.rankLog ch.val - 12) ≤ s.getN F.DMC_MIGRATE_UNIT ch.val + 1)
    (from_lt : s.getN F.DMC_MIGRATE_FROM ch.val < 4) (spare_lt : s.getN F.DMC_MIGRATE_TO ch.val < 4)
    (apart : s.getN F.DMC_MIGRATE_FROM ch.val ≠ s.getN F.DMC_MIGRATE_TO ch.val) : Answers (.migrationUnitCopy ch) s fun t =>
      rankState (t.rankByte ch.val (s.getN F.DMC_MIGRATE_FROM ch.val)) = Rank.retired ∧
      rankState (t.rankByte ch.val (s.getN F.DMC_MIGRATE_TO ch.val)) = Rank.active ∧
      rankLogical (t.rankByte ch.val (s.getN F.DMC_MIGRATE_TO ch.val)) =
        rankLogical (s.rankByte ch.val (s.getN F.DMC_MIGRATE_FROM ch.val)) ∧
      t.getN F.DMC_MIGRATE_ACTIVE ch.val = 0 ∧ t.sticky 67 = true := by
  have copied := Frame.unitCopied s ch.val
  have power : (s.unitCopied ch.val).pwr.hold = true :=
    (congrArg Power.hold (copied.part .pwr (by decide))).trans (State.hold_of_channelUp up)
  obtain ⟨retired, taken, shown, raised⟩ := State.completeMigration_ends power (copied.reg (by unfold Field.outside; decide) _)
    (copied.reg (by unfold Field.outside; decide) _) from_lt spare_lt apart
  have settled := Frame.settle (s.unitQueued ch.val) ((s.unitCopied ch.val).completeMigration ch.val) [] []
  have logical := rankLogical_lt (s.rankByte ch.val (s.getN F.DMC_MIGRATE_FROM ch.val))
  have run := exec_migrationUnitCopy up active running
  rw [if_pos last] at run
  refine Answers.of_done run ?_
  rw [settled.rankByte (by unfold Field.outside; decide), settled.rankByte (by unfold Field.outside; decide), retired, taken,
    copied.rankByte (by unfold Field.outside; decide), settled.reg (by unfold Field.outside; decide), shown, State.sticky_settle,
    raised]
  exact ⟨rankState_mkRank (by decide) (by decide), rankState_mkRank (by decide) logical, rankLogical_mkRank _ logical, rfl, rfl⟩

end UnitCopy

/-! ### Command and address parity (R317) -/

/-- The times of a rank's last parity errors, this one first (R317). -/
def State.parityTimes (s : State) (k : Nat) : List Nat := (s.now :: s.dram.parity.getD k []).take 8

/-- A parity error is noted for its rank and counted (R317). -/
def State.parityCounted (s : State) (ch rank : Nat) : State :=
  ({ s with dram := { s.dram with parity := s.dram.parity.set (rankKey ch rank) (s.parityTimes (rankKey ch rank)) } } : State).bumpN
    ⟨F.DMC_CAPAR_CNT_COUNT, F.DMC_CAPAR_CNT_SAT⟩ ch

theorem State.parityCounted_dram (s : State) (ch rank : Nat) : (s.parityCounted ch rank).dram =
    { s.dram with parity := s.dram.parity.set (rankKey ch rank) (s.parityTimes (rankKey ch rank)) } := State.bumpN_dram ..

/-- What ERRLOG and ERRADDR capture of an error. -/
def errFields : List Field :=
  [F.DMC_ERRLOG_TYPE, F.DMC_ERRLOG_RANK, F.DMC_ERRLOG_SUBCH, F.DMC_ERRLOG_DEVICE, F.DMC_ERRLOG_BG, F.DMC_ERRLOG_BANK,
   F.DMC_ERRLOG_ROW, F.DMC_ERRLOG_COL, F.DMC_ERRLOG_PATROL, F.DMC_ERRADDR_DPA]

/-- What is captured of an error (R313, R314). -/
def capturedErr (a : DramAddr) (dpa type device : Nat) (patrol : Bool) : List (Field × Nat) :=
  [(F.DMC_ERRLOG_TYPE, type), (F.DMC_ERRLOG_RANK, a.rank), (F.DMC_ERRLOG_SUBCH, a.sub), (F.DMC_ERRLOG_DEVICE, device),
   (F.DMC_ERRLOG_BG, a.bg), (F.DMC_ERRLOG_BANK, a.bank), (F.DMC_ERRLOG_ROW, a.row), (F.DMC_ERRLOG_COL, a.col),
   (F.DMC_ERRLOG_PATROL, natOfBool patrol), (F.DMC_ERRADDR_DPA, dpa)]

theorem Frame.captureErr (s : State) (a : DramAddr) (dpa type device : Nat) (patrol : Bool) (ps : List Part) :
    Frame s (s.captureErr a dpa type device patrol) ps errFields :=
  Frame.setEach a.ch (capturedErr a dpa type device patrol) s ps fun _ h => h

theorem State.captureErr_type (s : State) (a : DramAddr) (dpa type device : Nat) (patrol : Bool) :
    (s.captureErr a dpa type device patrol).getN F.DMC_ERRLOG_TYPE a.ch = type % 4 :=
  State.setEach_getN a.ch (capturedErr a dpa type device patrol) s (by decide : errFields.Pairwise fun f g => f.id ≠ g.id)
    (List.mem_cons_self ..)

/-- The command that a parity error strikes: the oldest queued for its rank, where it is mapped (R317). -/
def State.parityCommand (s : State) (ch rank : Nat) : Option (DramReq × DramAddr) :=
  (s.dram.queue.find? (fun q => q.bank.ch.val == ch && q.bank.rank.toNat == rank)).bind
    (fun q => (s.decodeDpa q.dpa).map (fun a => (q, a)))

/-- A parity error is captured and raised (R317). -/
def State.parityRaised (s : State) (ch rank : Nat) : State :=
  match s.parityCommand ch rank with
  | some (q, a) => (s.captureErr { a with ch := ch, rank := rank } q.dpa 3 0x1F false).raise 66 ch q.dpa
  | none => ((s.setN F.DMC_ERRLOG_TYPE ch 3).setN F.DMC_ERRLOG_RANK ch rank).raise 66 ch (s.getN F.DMC_ERRADDR_DPA ch)

theorem State.parityRaised_raises (s : State) (ch rank : Nat) : ∃ (v : State) (w : Nat),
    Frame s v [] errFields ∧ v.getN F.DMC_ERRLOG_TYPE ch = 3 ∧ s.parityRaised ch rank = v.raise 66 ch w := by
  unfold State.parityRaised
  split
  next q a _ =>
    exact ⟨_, _, Frame.captureErr s _ _ _ _ _ _, State.captureErr_type s { a with ch := ch, rank := rank } _ 3 _ _, rfl⟩
  next =>
    refine ⟨_, _, (Frame.setN s _ _ _ (by simp [errFields])).trans (Frame.setN _ _ _ _ (by simp [errFields])), ?_, rfl⟩
    rw [State.getN_setN_of_id _ (by decide), State.getN_setN_self]
    rfl

section ParityError

variable {ch : Fin 12} {rank : BitVec 2} {s : State} (up : s.channelUp ch.val = true)
  (serves : s.rankInService ch.val rank.toNat = true)
include up serves

/-- A parity error whose retry passes is counted and raised; the eighth within 1 s marks the rank. -/
theorem exec_caParityError : exec (.caParityError ch rank false) s =
    done s (if eightInASecond (s.parityTimes (rankKey ch.val rank.toNat)) s.now
      then ((s.parityCounted ch.val rank.toNat).parityRaised ch.val rank.toNat).markRetire ch.val rank.toNat
      else (s.parityCounted ch.val rank.toNat).parityRaised ch.val rank.toNat) := if_neg (by simp [up, serves])

theorem caParityError_counts : Answers (.caParityError ch rank false) s fun t =>
    t.sticky 66 = true ∧ t.getN F.DMC_ERRLOG_TYPE ch.val = 3 ∧
    t.dram.parity.get? (rankKey ch.val rank.toNat) =
      some ((s.now :: s.dram.parity.getD (rankKey ch.val rank.toNat) []).take 8) := by
  obtain ⟨v, w, captured, logged, raises⟩ := (s.parityCounted ch.val rank.toNat).parityRaised_raises ch.val rank.toNat
  have power : v.pwr.hold = true :=
    (congrArg Power.hold (captured.part .pwr (by decide))).trans ((State.bumpN_hold ..).trans (State.hold_of_channelUp up))
  have set : (v.raise 66 ch.val w).sticky 66 = true := State.sticky_raise v power rfl ch.val w
  have type : (v.raise 66 ch.val w).getN F.DMC_ERRLOG_TYPE ch.val = 3 :=
    (State.raise_getN _ _ _ _ (by unfold Field.outside; decide) _).trans logged
  have noted : (v.raise 66 ch.val w).dram.parity.get? (rankKey ch.val rank.toNat) =
      some (s.parityTimes (rankKey ch.val rank.toNat)) := by
    rw [State.raise_dram, captured.part .dram (by decide), State.parityCounted_dram]
    exact Store.get?_set_self ..
  refine Answers.of_run (exec_caParityError up serves) ?_
  rw [State.sticky_settle, State.settle_getN _ _ (by unfold Field.outside; decide), State.settle_dram, raises]
  split
  · rw [State.markRetire_getN _ _ _ (by unfold Field.outside; decide) (by unfold Field.outside; decide), State.markRetire_dram]
    exact ⟨State.sticky_markRetire_mono (by decide) set _ _, type, noted⟩
  · exact ⟨set, type, noted⟩

end ParityError

/-- Settles O49: a retraining starts by command, drift and firing and ends by its check, the third failure of which fails the channel;
a rank marked for retirement migrates to the spare, unit by unit, or is refused; a parity error is counted, logged and raised. -/
theorem ranksAreTrainedAndRetired : Obligations.RanksAreTrainedAndRetired :=
  ⟨fun _ _ _ may => ⟨startRetraining_starts (exec_retrain may), startRetraining_starts (exec_dqsOscillatorRead may)⟩,
    fun ch rank s => Answers.of_idle (exec_dqsOscillatorRead_steady ch rank s),
    fun _ _ running fired small channel may => retrainingSlot_starts running fired small channel may,
    fun _ _ _ runs full => ⟨retrainingEnd_passes runs full, retrainingEnd_again runs full, retrainingEnd_fails runs full⟩,
    fun _ _ _ up serves active => ⟨fun _ spare idle => retire_migrates up serves active spare idle,
      fun none_ hold => retire_refused up serves active none_ hold⟩,
    fun _ _ up active running => ⟨migrationUnitCopy_moves up active running,
      fun last _ from_lt spare_lt apart => migrationUnitCopy_ends up active running last from_lt spare_lt apart⟩,
    fun _ _ _ up serves _ => caParityError_counts up serves⟩

end Sys2Proof.Machine

/-! SUPPORT. Power through fault events, changes of one part of the state, and the firing that a background activity takes. -/

namespace Sys2Proof.Machine

/-! ### What a fault event leaves of power (R451, R453) -/

/-- Power but for the chip resets that are asked for. -/
def Power.standing (p : Power) : Power := { p with request := none, deferred := none }

/-- From `s` to `t` power, pins and resets in progress are as they were; a chip reset may have been asked for. -/
def KeepsPower (s t : State) : Prop := t.pwr.standing = s.pwr.standing

namespace KeepsPower

variable {s t u : State}

theorem refl (s : State) : KeepsPower s s := rfl

theorem trans (h : KeepsPower s t) (k : KeepsPower t u) : KeepsPower s u := Eq.trans k h

theorem of_pwr (h : t.pwr = s.pwr) : KeepsPower s t := congrArg Power.standing h

theorem hold (h : KeepsPower s t) : t.pwr.hold = s.pwr.hold := (congrArg Power.hold h :)
theorem main (h : KeepsPower s t) : t.pwr.main = s.pwr.main := (congrArg Power.main h :)
theorem mainEn (h : KeepsPower s t) : t.pwr.mainEn = s.pwr.mainEn := (congrArg Power.mainEn h :)
theorem failed (h : KeepsPower s t) : t.pwr.failed = s.pwr.failed := (congrArg Power.failed h :)
theorem failedInDump (h : KeepsPower s t) : t.pwr.failedInDump = s.pwr.failedInDump := (congrArg Power.failedInDump h :)
theorem holdSel (h : KeepsPower s t) : t.pwr.holdSel = s.pwr.holdSel := (congrArg Power.holdSel h :)
theorem bankTest (h : KeepsPower s t) : t.pwr.bankTest = s.pwr.bankTest := (congrArg Power.bankTest h :)

theorem foldl {α : Type} (step : State → α → State) (l : List α) (h : ∀ s a, KeepsPower s (step s a)) (s : State) :
    KeepsPower s (l.foldl step s) :=
  List.foldlRecOn l step (motive := fun t => KeepsPower s t) (refl s) fun t ht a _ => ht.trans (h t a)

theorem requestChipReset (s : State) (r : ResetReq) : KeepsPower s (s.requestChipReset r) := by
  unfold State.requestChipReset
  split_ifs <;> rfl

theorem react (s : State) (n inst : Nat) (b : Bool) : KeepsPower s (s.react n inst b) := by
  unfold State.react State.reactReset
  split
  · exact (of_pwr (by simp)).trans (requestChipReset _ _)
  · exact of_pwr (by simp)

theorem raiseCore (s : State) (n inst word : Nat) (b : Bool) : KeepsPower s (s.raiseCore n inst word b) := by
  unfold State.raiseCore
  split
  · exact refl s
  · exact (of_pwr (by simp)).trans (react _ _ _ _)

theorem bumpN (s : State) (c : Counter) (n : Nat) : KeepsPower s (s.bumpN c n) := by
  have saturated : ∀ t : State, KeepsPower t (t.raiseSaturated c n) := fun t => by
    unfold State.raiseSaturated
    split
    · exact refl t
    · exact (of_pwr (by simp)).trans (raiseCore _ _ _ _ _)
  unfold State.bumpN
  dsimp only
  split
  · exact (of_pwr (by simp)).trans (saturated _)
  · exact of_pwr (by simp)

theorem bumpTimes (c : Counter) (k : Nat) (s : State) : KeepsPower s (s.bumpTimes c k) := by
  induction k generalizing s with
  | zero => exact refl s
  | succ k ih => exact (bumpN s c 0).trans (ih _)

theorem raise (s : State) (n inst word : Nat) : KeepsPower s (s.raise n inst word) := by
  unfold State.raise State.raiseWith
  split
  · exact refl s
  · refine KeepsPower.trans ?_ (raiseCore _ n inst word false)
    split
    · exact of_pwr (by simp)
    · exact bumpN s _ n

theorem raiseLive (s : State) (n inst word : Nat) : KeepsPower s (s.raiseLive n inst word) := by
  unfold State.raiseLive
  split
  · exact refl s
  · exact raise s n inst word

end KeepsPower

/-! ### A condition that begins, and what it leaves -/

theorem State.live_raiseLive (s : State) (hold : s.pwr.hold = true) {n : Nat} {info : SourceInfo}
    (listed : sourceInfo n = some info) (kind : info.live = true) (transient : sourcePersists n = false) (inst word : Nat) :
    (s.raiseLive n inst word).live n = true := by
  unfold State.raiseLive
  split
  · assumption
  · exact State.live_raise s hold listed kind transient inst word

theorem State.raiseLive_get_apart (s : State) (n inst word : Nat) {g : Field} (h : g.apart = true) :
    (s.raiseLive n inst word).get g = s.get g :=
  State.raiseLive_getN s n inst word (Field.outside_of_apart h).2 0

theorem Frame.raiseLive (s : State) (n inst word : Nat) {ps : List Part} {fs : List Field} (hp : ∀ p ∈ raiseParts, p ∈ ps)
    (hf : ∀ f ∈ raiseFields, f ∈ fs) : Frame s (s.raiseLive n inst word) ps fs := by
  unfold State.raiseLive
  split
  · exact Frame.refl s ps fs
  · exact Frame.raise s n inst word hp hf

/-- No fault event takes a measurement of the bank's capacitance up. -/
theorem KeepsWindow.measure {s t : State} (h : KeepsWindow s t) : t.grn.measure = s.grn.measure :=
  (congrArg Granary.measure h.core :)

/-! ### Changes of one part -/

theorem Frame.withGrn (s : State) (g : Granary) {ps : List Part} (h : .grn ∈ ps) (fs : List Field) :
    Frame s { s with grn := g } ps fs := by
  refine ⟨rfl, rfl, fun p hp => ?_, fun _ _ _ => rfl⟩
  cases p with
  | grn => exact absurd h hp
  | _ => rfl

theorem Frame.withPwr (s : State) (w : Power) {ps : List Part} (h : .pwr ∈ ps) (fs : List Field) :
    Frame s { s with pwr := w } ps fs := by
  refine ⟨rfl, rfl, fun p hp => ?_, fun _ _ _ => rfl⟩
  cases p with
  | pwr => exact absurd h hp
  | _ => rfl

theorem Frame.dropFiring (s : State) (f : Firing) {ps : List Part} (h : .cal ∈ ps) (fs : List Field) :
    Frame s (s.dropFiring f) ps fs := Frame.withCal s _ h fs

/-- A background activity takes the first firing of its target while field time and background activities run (R33). -/
theorem State.takeSlot_fires {s : State} {n : Nat} {f : Firing} (running : s.get F.FT_STATUS_STATE = Ft.running)
    (background : s.backgroundRuns = true) (first : s.cal.firings.find? (fun f => f.target == n) = some f) :
    s.takeSlot n = some (f, s.dropFiring f) := by
  rw [State.takeSlot, running, background, State.takeFiring, first]
  rfl

end Sys2Proof.Machine

/-! SUPPORT. The energy bank: its samples, and the steps of a measurement of its capacitance. -/

namespace Sys2Proof.Machine

/-! ### Samples (R348, R519) -/

/-- The samples that the average is taken over. -/
def State.withSamples (s : State) (l : List Nat) : State := { s with grn := { s.grn with samples := l } }

@[simp] theorem State.withSamples_samples (s : State) (l : List Nat) : (s.withSamples l).grn.samples = l := rfl

theorem State.withSamples_get (s : State) (l : List Nat) (g : Field) : (s.withSamples l).get g = s.get g :=
  State.getN_same (s := s) rfl g 0

theorem State.withSamples_live (s : State) (l : List Nat) (n : Nat) : (s.withSamples l).live n = s.live n :=
  State.live_congr (s := s) rfl n

/-- A sample in range ends source 98's condition and enters the average. -/
def State.sampled (s : State) (mv : Int) : State :=
  ((s.set F.GOV_STATUS_SENSE_BAD 0).clearLive 98).withSamples ((mv.toNat * s.get F.BANK_CFG_SENSE_DIV :: s.grn.samples).take 100)

/-- A sample out of range raises source 98 and drops the samples. -/
def State.sensedBadly (s : State) : State := ((s.set F.GOV_STATUS_SENSE_BAD 1).raiseLive 98 0 0).withSamples []

theorem exec_bankSenseSample_inside {mv : Int} {s : State} (hold : s.pwr.hold = true) (low : -50 ≤ mv) (high : mv ≤ 1000) :
    exec (.bankSenseSample mv) s = done s ((s.sampled mv).set F.BANK_STATUS_V_BANK ((s.sampled mv).bankMv / 10)) := by
  have run : exec (.bankSenseSample mv) s = execBankSenseSample mv s := rfl
  have div : ((s.set F.GOV_STATUS_SENSE_BAD 0).clearLive 98).get F.BANK_CFG_SENSE_DIV = s.get F.BANK_CFG_SENSE_DIV := by
    rw [State.clearLive_get_apart _ _ (by decide), State.get_set_of_id _ (by decide)]
  rw [run, execBankSenseSample, if_neg (by simp [State.groupUp, hold]), if_neg (by omega)]
  simp only [div, State.sampled, State.withSamples, State.clearLive_grn, State.set_grn]

theorem exec_bankSenseSample_outside {mv : Int} {s : State} (hold : s.pwr.hold = true) (outside : mv < -50 ∨ 1000 < mv) :
    exec (.bankSenseSample mv) s = done s (s.sensedBadly.set F.BANK_ENERGY_E_USABLE_J 0) :=
  (if_neg (by simp [State.groupUp, hold])).trans (if_pos outside)

theorem bankSenseSample_enters {mv : Int} {s : State} (hold : s.pwr.hold = true) (low : -50 ≤ mv) (high : mv ≤ 1000) :
    Answers (.bankSenseSample mv) s fun t =>
      t.grn.samples = (mv.toNat * s.get F.BANK_CFG_SENSE_DIV :: s.grn.samples).take 100 ∧
      t.get F.BANK_STATUS_V_BANK = t.bankMv / 10 % 2 ^ F.BANK_STATUS_V_BANK.width ∧
      t.get F.GOV_STATUS_SENSE_BAD = 0 ∧ t.live 98 = false ∧
      Frame s t [.grn] [F.BANK_STATUS_V_BANK, F.GOV_STATUS_SENSE_BAD, F.FLT_LIVE_LIVE] := by
  refine Answers.of_run (exec_bankSenseSample_inside hold low high) ⟨?_, ?_, ?_, ?_, Frame.done s
    ((((Frame.set s _ 0 (by simp)).trans (Frame.clearLive _ 98 (by simp))).trans (Frame.withGrn _ _ (by simp) _)).trans
      (Frame.set _ _ _ (by simp)))⟩
  · rw [State.settle_grn, State.set_grn, State.sampled, State.withSamples_samples]
  · rw [State.settle_get_apart _ _ (by decide), State.get_set_self, State.bankMv, State.bankMv, State.settle_grn, State.set_grn]
  · rw [State.settle_get_apart _ _ (by decide), State.get_set_of_id _ (by decide), State.sampled, State.withSamples_get,
      State.clearLive_get_apart _ 98 (by decide), State.get_set_self, Nat.zero_mod]
  · rw [State.live_settle, State.live_set _ (by decide), State.sampled, State.withSamples_live, State.live_clearLive]

theorem bankSenseSample_fails {mv : Int} {s : State} (hold : s.pwr.hold = true) (outside : mv < -50 ∨ 1000 < mv) :
    Answers (.bankSenseSample mv) s fun t =>
      t.grn.samples = [] ∧ t.get F.GOV_STATUS_SENSE_BAD = 1 ∧ t.get F.BANK_ENERGY_E_USABLE_J = 0 ∧ t.live 98 = true ∧
      Frame s t raiseParts ([F.BANK_ENERGY_E_USABLE_J, F.GOV_STATUS_SENSE_BAD] ++ raiseFields) := by
  refine Answers.of_run (exec_bankSenseSample_outside hold outside) ⟨?_, ?_, ?_, ?_, Frame.done s
    ((((Frame.set s _ 1 (by simp)).trans (Frame.raiseLive _ 98 0 0 (fun _ h => h) fun _ h => List.mem_append_right _ h)).trans
      (Frame.withGrn _ _ (by decide) _)).trans (Frame.set _ _ 0 (by simp)))⟩
  · rw [State.settle_grn, State.set_grn, State.sensedBadly, State.withSamples_samples]
  · rw [State.settle_get_apart _ _ (by decide), State.get_set_of_id _ (by decide), State.sensedBadly, State.withSamples_get,
      State.raiseLive_get_apart _ 98 0 0 (by decide), State.get_set_self]
    rfl
  · rw [State.settle_get_apart _ _ (by decide), State.get_set_self]
    rfl
  · rw [State.live_settle, State.live_set _ (by decide), State.sensedBadly, State.withSamples_live]
    exact State.live_raiseLive _ (by simpa using hold) rfl rfl rfl 0 0

/-! ### The start of a measurement (R349) -/

/-- A measurement is in progress. -/
def State.withMeasure (s : State) (m : Measure) : State := { s with grn := { s.grn with measure := some m } }

/-- BANK_TEST is driven. -/
def State.bankTested (s : State) : State := { s with pwr := { s.pwr with bankTest := true } }

theorem exec_capacitanceMeasurement {v0 : BitVec 16} {s : State} {f : Firing} (running : s.get F.FT_STATUS_STATE = Ft.running)
    (background : s.backgroundRuns = true) (fires : s.cal.firings.find? (fun f => f.target == 6) = some f)
    (serves : s.grnServes = true) (sound : s.flag F.GOV_STATUS_SENSE_BAD = false) (idle : s.grn.measure = none) :
    exec (.capacitanceMeasurement v0) s = done s ((s.dropFiring f).withMeasure ⟨v0.toNat, s.now, none⟩).bankTested := by
  have run : exec (.capacitanceMeasurement v0) s = execCapacitanceMeasurement v0 s := rfl
  have may : ((s.dropFiring f).grnServes && !(s.dropFiring f).flag F.GOV_STATUS_SENSE_BAD &&
      (s.dropFiring f).grn.measure.isNone) = true := by
    change (s.grnServes && !s.flag F.GOV_STATUS_SENSE_BAD && s.grn.measure.isNone) = true
    rw [serves, sound, idle]
    rfl
  rw [run, execCapacitanceMeasurement, State.takeSlot_fires running background fires]
  exact if_pos may

theorem capacitanceMeasurement_starts {v0 : BitVec 16} {s : State} {f : Firing} (running : s.get F.FT_STATUS_STATE = Ft.running)
    (background : s.backgroundRuns = true) (fires : s.cal.firings.find? (fun f => f.target == 6) = some f)
    (serves : s.grnServes = true) (sound : s.flag F.GOV_STATUS_SENSE_BAD = false) (idle : s.grn.measure = none) :
    Answers (.capacitanceMeasurement v0) s fun t =>
      t.grn = { s.grn with measure := some ⟨v0.toNat, s.now, none⟩ } ∧ t.pwr = { s.pwr with bankTest := true } ∧
      t.cal.firings = s.cal.firings.filter (fun g => g != f) ∧ Frame s t [.grn, .pwr, .cal] [] := by
  refine Answers.of_run (exec_capacitanceMeasurement running background fires serves sound idle) ⟨?_, ?_, ?_, Frame.done s
    (((Frame.dropFiring s f (by simp) _).trans (Frame.withGrn _ _ (by simp) _)).trans (Frame.withPwr _ _ (by simp) _))⟩
  · rw [State.settle_grn]
    rfl
  · rw [State.settle_pwr]
    rfl
  · rw [State.settle_cal]
    rfl

theorem measurementV1Sample_samples {v1 : BitVec 16} {s : State} {v0 t0 : Nat} (runs : s.grn.measure = some ⟨v0, t0, none⟩)
    (due : t0 + 10000000 ≤ s.now) : Answers (.measurementV1Sample v1) s fun t =>
      t.grn = { s.grn with measure := some ⟨v0, t0, some v1.toNat⟩ } ∧ Frame s t [.grn] [] := by
  have run : exec (.measurementV1Sample v1) s = done s (s.withMeasure ⟨v0, t0, some v1.toNat⟩) := by
    have call : exec (.measurementV1Sample v1) s = execMeasurementV1Sample v1 s := rfl
    rw [call, execMeasurementV1Sample, runs]
    exact if_neg (by simp [due])
  refine Answers.of_run run ⟨?_, Frame.done s (Frame.withGrn s _ (by simp) _)⟩
  rw [State.settle_grn]
  rfl

/-! ### The end of a measurement (R349) -/

theorem Frame.endMeasure (s : State) {ps : List Part} (hg : .grn ∈ ps) (hp : .pwr ∈ ps) (fs : List Field) :
    Frame s s.endMeasure ps fs :=
  (Frame.withGrn s { s.grn with measure := none } hg fs).trans (Frame.withPwr _ { s.pwr with bankTest := false } hp fs)

/-- In `t` no measurement is in progress, and BANK_TEST is released. -/
structure Unmeasured (t : State) : Prop where
  measure : t.grn.measure = none
  bankTest : t.pwr.bankTest = false

namespace Unmeasured

variable {s t : State}

theorem of_keeps (h : Unmeasured s) (window : KeepsWindow s t) (power : KeepsPower s t) : Unmeasured t :=
  ⟨window.measure.trans h.measure, power.bankTest.trans h.bankTest⟩

theorem endMeasure (s : State) : Unmeasured s.endMeasure := ⟨rfl, rfl⟩

theorem set (h : Unmeasured s) (f : Field) (v : Nat) : Unmeasured (s.set f v) :=
  h.of_keeps (.of_grn (by simp)) (.of_pwr (by simp))

theorem clearLive (h : Unmeasured s) (n : Nat) : Unmeasured (s.clearLive n) :=
  h.of_keeps (.of_grn (by simp)) (.of_pwr (by simp))

theorem raise (h : Unmeasured s) (n inst word : Nat) : Unmeasured (s.raise n inst word) :=
  h.of_keeps (.raise s n inst word) (.raise s n inst word)

theorem raiseLive (h : Unmeasured s) {n : Nat} (transient : sourcePersists n = false) (inst word : Nat) :
    Unmeasured (s.raiseLive n inst word) :=
  h.of_keeps (KeepsWindow.eventRel.raiseLive s transient inst word) (.raiseLive s n inst word)

theorem settle (h : Unmeasured s) (old : State) : Unmeasured (State.settle old s) :=
  h.of_keeps (.of_grn (State.settle_grn old s)) (.of_pwr (State.settle_pwr old s))

end Unmeasured

/-- A measurement that fails shows it, raises source 100 and writes nothing else. -/
theorem failMeasure_fails (old : State) {s : State} (hold : s.pwr.hold = true) :
    let t := State.settle old s.failMeasure
    t.get F.BANK_STATUS_MEAS_FAIL = 1 ∧ t.sticky 100 = true ∧ t.grn.measure = none ∧ t.pwr.bankTest = false ∧
      Frame s t raiseParts (F.BANK_STATUS_MEAS_FAIL :: raiseFields) := by
  have power : (s.endMeasure.set F.BANK_STATUS_MEAS_FAIL 1).pwr.hold = true := by
    rw [State.set_pwr]
    exact hold
  obtain ⟨measure, bankTest⟩ := (((Unmeasured.endMeasure s).set F.BANK_STATUS_MEAS_FAIL 1).raise 100 0 0).settle old
  refine ⟨?_, ?_, measure, bankTest, Frame.done old (((Frame.endMeasure s (by decide) (by decide) _).trans
    (Frame.set _ _ 1 (by simp))).trans (Frame.raise _ 100 0 0 (fun _ h => h) fun _ h => List.mem_cons_of_mem _ h))⟩
  · rw [State.settle_get_apart _ _ (by decide), State.failMeasure, State.raise_get_apart _ 100 0 0 (by decide),
      State.get_set_self]
    rfl
  · rw [State.sticky_settle]
    exact State.sticky_raise _ power rfl 0 0

theorem measurementTimeout_fails {s : State} {m : Measure} (runs : s.grn.measure = some m) (hold : s.pwr.hold = true)
    (due : m.at_ + 60000000000 ≤ s.now) : Answers .measurementTimeout s fun t =>
      t.get F.BANK_STATUS_MEAS_FAIL = 1 ∧ t.sticky 100 = true ∧ t.grn.measure = none ∧ t.pwr.bankTest = false ∧
      Frame s t raiseParts (F.BANK_STATUS_MEAS_FAIL :: raiseFields) := by
  have run : exec .measurementTimeout s = done s s.failMeasure := by
    have call : exec .measurementTimeout s = execMeasurementTimeout s := rfl
    rw [call, execMeasurementTimeout, runs]
    exact if_pos due
  exact Answers.of_run run (failMeasure_fails s hold)

/-! ### A capacitance is computed (R349) -/

/-- A capacitance in range is written with the ESR. -/
def State.capacitanceKept (s : State) (v0 v1 c : Nat) : State :=
  (((s.esrMohm v0 v1).2.endMeasure.set F.BANK_STATUS_C_MEAS c).set F.BANK_STATUS_ESR_MOHM (s.esrMohm v0 v1).1).set
    F.BANK_STATUS_MEAS_VALID 1

theorem State.storeCapacitance_inside {s : State} {c : Nat} (low : s.get F.BANK_CFG_C_NOM ≤ 4 * c)
    (high : c ≤ 4 * s.get F.BANK_CFG_C_NOM) (v0 v1 : Nat) : s.storeCapacitance v0 v1 c =
      if c * 10 < s.get F.BANK_CFG_C_NOM * 8 then (s.capacitanceKept v0 v1 c).raiseLive 99 0 0
      else (s.capacitanceKept v0 v1 c).clearLive 99 :=
  if_neg (by omega)

theorem State.storeCapacitance_outside {s : State} {c : Nat}
    (outside : 4 * c < s.get F.BANK_CFG_C_NOM ∨ 4 * s.get F.BANK_CFG_C_NOM < c) (v0 v1 : Nat) :
    s.storeCapacitance v0 v1 c = s.failMeasure := if_pos (by omega)

theorem State.esrMohm_pwr (s : State) (v0 v1 : Nat) : (s.esrMohm v0 v1).2.pwr = s.pwr := by
  unfold State.esrMohm
  split <;> rfl

theorem State.esrMohm_of_current {s : State} {v0 v1 : Nat} (current : s.testMa ≠ 0) (drop : v1 ≤ v0) :
    s.esrMohm v0 v1 = ((v0 - v1) * 1000 / s.testMa, s) := if_neg (by omega)

theorem exec_measurementT2 {s : State} {v0 t0 v1 : Nat} (runs : s.grn.measure = some ⟨v0, t0, some v1⟩)
    (reached : 100 * s.bankMv ≤ 98 * v1) (below : s.bankMv < v1) (within : s.now ≤ t0 + 60000000000) :
    exec .measurementT2 s = done s (s.storeCapacitance v0 v1
      (s.testMa * (s.now - t0 - 10000000) / ((v1 - s.bankMv) * 10000000))) := by
  have call : exec .measurementT2 s = execMeasurementT2 s := rfl
  rw [call, execMeasurementT2, runs]
  exact (if_neg (by omega)).trans (if_neg (by omega))

/-- Source 99 is live below 80 percent of the nominal capacitance. -/
theorem storeCapacitance_stores (old : State) {s : State} (hold : s.pwr.hold = true) {c : Nat}
    (low : s.get F.BANK_CFG_C_NOM ≤ 4 * c) (high : c ≤ 4 * s.get F.BANK_CFG_C_NOM) (v0 v1 : Nat) :
    let t := State.settle old (s.storeCapacitance v0 v1 c)
    t.get F.BANK_STATUS_C_MEAS = c % 2 ^ F.BANK_STATUS_C_MEAS.width ∧ t.get F.BANK_STATUS_MEAS_VALID = 1 ∧
      (s.testMa ≠ 0 → v1 ≤ v0 →
        t.get F.BANK_STATUS_ESR_MOHM = (v0 - v1) * 1000 / s.testMa % 2 ^ F.BANK_STATUS_ESR_MOHM.width) ∧
      t.live 99 = decide (c * 10 < s.get F.BANK_CFG_C_NOM * 8) ∧ t.grn.measure = none ∧ t.pwr.bankTest = false := by
  have kept : ∀ {g : Field}, g.apart = true → (State.settle old (s.storeCapacitance v0 v1 c)).get g =
      (s.capacitanceKept v0 v1 c).get g := fun {g} h => by
    rw [State.settle_get_apart _ _ h, State.storeCapacitance_inside low high]
    split
    · exact State.raiseLive_get_apart _ 99 0 0 h
    · exact State.clearLive_get_apart _ 99 h
  have ended : Unmeasured (s.capacitanceKept v0 v1 c) := (((Unmeasured.endMeasure _).set _ _).set _ _).set _ _
  have judged : Unmeasured (s.storeCapacitance v0 v1 c) := by
    rw [State.storeCapacitance_inside low high]
    split
    · exact ended.raiseLive rfl 0 0
    · exact ended.clearLive 99
  refine ⟨?_, ?_, fun current drop => ?_, ?_, (judged.settle old).measure, (judged.settle old).bankTest⟩
  · rw [kept (by decide), State.capacitanceKept, State.get_set_of_id _ (by decide), State.get_set_of_id _ (by decide),
      State.get_set_self]
  · rw [kept (by decide), State.capacitanceKept, State.get_set_self]
    rfl
  · rw [kept (by decide), State.capacitanceKept, State.get_set_of_id _ (by decide), State.get_set_self,
      State.esrMohm_of_current current drop]
  · rw [State.live_settle, State.storeCapacitance_inside low high]
    have power : (s.capacitanceKept v0 v1 c).pwr.hold = true := by
      rw [State.capacitanceKept, State.set_pwr, State.set_pwr, State.set_pwr]
      exact (congrArg Power.hold (State.esrMohm_pwr s v0 v1)).trans hold
    split
    next short => rw [State.live_raiseLive _ power rfl rfl rfl, decide_eq_true short]
    next full => rw [State.live_clearLive, decide_eq_false full]

/-- Settles O40: a sample enters the average or raises source 98; a measurement starts, takes V1, and ends with a capacitance in range
stored, or with a failure that leaves C_MEAS and ESR. -/
theorem theBankIsSensedAndMeasured : Obligations.TheBankIsSensedAndMeasured := by
  refine ⟨fun _ _ hold low high => bankSenseSample_enters hold low high,
    fun _ _ hold outside => bankSenseSample_fails hold outside,
    fun _ _ _ running background fires serves sound idle =>
      capacitanceMeasurement_starts running background fires serves sound idle,
    fun _ _ _ _ runs due => measurementV1Sample_samples runs due,
    fun s v0 t0 v1 runs hold reached below within => ?_,
    fun _ _ runs hold due => measurementTimeout_fails runs hold due⟩
  have run := exec_measurementT2 runs reached below within
  refine ⟨fun low high => Answers.of_run run (storeCapacitance_stores s hold low high v0 v1), fun outside => ?_⟩
  rw [State.storeCapacitance_outside outside] at run
  obtain ⟨shown, raised, measure, released, frame⟩ := failMeasure_fails s hold
  exact Answers.of_run run ⟨shown, raised, frame.reg (by unfold Field.outside; decide) 0,
    frame.reg (by unfold Field.outside; decide) 0, measure, released⟩

end Sys2Proof.Machine

/-! SUPPORT. Where a grant to a write at the link does not end as stated: the acceptance of its line may raise a source whose reaction
is a dump, which closes ingress (R85, R351, R438, R439). -/

namespace Sys2Proof.Machine

/-- A write at the link leaves the queue of waiters and the link's own. -/
def State.handedOver (s : State) (rest : List Waiter) (more : List CxlWait) : State :=
  { s with grn := { s.grn with waiters := rest }, link := { s.link with waiting := more } }

theorem exec_reservationGrant_link {s : State} {rest : List Waiter} {w : CxlWait} {more : List CxlWait}
    (may : s.canReserve = true) (first : s.grn.waiters = .cxl :: rest) (waits : s.link.waiting = w :: more) :
    exec .reservationGrant s =
      done s (((s.handedOver rest more).acceptLine w.line w.data w.poison).answerCxl w.answer) := by
  have run : exec .reservationGrant s = execReservationGrant s := rfl
  rw [run, execReservationGrant, if_neg (by simp [may]), first]
  dsimp only
  rw [waits]
  rfl

/-- A mailbox has not used its reservation, a write waits at the link, and the check of the dirty map that its acceptance makes is
injected: source 107, whose reaction is a dump. -/
def checking : State :=
  let s := dumpingOn 107
  { s with
    hub := { s.hub with armed := [(107, 0)] }
    link := { s.link with waiting := [⟨.cmp 0, 0, 0, false⟩] }
    grn := { s.grn with
      config := { s.grn.config with windowLen := 2 ^ 28 }, budget := 2 ^ 20, reserved := 1,
      granted := [.mailbox 64 5], waiters := [.cxl] } }

theorem checking_grants : checking.canReserve = true ∧ checking.grn.waiters = [.cxl] ∧
    checking.link.waiting = [⟨.cmp 0, 0, 0, false⟩] := by decide +kernel

/-- The dump closes ingress, and the reservation not yet used waits again (R85). -/
theorem checking_waiters :
    (((checking.handedOver [] []).acceptLine 0 0 false).answerCxl (.cmp 0)).grn.waiters = [.mailbox 64 5] := by
  decide +kernel

/-- Refutes O41: the acceptance of a write that waited at the link checks the dirty map, and an armed source 107 asks for a dump; the
closing of ingress puts a mailbox's unused reservation back into the queue, which is then not what was left of it. -/
theorem not_theGovernorGrantsAndLinesDrain : ¬ Obligations.TheGovernorGrantsAndLinesDrain := by
  intro h
  obtain ⟨-, -, -, link, -⟩ := h
  obtain ⟨may, first, waits⟩ := checking_grants
  obtain ⟨t, run, -, -, waiters, -⟩ := link checking [] 0 0 0 false [] may first waits
  rw [exec_reservationGrant_link may first waits] at run
  obtain rfl := Host.Outcome.next.inj run
  rw [State.settle_grn] at waiters
  exact absurd (checking_waiters.symm.trans waiters) (by decide)

end Sys2Proof.Machine

/-! SUPPORT. The chain through further events, a FATAL-PERSIST event, a chain record that is written, and what only works on the
flash. -/

namespace Sys2Proof.Machine

/-! ### The FATAL-PERSIST latch (R452) -/

/-- The registers of the latch: LATCHED and SOURCE, and the state word FAILED with its CAUSE. -/
def State.latchSet (s : State) (n : Nat) : State :=
  ((((s.set F.FLT_PERSIST_LATCHED 1).set F.FLT_PERSIST_SOURCE n).set F.GRN_STATE_STATE Grn.failed).set F.GRN_STATE_CAUSE
    (if n = 104 then 6 else 5)).clearLive 103

@[simp] theorem State.latchSet_grn (s : State) (n : Nat) : (s.latchSet n).grn = s.grn := by simp [State.latchSet]

@[simp] theorem State.latchSet_pwr (s : State) (n : Nat) : (s.latchSet n).pwr = s.pwr := by simp [State.latchSet]

theorem State.latchPersist_of_not {s : State} (h : s.latched = false) (n : Nat) :
    s.latchPersist n = (s.latchSet n).closeIngress.failDump := if_neg (by simp [h])

/-- A field of the latch that a latch of `n` has just written. -/
theorem State.latchPersist_get {s : State} (h : s.latched = false) (n : Nat) (g : Field) :
    (s.latchPersist n).get g = (s.latchSet n).get g := by
  rw [State.latchPersist_of_not h]
  exact State.getN_same (by rw [State.failDump_regs, State.closeIngress_regs]) g 0

theorem State.latchSet_latched (s : State) (n : Nat) : (s.latchSet n).get F.FLT_PERSIST_LATCHED = 1 := by
  rw [State.latchSet, (Aside.clearLive _ 103).word _ (by simp [requestFields]), State.get_set_of_id _ (by decide),
    State.get_set_of_id _ (by decide), State.get_set_of_id _ (by decide), State.get_set_self]
  rfl

theorem State.latchPersist_latched (s : State) (n : Nat) : (s.latchPersist n).latched = true := by
  cases h : s.latched with
  | true => rw [State.latchPersist, if_pos h, h]
  | false => rw [State.latched, State.flag, State.latchPersist_get h, State.latchSet_latched]; rfl

/-- An event is counted. -/
def State.faultCounted (s : State) (n : Nat) : State :=
  if n = 0 then (s.bumpQuiet C.faultCount 0).2 else s.bumpN C.faultCount n

theorem EventRel.faultCounted {R : State → State → Prop} (hR : EventRel R) (s : State) (n : Nat) : R s (s.faultCounted n) := by
  unfold State.faultCounted
  split
  · exact hR.aside (Aside.bumpQuiet s C.faultCount 0 (by decide) (by decide))
  · exact hR.bumpN s C.faultCount n (by decide) (by decide)

/-- An event is counted and captured. -/
def State.captured (s : State) (info : SourceInfo) (n inst word : Nat) : State :=
  ((s.faultCounted n).captureEvent info n inst word false).logCxlEvent info n inst

theorem EventRel.captured {R : State → State → Prop} (hR : EventRel R) (s : State) (info : SourceInfo) (n inst word : Nat) :
    R s (s.captured info n inst word) :=
  hR.trans (hR.faultCounted s n) (hR.aside ((Aside.captureEvent _ info n inst word false).trans
    (Aside.of_regs (State.logCxlEvent_grn _ _ _ _) (congrArg Power.failed (State.logCxlEvent_pwr _ _ _ _))
      (State.logCxlEvent_regs _ _ _ _))))

/-- A FATAL-PERSIST event is captured, then latches, then has its reactions. -/
theorem State.raise_latches {s : State} (hold : s.pwr.hold = true) {n : Nat} {info : SourceInfo}
    (listed : sourceInfo n = some info) (fatal : (info.cls == .fatalPersist) = true) (inst word : Nat) :
    s.raise n inst word =
      ((s.captured info n inst word).latchPersist n).react n inst (!(s.faultCounted n).sticky n) := by
  rw [State.raise, State.raiseWith, hold, listed, if_neg (by simp)]
  simp only [State.raiseCore, listed, fatal, Bool.not_false, Bool.and_self, State.latchIf, if_true]
  rfl

/-- What a latched state refuses: no dump begins. -/
theorem State.grantsDump_of_latched {s : State} (h : s.latched = true) : s.grantsDump = false := by
  simp [State.grantsDump, h]

theorem State.raise_latched {s : State} (hold : s.pwr.hold = true) {n : Nat} {info : SourceInfo}
    (listed : sourceInfo n = some info) (fatal : (info.cls == .fatalPersist) = true) (inst word : Nat) :
    (s.raise n inst word).latched = true := by
  have latched := (s.captured info n inst word).latchPersist_latched n
  rw [State.raise_latches hold listed fatal, State.latched, State.flag,
    (Sparing.eventRel.react _ n inst _ (State.grantsDump_of_latched latched)).latched]
  exact latched

/-! ### The chain through further events (R360, R361) -/

namespace KeepsChain

theorem refl (s : State) : KeepsChain s s := of_grn rfl

/-- Steps that touch neither records nor segments of the ring. -/
theorem of_same {s t : State} (rec0 : t.grn.rec0 = s.grn.rec0) (rec1 : t.grn.rec1 = s.grn.rec1)
    (deltas : t.grn.deltas = s.grn.deltas) : KeepsChain s t :=
  ⟨rec0, rec1, [], by rw [deltas, List.append_nil], fun _ hg => absurd hg List.not_mem_nil⟩

theorem failDump (s : State) : KeepsChain s s.closeIngress.failDump := of_same rfl rfl rfl

theorem latchPersist (s : State) (n : Nat) : KeepsChain s (s.latchPersist n) := by
  cases h : s.latched with
  | true => rw [State.latchPersist, if_pos h]; exact refl s
  | false =>
    rw [State.latchPersist_of_not h]
    exact (of_grn (s.latchSet_grn n)).trans (failDump _)

theorem raise (s : State) (n inst word : Nat) : KeepsChain s (s.raise n inst word) :=
  KeepsChain.eventRel.raiseWith s n inst word false fun _ _ t => latchPersist t n

theorem sealOpen (s : State) : KeepsChain s s.sealOpen := by
  unfold State.sealOpen
  split
  · exact of_same rfl rfl rfl
  · exact refl s

theorem levels (s : State) : KeepsChain s s.levels := KeepsChain.eventRel.levels sealOpen s

theorem startRebase (s : State) : KeepsChain s s.startRebase := by
  rcases s.startRebase_cases with h | ⟨b, h⟩ <;> rw [h]
  · exact refl s
  · exact (sealOpen s).trans (KeepsChain.trans (t := s.sealOpen.rebasing b) (of_same rfl rfl rfl) (of_grn (by simp)))

theorem foldl {α : Type} (step : State → α → State) (l : List α) (h : ∀ s a, KeepsChain s (step s a)) (s : State) :
    KeepsChain s (l.foldl step s) :=
  List.foldlRecOn l step (motive := fun t => KeepsChain s t) (refl s) fun t ht a _ => ht.trans (h t a)

/-- A segment of the ring stays there. -/
theorem mem_deltas {s t : State} (h : KeepsChain s t) {g : Segment} (hg : g ∈ s.grn.deltas) : g ∈ t.grn.deltas := by
  obtain ⟨l, hl, -⟩ := h.deltas
  rw [hl]
  exact List.mem_append_left _ hg

/-- A segment of the ring that was not there before is unsealed. -/
theorem mem_or_erased {s t : State} (h : KeepsChain s t) {g : Segment} (hg : g ∈ t.grn.deltas) :
    g ∈ s.grn.deltas ∨ g.verdict = .erased := by
  obtain ⟨l, hl, erased⟩ := h.deltas
  rw [hl] at hg
  exact (List.mem_append.1 hg).imp id (erased g)

end KeepsChain

/-! ### A chain record that is written (R360) -/

/-- The record that an event makes of the one in force. -/
def State.recordBase (s : State) (event : Nat) : ChainRecord :=
  { s.chainRecord.getD s.blankRecord with
    event := event, gen := (s.chainRecord.getD s.blankRecord).gen + 1, dumpFirst := 0, dumpLast := 0,
    dirtyShutdowns := s.grn.dirtyShutdowns, ft := s.ftCopy, config := s.grn.config }

theorem State.recordBase_gen (s : State) (event : Nat) :
    (s.recordBase event).gen = ((s.chainRecord.map (·.gen)).getD 0) + 1 := by
  rw [State.recordBase]
  cases s.chainRecord <;> rfl

/-- No copy holds a record newer than the one in force. -/
theorem State.head_gen_lt (s : State) (event : Nat) {r : ChainRecord} (h : s.grn.rec0.head? = some r ∨ s.grn.rec1.head? = some r) :
    r.gen < (s.recordBase event).gen := by
  rw [State.recordBase_gen, State.chainRecord]
  cases h0 : s.grn.rec0.head? <;> cases h1 : s.grn.rec1.head? <;>
    simp only [h0, h1, Option.some.injEq, reduceCtorEq, or_false, false_or] at h
  · simp [h]
  · simp [h]
  · dsimp only
    split <;> simp only [Option.map_some, Option.getD_some] <;> rcases h with rfl | rfl <;> omega

/-- The record in force after records were put at the head of both copies, or of one. -/
theorem State.chainRecord_of_heads {s t : State} {r : ChainRecord} {event : Nat} (newer : r.gen = (s.recordBase event).gen)
    (heads : t.grn.rec0.head? = some r ∧ t.grn.rec1.head? = some r ∨
      t.grn.rec0.head? = some r ∧ t.grn.rec1 = s.grn.rec1 ∨ t.grn.rec0 = s.grn.rec0 ∧ t.grn.rec1.head? = some r) :
    t.chainRecord = some r := by
  have older : ∀ q, s.grn.rec0.head? = some q ∨ s.grn.rec1.head? = some q → q.gen < r.gen := fun q h =>
    newer ▸ s.head_gen_lt event h
  rw [State.chainRecord]
  rcases heads with ⟨h0, h1⟩ | ⟨h0, h1⟩ | ⟨h0, h1⟩
  · simp [h0, h1]
  · rw [h0, h1]
    cases h : s.grn.rec1.head? with
    | none => rfl
    | some q => exact if_neg (Nat.lt_asymm (older q (.inr h)))
  · rw [h0, h1]
    cases h : s.grn.rec0.head? with
    | none => rfl
    | some q => exact if_pos (older q (.inl h))

/-- What a record written to one copy or both leaves of the chain. -/
theorem State.shown_records (s : State) (a b : List ChainRecord) (r : ChainRecord) :
    ((s.withRecords a b).showRecord r).grn.rec0 = a ∧ ((s.withRecords a b).showRecord r).grn.rec1 = b := by
  rw [State.showRecord_grn]
  exact ⟨rfl, rfl⟩

/-- A record that a copy verifies is the record in force. -/
theorem State.writeRecord_chainRecord (s : State) (event : Nat) (f : ChainRecord → ChainRecord) {w : CopyResult}
    (written : w = .both ∨ w = .one false ∨ w = .one true) (gen : ∀ r, (f r).gen = r.gen) :
    (s.writeRecord event f w).2.chainRecord = some (f (s.recordBase event)) := by
  have units := KeepsChain.eventRel.sealUnits s 4048 3
  have both : (s.writeRecord event f .both).2 = ((s.sealUnits 4048 3).withRecords
    (f (s.recordBase event) :: (s.sealUnits 4048 3).grn.rec0) (f (s.recordBase event) :: (s.sealUnits 4048 3).grn.rec1)).showRecord
      (f (s.recordBase event)) := rfl
  have first : (s.writeRecord event f (.one false)).2 = ((s.sealUnits 4048 3).withRecords
    (f (s.recordBase event) :: (s.sealUnits 4048 3).grn.rec0) (s.sealUnits 4048 3).grn.rec1).showRecord
      (f (s.recordBase event)) := rfl
  have second : (s.writeRecord event f (.one true)).2 = ((s.sealUnits 4048 3).withRecords
    (s.sealUnits 4048 3).grn.rec0 (f (s.recordBase event) :: (s.sealUnits 4048 3).grn.rec1)).showRecord
      (f (s.recordBase event)) := rfl
  refine State.chainRecord_of_heads (s := s) (gen _) ?_
  rcases written with rfl | rfl | rfl
  · rw [both]
    obtain ⟨h0, h1⟩ := (s.sealUnits 4048 3).shown_records (f (s.recordBase event) :: _) (f (s.recordBase event) :: _)
      (f (s.recordBase event))
    exact .inl ⟨congrArg List.head? h0, congrArg List.head? h1⟩
  · rw [first]
    obtain ⟨h0, h1⟩ := (s.sealUnits 4048 3).shown_records (f (s.recordBase event) :: _) (s.sealUnits 4048 3).grn.rec1
      (f (s.recordBase event))
    exact .inr (.inl ⟨congrArg List.head? h0, h1.trans units.rec1⟩)
  · rw [second]
    obtain ⟨h0, h1⟩ := (s.sealUnits 4048 3).shown_records (s.sealUnits 4048 3).grn.rec0 (f (s.recordBase event) :: _)
      (f (s.recordBase event))
    exact .inr (.inr ⟨h0.trans units.rec0, congrArg List.head? h1⟩)

/-! ### Work on the flash alone (R401, R409) -/

namespace FlashWork

variable {s t : State}

theorem withFlash (s : State) (f : Flash) : FlashWork s { s with flash := f } := ⟨f, s.freeCtr, rfl⟩

theorem grn (h : FlashWork s t) : t.grn = s.grn := by
  obtain ⟨f, k, rfl⟩ := h
  rfl

theorem pwr (h : FlashWork s t) : t.pwr = s.pwr := by
  obtain ⟨f, k, rfl⟩ := h
  rfl

theorem get (h : FlashWork s t) (g : Field) : t.get g = s.get g := by
  obtain ⟨f, k, rfl⟩ := h
  exact State.getN_same (s := s) rfl g 0

theorem journal (s : State) (es : List JournalEntry) : FlashWork s (s.journal es) :=
  FlashWork.trans (t := { s with flash := { s.flash with waitingDone := [] } }) (withFlash s _) (writeJournal _ _ _)

theorem swapGroups (s : State) (die a b : Nat) : FlashWork s (s.swapGroups die a b) :=
  (journal s _).trans (withFlash _ _)

theorem wearLevel (s : State) (die g : Nat) : FlashWork s (s.wearLevel die g) := by
  unfold State.wearLevel
  dsimp only
  split
  · exact refl s
  · split
    · exact refl s
    · split
      · exact swapGroups s die g _
      · exact refl s

theorem openPosition (s : State) (seq : Nat) : FlashWork s (s.openPosition seq) := by
  unfold State.openPosition
  dsimp only
  split
  · exact (withFlash s _).trans (wearLevel _ _ _)
  · exact refl s

end FlashWork

@[simp] theorem State.queuePage_grn (s : State) (cls : DramClass) (page : Nat) : (s.queuePage cls page).grn = s.grn :=
  s.queueLines_grn _ _ _ _

end Sys2Proof.Machine

/-! SUPPORT. The winnower: a page copied, a segment sealed and read back, a rebase that ends. -/

namespace Sys2Proof.Machine

/-! ### A page is copied (R353, R354) -/

/-- A unit stands in the open segment or in one whose trailer is not yet read back. -/
def State.carries (s : State) (u : VaultUnit) : Prop :=
  ∃ g : Segment, (g ∈ s.grn.sealing ∨ ∃ t0, s.grn.openSeg = some (g, t0)) ∧ u ∈ g.units

theorem State.carries_sealOpen {s : State} {u : VaultUnit} (h : s.carries u) : s.sealOpen.carries u := by
  obtain ⟨g, hg, hu⟩ := h
  unfold State.sealOpen
  split
  next g' t' opened =>
    refine ⟨g, .inl (List.mem_append.2 (hg.imp id ?_)), hu⟩
    rintro ⟨t0, h0⟩
    obtain ⟨rfl, -⟩ := Prod.mk.inj (Option.some.inj (h0.symm.trans opened))
    exact List.mem_singleton_self g
  next => exact ⟨g, hg, hu⟩

/-- From `s` to `t` page `p` has come in flight, and POS has moved past it. -/
structure PagePassed (s : State) (p : Nat) (t : State) : Prop where
  inflight : t.grn.inflight = s.grn.inflight ++ [(p, false)]
  dirty : t.grn.dirty = s.grn.dirty
  pos : t.get F.WIN_STATUS_POS = (if p + 1 < s.windowPages then p + 1 else 0) % 2 ^ F.WIN_STATUS_POS.width

namespace PagePassed

variable {s t u : State} {p : Nat}

theorem of_regs (h : PagePassed s p t) (inflight : u.grn.inflight = t.grn.inflight) (dirty : u.grn.dirty = t.grn.dirty)
    (regs : u.regs = t.regs) : PagePassed s p u :=
  ⟨inflight.trans h.inflight, dirty.trans h.dirty, (State.getN_same regs _ 0).trans h.pos⟩

theorem of_grn (h : PagePassed s p t) (grn : u.grn = t.grn) (pos : u.get F.WIN_STATUS_POS = t.get F.WIN_STATUS_POS) :
    PagePassed s p u :=
  ⟨by rw [grn, h.inflight], by rw [grn, h.dirty], pos.trans h.pos⟩

theorem sealOpen (h : PagePassed s p t) : PagePassed s p t.sealOpen := by
  refine h.of_regs ?_ (KeepsWindow.sealOpen t).dirty t.sealOpen_regs
  unfold State.sealOpen
  split <;> rfl

/-- The low pass ends or goes on. -/
theorem withPass (h : PagePassed s p t) (n : Option Nat) : PagePassed s p { t with grn := { t.grn with pass := n } } :=
  h.of_regs rfl rfl rfl

theorem passStep (h : PagePassed s p t) : PagePassed s p t.passStep := by
  unfold State.passStep
  split
  · exact h.withPass _
  · exact (h.withPass none).sealOpen
  · exact h

end PagePassed

theorem State.carries_passStep {s : State} {u : VaultUnit} (h : s.carries u) : s.passStep.carries u := by
  unfold State.passStep
  split
  · exact h
  · exact State.carries_sealOpen h
  · exact h

/-- The page is read and in flight. -/
def State.inFlight (s : State) (p : Nat) : State :=
  { s.queuePage .background p with
    grn := { (s.queuePage .background p).grn with inflight := (s.queuePage .background p).grn.inflight ++ [(p, false)] } }

/-- POS moves past a page. -/
def State.posPast (s : State) (p : Nat) : State := s.set F.WIN_STATUS_POS (if p + 1 < s.windowPages then p + 1 else 0)

/-- A segment is the open one. -/
def State.withOpen (s : State) (g : Segment) (t0 : Nat) : State := { s with grn := { s.grn with openSeg := some (g, t0) } }

/-- A segment has taken the next sequence number, and its position in the ring. -/
def State.numbered (s : State) : State :=
  { s.openPosition s.grn.nextSeq with
    grn := { (s.openPosition s.grn.nextSeq).grn with nextSeq := (s.openPosition s.grn.nextSeq).grn.nextSeq + 1 } }

theorem State.inFlight_grn (s : State) (p : Nat) :
    (s.inFlight p).grn = { s.grn with inflight := s.grn.inflight ++ [(p, false)] } := by
  rw [State.inFlight, State.queuePage_grn]

theorem PagePassed.posPast (s : State) (p : Nat) : PagePassed s p ((s.inFlight p).posPast p) where
  inflight := by rw [State.posPast, State.set_grn, State.inFlight_grn]
  dirty := by rw [State.posPast, State.set_grn, State.inFlight_grn]
  pos := by rw [State.posPast, State.get_set_self, State.windowPages, State.inFlight_grn, State.windowPages]

theorem PagePassed.numbered {s t : State} {p : Nat} (h : PagePassed s p t) : PagePassed s p t.numbered :=
  have position := FlashWork.openPosition t t.grn.nextSeq
  (h.of_grn position.grn (position.get _)).of_regs (u := t.numbered) rfl rfl rfl

theorem PagePassed.withOpen {s t : State} {p : Nat} (h : PagePassed s p t) (g : Segment) (t0 : Nat) :
    PagePassed s p (t.withOpen g t0) := h.of_regs rfl rfl rfl

/-- The page's unit ends the open segment, or opens one; a full segment is sealed. -/
theorem State.winnowPage_cases (s : State) (p : Nat) : ∃ (g : Segment) (t0 : Nat) (v : State),
    fullUnit p (s.windowPage p) ∈ g.units ∧ (v = (s.inFlight p).posPast p ∨ v = ((s.inFlight p).posPast p).numbered) ∧
    s.winnowPage p = (if segPages ≤ g.units.length then (v.withOpen g t0).sealOpen else v.withOpen g t0).passStep := by
  unfold State.winnowPage
  dsimp only
  split
  next g t0 _ => exact ⟨{ g with units := g.units ++ [fullUnit p (s.windowPage p)] }, t0, _, by simp, .inl rfl, rfl⟩
  next => exact ⟨((s.inFlight p).posPast p).newSegment .winnow [fullUnit p (s.windowPage p)] .erased,
    ((s.inFlight p).posPast p).now, _, List.mem_singleton_self _, .inr rfl, rfl⟩

theorem State.winnowPage_copies (s : State) (p : Nat) :
    PagePassed s p (s.winnowPage p) ∧ (s.winnowPage p).carries (fullUnit p (s.windowPage p)) := by
  obtain ⟨g, t0, v, hu, hv, run⟩ := s.winnowPage_cases p
  have carries : (v.withOpen g t0).carries (fullUnit p (s.windowPage p)) := ⟨g, .inr ⟨t0, rfl⟩, hu⟩
  have passed : PagePassed s p v := by
    rcases hv with rfl | rfl
    · exact PagePassed.posPast s p
    · exact (PagePassed.posPast s p).numbered
  rw [run]
  split
  · exact ⟨(passed.withOpen g t0).sealOpen.passStep, State.carries_passStep (State.carries_sealOpen carries)⟩
  · exact ⟨(passed.withOpen g t0).passStep, State.carries_passStep carries⟩

theorem exec_winnowerPageCopy_precopy {s : State} {p : Nat} (serves : s.grnServes = true) (ingress : s.grn.closed = false)
    (precopies : s.precopying = true) (free : s.urgentWaits s.winnowDie = false) (room : s.grn.inflight.length < 2048)
    (ring : s.ringUsed + 64 < s.ringSize) (next : s.winnowNext = some p) :
    exec .winnowerPageCopy s = done s (s.winnowPage p) := by
  have run : exec .winnowerPageCopy s = execWinnowerPageCopy s := rfl
  rw [run, execWinnowerPageCopy]
  simp [serves, ingress, precopies, free, room, ring, next]

theorem winnowerPageCopy_precopies {s : State} {p : Nat} (serves : s.grnServes = true) (ingress : s.grn.closed = false)
    (precopies : s.precopying = true) (free : s.urgentWaits s.winnowDie = false) (room : s.grn.inflight.length < 2048)
    (ring : s.ringUsed + 64 < s.ringSize) (next : s.winnowNext = some p) : Answers .winnowerPageCopy s fun t =>
      t.grn.inflight = s.grn.inflight ++ [(p, false)] ∧ t.grn.dirty = s.grn.dirty ∧
      (∃ g : Segment, (g ∈ t.grn.sealing ∨ ∃ t0, t.grn.openSeg = some (g, t0)) ∧ fullUnit p (s.windowPage p) ∈ g.units) ∧
      t.get F.WIN_STATUS_POS = (if p + 1 < s.windowPages then p + 1 else 0) % 2 ^ F.WIN_STATUS_POS.width := by
  obtain ⟨passed, carries⟩ := s.winnowPage_copies p
  refine Answers.of_run (exec_winnowerPageCopy_precopy serves ingress precopies free room ring next) ?_
  rw [State.settle_grn, State.settle_get_apart _ _ (by decide)]
  exact ⟨passed.inflight, passed.dirty, carries, passed.pos⟩

/-! ### A page of a rebase (R355, R359) -/

/-- A rebase goes on with its next page, and nothing else of the window changes. -/
theorem State.rebasePage_cases (s : State) (b : Rebase) : ∃ (c : Rebase) (v : State), KeepsWindow s v ∧
    s.rebasePage b = (v.rebasing c).set F.WIN_STATUS_REBASE_SEG c.seg.seq ∧
    c.nextPage = b.nextPage + 1 ∧ c.slot = b.slot ∧ c.seqS = b.seqS := by
  have queued : KeepsWindow s (s.queuePage .background b.nextPage) := .of_grn (s.queuePage_grn _ _)
  unfold State.rebasePage
  dsimp only
  split
  next => exact ⟨_, (s.queuePage .background b.nextPage).sealUnits 32720 2,
    queued.trans (KeepsWindow.eventRel.sealUnits _ 32720 2), rfl, rfl, rfl, rfl⟩
  next => exact ⟨_, s.queuePage .background b.nextPage, queued, rfl, rfl, rfl, rfl⟩

theorem exec_winnowerPageCopy_rebase {s : State} {b : Rebase} (serves : s.grnServes = true) (ingress : s.grn.closed = false)
    (idle : s.precopying = false) (runs : s.grn.rebase = some b) (free : s.urgentWaits (b.seg.seq % 64) = false)
    (more : b.nextPage < s.windowPages) : exec .winnowerPageCopy s = done s (s.rebasePage b) := by
  have run : exec .winnowerPageCopy s = execWinnowerPageCopy s := rfl
  rw [run, execWinnowerPageCopy]
  simp [serves, ingress, idle, runs, free, more]

theorem winnowerPageCopy_rebases {s : State} {b : Rebase} (serves : s.grnServes = true) (ingress : s.grn.closed = false)
    (idle : s.precopying = false) (runs : s.grn.rebase = some b) (free : s.urgentWaits (b.seg.seq % 64) = false)
    (more : b.nextPage < s.windowPages) : Answers .winnowerPageCopy s fun t =>
      (∃ c : Rebase, t.grn.rebase = some c ∧ c.nextPage = b.nextPage + 1 ∧ c.slot = b.slot ∧ c.seqS = b.seqS) ∧
      t.grn.dirty = s.grn.dirty := by
  obtain ⟨c, v, window, page, next, slot, seqS⟩ := s.rebasePage_cases b
  refine Answers.of_run (exec_winnowerPageCopy_rebase serves ingress idle runs free more) ?_
  rw [State.settle_grn, page, State.set_grn]
  exact ⟨⟨c, rfl, next, slot, seqS⟩, window.dirty⟩

/-! ### Low passes and the seal timer (R353) -/

/-- A low pass of `n` pages begins. -/
def State.withPass (s : State) (n : Nat) : State := { s with grn := { s.grn with pass := some n } }

/-- The pages of a low pass: those of its firing's ARG, in MiB, or every dirty page. -/
def State.passPages (s : State) (f : Firing) : Nat := if f.arg = 0 then s.grn.dirty.count else f.arg * 256

theorem winnowerLowPass_takes {s : State} {f : Firing} (idle : s.grn.pass = none) (running : s.get F.FT_STATUS_STATE = Ft.running)
    (background : s.backgroundRuns = true) (fires : s.cal.firings.find? (fun f => f.target == 7) = some f) :
    Answers .winnowerLowPass s fun t =>
      t.cal.firings = s.cal.firings.filter (fun g => g != f) ∧ (s.flag F.GOV_STATUS_HIGH = true → t.grn = s.grn) ∧
      (s.flag F.GOV_STATUS_HIGH = false → s.grnServes = true → s.grn.closed = false → f.arg ≠ 0 →
        t.grn = { s.grn with pass := some (f.arg * 256) }) ∧ Frame s t [.grn, .cal] [] := by
  have dropped : Frame s (s.dropFiring f) [.grn, .cal] [] := Frame.dropFiring s f (by simp) _
  have run : exec .winnowerLowPass s = done s
      (if s.flag F.GOV_STATUS_HIGH || !s.grnServes || s.grn.closed || decide (s.passPages f = 0) then s.dropFiring f
        else (s.dropFiring f).withPass (s.passPages f)) := by
    have call : exec .winnowerLowPass s = execWinnowerLowPass s := rfl
    rw [call, execWinnowerLowPass, idle, if_neg (by simp), State.takeSlot_fires running background fires]
    dsimp only
    change (if (s.flag F.GOV_STATUS_HIGH || !s.grnServes || s.grn.closed) = true then _ else
      if s.passPages f = 0 then _ else done s ((s.dropFiring f).withPass (s.passPages f))) = _
    by_cases skip : (s.flag F.GOV_STATUS_HIGH || !s.grnServes || s.grn.closed) = true <;> by_cases none : s.passPages f = 0 <;>
      simp [skip, none]
  refine Answers.of_run run ?_
  rw [State.settle_grn, State.settle_cal]
  split_ifs with stays
  · refine ⟨rfl, fun _ => rfl, fun low serves ingress pages => ?_, Frame.done s dropped⟩
    simp [low, serves, ingress, State.passPages, pages] at stays
  · refine ⟨rfl, fun high => absurd high ?_, fun _ _ _ pages => ?_, Frame.done s (dropped.trans (Frame.withGrn _ _ (by simp) _))⟩
    · rw [Bool.or_eq_true, not_or, Bool.or_eq_true, not_or, Bool.or_eq_true, not_or] at stays
      exact stays.1.1.1
    · rw [State.passPages, if_neg pages]
      rfl

theorem winnowerSealTimer_seals {s : State} {g : Segment} {t0 : Nat} (opened : s.grn.openSeg = some (g, t0))
    (due : t0 + 100000000 ≤ s.now) : Answers .winnowerSealTimer s fun t =>
      t.grn = { s.grn with openSeg := none, sealing := s.grn.sealing ++ [g] } ∧ Frame s t [.grn] [] := by
  have run : exec .winnowerSealTimer s = done s { s with grn := { s.grn with openSeg := none, sealing := s.grn.sealing ++ [g] } } := by
    have call : exec .winnowerSealTimer s = execWinnowerSealTimer s := rfl
    rw [call, execWinnowerSealTimer, opened]
    dsimp only
    rw [if_pos due, State.sealOpen, opened]
  refine Answers.of_run run ⟨?_, Frame.done s (Frame.withGrn s _ (by simp) _)⟩
  rw [State.settle_grn]

end Sys2Proof.Machine

/-! SUPPORT. Segments read back and rebases that end. -/

namespace Sys2Proof.Machine

/-! ### Segments read back (R354, R359) -/

theorem PageSet.mem_erase_of_ne (s : PageSet) {p q : Nat} (h : q ≠ p) : (s.erase p).mem q = s.mem q := by
  have cut : ∀ i : Nat × Nat, (PageSet.cut i p (p + 1)).any (fun j => decide (j.1 ≤ q) && decide (q < j.2)) =
      (decide (i.1 ≤ q) && decide (q < i.2)) := fun i => by
    unfold PageSet.cut
    rw [Bool.eq_iff_iff]
    split_ifs <;> simp <;> omega
  simp only [PageSet.mem, PageSet.erase, PageSet.eraseRange, List.any_flatMap, cut]

/-- A page that a write reached while its copy was in flight. -/
def overtaken (flight : List (Nat × Bool)) (p : Nat) : Bool := flight.any (fun q => q.1 == p && q.2)

theorem overtaken_iff {flight : List (Nat × Bool)} {p : Nat} : overtaken flight p = true ↔ (p, true) ∈ flight := by
  simp [overtaken]

section ReadBack

variable (flight : List (Nat × Bool)) (s : State) (p : Nat)

/-- The copy of a page is in flight no more. -/
def State.landedCopy : State := { s with grn := { s.grn with inflight := s.grn.inflight.filter (fun q => q.1 != p) } }

/-- A page is clean. -/
def State.cleaned : State := { s with grn := { s.grn with dirty := s.grn.dirty.erase p } }

theorem State.clearCopied_eq : State.clearCopied flight s p =
    if overtaken flight p then (s.landedCopy p).bump C.winRedirty else ((s.landedCopy p).cleaned p).bump C.winCopy := rfl

theorem State.clearCopied_dirty : (State.clearCopied flight s p).grn.dirty =
    if overtaken flight p then s.grn.dirty else s.grn.dirty.erase p := by
  rw [State.clearCopied_eq]
  split
  · exact (KeepsWindow.bump (s.landedCopy p) (c := C.winRedirty) (by decide) (by decide)).dirty
  · exact (KeepsWindow.bump ((s.landedCopy p).cleaned p) (c := C.winCopy) (by decide) (by decide)).dirty

theorem KeepsChain.clearCopied : KeepsChain s (State.clearCopied flight s p) := by
  have bump : ∀ (t : State) (c : Counter), (∀ g ∈ requestFields, c.count.id ≠ g.id) →
      (∀ g ∈ requestFields, c.sat.id ≠ g.id) → KeepsChain t (t.bump c) := fun t c hc hs =>
    KeepsChain.eventRel.bumpN t c 0 hc hs
  rw [State.clearCopied_eq]
  split
  · exact (KeepsChain.of_same (s := s) (t := s.landedCopy p) rfl rfl rfl).trans (bump _ C.winRedirty (by decide) (by decide))
  · exact (KeepsChain.of_same (s := s) (t := (s.landedCopy p).cleaned p) rfl rfl rfl).trans (bump _ C.winCopy (by decide) (by decide))

end ReadBack

/-- After a read-back the pages of the segment that no write has reached are clean, the others as they were. -/
theorem State.clearCopied_mem (flight : List (Nat × Bool)) (ps : List Nat) (s : State) (q : Nat) :
    (ps.foldl (State.clearCopied flight) s).grn.dirty.mem q =
      (s.grn.dirty.mem q && (decide (q ∉ ps) || overtaken flight q)) := by
  induction ps generalizing s with
  | nil => simp
  | cons p ps ih =>
    rw [List.foldl_cons, ih, State.clearCopied_dirty]
    by_cases hq : q = p
    · subst hq
      cases reached : overtaken flight q <;> simp
    · split
      next => simp [hq]
      next => simp [hq, PageSet.mem_erase_of_ne]

theorem KeepsPower.sealUnits (s : State) (len k : Nat) : KeepsPower s (s.sealUnits len k) :=
  KeepsPower.bumpTimes C.dgeUnit (hmacUnits len * k) s

theorem State.ftCopy_sealUnits (s : State) (len k : Nat) : (s.sealUnits len k).ftCopy = s.ftCopy := by
  have power := KeepsPower.bumpTimes C.dgeUnit (hmacUnits len * k) s
  have state : (s.sealUnits len k).get F.FT_STATUS_STATE = s.get F.FT_STATUS_STATE :=
    State.bumpTimes_getN _ _ _ (by unfold Field.outside; decide) (by decide) (by decide) 0
  have up : (s.sealUnits len k).mainUp = s.mainUp :=
    (congrArg (fun p : Power => p.hold && p.main && !p.held) (power : _ = s.pwr.standing) :)
  rw [State.ftCopy, state, up, State.sealUnits, State.bumpTimes_ft, State.ftCopy]

/-- A segment whose trailer has been read back joins the ring. -/
def State.joined (s : State) (rest : List Segment) (g : Segment) : State :=
  { s with grn := { s.grn with sealing := rest, deltas := s.grn.deltas ++ [g] } }

/-- The pages of a segment that does not verify are in flight no more, and stay dirty. -/
def State.uncopied (s : State) (pages : List Nat) : State :=
  { s with grn := { s.grn with inflight := s.grn.inflight.filter (fun p => !pages.contains p.1) } }

/-- A segment as its trailer is read back. -/
def State.readBack (s : State) (g : Segment) (verdict : SealState) : Segment := { g with verdict := verdict, ft := s.ftCopy }

section Trailer

variable {s : State} {g : Segment} {rest : List Segment}

theorem State.checkSlot0_passes (quiet : (144, 0) ∉ s.hub.armed) : s.checkSlot0 .passes = (true, s) := by
  rw [State.checkSlot0, State.injected, if_neg (by simpa using quiet)]

/-- The segment joins the ring, and its pages leave the flight: clean where it verifies. -/
def State.trailerTail (s : State) (flight : List (Nat × Bool)) (g : Segment) (rest : List Segment) (ok : Bool) : State :=
  let g := s.readBack g (if ok then SealState.verified else SealState.damaged)
  if ok then (g.units.map (·.page)).foldl (State.clearCopied flight) (s.joined rest g)
  else (s.joined rest g).uncopied (g.units.map (·.page))

theorem exec_trailerReadBack (sealing : s.grn.sealing = g :: rest) (quiet : (144, 0) ∉ s.hub.armed)
    (free : s.urgentWaits (g.seq % s.ringPositions % 64) = false) (ok : Bool) :
    exec (.trailerReadBack ok .passes) s = done (s.sealUnits 32720 2)
      ((s.sealUnits 32720 2).trailerTail s.grn.inflight g rest ok).levels.chainFields.startRebase := by
  have run : exec (.trailerReadBack ok .passes) s = done ((s.checkSlot0 .passes).2.sealUnits 32720 2)
      (((s.checkSlot0 .passes).2.sealUnits 32720 2).trailerTail s.grn.inflight g rest
        (ok && (s.checkSlot0 .passes).1)).levels.chainFields.startRebase := by
    have call : exec (.trailerReadBack ok .passes) s = execTrailerReadBack ok .passes s := rfl
    rw [call, execTrailerReadBack, sealing]
    exact if_neg (by simp [free])
  rw [run, State.checkSlot0_passes quiet, Bool.and_true]

/-- What follows a read-back leaves the window and the ring's segments as they are. -/
theorem readBack_ends {c : Instr} {old u : State} (run : exec c s = done old u.levels.chainFields.startRebase) : Answers c s fun t =>
    (∀ g ∈ u.grn.deltas, g ∈ t.grn.deltas) ∧ t.grn.dirty = u.grn.dirty := by
  have fields := State.chainFields_grn u.levels
  have chain := ((KeepsChain.levels u).trans (.of_grn fields)).trans (KeepsChain.startRebase _)
  have window := ((KeepsWindow.levels u).trans (.of_grn fields)).trans (KeepsWindow.startRebase _)
  refine ⟨_, run, ?_⟩
  beta_reduce
  rw [State.settle_grn]
  exact ⟨fun _ => chain.mem_deltas, window.dirty⟩

theorem State.trailerTail_deltas (flight : List (Nat × Bool)) (g : Segment) (rest : List Segment) (ok : Bool) :
    s.readBack g (if ok then SealState.verified else SealState.damaged) ∈ (s.trailerTail flight g rest ok).grn.deltas := by
  have joined : ∀ x : Segment, x ∈ (s.joined rest x).grn.deltas := fun x =>
    List.mem_append_right _ (List.mem_singleton_self x)
  unfold State.trailerTail
  dsimp only
  split
  · exact (KeepsChain.foldl _ _ (fun t p => KeepsChain.clearCopied flight t p) _).mem_deltas (joined _)
  · exact joined _

theorem State.trailerTail_verified (flight : List (Nat × Bool)) (g : Segment) (rest : List Segment) (q : Nat) :
    (s.trailerTail flight g rest true).grn.dirty.mem q =
      (s.grn.dirty.mem q && (decide (q ∉ g.units.map (·.page)) || overtaken flight q)) :=
  State.clearCopied_mem flight _ _ q

theorem State.trailerTail_damaged (flight : List (Nat × Bool)) (g : Segment) (rest : List Segment) :
    (s.trailerTail flight g rest false).grn.dirty = s.grn.dirty := rfl

theorem trailerReadBack_verifies (sealing : s.grn.sealing = g :: rest) (quiet : (144, 0) ∉ s.hub.armed)
    (free : s.urgentWaits (g.seq % s.ringPositions % 64) = false) : Answers (.trailerReadBack true .passes) s fun t =>
      { g with verdict := .verified, ft := s.ftCopy } ∈ t.grn.deltas ∧
      (∀ p : Nat, p ∈ g.units.map (·.page) → (p, true) ∉ s.grn.inflight → t.grn.dirty.mem p = false) ∧
      ∀ p : Nat, (p ∉ g.units.map (·.page) ∨ (p, true) ∈ s.grn.inflight) → t.grn.dirty.mem p = s.grn.dirty.mem p := by
  have run := exec_trailerReadBack sealing quiet free true
  have units := (KeepsWindow.eventRel.sealUnits s 32720 2).dirty
  have copy := s.ftCopy_sealUnits 32720 2
  generalize s.sealUnits 32720 2 = v at run units copy
  refine (readBack_ends run).mono fun t ⟨deltas, dirty⟩ => ?_
  have mem : ∀ q, t.grn.dirty.mem q =
      (s.grn.dirty.mem q && (decide (q ∉ g.units.map (·.page)) || overtaken s.grn.inflight q)) := fun q => by
    rw [dirty, State.trailerTail_verified, units]
  refine ⟨?_, fun p hp clean => ?_, fun p hp => ?_⟩
  · rw [← copy]
    exact deltas _ (State.trailerTail_deltas s.grn.inflight g rest true)
  · rw [mem, Bool.eq_false_iff.2 (mt overtaken_iff.1 clean), decide_eq_false (not_not.2 hp), Bool.or_false, Bool.and_false]
  · have stays : (decide (p ∉ g.units.map (·.page)) || overtaken s.grn.inflight p) = true :=
      Bool.or_eq_true_iff.2 (hp.imp decide_eq_true overtaken_iff.2)
    rw [mem, stays, Bool.and_true]

theorem trailerReadBack_fails (sealing : s.grn.sealing = g :: rest) (quiet : (144, 0) ∉ s.hub.armed)
    (free : s.urgentWaits (g.seq % s.ringPositions % 64) = false) : Answers (.trailerReadBack false .passes) s fun t =>
      { g with verdict := .damaged, ft := s.ftCopy } ∈ t.grn.deltas ∧ t.grn.dirty = s.grn.dirty := by
  have run := exec_trailerReadBack sealing quiet free false
  have units := (KeepsWindow.eventRel.sealUnits s 32720 2).dirty
  have copy := s.ftCopy_sealUnits 32720 2
  generalize s.sealUnits 32720 2 = v at run units copy
  refine (readBack_ends run).mono fun t ⟨deltas, dirty⟩ => ⟨?_, ?_⟩
  · rw [← copy]
    exact deltas _ (State.trailerTail_deltas s.grn.inflight g rest false)
  · rw [dirty, State.trailerTail_damaged, units]

end Trailer

/-! ### A rebase that ends (R355) -/

theorem State.writeRecord_neither (s : State) (event : Nat) (f : ChainRecord → ChainRecord) (c : Dword) :
    s.writeRecord event f (.neither c) = (false, (s.sealUnits 4048 3).raise 105 0 0) := rfl

/-- The slot not in use holds the base, and no rebase is in progress. -/
def State.rebased (s : State) (b : Rebase) : State :=
  if b.slot = 1 then { s with grn := { s.grn with slotA := b.done, rebase := none } }
  else { s with grn := { s.grn with slotB := b.done, rebase := none } }

/-- What a rebase makes of a chain record. -/
def Rebase.record (b : Rebase) (r : ChainRecord) : ChainRecord := { r with baseSlot := b.slot, chainFirst := b.seqS, dumps := 0 }

/-- Segments below a sequence number are reclaimed. -/
def State.reclaimed (s : State) (seq : Nat) : State :=
  { s with grn := { s.grn with deltas := s.grn.deltas.filter (fun g => decide (seq ≤ g.seq)) } }

theorem KeepsChain.rebased (s : State) (b : Rebase) : KeepsChain s (s.rebased b) := by
  unfold State.rebased
  split
  · exact .of_same rfl rfl rfl
  · exact .of_same rfl rfl rfl

theorem State.rebased_pwr (s : State) (b : Rebase) : (s.rebased b).pwr = s.pwr := by
  unfold State.rebased
  split <;> rfl

section RebaseDone

variable {s : State} {b : Rebase} (runs : s.grn.rebase = some b) (copied : s.windowPages ≤ b.nextPage)
include runs copied

theorem exec_rebaseDone (w : CopyResult) : exec (.rebaseDone w) s = done s
    (if ((s.rebased b).writeRecord 4 b.record w).1
      then (((s.rebased b).writeRecord 4 b.record w).2.reclaimed b.seqS).chainFields.startRebase
      else ((s.rebased b).writeRecord 4 b.record w).2) := by
  have call : exec (.rebaseDone w) s = execRebaseDone w s := rfl
  rw [call, execRebaseDone, runs]
  dsimp only
  rw [if_neg (by omega), ← apply_ite (done s)]
  rfl

theorem rebaseDone_records {w : CopyResult} (written : w = .both ∨ w = .one false ∨ w = .one true) :
    Answers (.rebaseDone w) s fun t =>
      (∃ r : ChainRecord, t.chainRecord = some r ∧ r.event = 4 ∧ r.baseSlot = b.slot ∧ r.chainFirst = b.seqS ∧
        r.gen = ((s.chainRecord.map (·.gen)).getD 0) + 1) ∧
      (∀ g ∈ t.grn.deltas, b.seqS ≤ g.seq ∨ g.verdict = .erased) := by
  have run := exec_rebaseDone runs copied w
  rw [if_pos (State.writeRecord_written _ _ _ written)] at run
  have record := (s.rebased b).writeRecord_chainRecord 4 b.record written (fun _ => rfl)
  generalize ((s.rebased b).writeRecord 4 b.record w).2 = v at run record
  have chain := (KeepsChain.of_grn (v.reclaimed b.seqS).chainFields_grn).trans (KeepsChain.startRebase _)
  refine Answers.of_run run ⟨⟨b.record ((s.rebased b).recordBase 4), ?_, rfl, rfl, rfl, ?_⟩, fun g hg => ?_⟩
  · exact Eq.trans (by simp only [State.chainRecord, State.settle_grn]) (chain.chainRecord.trans record)
  · exact ((s.rebased b).recordBase_gen 4).trans (by rw [(KeepsChain.rebased s b).chainRecord])
  · rw [State.settle_grn] at hg
    exact (chain.mem_or_erased hg).imp (fun h => by simpa using (List.mem_filter.1 h).2) id

theorem rebaseDone_fails (hold : s.pwr.hold = true) (c : Dword) : Answers (.rebaseDone (.neither c)) s fun t =>
    t.sticky 105 = true ∧ t.latched = true ∧ t.chainRecord = s.chainRecord := by
  have run : exec (.rebaseDone (.neither c)) s = done s (((s.rebased b).sealUnits 4048 3).raise 105 0 0) :=
    (exec_rebaseDone runs copied (.neither c)).trans (congrArg (done s) (by rw [State.writeRecord_neither, if_neg (by simp)]))
  have power : ((s.rebased b).sealUnits 4048 3).pwr.hold = true :=
    (KeepsPower.sealUnits (s.rebased b) 4048 3).hold.trans (by rw [State.rebased_pwr, hold])
  have chain := ((KeepsChain.rebased s b).trans (KeepsChain.eventRel.sealUnits _ 4048 3)).trans (KeepsChain.raise _ 105 0 0)
  refine Answers.of_run run ⟨?_, ?_, ?_⟩
  · rw [State.sticky_settle]
    exact State.sticky_raise _ power rfl 0 0
  · rw [State.latched, State.flag, (Aside.settle s _).word _ (by simp [requestFields])]
    exact State.raise_latched power rfl rfl 0 0
  · exact Eq.trans (by simp only [State.chainRecord, State.settle_grn]) chain.chainRecord

end RebaseDone

/-- Settles O42: a page in flight with its unit, a rebase's page, a low pass, a segment sealed and read back, and a rebase's record or
its failure. -/
theorem theWinnowerCopiesAndSeals : Obligations.TheWinnowerCopiesAndSeals :=
  ⟨fun _ _ serves ingress precopies free room ring next =>
      winnowerPageCopy_precopies serves ingress precopies free room ring next,
    fun _ _ serves ingress idle runs free more => winnowerPageCopy_rebases serves ingress idle runs free more,
    fun _ _ idle running background fires => winnowerLowPass_takes idle running background fires,
    fun _ _ _ opened due => winnowerSealTimer_seals opened due,
    fun _ _ _ sealing quiet free => ⟨trailerReadBack_verifies sealing quiet free, trailerReadBack_fails sealing quiet free⟩,
    fun _ _ runs copied => ⟨fun _ written => rebaseDone_records runs copied written,
      fun hold c => rebaseDone_fails runs copied hold c⟩⟩

end Sys2Proof.Machine

/-! SUPPORT. Work that leaves window, chain and power as they are, the end of a flash descriptor in the middle of a dump, and what a
MAIN drop leaves. -/

namespace Sys2Proof.Machine

/-! ### Work that leaves window, chain and power (R360, R361) -/

theorem State.returnToService_held {s : State} (h : s.grn.channelDump = true) :
    s.returnToService = (s.unpaused.set F.GRN_STATE_CAUSE 3).setGrn Grn.heldState :=
  if_pos (by change s.unpaused.grn.channelDump = true; rw [State.unpaused_grn, h])

/-- From `s` to `t` the window's maps, the chain records and power are as they were, and the segments that came are unsealed. -/
structure Undisturbed (s t : State) : Prop where
  window : KeepsWindow s t
  chain : KeepsChain s t
  power : KeepsPower s t

namespace Undisturbed

variable {s t u : State}

theorem refl (s : State) : Undisturbed s s := ⟨.refl s, .refl s, .refl s⟩

theorem trans (h : Undisturbed s t) (k : Undisturbed t u) : Undisturbed s u :=
  ⟨h.window.trans k.window, h.chain.trans k.chain, h.power.trans k.power⟩

theorem of_same (grn : t.grn = s.grn) (pwr : t.pwr = s.pwr) : Undisturbed s t := ⟨.of_grn grn, .of_grn grn, .of_pwr pwr⟩

theorem of_flash (h : FlashWork s t) : Undisturbed s t := of_same h.grn h.pwr

theorem foldl {α : Type} (step : State → α → State) (l : List α) (h : ∀ s a, Undisturbed s (step s a)) (s : State) :
    Undisturbed s (l.foldl step s) :=
  List.foldlRecOn l step (motive := fun t => Undisturbed s t) (refl s) fun t ht a _ => ht.trans (h t a)

theorem set (s : State) (f : Field) (v : Nat) : Undisturbed s (s.set f v) := of_same (State.set_grn s f v) (State.set_pwr s f v)

theorem clearLive (s : State) (n : Nat) : Undisturbed s (s.clearLive n) := of_same (by simp) (by simp)

theorem raise (s : State) (n inst word : Nat) : Undisturbed s (s.raise n inst word) :=
  ⟨.raise s n inst word, .raise s n inst word, .raise s n inst word⟩

theorem raiseLive (s : State) (n inst word : Nat) : Undisturbed s (s.raiseLive n inst word) := by
  unfold State.raiseLive
  split
  · exact refl s
  · exact raise s n inst word

theorem bumpN (s : State) {c : Counter} (hc : ∀ g ∈ requestFields, c.count.id ≠ g.id)
    (hs : ∀ g ∈ requestFields, c.sat.id ≠ g.id) (n : Nat) : Undisturbed s (s.bumpN c n) :=
  ⟨KeepsWindow.eventRel.bumpN s c n hc hs, KeepsChain.eventRel.bumpN s c n hc hs, .bumpN s c n⟩

theorem sealUnits (s : State) (len k : Nat) : Undisturbed s (s.sealUnits len k) :=
  ⟨KeepsWindow.eventRel.sealUnits s len k, KeepsChain.eventRel.sealUnits s len k, .sealUnits s len k⟩

theorem chainFields (s : State) : Undisturbed s s.chainFields := (set s _ _).trans (set _ _ _)

theorem sealOpen (s : State) : Undisturbed s s.sealOpen := ⟨.sealOpen s, .sealOpen s, .of_pwr (State.sealOpen_pwr s)⟩

theorem levels (s : State) : Undisturbed s s.levels := by
  obtain ⟨t, ht, hl⟩ := s.levels_cases
  have first : Undisturbed s t := by
    rcases ht with rfl | rfl
    · exact raiseLive s 97 0 0
    · exact clearLive s 97
  rcases hl with h | h | h <;> rw [h]
  · exact first.trans (set _ _ 1)
  · exact first.trans ((set _ _ 0).trans (sealOpen _))
  · exact first

theorem setGrn (s : State) (st : Nat) : Undisturbed s (s.setGrn st) := by
  unfold State.setGrn
  split
  · exact (set s _ st).trans (raiseLive _ 103 0 0)
  · refine ((set s F.GRN_STATE_STATE st).trans (clearLive _ 103)).trans ?_
    unfold State.resumeBackground
    split
    · exact ⟨⟨rfl, fun _ h => h⟩, .of_same rfl rfl rfl, .of_pwr rfl⟩
    · exact refl _

theorem startRebase (s : State) : Undisturbed s s.startRebase := by
  refine ⟨.startRebase s, .startRebase s, .of_pwr ?_⟩
  rcases s.startRebase_cases with h | ⟨b, h⟩ <;> rw [h]
  rw [State.set_pwr]
  exact State.sealOpen_pwr s

theorem unpaused (s : State) : Undisturbed s s.unpaused := of_same s.unpaused_grn (by simp [State.unpaused])

theorem openIngress (s : State) : Undisturbed s s.openIngress := ⟨.openIngress s, .of_same rfl rfl rfl, .of_pwr rfl⟩

theorem returnToService (s : State) : Undisturbed s s.returnToService := by
  cases h : s.grn.channelDump with
  | false =>
    rw [State.returnToService_eq h]
    exact (unpaused s).trans ((openIngress _).trans ((setGrn _ _).trans (startRebase _)))
  | true =>
    rw [State.returnToService_held h]
    exact (unpaused s).trans ((set _ _ 3).trans (setGrn _ _))

/-! ### The end of a descriptor that gives way to a GUARD program (R386, R390) -/

theorem pairError (s : State) (n c : Nat) : Undisturbed s (s.pairError n c) := by
  unfold State.pairError
  split
  · exact (of_same (by simp) (by simp)).trans (raise _ 24 n _)
  · exact refl s

theorem of_mailboxes (h : Frame s t [.mbx] completeFields) : Undisturbed s t :=
  of_same (h.part .grn (by decide)) (h.part .pwr (by decide))

theorem cqFails (s : State) (n : Nat) : Undisturbed s (s.cqFails n) := by
  unfold State.cqFails
  exact (pairError s n 3).trans (of_mailboxes ((Frame.setPair _ _ _ (by simp) _).trans
    ((Frame.foldl _ _ (fun _ _ t => Frame.dropInflight (fun _ h => h) t _) _).trans
      (Frame.finishDrain (by simp) (fun _ h => h) _ _))))

theorem complete (s : State) (a : Accepted) (st r : Nat) : Undisturbed s (s.complete a st r) := by
  unfold State.complete
  split
  · exact of_same (by simp) (by simp)
  · unfold State.pairComplete
    split_ifs
    · exact of_same (by simp) (by simp)
    · exact (of_same (by simp) (by simp)).trans (cqFails _ _)
    · exact of_same (by simp) (by simp)
    · exact of_same (by simp) (by simp)

theorem queueDram (s : State) (dpa : Nat) (cls : DramClass) (kind : DramKind) (hint : Nat) :
    Undisturbed s (s.queueDram dpa cls kind hint) := by
  refine of_same (by simp) ?_
  unfold State.queueDram
  split <;> simp

theorem dramWrite (s : State) (dpa : Nat) (l : Line) (p : Bool) (cls : DramClass) (hint : Nat) (g : Bool) :
    Undisturbed s (s.dramWrite dpa l p cls hint g) := by
  unfold State.dramWrite
  split
  · exact (of_same (State.writeLine_grn _ _ _ _) (State.writeLine_pwr _ _ _ _)).trans (queueDram _ _ _ _ _)
  · exact refl s

theorem dramWriteMasked (s : State) (dpa off : Nat) (b : List Byte) : Undisturbed s (s.dramWriteMasked dpa off b) := by
  have lost : Undisturbed s (s.rmwLost dpa) := by
    unfold State.rmwLost
    split
    · exact bumpN s (c := ⟨F.DMC_RMW_LOST_CNT_COUNT, F.DMC_RMW_LOST_CNT_SAT⟩) (by decide) (by decide) _
    · exact refl s
  unfold State.dramWriteMasked
  split_ifs
  · exact refl s
  · exact lost
  · refine trans ?_ (queueDram _ _ _ _ _)
    exact of_same rfl rfl

theorem dmaWrite (s : State) (dpa : Nat) (b : List Byte) : Undisturbed s (s.dmaWrite dpa b) := by
  refine foldl _ _ (fun t i => ?_) s
  dsimp only
  generalize (if i = 0 then dpa % 64 else 0) = lo
  split
  · exact dramWrite t _ _ _ _ _ _
  · exact dramWriteMasked t _ _ _

theorem endDesc (s : State) (q : Nat) (d : Line) (st loops sector flips flags die start : Nat) (b : List Byte) :
    Undisturbed s (s.endDesc q d st loops sector flips flags die start b) := by
  unfold State.endDesc
  dsimp only
  split
  · split
    · split
      · exact of_same (State.update_grn _ _) (State.update_pwr _ _)
      · exact complete s _ _ _
    · exact refl s
  · split
    · have written : ∀ (t : State) (f : Flash), Undisturbed t { t with flash := f } := fun t f => of_same rfl rfl
      split
      · exact (dmaWrite s _ _).trans ((of_same (State.setN_grn _ _ _ _) (State.setN_pwr _ _ _ _)).trans (written _ _))
      · exact (dmaWrite s _ _).trans (of_same (State.setN_grn _ _ _ _) (State.setN_pwr _ _ _ _))
    · exact refl s

theorem setBlock (s : State) (die pb : Nat) (b : BlockState) : Undisturbed s (s.setBlock die pb b) :=
  of_same (State.set_grn _ _ _) (State.set_pwr _ _ _)

theorem cutErase (s : State) (die pb : Nat) : Undisturbed s (s.cutErase die pb) :=
  (setBlock s die pb .incomplete).trans (of_same rfl rfl)

theorem cutOp (s : State) (die : Nat) (o : DieOp) : Undisturbed s (s.cutOp die o) := by
  unfold State.cutOp
  split_ifs
  · exact foldl _ _ (fun t pb => cutErase t die pb) s
  · exact foldl _ _ (fun t pb => setBlock t die pb .unread) s
  · exact refl s

theorem setDie (s : State) (die : Nat) (r h : Option DieOp) : Undisturbed s (s.setDie die r h) :=
  of_same (s.setDie_grn die r h) (by simp [State.setDie])

end Undisturbed

/-- A less urgent erase of a die is ended by a die reset, and leaves it what `r` and `h` say (R386). -/
def State.giveWay (s : State) (die : Nat) (o r h : Option DieOp) : State :=
  match o with
  | some o =>
    if descOp o.desc == 3 && queueClass o.queue != 0 then
      ((s.cutOp die o).endDesc o.queue o.desc Fs.aborted 0 0 0 0 0 o.start []).setDie die r h
    else s
  | none => s

/-- The suspended erase gives way before the running one. -/
theorem State.guardWrite_eq (s : State) (die : Nat) :
    let t := s.giveWay die (s.flash.held.get? die) (s.flash.running.get? die) none
    s.guardWrite die = t.giveWay die (t.flash.running.get? die) none (t.flash.held.get? die) := rfl

theorem Undisturbed.giveWay (s : State) (die : Nat) (o r h : Option DieOp) : Undisturbed s (s.giveWay die o r h) := by
  unfold State.giveWay
  split
  next o =>
    split
    · exact (cutOp s die o).trans ((endDesc _ _ _ _ _ _ _ _ _ _ _).trans (setDie _ die r h))
    · exact refl s
  next => exact refl s

theorem Undisturbed.guardWrite (s : State) (die : Nat) : Undisturbed s (s.guardWrite die) := by
  rw [State.guardWrite_eq]
  exact (giveWay s die _ _ _).trans (giveWay _ die _ _ _)

end Sys2Proof.Machine

/-! SUPPORT. What a MAIN drop leaves of the Granary, of power and of the fault hub's registers. -/

namespace Sys2Proof.Machine

/-! ### The registers that a reset of MAIN leaves (R469) -/

theorem Store.get?_filter {α : Type} (m : Store α) (p : Nat × α → Bool) {q : Nat} (h : ∀ v, p (q, v) = true) :
    Store.get? (m.filter p) q = Store.get? m q := by
  induction m with
  | nil => rfl
  | cons e m ih =>
    obtain ⟨k, v⟩ := e
    by_cases hk : k = q
    · subst hk
      rw [List.filter_cons, if_pos (h v), Store.get?, Store.get?, if_pos rfl, if_pos rfl]
    · rw [Store.get?, if_neg hk, ← ih, List.filter_cons]
      split
      · rw [Store.get?, if_neg hk]
      · rfl

/-- A key that a reset does not reach. -/
def spares (reach : Group → Option Depth) (k : Nat) : Bool :=
  match fieldOfKey k with
  | some f =>
    match reach (f.group (k % 8192)) with
    | some d => !d.clears f.retain
    | none => true
  | none => true

theorem State.resetRegs_getN (s : State) {reach : Group → Option Depth} {f : Field} {n : Nat} (h : spares reach (f.key n) = true) :
    (s.resetRegs reach).getN f n = s.getN f n :=
  congrArg (Option.getD · (f.reset n)) (Store.get?_filter s.regs _ fun _ => h)

theorem State.applyOptions_getN (s : State) (reach : Group → Option Depth) {g : Field} (h : ∀ f ∈ optionalFields, f.id ≠ g.id)
    (m : Nat) : (s.applyOptions reach).getN g m = s.getN g m := by
  refine List.foldlRecOn optionalFields _ (motive := fun t : State => t.getN g m = s.getN g m) rfl fun t ht f hf => ?_
  refine List.foldlRecOn (List.range f.count) _ (motive := fun t : State => t.getN g m = s.getN g m) ht fun u hu n _ => ?_
  split
  · split
    · rw [State.getN_setN_of_id u (h f hf), hu]
    · exact hu
  · exact hu

theorem mainReach_spares_sticky : spares mainReach (F.FLT_STICKY_STICKY.key (96 / 64)) = true := by decide +kernel

theorem optionalFields_not_sticky : ∀ f ∈ optionalFields, f.id ≠ F.FLT_STICKY_STICKY.id := by decide +kernel

theorem State.sticky_setDigest (s : State) (d : Digest) (n : Nat) : (s.setDigest d).sticky n = s.sticky n := by
  rw [State.setDigest, State.sticky_set _ (by decide), State.sticky_set _ (by decide)]
  exact State.sticky_congr (s := s) rfl n

/-- The function blocks' registers that go with their state (R471). -/
def State.functionQuiet (s : State) : State :=
  (((s.setDigest { s.dge with contexts := s.dge.contexts.filter (fun p => decide (6 ≤ p.1)), waiting := [] }).clearLive 42).clearLive
    50).set F.TLU_STATUS_PRI_STOPPED 0

theorem State.functionQuiet_grn (s : State) : s.functionQuiet.grn = s.grn := by simp [State.functionQuiet]

theorem State.functionQuiet_pwr (s : State) : s.functionQuiet.pwr = s.pwr := by simp [State.functionQuiet]

theorem State.sticky_functionQuiet (s : State) (n : Nat) : s.functionQuiet.sticky n = s.sticky n := by
  rw [State.functionQuiet, State.sticky_set _ (by decide), State.sticky_clearLive, State.sticky_clearLive, State.sticky_setDigest]

theorem State.resetFunction_regs (s : State) : s.resetFunction.regs = s.functionQuiet.regs := rfl

/-! ### MAIN loses its state (R469, R471) -/

/-- MAIN without its registers. -/
def State.mainLost (s : State) : State :=
  let t := ((((s.keepMigrations.resetFunction).resetLink).restartCores).resetTime).loseDeviceDram
  { t with link := { t.link with aerFirst := none } }

theorem State.resetMain_eq (s : State) :
    s.resetMain = ((s.mainLost.resetRegs mainReach).applyOptions mainReach).firmwareStops := rfl

theorem State.mainLost_regs (s : State) : s.mainLost.regs = s.keepMigrations.resetFunction.regs := rfl

theorem State.applyOptions_same {α : Type} (get : State → α) (h : ∀ s f n v, get (State.setN s f n v) = get s) (s : State)
    (reach : Group → Option Depth) : get (s.applyOptions reach) = get s := by
  refine State.foldl_keeps get _ _ (fun t f => State.foldl_keeps get _ _ (fun u n => ?_) t) s
  split
  · split
    · exact h u f n _
    · rfl
  · rfl

theorem State.resetMain_grn (s : State) : s.resetMain.grn = s.mainLost.grn := by
  rw [State.resetMain_eq, State.firmwareStops, State.setAll_grn, State.applyOptions_same State.grn (fun u f n v => by simp)]
  rfl

theorem State.resetMain_pwr (s : State) : s.resetMain.pwr = { s.pwr with d3hot := false } := by
  have lost : s.mainLost.pwr = { s.keepMigrations.functionQuiet.pwr with d3hot := false } := rfl
  rw [State.resetMain_eq, State.firmwareStops, State.setAll_pwr, State.applyOptions_same State.pwr (fun u f n v => by simp)]
  exact lost.trans (by rw [State.functionQuiet_pwr]; rfl)

theorem State.sticky_resetMain (s : State) : s.resetMain.sticky 96 = s.sticky 96 := by
  have options : ((s.mainLost.resetRegs mainReach).applyOptions mainReach).sticky 96 = s.mainLost.sticky 96 := by
    rw [State.sticky, State.applyOptions_getN _ _ optionalFields_not_sticky, State.resetRegs_getN _ mainReach_spares_sticky,
      State.sticky]
  have lost : s.mainLost.sticky 96 = s.sticky 96 := by
    rw [State.sticky_congr s.mainLost_regs, State.sticky_congr (State.resetFunction_regs _), State.sticky_functionQuiet]
    exact State.sticky_congr (s := s) rfl 96
  rw [State.resetMain_eq, State.firmwareStops, State.sticky, State.setAll_getN _ _ (by decide), ← State.sticky, options, lost]

/-- From `s` to `t` nothing of the Granary changed but who waits at it. -/
def Displaced (s t : State) : Prop :=
  ∃ (w g : List Waiter) (r : Nat), t.grn = { s.grn with waiters := w, granted := g, reserved := r }

namespace Displaced

variable {s t u : State}

theorem of_grn (h : t.grn = s.grn) : Displaced s t := ⟨s.grn.waiters, s.grn.granted, s.grn.reserved, h⟩

theorem trans (h : Displaced s t) (k : Displaced t u) : Displaced s u := by
  obtain ⟨w, g, r, h⟩ := h
  obtain ⟨w', g', r', k⟩ := k
  exact ⟨w', g', r', by rw [k, h]⟩

theorem window (h : Displaced s t) : KeepsWindow s t := by
  obtain ⟨w, g, r, h⟩ := h
  exact ⟨by rw [h]; rfl, fun f hf => by rw [h] at hf; exact hf⟩

theorem chain (h : Displaced s t) : KeepsChain s t := by
  obtain ⟨w, g, r, h⟩ := h
  exact .of_same (by rw [h]) (by rw [h]) (by rw [h])

theorem resetFunction (s : State) : Displaced s s.resetFunction :=
  (of_grn (t := s.functionQuiet) s.functionQuiet_grn).trans ⟨_, _, _, rfl⟩

theorem resetLink (s : State) : Displaced s s.resetLink := ⟨_, s.grn.granted, s.grn.reserved, rfl⟩

theorem resetMain (s : State) : Displaced s s.resetMain := by
  have migrations : Displaced s s.keepMigrations := of_grn rfl
  have others : ∀ u : State, u.restartCores.resetTime.loseDeviceDram.grn = u.grn := fun _ => rfl
  have lost : s.mainLost.grn = s.keepMigrations.resetFunction.resetLink.grn := others _
  exact (migrations.trans ((resetFunction _).trans (resetLink _))).trans (of_grn (s.resetMain_grn.trans lost))

end Displaced

/-! ### MAIN drops (R363, R517) -/

/-- MAIN is off, and comes up by a power-up. -/
def State.mainOff (s : State) : State :=
  { s with pwr := { s.pwr with main := false, mainEn := false, mainDue := true, loadCommitted := true } }

theorem State.mainOff_grn (s : State) : s.mainOff.grn = s.grn := rfl

theorem State.mainOff_regs (s : State) : s.mainOff.regs = s.regs := rfl

/-- MAIN_EN is low. -/
def State.mainDisabled (s : State) : State := { s with pwr := { s.pwr with mainEn := false } }

theorem State.dropMain_of_off {s : State} (h : s.pwr.main = false) : s.dropMain = s.mainDisabled := if_pos (by simp [h])

theorem State.dropMain_of_on {s : State} (h : s.pwr.main = true) : s.dropMain = s.resetMain.mainOff.emit .linkIdle :=
  if_neg (by simp [h])

theorem Displaced.dropMain (s : State) : Displaced s s.dropMain := by
  cases h : s.pwr.main with
  | false =>
    rw [State.dropMain_of_off h]
    exact .of_grn rfl
  | true =>
    rw [State.dropMain_of_on h]
    exact (Displaced.resetMain s).trans (.of_grn (by rw [State.emit_grn, State.mainOff_grn]))

theorem State.sticky_dropMain (s : State) : s.dropMain.sticky 96 = s.sticky 96 := by
  cases h : s.pwr.main with
  | false =>
    rw [State.dropMain_of_off h]
    exact State.sticky_congr (s := s) rfl 96
  | true =>
    rw [State.dropMain_of_on h, State.sticky_congr (State.emit_regs _ _), State.sticky_congr (State.mainOff_regs _),
      State.sticky_resetMain]

/-- A MAIN drop leaves power gone or there, and BANK_TEST; MAIN and MAIN_EN are low after it. -/
theorem State.dropMain_pwr (s : State) : s.dropMain.pwr.failed = s.pwr.failed ∧ s.dropMain.pwr.bankTest = s.pwr.bankTest ∧
    s.dropMain.pwr.main = false ∧ s.dropMain.pwr.mainEn = false := by
  cases h : s.pwr.main with
  | false =>
    rw [State.dropMain_of_off h]
    exact ⟨rfl, rfl, h, rfl⟩
  | true =>
    rw [State.dropMain_of_on h, State.emit_pwr, State.mainOff, State.resetMain_pwr]
    exact ⟨rfl, rfl, rfl, rfl⟩

end Sys2Proof.Machine

/-! SUPPORT. The detection of a power failure: what it does before the state word changes, and the dump that it begins. -/

namespace Sys2Proof.Machine

/-! ### Before the state word changes (R33, R362) -/

/-- Power has failed, and no measurement is in progress. -/
structure PowerLost (t : State) : Prop where
  failed : t.pwr.failed = true
  idle : Unmeasured t

namespace PowerLost

variable {s t : State}

theorem of_keeps (h : PowerLost s) (window : KeepsWindow s t) (power : KeepsPower s t) : PowerLost t :=
  ⟨power.failed.trans h.failed, h.idle.of_keeps window power⟩

theorem of_undisturbed (h : PowerLost s) (k : Undisturbed s t) : PowerLost t := h.of_keeps k.window k.power

theorem dropMain (h : PowerLost s) : PowerLost s.dropMain := by
  obtain ⟨failed, test, -, -⟩ := s.dropMain_pwr
  exact ⟨failed.trans h.failed, (Displaced.dropMain s).window.measure.trans h.idle.measure, test.trans h.idle.bankTest⟩

theorem settle (h : PowerLost s) (old : State) : PowerLost (State.settle old s) :=
  ⟨by rw [State.settle_pwr]; exact h.failed, h.idle.settle old⟩

end PowerLost

/-- Power has failed, and HOLD_SEL is high. -/
def State.unpowered (s : State) : State := { s with pwr := { s.pwr with failed := true, holdSel := true } }

/-- Only the descriptors of the GUARD class wait. -/
def State.guardOnly (s : State) : State :=
  { s with flash := { s.flash with fetched := s.flash.fetched.filter (fun p => p.1 < 8) } }

theorem Undisturbed.flashPowerFail (s : State) : Undisturbed s s.flashPowerFail := by
  unfold State.flashPowerFail
  refine trans (t := s.guardOnly) (of_same rfl rfl) (foldl _ _ (fun t p => ?_) s.guardOnly)
  exact (cutOp t p.1 p.2).trans (setDie _ p.1 _ _)

theorem State.stopRetraining_pwr (s : State) : s.stopRetraining.pwr = s.pwr :=
  (State.foldl_keeps State.pwr _ _ (fun t ch => State.setN_pwr t F.DMC_STATUS_RETRAINING ch 0) _).trans rfl

theorem Undisturbed.quieten (s : State) : Undisturbed s s.quieten :=
  ⟨⟨rfl, fun _ h => h⟩, .of_same rfl rfl rfl, .of_pwr s.stopRetraining_pwr⟩

theorem State.powerFails_undisturbed (s : State) : Undisturbed s.unpowered.endMeasure s.powerFails :=
  (Undisturbed.flashPowerFail _).trans (Undisturbed.quieten _)

theorem PowerLost.powerFails (s : State) : PowerLost s.powerFails :=
  PowerLost.of_undisturbed ⟨rfl, Unmeasured.endMeasure s.unpowered⟩ s.powerFails_undisturbed

theorem State.powerFails_hold (s : State) : s.powerFails.pwr.hold = s.pwr.hold := s.powerFails_undisturbed.power.hold

theorem State.powerFails_holdSel (s : State) : s.powerFails.pwr.holdSel = true := s.powerFails_undisturbed.power.holdSel

/-! ### The dump that a detection begins (R362, R363) -/

/-- Power failed during this dump, or before its seal. -/
def State.failedDuring (s : State) : State := { s with pwr := { s.pwr with failedInDump := true } }

/-- Every fetch is over. -/
def State.unfetched (s : State) : State := { s with grn := { s.grn with fetches := [] } }

theorem Undisturbed.unfetched (s : State) : Undisturbed s s.unfetched :=
  ⟨⟨rfl, fun _ h => absurd h List.not_mem_nil⟩, .of_same rfl rfl rfl, .of_pwr rfl⟩

theorem Undisturbed.closeIngress (s : State) : Undisturbed s s.closeIngress :=
  ⟨.closeIngress s, .of_same rfl rfl rfl, .of_pwr rfl⟩

theorem State.failedDuring_during (s : State) : s.failedDuring.pwr.failedInDump = true := rfl

theorem State.failedDuring_holdSel (s : State) : s.failedDuring.pwr.holdSel = s.pwr.holdSel := rfl

theorem State.failedDuring_hold (s : State) : s.failedDuring.pwr.hold = s.pwr.hold := rfl

theorem PowerLost.failedDuring {s : State} (h : PowerLost s) : PowerLost s.failedDuring := ⟨h.failed, h.idle.measure, h.idle.bankTest⟩

theorem PowerLost.beginDump {s : State} (h : PowerLost s) (c : Nat) (p : Bool) : PowerLost (s.beginDump c p) :=
  h.of_keeps (.beginDump s c p) (.of_pwr (State.beginDump_pwr s c p))

section Detection

variable {mv vinNs pulseNs : Nat} {s : State} (hold : s.pwr.hold = true) (armed : s.pwr.armed = true)
  (power : s.pwr.failed = false) (fires : detects mv vinNs pulseNs = true)
include hold armed power fires

/-- Source 96 is raised with power lost, and MAIN may then drop. -/
theorem exec_powerFailDetection : ∃ x : State, PowerLost x ∧ x.pwr.hold = true ∧
    (exec (.powerFailDetection mv vinNs pulseNs) s = done s (x.raise 96 0 0) ∨
      exec (.powerFailDetection mv vinNs pulseNs) s = done s (x.raise 96 0 0).dropMain) := by
  have call : exec (.powerFailDetection mv vinNs pulseNs) s = execPowerFailDetection mv vinNs pulseNs s := rfl
  rw [call, execPowerFailDetection, if_neg (by simp [hold, armed, power, fires])]
  have lost := PowerLost.powerFails s
  have up : s.powerFails.pwr.hold = true := s.powerFails_hold.trans hold
  dsimp only
  generalize s.powerFails = v at lost up
  have begun : ∀ c, (v.beginDump c true).failedDuring.pwr.hold = true := fun c => by
    rw [State.failedDuring_hold, State.beginDump_pwr, up]
  split_ifs
  · exact ⟨(v.beginDump 1 true).failedDuring, (lost.beginDump 1 true).failedDuring, begun 1, .inl rfl⟩
  · exact ⟨v.unfetched.failedDuring, (lost.of_undisturbed (.unfetched v)).failedDuring, up, .inr rfl⟩
  · exact ⟨v.unfetched.failedDuring, (lost.of_undisturbed (.unfetched v)).failedDuring, up, .inl rfl⟩
  · exact ⟨v.unfetched.closeIngress, lost.of_undisturbed ((Undisturbed.unfetched v).trans (.closeIngress _)), up, .inr rfl⟩
  · exact ⟨(v.beginDump 0 true).failedDuring, (lost.beginDump 0 true).failedDuring, begun 0, .inl rfl⟩
  · exact ⟨v, lost, up, .inl rfl⟩

theorem powerFailDetection_loses : Answers (.powerFailDetection mv vinNs pulseNs) s fun t =>
    PowerLost t ∧ t.sticky 96 = true := by
  obtain ⟨x, lost, up, run⟩ := exec_powerFailDetection hold armed power fires
  have raised := lost.of_undisturbed (Undisturbed.raise x 96 0 0)
  have sticky : (x.raise 96 0 0).sticky 96 = true := State.sticky_raise x up rfl 0 0
  rcases run with run | run
  · exact Answers.of_run run ⟨raised.settle s, by rw [State.sticky_settle, sticky]⟩
  · exact Answers.of_run run ⟨raised.dropMain.settle s, by rw [State.sticky_settle, State.sticky_dropMain, sticky]⟩

theorem exec_powerFailDetection_serving (serves : s.grnServes = true) :
    exec (.powerFailDetection mv vinNs pulseNs) s = done s ((s.powerFails.beginDump 1 true).failedDuring.raise 96 0 0) := by
  have call : exec (.powerFailDetection mv vinNs pulseNs) s = execPowerFailDetection mv vinNs pulseNs s := rfl
  have state : s.grnState = Grn.lazy ∨ s.grnState = Grn.ready := by simpa [State.grnServes] using serves
  rw [call, execPowerFailDetection, if_neg (by simp [hold, armed, power, fires])]
  dsimp only
  generalize s.powerFails = v
  rw [if_pos state]
  rfl

end Detection

/-- The state word of a dump that a power failure begins. -/
structure DumpBegun (t : State) : Prop where
  state : t.grnState = Grn.dumping
  cause : t.get F.GRN_STATE_CAUSE = 1
  closed : t.grn.closed = true
  fetches : t.grn.fetches = []

theorem State.beginDump_begins (s : State) : DumpBegun (s.beginDump 1 true) := by
  have begun : s.beginDump 1 true = (((s.closeIngress.abandonSegments.openDump false true).pauseMigrations).set F.GRN_STATE_STATE
    Grn.dumping).set F.GRN_STATE_CAUSE 1 := if_neg (by decide)
  rw [begun]
  constructor
  · rw [State.grnState, State.get_set_of_id _ (by decide), State.get_set_self]
    rfl
  · rw [State.get_set_self]
    rfl
  · rw [State.set_grn, State.set_grn, State.pauseMigrations_grn]
    rfl
  · rw [State.set_grn, State.set_grn, State.pauseMigrations_grn]
    rfl

theorem DumpBegun.failedDuring {s : State} (h : DumpBegun s) : DumpBegun s.failedDuring :=
  ⟨(State.getN_same (s := s) rfl _ 0).trans h.state, (State.getN_same (s := s) rfl _ 0).trans h.cause, h.closed, h.fetches⟩

/-- No event ends the dump or begins another. -/
theorem DumpBegun.raise {s : State} (h : DumpBegun s) {n : Nat} (transient : sourcePersists n = false) (inst word : Nat) :
    DumpBegun (s.raise n inst word) := by
  have spared := Sparing.eventRel.raise s transient inst word (State.grantsDump_of_state h.state (by decide) (by decide))
  refine ⟨spared.state.trans h.state, spared.cause.trans h.cause, spared.closed.trans h.closed, List.eq_nil_iff_forall_not_mem.2 ?_⟩
  intro f hf
  exact absurd ((KeepsWindow.raise s n inst word).fetches f hf) (by rw [h.fetches]; exact List.not_mem_nil)

theorem DumpBegun.settle {s : State} (h : DumpBegun s) (old : State) : DumpBegun (State.settle old s) := by
  have aside := Aside.settle old s
  exact ⟨aside.spared.state.trans h.state, aside.spared.cause.trans h.cause, aside.spared.closed.trans h.closed,
    by rw [State.settle_grn]; exact h.fetches⟩

/-- In LAZY or READY a detection begins a dump with cause 1. -/
theorem powerFailDetection_dumps {mv vinNs pulseNs : Nat} {s : State} (hold : s.pwr.hold = true) (armed : s.pwr.armed = true)
    (power : s.pwr.failed = false) (fires : detects mv vinNs pulseNs = true) (serves : s.grnServes = true) :
    Answers (.powerFailDetection mv vinNs pulseNs) s fun t =>
      DumpBegun t ∧ t.pwr.failedInDump = true ∧ t.pwr.holdSel = true := by
  have run := exec_powerFailDetection_serving hold armed power fires serves
  have select := s.powerFails_holdSel
  generalize s.powerFails = v at run select
  have begun := (v.beginDump_begins.failedDuring.raise (n := 96) (by decide) 0 0).settle s
  have raised := KeepsPower.raise (v.beginDump 1 true).failedDuring 96 0 0
  refine Answers.of_run run ⟨begun, ?_, ?_⟩
  · rw [State.settle_pwr, raised.failedInDump, State.failedDuring_during]
  · rw [State.settle_pwr, raised.holdSel, State.failedDuring_holdSel, State.beginDump_pwr, select]

theorem powerFailDetection_fails {mv vinNs pulseNs : Nat} {s : State} (hold : s.pwr.hold = true) (armed : s.pwr.armed = true)
    (power : s.pwr.failed = false) (fires : detects mv vinNs pulseNs = true) :
    Answers (.powerFailDetection mv vinNs pulseNs) s fun t =>
      t.pwr.failed = true ∧ t.pwr.bankTest = false ∧ t.grn.measure = none ∧ t.sticky 96 = true ∧
      (s.grnServes = true → t.grnState = Grn.dumping ∧ t.get F.GRN_STATE_CAUSE = 1 ∧ t.grn.closed = true ∧
        t.pwr.failedInDump = true ∧ t.pwr.holdSel = true ∧ t.grn.fetches = []) := by
  obtain ⟨t, run, lost, sticky⟩ := powerFailDetection_loses hold armed power fires
  refine ⟨t, run, lost.failed, lost.idle.bankTest, lost.idle.measure, sticky, fun serves => ?_⟩
  obtain ⟨u, run', begun, during, select⟩ := powerFailDetection_dumps hold armed power fires serves
  obtain rfl := Host.Outcome.next.inj (run.symm.trans run')
  exact ⟨begun.state, begun.cause, begun.closed, during, select, begun.fetches⟩

theorem powerFailDetection_idle {mv vinNs pulseNs : Nat} {s : State} (quiet : s.pwr.hold = false ∨ s.pwr.armed = false ∨
    s.pwr.failed = true ∨ detects mv vinNs pulseNs = false) :
    Answers (.powerFailDetection mv vinNs pulseNs) s fun t => Frame s t [] [] := by
  have call : exec (.powerFailDetection mv vinNs pulseNs) s = execPowerFailDetection mv vinNs pulseNs s := rfl
  refine Answers.of_idle (call.trans (if_pos ?_))
  rcases quiet with h | h | h | h <;> simp [h]

end Sys2Proof.Machine

/-! SUPPORT. The end of a dump from outside: parking, a collapse of VHOLD, and power that returns. -/

namespace Sys2Proof.Machine

/-! ### Events while no dump request is granted leave the dump (R28, R362) -/

/-- From `s` to `t` the dump in progress is the same, unless a dump request is granted in `s`. -/
def KeepsDump (s t : State) : Prop := s.grantsDump = false → Spared s t ∧ t.grn.dump = s.grn.dump

theorem KeepsDump.eventRel : EventRel KeepsDump where
  trans h k hs := by
    obtain ⟨spared, dump⟩ := h hs
    obtain ⟨spared', dump'⟩ := k (spared.grantsDump.trans hs)
    exact ⟨spared.trans spared', dump'.trans dump⟩
  aside h _ := ⟨h.spared, by rw [h.grn]⟩
  dump s k hs := by
    rw [State.requestDump_of_not hs]
    exact ⟨Spared.setRefused s, by simp⟩

theorem State.set_grnState (s : State) {st : Nat} (fits : st < 16) : (s.set F.GRN_STATE_STATE st).grnState = st := by
  rw [State.grnState, State.get_set_self]
  exact Nat.mod_eq_of_lt fits

/-- A change of the state word leaves the dump in progress. -/
theorem State.setGrn_dump (s : State) (st : Nat) : (s.setGrn st).grn.dump = s.grn.dump := by
  unfold State.setGrn
  split
  next held =>
    have idle := State.grantsDump_of_state (s.set_grnState (st := st) (by rw [held]; decide)) (by rw [held]; decide)
      (by rw [held]; decide)
    rw [(KeepsDump.eventRel.raiseLive _ (n := 103) (by decide) 0 0 idle).2, State.set_grn]
  next =>
    unfold State.resumeBackground
    split <;> simp

theorem State.startRebase_dump (s : State) : s.startRebase.grn.dump = s.grn.dump := by
  have sealOpen : s.sealOpen.grn.dump = s.grn.dump := by
    unfold State.sealOpen
    split <;> rfl
  rcases s.startRebase_cases with h | ⟨b, h⟩ <;> rw [h]
  rw [State.set_grn]
  exact sealOpen

theorem State.returnToService_dump (s : State) : s.returnToService.grn.dump = s.grn.dump := by
  cases h : s.grn.channelDump with
  | false =>
    rw [State.returnToService_eq h, State.startRebase_dump, State.setGrn_dump]
    exact (congrArg Granary.dump s.unpaused_grn :)
  | true => rw [State.returnToService_held h, State.setGrn_dump, State.set_grn, State.unpaused_grn]

/-! ### Parking (R363) -/

/-- The ranks of CH0 to CH3 that serve go to self-refresh. -/
def State.selfRefreshed (s : State) : State :=
  [0, 1, 2, 3].foldl (fun t ch => (List.range 4).foldl (fun t r =>
    if t.rankInService ch r then
      (t.setN F.DMC_STATUS_PD ch (putBits (t.getN F.DMC_STATUS_PD ch) r 1 0)).setN F.DMC_STATUS_SR ch
        (putBits (t.getN F.DMC_STATUS_SR ch) r 1 1)
    else t) t) s

theorem State.selfRefreshed_same {α : Type} (get : State → α) (h : ∀ s f n v, get (State.setN s f n v) = get s) (s : State) :
    get s.selfRefreshed = get s := by
  refine State.foldl_keeps get _ _ (fun t ch => State.foldl_keeps get _ _ (fun u r => ?_) t) s
  split
  · rw [h, h]
  · rfl

/-- The flash is powered down. -/
def State.flashOff (s : State) : State := { s with flash := { s.flash with off := true } }

theorem parkDone_parks {s : State} (power : s.pwr.failed = true) (main : s.pwr.main = false) (ended : s.grn.dump = none)
    (isSealed : s.grnState = Grn.sealed) : Answers .parkDone s fun t =>
      t.grnState = Grn.parked ∧ t.flash = { s.flash with off := true } ∧ t.grn = s.grn := by
  have run : exec .parkDone s = done s (s.flashOff.selfRefreshed.setGrn Grn.parked) := by
    have call : exec .parkDone s = execParkDone s := rfl
    rw [call, execParkDone]
    dsimp only
    rw [if_pos (by simp [power, main, ended, isSealed]), if_pos isSealed]
    rfl
  have parked : s.flashOff.selfRefreshed.setGrn Grn.parked =
      (s.flashOff.selfRefreshed.set F.GRN_STATE_STATE Grn.parked).clearLive 103 := rfl
  refine Answers.of_run run ⟨?_, ?_, ?_⟩
  · rw [State.grnState, (Aside.settle s _).spared.state]
    exact State.setGrn_state _ (by decide) (by decide)
  · rw [State.settle_flash, parked, State.clearLive_flash, State.set_flash,
      State.selfRefreshed_same State.flash (fun u f n v => by simp)]
    rfl
  · rw [State.settle_grn, parked, State.clearLive_grn, State.set_grn,
      State.selfRefreshed_same State.grn (fun u f n v => by simp)]
    rfl

/-! ### A collapse of VHOLD (R365) -/

/-- Reactions write no register but the two that they may set while no dump request is granted. -/
theorem State.react_get_of_not {s : State} (idle : s.grantsDump = false) (n inst : Nat) (b : Bool) {g : Field}
    (alert : F.MGT_ALERT_FAULT.id ≠ g.id) (refused : F.GRN_STATE_REFUSED.id ≠ g.id) : (s.react n inst b).get g = s.get g := by
  have told : ∀ (t : State) (c : Bool), t.grantsDump = false → (t.reactDump c).get g = t.get g := fun t c ht => by
    unfold State.reactDump
    split
    · rw [State.requestDump_of_not ht, State.get_set_of_id _ refused]
    · rfl
  have alerted : ∀ (t : State) (c : Bool), (t.reactAlert c).get g = t.get g ∧ Aside t (t.reactAlert c) := fun t c => by
    unfold State.reactAlert
    split
    · exact ⟨State.get_set_of_id t alert 1, Aside.set t (by decide) 1⟩
    · exact ⟨rfl, Aside.refl t⟩
  have vector : ∀ (t : State) (c : Bool), Aside t (t.reactVector c) := fun t c => Aside.of_regs (by simp) (by simp) (by simp)
  have trap : ∀ (t : State) (c : Bool), Aside t (t.reactTrap c n inst) := fun t c => Aside.of_regs (by simp) (by simp) (by simp)
  have before : ∀ v a p : Bool, Aside s (((s.reactVector v).reactAlert a).reactTrap p n inst) := fun v a p =>
    ((vector s v).trans (alerted _ a).2).trans (trap _ p)
  rw [State.react, State.get, State.getN_same (State.reactReset_regs _ _ _), ← State.get,
    told _ _ ((before _ _ _).spared.grantsDump.trans idle), State.get, State.getN_same (State.reactTrap_regs _ _ _ _), ← State.get,
    (alerted _ _).1, State.get, State.getN_same (State.reactVector_regs _ _), ← State.get]

/-- The dump in progress is given up. -/
def State.undumped (s : State) : State := { s with grn := { s.grn with dump := none } }

/-- The latch of source 104 as a dump fails on it. -/
structure Collapsed (t : State) : Prop where
  state : t.grnState = Grn.failed
  cause : t.get F.GRN_STATE_CAUSE = 6
  latched : t.latched = true
  source : t.get F.FLT_PERSIST_SOURCE = 104
  dump : t.grn.dump = none

theorem State.failDump_none {s : State} (h : s.grn.dump = none) : s.closeIngress.failDump.grn.dump = none := by
  have closed : s.closeIngress.grn.dump = none := h
  rw [State.failDump]
  dsimp only
  rw [closed]
  split <;> rfl

theorem State.latchPersist_collapses {s : State} (free : s.latched = false) (dump : s.grn.dump = none) :
    Collapsed (s.latchPersist 104) where
  state := by
    rw [State.grnState, State.latchPersist_get free, State.latchSet, (Aside.clearLive _ 103).word _ (by simp [requestFields]),
      State.get_set_of_id _ (by decide), State.get_set_self]
    rfl
  cause := by
    rw [State.latchPersist_get free, State.latchSet, (Aside.clearLive _ 103).word _ (by simp [requestFields]), State.get_set_self]
    rfl
  latched := State.latchPersist_latched s 104
  source := by
    rw [State.latchPersist_get free, State.latchSet, State.get, State.clearLive, State.setBit64, State.getN_setN_of_id _ (by decide),
      ← State.get, State.get_set_of_id _ (by decide), State.get_set_of_id _ (by decide), State.get_set_self]
    rfl
  dump := by
    rw [State.latchPersist_of_not free]
    exact State.failDump_none ((congrArg Granary.dump (s.latchSet_grn 104)).trans dump)

theorem Collapsed.react {s : State} (h : Collapsed s) (n inst : Nat) (b : Bool) : Collapsed (s.react n inst b) := by
  have idle := State.grantsDump_of_latched h.latched
  obtain ⟨spared, dump⟩ := KeepsDump.eventRel.react s n inst b idle
  refine ⟨spared.state.trans h.state, spared.cause.trans h.cause, ?_, ?_, dump.trans h.dump⟩
  · rw [State.latched, State.flag, spared.latched]
    exact h.latched
  · rw [State.react_get_of_not idle _ _ _ (by decide) (by decide), h.source]

theorem vholdCollapse_fails {s : State} (hold : s.pwr.hold = true) (dumping : s.grnState = Grn.dumping)
    (free : s.latched = false) : Answers .vholdCollapse s fun t =>
      t.grnState = Grn.failed ∧ t.get F.GRN_STATE_CAUSE = 6 ∧ t.sticky 104 = true ∧ t.latched = true ∧
      t.get F.FLT_PERSIST_SOURCE = 104 ∧ t.grn.dump = none := by
  have run : exec .vholdCollapse s = done s (s.undumped.raise 104 0 0) := if_pos (by simp [hold, dumping])
  have power : s.undumped.pwr.hold = true := hold
  have idle : s.undumped.grantsDump = false := State.grantsDump_of_state (s := s.undumped) dumping (by decide) (by decide)
  have sticky := State.sticky_raise s.undumped power (n := 104) rfl 0 0
  have captured := KeepsDump.eventRel.captured s.undumped ((sourceInfo 104).get rfl) 104 0 0 idle
  obtain ⟨spared, dump⟩ := captured
  have unlatched : (s.undumped.captured ((sourceInfo 104).get rfl) 104 0 0).latched = false := by
    rw [State.latched, State.flag, spared.latched]
    exact free
  have collapsed := (State.latchPersist_collapses unlatched dump).react 104 0 (!(s.undumped.faultCounted 104).sticky 104)
  rw [← State.raise_latches power rfl rfl] at collapsed
  have aside := Aside.settle s (s.undumped.raise 104 0 0)
  refine Answers.of_run run ⟨aside.spared.state.trans collapsed.state, aside.spared.cause.trans collapsed.cause, ?_, ?_, ?_, ?_⟩
  · rw [State.sticky_settle, sticky]
  · rw [State.latched, State.flag, aside.spared.latched]
    exact collapsed.latched
  · rw [State.get, State.settle_getN _ _ (by unfold Field.outside; decide)]
    exact collapsed.source
  · rw [State.settle_grn, collapsed.dump]

/-! ### Power returns (R516, R517, R521) -/

/-- Power is there, and HOLD_SEL low. -/
def State.repowered (s : State) : State := { s with pwr := { s.pwr with failed := false, holdSel := false } }

/-- MAIN_EN rises, and the flash is powered. -/
def State.mainRises (s : State) : State :=
  { s with pwr := { s.pwr with mainEn := true }, flash := { s.flash with off := false } }

theorem exec_powerReturned {s : State} (gone : s.pwr.failed = true) : exec .powerReturned s = done s
    (if s.grnState = Grn.parked then (s.repowered.mainRises.set F.GRN_STATE_HOLD_RETURN 1).returnToService
      else if s.grn.dump.isSome then s.repowered else s.repowered.mainRises) := by
  have call : exec .powerReturned s = execPowerReturned s := rfl
  rw [call, execPowerReturned, if_neg (by simp [gone]), apply_ite (done s), apply_ite (done s)]
  rfl

/-- The return to service writes no register but those of its state word, its events, paused migrations and a rebase. -/
theorem State.returnToService_get (s : State) {g : Field} (apart : g.outside raiseFields)
    (rebase : F.WIN_STATUS_REBASE_SEG.id ≠ g.id) : s.returnToService.get g = s.get g := by
  have paused : F.DMC_MIGRATE_PAUSED.id ≠ g.id := apart _ (by simp [raiseFields])
  have unpaused : s.unpaused.get g = s.get g :=
    State.foldl_keeps (fun t => t.get g) _ _ (fun t ch => State.getN_setN_of_id t paused ch 0 0) s
  cases h : s.grn.channelDump with
  | true =>
    rw [State.returnToService_held h, State.get, State.setGrn_getN _ _ apart, ← State.get,
      State.get_set_of_id _ (apart _ (by simp [raiseFields])), unpaused]
  | false =>
    have started : ∀ t : State, t.startRebase.get g = t.get g := fun t => by
      rcases t.startRebase_cases with h | ⟨b, h⟩ <;> rw [h]
      rw [State.get_set_of_id _ rebase]
      exact State.getN_same t.sealOpen_regs g 0
    rw [State.returnToService_eq h, started, State.get, State.setGrn_getN _ _ apart]
    exact unpaused

theorem State.returnToService_flash (s : State) : s.returnToService.flash = s.flash := by
  have unpaused : s.unpaused.flash = s.flash := by simp [State.unpaused]
  have started : ∀ t : State, t.startRebase.flash = t.flash := fun t => by
    have opened : t.sealOpen.flash = t.flash := by
      unfold State.sealOpen
      split <;> rfl
    rcases t.startRebase_cases with h | ⟨b, h⟩ <;> rw [h]
    rw [State.set_flash]
    exact opened
  cases h : s.grn.channelDump with
  | true => rw [State.returnToService_held h, State.setGrn_flash, State.set_flash, unpaused]
  | false =>
    rw [State.returnToService_eq h, started, State.setGrn_flash]
    exact unpaused

section Returned

variable {s : State} (gone : s.pwr.failed = true)
include gone

theorem powerReturned_powers : Answers .powerReturned s fun t =>
    t.pwr.failed = false ∧ t.pwr.holdSel = false ∧
    (s.grnState ≠ Grn.parked → s.grn.dump ≠ none → t.pwr.mainEn = s.pwr.mainEn) ∧
    (s.grnState ≠ Grn.parked → s.grn.dump = none → t.pwr.mainEn = true) := by
  have run := exec_powerReturned gone
  refine Answers.of_run run ?_
  rw [State.settle_pwr]
  split_ifs with parked dumping
  · have set := State.set_pwr s.repowered.mainRises F.GRN_STATE_HOLD_RETURN 1
    have kept := (Undisturbed.returnToService (s.repowered.mainRises.set F.GRN_STATE_HOLD_RETURN 1)).power
    exact ⟨kept.failed.trans (congrArg Power.failed set :), kept.holdSel.trans (congrArg Power.holdSel set :),
      fun other => absurd parked other, fun other => absurd parked other⟩
  · exact ⟨rfl, rfl, fun _ _ => rfl, fun _ none => absurd dumping (by simp [none])⟩
  · exact ⟨rfl, rfl, fun _ some => absurd (Option.isSome_iff_ne_none.2 some) dumping, fun _ _ => rfl⟩

theorem powerReturned_serves (parked : s.grnState = Grn.parked) : Answers .powerReturned s fun t =>
    t.get F.GRN_STATE_HOLD_RETURN = 1 ∧ t.pwr.mainEn = true ∧ t.flash.off = false ∧
      (s.grn.channelDump = false → t.grnState = s.serviceState ∧ t.grn.closed = false) := by
  have run := exec_powerReturned gone
  rw [if_pos parked] at run
  have shown : (s.repowered.mainRises.set F.GRN_STATE_HOLD_RETURN 1).get F.GRN_STATE_HOLD_RETURN = 1 := by
    rw [State.get_set_self]
    rfl
  have grn : (s.repowered.mainRises.set F.GRN_STATE_HOLD_RETURN 1).grn = s.grn := State.set_grn _ _ _
  have power : (s.repowered.mainRises.set F.GRN_STATE_HOLD_RETURN 1).pwr.mainEn = true :=
    (congrArg Power.mainEn (State.set_pwr _ _ _) :)
  have flash : (s.repowered.mainRises.set F.GRN_STATE_HOLD_RETURN 1).flash.off = false :=
    (congrArg Flash.off (State.set_flash _ _ _) :)
  generalize s.repowered.mainRises.set F.GRN_STATE_HOLD_RETURN 1 = v at run shown grn power flash
  have aside := Aside.settle s v.returnToService
  refine Answers.of_run run ⟨?_, ?_, ?_, fun channel => ?_⟩
  · rw [State.settle_get_apart _ _ (by decide), State.returnToService_get _ (Field.outside_of_apart (by decide)).2 (by decide), shown]
  · rw [State.settle_pwr, (Undisturbed.returnToService v).power.mainEn, power]
  · rw [State.settle_flash, State.returnToService_flash, flash]
  · rw [← grn] at channel
    obtain ⟨state, closed⟩ := State.returnToService_serves channel
    have service : v.serviceState = s.serviceState := by rw [State.serviceState, grn, State.serviceState]
    exact ⟨(aside.spared.state.trans state).trans service, aside.spared.closed.trans closed⟩

theorem powerReturned_returns : Answers .powerReturned s fun t =>
    t.pwr.failed = false ∧ t.pwr.holdSel = false ∧
    (s.grnState = Grn.parked → t.get F.GRN_STATE_HOLD_RETURN = 1 ∧ t.pwr.mainEn = true ∧ t.flash.off = false ∧
      (s.grn.channelDump = false → t.grnState = s.serviceState ∧ t.grn.closed = false)) ∧
    (s.grnState ≠ Grn.parked → s.grn.dump ≠ none → t.pwr.mainEn = s.pwr.mainEn) ∧
    (s.grnState ≠ Grn.parked → s.grn.dump = none → t.pwr.mainEn = true) := by
  obtain ⟨t, run, failed, select, dumping, idle⟩ := powerReturned_powers gone
  refine ⟨t, run, failed, select, fun parked => ?_, dumping, idle⟩
  obtain ⟨u, run', serves⟩ := powerReturned_serves gone parked
  obtain rfl := Host.Outcome.next.inj (run.symm.trans run')
  exact serves

end Returned

end Sys2Proof.Machine

/-! SUPPORT. The steps of a dump: its DUMP_OPEN record and manifest, its segments, and its seal. -/

namespace Sys2Proof.Machine

/-! ### Segments that are written (R359, R386) -/

/-- From `s` to `t` the dirty map, the chain records and power are as they were. -/
structure SegmentWork (s t : State) : Prop where
  dirty : t.grn.dirty = s.grn.dirty
  rec0 : t.grn.rec0 = s.grn.rec0
  rec1 : t.grn.rec1 = s.grn.rec1
  power : KeepsPower s t

namespace SegmentWork

variable {s t u : State}

theorem refl (s : State) : SegmentWork s s := ⟨rfl, rfl, rfl, .refl s⟩

theorem trans (h : SegmentWork s t) (k : SegmentWork t u) : SegmentWork s u :=
  ⟨k.dirty.trans h.dirty, k.rec0.trans h.rec0, k.rec1.trans h.rec1, h.power.trans k.power⟩

theorem of_undisturbed (h : Undisturbed s t) : SegmentWork s t := ⟨h.window.dirty, h.chain.rec0, h.chain.rec1, h.power⟩

theorem chainRecord (h : SegmentWork s t) : t.chainRecord = s.chainRecord := by
  simp only [State.chainRecord, h.rec0, h.rec1]

end SegmentWork

/-- A segment has joined the ring. -/
def State.appended (s : State) (g : Segment) : State :=
  { s with grn := { s.grn with deltas := s.grn.deltas ++ [g], nextSeq := s.grn.nextSeq + 1 } }

theorem SegmentWork.appended (s : State) (g : Segment) : SegmentWork s (s.appended g) := ⟨rfl, rfl, rfl, .of_pwr rfl⟩

theorem State.mem_appended (s : State) (g : Segment) : g ∈ (s.appended g).grn.deltas :=
  List.mem_append_right _ (List.mem_singleton_self g)

theorem Undisturbed.placed (s : State) (seq die : Nat) : Undisturbed s ((s.openPosition seq).guardWrite die) :=
  (of_flash (FlashWork.openPosition s seq)).trans (guardWrite _ die)

/-- Before it joins the ring a segment's place is made, and its seal computed. -/
theorem State.writeSegment_eq (s : State) (kind : SegKind) (units : List VaultUnit) : ∃ v x : State, Undisturbed s v ∧
    Undisturbed v x ∧ s.writeSegment kind units = (x.appended (v.newSegment kind units .verified)).chainFields :=
  ⟨_, _, .placed s _ _, .sealUnits _ 32720 1, rfl⟩

theorem SegmentWork.writeSegment (s : State) (kind : SegKind) (units : List VaultUnit) : SegmentWork s (s.writeSegment kind units) := by
  obtain ⟨v, x, placed, units, write⟩ := s.writeSegment_eq kind units
  rw [write]
  exact (of_undisturbed (placed.trans units)).trans ((appended x _).trans (of_undisturbed (.chainFields _)))

theorem SegmentWork.writeSegments (kind : SegKind) (n : Nat) (us : List VaultUnit) (s : State) :
    SegmentWork s (s.writeSegments kind n us) := by
  induction n generalizing s us with
  | zero => exact refl s
  | succ n ih =>
    rw [State.writeSegments]
    split
    · exact refl s
    · exact (writeSegment s kind _).trans (ih _ _)

/-- The segment written takes the next sequence number. -/
theorem State.writeSegment_mem (s : State) (kind : SegKind) (units : List VaultUnit) :
    ∃ g ∈ (s.writeSegment kind units).grn.deltas, g.seq = s.grn.nextSeq ∧ g.verdict = .verified ∧ g.units = units := by
  obtain ⟨v, x, placed, -, write⟩ := s.writeSegment_eq kind units
  refine ⟨v.newSegment kind units .verified, ?_, (congrArg Granary.nextSeq placed.window.core :), rfl, rfl⟩
  rw [write]
  exact (Undisturbed.chainFields _).chain.mem_deltas (x.mem_appended _)

/-! ### The DUMP_OPEN record and the manifest (R363) -/

theorem KeepsPower.writeRecord (s : State) (event : Nat) (f : ChainRecord → ChainRecord) (w : CopyResult) :
    KeepsPower s (s.writeRecord event f w).2 := by
  have shown : ∀ (t : State) (a b : List ChainRecord) (r : ChainRecord), ((t.withRecords a b).showRecord r).pwr = t.pwr :=
    fun t a b r => by
      rw [State.showRecord, State.chainFields, State.set_pwr, State.set_pwr, State.setAll_pwr]
      rfl
  obtain h | ⟨a, b, r, h⟩ := s.writeRecord_cases event f w <;> rw [h]
  · exact (sealUnits s 4048 3).trans (raise _ 105 0 0)
  · exact (sealUnits s 4048 3).trans (of_pwr (shown _ a b r))

/-- MAIN drops where power failed during the dump. -/
def State.dumpPowered (s : State) : State := if s.pwr.failedInDump then s.dropMain else s

theorem State.dumpPowered_displaced (s : State) : Displaced s s.dumpPowered := by
  unfold State.dumpPowered
  split
  · exact Displaced.dropMain s
  · exact .of_grn rfl

theorem Displaced.nextSeq {s t : State} (h : Displaced s t) : t.grn.nextSeq = s.grn.nextSeq := by
  obtain ⟨w, g, r, h⟩ := h
  rw [h]

/-- The dump in progress. -/
def State.withDump (s : State) (d : Dump) : State := { s with grn := { s.grn with dump := some d } }

/-- The record of a dump's start. -/
def openRecord (first : Nat) (r : ChainRecord) : ChainRecord := { r with dumpFirst := first }

/-- What the record of a dump's start leaves. -/
def State.dumpRecorded (s : State) (w : CopyResult) : Bool × State :=
  s.dumpPowered.writeRecord 2 (openRecord s.dumpPowered.grn.nextSeq) w

theorem exec_dumpDrainDone {s : State} {d : Dump} {w : CopyResult} (dumps : s.grn.dump = some d) (fresh : d.opened = false)
    (drained : s.grn.landing.any s.drains = false) (up : s.groupUp .h = true)
    (written : w = .both ∨ w = .one false ∨ w = .one true) : exec (.dumpDrainDone w) s = done s
      (((s.dumpRecorded w).2.writeSegments .manifest (s.dumpRecorded w).2.manifestUnits.length (s.dumpRecorded w).2.manifestUnits).withDump
        { d with opened := true, first := s.dumpPowered.grn.nextSeq, nextPage := 0 }) := by
  have call : exec (.dumpDrainDone w) s = execDumpDrainDone w s := rfl
  have record : (s.dumpRecorded w).1 = true := State.writeRecord_written _ _ _ written
  rw [call, execDumpDrainDone, dumps]
  refine (if_neg (by simp [fresh, drained, up])).trans (if_pos ?_)
  exact record

theorem dumpDrainDone_opens {s : State} {d : Dump} {w : CopyResult} (dumps : s.grn.dump = some d) (fresh : d.opened = false)
    (drained : s.grn.landing.any s.drains = false) (up : s.groupUp .h = true)
    (written : w = .both ∨ w = .one false ∨ w = .one true) : Answers (.dumpDrainDone w) s fun t =>
      t.grn.dump = some { d with opened := true, first := s.grn.nextSeq, nextPage := 0 } ∧
      (∃ r : ChainRecord, t.chainRecord = some r ∧ r.event = 2 ∧ r.dumpFirst = s.grn.nextSeq) ∧
      (s.pwr.failedInDump = true → t.pwr.mainEn = false ∧ t.pwr.main = false) ∧ t.grn.dirty = s.grn.dirty := by
  have run := exec_dumpDrainDone dumps fresh drained up written
  have displaced := s.dumpPowered_displaced
  have record : (s.dumpRecorded w).2.chainRecord = some (openRecord s.dumpPowered.grn.nextSeq (s.dumpPowered.recordBase 2)) :=
    State.writeRecord_chainRecord _ _ _ written fun _ => rfl
  have window : KeepsWindow s.dumpPowered (s.dumpRecorded w).2 := KeepsWindow.writeRecord _ _ _ w
  have power : KeepsPower s.dumpPowered (s.dumpRecorded w).2 := KeepsPower.writeRecord _ _ _ w
  have off : s.pwr.failedInDump = true → s.dumpPowered.pwr.mainEn = false ∧ s.dumpPowered.pwr.main = false := fun during => by
    obtain ⟨-, -, main, mainEn⟩ := s.dropMain_pwr
    rw [State.dumpPowered, if_pos during]
    exact ⟨mainEn, main⟩
  generalize (s.dumpRecorded w).2 = v at run record window power
  have work := SegmentWork.writeSegments .manifest v.manifestUnits.length v.manifestUnits v
  refine Answers.of_run run ⟨?_, ⟨openRecord s.dumpPowered.grn.nextSeq (s.dumpPowered.recordBase 2), ?_, rfl,
    displaced.nextSeq⟩, fun during => ?_, ?_⟩
  · rw [State.settle_grn, ← displaced.nextSeq]
    rfl
  · exact Eq.trans (by simp only [State.chainRecord, State.settle_grn]; rfl) (work.chainRecord.trans record)
  · obtain ⟨mainEn, main⟩ := off during
    rw [State.settle_pwr]
    exact ⟨work.power.mainEn.trans (power.mainEn.trans mainEn), work.power.main.trans (power.main.trans main)⟩
  · rw [State.settle_grn]
    exact work.dirty.trans (window.dirty.trans displaced.window.dirty)

/-! ### The segments of a dump (R363) -/

theorem State.recordLoss_dirty (s : State) (cause : Field) (page : Nat) : (s.recordLoss cause page).grn.dirty = s.grn.dirty := by
  have counted : (s.lossCounted cause page).grn.dirty = s.grn.dirty := by
    have noted : ∀ t : State, (t.withLoss cause page).grn.dirty = t.grn.dirty := fun _ => rfl
    rw [State.lossCounted, noted, State.set_grn, State.set_grn, State.set_grn]
  rw [State.recordLoss_eq]
  split
  · exact counted
  · rw [(KeepsWindow.raise _ 102 0 0).dirty]
    exact (congrArg Granary.dirty (State.set_grn _ F.GRN_STATE_LOSS 1) :).trans counted

theorem KeepsChain.recordLoss (s : State) (cause : Field) (page : Nat) : KeepsChain s (s.recordLoss cause page) := by
  have noted : ∀ t : State, KeepsChain t (t.withLoss cause page) := fun t => .of_same rfl rfl rfl
  have dirtied : ∀ t : State, KeepsChain t t.dirtied := fun t => .of_same rfl rfl rfl
  have counted : KeepsChain s (s.lossCounted cause page) :=
    (KeepsChain.of_grn (by rw [State.set_grn, State.set_grn, State.set_grn])).trans (noted _)
  rw [State.recordLoss_eq]
  split
  · exact counted
  · exact (counted.trans (.of_grn (State.set_grn _ F.GRN_STATE_LOSS 1))).trans ((dirtied _).trans (.raise _ 102 0 0))

/-- The reads of the pages that are written whole take their places. -/
def State.dumpRead (s : State) (unrestored : PageSet) (pages : List Nat) : State :=
  pages.foldl (fun t p => if unrestored.mem p then t else t.queuePage .guard p) s

/-- The pages on a FAILED channel are lost. -/
def State.dumpLost (s : State) (pages : List Nat) : State :=
  pages.foldl (fun t p => if t.pageFailed p then t.recordLoss F.GRN_LOSS_CHANNEL p else t) s

theorem State.dumpRead_grn (s : State) (unrestored : PageSet) (pages : List Nat) : (s.dumpRead unrestored pages).grn = s.grn :=
  State.foldl_keeps State.grn _ pages (fun t p => by split <;> simp) s

theorem State.dumpLost_dirty (s : State) (pages : List Nat) : (s.dumpLost pages).grn.dirty = s.grn.dirty := by
  refine State.foldl_keeps (fun t => t.grn.dirty) _ pages (fun t p => ?_) s
  split
  · exact t.recordLoss_dirty _ p
  · rfl

theorem KeepsChain.dumpLost (s : State) (pages : List Nat) : KeepsChain s (s.dumpLost pages) := by
  refine KeepsChain.foldl _ pages (fun t p => ?_) s
  split
  · exact .recordLoss t _ p
  · exact .refl t

theorem State.dumpUnit_page (s : State) (page : Nat) : (s.dumpUnit page).page = page := by
  unfold State.dumpUnit
  split <;> rfl

theorem State.dumpUnits_pages (s : State) (pages : List Nat) : (pages.map s.dumpUnit).map (·.page) = pages := by
  rw [List.map_map]
  exact (List.map_congr_left fun p _ => s.dumpUnit_page p).trans (List.map_id' pages)

/-- A segment takes the next dirty pages. -/
theorem dumpSegmentSealed_takes {s : State} {d : Dump} (dumps : s.grn.dump = some d) (opened : d.opened = true)
    (room : s.ringUsed < s.ringSize) {pages : List Nat} (next : s.dirtyFrom segPages d.nextPage = pages) (some : pages ≠ []) :
    Answers .dumpSegmentSealed s fun t =>
      t.grn.dump = Option.some { d with nextPage := pages.getLastD 0 + 1 } ∧
      (∃ g ∈ t.grn.deltas, g.seq = s.grn.nextSeq ∧ g.verdict = .verified ∧ g.units.map (·.page) = pages) ∧
      t.grn.dirty = s.grn.dirty := by
  have run : exec .dumpSegmentSealed s = done s
      ((((s.writeSegment .dump (pages.map s.dumpUnit)).dumpRead s.grn.unrestored pages).dumpLost pages).withDump
        { d with nextPage := pages.getLastD 0 + 1 }) := by
    have call : exec .dumpSegmentSealed s = execDumpSegmentSealed s := rfl
    rw [call, execDumpSegmentSealed, dumps]
    dsimp only
    rw [next]
    exact if_neg (by simp [opened, some, room])
  obtain ⟨g, member, seq, verdict, units⟩ := s.writeSegment_mem .dump (pages.map s.dumpUnit)
  have written := SegmentWork.writeSegment s .dump (pages.map s.dumpUnit)
  generalize s.writeSegment .dump (pages.map s.dumpUnit) = v at run member written
  have read := v.dumpRead_grn s.grn.unrestored pages
  generalize v.dumpRead s.grn.unrestored pages = x at run read
  have lost := (KeepsChain.of_grn read).trans (KeepsChain.dumpLost x pages)
  have dirty : (x.dumpLost pages).grn.dirty = s.grn.dirty := by rw [x.dumpLost_dirty, read, written.dirty]
  refine Answers.of_run run ?_
  rw [State.settle_grn]
  exact ⟨rfl, ⟨g, lost.mem_deltas member, seq, verdict, by rw [units, s.dumpUnits_pages]⟩, dirty⟩

/-! ### The seal of a dump (R363, R377) -/

/-- No dump is in progress, and power has failed during none. -/
def State.dumpEnded (s : State) : State :=
  { s with pwr := { s.pwr with failedInDump := false }, grn := { s.grn with dump := none } }

/-- MAIN_EN rises. -/
def State.mainEnabled (s : State) : State := { s with pwr := { s.pwr with mainEn := true } }

theorem State.afterSeal_eq (s : State) (d : Dump) : s.afterSeal d =
    if d.inFailed then (if s.pwr.failed then s.dumpEnded else s.dumpEnded.mainEnabled)
    else if s.pwr.failedInDump then
      (if s.pwr.failed then s.dumpEnded.setGrn Grn.sealed else s.dumpEnded.mainEnabled.returnToService)
    else if s.grn.channelDump then s.dumpEnded.setGrn Grn.heldState else s.dumpEnded.setGrn Grn.sealed := rfl

/-- In `t` the dump of `s` is over, with the window's maps and the chain as they were. -/
structure DumpOver (s t : State) : Prop where
  dump : t.grn.dump = none
  during : t.pwr.failedInDump = false
  dirty : t.grn.dirty = s.grn.dirty
  chain : KeepsChain s t

namespace DumpOver

variable {s t u : State}

theorem dumpEnded (s : State) : DumpOver s s.dumpEnded := ⟨rfl, rfl, rfl, .of_same rfl rfl rfl⟩

theorem mainEnabled (h : DumpOver s t) : DumpOver s t.mainEnabled := ⟨h.dump, h.during, h.dirty, h.chain.trans (.of_same rfl rfl rfl)⟩

theorem step (h : DumpOver s t) (k : Undisturbed t u) (dump : u.grn.dump = t.grn.dump) : DumpOver s u :=
  ⟨dump.trans h.dump, k.power.failedInDump.trans h.during, k.window.dirty.trans h.dirty, h.chain.trans k.chain⟩

theorem setGrn (h : DumpOver s t) (st : Nat) : DumpOver s (t.setGrn st) := h.step (.setGrn t st) (t.setGrn_dump st)

theorem returnToService (h : DumpOver s t) : DumpOver s t.returnToService := h.step (.returnToService t) t.returnToService_dump

theorem afterSeal (s : State) (d : Dump) : DumpOver s (s.afterSeal d) := by
  have ended := DumpOver.dumpEnded s
  rw [State.afterSeal_eq]
  split_ifs
  · exact ended
  · exact ended.mainEnabled
  · exact ended.setGrn _
  · exact ended.mainEnabled.returnToService
  · exact ended.setGrn _
  · exact ended.setGrn _

end DumpOver

theorem State.afterSeal_sealed {s : State} {d : Dump} (sound : d.inFailed = false) (during : s.pwr.failedInDump = true)
    (gone : s.pwr.failed = true) : (s.afterSeal d).grnState = Grn.sealed := by
  rw [State.afterSeal_eq, if_neg (by simp [sound]), if_pos during, if_pos gone]
  exact State.setGrn_state _ (by decide) (by decide)

/-- DUMP_LAST, which is free for a dump without a segment. -/
def State.dumpLast (s : State) (d : Dump) : Nat × State := if d.first = s.grn.nextSeq then s.fresh else (s.grn.nextSeq - 1, s)

/-- The record of a seal. -/
def Dump.record (d : Dump) (last : Nat) (r : ChainRecord) : ChainRecord :=
  { r with dumpFirst := d.first, dumpLast := last, dumps := min 0xFFFF (r.dumps + 1) }

/-- The dirty map is empty. -/
def State.undirtied (s : State) : State := { s with grn := { s.grn with dirty := [] } }

theorem State.dumpLast_undisturbed (s : State) (d : Dump) : Undisturbed s (s.dumpLast d).2 := by
  unfold State.dumpLast
  split
  · exact .of_same rfl rfl
  · exact .refl s

section Sealed

variable {s : State} {d : Dump} {w : CopyResult} (dumps : s.grn.dump = some d) (opened : d.opened = true)
  (clean : s.grn.dirty.firstFrom d.nextPage = none) (written : w = .both ∨ w = .one false ∨ w = .one true)
include dumps opened clean written

theorem exec_dumpSealed : exec (.dumpSealed w) s = done s
    ((((s.dumpLast d).2.writeRecord 3 (d.record (s.dumpLast d).1) w).2.bump C.grnDump).undirtied.levels.afterSeal d) := by
  have call : exec (.dumpSealed w) s = execDumpSealed w s := rfl
  have record : ((s.dumpLast d).2.writeRecord 3 (d.record (s.dumpLast d).1) w).1 = true := State.writeRecord_written _ _ _ written
  rw [call, execDumpSealed, dumps]
  refine (if_neg (by simp [opened, clean])).trans (if_pos ?_)
  exact record

theorem dumpSealed_ends : Answers (.dumpSealed w) s fun t =>
    t.grn.dirty = [] ∧ t.grn.dump = none ∧ t.pwr.failedInDump = false ∧
    (∃ r : ChainRecord, t.chainRecord = some r ∧ r.event = 3 ∧ r.dumpFirst = d.first ∧
      (d.first ≠ s.grn.nextSeq → r.dumpLast = s.grn.nextSeq - 1)) ∧
    (d.inFailed = false → s.pwr.failedInDump = true → s.pwr.failed = true → t.grnState = Grn.sealed) := by
  have run := exec_dumpSealed dumps opened clean written
  have last := s.dumpLast_undisturbed d
  have first : d.first ≠ s.grn.nextSeq → (s.dumpLast d).1 = s.grn.nextSeq - 1 := fun h => congrArg Prod.fst (if_neg h)
  have record := (s.dumpLast d).2.writeRecord_chainRecord 3 (d.record (s.dumpLast d).1) written fun _ => rfl
  have power := last.power.trans (KeepsPower.writeRecord (s.dumpLast d).2 3 (d.record (s.dumpLast d).1) w)
  generalize ((s.dumpLast d).2.writeRecord 3 (d.record (s.dumpLast d).1) w).2 = v at run record power
  have bumped : Undisturbed v (v.bump C.grnDump) := .bumpN v (by decide) (by decide) 0
  generalize v.bump C.grnDump = x at run bumped
  have emptied : KeepsChain x x.undirtied := .of_same rfl rfl rfl
  have levels := Undisturbed.levels x.undirtied
  have ended := DumpOver.afterSeal x.undirtied.levels d
  have chain := ((bumped.chain.trans emptied).trans levels.chain).trans ended.chain
  have kept : KeepsPower s x.undirtied.levels := (power.trans bumped.power).trans ((KeepsPower.of_pwr rfl).trans levels.power)
  have aside := Aside.settle s (x.undirtied.levels.afterSeal d)
  refine Answers.of_run run ⟨?_, ?_, ?_, ⟨d.record (s.dumpLast d).1 ((s.dumpLast d).2.recordBase 3), ?_, rfl, rfl, first⟩,
    fun sound during gone => ?_⟩
  · rw [aside.grn, ended.dirty, levels.window.dirty]
    rfl
  · rw [aside.grn, ended.dump]
  · rw [State.settle_pwr, ended.during]
  · exact Eq.trans (by simp only [State.chainRecord, State.settle_grn]) (chain.chainRecord.trans record)
  · exact aside.spared.state.trans (State.afterSeal_sealed sound (kept.failedInDump.trans during) (kept.failed.trans gone))

end Sealed

/-- Settles O43: a detection that fires loses power and begins a dump; the dump's record, its segments and its seal; parking, a
collapse, and power that returns. -/
theorem powerFailureDumps : Obligations.PowerFailureDumps :=
  ⟨fun _ _ _ _ hold armed power fires => powerFailDetection_fails hold armed power fires,
    fun _ _ _ _ quiet => powerFailDetection_idle quiet,
    fun _ _ _ dumps fresh drained up written => dumpDrainDone_opens dumps fresh drained up written,
    fun _ _ dumps opened room some => dumpSegmentSealed_takes dumps opened room rfl some,
    fun _ _ _ dumps opened clean written => dumpSealed_ends dumps opened clean written,
    fun _ power main ended isSealed => parkDone_parks power main ended isSealed,
    fun _ hold dumping free => vholdCollapse_fails hold dumping free,
    fun _ gone => powerReturned_returns gone⟩

end Sys2Proof.Machine

/-! SUPPORT. The flash controller's descriptors: those that a doorbell fetches, the journal's entries, and how a die starts or
refuses the one that it takes next. -/

namespace Sys2Proof.Machine

theorem Frame.withFlash (s : State) (f : Flash) {ps : List Part} (h : .flash ∈ ps) (fs : List Field) :
    Frame s { s with flash := f } ps fs := (FlashWork.withFlash s f).frame h fs

/-! ### Requests in the banks' queues (R308, R329) -/

theorem Frame.queueDram (s : State) (dpa : Nat) (cls : DramClass) (kind : DramKind) (hint : Nat) {ps : List Part} {fs : List Field}
    (hp : .dram ∈ ps) (pd : F.DMC_STATUS_PD ∈ fs) (sr : F.DMC_STATUS_SR ∈ fs) :
    Frame s (s.queueDram dpa cls kind hint) ps fs := by
  unfold State.queueDram
  split
  · exact ((Frame.withDram s _ hp fs).trans (Frame.setN _ _ _ _ pd)).trans (Frame.setN _ _ _ _ sr)
  · exact Frame.refl s ps fs

theorem Frame.queueLines (s : State) (dpas : List Nat) (cls : DramClass) (kind : DramKind) (hint : Nat) {ps : List Part}
    {fs : List Field} (hp : .dram ∈ ps) (pd : F.DMC_STATUS_PD ∈ fs) (sr : F.DMC_STATUS_SR ∈ fs) :
    Frame s (s.queueLines dpas cls kind hint) ps fs := Frame.foldl _ _ (fun _ _ t => Frame.queueDram t _ _ _ _ hp pd sr) s

theorem State.queueLines_flash (s : State) (dpas : List Nat) (cls : DramClass) (kind : DramKind) (hint : Nat) :
    (s.queueLines dpas cls kind hint).flash = s.flash :=
  (Frame.queueLines s dpas cls kind hint (ps := [.dram]) (fs := [F.DMC_STATUS_PD, F.DMC_STATUS_SR]) (by simp) (by simp)
    (by simp)).part .flash (by decide)

theorem State.queueLines_cells (s : State) (dpas : List Nat) (cls : DramClass) (kind : DramKind) (hint : Nat) :
    (s.queueLines dpas cls kind hint).dram.cells = s.dram.cells := by
  refine State.foldl_keeps (fun t : State => t.dram.cells) _ _ (fun t dpa => ?_) s
  unfold State.queueDram
  split <;> simp

/-! ### Doorbells of flash queues (R384) -/

section Doorbell

variable {q : BitVec 5} {tail : BitVec 10} {s : State}

/-- The places of a ring, and the next of them to fetch from (R384). -/
def State.flqSize (s : State) (n : Nat) : Nat := 2 ^ max 4 (min 10 (s.getN F.FLQ_CFG_SIZE_LOG n))
def State.flqHead (s : State) (n : Nat) : Nat := s.getN F.FLQ_PTRS_HEAD n % s.flqSize n

/-- How many descriptors TAIL adds, and the address of the `i`th. -/
def State.flqNew (s : State) (n tail : Nat) : Nat := (tail % s.flqSize n + s.flqSize n - s.flqHead n) % s.flqSize n
def State.flqPlace (s : State) (n i : Nat) : Nat :=
  s.getN F.FLQ_SQ_BASE_BASE n * 4096 + 64 * ((s.flqHead n + i) % s.flqSize n)

/-- The descriptors that TAIL adds. -/
def State.flqFetched (s : State) (n tail : Nat) : List (Nat × Line) :=
  (List.range (s.flqNew n tail)).map (fun i => (n, (s.dramRead (s.flqPlace n i) false).1))

/-- The reads of those descriptors are queued. -/
def State.flqReads (s : State) (n tail : Nat) : State :=
  (s.setN F.FLQ_PTRS_TAIL n tail).queueLines ((List.range (s.flqNew n tail)).map (s.flqPlace n)) .engine (.read none) 0

/-- An enabled ADMIN queue has taken TAIL and fetched its descriptors. -/
def State.flqRung (s : State) (n tail : Nat) : State :=
  ({ s.flqReads n tail with flash := { (s.flqReads n tail).flash with
      fetched := (s.flqReads n tail).flash.fetched ++ s.flqFetched n tail } } : State).setN F.FLQ_PTRS_HEAD n
    (tail % s.flqSize n)

theorem exec_flqDoorbell_other (other : q.toNat < 20 ∨ 24 ≤ q.toNat) : exec (.flqDoorbell q tail) s = done s s :=
  if_pos (by simp only [Bool.or_eq_true, decide_eq_true_eq]; omega)

theorem exec_flqDoorbell_admin (up : s.groupUp .h = true) (low : 20 ≤ q.toNat) (high : q.toNat < 24) :
    exec (.flqDoorbell q tail) s = if s.getN F.FLQ_CFG_EN q.toNat = 0 then done s (s.setN F.FLQ_PTRS_TAIL q.toNat tail.toNat)
      else done s (s.flqRung q.toNat tail.toNat) :=
  if_neg (by simp [up]; omega)

theorem Frame.flqReads (s : State) (n tail : Nat) : Frame (s.setN F.FLQ_PTRS_TAIL n tail) (s.flqReads n tail) [.dram]
    [F.DMC_STATUS_PD, F.DMC_STATUS_SR] := Frame.queueLines _ _ _ _ _ (by simp) (by simp) (by simp)

theorem Frame.flqRung (s : State) (n tail : Nat) : Frame (s.setN F.FLQ_PTRS_TAIL n tail) (s.flqRung n tail) [.flash, .dram]
    [F.FLQ_PTRS_HEAD, F.DMC_STATUS_PD, F.DMC_STATUS_SR] :=
  ((Frame.flqReads s n tail).mono (by simp) (by simp)).trans ((Frame.withFlash _ _ (by simp) _).trans (Frame.setN _ _ _ _ (by simp)))

theorem State.flqRung_flash (s : State) (n tail : Nat) :
    (s.flqRung n tail).flash = { s.flash with fetched := s.flash.fetched ++ s.flqFetched n tail } := by
  have kept : (s.flqReads n tail).flash = s.flash := (State.queueLines_flash _ _ _ _ _).trans (State.setN_flash _ _ _ _)
  rw [State.flqRung, State.setN_flash, kept]

theorem State.flqRung_cells (s : State) (n tail : Nat) : (s.flqRung n tail).dram.cells = s.dram.cells := by
  rw [State.flqRung, State.setN_dram]
  exact (State.queueLines_cells _ _ _ _ _).trans (congrArg Dram.cells (State.setN_dram _ _ _ _))

theorem flqDoorbell_fetches (up : s.groupUp .h = true) (low : 20 ≤ q.toNat) (high : q.toNat < 24)
    (enabled : s.getN F.FLQ_CFG_EN q.toNat ≠ 0) : Answers (.flqDoorbell q tail) s fun t =>
      t.getN F.FLQ_PTRS_TAIL q.toNat = tail.toNat ∧
      t.getN F.FLQ_PTRS_HEAD q.toNat = tail.toNat % s.flqSize q.toNat % 2 ^ F.FLQ_PTRS_HEAD.width ∧
      t.flash.fetched = s.flash.fetched ++ s.flqFetched q.toNat tail.toNat ∧
      { t.flash with fetched := s.flash.fetched } = s.flash ∧ t.dram.cells = s.dram.cells ∧
      Frame s t [.flash, .dram] [F.FLQ_PTRS_TAIL, F.FLQ_PTRS_HEAD, F.DMC_STATUS_PD, F.DMC_STATUS_SR] := by
  have rung := (Frame.flqRung s q.toNat tail.toNat).done s
  refine Answers.of_run ((exec_flqDoorbell_admin up low high).trans (if_neg enabled)) ⟨?_, ?_, ?_, ?_, ?_, ?_⟩
  · rw [rung.reg (by unfold Field.outside; decide), State.getN_setN_self]
    exact Nat.mod_eq_of_lt tail.isLt
  · rw [State.settle_getN _ _ (by unfold Field.outside; decide)]
    exact State.getN_setN_self _ _ _ _
  · rw [State.settle_flash, State.flqRung_flash]
  · rw [State.settle_flash, State.flqRung_flash]
  · rw [State.settle_dram, State.flqRung_cells]
  · exact (Frame.setN s _ _ _ (by simp)).trans (rung.mono (by simp) (by simp +contextual))

theorem flqDoorbell_disabled (up : s.groupUp .h = true) (low : 20 ≤ q.toNat) (high : q.toNat < 24)
    (off : s.getN F.FLQ_CFG_EN q.toNat = 0) : Answers (.flqDoorbell q tail) s fun t =>
      t.getN F.FLQ_PTRS_TAIL q.toNat = tail.toNat ∧ Frame s t [] [F.FLQ_PTRS_TAIL] := by
  refine Answers.of_run ((exec_flqDoorbell_admin up low high).trans (if_pos off)) ⟨?_, (Frame.setN s _ _ _ (by simp)).done s⟩
  rw [State.settle_getN _ _ (by unfold Field.outside; decide), State.getN_setN_self]
  exact Nat.mod_eq_of_lt tail.isLt

end Doorbell

/-! ### FLASH_SUBMIT (R397) -/

section Submit

variable {m : Mailbox} {x : Transfer} {s v : State} {a : Accepted} {b : List Byte}

/-- A begun FLASH_SUBMIT has its descriptor in front of its die. -/
def State.submitted (v : State) (a : Accepted) (d : Line) : State :=
  { v.begin a with flash := { v.flash with fetched := v.flash.fetched ++ [(32, d)] } }

theorem exec_flashSubmit (begins : s.begins m (isOp Op.flashSubmit) a) (data : s.brings a 64 x v b) :
    exec (.flashSubmit m x) s = done s
      (if descLen (BitVec.ofNat 512 (ofLeBytes b)) ≠ cmdArg a.cmd 1 then v.complete a CC.lengthMismatch (cmdArg a.cmd 1)
       else v.submitted a (BitVec.ofNat 512 (ofLeBytes b))) :=
  congrArg (done s) ((State.onCmd_of_begins begins _).trans (State.withInput_of_brings data _))

theorem flashSubmit_queues (begins : s.begins m (isOp Op.flashSubmit) a) (data : s.brings a 64 x v b)
    (agrees : descLen (BitVec.ofNat 512 (ofLeBytes b)) = cmdArg a.cmd 1) : Answers (.flashSubmit m x) s fun t =>
      t.flash = { v.flash with fetched := v.flash.fetched ++ [(32, BitVec.ofNat 512 (ofLeBytes b))] } ∧
      (∃ c ∈ t.mbx.accepted, c.id = a.id ∧ c.begun = true) ∧ Frame v t [.mbx, .flash] [] := by
  have accepted : a ∈ v.mbx.accepted := (KeepsMail.brings data).mbx ▸ (State.nextCmd_accepted begins.1).1
  refine Answers.of_run ((exec_flashSubmit begins data).trans (congrArg (done s) (if_neg (not_not.2 agrees))))
    ⟨State.settle_flash _ _, ⟨a.started, ?_, rfl, rfl⟩,
      Frame.done s ((Frame.update v _ (by simp) _).trans (Frame.withFlash _ _ (by simp) _))⟩
  rw [State.settle_mbx]
  exact List.mem_map.2 ⟨a, accepted, if_pos rfl⟩

theorem flashSubmit_mismatch (begins : s.begins m (isOp Op.flashSubmit) a) (data : s.brings a 64 x v b)
    (differs : descLen (BitVec.ofNat 512 (ofLeBytes b)) ≠ cmdArg a.cmd 1) :
    Ends (.flashSubmit m x) s v a CC.lengthMismatch (cmdArg a.cmd 1) :=
  Ends.of_run ((exec_flashSubmit begins data).trans (congrArg (done s) (if_pos differs)))

end Submit

/-! ### Entries of the journal (R401, R402) -/

theorem State.writeJournalPage_entries (s : State) {es : List JournalEntry} {e : JournalEntry} (h : e ∈ es) :
    e ∈ (s.writeJournalPage es).journalEntries := by
  unfold State.writeJournalPage State.journalEntries
  dsimp only
  split <;> simp [JournalPage.list, h]

/-- However many pages the entries take, the last of them stands in the last page. -/
theorem State.writeJournal_last (n : Nat) {es : List JournalEntry} {e : JournalEntry} (s : State) (fuel : es.length ≤ n)
    (last : es.getLast? = some e) : e ∈ (s.writeJournal n es).journalEntries := by
  induction n generalizing s es with
  | zero => simp [List.eq_nil_of_length_eq_zero (Nat.le_zero.1 fuel)] at last
  | succ n ih =>
    have filled : es.isEmpty = false := by
      cases es with
      | nil => simp at last
      | cons => rfl
    rw [State.writeJournal, if_neg (by simp [filled])]
    by_cases whole : es.length ≤ 1020
    · have idle : ∀ t : State, t.writeJournal n [] = t := fun t => by cases n <;> rfl
      rw [List.take_of_length_le whole, List.drop_of_length_le whole, idle]
      exact s.writeJournalPage_entries (List.mem_of_getLast? last)
    · refine ih _ (by rw [List.length_drop]; omega) ?_
      rw [List.getLast?_drop, if_neg whole, last]

theorem State.journal_entry (s : State) (e : JournalEntry) : e ∈ (s.journal [e]).journalEntries :=
  State.writeJournal_last _ _ le_rfl List.getLast?_concat

/-! ### What a die needs before it starts (R400) -/

/-- From `s` to `t` the controller has made its records, and the descriptors in front of the dies and the cells are as they were. -/
structure Readied (s t : State) : Prop where
  frame : Frame s t [.flash] [F.FLV_STATUS_INCOMPLETE]
  fetched : t.flash.fetched = s.flash.fetched
  pages : t.flash.pages = s.flash.pages

namespace Readied

variable {s t u : State}

theorem refl (s : State) : Readied s s := ⟨Frame.refl s _ _, rfl, rfl⟩

theorem trans (h : Readied s t) (k : Readied t u) : Readied s u :=
  ⟨h.frame.trans k.frame, k.fetched.trans h.fetched, k.pages.trans h.pages⟩

theorem foldl {α : Type} (step : State → α → State) (l : List α) (h : ∀ s a, Readied s (step s a)) (s : State) :
    Readied s (l.foldl step s) :=
  List.foldlRecOn l step (motive := fun t => Readied s t) (refl s) fun t ht a _ => ht.trans (h t a)

theorem writeJournalPage (s : State) (es : List JournalEntry) : Readied s (s.writeJournalPage es) := by
  refine ⟨(FlashWork.writeJournalPage s es).frame (by simp) _, ?_, ?_⟩ <;>
  · unfold State.writeJournalPage
    dsimp only
    split <;> simp

theorem writeJournal (n : Nat) (es : List JournalEntry) (s : State) : Readied s (s.writeJournal n es) := by
  induction n generalizing s es with
  | zero => exact refl s
  | succ n ih =>
    unfold State.writeJournal
    split
    · exact refl s
    · exact (writeJournalPage s _).trans (ih _ _)

theorem journal (s : State) (es : List JournalEntry) : Readied s (s.journal es) :=
  Readied.trans (t := { s with flash := { s.flash with waitingDone := [] } }) ⟨Frame.withFlash s _ (by simp) _, rfl, rfl⟩
    (writeJournal _ _ _)

theorem setBlock (s : State) (die pb : Nat) (b : BlockState) : Readied s (s.setBlock die pb b) where
  frame := (Frame.withFlash s _ (by simp) _).trans (Frame.set _ _ _ (by simp))
  fetched := by simp [State.setBlock]
  pages := by simp [State.setBlock]

theorem beginErase (s : State) (die : Nat) (pbs : List Nat) : Readied s (s.beginErase die pbs) :=
  (journal s _).trans (foldl _ _ (fun t pb => setBlock t die pb .erasing) _)

end Readied

/-- An erase of one block has its intent on record, and the block ERASING (R400). -/
theorem State.beginErase_one (s : State) (die pb : Nat) : (s.beginErase die [pb]).flash.blocks.get? (4096 * die + pb) = some .erasing ∧
    ∃ e ∈ (s.beginErase die [pb]).journalEntries, e.op = 1 ∧ e.block = pb ∧ e.ch = die % 16 ∧ e.die = die / 16 := by
  have one : s.beginErase die [pb] = (s.journal [s.entry 1 die pb 0]).setBlock die pb .erasing := rfl
  rw [one]
  refine ⟨?_, s.entry 1 die pb 0, ?_, rfl, rfl, rfl, rfl⟩
  · rw [State.setBlock, State.set_flash, Store.get?_set_self]
  · rw [State.journalEntries, State.setBlock, State.set_flash]
    exact s.journal_entry _

/-! ### What a die runs (R385, R386) -/

theorem Frame.setDie (s : State) (die : Nat) (r h : Option DieOp) {ps : List Part} {fs : List Field} (hp : .flash ∈ ps)
    (busy : F.FLC_STATUS_BUSY ∈ fs) (susp : F.FLC_STATUS_SUSP ∈ fs) : Frame s (s.setDie die r h) ps fs := by
  unfold State.setDie
  exact ((Frame.withFlash s _ hp fs).trans (Frame.setN _ _ _ _ busy)).trans (Frame.setN _ _ _ _ susp)

/-- What a die runs and holds is apart from everything else in the flash. -/
theorem State.setDie_flash (s : State) (die : Nat) (r h : Option DieOp) : (s.setDie die r h).flash =
    { s.flash with running := (s.setDie die r h).flash.running, held := (s.setDie die r h).flash.held } := by
  simp [State.setDie]

theorem State.setDie_runs (s : State) (die : Nat) (o : DieOp) (h : Option DieOp) :
    (s.setDie die (some o) h).flash.running.get? die = some o := by
  simp [State.setDie]

/-! ### A die starts a descriptor (R385, R389, R400) -/

/-- What stands on record before a descriptor runs: an erase's intent, or the page that a program begins. -/
def State.readied (s : State) (die : Nat) (d : Line) : State :=
  let pbs := (descBlocks d).map (s.descPhysBlock d)
  if descOp d = 3 then s.beginErase die pbs
  else if descOp d = 2 then
    { s with flash := { s.flash with np := pbs.foldl (fun m pb => m.set (4096 * die + pb) (descPage d + 1)) s.flash.np } }
  else s

/-- The operation of a descriptor as it starts. -/
def State.starting (s : State) (die q : Nat) (d : Line) : DieOp :=
  ⟨q, d, (s.readied die d).now, (s.readied die d).now, false, if descOp d = 2 then s.programPages d else []⟩

theorem State.startDesc_eq (s : State) (die q : Nat) (d : Line) : s.startDesc die q d =
    (s.readied die d).setDie die (some (s.starting die q d)) ((s.readied die d).flash.held.get? die) := rfl

theorem State.readied_readied (s : State) (die : Nat) (d : Line) : Readied s (s.readied die d) := by
  unfold State.readied
  dsimp only
  split_ifs
  · exact Readied.beginErase s die _
  · exact ⟨Frame.withFlash s _ (by simp) _, rfl, rfl⟩
  · exact Readied.refl s

section Serve

variable {c : Instr} {s : State} {die q : Nat} {d : Line} {ops : Nat → Bool}

theorem State.serveDie_starts (up : s.groupUp .h = true) (on : s.flash.off = false) (picks : s.pickDesc die = some (q, d))
    (passes : s.descCheck q d = none) (idle : s.flash.running.get? die = none) (unheld : s.flash.held.get? die = none)
    (served : ops (descOp d) = true) : s.serveDie die ops = (s.takeDesc (q, d)).startDesc die q d := by
  simp [State.serveDie, State.freeDie, up, on, picks, passes, idle, unheld, served]

theorem State.serveDie_refuses (up : s.groupUp .h = true) (on : s.flash.off = false) (picks : s.pickDesc die = some (q, d))
    {code : Nat} (fails : s.descCheck q d = some code) (served : ops (descOp d) = true) :
    s.serveDie die ops = (s.takeDesc (q, d)).endDesc q d code 0 0 0 0 0 s.now [] := by
  simp [State.serveDie, up, on, picks, fails, served]

/-- A descriptor that leaves its queue and starts runs from now on. -/
theorem startDesc_starts (run : exec c s = done s ((s.takeDesc (q, d)).startDesc die q d)) : Answers c s fun t =>
    (∃ o : DieOp, t.flash.running.get? die = some o ∧ o.queue = q ∧ o.desc = d ∧ o.start = s.now) ∧
    t.flash.fetched = s.flash.fetched.erase (q, d) ∧ t.flash.pages = s.flash.pages ∧
    Frame s t [.flash] [F.FLV_STATUS_INCOMPLETE, F.FLC_STATUS_BUSY, F.FLC_STATUS_SUSP] := by
  have taken : Frame s (s.takeDesc (q, d)) [.flash] [F.FLV_STATUS_INCOMPLETE] := Frame.withFlash s _ (by simp) _
  have readied := (s.takeDesc (q, d)).readied_readied die d
  obtain ⟨clock, -⟩ := taken.trans readied.frame
  refine Answers.of_run (run.trans (congrArg (done s) (State.startDesc_eq _ _ _ _)))
    ⟨⟨(s.takeDesc (q, d)).starting die q d, ?_, rfl, rfl, clock⟩, ?_, ?_, ?_⟩
  · rw [State.settle_flash]
    exact State.setDie_runs _ _ _ _
  · rw [State.settle_flash, State.setDie_flash]
    exact readied.fetched
  · rw [State.settle_flash, State.setDie_flash]
    exact readied.pages
  · exact (((taken.trans readied.frame).mono (by simp) (by simp)).trans
      (Frame.setDie _ _ _ _ (by simp) (by simp) (by simp))).done s

/-- An erase of one plane has its block ERASING and its intent in the journal. -/
theorem startDesc_erases (run : exec c s = done s ((s.takeDesc (q, d)).startDesc die q d)) (erases : descOp d = FlashOp.erase)
    (plane : descPlanes d = 0) : Answers c s fun t =>
      t.flash.blocks.get? (4096 * die + s.descPhysBlock d (descBlock d)) = some .erasing ∧
      ∃ e ∈ t.journalEntries, e.op = 1 ∧ e.block = s.descPhysBlock d (descBlock d) ∧ e.ch = die % 16 ∧ e.die = die / 16 := by
  have one : (s.takeDesc (q, d)).readied die d = (s.takeDesc (q, d)).beginErase die [s.descPhysBlock d (descBlock d)] := by
    rw [State.readied, if_pos (show descOp d = 3 from erases), descBlocks, if_pos plane]
    rfl
  obtain ⟨erasing, intent⟩ := (s.takeDesc (q, d)).beginErase_one die (s.descPhysBlock d (descBlock d))
  rw [← one] at erasing intent
  refine Answers.of_run (run.trans (congrArg (done s) (State.startDesc_eq _ _ _ _))) ?_
  rw [State.journalEntries, State.settle_flash, State.setDie_flash]
  exact ⟨erasing, intent⟩

end Serve

/-! ### A descriptor that fails a check (R389, R397) -/

/-- The codes of a check that fails: those of R391 but OK. -/
def failing (code : Nat) : Bool := decide (0 < code ∧ code < 16)

theorem State.planeCheck_failing (s : State) (q : Nat) (d : Line) (b : Nat) : (s.planeCheck q d b).all failing = true := by
  unfold State.planeCheck
  dsimp only
  repeat' split
  all_goals rfl

theorem State.descCheck_failing (s : State) (q : Nat) (d : Line) : (s.descCheck q d).all failing = true := by
  unfold State.descCheck
  split
  · rfl
  · split
    · rfl
    · split
      · rfl
      · split
        next found =>
          obtain ⟨b, -, plane⟩ := List.exists_of_findSome?_eq_some found
          exact plane ▸ s.planeCheck_failing q d b
        · split <;> rfl

theorem descTag_lt (d : Line) : descTag d < 2 ^ 16 := Nat.mod_lt _ (by norm_num)

/-- The first 8 bytes of the completion of a descriptor that fails a check (R390). -/
theorem cplFlash_refused (d : Line) {code : Nat} (small : code < 16) (us : Nat) :
    cplFlash d code 0 0 0 0 0 0 us % 2 ^ 64 = descTag d + code * 2 ^ 16 := by
  have tag := descTag_lt d
  simp only [cplFlash]
  omega

theorem State.endDesc_submit {s : State} {a : Accepted}
    (first : s.mbx.accepted.find? (fun a => a.begun && cmdOpcode a.cmd == Op.flashSubmit) = some a) (d : Line) {code : Nat}
    (bad : 0 < code) (small : code < 16) (start : Nat) :
    s.endDesc 32 d code 0 0 0 0 0 start [] = s.complete a CC.flashError (descTag d + code * 2 ^ 16) := by
  rw [State.endDesc]
  simp only [if_true, first, if_neg (show ¬ code = Fs.ok from Nat.ne_of_gt bad), cplFlash_refused d small]

theorem flashErase_refuses {die : BitVec 6} {s : State} {d : Line} {code : Nat} {a : Accepted} (up : s.groupUp .h = true)
    (on : s.flash.off = false) (picks : s.pickDesc die.toNat = some (32, d)) (fails : s.descCheck 32 d = some code)
    (erases : descOp d = FlashOp.erase)
    (first : s.mbx.accepted.find? (fun a => a.begun && cmdOpcode a.cmd == Op.flashSubmit) = some a) :
    Answers (.flashErase die) s fun t =>
      Completed s a CC.flashError (descTag d + code * 2 ^ 16) t ∧ t.flash.running = s.flash.running := by
  have failed := s.descCheck_failing 32 d
  rw [fails] at failed
  obtain ⟨bad, small⟩ := of_decide_eq_true failed
  have ends := State.endDesc_submit (s := s.takeDesc (32, d)) first d bad small s.now
  refine Answers.of_run (congrArg (done s) ((State.serveDie_refuses up on picks fails (by simp [erases])).trans ends))
    ⟨(SameRings.withFlash s _).completed s a _ _, ?_⟩
  rw [State.settle_flash, State.complete_flash]
  rfl

/-- Settles O46: a doorbell by its queue, a FLASH_SUBMIT by its length, and a die's next descriptor by whether it passes its checks. -/
theorem flashDescriptorsAreServed : Obligations.FlashDescriptorsAreServed := by
  refine ⟨fun q tail s up low high enabled => flqDoorbell_fetches up low high enabled,
    fun q tail s up low high off => flqDoorbell_disabled up low high off,
    fun q tail s other => Answers.of_idle (exec_flqDoorbell_other other),
    fun m x s a begins v b data => ⟨flashSubmit_queues begins data, flashSubmit_mismatch begins data⟩,
    fun die s q d up on picks passes idle unheld => ?_,
    fun die s d code a up on picks fails erases first => flashErase_refuses up on picks fails erases first⟩
  have served : ∀ ops : Nat → Bool, ops (descOp d) = true → done s (s.serveDie die.toNat ops) =
      done s ((s.takeDesc (q, d)).startDesc die.toNat q d) :=
    fun ops serves => congrArg (done s) (State.serveDie_starts up on picks passes idle unheld serves)
  exact ⟨fun reads => startDesc_starts (served _ (by simp [reads, FlashOp.read])),
    fun programs => startDesc_starts (served _ (by simp [programs])),
    fun asks => startDesc_starts (served _ (by simp [asks])),
    fun erases => ⟨startDesc_starts (served _ (by simp [erases])),
      fun plane => startDesc_erases (served _ (by simp [erases])) erases plane⟩⟩

end Sys2Proof.Machine

/-! SUPPORT. Where the end of a FLASH_SUBMIT's read does not deliver: in D3hot its writes to host memory wait for D0 (R478). -/

namespace Sys2Proof.Machine

/-- Relocations that wait are tried (R410). -/
def State.tryRelocations (s : State) : State :=
  if s.grn.unrestored.isEmpty && s.backgroundRuns then
    s.flash.relocate.foldl (fun t k => t.relocate (k / 1024) (k % 1024)) s
  else s

/-- What the end of a read leaves (R390): the die free, what the read found delivered as far as it goes, and what waited tried. -/
def State.readEnds (s : State) (n : Nat) (o : DieOp) (r : FlashOutcome) : State :=
  ((((s.setDie n none (s.flash.held.get? n)).endRead n o r).tryRelocations).resumeDie n).settleOwed

theorem exec_flashCompletion_read {die : BitVec 6} {s : State} {o : DieOp} (runs : s.flash.running.get? die.toNat = some o)
    (reads : descOp o.desc = FlashOp.read) (r : FlashOutcome) :
    exec (.flashCompletion die r) s = done s (s.readEnds die.toNat o r) := by
  have run : exec (.flashCompletion die r) s = execFlashCompletion die r s := rfl
  rw [run, execFlashCompletion, runs]
  simp only [reads]
  rfl

/-- A FLASH_SUBMIT that has begun, and its read of the first sector of an erased block. -/
def submitting : Accepted := { Accepted.new 5 .admin (BitVec.ofNat 512 Op.flashSubmit) with begun := true }
def erasedRead : DieOp := ⟨32, BitVec.ofNat 512 (FlashOp.read + 100 * 2 ^ 48 + 2 ^ 88), 0, 0, false, []⟩

/-- The function is in D3hot while die 0 runs that read. -/
def asleep : State :=
  { State.reset with
    pwr := { State.reset.pwr with d3hot := true }
    mbx := { State.reset.mbx with accepted := [submitting] }
    flash := { State.reset.flash with running := [(0, erasedRead)] } }

/-- The read ends without an error. -/
def soundRead : FlashOutcome := ⟨0, 0, 0, 0, false, 0, 0⟩

theorem asleep_reads : asleep.flash.running.get? (0 : BitVec 6).toNat = some erasedRead ∧ asleep.flash.held.get? (0 : BitVec 6).toNat = none ∧
    asleep.flash.relocate = [] ∧ descPlanes erasedRead.desc = 0 ∧ descOp erasedRead.desc = FlashOp.read ∧
    descRaw erasedRead.desc = false := by decide +kernel

theorem asleep_reaches : asleep.atsOn = false ∧ asleep.linkClosed = false ∧ inDevice (cmdArg submitting.cmd 0) = false ∧
    asleep.ctxCheck (asleep.mailboxCtx submitting.mb) (cmdArg submitting.cmd 0) = none ∧
    asleep.mbx.accepted.find? (fun a => a.begun && cmdOpcode a.cmd == Op.flashSubmit) = some submitting := by decide +kernel

/-- All its sectors decode. -/
theorem asleep_decodes : ∀ x ∈ asleep.readSectors (0 : BitVec 6).toNat erasedRead.desc soundRead.sectorErr.toNat,
    x.fails = false ∧ x.known.isSome = true := by
  have all : (asleep.readSectors (0 : BitVec 6).toNat erasedRead.desc soundRead.sectorErr.toNat).all
      (fun x => !x.fails && x.known.isSome) = true := by decide +kernel
  simpa using all

/-- No request goes to host memory in D3hot (R478): the command still owes its bytes. -/
theorem asleep_owes : ∃ b ∈ (asleep.readEnds (0 : BitVec 6).toNat erasedRead soundRead).mbx.accepted, b.id = submitting.id := by
  decide +kernel

/-- Refutes O47: the read of a FLASH_SUBMIT ends in D3hot, where its writes to host memory wait for D0, so that the command is not
completed. -/
theorem not_flashOperationsEnd : ¬ Obligations.FlashOperationsEnd := by
  intro h
  obtain ⟨runs, unheld, settled, plane, reads, cooked⟩ := asleep_reads
  obtain ⟨ats, open_, host, checked, first⟩ := asleep_reaches
  obtain ⟨-, -, delivers⟩ := h.1 0 soundRead asleep erasedRead runs unheld settled plane
  obtain ⟨t, run, -, -, forgotten, -⟩ :=
    delivers submitting reads rfl cooked ats open_ host checked rfl asleep_decodes first
  rw [exec_flashCompletion_read (die := 0) runs reads] at run
  obtain rfl := Host.Outcome.next.inj run
  rw [State.settle_mbx] at forgotten
  obtain ⟨b, accepted, same⟩ := asleep_owes
  exact forgotten b accepted same

end Sys2Proof.Machine
